-- ==== Sys2Proof/Word.lean ====
section
/-! DEFINITION. The word types of the PQ-2480 (R5: registers are 64 bits wide, bit 0 least significant). -/

namespace Sys2Proof

/-- A 64-bit word: a register (R5), an instruction (R108), a descriptor word (R121). -/
abbrev Word := BitVec 64

/-- One byte. -/
abbrev Byte := BitVec 8

/-- A register number g0 to g31 of a Tarpeth instruction (R108). -/
abbrev Reg := BitVec 5

/-- The 32-bit immediate field of a Tarpeth instruction (R108). -/
abbrev Imm := BitVec 32

end Sys2Proof
end

