-- ==== Sys2Proof/Syntax.lean ====
section
/-! DEFINITION. The commands of the PQ-2480: one constructor of `Instr` for each row of spec/opcode_table.json, with the operand types they carry. -/

namespace Sys2Proof

/-- The source of a KCI command (R469): the physical function, a virtual function 1 to 64, or the management port. -/
inductive Source where
  | pf
  | vf (v : Nat)
  | mgmt
deriving DecidableEq, Repr

/-- What every KCI command carries beside its operands (R468): who sent it, through the mailbox or not (R474), its TAG,
PART when PART_EN is set, and the operand words 1 to 7 of its descriptor as they were submitted (the Itinerary keeps words
1 to 4, R506). -/
structure Kci where
  src   : Source
  mbox  : Bool
  tag   : BitVec 16
  part  : Option Nat
  words : List Word
deriving DecidableEq, Repr

/-- Where a command finds bytes (R154): host memory of the issuing function, or the partition's device-memory view. -/
inductive DataAt where
  | host (addr : Nat)
  | device (addr : Nat)
deriving DecidableEq, Repr

/-- Roles of DATUM_SYNC_CAL (R170), in the codes of DTM_CTRL.ROLE. -/
inductive SyncRole where
  | standalone | leader | follower
deriving DecidableEq, Repr

/-- Kinds of Meridian object (R184). -/
inductive MerKind where
  | count | event | barrier
deriving DecidableEq, Repr

/-- How a group's hosted member is attached (R213). -/
inductive MemberKind where
  | accel (lport : Nat)
  | host (fn : Nat)
  | device
deriving DecidableEq, Repr

/-- What CFL_ABORT names (R254). -/
inductive AbortWhat where
  | one (group seq : Nat)
  | all (group : Nat)
  | job (tag : Nat)
deriving DecidableEq, Repr

/-- The operands of CFL_GROUP_DEFINE (R213). -/
structure GroupDef where
  id      : Nat
  part    : Nat
  members : List Nat
  hosted  : List (Nat × MemberKind)
  tiles   : List Nat
  reserve : Nat
  cls     : Nat
  progTimeoutLog2 : Nat
  audit   : Bool
deriving DecidableEq, Repr

/-- The operands of GAZ_TABLE_DEFINE (R258). -/
structure TableDef where
  id       : Nat
  part     : Nat
  fmt      : Nat
  /-- 0 or 1; any other value lies outside its range (R258). -/
  block    : Nat
  d        : Nat
  rowBytes : Nat
  pinRows  : Nat
  pinDie   : Nat
  pinOff   : Nat
  stkRows  : Nat
  stkBase  : Nat
  farRows  : Nat
  farPort  : Nat
  farBase  : Nat
deriving DecidableEq, Repr

/-- Port modes (R304, BRG_SUB_CFG.MODE). -/
inductive PortMode where
  | disabled | switch | endpoint | ethernet
deriving DecidableEq, Repr

/-- The per-sub-port operands of PORT_CONFIG (R327). -/
structure SubConfig where
  mode       : PortMode
  unpausable : Bool
  pfcEn      : Bool
  promisc    : Bool
  part       : Option Nat
  mac        : BitVec 48
  partnerGrid : Nat
  expectPrefix : Nat
  retxSize   : Nat
  rtoLog2    : Nat
  onchipLimit : Nat
  ringBase   : Nat
  ringSize   : Nat
deriving DecidableEq, Repr

/-- Actions of PORT_LINK (R327). -/
inductive LinkAction where
  | up | down | retrain
deriving DecidableEq, Repr

/-- A converter profile (R311). -/
structure ConvProfile where
  quantEn   : Bool
  dequantEn : Bool
  srcFmt    : Nat
  wireFmt   : Nat
  stoch     : Bool
  dstFmt    : Nat
deriving DecidableEq, Repr

/-- A PLP packet: the route word of R297, the 64-byte flit as words, and the payload of a data packet. -/
structure Packet where
  isData  : Bool
  vc      : Nat
  dest    : Nat
  ulp     : Nat
  hops    : Nat
  /-- PFLITS: data flits minus one; 0 for a control packet. -/
  pflits  : Nat := 0
  flit    : List Word
  /-- The payload as far as it has arrived; PAYLOAD_BYTES of the header counts the whole. -/
  payload : List Byte
deriving DecidableEq, Repr

/-- A link unit as it leaves FEC decode (R295, R296): its tag, body and CRC-32, byte 0 first, and the FEC symbols corrected and
codewords uncorrectable since the unit before it (R328). -/
structure LinkUnit where
  bytes  : List Byte
  corr   : Nat := 0
  uncorr : Nat := 0
deriving DecidableEq, Repr

/-- The LINK_ID body (R307). -/
structure LinkId where
  serial  : List Byte
  build   : List Byte
  role    : Nat
  version : Nat
  lport   : Nat
  pfx     : Nat
  credits : List Nat
  partNo  : List Byte
deriving DecidableEq, Repr

/-- An Ethernet frame as it leaves FEC decode: the bytes from the destination address through the FCS, and the FEC symbols
corrected and codewords uncorrectable since the frame before it (R315, R328). -/
structure Frame where
  bytes  : List Byte
  corr   : Nat := 0
  uncorr : Nat := 0
deriving DecidableEq, Repr

/-- Targets of a local-table entry (R331). -/
inductive LocalTarget where
  | none
  | subport (lport : Nat)
  | host (fn row : Nat)
  | device (part row : Nat)
  | cfl (die row : Nat)
  | sheet (die row : Nat)
deriving DecidableEq, Repr

/-- Which port set ROUTE_SET_PORTSET writes (R332). -/
inductive PortSetId where
  | up
  | down (branch : Nat)
deriving DecidableEq, Repr

/-- One alias entry (R333). -/
structure AliasEntry where
  mtch  : Nat
  depth : Nat
  valid : Bool
  repl  : Nat
deriving DecidableEq, Repr

/-- A multicast target (R352). -/
inductive McTarget where
  | port (lport : Nat)
  | loc (p : Nat)
deriving DecidableEq, Repr

/-- What TRV_QUEUE_CFG sets (R349, R350). -/
inductive QueueCfg where
  | queue (die port cls mark onchip spill : Nat)
  | die (die spillSize flushCc : Nat)
deriving DecidableEq, Repr

/-- Class 0 to 7 or the port shaper (R379). -/
inductive ShaperId where
  | cls (c : Nat)
  | port
deriving DecidableEq, Repr

/-- One gate entry (R369). -/
structure GateEntry where
  duration : Nat
  openMask : BitVec 8
deriving DecidableEq, Repr

/-- One member of a sheet (R381). -/
inductive SheetMember where
  | none
  | pq (pfx : Nat) (homeP : List Nat)
  | endpoint (grid : Nat)
deriving DecidableEq, Repr

/-- One window entry (R387). -/
structure Window where
  valid : Bool
  plp   : Bool
  load  : Bool
  store : Bool
  atomic : Bool
  anyJob : Bool
  member : Nat
  jobTag : Nat
  base  : Nat
  size  : Nat
  dest  : Nat
deriving DecidableEq, Repr

/-- The owner of a window table (R387). -/
inductive WinOwner where
  | part (p : Nat)
  | sub (lport : Nat)
deriving DecidableEq, Repr

/-- A region entry of STK_REGION_SET (R407). -/
structure RegionDef where
  part   : Nat
  system : Bool
  global : Bool
  die    : Nat
  vbase  : Nat
  firstBand : Nat
  bands  : Nat
  reserved : Bool
deriving DecidableEq, Repr

/-- The owner of a region: a partition, or the device itself (R407). -/
inductive RegionOwner where
  | part (p : Nat)
  | system
deriving DecidableEq, Repr

/-- Selections of STK_BRINGUP_SELECT (R425). -/
inductive Bringup where
  | none | margin | repair
deriving DecidableEq, Repr

/-- Sweeps of STK_MARGIN (R426). -/
inductive Sweep where
  | dqDelay | vref | supply
deriving DecidableEq, Repr

/-- Actions of FAR_PORT_CTRL (R433). -/
inductive FarAction where
  | enable | disable | reset
deriving DecidableEq, Repr

/-- Identity of a far device (R430). -/
structure FarId where
  vendor : Nat
  device : Nat
  serial : Nat
  firmware : Nat
  capacity : Nat
  mld : Bool
deriving DecidableEq, Repr

/-- Bank power states (R439). -/
inductive BankPower where
  | on | retention | off
deriving DecidableEq, Repr

/-- What ATL_POWER names (R458). -/
inductive PowerTarget where
  | tiles (ts : List Nat)
  | banks (ids : List Nat)
deriving DecidableEq, Repr

/-- Resource list of PART_ASSIGN (R479). -/
structure PartRes where
  tiles : List Nat
  subs  : List Nat
  firstQ : Nat
  numQ  : Nat
deriving DecidableEq, Repr

/-- Life-cycle states (R490). -/
inductive LcState where
  | blank | provisioned | deployed | returned | decommissioned
deriving DecidableEq, Repr

/-- Bridges between quadrant dies and hub links (R20). -/
inductive BridgeId where
  | die (a b : Nat)
  | hub (d : Nat)
deriving DecidableEq, Repr

/-- Parts of a fault-map entry (R534). -/
inductive FaultPart where
  | scratchpad | sequencer | engine | router
deriving DecidableEq, Repr

/-- Power alarms and excursions of the input (R541). -/
inductive InputEvent where
  | low | high | overpower | lowOff | highOff | overpowerOff
deriving DecidableEq, Repr

/-- Rail excursions (R544). -/
inductive RailEvent where
  | warn | fault | tamper
deriving DecidableEq, Repr

/-- The commands, one constructor for each row of spec/opcode_table.json, in the table's order. `t` is the logical tile index 256d + 16y + x
(R72); a `cc` operand is the core cycle an event falls in; `k` is what a KCI descriptor carries beside its operands. -/
inductive Instr where
  /-- NOP (R110): The instruction does nothing. -/
  | nop (t : Nat)
  /-- END (R81): The strand becomes FREE, releases its message ring lines and closes every loop level. -/
  | end_ (t : Nat)
  /-- YIELD (R115): The strand becomes RUNNABLE and its count of 64 instructions restarts. -/
  | yield (t : Nat)
  /-- RXREL (R88): Releases the ring lines of the message whose header line is at g29. -/
  | rxrel (t : Nat)
  /-- TRAP (R110): Halts the tile with USER_TRAP, and the notice carries IMM[15:0]. -/
  | trap (t : Nat) (imm : Imm)
  /-- ADD (R110): Writes the 64-bit sum of two registers. -/
  | add (t : Nat) (rd ra rb : Reg)
  /-- SUB (R110): Writes the 64-bit difference of two registers. -/
  | sub (t : Nat) (rd ra rb : Reg)
  /-- AND (R110): Writes the bitwise AND of two registers. -/
  | and (t : Nat) (rd ra rb : Reg)
  /-- OR (R110): Writes the bitwise OR of two registers. -/
  | or (t : Nat) (rd ra rb : Reg)
  /-- XOR (R110): Writes the bitwise XOR of two registers. -/
  | xor (t : Nat) (rd ra rb : Reg)
  /-- SHL (R110): Shifts a register left by a register amount. -/
  | shl (t : Nat) (rd ra rb : Reg)
  /-- SHR (R110): Shifts a register right, logically, by a register amount. -/
  | shr (t : Nat) (rd ra rb : Reg)
  /-- SAR (R110): Shifts a register right, arithmetically, by a register amount. -/
  | sar (t : Nat) (rd ra rb : Reg)
  /-- MUL (R110): Writes the low 64 bits of the product of two registers. -/
  | mul (t : Nat) (rd ra rb : Reg)
  /-- MIN (R110): Writes the signed minimum of two registers. -/
  | min (t : Nat) (rd ra rb : Reg)
  /-- MAX (R110): Writes the signed maximum of two registers. -/
  | max (t : Nat) (rd ra rb : Reg)
  /-- SLT (R110): Writes 1 if the first register is less than the second, signed, and 0 otherwise. -/
  | slt (t : Nat) (rd ra rb : Reg)
  /-- SLTU (R110): Writes 1 if the first register is less than the second, unsigned, and 0 otherwise. -/
  | sltu (t : Nat) (rd ra rb : Reg)
  /-- ADDI (R110): Adds a sign-extended immediate to a register. -/
  | addi (t : Nat) (rd ra : Reg) (imm : Imm)
  /-- ANDI (R110): ANDs a register with a sign-extended immediate. -/
  | andi (t : Nat) (rd ra : Reg) (imm : Imm)
  /-- ORI (R110): ORs a register with a sign-extended immediate. -/
  | ori (t : Nat) (rd ra : Reg) (imm : Imm)
  /-- XORI (R110): XORs a register with a sign-extended immediate. -/
  | xori (t : Nat) (rd ra : Reg) (imm : Imm)
  /-- SHLI (R110): Shifts a register left by an immediate amount. -/
  | shli (t : Nat) (rd ra : Reg) (imm : Imm)
  /-- SHRI (R110): Shifts a register right, logically, by an immediate amount. -/
  | shri (t : Nat) (rd ra : Reg) (imm : Imm)
  /-- SARI (R110): Shifts a register right, arithmetically, by an immediate amount. -/
  | sari (t : Nat) (rd ra : Reg) (imm : Imm)
  /-- LI (R110): Loads a sign-extended immediate into a register. -/
  | li (t : Nat) (rd : Reg) (imm : Imm)
  /-- LUI (R110): Sets the upper 32 bits of a register from the immediate. -/
  | lui (t : Nat) (rd : Reg) (imm : Imm)
  /-- LD (R111): Loads a 64-bit scratchpad word in the sequencer's next slot for the word's bank. -/
  | ld (t : Nat) (rd ra : Reg) (imm : Imm)
  /-- ST (R111): Stores a 64-bit word to the scratchpad in the sequencer's next slot for the word's bank. -/
  | st (t : Nat) (rb ra : Reg) (imm : Imm)
  /-- LDW (R111): Loads a 32-bit scratchpad word, zero-extended. -/
  | ldw (t : Nat) (rd ra : Reg) (imm : Imm)
  /-- STW (R111): Stores the low 32 bits of a register to the scratchpad. -/
  | stw (t : Nat) (rb ra : Reg) (imm : Imm)
  /-- BR (R110): Branches on a comparison of two registers. -/
  | br (t : Nat) (cond : BitVec 5) (ra rb : Reg) (imm : Imm)
  /-- JMP (R110): Jumps to the immediate address. -/
  | jmp (t : Nat) (imm : Imm)
  /-- JR (R113): Jumps to the address held in a register. -/
  | jr (t : Nat) (ra : Reg)
  /-- CALL (R110): Saves the return address in a register and jumps. -/
  | call (t : Nat) (rd : Reg) (imm : Imm)
  /-- DBNZ (R110): Decrements a register and branches if the result is nonzero. -/
  | dbnz (t : Nat) (ra : Reg) (imm : Imm)
  /-- LOOP (R116): Opens a hardware loop level, or skips the body when the count is zero. -/
  | loop (t : Nat) (ra : Reg) (imm : Imm)
  /-- LIDX (R110): Reads the iteration index of a loop level. -/
  | lidx (t : Nat) (rd : Reg) (imm : Imm)
  /-- RDREG (R114): Reads a register of the tile's own window. -/
  | rdreg (t : Nat) (rd : Reg) (imm : Imm)
  /-- WRREG (R114): Writes a register of the tile's own window, or is ignored with an access-error notice. -/
  | wrreg (t : Nat) (ra : Reg) (imm : Imm)
  /-- QFREE (R146): Returns the free entries of an engine queue. -/
  | qfree (t : Nat) (rd : Reg) (imm : Imm)
  /-- DEFRGN (R142): Defines a scoreboard region, after waiting for in-flight users of the region. -/
  | defrgn (t : Nat) (ra rb : Reg) (imm : Imm)
  /-- FENCE (R148): Waits on regions, engines and the program boundary. -/
  | fence (t : Nat) (ra : Reg) (imm : Imm)
  /-- PROGRAM_BOUNDARY_SWAP (R150): Once the fence condition holds, swaps the bank if a swap is armed and resumes dispatch. -/
  | programBoundarySwap (t : Nat)
  /-- TENS (R139): Issues a descriptor to the tensor engine. -/
  | tens (t : Nat) (ra : Reg) (imm : Imm)
  /-- VEC (R139): Issues a descriptor to the vector engine. -/
  | vec (t : Nat) (ra : Reg) (imm : Imm)
  /-- MOVE (R139): Issues a descriptor to the move engine. -/
  | move (t : Nat) (ra : Reg) (imm : Imm)
  /-- MSG (R139): Issues a descriptor to the message engine. -/
  | msg (t : Nat) (ra : Reg) (imm : Imm)
  /-- SPRS (R139): Issues a descriptor to the sparse engine. -/
  | sprs (t : Nat) (ra : Reg) (imm : Imm)
  /-- MSIGNAL (R189): Sends SIGNAL or CLEAR to a Meridian object. -/
  | msignal (t : Nat) (ra : Reg) (imm : Imm)
  /-- MWAIT (R190): Registers a wait on a Meridian object and blocks the strand until the reply. -/
  | mwait (t : Nat) (rd ra : Reg)
  /-- MWAITTO (R197): Registers a timed wait on a Meridian object. -/
  | mwaitto (t : Nat) (rd ra : Reg) (imm : Imm)
  /-- MREAD (R190): Reads a word of a Meridian object. -/
  | mread (t : Nat) (rd ra : Reg) (imm : Imm)
  /-- STRAND_SWITCH (R81): The sequencer switches to the next RUNNABLE strand in 8 cc. -/
  | strandSwitch (t : Nat)
  /-- STRAND_WAKE (R82): A WAITING strand becomes RUNNABLE once its condition clears. -/
  | strandWake (t strand : Nat)
  /-- MATMUL (R128): The tensor engine runs a matrix multiply. -/
  | matmul (t : Nat)
  /-- PROMOTE_DECISION (R68): At the end of the first run, compares n_sat with the threshold and starts an FP8 rerun if needed. -/
  | promoteDecision (t : Nat)
  /-- MATMUL_COMPLETE (R129): The MATMUL completes 15 cc after its last chunk, writes its record and sends its signal. -/
  | matmulComplete (t : Nat)
  /-- VEC_ADD (R130): Vector element-wise addition. -/
  | vecAdd (t : Nat)
  /-- VEC_SUB (R130): Vector element-wise subtraction. -/
  | vecSub (t : Nat)
  /-- VEC_MUL (R130): Vector element-wise multiplication. -/
  | vecMul (t : Nat)
  /-- VEC_FMA (R130): Vector fused multiply-add. -/
  | vecFma (t : Nat)
  /-- VEC_MIN (R130): Vector element-wise minimum. -/
  | vecMin (t : Nat)
  /-- VEC_MAX (R130): Vector element-wise maximum. -/
  | vecMax (t : Nat)
  /-- VEC_ABS (R130): Vector absolute value. -/
  | vecAbs (t : Nat)
  /-- VEC_EXP2 (R99): Vector table-based EXP2. -/
  | vecExp2 (t : Nat)
  /-- VEC_LOG2 (R99): Vector table-based LOG2. -/
  | vecLog2 (t : Nat)
  /-- VEC_RECIP (R99): Vector table-based reciprocal. -/
  | vecRecip (t : Nat)
  /-- VEC_RSQRT (R99): Vector table-based reciprocal square root. -/
  | vecRsqrt (t : Nat)
  /-- VEC_SIGMOID (R100): Vector sigmoid. -/
  | vecSigmoid (t : Nat)
  /-- VEC_TANH (R100): Vector tanh. -/
  | vecTanh (t : Nat)
  /-- VEC_RSUM (R132): Vector sum reduction. -/
  | vecRsum (t : Nat)
  /-- VEC_RMAX (R132): Vector maximum reduction. -/
  | vecRmax (t : Nat)
  /-- VEC_RMIN (R132): Vector minimum reduction. -/
  | vecRmin (t : Nat)
  /-- VEC_CVT (R131): Passes elements through the conversion unit. -/
  | vecCvt (t : Nat)
  /-- VEC_IADD (R130): Vector INT32 add. -/
  | vecIadd (t : Nat)
  /-- VEC_ISUB (R130): Vector INT32 subtract. -/
  | vecIsub (t : Nat)
  /-- VEC_IMUL (R130): Vector INT32 multiply. -/
  | vecImul (t : Nat)
  /-- VEC_IMIN (R130): Vector INT32 minimum. -/
  | vecImin (t : Nat)
  /-- VEC_IMAX (R130): Vector INT32 maximum. -/
  | vecImax (t : Nat)
  /-- VEC_IAND (R130): Vector INT32 AND. -/
  | vecIand (t : Nat)
  /-- VEC_IOR (R130): Vector INT32 OR. -/
  | vecIor (t : Nat)
  /-- VEC_IXOR (R130): Vector INT32 XOR. -/
  | vecIxor (t : Nat)
  /-- COPY (R133): The move engine copies units between the scratchpad and memory. -/
  | copy (t : Nat)
  /-- COPY_COMPLETE (R134): The COPY completes once every write has been made or accepted. -/
  | copyComplete (t : Nat)
  /-- SEND (R135): The message engine sends a header and payload into the mesh. -/
  | send (t : Nat)
  /-- SPMM (R278): The sparse engine computes a sparse matrix product block by block. -/
  | spmm (t : Nat)
  /-- PREDICT (R285): The sparse engine computes predictor scores and writes the activity mask. -/
  | predict (t : Nat)
  /-- INSTRUCTION_COMPLETE (R122): An engine instruction completes, writes its record, and then sends its SIG_EN signal. -/
  | instructionComplete (t engine : Nat)
  /-- MESSAGE_RECEIVE (R85): A header flit reaches a message port, which checks PART and writes the message into the ring. -/
  | messageReceive (t src : Nat) (srcGw : Bool)
  /-- MESSAGE_DISPATCH (R87): The dispatcher takes the head message and starts a handler strand. -/
  | messageDispatch (t : Nat)
  /-- TILE_CTRL_RESET (R103): A host write of RESET to GRT_TILE_CTRL resets the tile. -/
  | tileCtrlReset (t : Nat) (value : Word)
  /-- TILE_CTRL_HALT (R102): A host write of HALT to GRT_TILE_CTRL halts the tile. -/
  | tileCtrlHalt (t : Nat) (value : Word)
  /-- TILE_CTRL_RESUME (R102): A host write of RESUME to GRT_TILE_CTRL resumes the tile. -/
  | tileCtrlResume (t : Nat) (value : Word)
  /-- TILE_CTRL_START (R105): A host write of START to GRT_TILE_CTRL starts strand 0. -/
  | tileCtrlStart (t : Nat) (value : Word)
  /-- TILE_RESET_DONE (R103): The tile reset completes and the tile enters READY. -/
  | tileResetDone (t cc : Nat)
  /-- SR_RESEED (R67): A write to GRT_SR_SEED reseeds all 64 conversion lanes. -/
  | srReseed (t : Nat) (value : Word)
  /-- TILE_RESET (R103): Command that resets a set of tiles. -/
  | tileReset (k : Kci) (tiles : List Nat) (clearScratch : Bool)
  /-- TILE_START (R105): Command that starts a set of tiles. -/
  | tileStart (k : Kci) (tiles : List Nat)
  /-- TILE_HALT (R102): Command that halts a set of tiles. -/
  | tileHalt (k : Kci) (tiles : List Nat)
  /-- TILE_RESUME (R102): Command that resumes a set of tiles. -/
  | tileResume (k : Kci) (tiles : List Nat)
  /-- TILE_STATUS (R105): Command that returns GRT_TILE_STATUS of each tile. -/
  | tileStatus (k : Kci) (tiles : List Nat)
  /-- COLUMN_SHIFT (R96): Stops the partitions, halts the die's tiles, sets the shift column and resets the tiles. -/
  | columnShift (k : Kci) (die column : Nat)
  /-- VTAB_READ (R99): Returns a coefficient table. -/
  | vtabRead (k : Kci) (table dest : Nat)
  /-- IMEM_LOAD (R151): Writes instructions into a bank of each tile in the set. -/
  | imemLoad (k : Kci) (tiles : List Nat) (bank : Nat) (src : DataAt) (offset len : Nat)
  /-- IMEM_SWAP (R152): Arms or disarms a bank swap. -/
  | imemSwap (k : Kci) (tiles : List Nat) (arm : Bool) (table : Option Nat)
  /-- IMEM_READ (R154): Reads instructions from a bank. -/
  | imemRead (k : Kci) (t bank dest offset len : Nat)
  /-- SCRATCH_WRITE (R154): Writes scratchpad bytes of tiles. -/
  | scratchWrite (k : Kci) (tiles : List Nat) (addr : Nat) (src : DataAt) (len : Nat)
  /-- SCRATCH_READ (R154): Reads scratchpad bytes of a tile. -/
  | scratchRead (k : Kci) (t addr : Nat) (dest : DataAt) (len : Nat)
  /-- DATUM_SET (R157): Sets or clears Datum mode for a partition. -/
  | datumSet (k : Kci) (part : Nat) (on : Bool)
  /-- DATUM_SYNC_CAL (R170): Calibrates the SYNC phase in the role given. -/
  | datumSyncCal (k : Kci) (role : SyncRole)
  /-- CAL_PULSE_EMIT (R170): The leader emits a calibration pulse every 4,104 cc. -/
  | calPulseEmit (cc : Nat)
  /-- SYNC_CAL_TIMEOUT (R170): A follower that sees no calibration pulses completes with SYNC_FAIL after 1 ms. -/
  | syncCalTimeout (cc : Nat)
  /-- DATUM_START (R171): Arms the start barrier. -/
  | datumStart (k : Kci)
  /-- START_PULSE_EMIT (R171): The leader emits the start pulse 1 ms after acceptance. -/
  | startPulseEmit (cc : Nat)
  /-- SYNC_PULSE (R171): A pulse sampled on SYNC_IN is taken as a calibration, start or check pulse. -/
  | syncPulse (cc : Nat)
  /-- TIMEBASE_ZERO (R171): DTM_TIMEBASE becomes 0 at E + 1,200, and DATUM_START completes. -/
  | timebaseZero (cc : Nat)
  /-- DATUM_START_TIMEOUT (R171): No start pulse within 2 ms completes DATUM_START with TIMEOUT. -/
  | datumStartTimeout (cc : Nat)
  /-- CHECK_PULSE_EMIT (R173): The leader emits a check pulse every 1,048,572 cc. -/
  | checkPulseEmit (cc : Nat)
  /-- CHECK_PULSE_MISSING (R173): No check pulse within 2^21 cc counts SYNC_SKEW and enters SYNC_LOST. -/
  | checkPulseMissing (cc : Nat)
  /-- DATUM_START_AT (R174): Schedules a partition start at a timebase value. -/
  | datumStartAt (k : Kci) (part v : Nat)
  /-- DATUM_START_AT_FIRE (R174): At cycle v, starts strand 0 of every READY tile of the partition. -/
  | datumStartAtFire (cc : Nat)
  /-- DRIFT_SNAPSHOT (R179): Returns the drift counters and masks after an Itinerary entry. -/
  | driftSnapshot (k : Kci)
  /-- PADDED_COMPLETION (R162): A Datum memory request completes at its padded cycle. -/
  | paddedCompletion (id cc : Nat)
  /-- SCHED_REFRESH (R164): A pseudo-channel performs its scheduled per-bank refresh. -/
  | schedRefresh (pch cc : Nat) (errs : List (Nat × Bool))
  /-- SCHED_RETRAIN (R165): A channel retrains in its scheduled window. -/
  | schedRetrain (ch cc : Nat)
  /-- MER_HOME_APPLY (R193): A home cell applies a signal, registration or withdrawal, and releases or replies. -/
  | merHomeApply (id : Nat) (parityOk : Bool)
  /-- MER_RELEASE (R202): A release or reply reaches a tile, wakes it and sets the strand RUNNABLE. -/
  | merRelease (id cc : Nat)
  /-- MER_SAMPLE_POINT (R166): In Datum mode, the waiters are released at stamp + 64. -/
  | merSamplePoint (obj cc : Nat)
  /-- MWAITTO_EXPIRY (R197): The timer of a timed wait expires and a withdrawal is sent. -/
  | mwaittoExpiry (t strand cc : Nat)
  /-- DEADLOCK_DETECT (R209): A partition blocked for the window is snapshotted and reported. -/
  | deadlockDetect (part cc : Nat)
  /-- MER_DBG_CAPTURE (R206): A write to MER_DBG_SEL starts a capture of the object. -/
  | merDbgCapture (fn : Nat) (value : Word)
  /-- MER_DBG_CAPTURE_DONE (R207): The capture completes and VALID is set. -/
  | merDbgCaptureDone (fn : Nat)
  /-- MER_ALLOC (R211): Allocates a Meridian object. -/
  | merAlloc (k : Kci) (obj part : Nat) (kind : MerKind) (value : Nat)
  /-- MER_FREE (R211): Frees a Meridian object. -/
  | merFree (k : Kci) (obj : Nat)
  /-- MER_SET (R211): Sets the value of a Meridian object. -/
  | merSet (k : Kci) (obj value : Nat) (gen : Option Nat)
  /-- MER_SIGNAL (R211): Signals an object from the host. -/
  | merSignal (k : Kci) (obj : Nat) (clear : Bool)
  /-- MER_READ (R211): Returns an object's words and waiters. -/
  | merRead (k : Kci) (obj : Nat)
  /-- MER_DL_CFG (R211): Configures the deadlock detector. -/
  | merDlCfg (k : Kci) (window : Nat) (enable : Bool)
  /-- MER_DL_SNAPSHOT (R210): Returns the latest deadlock snapshot. -/
  | merDlSnapshot (k : Kci) (part dest : Nat)
  /-- CFL_GROUP_DEFINE (R213): Defines a collective group. -/
  | cflGroupDefine (k : Kci) (g : GroupDef)
  /-- CFL_GROUP_OPEN (R216): Opens a group with its reservation and context. -/
  | cflGroupOpen (k : Kci) (group : Nat)
  /-- CFL_GROUP_CLOSE (R217): Closes a group. -/
  | cflGroupClose (k : Kci) (group : Nat)
  /-- CFL_GROUP_DELETE (R255): Deletes a group. -/
  | cflGroupDelete (k : Kci) (group : Nat)
  /-- CFL_SUBMIT (R219): Submits a collective over KCI. -/
  | cflSubmit (k : Kci) (rank : Nat) (desc : List Word)
  /-- CFL_ABORT (R254): Aborts the named collectives. -/
  | cflAbort (k : Kci) (what : AbortWhat)
  /-- CFL_GROUP_QUERY (R255): Returns the state of a group. -/
  | cflGroupQuery (k : Kci) (group : Nat)
  /-- CFL_DIGEST (R222): Returns the digest of a descriptor. -/
  | cflDigest (k : Kci) (group : Nat) (desc : List Word)
  /-- CFL_TILE_SUBMIT (R220): A tile submission message reaches the CFL gateway. -/
  | cflTileSubmit (t : Nat)
  /-- COLL_SUBMIT_PACKET (R308): A PLP collective-submit packet from an accelerator is passed to the CFL gateway. -/
  | collSubmitPacket (lport : Nat)
  /-- COLLECTIVE_START (R218): A held collective starts once its conditions hold and takes its sequence number. -/
  | collectiveStart (group rank : Nat)
  /-- CFL_BLOCK_RECEIVE (R228): A data block arrives at a node against a credit. -/
  | cflBlockReceive (die : Nat)
  /-- CFL_COMBINE (R229): Once all its inputs are present, a node combines a block and forwards or rounds it. -/
  | cflCombine (group rank seq tree segment block : Nat) (p1 : Bool)
  /-- CFL_CREDIT_RECEIVE (R228): A CREDIT control packet grants blocks on a stream. -/
  | cflCreditReceive (die : Nat)
  /-- DIGEST_UP_RECEIVE (R230): A DIGEST_UP arrives and is compared. -/
  | digestUpReceive (die : Nat)
  /-- CONFIRM_RECEIVE (R230): CONFIRM arrives and releases DOWN and DIRECT data. -/
  | confirmReceive (die : Nat)
  /-- SCALAR_RECEIVE (R234): A SCALAR_UP or SCALAR_DOWN packet of a BARRIER or SCALAR_REDUCE arrives. -/
  | scalarReceive (die : Nat)
  /-- CFL_ABORT_RECEIVE (R248): An ABORT packet arrives and is forwarded, and the hosted ranks complete. -/
  | cflAbortReceive (die : Nat)
  /-- CFL_PROG_TIMEOUT (R250): No progress for the timeout aborts the collective with TIMEOUT. -/
  | cflProgTimeout (group seq cc : Nat)
  /-- GAZ_REQUEST (R266): A lookup request reaches the Gazetteer unit, is checked and issues its row reads. -/
  | gazRequest (die : Nat)
  /-- GAZ_ROW_COMPLETE (R267): A row read completes with its outcome. -/
  | gazRowComplete (die id row : Nat)
  /-- GAZ_REPLY (R269): After its last row, the pooled reply is rounded and sent. -/
  | gazReply (die id : Nat)
  /-- GAZ_TABLE_DEFINE (R258): Defines an embedding table. -/
  | gazTableDefine (k : Kci) (d : TableDef)
  /-- GAZ_TABLE_DELETE (R263): Deletes a table after its accepted requests. -/
  | gazTableDelete (k : Kci) (table : Nat)
  /-- GAZ_TABLE_QUERY (R288): Returns a table's definition. -/
  | gazTableQuery (k : Kci) (table : Nat)
  /-- GAZ_LOOKUP (R272): Host lookup request. -/
  | gazLookup (k : Kci) (die body len reply : Nat)
  /-- GAZ_LEGEND_CHECK (R288): Checks a Legend table. -/
  | gazLegendCheck (k : Kci) (base rowBlocks colBlocks threshold : Nat)
  /-- GAZ_SPARSE_CTRL_WRITE (R289): A host write to GAZ_SPARSE_CTRL, recorded in the Itinerary. -/
  | gazSparseCtrlWrite (t : Nat) (value : Word)
  /-- GAZ_PRED_THRESH_WRITE (R289): A host write to GAZ_PRED_THRESH, recorded in the Itinerary. -/
  | gazPredThreshWrite (t : Nat) (value : Word)
  /-- PORT_CONFIG (R293): Configures a port and its sub-ports. -/
  | portConfig (k : Kci) (port width rate : Nat) (subs : List SubConfig)
  /-- PORT_LINK (R304): Brings a sub-port UP or DOWN, or retrains it. -/
  | portLink (k : Kci) (lport : Nat) (action : LinkAction)
  /-- PORT_STATUS (R327): Returns sub-port status and counts. -/
  | portStatus (k : Kci) (lport : Nat)
  /-- PORT_PARTNER (R307): Returns the last LINK_ID. -/
  | portPartner (k : Kci) (lport : Nat)
  /-- PORT_CMIS_READ (R326): Reads a CMIS page. -/
  | portCmisRead (k : Kci) (port bank page offset len : Nat)
  /-- PORT_STEER_SET (R317): Writes a steering entry. -/
  | portSteerSet (k : Kci) (die index : Nat) (entry : List Word)
  /-- PORT_STEER_READ (R327): Reads a steering entry. -/
  | portSteerRead (k : Kci) (die index : Nat)
  /-- PORT_CONV_SET (R311): Writes a converter profile. -/
  | portConvSet (k : Kci) (port conv : Nat) (profile : ConvProfile)
  /-- BRG_SR_RESEED (R314): A write to BRG_SR_SEED reseeds the converter lanes before the next packet. -/
  | brgSrReseed (port : Nat) (value : Word)
  /-- LINK_CTRL_RECEIVE (R301): A LINK_CTRL unit updates acknowledgements and credits, or starts a replay on NAK. -/
  | linkCtrlReceive (lport : Nat) (bytes : List Byte) (corr uncorr : Nat)
  /-- LINK_ID_RECEIVE (R307): A LINK_ID unit is checked, leading to UP or MISWIRED. -/
  | linkIdReceive (lport : Nat) (u : LinkUnit)
  /-- LINK_ID_SEND (R307): In IDENT, a LINK_ID is sent every 1 µs. -/
  | linkIdSend (lport cc : Nat)
  /-- IDENT_TIMEOUT (R307): No valid LINK_ID within 10 ms fails the attempt into DOWN. -/
  | identTimeout (lport cc : Nat)
  /-- SEQUENCED_UNIT_RECEIVE (R302): A CTRL, HEAD or DATA unit is checked for CRC and sequence, and is routed or NAKed. -/
  | sequencedUnitReceive (lport : Nat) (u : LinkUnit)
  /-- ALIGNMENT_LOSS (R303): A lane without alignment lock for 256 cc loses the link. -/
  | alignmentLoss (lport cc : Nat)
  /-- NO_GOOD_UNIT_TIMEOUT (R303): No good unit for 1,024 cc loses the link. -/
  | noGoodUnitTimeout (lport cc : Nat)
  /-- TRAINING_COMPLETE (R305): PMD training and PCS and FEC lock complete. -/
  | trainingComplete (lport cc : Nat)
  /-- TRAINING_TIMEOUT (R305): A training attempt fails its time limit. -/
  | trainingTimeout (lport cc : Nat)
  /-- DOWN_HOLDOFF_EXPIRY (R304): After 1 ms in DOWN, the sub-port retries TRAINING. -/
  | downHoldoffExpiry (lport cc : Nat)
  /-- ACCEL_PACKET_INGRESS (R308): A packet from an accelerator is stamped, checked against the windows and stored. -/
  | accelPacketIngress (lport : Nat)
  /-- E2E_RTO_EXPIRY (R309): The end-to-end resend timer expires and resends. -/
  | e2eRtoExpiry (lport dest vc cc : Nat)
  /-- E2E_PACKET_RECEIVE (R310): An E2E acknowledgement or NAK arrives at the source edge. -/
  | e2ePacketReceive (lport : Nat)
  /-- E2E_ACK_TIMER (R310): The destination acknowledges 2,000 ns after the first unacknowledged delivery. -/
  | e2eAckTimer (die src vc cc : Nat)
  /-- SOURCE_FLOW_RETIRE (R309): A source flow entry retires 35.0 µs after its last acknowledgement. -/
  | sourceFlowRetire (lport dest vc cc : Nat)
  /-- ETH_FRAME_RECEIVE (R317): An Ethernet frame is filtered, parsed, steered and placed. -/
  | ethFrameReceive (lport cc : Nat) (frame : Frame)
  /-- PAUSE_RECEIVE (R315): A received PAUSE or PFC holds classes on egress. -/
  | pauseReceive (lport cc : Nat) (frame : Frame)
  /-- SPILL_RING_MOVE (R322): When room appears, the ring's head frame moves into the on-chip queue. -/
  | spillRingMove (lport : Nat)
  /-- UNP_FRAME_INJECT (R323): The head frame's header enters the mesh at the west gateway. -/
  | unpFrameInject (lport cc : Nat)
  /-- INGRESS_DEADLINE_SHED (R323): A head frame past its deadline is shed as LATE. -/
  | ingressDeadlineShed (lport cc : Nat)
  /-- PORT_EGRESS_REQUEST (R320): A tile's PORT-service frame is checked and queued for egress. -/
  | portEgressRequest (t : Nat)
  /-- CMIS_PRESENCE (R325): A presence change starts the reading of the CMIS pages. -/
  | cmisPresence (port : Nat) (present ack : Bool) (pages : List (Nat × Nat × List Byte)) (cc : Nat)
  /-- CMIS_POLL (R325): The lane flags are read once per second. -/
  | cmisPoll (port : Nat) (ack : Bool) (page10 page11 : List Byte) (cc : Nat)
  /-- CMIS_INTERRUPT (R325): A module interrupt triggers a read of the flags. -/
  | cmisInterrupt (port : Nat) (ack : Bool) (page10 page11 : List Byte) (cc : Nat)
  /-- ROUTE_SET_PREFIX (R329): Sets the prefix and level. -/
  | routeSetPrefix (k : Kci) (pfx level : Nat)
  /-- ROUTE_SET_PORTSET (R332): Writes a port set. -/
  | routeSetPortset (k : Kci) (set : PortSetId) (members : List Nat)
  /-- ROUTE_LOCAL_SET (R331): Sets a local-table entry. -/
  | routeLocalSet (k : Kci) (p : Nat) (target : LocalTarget)
  /-- ALIAS_LOAD (R333): Loads the shadow alias bank. -/
  | aliasLoad (k : Kci) (first addr count : Nat)
  /-- ALIAS_SWAP (R335): Swaps the alias banks. -/
  | aliasSwap (k : Kci)
  /-- MCAST_SET (R352): Sets a multicast entry. -/
  | mcastSet (k : Kci) (index : Nat) (targets : List McTarget)
  /-- REORDER_CFG (R340): Sets the reorder timeout. -/
  | reorderCfg (k : Kci) (timeout : Nat)
  /-- TRV_QUEUE_CFG (R349): Configures output queues or spill. -/
  | trvQueueCfg (k : Kci) (cfg : QueueCfg)
  /-- FLOW_QUERY (R358): Returns a reorder context. -/
  | flowQuery (k : Kci) (die src vc : Nat)
  /-- ROUTE_QUERY (R358): Returns a route decision. -/
  | routeQuery (k : Kci) (dest : Nat)
  /-- REORDER_ARRIVAL (R338): A sprayed packet reaches its reorder context and is delivered or held. -/
  | reorderArrival (die : Nat)
  /-- REORDER_TIMEOUT (R340): A reorder timer expires, sending a NAK or skipping ahead. -/
  | reorderTimeout (die src vc cc : Nat)
  /-- REORDER_CTX_RETIRE (R339): An idle context retires after 2^15 cc. -/
  | reorderCtxRetire (die src vc cc : Nat)
  /-- FRAME_LAUNCH (R344): An input line chooses and launches the next frame. -/
  | frameLaunch (line slot : Nat)
  /-- CELL_RELEASE (R345): A cell at an output is released in frame-tag order. -/
  | cellRelease (line slot : Nat)
  /-- SPILL_RETURN (R350): Spilled cells return to the on-chip queue as room appears. -/
  | spillReturn (queue : Nat)
  /-- EXPRESS_RING_INJECT (R355): An owner puts a control flit into its empty ring position. -/
  | expressRingInject (line slot : Nat)
  /-- EXPRESS_RING_DELIVER (R357): The destination line takes a flit off the ring, or it recirculates. -/
  | expressRingDeliver (line slot : Nat)
  /-- MCAST_COMPLETION (R354): Once every copy has left or been skipped, a COMPLETION is sent to SRC. -/
  | mcastCompletion (id : Nat)
  /-- TX_UNIT_SELECT (R361): At a unit boundary, Contour chooses the next unit. -/
  | txUnitSelect (lport cc : Nat)
  /-- SHAPER_REFILL (R367): Every 120 cc, the shaper tokens refill and pending changes apply. -/
  | shaperRefill (lport cc : Nat)
  /-- GATE_ENTRY_CHANGE (R369): The gate list moves to its next entry. -/
  | gateEntryChange (lport cc : Nat)
  /-- GATE_LIST_START (R371): A new gate list takes effect at its cycle start. -/
  | gateListStart (lport cc : Nat)
  /-- EGRESS_DEADLINE_SHED (R372): A head that cannot meet its deadline is shed. -/
  | egressDeadlineShed (lport cc : Nat)
  /-- CTR_CLASS_CFG (R366): Sets a class quantum. -/
  | ctrClassCfg (k : Kci) (lport cls quantum : Nat)
  /-- CTR_SHAPER_SET (R368): Changes a shaper. -/
  | ctrShaperSet (k : Kci) (lport : Nat) (which : ShaperId) (enable : Bool) (rate burst : Nat)
  /-- CTR_GATE_SET (R371): Sets a gate list. -/
  | ctrGateSet (k : Kci) (lport : Nat) (enable : Bool) (count addr : Nat)
  /-- CTR_GATE_READ (R379): Reads gate lists. -/
  | ctrGateRead (k : Kci) (lport dest : Nat)
  /-- CTR_STATUS (R379): Returns Contour state. -/
  | ctrStatus (k : Kci) (lport : Nat)
  /-- SHEET_REQUEST (R387): A tile Sheet request is checked and sent. -/
  | sheetRequest (t : Nat)
  /-- RELEASE_STORE_SEND (R391): A held release store is sent, or aborted, once earlier operations complete. -/
  | releaseStoreSend (id : Nat)
  /-- SHEET_COMBINE (R396): An unordered request merges into a queued match at an egress port. -/
  | sheetCombine (lport id : Nat)
  /-- SHEET_HOME_RECEIVE (R390): The home die queues an arriving operation in order. -/
  | sheetHomeReceive (die : Nat)
  /-- SHEET_LINE_APPLY (R392): The home applies one line operation and sends its completion. -/
  | sheetLineApply (die id : Nat)
  /-- SHEET_COMPLETION_RECEIVE (R394): A completion returns to the source, or fans out to merged parts. -/
  | sheetCompletionReceive (die : Nat)
  /-- SHEET_RTO_EXPIRY (R395): An operation's resend timer expires. -/
  | sheetRtoExpiry (id cc : Nat)
  /-- SHT_SHEET_SET (R381): Writes the member table. -/
  | shtSheetSet (k : Kci) (members : List SheetMember) (self : Option Nat) (classes : List Nat) (rtoLog2 homeMark : Nat)
  /-- SHT_EXPORT (R383): Exports a region. -/
  | shtExport (k : Kci) (part base size : Nat)
  /-- SHT_WINDOW_SET (R387): Writes window entries. -/
  | shtWindowSet (k : Kci) (owner : WinOwner) (first addr count : Nat)
  /-- SHT_JOB_TEARDOWN (R401): Tears down a job's Sheet operations. -/
  | shtJobTeardown (k : Kci) (job : Nat)
  /-- SHT_STATUS (R402): Returns Sheet status. -/
  | shtStatus (k : Kci) (owner : WinOwner)
  /-- MEM_SLOT_SERVE (R413): A pseudo-channel serves one request or maintenance task per 15 cc slot. -/
  | memSlotServe (pch cc : Nat)
  /-- MEMORY_RESPONSE (R416): A read response is checked and completes at its requester. -/
  | memoryResponse (id cc : Nat) (errs : List (Nat × Bool))
  /-- REMAP_COPY (R418): A deferred row copy runs in the next retraining window. -/
  | remapCopy (pch : Nat)
  /-- REFRESH (R422): A pseudo-channel refreshes, with patrol scrub, outside Datum scheduling. -/
  | refresh (pch cc : Nat) (errs : List (Nat × Bool))
  /-- PERIODIC_RETRAIN (R423): A channel retrains at its periodic time. -/
  | periodicRetrain (ch cc : Nat)
  /-- ERROR_RATE_RETRAIN (R423): Excess transfer errors force an immediate retraining. -/
  | errorRateRetrain (ch errors cc : Nat)
  /-- RETRAIN_END (R423): A retraining ends, leaving the channel READY or FAILED. -/
  | retrainEnd (ch cc : Nat) (ok : Bool)
  /-- ADDER_WRITEBACK (R415): A held line is written back after 16 idle cycles. -/
  | adderWriteback (die cc : Nat)
  /-- STK_REGION_SET (R407): Assigns a memory region. -/
  | stkRegionSet (k : Kci) (region : RegionDef)
  /-- STK_REGION_CLEAR (R408): Clears a region. -/
  | stkRegionClear (k : Kci) (owner : RegionOwner) (vbase : Nat)
  /-- STK_REGION_QUERY (R434): Returns regions and far windows. -/
  | stkRegionQuery (k : Kci) (owner : RegionOwner)
  /-- STK_RETRAIN_CFG (R423): Sets retraining parameters. -/
  | stkRetrainCfg (k : Kci) (period rtThresh : Nat)
  /-- STK_POLICY_SET (R413): Sets class policy. -/
  | stkPolicySet (k : Kci) (latCap wBulk wSpill ceThresh : Nat)
  /-- STK_REPAIR_LOG (R427): Reads the repair log. -/
  | stkRepairLog (k : Kci) (dest first count : Nat)
  /-- FAR_WINDOW_SET (R429): Sets a far window. -/
  | farWindowSet (k : Kci) (part entry port base size : Nat) (valid : Bool)
  /-- FAR_IDENTITY (R430): Returns far device identity. -/
  | farIdentity (k : Kci) (port : Nat)
  /-- FAR_PORT_CTRL (R433): Enables, disables or resets a far port. -/
  | farPortCtrl (k : Kci) (port : Nat) (action : FarAction) (ide : Bool)
  /-- STK_BRINGUP_SELECT (R425): Selects margining or repair access. -/
  | stkBringupSelect (k : Kci) (sel : Bringup)
  /-- STK_MARGIN (R426): Runs a margin sweep. -/
  | stkMargin (k : Kci) (stack channels : Nat) (sweep : Sweep)
  /-- STK_REPAIR_ACCESS (R427): Queries or applies post-package repair. -/
  | stkRepairAccess (k : Kci) (stack : Nat) (apply : Option (Nat × Nat))
  /-- FAR_DEVICE_PRESENT (R430): A far device becomes present and is trained, enumerated and programmed. -/
  | farDevicePresent (port : Nat) (id : FarId) (half : Bool) (width cc : Nat)
  /-- FAR_READY_TIMEOUT (R430): No READY within 2 s of link-up makes the port FAILED. -/
  | farReadyTimeout (port cc : Nat)
  /-- FAR_RESPONSE (R432): A far-tier response arrives, poisoned or good. -/
  | farResponse (id : Nat) (poison : Bool) (bytes : List Byte) (cc : Nat)
  /-- FAR_LINK_DOWN (R433): A far link drops and its requests end with TARGET_LOST. -/
  | farLinkDown (port cc : Nat) (removed : Bool)
  /-- SOUNDING_REGION_START (R443): A walker starts a region at its interval. -/
  | soundingRegionStart (bank cc : Nat)
  /-- SOUNDING_PHASE (R444): A walker advances save, test or restore in free slots. -/
  | soundingPhase (bank : Nat) (failing : List (Nat × Nat)) (hard : Bool) (cc : Nat)
  /-- SECURE_WIPE_DONE (R449): The wipe finishes and is verified. -/
  | secureWipeDone (ok : Bool)
  /-- PLAT_ALLOC (R451): An allocation request is granted or waits. -/
  | platAlloc (die pool owner : Nat) (part : Option Nat) (metaBad : Bool)
  /-- PLAT_ALLOC_GRANT (R451): A waiting allocation is granted once room appears. -/
  | platAllocGrant (die pool : Nat)
  /-- PLAT_FREE (R456): A free returns a buffer, or is refused as DOUBLE_FREE. -/
  | platFree (die pool owner index : Nat) (metaBad : Bool)
  /-- PLT_POOL_SET (R450): Sets pool sizes and thresholds. -/
  | pltPoolSet (k : Kci) (die pool total t1 t2 t3 reserve : Nat)
  /-- PLT_POOL_QUERY (R458): Returns pool state. -/
  | pltPoolQuery (k : Kci) (die pool : Nat) (owner : Option Nat)
  /-- ATL_POWER (R440): Changes bank power states. -/
  | atlPower (k : Kci) (target : PowerTarget) (state : BankPower)
  /-- ATL_POWER_DONE (R439): Banks reach their new power state. -/
  | atlPowerDone (cc : Nat)
  /-- ATL_SOUND_CFG (R446): Configures Sounding. -/
  | atlSoundCfg (k : Kci) (enable : Bool) (interval : Nat)
  /-- ATL_BANK_QUERY (R458): Returns bank details. -/
  | atlBankQuery (k : Kci) (bank : Nat)
  /-- MODULE_IDENTITY (R485): Returns the part number, build code and serial number. -/
  | moduleIdentity (k : Kci)
  /-- IDMEM_READ (R485): Reads an identity memory. -/
  | idmemRead (k : Kci) (source offset len dest : Nat)
  /-- KCI_RINGS_SET (R475): Sets or tears down a function's rings. -/
  | kciRingsSet (k : Kci) (cmdRing evtRing vector : Word)
  /-- PART_CREATE (R479): Creates a partition. -/
  | partCreate (k : Kci) (part : Nat) (train : Bool)
  /-- PART_ASSIGN (R479): Adds or removes partition resources. -/
  | partAssign (k : Kci) (part : Nat) (add : Bool) (res : PartRes)
  /-- PART_MODE_SET (R479): Sets TRAIN or INFER. -/
  | partModeSet (k : Kci) (part : Nat) (train : Bool)
  /-- PART_STOP (R479): Stops a partition. -/
  | partStop (k : Kci) (part : Nat)
  /-- PART_DESTROY (R479): Stops a partition and releases its resources. -/
  | partDestroy (k : Kci) (part : Nat)
  /-- PART_QUERY (R479): Returns partition resources. -/
  | partQuery (k : Kci) (part : Nat)
  /-- DMAQ_SET (R480): Configures a descriptor queue. -/
  | dmaqSet (k : Kci) (q base log vector : Nat) (enable : Bool)
  /-- MGMT_PORT_SET (R482): Configures the management port. -/
  | mgmtPortSet (k : Kci) (addr pfxLen udpPort : Nat) (permitted : List Nat) (notices : Option (Nat × Nat))
  /-- MGMT_KEY_SET (R482): Loads the management key. -/
  | mgmtKeySet (k : Kci) (key : List Byte)
  /-- PTP_SET (R483): Enables IEEE 1588. -/
  | ptpSet (k : Kci) (enable : Bool) (domain : Nat)
  /-- TIME_QUERY (R483): Returns the time pair and state. -/
  | timeQuery (k : Kci)
  /-- CMD_DOORBELL (R467): A write to CMP_CMD_TAIL submits commands. -/
  | cmdDoorbell (fn : Nat) (value : Word)
  /-- EVT_HEAD_WRITE (R467): A write to CMP_EVT_HEAD frees event slots. -/
  | evtHeadWrite (fn : Nat) (value : Word)
  /-- MBOX_GO (R474): A write of GO runs the mailbox command. -/
  | mboxGo (fn : Nat) (value : Word)
  /-- DMAQ_DOORBELL (R480): A write to CMP_DMAQ_TAIL submits descriptors. -/
  | dmaqDoorbell (fn q : Nat) (value : Word)
  /-- COMMAND_ACCEPT (R469): Compass takes a descriptor in rotation and checks it. -/
  | commandAccept
  /-- COMMAND_COMPLETE (R472): A completion entry is written once the command's effects are in force. -/
  | commandComplete (src : Source) (mbox : Bool) (tag : BitVec 16)
  /-- MSIX_DEFERRED (R473): A vector held by the 1 µs spacing is sent. -/
  | msixDeferred (fn vector cc : Nat)
  /-- DMAQ_DESCRIPTOR (R480): The engine executes a descriptor in 4 KiB turns and writes its record. -/
  | dmaqDescriptor (q : Nat)
  /-- HOST_WRITE_REQUEST (R481): A tile's HOST-service SEND writes host memory or is dropped. -/
  | hostWriteRequest (t : Nat)
  /-- MGMT_DATAGRAM (R482): A management datagram is authenticated and accepted, or dropped. -/
  | mgmtDatagram (srcAddr srcPort : Nat) (bytes : List Byte)
  /-- PTP_MESSAGE_RECEIVE (R483): A PTP event message updates the offset and state. -/
  | ptpMessageReceive (offset : Int) (cc : Nat)
  /-- PTP_SYNC_MISSING (R483): Four missing Sync messages enter HOLDOVER. -/
  | ptpSyncMissing (cc : Nat)
  /-- PTP_HOLDOVER_TIMEOUT (R483): After 60 s in HOLDOVER, the state returns to ACQUIRING. -/
  | ptpHoldoverTimeout (cc : Nat)
  /-- PTP_SECOND_LATCH (R483): At each PTP second, the timebase and PTP pair is latched. -/
  | ptpSecondLatch (cc : Nat)
  /-- BMC_READ (R484): The BMC reads a code block. -/
  | bmcRead (code : Nat)
  /-- FUNCTION_LEVEL_RESET (R463): A function's rings and queues are torn down. -/
  | functionLevelReset (fn : Nat)
  /-- HOST_LINK_DOWN (R463): The host link goes down or PERST_N resets it. -/
  | hostLinkDown
  /-- COMPASS_WATCHDOG (R486): The watchdog or a memory error restarts Compass. -/
  | compassWatchdog (cc : Nat)
  /-- COMPASS_READY (R489): Compass is READY again and reruns uncommitted commands. -/
  | compassReady (cc : Nat)
  /-- REGION_SURVEYOR_RESTART (R27): A missed heartbeat restarts a Region Surveyor. -/
  | regionSurveyorRestart (die region cc : Nat)
  /-- QUADRANT_SURVEYOR_RESTART (R27): A missed heartbeat restarts a Quadrant Surveyor. -/
  | quadrantSurveyorRestart (die cc : Nat)
  /-- BRIDGE_LANE_FAILURE (R20): A failed bridge lane is remapped, or the module fails. -/
  | bridgeLaneFailure (b : BridgeId) (fromSecond : Bool) (lane : Nat) (parts : List Nat)
  /-- REGISTER_WRITE (R8): A host write to a register without its own row acts by field type. -/
  | registerWrite (fn offset : Nat) (value : Word)
  /-- REGISTER_BAD_ACCESS (R6): A narrow or misaligned access returns all ones or is ignored, with a notice. -/
  | registerBadAccess (fn offset width : Nat) (write : Bool)
  /-- LC_QUERY (R518): Returns the life-cycle state. -/
  | lcQuery (k : Kci)
  /-- LC_PROVISION (R497): Generates the identity key and provisions. -/
  | lcProvision (k : Kci) (dest : Nat)
  /-- LC_CERT_INSTALL (R495): Installs the certificate chain. -/
  | lcCertInstall (k : Kci) (addr len : Nat)
  /-- LC_TRANSITION_ARM (R491): Arms a transition with a challenge. -/
  | lcTransitionArm (k : Kci) (target : LcState)
  /-- LC_TRANSITION (R492): Performs a life-cycle transition. -/
  | lcTransition (k : Kci) (target : LcState) (challenge : List Byte)
  /-- LC_ARM_EXPIRY (R491): The arm goes stale 10 s after it was made. -/
  | lcArmExpiry (cc : Nat)
  /-- CERT_READ (R495): Returns the chain. -/
  | certRead (k : Kci) (dest : Nat)
  /-- TAMPER_QUERY (R518): Returns the tamper state. -/
  | tamperQuery (k : Kci)
  /-- TAMPER_CLEAR (R500): Clears the tamper latch. -/
  | tamperClear (k : Kci)
  /-- TAMPER_TRIP (R500): A tamper source trips, the bank is wiped and the module is fenced. -/
  | tamperTrip (source : Nat) (readings : List Nat)
  /-- FW_STAGE_BEGIN (R513): Starts staging. -/
  | fwStageBegin (k : Kci) (len : Nat)
  /-- FW_STAGE_WRITE (R513): Writes staging data. -/
  | fwStageWrite (k : Kci) (offset src len : Nat)
  /-- FW_STAGE_VERIFY (R513): Verifies the staged package. -/
  | fwStageVerify (k : Kci)
  /-- FW_ACTIVATE (R514): Activates the package. -/
  | fwActivate (k : Kci)
  /-- FW_QUERY (R518): Returns the image headers. -/
  | fwQuery (k : Kci)
  /-- FW_SVN_COMMIT (R515): Burns the security version fuses. -/
  | fwSvnCommit (k : Kci) (v : Nat)
  /-- SETTINGS_SAVE (R517): Saves the settings. -/
  | settingsSave (k : Kci)
  /-- SETTINGS_CLEAR (R517): Erases the settings. -/
  | settingsClear (k : Kci)
  /-- MGMT_FALLBACK (R516): A failing new MGMT image falls back to the previous one. -/
  | mgmtFallback (cc : Nat)
  /-- ATTEST (R501): Writes a signed attestation report. -/
  | attest (k : Kci) (nonce : List Byte) (dest : Nat)
  /-- CONFIG_EXPORT (R502): Writes the configuration record. -/
  | configExport (k : Kci) (dest maxLen : Nat)
  /-- ITIN_EXPORT (R510): Exports Itinerary entries. -/
  | itinExport (k : Kci) (seq count dest : Nat)
  /-- ITIN_EXPORT_ACK (R510): Acknowledges export. -/
  | itinExportAck (k : Kci) (seq : Nat)
  /-- ITIN_CHECKPOINT (R508): Requests a checkpoint. -/
  | itinCheckpoint (k : Kci)
  /-- ITIN_CKPT_READ (R508): Reads a checkpoint. -/
  | itinCkptRead (k : Kci) (number dest : Nat)
  /-- ITIN_JOURNAL_WRITE (R509): A page of entries is made durable in flash. -/
  | itinJournalWrite
  /-- FENCE_PORT (R528): Fences sub-ports. -/
  | fencePort (k : Kci) (lports : List Nat)
  /-- UNFENCE_PORT (R528): Unfences sub-ports. -/
  | unfencePort (k : Kci) (lports : List Nat)
  /-- ISOLATE_PEER (R531): Adds an isolation entry. -/
  | isolatePeer (k : Kci) (tiers depth : Nat)
  /-- RELEASE_PEER (R531): Removes an isolation entry. -/
  | releasePeer (k : Kci) (tiers depth : Nat)
  /-- JOB_TEARDOWN (R532): Tears down a job on this device. -/
  | jobTeardown (k : Kci) (job : Nat)
  /-- FAULT_LOG_READ (R523): Reads the fault log. -/
  | faultLogRead (k : Kci) (first count dest : Nat)
  /-- TILE_TEST (R535): Runs tile built-in test. -/
  | tileTest (k : Kci) (tiles : List Nat) (failed : List (Nat × FaultPart))
  /-- FAULT_MAP_READ (R534): Reads the fault map. -/
  | faultMapRead (k : Kci) (die dest : Nat)
  /-- PWR_QUERY (R559): Returns power readings. -/
  | pwrQuery (k : Kci) (dest : Nat)
  /-- PWR_RESET (R553): Starts a cold or warm reset. -/
  | pwrReset (k : Kci) (cold : Bool)
  /-- PWR_OFF (R547): Starts the normal power-down. -/
  | pwrOff (k : Kci)
  /-- VSB_START (R545): The input passes 49.5 V and the standby domain starts. -/
  | vsbStart (straps : Nat) (lidOpen : Bool) (cc : Nat)
  /-- PWR_EN_RISE (R546): PWR_EN high for 1 ms starts the power-up sequence. -/
  | pwrEnRise (cc : Nat)
  /-- PWR_EN_FALL (R547): PWR_EN low starts the normal power-down. -/
  | pwrEnFall (cc : Nat)
  /-- RAIL_TIMEOUT (R546): A rail not good within 2 ms of its enable causes an emergency power-down. -/
  | railTimeout (rail cc : Nat)
  /-- RAIL_EXCURSION (R544): A rail leaves its tolerance, giving a warning or a power-down. -/
  | railExcursion (rail mv amps : Nat) (ev : RailEvent)
  /-- INPUT_EXCURSION (R541): Input voltage or power leaves its range, giving an alarm or a power-down. -/
  | inputExcursion (ev : InputEvent) (volt curr power : Nat)
  /-- RESET_N_ASSERT (R552): RESET_N low for 10 µs starts a cold reset. -/
  | resetNAssert (cc : Nat)
  /-- COLD_RESET_END (R552): The cold reset ends on a reference edge and bring-up proceeds. -/
  | coldResetEnd (cc : Nat)
  /-- SENSOR_SAMPLE (R555): The 1 ms sensor sample sets warnings or trips. -/
  | sensorSample (temps : List Int) (inlet outlet : Int) (wet : Bool) (cc : Nat)
  /-- STACK_TRAINED (R21): A stack completes its initial training after reset, its TRAINED bit sets and spill is enabled on the die once all its stacks have trained. -/
  | stackTrained (stack : Nat)
  /-- SURVEYOR_RESTART_DONE (R27): A restarted Region or Quadrant Surveyor resumes, delivers its held notices and the commands held for it. -/
  | surveyorRestartDone (die : Nat) (region : Option Nat)
  /-- HOST_LINK_UP (R461): The PCIe host link trains up at 64 GT/s or falls back to PCIe 5.0, setting GEN5 accordingly. -/
  | hostLinkUp (gen5 : Bool)
  /-- FAR_PORT_READY (R430): A far port sees media ready, becomes READY, and its identity enters the Itinerary and measurements. -/
  | farPortReady (port cc : Nat)
  /-- BRIDGE_RETRY (R175): A die-bridge or hub-link flit fails its CRC and is retried, counting drift cause BRIDGE_RETRY for delayed Datum traffic. -/
  | bridgeRetry (b : BridgeId) (parts : List Nat)
  /-- STAGE_2_SLOT (R348): In each fabric slot an intermediate sends one cell, multicast head first, to the output line connected to it, and sets or clears STOP by queue depth. -/
  | stage2Slot (inter slot : Nat)
  /-- MER_SIGNAL_ACK (R189): A home cell's acknowledgement of a signal reaches the tile and frees an outstanding-signal entry, releasing a waiting MSIGNAL or a held SIG_EN signal. -/
  | merSignalAck (id : Nat)
  /-- PAUSE_TIMER_EXPIRY (R315): The pause time of a received PAUSE or PFC frame runs out and the held class becomes eligible again. -/
  | pauseTimerExpiry (lport cls cc : Nat)
deriving DecidableEq, Repr

end Sys2Proof
end

