-- ==== Sys2Proof/Decode.lean ====
section
/-! DEFINITION. The command that a table word spells. No row of spec/opcode_table.json gives bits: the commands of the module are
events, register writes and descriptors. Words of Tarpeth instructions are read in Machine/Tarpeth.lean, KCI descriptors in
Machine/KciDecode.lean. -/

namespace Sys2Proof

/-- The command of a word numbered as the table numbers bits; none, since no row has any. -/
def decodeTableWord (_nbits _w : Nat) : Option Instr := none

end Sys2Proof
end

