-- ==== Sys2Proof/Config.lean ====
section
/-! DEFINITION. Values that an implementation fixes or that the spec leaves open. Every one is opaque: nothing in Lean can evaluate it. -/

namespace Sys2Proof.Config

/-- A free number: applied to the State's counter of free values (log 2). -/
opaque freeNat : Nat → Nat

/-- A free byte string of the length given by the second argument, applied to the counter of free values: Cartouche's
random source (R491, R493). -/
opaque freeByte : Nat → Nat → Byte

/-- Ed448 (R493): the public key of a private key. -/
opaque ed448Public : List Byte → List Byte

/-- Ed448 (R494): the 114-byte signature of a message under a private key and a context string. -/
opaque ed448Sign : (key context message : List Byte) → List Byte

/-- Ed448 verification: public key, context, message, signature. -/
opaque ed448Verify : (pubKey context message signature : List Byte) → Bool

/-- AES-256 key wrap under the hardware-unique key (R493): wrap, and unwrap (none where it fails). -/
opaque keyWrap : List Byte → List Byte
opaque keyUnwrap : List Byte → Option (List Byte)

/-- The serial number attribute of the first certificate of a DER chain, its subject public key, and whether each
certificate is signed with Ed448 by the next (R495). -/
opaque certSerial : List Byte → List Byte
opaque certKey : List Byte → List Byte
opaque certChainOk : List Byte → Bool

/-- The number of certificates in a DER chain (R495). -/
opaque certCount : List Byte → Nat

/-- The coefficient tables of EXP2, LOG2, RECIP and RSQRT in a tile runtime image (R99): the image, the function 0 to 3 in
that order, the half that k selects for RSQRT, and the segment 0 to 127 give c0, c1 and c2. -/
opaque vtabCoef : List Byte → Nat → Nat → Nat → Int × Int × Int

/-- Post-package repair (R421, R427): the banks of a stack, the repair resources of each bank at manufacture, and the bank of a
logical row (pseudo-channel, row). -/
opaque pprBanks : Nat
opaque pprResources : Nat
opaque rowBank : Nat → Nat → Nat

/-- The cells of an ingress queue above which a priority is held by PFC, per priority (R315, log 22). -/
opaque pfcThreshold : Nat → Nat

/-- What places the SYSTEM regions that Compass makes at start-up (R409, log 66): of a die, kind 0 the Traverse spill region, 1 the
Bearing rings and stores, 2 the Plat free rings: numbers that choose the first address, the first block position, and the bands. -/
opaque systemBase : Nat → Nat → Nat
opaque systemBand : Nat → Nat → Nat
opaque systemBands : Nat → Nat → Nat

/-- What built-in test finds in a tile (R535, log 75): of a free-value counter and a tile, the failed part, if any. -/
opaque builtInTest : Nat → Nat → Option FaultPart

/-- The vendor ID that PCI-SIG assigned to the maker, which R461 names and does not give (log 25). -/
opaque pciVendor : BitVec 16

end Sys2Proof.Config
end

