-- ==== Sys2Proof/Machine/Bits.lean ====
section
/-! DEFINITION. Bit fields, sign extension and little-endian bytes (R5, R11). -/

namespace Sys2Proof.Machine

/-- Bits [hi:lo] of a number (R5). -/
def fld (x : Nat) (hi lo : Nat) : Nat := x / 2 ^ lo % 2 ^ (hi + 1 - lo)

/-- Bits [hi:lo] of a word (R5). -/
def bits (w : Word) (hi lo : Nat) : Nat := fld w.toNat hi lo

/-- Bit i of a word, as a Bool. -/
def bit (w : Word) (i : Nat) : Bool := w.toNat.testBit i

/-- Places a field of a word: v (cut to the field's width) at [hi:lo]. -/
def put (hi lo v : Nat) : Nat := v % 2 ^ (hi + 1 - lo) * 2 ^ lo

/-- A flag as one bit at position lo. -/
def flag (lo : Nat) (b : Bool) : Nat := if b then 2 ^ lo else 0

/-- A word from a number (the low 64 bits). -/
def wd (n : Nat) : Word := BitVec.ofNat 64 n

/-- The value of an n-bit two's complement field. -/
def signed (n : Nat) (x : Nat) : Int :=
  let y := x % 2 ^ n
  if 2 ^ (n - 1) ≤ y then (y : Int) - (2 ^ n : Nat) else (y : Int)

/-- An integer as an n-bit two's complement field. -/
def unsign (n : Nat) (i : Int) : Nat := (i % ((2 ^ n : Nat) : Int)).toNat

/-- The k little-endian bytes of a number (R11). -/
def leBytes : Nat → Nat → List Byte
  | 0, _ => []
  | k + 1, n => BitVec.ofNat 8 n :: leBytes k (n / 256)

/-- The number little-endian bytes spell (R11). -/
def ofLe : List Byte → Nat
  | [] => 0
  | b :: bs => b.toNat + 256 * ofLe bs

/-- The k big-endian bytes of a number. -/
def beBytes (k n : Nat) : List Byte := (leBytes k n).reverse

/-- The number big-endian bytes spell. -/
def ofBe (bs : List Byte) : Nat := ofLe bs.reverse

/-- The words of a byte string, eight bytes a word, little-endian (R11). The count of words is given. -/
def leWords : Nat → List Byte → List Word
  | 0, _ => []
  | k + 1, bs => wd (ofLe (bs.take 8)) :: leWords k (bs.drop 8)

/-- The bytes of words, little-endian (R11). -/
def wordBytes (ws : List Word) : List Byte := ws.flatMap (fun w => leBytes 8 w.toNat)

/-- A list made n long by cutting or by appending the filler. -/
def padTo {α : Type} (n : Nat) (x : α) (l : List α) : List α := l.take n ++ List.replicate (n - l.length) x

/-- The i-th element, or the default. -/
def nth {α : Type} (l : List α) (i : Nat) (d : α) : α := (l[i]?).getD d

/-- Consecutive pieces of n elements; k pieces. -/
def pieces {α : Type} (n : Nat) : Nat → List α → List (List α)
  | 0, _ => []
  | k + 1, l => l.take n :: pieces n k (l.drop n)

/-- The bytes of an ASCII string. -/
def ascii (t : String) : List Byte := t.toList.map (fun c => BitVec.ofNat 8 c.toNat)

/-- Ceiling division. -/
def ceilDiv (a b : Nat) : Nat := (a + b - 1) / b

/-- A 64-bit event counter that stops at all ones (R8's counters: "stops at all ones"). -/
def satInc (n : Nat) (k : Nat := 1) : Nat := min (n + k) (2 ^ 64 - 1)

end Sys2Proof.Machine
end

