-- ==== Sys2Proof/Machine/Keccak.lean ====
section
/-! DEFINITION. SHAKE256 and KMAC256, the digests of the device (R4, R482). PRESUMED (log 9): their definitions are those of FIPS 202 and NIST SP 800-185, which the spec names and does not repeat. -/

namespace Sys2Proof.Machine

/-- Rotation of a 64-bit lane to the left. -/
def rotl64 (x n : Nat) : Nat := (x <<< (n % 64) ||| x >>> (64 - n % 64)) % 2 ^ 64

/-- The rotation of lane 5y + x: byte 5y + x of this number. -/
def keccakTurns : Nat := 0xE383D021208150F2D2927192B0A031437062C241B1C3E0100
def keccakTurn (lane : Nat) : Nat := fld keccakTurns (8 * lane + 7) (8 * lane)

/-- The constant of round r: its bit 2^j - 1 is bit j of byte r of this number, for j up to 6. -/
def keccakSparks : Nat := 0x7421587966164852535D4F3F26350C0E5579211F705E1A01
def keccakConst (r : Nat) : Nat := ((List.range 7).map (fun j => flag (2 ^ j - 1) (keccakSparks.testBit (8 * r + j)))).foldl (· + ·) 0

/-- Round r on 25 lanes. -/
def keccakRound (a : List Nat) (r : Nat) : List Nat :=
  let l := fun (v : List Nat) (x y : Nat) => nth v (5 * (y % 5) + x % 5) 0
  let c := (List.range 5).map (fun x => l a x 0 ^^^ l a x 1 ^^^ l a x 2 ^^^ l a x 3 ^^^ l a x 4)
  let d := (List.range 5).map (fun x => nth c ((x + 4) % 5) 0 ^^^ rotl64 (nth c ((x + 1) % 5) 0) 1)
  let th := (List.range 25).map (fun i => nth a i 0 ^^^ nth d (i % 5) 0)
  let b := (List.range 25).map (fun i =>
    -- lane (X, Y) = (y, 2x + 3y) of rho and pi; its source is x = X + 3Y, y = X
    let sx := (i % 5 + 3 * (i / 5)) % 5
    let sy := i % 5
    rotl64 (l th sx sy) (keccakTurn (5 * sy + sx)))
  let ch := (List.range 25).map (fun i =>
    let x := i % 5
    let y := i / 5
    l b x y ^^^ ((2 ^ 64 - 1 - l b (x + 1) y) &&& l b (x + 2) y))
  match ch with
  | [] => []
  | z :: zs => (z ^^^ keccakConst r) :: zs

/-- The permutation: 24 rounds. -/
def keccakF (a : List Nat) : List Nat := (List.range 24).foldl keccakRound a

/-- Absorbs one 136-byte block. -/
def keccakAbsorb (a : List Nat) (block : List Byte) : List Nat :=
  let ws := (leWords 17 block).map (·.toNat)
  keccakF ((List.range 25).map (fun i => nth a i 0 ^^^ nth ws i 0))

/-- The sponge with rate 136 and a domain suffix byte; output of at most 136 bytes. -/
def keccak136 (suffix : Byte) (msg : List Byte) (out : Nat) : List Byte :=
  let n := msg.length / 136 + 1
  let padLen := n * 136 - msg.length
  let padded := if padLen = 1 then msg ++ [suffix ||| 0x80]
    else msg ++ [suffix] ++ List.replicate (padLen - 2) 0 ++ [0x80]
  let a := (pieces 136 n padded).foldl keccakAbsorb (List.replicate 25 0)
  (a.flatMap (leBytes 8)).take out

/-- SHAKE256 with the 64-byte output every digest of the device uses (R4). -/
def shake256 (msg : List Byte) : List Byte := keccak136 0x1F msg 64

/-- SHAKE256 with an output of n bytes, n at most 136. -/
def shake256n (n : Nat) (msg : List Byte) : List Byte := keccak136 0x1F msg n

/-- The count of bytes a number takes, at least 1. -/
def byteLen (n : Nat) : Nat := max 1 ((n.log2 + 8) / 8)

/-- left_encode and right_encode of SP 800-185. -/
def leftEncode (n : Nat) : List Byte := BitVec.ofNat 8 (byteLen n) :: beBytes (byteLen n) n
def rightEncode (n : Nat) : List Byte := beBytes (byteLen n) n ++ [BitVec.ofNat 8 (byteLen n)]

/-- encode_string and bytepad of SP 800-185. -/
def encodeString (bs : List Byte) : List Byte := leftEncode (8 * bs.length) ++ bs
def bytepad136 (bs : List Byte) : List Byte :=
  let z := leftEncode 136 ++ bs
  z ++ List.replicate ((136 - z.length % 136) % 136) 0

/-- KMAC256 with an output of n bytes, n at most 136. -/
def kmac256 (key msg : List Byte) (n : Nat) (custom : String) : List Byte :=
  keccak136 0x04 (bytepad136 (encodeString (ascii "KMAC") ++ encodeString (ascii custom)) ++
    bytepad136 (encodeString key) ++ msg ++ rightEncode (8 * n)) n

end Sys2Proof.Machine
end

