-- ==== Sys2Proof/Machine/SMap.lean ====
section
/-! DEFINITION. Sorted sparse maps from numbers, and byte memories in canonical form. -/

namespace Sys2Proof.Machine

/-- A sparse map: pairs of key and value, keys strictly rising. -/
abbrev SMap (α : Type) := List (Nat × α)

/-- The value at a key, if listed. -/
def SMap.look {α : Type} : SMap α → Nat → Option α
  | [], _ => none
  | (k, v) :: r, a => if k = a then some v else SMap.look r a

/-- The value at a key, or the default of unlisted keys. -/
def SMap.lookD {α : Type} (m : SMap α) (a : Nat) (d : α) : α := (m.look a).getD d

/-- Sets a key, keeping keys rising. -/
def SMap.put {α : Type} : SMap α → Nat → α → SMap α
  | [], a, x => [(a, x)]
  | (k, v) :: r, a, x =>
    if a < k then (a, x) :: (k, v) :: r
    else if a = k then (a, x) :: r
    else (k, v) :: SMap.put r a x

/-- Removes a key. -/
def SMap.del {α : Type} : SMap α → Nat → SMap α
  | [], _ => []
  | (k, v) :: r, a => if k = a then r else (k, v) :: SMap.del r a

/-- Applies f to the value at a key (the default where unlisted) and stores it. -/
def SMap.upd {α : Type} (m : SMap α) (a : Nat) (d : α) (f : α → α) : SMap α := m.put a (f (m.lookD a d))

/-- Applies f to the value at a key where the key is listed. -/
def SMap.adj {α : Type} (m : SMap α) (a : Nat) (f : α → α) : SMap α :=
  m.map (fun e => if e.1 = a then (e.1, f e.2) else e)

/-- The listed values, in key order. -/
def SMap.vals {α : Type} (m : SMap α) : List α := m.map (·.2)

/-- The listed keys, rising. -/
def SMap.keys {α : Type} (m : SMap α) : List Nat := m.map (·.1)

/-- Keeps the entries whose key and value satisfy p. -/
def SMap.keep {α : Type} (m : SMap α) (p : Nat → α → Bool) : SMap α := m.filter (fun e => p e.1 e.2)

/-- The least number not below n, and below n + fuel, that is not a key. -/
def SMap.fresh {α : Type} (m : SMap α) : Nat → Nat → Option Nat
  | _, 0 => none
  | n, k + 1 => if (m.look n).isNone then some n else SMap.fresh m (n + 1) k

/-- A byte memory: cells with addresses strictly rising, none equal to what an unlisted address reads as. -/
abbrev Memory := List Host.Cell

/-- DESIGN CHOICE (log 4): what a byte that nothing has written reads as. -/
def Memory.fill : Byte := 0

/-- Reads one byte. -/
def Memory.read (m : Memory) (a : Nat) : Byte := SMap.lookD m a Memory.fill

/-- Writes one byte, keeping the canonical form. -/
def Memory.write (m : Memory) (a : Nat) (b : Byte) : Memory :=
  if b = Memory.fill then SMap.del m a else SMap.put m a b

/-- Reads n consecutive bytes from a. -/
def Memory.readN (m : Memory) (a : Nat) : Nat → List Byte
  | 0 => []
  | n + 1 => m.read a :: Memory.readN m (a + 1) n

/-- Writes consecutive bytes from a. -/
def Memory.writeN : Memory → Nat → List Byte → Memory
  | m, _, [] => m
  | m, a, b :: bs => Memory.writeN (m.write a b) (a + 1) bs

/-- Reads a little-endian number of n bytes (R11). -/
def Memory.readLe (m : Memory) (a n : Nat) : Nat := ofLe (m.readN a n)

/-- Writes a little-endian number of n bytes (R11). -/
def Memory.writeLe (m : Memory) (a n v : Nat) : Memory := m.writeN a (leBytes n v)

/-- Reads one 64-bit little-endian word. -/
def Memory.word (m : Memory) (a : Nat) : Word := wd (m.readLe a 8)

/-- Reads n consecutive words. -/
def Memory.words (m : Memory) (a n : Nat) : List Word := leWords n (m.readN a (8 * n))

/-- Removes every cell with an address in [a, a + n): those bytes read as the fill. -/
def Memory.clear (m : Memory) (a n : Nat) : Memory := m.filter (fun c => c.1 < a || a + n ≤ c.1)

/-- Keys strictly rising from a bound. -/
def SMap.rising {α : Type} : Option Nat → SMap α → Bool
  | _, [] => true
  | none, (k, _) :: r => SMap.rising (some k) r
  | some b, (k, _) :: r => decide (b < k) && SMap.rising (some k) r

/-- The canonical form of a memory. -/
def Memory.wf (m : Memory) : Bool := SMap.rising none m && m.all (fun c => decide (c.2 ≠ Memory.fill))

end Sys2Proof.Machine
end

