-- ==== Sys2Proof/Machine/Status.lean ====
section
/-! DEFINITION. Status codes (R476) and notice codes (R477, R519, R539, R560). The inductives are the names; the `code` functions are the numbers. -/

namespace Sys2Proof.Machine

/-- Every status named in the manual (R476). -/
inductive Status where
  | ok
  | arrived
  | timeout
  | aborted
  | accessDenied
  | noResources
  | notPresent
  | uncorrectable
  | targetLost
  | fenced
  | modeConflict
  | badOpcode
  | badOperand
  | tagBusy
  | partInvalid
  | partState
  | illegalOp
  | loopDepth
  | addrRange
  | addrAlign
  | descInvalid
  | msgInvalid
  | regionInvalid
  | queueFull
  | imemBusy
  | tileState
  | tileUnavailable
  | tileFaulted
  | userTrap
  | formatInvalid
  | formatMix
  | sparseInTrain
  | sparseFormat
  | objInvalid
  | objBusy
  | waiterLimit
  | syncFail
  | mismatch
  | memberLost
  | countLimit
  | groupInvalid
  | groupBusy
  | tableInvalid
  | rowRange
  | rowFault
  | gazInvalid
  | portLimit
  | portState
  | steerInvalid
  | routeInvalid
  | aliasInvalid
  | ctrInvalid
  | deadlineMissed
  | memInvalid
  | memBusy
  | pageRetired
  | stackBusy
  | doubleFree
  | sigInvalid
  | rollback
  | imageInvalid
  | lcState
  | tampered
deriving DecidableEq, Repr

/-- The 8-bit code of a status (R476). -/
def Status.code : Status → Nat
  | .ok => 0x00
  | .arrived => 0x01
  | .timeout => 0x02
  | .aborted => 0x03
  | .accessDenied => 0x04
  | .noResources => 0x05
  | .notPresent => 0x06
  | .uncorrectable => 0x07
  | .targetLost => 0x08
  | .fenced => 0x09
  | .modeConflict => 0x0A
  | .badOpcode => 0x0B
  | .badOperand => 0x0C
  | .tagBusy => 0x0D
  | .partInvalid => 0x0E
  | .partState => 0x0F
  | .illegalOp => 0x10
  | .loopDepth => 0x11
  | .addrRange => 0x12
  | .addrAlign => 0x13
  | .descInvalid => 0x14
  | .msgInvalid => 0x15
  | .regionInvalid => 0x16
  | .queueFull => 0x17
  | .imemBusy => 0x18
  | .tileState => 0x19
  | .tileUnavailable => 0x1A
  | .tileFaulted => 0x1B
  | .userTrap => 0x1C
  | .formatInvalid => 0x20
  | .formatMix => 0x21
  | .sparseInTrain => 0x22
  | .sparseFormat => 0x23
  | .objInvalid => 0x30
  | .objBusy => 0x31
  | .waiterLimit => 0x32
  | .syncFail => 0x33
  | .mismatch => 0x40
  | .memberLost => 0x41
  | .countLimit => 0x42
  | .groupInvalid => 0x43
  | .groupBusy => 0x44
  | .tableInvalid => 0x50
  | .rowRange => 0x51
  | .rowFault => 0x52
  | .gazInvalid => 0x53
  | .portLimit => 0x60
  | .portState => 0x61
  | .steerInvalid => 0x62
  | .routeInvalid => 0x63
  | .aliasInvalid => 0x64
  | .ctrInvalid => 0x65
  | .deadlineMissed => 0x66
  | .memInvalid => 0x70
  | .memBusy => 0x71
  | .pageRetired => 0x72
  | .stackBusy => 0x73
  | .doubleFree => 0x74
  | .sigInvalid => 0x80
  | .rollback => 0x81
  | .imageInvalid => 0x82
  | .lcState => 0x83
  | .tampered => 0x84

/-- The status a code names, if any (R476). -/
def Status.ofCode (n : Nat) : Option Status :=
  [.ok, .arrived, .timeout, .aborted, .accessDenied, .noResources, .notPresent, .uncorrectable,
   .targetLost, .fenced, .modeConflict, .badOpcode, .badOperand, .tagBusy, .partInvalid, .partState,
   .illegalOp, .loopDepth, .addrRange, .addrAlign, .descInvalid, .msgInvalid, .regionInvalid, .queueFull,
   .imemBusy, .tileState, .tileUnavailable, .tileFaulted, .userTrap, .formatInvalid, .formatMix, .sparseInTrain,
   .sparseFormat, .objInvalid, .objBusy, .waiterLimit, .syncFail, .mismatch, .memberLost, .countLimit,
   .groupInvalid, .groupBusy, .tableInvalid, .rowRange, .rowFault, .gazInvalid, .portLimit, .portState,
   .steerInvalid, .routeInvalid, .aliasInvalid, .ctrInvalid, .deadlineMissed, .memInvalid, .memBusy, .pageRetired,
   .stackBusy, .doubleFree, .sigInvalid, .rollback, .imageInvalid, .lcState, .tampered].find? (fun x => x.code == n)

/-- The notices (R477, R519, R539, R560). -/
inductive Notice where
  | compassRestart
  | accessError
  | lockedWrite
  | noticeOverflow
  | surveyorRestart
  | bridgeLaneRemap
  | bridgeFailed
  | mgmtDrop
  | ptpState
  | hostWriteDropped
  | eepromDigest
  | lcChanged
  | tamper
  | keyUnavailable
  | driftFirst
  | syncSkew
  | platLevel
  | doubleFree
  | poolFaulted
  | linkDown
  | trainStopped
  | miswired
  | hopsExpired
  | flowFailed
  | ingressShed
  | cmisTimeout
  | setUnreachable
  | reorderLoss
  | orderError
  | tileFault
  | rxPartMismatch
  | rxNoHandler
  | tileCmdInvalid
  | collectiveAbort
  | rowUncorrectable
  | sheetUncorrectable
  | memberLost
  | stkUncorrectable
  | rowRemapped
  | blockRetired
  | pprFailed
  | channelFailed
  | farFailed
  | farPoison
  | farDown
  | countOverflow
  | merReject
  | deadlock
  | mgmtFallback
  | settingsReset
  | imageMoveFailed
  | itinHigh
  | itinGap
  | moduleFailed
  | dieDown
  | portFenced
  | peerIsolated
  | jobTornDown
  | tileTestFail
  | powerAlarm
  | thermalWarn
  | coolantAlarm
  | railFault
  | powerDown
  | soundingFault
  | wipeVerifyFailed
deriving DecidableEq, Repr

/-- The 16-bit code of a notice (R477, R519, R539, R560). -/
def Notice.code : Notice → Nat
  | .compassRestart => 0x8001
  | .accessError => 0x8002
  | .lockedWrite => 0x8003
  | .noticeOverflow => 0x8004
  | .surveyorRestart => 0x8005
  | .bridgeLaneRemap => 0x8006
  | .bridgeFailed => 0x8007
  | .mgmtDrop => 0x8008
  | .ptpState => 0x8009
  | .hostWriteDropped => 0x800A
  | .eepromDigest => 0x800B
  | .lcChanged => 0x8101
  | .tamper => 0x8102
  | .keyUnavailable => 0x8103
  | .driftFirst => 0x8201
  | .syncSkew => 0x8202
  | .platLevel => 0x8203
  | .doubleFree => 0x8204
  | .poolFaulted => 0x8205
  | .linkDown => 0x8301
  | .trainStopped => 0x8302
  | .miswired => 0x8303
  | .hopsExpired => 0x8304
  | .flowFailed => 0x8305
  | .ingressShed => 0x8306
  | .cmisTimeout => 0x8307
  | .setUnreachable => 0x8401
  | .reorderLoss => 0x8402
  | .orderError => 0x8403
  | .tileFault => 0x8501
  | .rxPartMismatch => 0x8502
  | .rxNoHandler => 0x8503
  | .tileCmdInvalid => 0x8504
  | .collectiveAbort => 0x8601
  | .rowUncorrectable => 0x8701
  | .sheetUncorrectable => 0x8801
  | .memberLost => 0x8802
  | .stkUncorrectable => 0x8901
  | .rowRemapped => 0x8902
  | .blockRetired => 0x8903
  | .pprFailed => 0x8904
  | .channelFailed => 0x8905
  | .farFailed => 0x8906
  | .farPoison => 0x8907
  | .farDown => 0x8908
  | .countOverflow => 0x8A01
  | .merReject => 0x8A02
  | .deadlock => 0x8A03
  | .mgmtFallback => 0x8B01
  | .settingsReset => 0x8B02
  | .imageMoveFailed => 0x8B03
  | .itinHigh => 0x8C01
  | .itinGap => 0x8C02
  | .moduleFailed => 0x8D01
  | .dieDown => 0x8D02
  | .portFenced => 0x8D03
  | .peerIsolated => 0x8D04
  | .jobTornDown => 0x8D05
  | .tileTestFail => 0x8D06
  | .powerAlarm => 0x8E01
  | .thermalWarn => 0x8E02
  | .coolantAlarm => 0x8E03
  | .railFault => 0x8E04
  | .powerDown => 0x8E05
  | .soundingFault => 0x8F01
  | .wipeVerifyFailed => 0x8F02

/-- The opcode range of a notice's subsystem: bits [11:8] of its code (R477). -/
def Notice.range (n : Notice) : Nat := n.code / 256 % 16

end Sys2Proof.Machine
end

