-- ==== Sys2Proof/Machine/State/Cartouche.lean ====
section
/-! DEFINITION. The state of Cartouche and of the power module (R490 to R520, R541 to R561). -/

namespace Sys2Proof.Machine

/-- One Itinerary entry (R504). -/
structure ItinEntry where
  seq      : Nat
  ptpTime  : Nat
  timebase : Nat
  code     : Nat
  flags    : Nat
  part     : Nat
  source   : Nat
  status   : Nat
  /-- 32 bytes. -/
  subject  : List Byte
  /-- 64 bytes. -/
  chain    : List Byte
deriving DecidableEq, Repr

/-- A checkpoint as stored: number, and the 256 bytes of body, signature and zero fill (R508). -/
structure Checkpoint where
  number : Nat
  bytes  : List Byte
deriving DecidableEq, Repr

/-- The Itinerary (R504 to R511). -/
structure Itin where
  /-- The entries still held, newest first (ring and journal together, R509). -/
  entries  : List ItinEntry := []
  /-- The SEQ the next entry takes. -/
  next     : Nat := 0
  /-- The CHAIN of the newest entry, or the start value of R507. -/
  chain    : List Byte := List.replicate 64 0
  /-- Number of entries that are durable: every SEQ below it (R509). -/
  durable  : Nat := 0
  /-- CRT_ITIN_ACKED: the first unexported SEQ (R510). -/
  acked    : Nat := 0
  /-- Checkpoints, newest first, at most 1,024 (R508), the number of the next one, and the entries since the last. -/
  ckpts    : List Checkpoint := []
  ckptNext : Nat := 0
  since    : Nat := 0
  /-- CRT_ITIN_LOST_COUNT and the events lost since the last GAP record (R511). -/
  lost     : Nat := 0
  gap      : Nat := 0
  /-- Whether ITIN_HIGH was raised for the present filling (R511). -/
  high     : Bool := false
deriving DecidableEq, Repr

/-- An armed transition (R491). -/
structure Arm where
  target    : LcState
  challenge : List Byte
  at_       : Nat
deriving DecidableEq, Repr

/-- CRT_FW_STATUS.STAGE (R520). -/
inductive StageState where
  | empty | writing | verified | activating | invalid
deriving DecidableEq, Repr

/-- Cartouche. -/
structure Cartouche where
  /-- The state fuses (R490), the key-destroy fuse (R496), the security version fuses (R515). -/
  lc        : LcState := .blank
  keyGone   : Bool := false
  svn       : Nat := 0
  /-- The four key slots: digest of the vendor public key, and the revocation fuse (R512). -/
  keySlots  : List (List Byte × Bool) := []
  /-- The identity key: wrapped in module flash, and unwrapped in the secure bank (R493). -/
  wrapped   : Option (List Byte) := none
  loaded    : Option (List Byte) := none
  pubKey    : List Byte := []
  /-- The certificate chain in module flash (R495, R498). -/
  certs     : List Byte := []
  certDone  : Bool := false
  arm       : Option Arm := none
  /-- CRT_TAMPER (R500). -/
  latched   : Nat := 0
  live      : Nat := 0
  tampers   : Nat := 0
  /-- A wipe failed its read-back: Cartouche treats the device as tampered (R449). -/
  suspect   : Bool := false
  /-- The transition whose steps 4 to 7 are still to come (R492). -/
  changing  : Option (LcState × LcState) := none
  /-- The staging area of module flash (R513). -/
  staging   : Memory := []
  stageLen  : Nat := 0
  stage     : StageState := .empty
  pendStart : Bool := false
  /-- A FW_ACTIVATE copies its package; one waits for its MGMT image to reach READY (R514). -/
  copying   : Bool := false
  update    : Bool := false
  fallback  : Bool := false
  /-- The image slots of module flash by TYPE: active, pending, previous (R514). -/
  active    : SMap (List Byte) := []
  pending   : SMap (List Byte) := []
  previous  : SMap (List Byte) := []
  /-- Restart into the new MGMT image: since when (R514, R516). -/
  mgmtSince : Option Nat := none
  /-- Stored settings: SETTINGS_FMT and the configuration record (R517). -/
  settings  : Option (Nat × List (Nat × List Word)) := none
  itin      : Itin := {}
deriving DecidableEq, Repr

/-- PWR_STATUS.STATE (R561); `off` is the module without input. -/
inductive PwrState where
  | off | standby | ramping | on | poweringDown
deriving DecidableEq, Repr

/-- One rail (PWR_RAIL_STATE, R561). -/
structure Rail where
  mv    : Nat := 0
  amps  : Nat := 0
  pgood : Bool := false
  warn  : Bool := false
deriving DecidableEq, Repr

/-- One sensor (PWR_TEMP, R555, R561): temperature in 0.125 °C, the WARN episode, and consecutive TRIP samples. -/
structure Sensor where
  temp  : Int := 0
  warn  : Bool := false
  trips : Nat := 0
deriving DecidableEq, Repr

/-- Straps latched when VSB starts (R556). -/
structure Straps where
  i3c  : Bool := false
  addr : Nat := 0
  sris : Bool := false
deriving DecidableEq, Repr

/-- The power module (R541 to R561). -/
structure Power where
  state     : PwrState := .on
  /-- The cycle in which the present power state was entered. -/
  since     : Nat := 0
  lastReset : Nat := 0
  lastOff   : Nat := 0
  /-- Pins: PWR_EN, PWR_GOOD, FAULT_N (true: high). -/
  pwrEn     : Bool := true
  pwrGood   : Bool := true
  faultN    : Bool := true
  /-- Since when PWR_EN is low after an emergency power-down (R548). -/
  lowSince  : Option Nat := none
  emergency : Bool := false
  volt      : Nat := 0
  curr      : Nat := 0
  power     : Nat := 0
  live      : Nat := 0
  latched   : Nat := 0
  railSel   : Nat := 0
  rails     : SMap Rail := []
  tempSel   : Nat := 0
  temps     : SMap Sensor := []
  inlet     : Int := 0
  outlet    : Int := 0
  leak      : Bool := false
  leakTrips : Nat := 0
  inletTrips : Nat := 0
  flowSince : Option Nat := none
  warnCount : Nat := 0
  straps    : Straps := {}
  eepromBad : Bool := false
  /-- A PWR_RESET COLD that begins at this cycle (R553), and a cold reset in progress. -/
  coldAt    : Option Nat := none
  inReset   : Bool := false
  resetKind : Nat := 0
deriving DecidableEq, Repr

end Sys2Proof.Machine
end

