-- ==== Sys2Proof/Machine/State/Cfl.lean ====
section
/-! DEFINITION. The state of Confluence (R213 to R257). -/

namespace Sys2Proof.Machine

/-- STATE of a group (R257). -/
inductive CflPhase where
  | defined | open_ | failed
deriving DecidableEq, Repr

/-- A defined group: its definition, MD, NEXT_SEQ of the hosted ranks. -/
structure CflGroup where
  d     : GroupDef
  md    : Word
  phase : CflPhase := .defined
  next  : SMap Nat := []
deriving DecidableEq, Repr

/-- The path of a submission (R219): a command, which waits for the item; a tile with REPLY_HANDLER and TAG; an accelerator. -/
inductive CflVia where
  | kci
  | tile (t handler tag : Nat)
  | accel (lport reqId : Nat)
deriving DecidableEq, Repr

/-- What a node has of one stream of one tree and segment: packet kind (R227), or 16 and 17 for what the node as a root has
formed; the source rank, the bytes so far, the blocks that still hold a buffer with its index, and the blocks forwarded. -/
structure CflIn where
  kind  : Nat
  tree  : Nat
  seg   : Nat
  src   : Nat
  bytes : List Byte := []
  bufs  : List (Nat × Nat) := []
  fwd   : Nat := 0
  /-- Saturations of a part that this node has rounded. -/
  sat   : Nat := 0
deriving DecidableEq, Repr

/-- A collective at a hosted rank: submitted, and started once `seq` is taken. -/
structure CflRun where
  id      : Nat
  group   : Nat
  rank    : Nat
  words   : List Word
  via     : CflVia
  digest  : Word
  seq     : Option Nat := none
  /-- The contribution as read at the start, and its scale bytes. -/
  source  : List Byte := []
  scales  : List Byte := []
  /-- The contribution is complete. -/
  ready   : Bool := false
  /-- GATHER_POOL: the rows that completed OK, by bag, as FP64 encodings. -/
  pool    : List (Nat × List Nat) := []
  /-- The number of the free values of this run. -/
  free    : Nat := 0
  /-- Children whose DIGEST_UP has come, DIGEST_UP sent, CONFIRM received (R230). -/
  digs    : List Nat := []
  digSent : Bool := false
  confirmed : Bool := false
  ins     : List CflIn := []
  /-- The next segment and block to combine: tree A, tree B, phase 1 of each at 2 and 3, the destinations of ALL_TO_ALL from 4 on. -/
  pos     : SMap (Nat × Nat) := []
  /-- Results written: origin, tree and segment. -/
  wrote   : List (Nat × Nat × Nat) := []
  /-- Saturations at the roots A and B, where this device hosts them. -/
  sats    : List Nat := [0, 0]
  /-- Blocks sent, by stream (R228). -/
  sent    : SMap Nat := []
  /-- The cycle of the last packet or of the start (R250). -/
  last    : Nat := 0
deriving DecidableEq, Repr

/-- A block that waits for its turn or a credit: the stream it goes on, its collective, the buffer it still holds, and whether it
has counted in CFL_CREDIT_STALL_COUNT. -/
structure CflOut where
  stream : Nat
  group  : Nat
  rank   : Nat
  seq    : Nat
  pkt    : Packet
  buf    : Option (Nat × Nat) := none
  stalled : Bool := false
deriving DecidableEq, Repr

/-- An abort record (R252). -/
structure CflAbortRec where
  group  : Nat
  seq    : Nat
  status : Nat
  from_  : Option Nat
deriving DecidableEq, Repr

/-- CFL_LAST_ABORT (R257). -/
structure CflLast where
  group  : Nat := 0
  status : Nat := 0
  raised : Bool := false
  valid  : Bool := false
  seq    : Nat := 0
deriving DecidableEq, Repr

structure Cfl where
  groups  : SMap CflGroup := []
  /-- Submissions and started collectives, in the order of submission. -/
  runs    : List CflRun := []
  nextRun : Nat := 0
  /-- Packets that came before the local start (R231): rank, packet, buffer. -/
  early   : List (Nat × Packet × Option Nat) := []
  /-- Credits that a sender holds, and buffers that a receiver has granted, by stream. -/
  credits : SMap Nat := []
  grants  : SMap (List Nat) := []
  outs    : List CflOut := []
  aborts  : List CflAbortRec := []
  last    : CflLast := {}
  /-- CFL_ABORT_COUNT, CFL_MISMATCH_COUNT, CFL_SAT_COUNT, CFL_CREDIT_STALL_COUNT. -/
  counts  : List Nat := List.replicate 4 0
  /-- Collation buffers that hold an uncorrectable error: die, buffer, and the address of the word (R251). -/
  bad     : List (Nat × Nat × Nat) := []
deriving DecidableEq, Repr

end Sys2Proof.Machine
end

