-- ==== Sys2Proof/Machine/State/Compass.lean ====
section
/-! DEFINITION. The state of Compass: functions, rings, commands in flight, descriptor queues, management port, PTP, identity (R461 to R489). -/

namespace Sys2Proof.Machine

/-- An entry of an event ring before its slot is known: the four words of R472 with PHASE zero. -/
abbrev EventWords := List Word

/-- The state of one physical or virtual function (R462, R466, R473, R474, R481). -/
structure FnState where
  /-- CMP_CMD_RING.BASE as a byte address and SIZE_LOG2. -/
  cmdBase   : Nat := 0
  cmdLog    : Nat := 0
  /-- CMP_EVT_RING.BASE as a byte address and SIZE_LOG2. -/
  evtBase   : Nat := 0
  evtLog    : Nat := 0
  /-- CMP_KCI_STATUS.EVT_VECTOR and RINGS. -/
  evtVector : Nat := 0
  rings     : Bool := false
  /-- The four free-running indices, modulo 2^17. -/
  cmdTail   : Nat := 0
  cmdHead   : Nat := 0
  evtTail   : Nat := 0
  evtHead   : Nat := 0
  /-- CMP_MBOX_CMD_0 to 7, a GO that waits for its visit, BUSY, and CMP_MBOX_RESP_0 to 3. -/
  mboxCmd   : List Word := List.replicate 8 0
  mboxGo    : Bool := false
  mboxBusy  : Bool := false
  mboxResp  : List Word := List.replicate 4 0
  /-- Notices held for a full or missing ring, oldest first, and how many were lost (R473). -/
  held      : List EventWords := []
  lost      : Nat := 0
  /-- When each MSI-X vector was last sent, and the vectors held by the 1 µs spacing (R473). -/
  lastMsix  : SMap Nat := []
  msixWait  : List Nat := []
  /-- The MSI-X table, by byte offset of its 64-bit words (R464, R465). -/
  msixTab   : SMap Word := []
  /-- SR-IOV VF enable and Bus Master Enable of the function, and a Function Level Reset in progress (R481). -/
  enabled   : Bool := true
  busMaster : Bool := true
  inFlr     : Bool := false
  /-- The partition select registers of the function: MER_DBG_SEL, CFL_GROUP_SEL and GAZ_TABLE_SEL (R212, R257, R291). -/
  merSel    : Nat := 0
  cflSel    : Nat := 0
  gazSel    : Nat := 0
deriving DecidableEq, Repr

/-- How far an accepted command has come (R471, R487). -/
inductive Stage where
  /-- Accepted, not yet run: uncommitted. -/
  | waiting
  /-- In force, with these items still to come before it is done. -/
  | running (keys : List Nat)
  /-- Done: its completion entry may be written. -/
  | done
deriving DecidableEq, Repr

/-- A command in flight (R470): from acceptance to the writing of its completion entry. -/
structure InFlight where
  src      : Source
  mbox     : Bool
  tag      : BitVec 16
  opcode   : Nat
  /-- PART with PART_EN (R468). -/
  part     : Option Nat
  /-- Operand words 1 to 7. -/
  words    : List Word
  /-- The acceptance cycle (R469). -/
  accepted : Nat
  /-- The core cycle in which that count was 0. -/
  zero     : Nat := 0
  /-- Whether the command was given by its own row, not read from a ring or mailbox (the model's own). -/
  direct   : Bool := false
  stage    : Stage := .waiting
  status   : Status := .ok
  /-- DUP (R470). -/
  dup      : Bool := false
  /-- Its effects were immediate: such completions are written in acceptance order (R470). -/
  immediate : Bool := false
  /-- Its function was reset: the completion is discarded (R463). -/
  discard  : Bool := false
  result   : List Word := []
  /-- The Itinerary record the completion waits for: the continuation blocks of its SUBJECT (R506). -/
  itin     : Option (List (List Byte)) := none
  /-- Whether the Itinerary record was already appended. -/
  recorded : Bool := false
  /-- A restart of Compass found it in flight, and it has not been run or posted since (R487). -/
  old      : Bool := false
  /-- SEQ of the management request it came with (R482). -/
  seq      : Nat := 0
deriving DecidableEq, Repr

/-- State of a descriptor queue (CMP_DMAQ_STATE_q.STATE, R480). -/
inductive DmaState where
  | disabled | idle | active | stopped
deriving DecidableEq, Repr

/-- A descriptor in execution (R480). -/
structure DmaDesc where
  op      : Nat
  sigEn   : Bool
  irq     : Bool
  sigObj  : Nat
  len     : Nat
  host    : Nat
  dev     : Nat
  compl   : Nat
  jobTag  : Nat
  userTag : Nat
  moved   : Nat
deriving DecidableEq, Repr

/-- One descriptor queue (R480). -/
structure DmaQueue where
  /-- The partition that owns the queue (R479). -/
  part    : Option Nat := none
  /-- The function that configured it, in whose host memory its descriptors lie. -/
  fn      : Nat := 0
  base    : Nat := 0
  log     : Nat := 0
  vector  : Nat := 0
  /-- CMP_DMAQ_TAIL_q and CMP_DMAQ_STATE_q. -/
  tail    : Nat := 0
  head    : Nat := 0
  state   : DmaState := .disabled
  last    : Nat := 0
  done    : Nat := 0
  /-- The descriptor being executed. -/
  cur     : Option DmaDesc := none
  /-- Its requests that are out, and the first status other than OK that one of them had. -/
  waits   : List Nat := []
  st      : Status := .ok
  /-- Indices of descriptors behind it that have ended already (R532). -/
  skip    : List Nat := []
deriving DecidableEq, Repr

/-- An answered request of the management port: its SEQ, its bytes and its response (R482). -/
structure MgmtResp where
  seq      : Nat
  request  : List Byte
  tag      : BitVec 16
  dest     : Nat × Nat
  response : Option (List Byte)
deriving DecidableEq, Repr

/-- The management port (R482). -/
structure Mgmt where
  addr      : Nat := 0
  pfxLen    : Nat := 0
  udpPort   : Nat := 0
  permitted : List Nat := []
  notices   : Option (Nat × Nat) := none
  portSet   : Bool := false
  /-- The 32-byte key in the secure bank. -/
  key       : Option (List Byte) := none
  lastSeq   : Option Nat := none
  requests  : List MgmtResp := []
  noticeSeq : Nat := 0
  lastDrop  : Option Nat := none
deriving DecidableEq, Repr

/-- CMP_PTP_STATUS.STATE (R466). -/
inductive PtpState where
  | disabled | acquiring | locked | holdover
deriving DecidableEq, Repr

/-- IEEE 1588 (R483). -/
structure Ptp where
  domain   : Nat := 0
  state    : PtpState := .disabled
  /-- Last measured offset in ns, signed 32 bits. -/
  offset   : Int := 0
  good     : Nat := 0
  since    : Nat := 0
  /-- CMP_PTP_TIME at cycle `setAt`; it runs on from there. -/
  time     : Nat := 0
  setAt    : Nat := 0
  pairTb   : Nat := 0
  pairPtp  : Nat := 0
deriving DecidableEq, Repr

/-- CMP_KCI_STATUS.COMPASS (R466). -/
inductive CompassState where
  | booting | ready | restarting | failed
deriving DecidableEq, Repr

/-- A configured object of the configuration record: the opcode and operand words that set it (R502). -/
structure ConfigEntry where
  opcode : Nat
  words  : List Word
deriving DecidableEq, Repr

/-- The module EEPROM as the module is made (R2, R485): part number, build code, serial number, layout version, and the digest of
what stands before it. The part number and the layout version are the spec's; build code A0, sixteen digits 0 as serial number and a
manufacture date of 0 are a DESIGN CHOICE (log 77), since each module has its own. -/
def eepromReset : Memory :=
  (((Memory.writeN [] 0 (ascii "PQ-2480-L")).writeN 0x10 (ascii "A0")).writeN 0x12 (ascii "0000000000000000")).writeN 0x26
    [1] |>.writeN 0x1FC0
    (leBytes 64 2966162231865206493118833890510799297834808644253566456854019150931291009889065609672460762608049264524914062242486648003435855998919121239710732949768819)

/-- Compass as a whole. -/
structure Compass where
  state     : CompassState := .booting
  fns       : SMap FnState := []
  inflight  : List InFlight := []
  /-- The next source of the rotation: 0 PF, 1 to 64 VFs, 65 the management port (R469). -/
  turn      : Nat := 0
  /-- Descriptors accepted from the management port but not yet read (R482). -/
  mgmtQueue : List (Nat × List Word) := []
  dmaq      : SMap DmaQueue := []
  /-- The last queue that had a 4 KiB turn (R480). -/
  dmaTurn   : Nat := 0
  mgmt      : Mgmt := {}
  ptp       : Ptp := {}
  /-- The module EEPROM (8 KiB) and the cold-plate sensor memory (256 bytes) (R485). -/
  eeprom    : Memory := eepromReset
  coldPlate : Memory := []
  /-- Set when the EEPROM digest failed at a Compass restart (R485). -/
  idFault   : Bool := false
  /-- CMP_MGMT_DROP_COUNT, CMP_WDOG_RESTART_COUNT and CMP_HOST_DROP_COUNT. -/
  mgmtDrops : Nat := 0
  wdog      : Nat := 0
  hostDrops : Nat := 0
  lastHostDrop : Option Nat := none
  /-- The cycles of the latest Compass restarts, newest first, and when the present one began (R488, R489). -/
  restarts  : List Nat := []
  restartAt : Nat := 0
  /-- Notices that hardware detection raised while Compass restarted (R29, R486). -/
  upHeld    : List (List Word) := []
  /-- CMP_KCI_STATUS.GEN5, and whether the host link is up (R461, R463). -/
  gen5      : Bool := false
  linkUp    : Bool := false
  /-- The configuration record (R502), and the entries of the stored settings still to be applied (R517). -/
  config    : List ConfigEntry := []
  toApply   : List ConfigEntry := []
deriving DecidableEq, Repr

/-- One entry of the fault log (R523). -/
structure FaultEntry where
  timebase : Nat
  code     : Nat
  status   : Nat
  part     : Option Nat
  subject  : Nat
  address  : Nat
  jobTag   : Nat
deriving DecidableEq, Repr

/-- An entry of a fault map (R445, R534): a part of a physical tile 17y + x, or a column of a bank. -/
inductive MapEntry where
  | part (tile : Nat) (p : FaultPart)
  | column (bank sub col : Nat)
deriving DecidableEq, Repr

/-- Faults, fencing and isolation (R521 to R540). -/
structure Faults where
  /-- The fault log, oldest first, at most 1,024 entries. -/
  log       : List FaultEntry := []
  /-- CMP_FAULT_STATUS.DIE_DOWN as a list of dies, and CAUSE (0: the module is not FAILED). -/
  downDies  : List Nat := []
  cause     : Nat := 0
  /-- The isolation table: tier fields t1 to t5 as the 48-bit key without p, and DEPTH (R530). -/
  isolation : List (Nat × Nat) := []
  linkLoss  : Nat := 0
  uncorr    : Nat := 0
  teardowns : Nat := 0
  /-- The fault map in module flash, per die (4: the hub die), at most 64 entries each (R445, R534). -/
  faultMap  : SMap (List MapEntry) := []
deriving DecidableEq, Repr

end Sys2Proof.Machine
end

