-- ==== Sys2Proof/Machine/State/Datum.lean ====
section
/-! DEFINITION. The state of Datum mode and the timebase (R157 to R180), and of the surveyors and bridges (R15 to R29). -/

namespace Sys2Proof.Machine

/-- DTM_STATUS.STATE (R180). -/
inductive SyncState where
  | unsynced | calibrated | armed | running | syncLost
deriving DecidableEq, Repr

/-- DTM_PART_MODE_p (R180). -/
structure PartMode where
  datum    : Bool := false
  train    : Bool := false
  assigned : Bool := false
deriving DecidableEq, Repr

/-- A calibration in progress (R170): its role, when its command was accepted, the pulses still to emit and when the next
one falls, and the phases recorded so far, oldest first. -/
structure Calib where
  role   : SyncRole
  since  : Nat
  toEmit : Nat
  nextAt : Nat
  phases : List Nat
deriving DecidableEq, Repr

/-- An armed start barrier (R171): when its command was accepted, when the leader emits, whether it has, and the cycle in
which DTM_TIMEBASE becomes 0 once it is known. -/
structure StartArm where
  since  : Nat
  emitAt : Option Nat
  zeroAt : Option Nat
  /-- The state it returns to where no pulse arrives. -/
  prior  : SyncState
deriving DecidableEq, Repr

/-- The Datum block. -/
structure Datum where
  /-- DTM_CTRL.ROLE; none until a DATUM_SYNC_CAL sets one. -/
  role     : Option SyncRole := none
  state    : SyncState := .unsynced
  valid    : Bool := false
  epoch    : Nat := 0
  /-- The core cycle in which DTM_TIMEBASE was 0: the count is the cycles since (R168). -/
  tbZero   : Nat := 0
  phase    : Nat := 0
  spread   : Nat := 0
  calOk    : Bool := false
  pulses   : Nat := 0
  calib    : Option Calib := none
  start    : Option StartArm := none
  /-- The cycle of the last check pulse seen, or of the start barrier (R173). -/
  lastSeen : Nat := 0
  /-- No check pulse has come since the loss was counted: one loss counts SYNC_SKEW once (R173). -/
  missed   : Bool := false
  /-- The cycle of the last check pulse this leader emitted. -/
  lastEmit : Nat := 0
  /-- DTM_RETRAIN.PERIOD_LOG2 (R165). -/
  period   : Nat := 0x1F
  parts    : SMap PartMode := []
  /-- DTM_DRIFT_0 to 15, and the mask of each partition (R175). -/
  drift    : List Nat := List.replicate 16 0
  masks    : SMap Nat := []
  /-- Partition starts that wait for their cycle: partition and timebase value (R174). -/
  startAt  : List (Nat × Nat) := []
deriving DecidableEq, Repr

/-- A Quadrant or Region Surveyor (R26 to R29): whether it is restarting and since when, and the notices held for it. -/
structure Surveyor where
  restarting : Bool := false
  since      : Nat := 0
  held       : List (List Word) := []
  lost       : Nat := 0
deriving DecidableEq, Repr

/-- One direction of a die bridge or hub link: the lanes that failed and were mapped onto spares (R20). -/
structure Bridge where
  first   : List Nat := []
  second  : List Nat := []
  retries : Nat := 0
deriving DecidableEq, Repr

/-- The control hierarchy below Compass and the bridges. -/
structure Layout where
  /-- Quadrant Surveyors by die, Region Surveyors by 8d + r. -/
  quad    : SMap Surveyor := []
  region  : SMap Surveyor := []
  /-- Die bridge a to b (a below b) at 4a + b, hub link of die d at 16 + d. -/
  bridges : SMap Bridge := []
deriving DecidableEq, Repr

end Sys2Proof.Machine
end

