-- ==== Sys2Proof/Machine/Exact.lean ====
section
/-! DEFINITION. Exact values: NaN, infinities, and signed rationals times a power of two (R62). Nothing here rounds but the functions that say so. -/

namespace Sys2Proof.Machine

/-- An exact value: `fin neg num den exp` is (−1)^neg · num/den · 2^exp. Zero keeps its sign. -/
inductive Exact where
  | nan
  | inf (neg : Bool)
  | fin (neg : Bool) (num den : Nat) (exp : Int)
deriving DecidableEq, Repr

namespace Exact

def zero : Exact := .fin false 0 1 0
def one : Exact := .fin false 1 1 0

/-- An integer. -/
def ofInt (i : Int) : Exact := .fin (decide (i < 0)) i.natAbs 1 0

/-- 2^e. -/
def pow2 (e : Int) : Exact := .fin false 1 1 e

def isZero : Exact → Bool
  | .fin _ n _ _ => n = 0
  | _ => false

def isNan : Exact → Bool
  | .nan => true
  | _ => false

def isFin : Exact → Bool
  | .fin .. => true
  | _ => false

def sign : Exact → Bool
  | .nan => false
  | .inf s => s
  | .fin s _ _ _ => s

def neg : Exact → Exact
  | .nan => .nan
  | .inf s => .inf (!s)
  | .fin s n d e => .fin (!s) n d e

def abs : Exact → Exact
  | .nan => .nan
  | .inf _ => .inf false
  | .fin _ n d e => .fin false n d e

/-- Products: IEEE 754 for special values; a zero product has the exclusive-or of the signs (R34, R62). -/
def mul : Exact → Exact → Exact
  | .nan, _ => .nan
  | _, .nan => .nan
  | .inf s, .inf t => .inf (s ^^ t)
  | .inf s, .fin t n _ _ => if n = 0 then .nan else .inf (s ^^ t)
  | .fin s n _ _, .inf t => if n = 0 then .nan else .inf (s ^^ t)
  | .fin s n d e, .fin t m c f => .fin (s ^^ t) (n * m) (d * c) (e + f)

/-- n · 2^k for a k that is not negative. -/
def shl (n : Nat) (k : Int) : Nat := n * 2 ^ k.toNat

/-- Sums: IEEE 754 for special values and for the signs of zeros under round to nearest. -/
def add : Exact → Exact → Exact
  | .nan, _ => .nan
  | _, .nan => .nan
  | .inf s, .inf t => if s = t then .inf s else .nan
  | .inf s, .fin .. => .inf s
  | .fin .., .inf t => .inf t
  | .fin s n d e, .fin t m c f =>
    if n = 0 && m = 0 then .fin (s && t) 0 1 0
    else
      let g := min e f
      let x : Int := (shl n (e - g) * c : Nat)
      let y : Int := (shl m (f - g) * d : Nat)
      let z := (if s then -x else x) + (if t then -y else y)
      .fin (decide (z < 0)) z.natAbs (d * c) g

def sub (x y : Exact) : Exact := x.add y.neg

/-- Division by a positive count. -/
def divNat (x : Exact) (k : Nat) : Exact :=
  match x with
  | .fin s n d e => .fin s n (d * max k 1) e
  | y => y

def scale (x : Exact) (k : Int) : Exact :=
  match x with
  | .fin s n d e => .fin s n d (e + k)
  | y => y

/-- x < y on finite and infinite values; −0 is not below +0; NaN is never below. -/
def lt : Exact → Exact → Bool
  | .nan, _ => false
  | _, .nan => false
  | .inf s, .inf t => s && !t
  | .inf s, .fin .. => s
  | .fin .., .inf t => !t
  | .fin s n d e, .fin t m c f =>
    let g := min e f
    let x : Int := (shl n (e - g) * c : Nat)
    let y : Int := (shl m (f - g) * d : Nat)
    decide ((if s then -x else x) < (if t then -y else y))

def eqv (x y : Exact) : Bool := !x.isNan && !y.isNan && !x.lt y && !y.lt x

/-- The order of MIN, MAX and CLIP: −0 below +0 (R61, R130). -/
def before (x y : Exact) : Bool := x.lt y || (x.eqv y && x.sign && !y.sign)

/-- floor(log2 |x|) of a nonzero finite value. -/
def ilog2 : Exact → Int
  | .fin _ n d e =>
    let l : Int := (n.log2 : Int) - (d.log2 : Int)
    -- n/d lies in (2^(l−1), 2^(l+1))
    let ge := if 0 ≤ l then decide (shl d l ≤ n) else decide (d ≤ shl n (-l))
    (if ge then l else l - 1) + e
  | _ => 0

/-- floor(|x| / 2^u), and the remainder as a fraction of 2^u: (quotient, numerator, denominator). -/
def divPow (x : Exact) (u : Int) : Nat × Nat × Nat :=
  match x with
  | .fin _ n d e =>
    let k := e - u
    let a := if 0 ≤ k then shl n k else n
    let b := if 0 ≤ k then d else shl d (-k)
    (a / b, a % b, b)
  | _ => (0, 0, 1)

/-- The largest multiple of 2^u not above x (toward −infinity, R54). -/
def floorTo (x : Exact) (u : Int) : Exact :=
  match x with
  | .fin s .. =>
    let (q, r, _) := x.divPow u
    if s then .fin true (if r = 0 then q else q + 1) 1 u else .fin false q 1 u
  | y => y

end Exact
end Sys2Proof.Machine
end

