-- ==== Sys2Proof/Machine/Formats.lean ====
section
/-! DEFINITION. Number formats: encodings, rounding, block scales, FP4X, stochastic rounding and the output conversion (R30 to R68). -/

namespace Sys2Proof.Machine

/-! ### Formats (R30, R32, R35) -/

/-- A floating-point format: exponent bits, mantissa bits, bias, whether it has infinities, and its NaN form
(0: none, 1: only the all-ones encoding, 2: exponent all ones and mantissa not 0). -/
structure FFmt where
  ebits : Nat
  mbits : Nat
  bias  : Int
  hasInf : Bool
  nans  : Nat
deriving DecidableEq, Repr

/-- The floating-point formats by code (R32). -/
def ffmt : Nat → Option FFmt
  | 0x0 => some ⟨8, 23, 127, true, 2⟩
  | 0x1 => some ⟨8, 7, 127, true, 2⟩
  | 0x2 => some ⟨5, 10, 15, true, 2⟩
  | 0x3 => some ⟨4, 3, 7, false, 1⟩
  | 0x4 => some ⟨5, 2, 15, true, 2⟩
  | 0x5 => some ⟨2, 3, 1, false, 0⟩
  | 0x6 => some ⟨3, 2, 3, false, 0⟩
  | 0x7 => some ⟨2, 1, 1, false, 0⟩
  | 0xD => some ⟨11, 52, 1023, true, 2⟩
  | _ => none

/-- Bits of one element (R30). -/
def fmtBits : Nat → Nat
  | 0x0 => 32
  | 0x1 => 16
  | 0x2 => 16
  | 0x3 => 8
  | 0x4 => 8
  | 0x5 => 6
  | 0x6 => 6
  | 0x7 => 4
  | 0x8 => 8
  | 0x9 => 4
  | 0xA => 2
  | 0xB => 2
  | 0xC => 32
  | 0xD => 64
  | _ => 0

/-- Integer formats (R35). -/
def isIntFmt (f : Nat) : Bool := f = 0x8 || f = 0x9 || f = 0xA || f = 0xC

/-- The largest finite encoding of a floating-point format, without sign (R32). -/
def FFmt.maxEnc (f : FFmt) : Nat :=
  if f.hasInf then (2 ^ f.ebits - 1) * 2 ^ f.mbits - 1
  else if f.nans = 1 then 2 ^ (f.ebits + f.mbits) - 2
  else 2 ^ (f.ebits + f.mbits) - 1

/-- Decodes a finite magnitude (R32). -/
def FFmt.mag (f : FFmt) (s : Bool) (x : Nat) : Exact :=
  let e := x / 2 ^ f.mbits
  let m := x % 2 ^ f.mbits
  if e = 0 then .fin s m 1 (1 - f.bias - f.mbits) else .fin s (2 ^ f.mbits + m) 1 ((e : Int) - f.bias - f.mbits)

/-- Decodes a floating-point encoding (R32, R33, R34). -/
def FFmt.decode (f : FFmt) (x : Nat) : Exact :=
  let s := x.testBit (f.ebits + f.mbits)
  let y := x % 2 ^ (f.ebits + f.mbits)
  let top := (2 ^ f.ebits - 1) * 2 ^ f.mbits
  if f.nans = 2 && top < y then .nan
  else if f.nans = 1 && y = 2 ^ (f.ebits + f.mbits) - 1 then .nan
  else if f.hasInf && y = top then .inf s
  else f.mag s y

/-- Decodes one element of a format, without block scale (R32, R35, R36). -/
def decodeElem (code : Nat) (x : Nat) : Exact :=
  match ffmt code with
  | some f => f.decode x
  | none =>
    if code = 0xB then (match x % 4 with
      | 1 => Exact.one
      | 3 => Exact.one.neg
      | _ => Exact.zero)
    else Exact.ofInt (signed (fmtBits code) x)

/-- The canonical NaN (R33); 0 where the format has none. -/
def canonicalNan : Nat → Nat
  | 0x0 => 0x7FC00000
  | 0x1 => 0x7FC0
  | 0x2 => 0x7E00
  | 0x3 => 0x7F
  | 0x4 => 0x7E
  | 0xD => 0x7FF8000000000000
  | _ => 0

/-! ### Rounding (R63, R64) -/

/-- Rounding modes (R60). -/
inductive RMode where
  | rne | rtz
  /-- Stochastic, with a 12-bit draw. -/
  | sr (r : Nat)
deriving DecidableEq, Repr

/-- Rounds a quotient with remainder rem/den to a whole number. -/
def roundQ (m : RMode) (q rem den : Nat) : Nat :=
  match m with
  | .rne => if den < 2 * rem || (2 * rem = den && q % 2 = 1) then q + 1 else q
  | .rtz => q
  | .sr r => if 4096 ≤ rem * 4096 / den + r then q + 1 else q

/-- The exponent of the spacing of a format at a nonzero finite value, as if its exponent range had no upper end. -/
def FFmt.spacing (f : FFmt) (x : Exact) : Int := max x.ilog2 (1 - f.bias) - f.mbits

/-- Rounds a finite value to a format with unlimited exponent range above. -/
def FFmt.round (f : FFmt) (m : RMode) (x : Exact) : Exact :=
  if x.isZero then x
  else
    let u := f.spacing x
    let (q, r, d) := x.divPow u
    .fin x.sign (roundQ m q r d) 1 u

/-- Encodes a value the format holds exactly (magnitude at most the largest finite one). -/
def FFmt.encodeFin (f : FFmt) (x : Exact) : Nat :=
  let s := if x.sign then 2 ^ (f.ebits + f.mbits) else 0
  if x.isZero then s
  else
    let u := f.spacing x
    let (q, _, _) := x.divPow u
    if q < 2 ^ f.mbits then s + q
    else s + ((u + f.mbits + f.bias).toNat * 2 ^ f.mbits + (q - 2 ^ f.mbits))

/-- Whether a rounded value lies above the largest finite magnitude. -/
def FFmt.over (f : FFmt) (x : Exact) : Bool := (f.mag false f.maxEnc).lt x.abs

/-- IEEE rounding to a format with infinities: overflow gives the infinity (R53, R131). -/
def roundIeee (code : Nat) (m : RMode) (x : Exact) : Exact :=
  match ffmt code, x with
  | some f, .fin .. =>
    let y := f.round m x
    if f.over y then .inf x.sign else y
  | _, y => y

/-- Rounds to FP32, to nearest even, overflow to infinity. -/
def rne32 (x : Exact) : Exact := roundIeee 0x0 .rne x

/-- Encodes any value of a format exactly held, infinities and NaN included. -/
def encodeElem (code : Nat) (x : Exact) : Nat :=
  match ffmt code with
  | some f => match x with
    | .nan => canonicalNan code
    | .inf s => (2 ^ f.ebits - 1) * 2 ^ f.mbits + (if s then 2 ^ (f.ebits + f.mbits) else 0)
    | y => f.encodeFin y
  | none => match x with
    | .fin .. =>
      let (q, _, _) := x.divPow 0
      unsign (fmtBits code) (if x.sign then -(q : Int) else (q : Int))
    | _ => 0

/-- FP32 and FP64 words to exact values and back. -/
def f32 (x : Nat) : Exact := decodeElem 0x0 (x % 2 ^ 32)
def toF32 (x : Exact) : Nat := encodeElem 0x0 (rne32 x)

/-- Numeric events of conversions, accumulations, splits and operand reads (R69, R70). -/
structure NumEv where
  sat  : Nat := 0
  ufl  : Nat := 0
  nan  : Nat := 0
  esc  : Nat := 0
  code : Nat := 0
deriving DecidableEq, Repr

def NumEv.add (a b : NumEv) : NumEv :=
  ⟨a.sat + b.sat, a.ufl + b.ufl, a.nan + b.nan, a.esc + b.esc, a.code + b.code⟩

def NumEv.sum (l : List NumEv) : NumEv := l.foldl NumEv.add {}

/-- The integer bounds of stage 5 (R63): TERN saturates at ±1. -/
def intBounds (code : Nat) : Int × Int :=
  if code = 0xB then (-1, 1) else (-(2 ^ (fmtBits code - 1) : Nat), (2 ^ (fmtBits code - 1) : Nat) - 1)

/-- Stage 5 for one element (R63): the encoding and what was counted. -/
def stage5 (code : Nat) (m : RMode) (y : Exact) : Nat × NumEv :=
  match y with
  | .nan => (canonicalNan code, { nan := 1 })
  | .inf s =>
    match ffmt code with
    | some f => if f.hasInf then (encodeElem code y, {}) else (f.maxEnc + (if s then 2 ^ (f.ebits + f.mbits) else 0), { sat := 1 })
    | none => (unsign (fmtBits code) (if s then (intBounds code).1 else (intBounds code).2), { sat := 1 })
  | .fin s .. =>
    match ffmt code with
    | some f =>
      let r := f.round m y
      if f.over r then (f.maxEnc + (if s then 2 ^ (f.ebits + f.mbits) else 0), { sat := 1 })
      else (f.encodeFin r, { ufl := if r.isZero && !y.isZero then 1 else 0 })
    | none =>
      let (q, rem, d) := y.divPow 0
      let n := roundQ m q rem d
      let i : Int := if s then -(n : Int) else (n : Int)
      let b := intBounds code
      if i < b.1 then (unsign (fmtBits code) b.1, { sat := 1 })
      else if b.2 < i then (unsign (fmtBits code) b.2, { sat := 1 })
      else (unsign (fmtBits code) i, { ufl := if n = 0 && !y.isZero then 1 else 0 })

/-! ### Block scales (R38, R41) and FP4X (R43 to R46) -/

/-- emax of R41; 0 for MXINT8. -/
def fmtEmax : Nat → Int
  | 0x3 => 8
  | 0x4 => 15
  | 0x5 => 2
  | 0x6 => 4
  | 0x7 => 2
  | _ => 0

/-- The larger magnitude, counting an infinity as 2^128 (R41). -/
def magOf (x : Exact) : Exact :=
  match x with
  | .inf _ => Exact.pow2 128
  | y => y.abs

def amaxOf (xs : List Exact) : Exact :=
  xs.foldl (fun a x => if x.isNan then a else if a.lt (magOf x) then magOf x else a) Exact.zero

/-- S = floor(log2 amax) − emax, clamped to −127 to 127 (R41). -/
def blockExp (amax : Exact) (emax : Int) : Int :=
  if amax.isZero then -127 else max (-127) (min 127 (amax.ilog2 - emax))

/-- The value of a scale byte as an exponent; none for 0xFF (R38). -/
def scaleExp (v : Nat) : Option Int := if v = 255 then none else some ((v : Int) - 127)

/-- An encoded block: elements, scale byte, escape word, counts. -/
structure BlockEnc where
  elems : List Nat
  scale : Nat
  esc   : Nat
  ev    : NumEv
deriving DecidableEq, Repr

/-- Encodes a block with a computed scale (R41, R63). `ms` are the rounding modes of the elements, one draw each. MXINT8
elements are integers of value element · 2^-6 · scale (R38). -/
def encodeBlock (code : Nat) (ms : List RMode) (xs : List Exact) : BlockEnc :=
  if xs.any Exact.isNan then
    ⟨xs.map (fun _ => 0), 255, 0, { nan := (xs.filter Exact.isNan).length }⟩
  else
    let s := blockExp (amaxOf xs) (fmtEmax code)
    let k : Int := if code = 0x8 then 6 else 0
    let rs := (xs.zip ms).map (fun e => stage5 code e.2 (e.1.scale (k - s)))
    ⟨rs.map (·.1), (s + 127).toNat, 0, NumEv.sum (rs.map (·.2))⟩

/-- Indices of a block by magnitude, largest first, equal magnitudes by lower index (R46): the first of the rest. An infinity lies
above every finite magnitude. -/
def largestIdx (xs : List Exact) (skip : List Nat) : Nat :=
  (List.range xs.length).foldl (fun b i =>
    if skip.contains i then b
    else if b = xs.length then i
    else if (nth xs b Exact.zero).abs.lt (nth xs i Exact.zero).abs then i else b) xs.length

/-- encode_fp4x (R46). -/
def encodeFp4x (ms : List RMode) (xs : List Exact) : BlockEnc :=
  if xs.any Exact.isNan then
    ⟨xs.map (fun _ => 0), 255, 0, { nan := (xs.filter Exact.isNan).length }⟩
  else
    let i0 := largestIdx xs []
    let i1 := largestIdx xs [i0]
    let i2 := largestIdx xs [i0, i1]
    let b2 := magOf (nth xs i2 Exact.zero)
    let base := if b2.isZero then magOf (nth xs i0 Exact.zero) else b2
    let s := blockExp base 2
    let six := Exact.ofInt 6
    let isEsc := fun i => six.lt ((nth xs i Exact.zero).abs.scale (-s))
    let esc := (List.range xs.length).filter (fun i => (i = i0 || i = i1) && isEsc i)
    let rs := (List.range xs.length).map (fun i =>
      stage5 (if esc.contains i then 0x3 else 0x7) (nth ms i .rne) ((nth xs i Exact.zero).scale (-s)))
    let val := fun i => (nth rs i (0, {})).1
    let e0 := nth esc 0 0
    let e1 := nth esc 1 0
    let w := esc.length + (if 1 ≤ esc.length then put 6 2 e0 + put 19 12 (val e0) else 0) +
      (if 2 ≤ esc.length then put 11 7 e1 + put 27 20 (val e1) else 0)
    ⟨(List.range xs.length).map (fun i => if esc.contains i then 0 else val i), (s + 127).toNat, w,
      (NumEv.sum (rs.map (·.2))).add { esc := esc.length }⟩

/-- An escape word is invalid (R45). -/
def escInvalid (w : Nat) : Bool := fld w 1 0 = 3 || (fld w 1 0 = 2 && fld w 11 7 ≤ fld w 6 2)

/-- One element of a block on read (R38, R44, R45): element bits, scale byte, escape word (0 where there is none). A block-scaled
INT8 element carries its 2^-6 itself, so that two of them give the 2^-12 of R53; where only one operand is block-scaled the factor is
2^-6, which R53 does not state: DESIGN CHOICE (log 82). -/
def decodeInBlock (code : Nat) (scale esc : Nat) (i x : Nat) : Exact :=
  match scaleExp scale with
  | none => .nan
  | some s =>
    let c := if escInvalid esc then 0 else fld esc 1 0
    let v := if 1 ≤ c && fld esc 6 2 = i then decodeElem 0x3 (fld esc 19 12)
      else if c = 2 && fld esc 11 7 = i then decodeElem 0x3 (fld esc 27 20)
      else decodeElem code x
    v.scale (if code = 0x8 then s - 6 else s)

/-! ### Storage order (R37) -/

/-- Element i of a stream of w-bit elements. -/
def elemAt (w : Nat) (bytes : List Byte) (i : Nat) : Nat :=
  let n := ofLe ((bytes.drop (w * i / 8)).take ((w * i % 8 + w + 7) / 8))
  n / 2 ^ (w * i % 8) % 2 ^ w

/-- Packs w-bit elements without gaps; a row that ends inside a byte is padded with zeros. -/
def packElems (w : Nat) (xs : List Nat) : List Byte :=
  leBytes (ceilDiv (w * xs.length) 8) (xs.foldr (fun x a => x % 2 ^ w + 2 ^ w * a) 0)

/-! ### Operand format fields (R47 to R49) -/

/-- A 12-bit operand format field (R47). -/
structure OpFmt where
  fmt    : Nat
  x      : Bool
  block  : Bool
  tensor : Bool
  split  : Nat
deriving DecidableEq, Repr

def opFmt (n : Nat) : OpFmt := ⟨fld n 3 0, n.testBit 4, n.testBit 5, n.testBit 6, fld n 8 7⟩

/-- Codes that may carry block scaling (R38). -/
def blockCode (c : Nat) : Bool := 3 ≤ c && c ≤ 8

/-- A tensor scale that faults: zero, negative, infinite or NaN (R42). -/
def badTensorScale (w : Nat) : Bool :=
  match f32 w with
  | .fin s n _ _ => s || n = 0
  | _ => true

/-- SPLIT combinations of R52. -/
def splitOk (fmt split : Nat) : Bool :=
  if split = 0 then fmt ≠ 0x0
  else if split = 1 then fmt = 0x1 || fmt = 0x8
  else split = 2 && fmt = 0x0

/-- The checks 1 to 4 of R48 for a tensor operand with its reduction length and tensor scale word. A two-piece split with block
scaling is refused for BF16 by R58; that INT16 is refused with it is a DESIGN CHOICE (log 82). -/
def tensorOperandBad (o : OpFmt) (k tscale : Nat) : Bool :=
  let role := o.fmt = 0x0 && o.split = 2 || o.fmt = 0x1 || (3 ≤ o.fmt && o.fmt ≤ 0xB)
  !role || (o.x && (o.fmt ≠ 7 || !o.block)) || (o.block && (!blockCode o.fmt || k % 32 ≠ 0)) ||
    (o.tensor && badTensorScale tscale) || !splitOk o.fmt o.split || (o.split = 1 && o.block)

/-! ### Stochastic rounding generators (R65) -/

def srStep (x : Nat) : Nat :=
  let a := x ^^^ (x <<< 13 % 2 ^ 64)
  let b := a ^^^ (a >>> 7)
  b ^^^ (b <<< 17 % 2 ^ 64)

/-- The state of a lane after seeding: 16 steps discarded. -/
def srSeedLane (seed lane : Nat) : Nat :=
  let x := seed ^^^ ((lane + 1) * 0x9E3779B97F4A7C15 % 2 ^ 64)
  (List.range 16).foldl (fun a _ => srStep a) (if x = 0 then 1 else x)

/-- The 12 bits drawn from a new state. -/
def srBits (x : Nat) : Nat := x / 2 ^ 52

/-- A bank of conversion lanes: the states that differ from the seeded ones. -/
structure SrLanes where
  seed  : Nat := 0
  moved : List (Nat × Nat) := []
deriving DecidableEq, Repr

/-- The state of one lane. -/
def SrLanes.lane (l : SrLanes) (i : Nat) : Nat :=
  match l.moved.find? (fun e => e.1 = i) with
  | some e => e.2
  | none => srSeedLane l.seed i

/-- Draws once from a lane. -/
def SrLanes.draw (l : SrLanes) (i : Nat) : Nat × SrLanes :=
  let x := srStep (l.lane i)
  (srBits x, { l with moved := (i, x) :: l.moved.filter (fun e => e.1 ≠ i) })

/-- Draws for n consecutive elements from ordinal `first`, lane = ordinal mod `lanes` (R66). -/
def SrLanes.draws (lanes : Nat) : SrLanes → Nat → Nat → List Nat × SrLanes
  | l, _, 0 => ([], l)
  | l, first, n + 1 =>
    let (r, l) := l.draw (first % lanes)
    let (rs, l) := SrLanes.draws lanes l (first + 1) n
    (r :: rs, l)

/-! ### The output conversion (R60 to R68) -/

/-- The conversion control word (R60). -/
structure ConvCtl where
  fmt     : Nat
  x       : Bool
  rmode   : Nat
  block   : Bool
  tensor  : Bool
  dqCol   : Bool
  bias    : Bool
  clip    : Bool
  promote : Bool
  lo      : Exact
  hi      : Exact
deriving DecidableEq, Repr

def convCtl (w : Word) : ConvCtl :=
  ⟨bits w 3 0, bit w 4, bits w 6 5, bit w 7, bit w 8, bit w 9, bit w 10, bit w 11, bit w 12,
   decodeElem 0x1 (bits w 47 32), decodeElem 0x1 (bits w 63 48)⟩

/-- The issue checks of a conversion control word (R43, R60, R68). -/
def convBad (c : ConvCtl) : Bool :=
  c.rmode = 3 || 0xD ≤ c.fmt || (c.block && !blockCode c.fmt) || (c.x && (c.fmt ≠ 7 || !c.block)) ||
    (c.clip && (c.lo.isNan || c.hi.isNan || c.hi.before c.lo)) || (c.promote && c.fmt ≠ 7)

/-- Stages 1 to 4 of one element ahead of block scaling (R61, R62): scales, bias, clip, output tensor scale. -/
def convPre (c : ConvCtl) (st sc bias qt y : Exact) : Exact :=
  let y := (y.mul st).mul sc
  let y := if c.bias then y.add bias else y
  let y := if c.clip && !y.isNan then
      let m := if c.lo.before y then y else c.lo
      if m.before c.hi then m else c.hi
    else y
  if c.tensor then y.mul qt else y

/-- What one block or run of elements becomes. -/
def convRun (c : ConvCtl) (ms : List RMode) (ys : List Exact) : BlockEnc :=
  if c.block then (if c.x then encodeFp4x ms ys else encodeBlock c.fmt ms ys)
  else
    let rs := (ys.zip ms).map (fun e => stage5 c.fmt e.2 e.1)
    ⟨rs.map (·.1), 0, 0, NumEv.sum (rs.map (·.2))⟩

/-- The rounding modes of n elements from ordinal `first`: stochastic mode draws once for each (R66). -/
def convModes (c : ConvCtl) (lanes : Nat) (l : SrLanes) (first n : Nat) : List RMode × SrLanes :=
  if c.rmode = 2 then
    let (rs, l) := SrLanes.draws lanes l first n
    (rs.map RMode.sr, l)
  else (List.replicate n (if c.rmode = 1 then .rtz else .rne), l)

/-- The rerun of a promoted instruction (R68): E4M3, no escapes. -/
def ConvCtl.promoted (c : ConvCtl) : ConvCtl := { c with fmt := 0x3, x := false }

end Sys2Proof.Machine
end

