-- ==== Sys2Proof/Machine/State/Tile.lean ====
section
/-! DEFINITION. The state of a Graticule tile and of the mesh (R71 to R107, R156, R563). -/

namespace Sys2Proof.Machine

/-- Tile states (R101). -/
inductive TileState where
  | off | reset | ready | running | halted | unavailable
deriving DecidableEq, Repr

/-- Strand states (R80). -/
inductive StrandState where
  | free | runnable | running | waiting
deriving DecidableEq, Repr

/-- What a WAITING strand waits for (R80, R144, R148, R189, R190). -/
inductive Wait where
  | none
  /-- A scoreboard conflict, or DEFRGN: until these in-flight instructions complete; the instruction is then tried again. -/
  | insns (ids : List Nat)
  /-- A FENCE: until these complete, and then the program boundary where asked (R148, R150). -/
  | fence (ids : List Nat) (boundary : Bool)
  /-- An MSIGNAL without a free outstanding-signal entry; it is then tried again (R189). -/
  | signalSlot
  /-- A Meridian wait or read on an object, whose reply goes to register rd; the registration; issue cycle; the cycle in which a timed wait expires (R190, R197). -/
  | meridian (obj rd reg issued : Nat) (timeout : Option Nat) (withdrawn : Bool)
deriving DecidableEq, Repr

/-- One strand (R78, R82). -/
structure Strand where
  state   : StrandState := .free
  pc      : Nat := 0
  handler : Nat := 0
  g29     : Word := 0
  g30     : Word := 0
  g31     : Word := 0
  wait    : Wait := .none
deriving DecidableEq, Repr

/-- One open loop level (R116): start, end, remaining count, index. -/
structure Loop where
  start : Nat
  last  : Nat
  left  : Nat
  index : Nat
deriving DecidableEq, Repr

/-- A message in the receive ring (R85 to R88): its header line, its lines, HANDLER, whether a strand was started for it and
which, and whether it is released. -/
structure RxMsg where
  line     : Nat
  lines    : Nat
  handler  : Nat
  strand   : Option Nat := none
  released : Bool := false
deriving DecidableEq, Repr

/-- A handler table entry (GRT_HANDLER_h). -/
structure Handler where
  entry : Nat := 0
  valid : Bool := false
  max   : Nat := 0
deriving DecidableEq, Repr

/-- A region of the scoreboard (GRT_REGION_r); a listed region is VALID. -/
structure Region where
  line  : Nat
  lines : Nat
deriving DecidableEq, Repr

/-- What a sparse instruction of a Datum partition has read (R282): the order of its row blocks, each Legend entry and block data
so far with the status of the read, and the piece that is being read. -/
structure SparseFetch where
  order : List Nat
  got   : List (Status × List Byte) := []
  cur   : Status × List Byte := (.ok, [])
deriving DecidableEq, Repr

/-- An instruction in an engine queue (R123, R139): its number, the descriptor copy, who issued it, the threshold latched at
issue (R68), and how far the engine has come with it. -/
structure QEntry where
  id      : Nat
  words   : List Word
  strand  : Nat
  pc      : Nat
  thresh  : Nat := 0
  /-- GAZ_SPARSE_CTRL and GAZ_PRED_THRESH latched at issue (R290). -/
  sctrl   : Word := 0
  theta   : Word := 0
  /-- The engine has executed it (its effects are made or requested); it has not completed. -/
  ran     : Bool := false
  /-- It stopped with this status (R126). -/
  status  : Status := .ok
  /-- Output units completed (R122). -/
  units   : Nat := 0
  /-- Saturations of the first run, the generator states saved before it, and whether the rerun was made (R68). -/
  nsat    : Nat := 0
  saved   : SrLanes := {}
  rerun   : Bool := false
  decided : Bool := false
  /-- The accumulator entries that an ACC_INIT run started from, for its rerun (R68, R127). -/
  accs    : List Nat := []
  /-- Its completion record is written and its SIG_EN signal waits for an entry (R189). -/
  written : Bool := false
  /-- Memory requests of a COPY or a sparse instruction that have not completed (R134, R282). -/
  waits   : List Nat := []
  /-- The sparse engine is executing it and reads its blocks (R282). -/
  fetch   : Option SparseFetch := none
deriving DecidableEq, Repr

/-- A message in the mesh (R83): the eight header words with SRC, SRC_GW and PART written, and the payload. -/
structure MeshMsg where
  header  : List Word
  payload : List Byte
deriving DecidableEq, Repr

/-- One tile. -/
structure Tile where
  state     : TileState := .reset
  /-- The cycle in which a reset in progress completes, and whether it clears the scratchpad (R103). -/
  resetAt   : Nat := 64
  clearing  : Bool := false
  /-- Power state of the tile's 24 scratchpad banks, and the change in progress with the cycle it is reached (R439, R441). -/
  power     : BankPower := .on
  goal      : Option (BankPower × Nat) := none
  cmdHalt   : Bool := false
  fault     : Nat := 0
  faultPc   : Nat := 0
  faultStrand : Nat := 0
  /-- The cycle in which the tile halted, and what found the recorded fault: 0 the sequencer, 1 + e engine e (R155). -/
  haltAt    : Nat := 0
  /-- The loop levels that the halt closed: an instruction of the same cycle may still run past the last one (R113, R155). -/
  haltLoops : List Loop := []
  faultBy   : Nat := 0
  /-- GRT_TILE_STATUS.ACTIVE_BANK. -/
  bank      : Nat := 0
  /-- GRT_TILE_PART: PART when ASSIGNED; and the partition the tile last belonged to (R104). -/
  part      : Option Nat := none
  lastPart  : Option Nat := none
  /-- The partition that the tile joins when its reset is complete (R104). -/
  joining   : Option Nat := none
  /-- g0 to g28 (R78). -/
  g         : List Word := List.replicate 29 0
  strands   : SMap Strand := []
  current   : Nat := 0
  /-- Instructions issued since the strand was switched in (R81). -/
  issued    : Nat := 0
  /-- Open loop levels of strand 0, innermost first (R116). -/
  loops     : List Loop := []
  /-- The instruction banks: instruction i of bank b at 8192b + i. -/
  imem      : SMap Word := []
  acc       : SMap Nat := []
  vregs     : SMap Nat := []
  scratch   : Memory := []
  /-- Word addresses that hold an uncorrectable, or a correctable, error (R76). -/
  bad       : List Nat := []
  soft      : List Nat := []
  /-- GRT_RX_BASE.LINE and GRT_RX_SIZE.LINES, GRT_RX_STATUS.WRITE and RECLAIM, and the messages of the ring, oldest first. -/
  rxBase    : Nat := 0x5C00
  rxSize    : Nat := 0x200
  rxWrite   : Nat := 0
  rxReclaim : Nat := 0
  rx        : List RxMsg := []
  /-- A message whose header reached the message port while the tile was RUNNING and which waits there for ring space (R85,
  R86), and the sources whose heads wait behind it and have been counted (R175). -/
  port      : Option MeshMsg := none
  portWaits : List (Nat × Bool) := []
  /-- GRT_STRAND_BASE.AREA. -/
  area      : Nat := 0x16
  handlers  : SMap Handler := []
  regions   : SMap Region := []
  /-- The five engine queues by engine number, head first. -/
  queues    : SMap (List QEntry) := []
  nextId    : Nat := 0
  /-- Outstanding Meridian signals of the tile's strands, and of each of its engines (R189). -/
  signals   : Nat := 0
  engSignals : SMap Nat := []
  /-- GRT_NUM_CTRL, the conversion lanes with GRT_SR_SEED, and the six counters of R70. -/
  threshold : Nat := 0x10
  freeze    : Bool := false
  sr        : SrLanes := {}
  /-- GRT_SR_SEED was written since the tensor engine last started an instruction (R67, R68). -/
  srWrote   : Bool := false
  numSat    : Nat := 0
  numUfl    : Nat := 0
  numNan    : Nat := 0
  numEsc    : Nat := 0
  numPromote : Nat := 0
  numCode   : Nat := 0
  rxDrop    : Nat := 0
  rxPartErr : Nat := 0
  eccCorr   : Nat := 0
  eccAddr   : Nat := 0
  eccValid  : Bool := false
  /-- GAZ_SPARSE_CTRL, GAZ_PRED_THRESH and the tile's Gazetteer counters, in the order of R290. -/
  sparseCtrl : Word := 0x2000
  predThresh : Word := 0
  gazCount  : List Nat := List.replicate 6 0
  /-- The core cycle in which GRT_CYCLE was 0. -/
  cycle0    : Nat := 0
  /-- GRT_IMEM_STATUS: an armed swap, its carried handler table, a load in progress and its bank. -/
  armed     : Bool := false
  table     : Option (List Word) := none
  loading   : Option Nat := none
deriving DecidableEq, Repr

/-- Graticule: tiles, the mesh, and the die controls. -/
structure Grid where
  tiles   : SMap Tile := []
  mesh    : List MeshMsg := []
  /-- GRT_DIE_SHIFT.COL of each die; a die not listed has no shift (R93). -/
  shift   : SMap Nat := []
deriving DecidableEq, Repr

end Sys2Proof.Machine
end

