-- ==== Sys2Proof/Machine/State/Fabric.lean ====
section
/-! DEFINITION. The state of Bearing, Waypoint, Traverse and Contour (R292 to R380). -/

namespace Sys2Proof.Machine

/-! ### Sub-ports -/

/-- BRG_LINK_STATUS.STATE (R304). -/
inductive LinkState where
  | disabled | training | ident | up | down | miswired | fenced
deriving DecidableEq, Repr

/-- A data packet whose DATA units are arriving (R299, R344): the load in Traverse that its cells join as they come; else `keep`: it is
stored whole at its edge; else `edge`: it waits, with the cells that are there, last in the ingress of its accelerator's source edge; else
its cells are discarded. The header with the payload so far, and the data flits so far. -/
structure RxCur where
  load : Option Nat := none
  keep : Bool := false
  pkt  : Packet
  got  : Nat := 0
  edge : Bool := false
  /-- DEST, VC and FSEQ of the copy that the source edge keeps of it (R309). -/
  copy : Option (Nat × Nat × Nat) := none
deriving DecidableEq, Repr

/-- A frame of an unpausable sub-port on its way to a tile (R322, R323). -/
structure UnpFrame where
  msg      : MeshMsg
  deadline : Nat
  cells    : Nat
  part     : Nat
  /-- The cells of the RX pool it holds on chip. -/
  bufs     : List Nat := []
deriving DecidableEq, Repr

/-- A token bucket (R367, R368); TOKENS in 1/125 byte. -/
structure Shaper where
  rate    : Nat := 0
  burst   : Nat := 0
  enable  : Bool := false
  tokens  : Int := 0
  /-- A change (RATE, BURST, ENABLE) that waits for a refill after the cycle of its acceptance. -/
  pending : Option (Nat × Nat × Bool) := none
  pendAt  : Nat := 0
deriving DecidableEq, Repr

/-- A gate control list (R369). -/
structure GateList where
  entries : List GateEntry := []
  enable  : Bool := false
deriving DecidableEq, Repr

/-- Contour at one sub-port (R361 to R373). -/
structure Contour where
  quantum  : List Nat := List.replicate 8 145
  deficit  : List Nat := List.replicate 8 0
  ptr      : Nat := 0
  fed      : Bool := false
  /-- Shapers of classes 0 to 7, and the port's at 8. -/
  shapers  : List Shaper := List.replicate 9 {}
  gates    : GateList := {}
  /-- A list that waits for its start, and the cycle of its acceptance. -/
  pending  : Option GateList := none
  pendAt   : Nat := 0
  /-- Classes that received PAUSE or PFC holds, each with the cycle in which the hold ends. -/
  paused   : SMap Nat := []
  /-- The load of each class that was last counted in CTR_GATE_HOLD_COUNT. -/
  held     : SMap Nat := []
  /-- The load at the head of each class and the cycle from which on it is; the cycle up to which heads were held to the gates (R370). -/
  heads    : SMap (Nat × Nat) := []
  seen     : Nat := 0
  /-- The cycle in which the head of a class was last shed: its successor is the head from the following cycle on (R372). -/
  shedAt   : SMap Nat := []
  /-- The cycle of the last refill (R367). -/
  refilled : Option Nat := none
  /-- CTR_SHED_ING_COUNT, CTR_SHED_EGR_COUNT, CTR_GATE_HOLD_COUNT, CTR_CTRL_TX_COUNT. -/
  shedIn   : Nat := 0
  shedOut  : Nat := 0
  gateHold : Nat := 0
  ctrlTx   : Nat := 0
deriving DecidableEq, Repr

/-- The packet a sub-port is sending: its load and the next cell (R299). -/
structure TxCur where
  load : Nat
  cls  : Nat
  next : Nat
  last : Nat
  /-- The profile under which the packet is quantised on its way out, and the rounding of its elements (R312, R314). -/
  conv : Option ConvProfile := none
  draws : List RMode := []
deriving DecidableEq, Repr

/-- One sub-port. -/
structure SubPort where
  cfg      : SubConfig := ⟨.disabled, false, false, false, none, 0, 0, 0, 0, 16, 64, 0, 0⟩
  state    : LinkState := .disabled
  cause    : Nat := 0
  attempts : Nat := 0
  downs    : Nat := 0
  fecLock  : Bool := false
  lanes    : Nat := 0
  /-- The cycle in which the present state was entered. -/
  since    : Nat := 0
  /-- The sub-port is held DOWN by an unanswered management bus (R326). -/
  held     : Bool := false
  partner  : Option LinkId := none
  valid    : Bool := false
  /-- LINK_ID units still to send after a valid one was received, and when the last was sent (R307). -/
  idsLeft  : Nat := 3
  lastId   : Option Nat := none
  /-- Receiver: the LSEQ expected, a NAK sent and not yet answered, a NAK or an acknowledgement due, the running totals of freed
  credits, the VCs whose total has changed, the cycle of the last good unit, and the data packet that is arriving. -/
  rxNext   : Nat := 0
  nakOut   : Bool := false
  nakDue   : Bool := false
  ackDue   : Bool := false
  freed    : List Nat := List.replicate 9 0
  credDue  : List Nat := []
  lastGood : Nat := 0
  rx       : Option RxCur := none
  /-- Sender: the next LSEQ, the replay buffer oldest first (each unit with its LSEQ), the units of it still to be replayed, the credits granted and used
  on each VC, the units sent since the last LINK_CTRL. -/
  txNext   : Nat := 0
  replay   : List (Nat × List Byte) := []
  resend   : List (Nat × List Byte) := []
  /-- The partitions whose traffic units of the replay buffer carry, by LSEQ (R175). -/
  carries  : List (Nat × Nat) := []
  granted  : List Nat := List.replicate 9 0
  totals   : List Nat := List.replicate 9 0
  usedCr   : List Nat := List.replicate 9 0
  sinceCtl : Nat := 0
  cur      : Option TxCur := none
  /-- The control queue of R357. -/
  ctrlQ    : List Packet := []
  /-- Endpoint mode: packets of the accelerator that await the source edge, and E2E packets for it. -/
  ingress  : List Packet := []
  /-- How many of them came in before the link last entered UP: they hold no credits of it. -/
  stale    : Nat := 0
  e2eIn    : List Packet := []
  /-- Unpausable ingress: the on-chip queue, the spill ring, sheds under RING_FULL, NO_SPILL and LATE, and the last notice. -/
  unp      : List UnpFrame := []
  ring     : List UnpFrame := []
  /-- The cycle in which a frame last left the head of the queue: its successor is the head from the following cycle on (R323). -/
  popAt    : Option Nat := none
  /-- Where in the ring the next spilled frame is written, and where in the retransmit store the next packet is. -/
  ringPut  : Nat := 0
  storePut : Nat := 0
  /-- The priorities held by a PFC frame sent (R315). -/
  pfcSent  : List Nat := []
  sheds    : List Nat := [0, 0, 0]
  shedNote : Option Nat := none
  /-- Drops per cause, by the codes of log 50, and the counters of R328 in the order CRC_ERR, RETRY, FEC_CORR, FEC_UNCORR, DROP,
  SPILL, SHED, E2E_RETX, CONV_SAT. -/
  drops    : SMap Nat := []
  counts   : List Nat := List.replicate 9 0
  ctr      : Contour := {}
deriving DecidableEq, Repr

/-- CMIS of one cage (R325, R326): the pages as last read, by 256 bank + page. -/
structure Cmis where
  present : Bool := false
  pages   : SMap (List Byte) := []
  polled  : Nat := 0
  /-- The bus acknowledges; a time without an acknowledgement holds the sub-ports in DOWN until the next presence change. -/
  ack     : Bool := true
  held    : Bool := false
deriving DecidableEq, Repr

/-- One physical port. -/
structure PhysPort where
  width    : Nat := 8
  rate     : Nat := 0
  seed     : Nat := 0
  lanes    : SrLanes := {}
  profiles : SMap ConvProfile := []
  cmis     : Cmis := {}
deriving DecidableEq, Repr

/-- A steering entry with the count of frames it has decided (R317, R318). -/
structure Steer where
  words : List Word
  seq   : Nat := 0
deriving DecidableEq, Repr

/-! ### Endpoint duties -/

/-- An unacknowledged packet of a source flow (R309). -/
structure FlowPkt where
  fseq    : Nat
  pkt     : Packet
  resends : Nat := 0
  notify  : Bool := false
  /-- The unordered Sheet operation whose request it is: it is kept until that completes, and never sent again (R309, R395). -/
  op      : Option Nat := none
  /-- Its payload is still arriving: it cannot be sent again yet (R344). -/
  partly  : Bool := false
deriving DecidableEq, Repr

/-- A source flow (R309): of sub-port `src`, or of the services that send as Grid Reference g at 2048 + g. -/
structure SrcFlow where
  src    : Nat
  dest   : Nat
  vc     : Nat
  next   : Nat := 0
  pkts   : List FlowPkt := []
  /-- The cycle of the last acknowledgement or resend of its oldest packet, and of its last activity. -/
  timer  : Nat := 0
  last   : Nat := 0
deriving DecidableEq, Repr

/-- A packet held in a reorder context, with its Plat cells (R338). -/
structure RoHeld where
  fseq : Nat
  lport : Nat
  pkt  : Packet
  bufs : List Nat := []
deriving DecidableEq, Repr

/-- A reorder context (R338 to R340) with the acknowledgement state of R310. -/
structure RoCtx where
  die    : Nat
  src    : Nat
  vc     : Nat
  /-- The sub-port of the packet delivered last. -/
  lport  : Nat
  next   : Nat := 0
  held   : List RoHeld := []
  timer  : Option Nat := none
  last   : Nat := 0
  unack  : Nat := 0
  firstUnack : Option Nat := none
deriving DecidableEq, Repr

/-! ### Traverse -/

/-- Where a copy goes: a sub-port, or a target of the local table behind a gateway line. -/
inductive OutTarget where
  | sub (lport : Nat)
  | gate (line : Nat) (t : LocalTarget)
deriving DecidableEq, Repr

/-- What crosses Traverse: a data packet, or an Ethernet frame with its egress deadline and the tile that asked for a notice
(tile, handler, tag). -/
inductive Cargo where
  | plp (p : Packet)
  | eth (bytes : List Byte) (deadline : Nat) (notify : Option (Nat × Nat × Nat))
deriving DecidableEq, Repr

/-- A packet or frame inside Traverse. -/
structure Load where
  id     : Nat
  cargo  : Cargo
  inLine : Nat
  inPort : Option Nat
  cls    : Nat
  cells  : Nat
  part   : Option Nat
  outs   : List OutTarget
  mcast  : Bool := false
  /-- Cells of the RX pool it holds, oldest first, each until its cell is launched. -/
  rx     : List Nat := []
  /-- Cells released so far at each target, by the target's place in `outs`. -/
  rel    : List Nat := []
  /-- Copies that have not yet left or been skipped. -/
  left   : Nat := 1
  /-- Link credits that its cells have taken, to be freed as they are launched. -/
  credit : Nat := 0
  /-- Targets whose cells are discarded when they are released (R372, R527). -/
  gone   : List Nat := []
deriving DecidableEq, Repr

/-- Cells of a load in a frame queue that came in one cycle: from `next` up to `cells` (R344). -/
structure FqItem where
  load  : Nat
  next  : Nat
  cells : Nat
  since : Nat
deriving DecidableEq, Repr

/-- A cell at an intermediate, or arrived at an output line (R344, R345). For a multicast cell `left` holds the output lines
still to be served. -/
structure Cell where
  load    : Nat
  idx     : Nat
  inLine  : Nat
  outLine : Nat
  mcast   : Bool
  cls     : Nat
  frame   : Nat
  pos     : Nat
  last    : Bool
  inter   : Nat
  /-- The slot in which it reaches the intermediate or the output line (R343). -/
  at_     : Nat
  left    : List Nat := []
deriving DecidableEq, Repr

/-- A cell in an output queue (R349, R350). -/
structure QCell where
  load    : Nat
  idx     : Nat
  lport   : Nat
  /-- The target's place in the load's `outs`. -/
  tgt     : Nat
  spilled : Bool := false
  mark    : Bool := false
  /-- The pool and index of the buffer it holds. -/
  buf     : Option (Nat × Nat) := none
deriving DecidableEq, Repr

/-- An output queue of a (physical port, class). -/
structure OutQ where
  mark   : Nat := 256
  onchip : Nat := 512
  spill  : Option Nat := none
  cells  : List QCell := []
  /-- The spill buffers it holds, oldest first, and the cells put into them and taken from them. -/
  bufs   : List Nat := []
  put    : Nat := 0
  got    : Nat := 0
  stop   : Bool := false
deriving DecidableEq, Repr

/-- A control flit on its way to a destination line (R355). -/
structure Flit where
  pkt  : Packet
  out  : OutTarget
  /-- The sub-port it came in by. -/
  from_ : Option Nat := none
deriving DecidableEq, Repr

/-- A multicast packet whose completion is owed (R354). -/
structure McOwed where
  load   : Nat
  src    : Nat
  reqId  : Nat
  job    : Nat
  cls    : Nat
  inLine : Nat
  left   : Nat
  /-- Each target's DEST, and its status once its copy has left or been skipped. -/
  done   : List (Nat × Option Nat) := []
deriving DecidableEq, Repr

/-- Traverse settings and counters of a die, in the order MARK, SPILL, STOP, EXP_RECIRC, MC_FENCE_DROP, ORDER_ERR. -/
structure TrvDie where
  flush  : Nat := 64
  spill  : Nat := 1048576
  sel    : Nat := 0
  counts : List Nat := List.replicate 6 0
deriving DecidableEq, Repr

/-- The fabric. -/
structure Fabric where
  ports   : SMap PhysPort := []
  subs    : SMap SubPort := []
  /-- Steering entry e of die d at 256 d + e. -/
  steer   : SMap Steer := []
  flows   : List SrcFlow := []
  ctxs    : List RoCtx := []
  /-- The tier fields (t5 to t1, t1 lowest) and level of the device. -/
  pfx     : Option (Nat × Nat) := none
  table   : SMap LocalTarget := []
  /-- DOWN sets by branch value, the UP set at 256. -/
  sets    : SMap (List Nat) := []
  setNote : SMap Nat := []
  /-- Port sets on which Waypoint has marked the route unreachable. -/
  dead    : List Nat := []
  /-- A mark was set and those who must learn of it have not yet (R249, R332, R400). -/
  lostDue : Bool := false
  /-- Alias entry e of bank b at 1024 b + e. -/
  alias_  : SMap AliasEntry := []
  /-- The banks as an ALIAS_LOAD that is still writing will leave them, and an ALIAS_SWAP that waits for it (R335). -/
  aliasNew : Option (SMap AliasEntry) := none
  swapDue : Bool := false
  active  : Nat := 0
  swaps   : Nat := 0
  mcast   : SMap (List McTarget) := []
  timeout : Nat := 15000
  /-- Spray pointers: set v of line L at 257 L + v. -/
  spray   : SMap Nat := []
  /-- Frame queues: input line i, output line o (64: multicast), class c at 8 (65 i + o) + c; their frame counts; the queue of the
  last frame launched by each line, and the slot in which its link is free. -/
  fq      : SMap (List FqItem) := []
  fqFrame : SMap Nat := []
  fqLast  : SMap Nat := []
  fqFree  : SMap Nat := []
  loads   : SMap Load := []
  next    : Nat := 0
  cells   : List Cell := []
  arrived : List Cell := []
  /-- The expected tag of output line o for input line i, class c, unicast or multicast at 16 (64 o + i) + 2 c + m: 64 FRAME + POS. -/
  expect  : SMap Nat := []
  outq    : SMap OutQ := []
  /-- Packets for a SUBPORT target that wait for the reorder of their die: die and load. -/
  toRo    : List (Nat × Nat) := []
  owed    : List McOwed := []
  /-- STOP as the intermediates set it: output line o (64: multicast) and class c at intermediate j, at 520 j + 8 o + c. -/
  stops   : List Nat := []
  /-- The core cycle of slot 0 (R342). -/
  slot0   : Nat := 0
  /-- The express ring by position 3 L + q, and the control queues of its sources. -/
  ring    : SMap Flit := []
  ctrlSrc : SMap (List Flit) := []
  /-- Packets delivered to the services behind a gateway line: line, target, packet. -/
  inbox   : List (Nat × LocalTarget × Packet) := []
  trv     : SMap TrvDie := []
  /-- WPT_RO_TIMEOUT_COUNT, WPT_RO_LOSS_COUNT, WPT_RO_DROP_COUNT, WPT_UNREACH_COUNT. -/
  wpt     : List Nat := [0, 0, 0, 0]
  /-- CTR_SEL of each physical port. -/
  ctrSel  : SMap Nat := []
deriving DecidableEq, Repr

end Sys2Proof.Machine
end

