-- ==== Sys2Proof/Machine/State/Gaz.lean ====
section
/-! DEFINITION. The state of Gazetteer (R258 to R291). -/

namespace Sys2Proof.Machine

/-- A table (R258, R263). -/
structure GazTable where
  d        : TableDef
  deleting : Bool := false
deriving DecidableEq, Repr

/-- Where a request comes from: a tile with REPLY_HANDLER and TAG; a GAZ_LOOKUP command with its function and reply address;
a GATHER_POOL run of Confluence (R264, R272, R273). -/
inductive GazFrom where
  | tile (t handler tag : Nat)
  | host (fn reply : Nat)
  | cfl (run : Nat)
deriving DecidableEq, Repr

/-- A row entry: its bag, table, index and FP32 weight; the bytes read and the outcome once it has completed (R267). -/
structure GazRow where
  bag    : Nat
  table  : Nat
  index  : Nat
  weight : Nat
  data   : List Byte := []
  status : Option Status := none
deriving DecidableEq, Repr

/-- A request in flight (R264 to R270). -/
structure GazReq where
  id   : Nat
  die  : Nat
  src  : GazFrom
  part : Nat
  /-- USER word 0 (R264); the bags as table, POOL and NROWS (R265). -/
  head : Word
  bags : List (Nat × Nat × Nat)
  rows : List GazRow
  /-- While the request is held: LEN and the payload, which the unit judges when it takes the request (R263, R266). -/
  len  : Nat := 0
  body : List Byte := []
  /-- Rows whose reads have been issued, and the latest completion of a row (R271). -/
  sent : Nat := 0
  last : Nat := 0
deriving DecidableEq, Repr

structure Gaz where
  tables : SMap GazTable := []
  reqs   : List GazReq := []
  next   : Nat := 0
  /-- Requests of GAZ_LOOKUP and GATHER_POOL held while their unit is full. -/
  held   : List GazReq := []
  /-- Lines (16 die + row) whose gateway holds a tile request that has been counted as back-pressure (R270). -/
  noted  : List Nat := []
  /-- GAZ_REQ_COUNT, GAZ_ROW_COUNT, GAZ_ROW_FAIL_COUNT, GAZ_INVALID_COUNT, GAZ_SAT_COUNT. -/
  counts : List Nat := List.replicate 5 0
deriving DecidableEq, Repr

end Sys2Proof.Machine
end

