-- ==== Sys2Proof/Machine/State/Mer.lean ====
section
/-! DEFINITION. The state of Meridian (R181 to R212): objects, what travels to and from the home cells, the debug windows, the deadlock detector. -/

namespace Sys2Proof.Machine

/-- Who sent a transfer (R192). -/
inductive MerSource where
  | strand
  | engine (e : Nat)
  | kci
deriving DecidableEq, Repr

/-- What a transfer asks of the home cell (R188, R190, R197, R204). -/
inductive MerAct where
  | signal (clear : Bool)
  /-- A registration; the stamp at which a timed wait expires. -/
  | wait (expiry : Option Nat)
  | read (word : Nat)
  /-- A withdrawal of a registration; `reset` for one that a tile reset sends. -/
  | withdraw (reg : Nat) (reset : Bool)
deriving DecidableEq, Repr

/-- A transfer on its way to a home cell. -/
structure MerXfer where
  id     : Nat
  obj    : Nat
  act    : MerAct
  src    : MerSource
  tile   : Nat
  strand : Nat
  /-- The sender's partition; none for the physical function, which may name any object. -/
  part   : Option Nat
  stamp  : Nat
  /-- The registration it makes, for a wait or a read. -/
  reg    : Nat
deriving DecidableEq, Repr

/-- A registered waiter (R194). -/
structure MerWaiter where
  reg    : Nat
  tile   : Nat
  strand : Nat
  expiry : Option Nat
  stamp  : Nat
deriving DecidableEq, Repr

/-- An allocated object (R184); VALUE, SET or ARRIVALS in `value`. -/
structure MerObj where
  kind    : MerKind
  part    : Nat
  value   : Nat
  target  : Nat
  gen     : Nat
  /-- The last-signaller word (MER_DBG_LAST). -/
  last    : Word := 0
  waiters : List MerWaiter := []
deriving DecidableEq, Repr

/-- A release or reply on its way to a tile, or held there for its sample point (R166, R190). -/
structure MerReply where
  id      : Nat
  reg     : Nat
  tile    : Nat
  strand  : Nat
  obj     : Nat
  /-- The word for RD, with LATE_TIE clear. -/
  result  : Word
  /-- It can win a tie: a release of a timed wait, with the stamp at which the wait expires. -/
  expiry  : Option Nat
  /-- The stamp of the deciding signal, and the sample point, in a Datum partition. -/
  decided : Option Nat
  sample  : Option Nat
  /-- The transfer that decided it, and whether MER_LATE_SAMPLE was counted for that. -/
  sig     : Nat
  counted : Bool := false
  /-- It took a unit of a COUNT. -/
  unit    : Bool := false
  /-- It has reached the tile and waits for the sample point; its tile was reset (R204). -/
  arrived : Bool := false
  dead    : Bool := false
deriving DecidableEq, Repr

/-- An acknowledgement of a signal on its way to the tile (R189). -/
structure MerAck where
  id     : Nat
  tile   : Nat
  engine : Option Nat
  stamp  : Nat
  datum  : Bool
deriving DecidableEq, Repr

/-- A function's debug window (R206): the capture in it, its VALID bit, and an object whose capture is under way. -/
structure MerDbg where
  state   : Word := 0
  value   : Word := 0
  last    : Word := 0
  waiters : List Word := List.replicate 32 0
  valid   : Bool := false
  busy    : Option Nat := none
deriving DecidableEq, Repr

/-- A deadlock snapshot (R210): strands as tile, strand, wait kind, object; objects with their three words; the totals. -/
structure DlSnap where
  strands : List (Nat × Nat × Nat × Nat)
  objects : List (Nat × Word × Word × Word)
  numStrands : Nat
  numObjects : Nat
deriving DecidableEq, Repr

structure Meridian where
  objs    : SMap MerObj := []
  xfers   : List MerXfer := []
  replies : List MerReply := []
  acks    : List MerAck := []
  next    : Nat := 0
  /-- MER_LIMIT_COUNT, MER_OVF_COUNT, MER_REJECT_COUNT. -/
  limit   : Nat := 0
  ovf     : Nat := 0
  reject  : Nat := 0
  /-- MER_CTRL. -/
  window  : Nat := 0x14
  enabled : Bool := true
  /-- For an object, the cycle and the place of the last transfer that its join accepted (R193). -/
  joined  : SMap (Nat × List Nat) := []
  /-- Since when a partition has been seen blocked, the partitions in an episode, and the latest snapshots (R209). -/
  since   : SMap Nat := []
  dl      : List Nat := []
  snaps   : SMap DlSnap := []
  dbg     : SMap MerDbg := []
deriving DecidableEq, Repr

end Sys2Proof.Machine
end

