-- ==== Sys2Proof/Machine/State/Out.lean ====
section
/-! DEFINITION. What leaves the module through its links and pins: an append-only record (log 7). -/

namespace Sys2Proof.Machine

/-- What has left the module through its links and pins, in order. -/
inductive Out where
  /-- An MSI-X vector of a function (R473). -/
  | msix (fn vector : Nat)
  /-- A datagram of the management port to an address and UDP port (R482). -/
  | mgmt (addr port : Nat) (bytes : List Byte)
  /-- The answer to a BMC read: bytes, or NACK (R484). -/
  | bmc (answer : Option (List Byte))
  /-- The value a host register read returned (R6). -/
  | read (fn offset : Nat) (value : Word)
  /-- A pulse on SYNC_OUT in a core cycle (R551). -/
  | sync (cc : Nat)
  /-- A link unit sent by a sub-port: tag, body and CRC-32 (R295, R296). -/
  | unit (lport : Nat) (bytes : List Byte)
  /-- An Ethernet frame sent by a sub-port, with its FCS (R315). -/
  | frame (lport : Nat) (bytes : List Byte)
  /-- Bytes written to a page of a module, over the management bus of its port (R325). -/
  | cmis (port page offset : Nat) (bytes : List Byte)
  /-- A request to a far device: port, tag, write or read, device address, length, bytes (R432). -/
  | far (port tag : Nat) (write : Bool) (addr len : Nat) (bytes : List Byte)
deriving DecidableEq, Repr

end Sys2Proof.Machine
end

