-- ==== Sys2Proof/Machine/State/Plat.lean ====
section
/-! DEFINITION. The state of the Plat pools (R450 to R460) and of the Atlas banks (R437 to R449, R459). -/

namespace Sys2Proof.Machine

/-- An allocation that waits at its requester (R451): owner, partition served, and the memory-request class of a MEMREQ
buffer; whether a level held it, which was counted (R455); the cycle in which it was made (R453). -/
structure PlatWait where
  owner : Nat
  part  : Option Nat := none
  cls   : Option Nat := none
  held  : Bool := false
  since : Nat := 0
deriving DecidableEq, Repr

/-- One Plat pool. -/
structure Pool where
  /-- T. -/
  total   : Nat
  /-- The free entries in the order of their freeing, as ranges first to last + 1 (R452). -/
  ring    : List (Nat × Nat)
  /-- The set state bits: buffer index and the owner that holds the buffer. -/
  held    : SMap Nat := []
  /-- U_o of the owners that hold buffers. -/
  used    : SMap Nat := []
  /-- R_o of every owner, and the owners whose R_o differs. -/
  owners  : Nat
  dflt    : Nat
  reserve : SMap Nat := []
  /-- The cap of an owner, where the pool has one, and the owners whose cap differs. -/
  cap     : Option Nat := none
  caps    : SMap Nat := []
  /-- T1, T2, T3 in 1/256 of C. -/
  thresh  : List Nat := [0x40, 0x20, 0x10]
  level   : Nat := 0
  faulted : Bool := false
  waiting : List PlatWait := []
  /-- The indices that a DEGRADED bank took out of the pool, as ranges (R448). -/
  bad     : List (Nat × Nat) := []
deriving DecidableEq, Repr

/-- PLT_LAST_DOUBLE_FREE (R460). -/
structure LastFree where
  die   : Nat := 0
  pool  : Nat := 0
  index : Nat := 0
  owner : Nat := 0
  range : Bool := false
  notHeld : Bool := false
  valid : Bool := false
deriving DecidableEq, Repr

/-- Plat: pool p of die d at 8d + p; a pool that is not listed stands as after reset. -/
structure Plat where
  pools   : SMap Pool := []
  last    : LastFree := {}
  doubles : Nat := 0
  holds   : Nat := 0
  levels  : Nat := 0
  /-- PLT_POOL_SEL. -/
  sel     : Nat := 0
deriving DecidableEq, Repr

/-- Phases of Sounding (R444). -/
inductive SoundPhase where
  | idle | save | test | restore
deriving DecidableEq, Repr

/-- One bank (R437 to R448). -/
structure Bank where
  power    : BankPower := .on
  /-- The state a change in progress leads to, and the cycle in which it is reached. -/
  goal     : Option (BankPower × Nat) := none
  degraded : Bool := false
  /-- Columns whose spares hard fuses and soft fuses select: sub-array and column. -/
  hard     : List (Nat × Nat) := []
  soft     : List (Nat × Nat) := []
  /-- Recorded columns for which the last reset found no spare (R448). -/
  unfused  : List (Nat × Nat) := []
  /-- The Sounding walker: region, phase, passes since reset, the cycle its last region began. -/
  region   : Nat := 0
  phase    : SoundPhase := .idle
  passes   : Nat := 0
  began    : Option Nat := none
deriving DecidableEq, Repr

/-- ATL_SOUND_FAULT (R459). -/
structure SoundFault where
  bank   : Nat := 0
  sub    : Nat := 0
  column : Nat := 0
  hard   : Bool := false
  valid  : Bool := false
deriving DecidableEq, Repr

/-- Atlas: banks by the bank ID of R438; a bank that is not listed stands as after reset. -/
structure Atlas where
  interval : Nat := 0x10
  enabled  : Bool := true
  banks    : SMap Bank := []
  sel      : Nat := 0
  fault    : SoundFault := {}
  passes   : Nat := 0
  faults   : Nat := 0
  corrected : Nat := 0
  /-- ATL_SECURE_STATUS. -/
  wipes    : Nat := 0
  cause    : Nat := 0
  wiping   : Bool := false
  verifyOk : Bool := false
  /-- The pinned-row bytes of each die (R261): byte offset o of die d at 2^24 d + o; uncorrectable and correctable words. -/
  pinned   : Memory := []
  bad      : List Nat := []
  softBits : List Nat := []
deriving DecidableEq, Repr

end Sys2Proof.Machine
end

