-- ==== Sys2Proof/Machine/State/Sheet.lean ====
section
/-! DEFINITION. The state of Sheet (R381 to R403). -/

namespace Sys2Proof.Machine

/-- Who issued an operation: a tile, or the accelerator of a sub-port (R385). -/
inductive ShtSource where
  | tile (t : Nat)
  | accel (lport : Nat)
deriving DecidableEq, Repr

/-- An operation in flight at the sender (R388): the record's four words as they came, the data line, the TAG of a tile's
message, the home entry, the class, FSEQ of an ordered operation. -/
structure ShtOp where
  id      : Nat
  source  : ShtSource
  die     : Nat
  part    : Option Nat
  member  : Nat
  words   : List Word
  data    : List Byte
  tag     : Nat := 0
  /-- REQ_ID of the header as an accelerator wrote it. -/
  reqId   : Nat := 0
  dest    : Nat
  cls     : Nat
  fseq    : Option Nat := none
  sent    : Bool := false
  sentAt  : Nat := 0
  resends : Nat := 0
  /-- A release store: the earlier operations of its source that it still waits for, and whether one of them failed (R391). -/
  after   : List Nat := []
  spoiled : Bool := false
  /-- The wire number in the header's REQ_ID (log 52). -/
  wire    : Nat
deriving DecidableEq, Repr

/-- A request that waits for room at its unit, and whether it has counted STK_BACKPRESSURE (R388). -/
structure ShtWait where
  source  : ShtSource
  die     : Nat
  part    : Option Nat
  counted : Bool := false
deriving DecidableEq, Repr

/-- A flow of a sender: the source and home entry, the next ordered FSEQ (R389), and the cycle in which an operation of it last
completed. -/
structure ShtFlow where
  src  : Nat
  dest : Nat
  next : Nat := 0
  last : Nat := 0
deriving DecidableEq, Repr

/-- An operation in the home queue of a die: the request packet, and its cell of the SHEET pool (R398). -/
structure HomeOp where
  id  : Nat
  pkt : Packet
  buf : Option Nat := none
deriving DecidableEq, Repr

/-- A flow at a home die: the next FSEQ, held early arrivals, and the completions kept until CACK passes
them, each in the cell of its operation (R390, R395, R398). -/
structure HomeFlow where
  die   : Nat
  src   : Nat
  next  : Nat := 0
  early : List (Nat × HomeOp) := []
  done  : List (Nat × Packet × Option Nat) := []
  /-- Ordered operations of the flow that wait in the home queue. -/
  queued : List Nat := []
deriving DecidableEq, Repr

/-- A combine record (R396, R397). -/
structure Combine where
  die   : Nat
  id    : Nat
  load  : Nat
  parts : List Packet
  /-- The cycle in which the merged packet left, for its timer. -/
  sentAt : Option Nat := none
deriving DecidableEq, Repr

/-- Sheet. -/
structure Sheet where
  members : List SheetMember := List.replicate 16 .none
  self    : Option Nat := none
  classes : SMap Nat := []
  rto     : Nat := 16
  mark    : Nat := 256
  /-- The exported region: partition, base, EXPORT_SIZE. -/
  part    : Nat := 0
  base    : Nat := 0
  size    : Nat := 0
  /-- Window entry e of partition p at 64 p + e, of sub-port l at 64 (64 + l) + e. -/
  windows : SMap Window := []
  ops     : List ShtOp := []
  flows   : List ShtFlow := []
  next    : Nat := 0
  /-- The next wire number of each die, and the next combine record: one that was used is not used again before the others (log 52). -/
  wires   : SMap Nat := []
  slots   : SMap Nat := []
  /-- Sources whose operations failed since their last release store (log 51). -/
  failed  : List ShtSource := []
  /-- Requests that wait at a west gateway or sub-port because a unit was full and that were counted (R388). -/
  waiting : List ShtWait := []
  /-- The home queues, oldest first, by die. -/
  queue   : SMap (List HomeOp) := []
  homes   : List HomeFlow := []
  /-- Dies whose oldest request a level of the SHEET pool holds and that have counted it (R455). -/
  homeHeld : List Nat := []
  nextHome : Nat := 0
  /-- The sources of the last 64 line operations of a line, newest first (R399). -/
  lines   : SMap (List Nat) := []
  records : List Combine := []
  /-- Members declared lost (R400), and job tags torn down (R401). -/
  lost    : List Nat := []
  dead    : List Nat := []
  /-- SHT_COMBINE_COUNT, SHT_MARK_COUNT, SHT_RETX_COUNT, SHT_LOST_COUNT, SHT_DENIED_COUNT. -/
  counts  : List Nat := List.replicate 5 0
deriving DecidableEq, Repr

end Sys2Proof.Machine
end

