-- ==== Sys2Proof/Machine/State/Stk.lean ====
section
/-! DEFINITION. The state of stacked memory and the far tier (R404 to R436), and the memory requests in flight. -/

namespace Sys2Proof.Machine

/-- A region (R407). -/
structure StkRegion where
  global : Bool
  die    : Nat
  vbase  : Nat
  first  : Nat
  bands  : Nat
deriving DecidableEq, Repr

/-- An assignment of bands, past or present: owner (64: the device), and the positions (R408). -/
structure BandUse where
  owner  : Nat
  global : Bool
  die    : Nat
  first  : Nat
  bands  : Nat
deriving DecidableEq, Repr

/-- Channel states (STK_CH_STATE.STATE). -/
inductive ChState where
  | untrained | training | ready | retraining | failed
deriving DecidableEq, Repr

/-- Where a request goes: a stack block, with the byte offset in it; a byte of a die's pinned-row region; a device address of
a far port. -/
inductive MemTarget where
  | stk (pch block off : Nat)
  | pinned (die off : Nat)
  | far (port addr : Nat)
deriving DecidableEq, Repr

/-- What a request belongs to: a COPY of a tile (tile, instruction, unit, and the scratchpad address a read goes to), or a row
of a Gazetteer request (die, request, row, byte offset in the row), or a collective at a hosted rank (its run; 0 the
contribution, 1 its scale bytes, 2 a result, 3 the completion record; the byte offset), or the sparse engine of a tile (tile,
instruction, the byte offset in the Legend entry or block data it reads), or a piece of a descriptor (queue, host address), or
the line that a Sheet home needs in an adder slot (controller, cell address), or the zeroing of a region (its number, the
pseudo-channel), or a spill path of Traverse or Bearing or a free ring of Plat, which wait for no answer (R322, R350, R405). -/
inductive MemUser where
  | copy (t insn unit dest : Nat)
  | gaz (die req row off : Nat)
  | cfl (run what off : Nat)
  | sparse (t insn off : Nat)
  | dma (q host : Nat)
  | line (ctl addr : Nat)
  | zero (id pch : Nat)
  | spill
deriving DecidableEq, Repr

/-- How far a request has come at its requester: it has not left its memory-plane port; it is out; its slot has served it, or
it needs none; it is held until its padded cycle with the status it will have; it is complete. -/
inductive MemStage where
  | atPort
  | out
  | served
  | held (st : Status)
  | complete (st : Status)
deriving DecidableEq, Repr

/-- One memory request: at most one 256-byte unit (R405). -/
structure MemReq where
  id     : Nat
  user   : MemUser
  write  : Bool
  target : MemTarget
  len    : Nat
  /-- The bytes of a write; of a read, once it has reached the controller. -/
  data   : List Byte := []
  /-- The words that were uncorrectable, and correctable, when it reached the controller. -/
  badAt  : List Nat := []
  softAt : List Nat := []
  /-- 0 LATENCY, 1 SYNC, 2 BULK, 3 SPILL (R412). -/
  cls    : Nat
  part   : Option Nat
  die    : Nat
  /-- The memory-plane port (R450). -/
  port   : Nat
  /-- The cycle it left its port, and its padded cycle in a Datum partition (R162, R165). -/
  left   : Nat := 0
  pad    : Option Nat := none
  /-- An unscheduled retraining delayed it (R165). -/
  stalled : Bool := false
  /-- The Plat buffer it waits in (R414). -/
  buffer : Option Nat := none
  /-- It holds an entry in the queue of its pseudo-channel or far port. -/
  queued : Bool := false
  stage  : MemStage := .atPort
deriving DecidableEq, Repr

/-- One channel (R422 to R424). -/
structure Channel where
  state : ChState := .untrained
  /-- A retraining in progress lies outside the schedule; when it or the last one began. -/
  unscheduled : Bool := false
  began : Nat := 0
  /-- The cycle until which the windows of an STK_MARGIN keep it from serving (R426). -/
  window : Nat := 0
deriving DecidableEq, Repr

/-- One pseudo-channel: the classes of its last 64 slots, newest first (4: idle or maintenance), the cycle of the last slot,
the weighted round robin, maintenance due, the scrub position, the corrected words whose write-back is due. -/
structure Pch where
  slots   : List Nat := []
  last    : Nat := 0
  /-- The cycle until which a refresh or a repair copy occupies it (R418, R422). -/
  busy    : Nat := 0
  wBulk   : Int := 0
  wSpill  : Int := 0
  scrub   : Nat := 0
  fixes   : List Nat := []
  /-- Rows whose repair copy waits for a retraining window (R418). -/
  due     : List Nat := []
  /-- Spare rows that were taken: a spare that failed stays taken. -/
  spares  : List Nat := []
deriving DecidableEq, Repr

/-- Where a logical row is served from (R418, R421). -/
inductive RowHome where
  | own
  | spare (i : Nat)
  | repaired
deriving DecidableEq, Repr

/-- The repair log of a logical row: failures, and its home (R419). -/
structure RowLog where
  fails : Nat := 0
  home  : RowHome := .own
deriving DecidableEq, Repr

/-- A retired block: the reserve block it is served from, none where there was none free; whether a region in global interleave held
its position (R420). -/
structure Retired where
  reserve : Option Nat
  wide    : Bool := false
deriving DecidableEq, Repr

/-- A line in an adder slot (R415): its cell address, the cycle it was last touched, and how the request that brings it has ended
(none: it is still out). -/
structure AdderLine where
  addr  : Nat
  touch : Nat
  got   : Option Status := some .ok
deriving DecidableEq, Repr

/-- An STK_REGION_SET in flight (R408): its number and region, the block positions of each die that are zeroed, and the units that
the controllers of the pseudo-channels not yet finished have been sent. -/
structure Zeroing where
  id    : Nat
  def_  : RegionDef
  bands : List (List Nat)
  left  : SMap Nat
deriving DecidableEq, Repr

/-- An STK_MARGIN in flight (R426): its number, the cycle its last window ends, the counts it returns. -/
structure MarginRun where
  id     : Nat
  due    : Nat
  counts : List Word
deriving DecidableEq, Repr

/-- Stacked memory. Bytes by 4096 (183105 q + block) + offset, whichever row serves them. -/
structure Stk where
  lat      : Nat := 0x20
  wBulk    : Nat := 3
  wSpill   : Nat := 1
  ceThresh : Nat := 8
  rtThresh : Nat := 0x10
  trained  : List Nat := []
  bringup  : Bringup := .none
  chSel    : Nat := 0
  channels : SMap Channel := []
  pchs     : SMap Pch := []
  /-- Regions of partitions 0 to 63, and of the device at 64. -/
  regions  : SMap (List StkRegion) := []
  /-- Assignments of bands, newest first. -/
  uses     : List BandUse := []
  mem      : Memory := []
  /-- Word addresses that hold an uncorrectable, or a correctable, error. -/
  bad      : List Nat := []
  soft     : List Nat := []
  /-- The repair log by row (4 * (183105 q + block) + row), and the retired blocks by 183105 q + block. -/
  rows     : SMap RowLog := []
  retired  : SMap Retired := []
  /-- Uncorrectable words in the own rows of retired blocks, and those in free reserve blocks from 2^50 on: the patrol scrub still
  reads them (R417). -/
  oldBad   : List Nat := []
  /-- Corrected errors of rows, per controller, most recently hit first: row and count (R418). -/
  ceTable  : SMap (List (Nat × Nat)) := []
  /-- Post-package repair resources used, by stack and bank: 2^16 s + b (R421). -/
  pprUsed  : SMap Nat := []
  /-- The adder slots of each controller. -/
  adders   : SMap (List AdderLine) := []
  /-- STK_ECC_ADDR and the counters. -/
  eccAddr  : Nat := 0
  eccValid : Bool := false
  corr     : Nat := 0
  uncorr   : Nat := 0
  remaps   : Nat := 0
  retires  : Nat := 0
  retrains : Nat := 0
  /-- The zeroing and the margining in flight. -/
  zeroing  : List Zeroing := []
  margins  : List MarginRun := []
  /-- Requests in flight, oldest first, and the number of the next one. -/
  reqs     : List MemReq := []
  next     : Nat := 0
deriving DecidableEq, Repr

/-- States of a far port (FAR_PORT_STATUS). -/
inductive FarState where
  | empty | training | enumerating | ready | down | failed
deriving DecidableEq, Repr

/-- A far window (R429). -/
structure FarWindow where
  port : Nat
  base : Nat
  size : Nat
deriving DecidableEq, Repr

/-- A far port. -/
structure FarPort where
  state  : FarState := .empty
  half   : Bool := false
  width  : Nat := 0
  ide    : Bool := false
  id     : Option FarId := none
  linkUp : Nat := 0
  /-- FAR_PORT_CTRL DISABLE: DOWN until ENABLE or RESET (R433). -/
  disabled : Bool := false
  /-- The link is held DOWN until Compass has set the keys of CXL IDE (R428). -/
  keying   : Bool := false
  /-- The last 64 requests served: true for LATENCY. -/
  slots  : List Bool := []
deriving DecidableEq, Repr

/-- The far tier. -/
structure Far where
  ports   : SMap FarPort := []
  /-- Windows of partition p: entry e at 16 p + e. -/
  windows : SMap FarWindow := []
  poison  : Nat := 0
  lost    : Nat := 0
  downs   : Nat := 0
deriving DecidableEq, Repr

end Sys2Proof.Machine
end

