-- ==== Sys2Proof/Machine/State.lean ====
section
/-! DEFINITION. The state of the PQ-2480 as plain data, and the state after reset. -/

namespace Sys2Proof.Machine

structure State where
  pending : List Instr
  now     : Nat
  free    : Nat
  cmp     : Compass
  dtm     : Datum
  lay     : Layout
  grid    : Grid
  flt     : Faults
  crt     : Cartouche
  pwr     : Power
  host    : SMap Memory
  mer     : Meridian
  stk     : Stk
  far     : Far
  plt     : Plat
  gaz     : Gaz
  cfl     : Cfl
  fab     : Fabric
  sht     : Sheet
  atl     : Atlas
  out     : List Out
  /-- By BAR0 offset, the cycle in which the hardware last acted on a register, and what it did there: the W1C bits that it set, which a
  host write of that cycle does not clear (R9), or a counter's increments, which add to the value that the host writes (log 1). -/
  w1c     : SMap (Nat × Nat)
deriving DecidableEq, Repr

/-- No command ends in a fault. -/
inductive Fault where
deriving DecidableEq, Repr

inductive Refusal where
  | notModelled (mnemonic : String)
deriving DecidableEq, Repr

def State.reset : State :=
  { pending := [], now := 0, free := 0, cmp := {}, dtm := {}, lay := {}, grid := {}, flt := {}, crt := {}, pwr := {}, host := [], mer := {}, stk := {}, far := {}, plt := {}, gaz := {}, cfl := {}, fab := {}, sht := {}, atl := {}, out := [], w1c := [] }

end Sys2Proof.Machine
end

