-- ==== Sys2Proof/Machine/Ops.lean ====
section
/-! DEFINITION. The shared operations: time, host memory, event rings and notices, the Itinerary, and the running of a KCI command. -/

namespace Sys2Proof

/-- The function whose host memory a command's addresses name: the issuing function's (R468); DESIGN CHOICE (log 10): the
PF's for a command of the management port. -/
def Source.fnIdx : Source → Nat
  | .pf => 0
  | .vf v => v
  | .mgmt => 0

/-- SOURCE of an Itinerary entry (R504). -/
def Source.code : Source → Nat
  | .pf => 0
  | .vf v => v
  | .mgmt => 65

/-- Whether the source holds the PF's rights (R482). -/
def Source.privileged : Source → Bool
  | .pf => true
  | .vf _ => false
  | .mgmt => true

/-- The partition a command acts for (R468): a VF's own, otherwise PART when PART_EN is set. -/
def Kci.acts (k : Kci) : Option Nat :=
  match k.src with
  | .vf v => some (v - 1)
  | _ => k.part

/-- Turns away a source without the PF's rights. -/
def Kci.denied (k : Kci) : Bool × Machine.Status := (!k.src.privileged, .accessDenied)

/-- Turns away a VF that names another partition than its own. -/
def Kci.notOwn (k : Kci) (p : Nat) : Bool × Machine.Status :=
  (match k.src with
    | .vf v => v - 1 ≠ p
    | _ => false, .accessDenied)

end Sys2Proof

namespace Sys2Proof.Machine

/-! ### Time -/

/-- An event that falls in core cycle cc: the clock stands at least there (log 1). -/
def State.at (s : State) (cc : Nat) : State := { s with now := max s.now cc }

/-- DTM_TIMEBASE (R168, R180): core cycles since the count was 0. -/
def State.timebase (s : State) : Nat := (s.now - s.dtm.tbZero) % 2 ^ 64

/-- CMP_PTP_TIME (R466): nanoseconds of TAI; 15 core cycles last 8 ns. -/
def State.ptpTime (s : State) : Nat :=
  if s.cmp.ptp.state = .disabled then 0 else (s.cmp.ptp.time + (s.now - s.cmp.ptp.setAt) * 8 / 15) % 2 ^ 64

/-- Takes one free value: the number is opaque, the counter moves on (log 2). -/
def State.fresh (s : State) : Nat × State := (Config.freeNat s.free, { s with free := s.free + 1 })

/-- Takes n free bytes (log 2). -/
def State.freshBytes (s : State) (n : Nat) : List Byte × State :=
  ((List.range n).map (Config.freeByte s.free), { s with free := s.free + 1 })

/-- Records something that leaves the module (log 7). -/
def State.emit (s : State) (o : Out) : State := { s with out := s.out ++ [o] }

/-! ### Host writes in the cycle of an event (R8, R9) -/

/-- The W1C bits of the register at a BAR0 offset that the hardware set in this cycle: a host write of 1 leaves them set (R9). -/
def State.w1cHeld (s : State) (a : Nat) : Nat :=
  match s.w1c.look a with
  | some (c, m) => if c = s.now then m else 0
  | none => 0

/-- The hardware sets W1C bits of a register in this cycle. -/
def State.w1cSet (s : State) (a m : Nat) : State := { s with w1c := s.w1c.put a (s.now, s.w1cHeld a ||| m) }

/-- The counter at a BAR0 offset has n more increments in this cycle: they add to a value that the host writes in it (R257, R284,
R328, R359 and the other counter tables). -/
def State.tally (s : State) (a : Nat) (n : Nat := 1) : State := { s with w1c := s.w1c.put a (s.now, s.w1cHeld a + n) }

/-! ### Partitions and functions -/

def State.partMode (s : State) (p : Nat) : PartMode := s.dtm.parts.lookD p {}

/-- DTM_PART_MODE_p.ASSIGNED: the partition exists (R180, R479). -/
def State.partExists (s : State) (p : Nat) : Bool := (s.partMode p).assigned
def State.partDatum (s : State) (p : Nat) : Bool := (s.partMode p).assigned && (s.partMode p).datum
def State.partTrain (s : State) (p : Nat) : Bool := (s.partMode p).train
def State.anyDatum (s : State) : Bool := s.dtm.parts.any (fun e => e.2.assigned && e.2.datum)
def State.anyPart (s : State) : Bool := s.dtm.parts.any (fun e => e.2.assigned)

def State.fn (s : State) (f : Nat) : FnState := s.cmp.fns.lookD f {}
def State.setFn (s : State) (f : Nat) (x : FnState) : State := { s with cmp := { s.cmp with fns := s.cmp.fns.put f x } }

def State.hostMem (s : State) (f : Nat) : Memory := s.host.lookD f []
def State.hostRead (s : State) (f a n : Nat) : List Byte := (s.hostMem f).readN a n
def State.hostWrite (s : State) (f a : Nat) (bs : List Byte) : State :=
  { s with host := s.host.put f ((s.hostMem f).writeN a bs) }

/-- Writes a command's results to its destination in the issuing function's memory (R562). -/
def State.putHost (s : State) (k : Kci) (a : Nat) (bs : List Byte) : State := s.hostWrite k.src.fnIdx a bs

/-! ### Event rings (R467, R472, R473) -/

/-- Sends an MSI-X vector, or holds it for the 1 µs spacing of R473. -/
def State.sendMsix (s : State) (f v : Nat) : State :=
  let x := s.fn f
  match x.lastMsix.look v with
  | some c =>
    if s.now < c + 1875 then s.setFn f { x with msixWait := if x.msixWait.contains v then x.msixWait else x.msixWait ++ [v] }
    else (s.setFn f { x with lastMsix := x.lastMsix.put v s.now }).emit (.msix f v)
  | none => (s.setFn f { x with lastMsix := x.lastMsix.put v s.now }).emit (.msix f v)

/-- TAIL − HEAD modulo 2^17 (R467). -/
def ringUsed (tail head : Nat) : Nat := (tail + 2 ^ 17 - head) % 2 ^ 17

def FnState.evtFull (x : FnState) : Bool := decide (2 ^ x.evtLog ≤ ringUsed x.evtTail x.evtHead)

/-- Writes one entry into a ring that has room: PHASE by R467, one 32-byte write, the index, then the vector. -/
def State.postEvent (s : State) (f : Nat) (ws : EventWords) : State :=
  let x := s.fn f
  let phase := (x.evtTail / 2 ^ x.evtLog + 1) % 2
  let w0 := (nth ws 0 0).toNat / 2 * 2 + phase
  let bytes := leBytes 8 w0 ++ wordBytes (padTo 3 0 (ws.drop 1))
  let s := s.hostWrite f (x.evtBase + 32 * (x.evtTail % 2 ^ x.evtLog)) bytes
  (s.setFn f { x with evtTail := (x.evtTail + 1) % 2 ^ 17 }).sendMsix f x.evtVector

/-- Words of a notice (R472). -/
def noticeWords (n : Notice) (st : Status) (part : Option Nat) (subject detail tb : Nat) : EventWords :=
  let pw := match part with
    | some p => put 37 32 p + 2 ^ 38
    | none => 0
  [wd (2 + put 15 8 st.code + put 31 16 n.code + pw), wd subject, wd detail, wd tb]

/-- Holds a notice of a function: at most 256, the oldest replaced by a count that one NOTICE_OVERFLOW will carry (R473). -/
def holdNotice (held : List EventWords) (lost : Nat) (ws : EventWords) : List EventWords × Nat :=
  let room := if lost = 0 then 256 else 255
  if held.length < room then (held ++ [ws], lost)
  else
    let drop := if lost = 0 then 2 else 1
    (held.drop drop ++ [ws], lost + drop)

/-- Posts a notice to a function, or holds it where the ring is full or other notices are already held. -/
def State.postNotice (s : State) (f : Nat) (ws : EventWords) : State :=
  let x := s.fn f
  if x.rings && !x.evtFull && x.held.isEmpty then s.postEvent f ws
  else
    let (h, l) := holdNotice x.held x.lost ws
    s.setFn f { x with held := h, lost := l }

/-- Writes held notices while the ring has room: first the overflow notice, then the held ones in order (fuel bounds the loop). -/
def State.flushNotices : Nat → State → Nat → State
  | 0, s, _ => s
  | k + 1, s, f =>
    let x := s.fn f
    if x.rings && !x.evtFull then
      if 0 < x.lost then
        State.flushNotices k ((s.setFn f { x with lost := 0 }).postEvent f
          (noticeWords .noticeOverflow .ok none f x.lost s.timebase)) f
      else match x.held with
        | [] => s
        | w :: r => State.flushNotices k ((s.setFn f { x with held := r }).postEvent f w) f
    else s

/-- A datagram from the management port: SEQ, the 32-byte entry, and the tag over both (R482). -/
def mgmtDatagram (key : List Byte) (seq : Nat) (entry : List Byte) : List Byte :=
  let body := leBytes 8 seq ++ entry
  body ++ kmac256 key body 16 "KCI-MGMT"

/-- Delivers a notice: to the PF, to the partition's VF where its ring is set, and to NOTICE_DEST (R473, R482). -/
def State.deliver (s : State) (ws : EventWords) : State :=
  let w0 := nth ws 0 0
  let s := s.postNotice 0 ws
  let s := if bit w0 38 then
      let v := bits w0 37 32 + 1
      if (s.fn v).rings then s.postNotice v ws else s
    else s
  match s.cmp.mgmt.notices, s.cmp.mgmt.key with
  | some (a, p), some key =>
    let q := s.cmp.mgmt.noticeSeq
    let s := { s with cmp := { s.cmp with mgmt := { s.cmp.mgmt with noticeSeq := q + 1 } } }
    s.emit (.mgmt a p (mgmtDatagram key q (wordBytes ws)))
  | _, _ => s

/-- Where a notice comes from (R26): the hub, a die, or a region by 8d + r. -/
inductive Origin where
  | hub
  | die (d : Nat)
  | region (r : Nat)
deriving DecidableEq, Repr

/-- Adds to the fault log, at most 1,024 entries, the oldest overwritten (R523). -/
def State.faultLog (s : State) (e : FaultEntry) : State :=
  let l := s.flt.log ++ [e]
  { s with flt := { s.flt with log := l.drop (l.length - 1024) } }

/-- Whether a notice enters the fault log (R523). -/
def logsFault (n : Notice) (st : Status) : Bool :=
  st = .uncorrectable || st = .targetLost || st = .fenced || st = .memberLost || n.range = 0xD

/-- Compass takes no notice: it restarts, or stays FAILED (R29, R488). -/
def State.compassDeaf (s : State) : Bool := s.cmp.state = .restarting || s.cmp.state = .failed

/-- Hands a notice to the level above. A restarting surveyor queues it, and a Quadrant Surveyor queues it while Compass takes none:
256 entries each, the oldest replaced by the number lost (R27, R29). What has no surveyor, the hub die's own units, waits for Compass
in full (log 81). -/
def State.sendUp (s : State) (o : Origin) (ws : EventWords) : State :=
  let hub := fun (s : State) => if s.compassDeaf then { s with cmp := { s.cmp with upHeld := s.cmp.upHeld ++ [ws] } } else s.deliver ws
  let die := fun (s : State) (d : Nat) =>
    let q := s.lay.quad.lookD d {}
    if q.restarting || s.compassDeaf then
      let (h, l) := holdNotice q.held q.lost ws
      { s with lay := { s.lay with quad := s.lay.quad.put d { q with held := h, lost := l } } }
    else hub s
  match o with
  | .hub => hub s
  | .die d => die s d
  | .region r =>
    let q := s.lay.region.lookD r {}
    if q.restarting then
      let (h, l) := holdNotice q.held q.lost ws
      { s with lay := { s.lay with region := s.lay.region.put r { q with held := h, lost := l } } }
    else die s (r / 8)

/-- Raises a notice (R472, R473, R477), keeps the fault log (R523) and counts uncorrectable cases (R524). -/
def State.notify (s : State) (n : Notice) (st : Status) (part : Option Nat) (subject detail : Nat)
    (o : Origin := .hub) (addr : Nat := 0) (job : Nat := 0) : State :=
  let s := if logsFault n st then s.faultLog ⟨s.timebase, n.code, st.code, part, subject % 2 ^ 32, addr, job⟩ else s
  let s := if st = .uncorrectable then { s with flt := { s.flt with uncorr := satInc s.flt.uncorr } }.tally 0x248 else s
  s.sendUp o (noticeWords n st part subject detail s.timebase)

/-- An access that R6, R465, R467 or R474 turns away: ACCESS_ERROR carrying the offset. -/
def State.accessError (s : State) (offset : Nat) (part : Option Nat := none) : State :=
  s.notify .accessError .ok part offset 0

/-! ### The Itinerary (R504 to R511) -/

/-- The 64 bytes of an entry ahead of CHAIN (R504). -/
def ItinEntry.head (e : ItinEntry) : List Byte :=
  leBytes 8 e.seq ++ leBytes 8 e.ptpTime ++ leBytes 8 e.timebase ++ leBytes 2 e.code ++ leBytes 1 e.flags ++
    leBytes 1 e.part ++ leBytes 1 e.source ++ leBytes 1 e.status ++ leBytes 2 0 ++ padTo 32 0 e.subject

/-- All 128 bytes of an entry. -/
def ItinEntry.bytes (e : ItinEntry) : List Byte := e.head ++ padTo 64 0 e.chain

/-- One entry onto the chain. The journal keeps the newest 131,072 (R509). -/
def State.itinEntry (s : State) (code contLeft : Nat) (part : Option Nat) (source : Nat) (status : Status)
    (subject : List Byte) : State :=
  let i := s.crt.itin
  let flags := contLeft % 8 + flag 3 (s.cmp.ptp.state = .locked) + flag 4 s.dtm.valid + flag 5 part.isSome
  let e : ItinEntry := ⟨i.next, s.ptpTime, s.timebase, code, flags, part.getD 0, source, status.code, padTo 32 0 subject, []⟩
  let c := shake256 (i.chain ++ e.head)
  { s with crt := { s.crt with itin :=
    { i with entries := ({ e with chain := c } :: i.entries).take 131072, next := i.next + 1, chain := c,
             since := min 4096 (i.since + 1) } } }

/-- The continuation entries of a record: CODE 0x0000 (R505). -/
def State.itinCont (part : Option Nat) (source : Nat) (status : Status) : State → List (List Byte) → State
  | s, [] => s
  | s, b :: bs => State.itinCont part source status (s.itinEntry 0 bs.length part source status b) bs

/-- A record: the lead entry and its continuations (R505). The chain begins at GENESIS (R507): in BLANK nothing is recorded. -/
def State.itinRecord (s : State) (code : Nat) (part : Option Nat) (source : Nat) (status : Status)
    (subject : List Byte) (conts : List (List Byte)) : State :=
  if s.crt.lc = .blank then s else State.itinCont part source status (s.itinEntry code conts.length part source status subject) conts

/-- Entries not yet exported (R510, R511). -/
def State.unexported (s : State) : Nat := s.crt.itin.next - s.crt.itin.acked

/-- The journal is full for commands (R511). -/
def State.itinFull (s : State) : Bool := decide (126976 ≤ s.unexported)

/-- The 64 drift masks, 16 bits each (R176). -/
def State.maskBytes (s : State) (only : Option Nat := none) : List Byte :=
  (List.range 64).flatMap (fun p =>
    leBytes 2 (match only with
      | none => s.dtm.masks.lookD p 0
      | some q => if p = q then s.dtm.masks.lookD p 0 else 0))

/-- The drift snapshot as eight 32-byte blocks: counters in 0 to 3, masks in 4 to 7 (R506). -/
def State.driftBlocks (s : State) : List (List Byte) :=
  pieces 32 8 (s.dtm.drift.flatMap (leBytes 8) ++ s.maskBytes)

/-- A DRIFT_SNAPSHOT record of the device (R176, R506). -/
def State.driftRecord (s : State) : State :=
  match s.driftBlocks with
  | [] => s
  | b :: bs => s.itinRecord 0x0003 none 66 .ok b bs

/-- The serial number and build code of the module EEPROM (R485). -/
def State.serial (s : State) : List Byte := s.cmp.eeprom.readN 0x12 16
def State.buildCode (s : State) : List Byte := s.cmp.eeprom.readN 0x10 2
def State.partNumber (s : State) : List Byte := s.cmp.eeprom.readN 0 16

/-- The journal has room for n more entries, and for the GAP record where one is due (R511). -/
def State.itinRoom (s : State) (n : Nat) : Bool := s.unexported + n + (if 0 < s.crt.itin.gap then 1 else 0) ≤ 131072

/-- The GAP record with the number of events lost, once there is room: the first entry written (R511). -/
def State.itinGap (s : State) : State :=
  let i := s.crt.itin
  if 0 < i.gap then
    let s := s.itinRecord 0x0005 none 66 .ok (leBytes 8 i.gap) []
    { s with crt := { s.crt with itin := { s.crt.itin with gap := 0 } } }.notify .itinGap .ok none 0 i.gap
  else s

/-- ITIN_HIGH when unexported entries reach 98,304 (R511). -/
def State.itinHigh (s : State) : State :=
  if 98304 ≤ s.unexported && !s.crt.itin.high then
    { s with crt := { s.crt with itin := { s.crt.itin with high := true } } }.notify .itinHigh .ok none 0 s.unexported
  else s

/-- Takes a checkpoint (R508): DRIFT_SNAPSHOT, CHECKPOINT, the signed body into the table of 1,024. -/
def State.checkpoint (s : State) : State :=
  let s := s.itinGap.driftRecord
  let n := s.crt.itin.ckptNext
  let seq := s.crt.itin.next
  let s := s.itinRecord 0x0002 none 66 .ok (leBytes 8 n ++ leBytes 8 seq) []
  let i := s.crt.itin
  let body := leBytes 8 n ++ leBytes 8 seq ++ padTo 64 0 i.chain ++ leBytes 8 s.timebase ++ leBytes 8 s.ptpTime ++
    padTo 32 0 s.serial
  let sig := match s.crt.loaded with
    | some key => Config.ed448Sign key (ascii "PQ2480-ITIN") body
    | none => []
  let c : Checkpoint := ⟨n, padTo 256 0 (body ++ padTo 114 0 sig)⟩
  { s with crt := { s.crt with itin := { i with ckpts := (c :: i.ckpts).take 1024, ckptNext := n + 1, since := 0 } } }.itinHigh

/-- What follows an appended record: ITIN_HIGH (R511), a checkpoint after 4,096 entries (R508), which takes nine and waits for room. -/
def State.itinAfter (s : State) : State :=
  let s := s.itinHigh
  if 4096 ≤ s.crt.itin.since && s.itinRoom 9 then s.checkpoint else s

/-- Appends a record where the journal has room; otherwise it is lost and counted. A GAP record comes first when room has returned
(R511). -/
def State.itinAppend (s : State) (code : Nat) (part : Option Nat) (source : Nat) (status : Status) (subject : List Byte)
    (conts : List (List Byte)) : State :=
  if s.itinRoom (conts.length + 1) then (s.itinGap.itinRecord code part source status subject conts).itinAfter
  else
    let i := s.crt.itin
    { s with crt := { s.crt with itin := { i with lost := satInc i.lost, gap := i.gap + 1 } } }

/-- Appends the record of a command that completed (R506): SUBJECT holds operand words 1 to 4, then continuations. -/
def State.itinCommand (s : State) (code : Nat) (part : Option Nat) (source : Nat) (status : Status) (words : List Word)
    (conts : List (List Byte)) : State :=
  s.itinAppend code part source status (wordBytes (padTo 4 0 words)) (conts.take 7)

/-- A device event (R506, R511). -/
def State.itinEvent (s : State) (code : Nat) (part : Option Nat) (status : Status) (subject : List Byte)
    (conts : List (List Byte) := []) : State := s.itinAppend code part 66 status subject conts

/-- A device event that also raises a notice: the Itinerary entry has the notice's code, SUBJECT and DETAIL (R506). -/
def State.notifyRecorded (s : State) (n : Notice) (st : Status) (part : Option Nat) (subject detail : Nat)
    (o : Origin := .hub) (addr : Nat := 0) : State :=
  (s.notify n st part subject detail o addr).itinEvent n.code part st (leBytes 8 subject ++ leBytes 8 detail)

/-- A DRIFT_SNAPSHOT record by itself (R176). -/
def State.driftEvent (s : State) : State :=
  match s.driftBlocks with
  | [] => s
  | b :: bs => s.itinEvent 0x0003 none .ok b bs

/-- A SHAKE256 digest as the continuation blocks of a record (R505). -/
def digestBlocks (d : List Byte) : List (List Byte) := pieces 32 2 (padTo 64 0 d)

/-! ### Drift counters (R175, R176) -/

/-- Sets bit k of a partition's mask; the first setting raises DRIFT_FIRST. -/
def State.driftMask (k : Nat) (s : State) (p : Nat) : State :=
  let m := s.dtm.masks.lookD p 0
  if m.testBit k then s
  else { s with dtm := { s.dtm with masks := s.dtm.masks.put p (m + 2 ^ k) } }.notify .driftFirst .ok (some p) p k

/-- Counts cause k once if any partition concerned is a Datum partition, and sets the bit of each such one. -/
def State.drift (s : State) (k : Nat) (concerned : List Nat) : State :=
  match concerned.filter s.partDatum with
  | [] => s
  | ps =>
    let s := { s with dtm := { s.dtm with drift := s.dtm.drift.modify k (fun c => satInc c) } }
    ps.foldl (State.driftMask k) s

/-- Every Datum partition. -/
def State.datumParts (s : State) : List Nat := (List.range 64).filter s.partDatum

/-! ### KCI commands (R468 to R472) -/

/-- What running a command gives: the new state, its status and RESULT words, the items it still waits for, the
continuation blocks of its Itinerary record, and whether it enters the record although its status is not OK. -/
structure KRes where
  st     : State
  status : Status := .ok
  result : List Word := []
  keys   : List Nat := []
  cont   : List (List Byte) := []
  record : Bool := false

/-- A command that is turned away: its status, and nothing changed (R521). -/
def KRes.fail (s : State) (st : Status) : KRes := { st := s, status := st }

/-- The first of the checks that fails gives the status; otherwise go on. -/
def KRes.check (s : State) (checks : List (Bool × Status)) (go : Unit → KRes) : KRes :=
  match checks.find? (·.1) with
  | some (_, st) => .fail s st
  | none => go ()

def State.setInflight (s : State) (l : List InFlight) : State := { s with cmp := { s.cmp with inflight := l } }

/-- Whether a record of a command in flight belongs to a source and tag. -/
def InFlight.sameTag (r : InFlight) (src : Source) (tag : BitVec 16) : Bool := r.src = src && r.tag = tag

/-- The status that acceptance gives a descriptor, if a check fails (R469): TAG_BUSY first, then the opcode, the reserved
bits of word 0, the VF's partition. -/
def State.acceptCheck (s : State) (src : Source) (tag : BitVec 16) (opcode : Nat) (known reserved : Bool) : Option Status :=
  if s.cmp.inflight.any (fun r => r.sameTag src tag) then some .tagBusy
  else if !known then some .badOpcode
  else if reserved then some .badOperand
  else match src with
    | .vf v => if s.partExists (v - 1) || opcode = 0x0101 || opcode = 0x0201 then none else some .partInvalid
    | _ => none

/-- The record of a command that runs although it was not read from a ring: it enters flight as acceptance would have it. -/
def State.enter (s : State) (k : Kci) (opcode : Nat) : State :=
  let st := s.acceptCheck k.src k.tag opcode true false
  let r : InFlight := { src := k.src, mbox := k.mbox, tag := k.tag, opcode := opcode, part := k.part, words := k.words,
                        accepted := s.timebase, zero := s.dtm.tbZero, direct := true,
                        stage := if st.isSome then .done else .waiting, status := st.getD .ok, dup := st = some .tagBusy, immediate := st.isSome }
  s.setInflight (s.cmp.inflight ++ [r])

/-- Whether a record is the waiting command k with this opcode. -/
def InFlight.isFor (r : InFlight) (k : Kci) (opcode : Nat) : Bool :=
  r.sameTag k.src k.tag && r.mbox = k.mbox && r.opcode = opcode && r.stage = .waiting

/-- The core cycle in which the command now running was accepted: the record's timebase value, in its epoch (R469). -/
def State.acceptedAt (s : State) (k : Kci) (opcode : Nat) : Nat :=
  match s.cmp.inflight.find? (fun r => r.isFor k opcode) with
  | some r => min (r.zero + r.accepted) s.now
  | none => s.now

/-- The command now running was accepted before the last start barrier (R174). -/
def State.pastEpoch (s : State) (k : Kci) (opcode : Nat) : Bool :=
  match s.cmp.inflight.find? (fun r => r.isFor k opcode) with
  | some r => r.zero ≠ s.dtm.tbZero
  | none => false

/-- Changes the first record that satisfies p. -/
def adjFirst {α : Type} (p : α → Bool) (f : α → α) : List α → List α
  | [] => []
  | x :: xs => if p x then f x :: xs else x :: adjFirst p f xs

/-- A full journal turns away a command that would add an entry; the 0x0Cxx and 0x0Dxx commands have the reserve, and where it is
full too only ITIN_EXPORT_ACK goes on, which makes room (R511, log 84). -/
def State.journalStops (s : State) (opcode : Nat) (records : Bool) : Bool :=
  records && s.itinFull && ((opcode / 256 ≠ 0xC && opcode / 256 ≠ 0xD) || (!s.itinRoom 8 && opcode ≠ 0x0C04))

/-- Replaces the entry of the configuration record for the same object: the same opcode and the same n first operand words,
which name the object (R502). -/
def State.config (s : State) (opcode : Nat) (words : List Word) (n : Nat := 1) : State :=
  let key := fun (e : ConfigEntry) => e.opcode = opcode && e.words.take n = words.take n
  { s with cmp := { s.cmp with config := s.cmp.config.filter (fun e => !key e) ++ [⟨opcode, words⟩] } }

/-- Removes the entries of the configuration record that a test selects. -/
def State.unconfig (s : State) (p : ConfigEntry → Bool) : State :=
  { s with cmp := { s.cmp with config := s.cmp.config.filter (fun e => !p e) } }

/-- Commands whose chapters have their entry carry all operands (R327, R358, R379, R402, R434, R458, R538). -/
def recordsOperands (opcode : Nat) : Bool := opcode = 0x0220 || [3, 4, 8, 9, 13, 14, 15].contains (opcode / 256)

/-- The operand words after the fourth, as continuations of a record (R505, R506). -/
def operandConts (words : List Word) : List (List Byte) :=
  (pieces 32 (ceilDiv (words.length - 4) 4) (wordBytes (words.drop 4))).map (padTo 32 0)

/-- What a KCI command leaves (R469 to R472, R502, R506): its effects in force, the configured object in the configuration record
where it set one, and its record with what the completion will carry; a command that still waits for items is running. -/
def kciEnd (opcode : Nat) (k : Kci) (records conf : Bool) (key : Nat) (r : KRes) : State :=
  let ok := r.status = .ok || r.record
  let s := if conf && ok then r.st.config opcode k.words key else r.st
  s.setInflight (adjFirst (fun x => x.isFor k opcode)
    (fun x => { x with stage := if r.keys.isEmpty then .done else .running r.keys, status := r.status, result := r.result,
                       immediate := r.keys.isEmpty, old := false,
                       itin := if records && ok then some ((if recordsOperands opcode then operandConts k.words else []) ++ r.cont) else none })
    s.cmp.inflight)

/-- A command is held while Compass does not run, or a surveyor it goes through restarts (R28, R486). -/
def State.kciHeld (s : State) (regions dies : List Nat) : Bool :=
  s.cmp.state ≠ .ready || regions.any (fun r => (s.lay.region.lookD r {}).restarting || (s.lay.quad.lookD (r / 8) {}).restarting) ||
    dies.any (fun d => (s.lay.quad.lookD d {}).restarting)

/-- The Itinerary ring is full of entries that are not yet durable (R509). -/
def State.ringFull (s : State) : Bool := decide (65536 ≤ s.crt.itin.next - s.crt.itin.durable)

/-- The commands that append their own entries as they run: they wait while the ring is full; every other one waits with its record
before its completion (R509). -/
def appendsNow (opcode : Nat) : Bool := [0x0111, 0x0114, 0x0117, 0x0509, 0x0C05, 0x0E03, 0x0E04].contains opcode

/-- A command accepted earlier has not taken effect yet: this one waits for it (R471). -/
def State.kciBehind (s : State) (k : Kci) (opcode : Nat) : Bool :=
  (s.cmp.inflight.takeWhile (fun r => !r.isFor k opcode)).any (fun r => r.stage = .waiting)

/-- Runs a KCI command (R469 to R472, R487): it is held, or it takes effect as one commit. `records`: the command adds an
Itinerary entry of its own code when it changes something. `conf`: it sets a configured object, which its first `key` operand
words name. `regions` and `dies`: the surveyors it goes through. -/
def kciRun (opcode : Nat) (k : Kci) (s : State) (body : State → KRes) (records : Bool := true) (conf : Bool := false) (key : Nat := 1)
    (regions : List Nat := []) (dies : List Nat := []) : State :=
  let s := if s.cmp.inflight.any (fun r => r.isFor k opcode) then s else s.enter k opcode
  if s.kciHeld regions dies || s.kciBehind k opcode || (appendsNow opcode && s.ringFull) then s
  else if s.cmp.inflight.any (fun r => r.isFor k opcode) then
    let r := body s
    kciEnd opcode k records conf key (if s.journalStops opcode records && (r.status = .ok || r.record) then KRes.fail s .noResources else r)
  else s

/-- Takes an item off every running command of an opcode that waits for it; a command with no item left is done. A status
other than OK is kept. -/
def State.progress (s : State) (opcode key : Nat) (st : Status := .ok) (result : List Word := []) : State :=
  s.setInflight (s.cmp.inflight.map (fun x =>
    match x.stage with
    | .running keys =>
      if x.opcode = opcode && keys.contains key then
        let rest := keys.filter (· ≠ key)
        { x with stage := if rest.isEmpty then .done else .running rest,
                 status := if st = .ok then x.status else st,
                 result := if result.isEmpty then x.result else result }
      else x
    | _ => x))

end Sys2Proof.Machine
end

