-- ==== Sys2Proof/Machine/PlatCore.lean ====
section
/-! DEFINITION. Plat pools: accounts, allocation, free, levels (R450 to R457). -/

namespace Sys2Proof.Machine

/-! ### Pools as after reset (R450) -/

/-- SPILL_SIZE in buffers as after reset: 4 GiB in 4 KiB (R350). -/
def spillDefault : Nat := 1048576

/-- Pool p of a die as after reset. -/
def poolReset (p : Nat) : Pool :=
  match p with
  | 0 => { total := 65536, ring := [(0, 65536)], owners := 32, dflt := 2048, cap := some 2048 }
  | 1 => { total := 131072, ring := [(0, 131072)], owners := 256, dflt := 512, cap := some 512 }
  | 2 => { total := 16384, ring := [(0, 16384)], owners := 0, dflt := 0, thresh := [0x80, 0x40, 0x20] }
  | 3 => { total := 16384, ring := [(0, 16384)], owners := 64, dflt := 64 }
  | 4 => { total := 8192, ring := [(0, 8192)], owners := 64, dflt := 64 }
  | 5 => { total := 8192, ring := [(0, 8192)], owners := 261, dflt := 8 }
  | 6 => { total := 8192, ring := [(0, 8192)], owners := 0, dflt := 0 }
  | _ => { total := spillDefault, ring := [(0, spillDefault)], owners := 256, dflt := 1, cap := some (spillDefault / 256) }

/-- The pools by name (R450). -/
def poolRx : Nat := 0
def poolOut : Nat := 1
def poolHeadroom : Nat := 2
def poolReorder : Nat := 3
def poolSheet : Nat := 4
def poolMemreq : Nat := 5
def poolCollation : Nat := 6
def poolSpill : Nat := 7

def State.pool (s : State) (d p : Nat) : Pool := s.plt.pools.lookD (8 * d + p) (poolReset p)
def State.setPool (s : State) (d p : Nat) (x : Pool) : State := { s with plt := { s.plt with pools := s.plt.pools.put (8 * d + p) x } }

/-! ### Accounts (R451) -/

/-- R_o without an override. -/
def Pool.base (x : Pool) (o : Nat) : Nat := if o < x.owners then x.dflt else 0
def Pool.reserveOf (x : Pool) (o : Nat) : Nat := x.reserve.lookD o (x.base o)
def Pool.usedOf (x : Pool) (o : Nat) : Nat := x.used.lookD o 0
def Pool.capOf (x : Pool) (o : Nat) : Option Nat :=
  match x.caps.look o with
  | some c => some c
  | none => x.cap

/-- F. -/
def Pool.freeCount (x : Pool) : Nat := (x.ring.map (fun r => r.2 - r.1)).foldl (· + ·) 0

/-- Σ R_o. -/
def Pool.sumReserve (x : Pool) : Nat :=
  x.owners * x.dflt - (x.reserve.map (fun e => x.base e.1)).foldl (· + ·) 0 + (x.reserve.map (·.2)).foldl (· + ·) 0

/-- Σ max(R_o − U_o, 0). -/
def Pool.unusedReserve (x : Pool) : Nat :=
  x.sumReserve - (x.used.map (fun e => min e.2 (x.reserveOf e.1))).foldl (· + ·) 0

/-- The number of indices in ranges. -/
def rangeCount (l : List (Nat × Nat)) : Nat := (l.map (fun r => r.2 - r.1)).foldl (· + ·) 0

/-- Takes the indices [lo, hi) out of ranges. -/
def cutRange (lo hi : Nat) (r : List (Nat × Nat)) : List (Nat × Nat) :=
  r.flatMap (fun (x : Nat × Nat) => [(x.1, min x.2 lo), (max x.1 hi, x.2)].filter (fun y => y.1 < y.2))

/-- The first n indices of ranges. -/
def firstOf : Nat → List (Nat × Nat) → List (Nat × Nat)
  | _, [] => []
  | n, r :: rest => if n = 0 then [] else (r.1, min r.2 (r.1 + n)) :: firstOf (n - (r.2 - r.1)) rest

/-- The ring of a pool that is set to n entries: the lowest indices that no DEGRADED bank took (R448). -/
def Pool.fresh (x : Pool) (n : Nat) : List (Nat × Nat) :=
  firstOf n (x.bad.foldl (fun l b => cutRange b.1 b.2 l) [(0, n + rangeCount x.bad)])

/-- An index lies outside a pool. -/
def Pool.outside (x : Pool) (i : Nat) : Bool := x.total + rangeCount x.bad ≤ i || x.bad.any (fun b => b.1 ≤ i && i < b.2)

/-- C and S. -/
def Pool.shared (x : Pool) : Nat := x.total - x.sumReserve
def Pool.sharedFree (x : Pool) : Nat := x.freeCount - x.unusedReserve

/-! ### Levels (R454) -/

/-- Whether level k holds: it begins at its threshold and clears when S has risen 64 entries above it. -/
def Pool.levelHolds (x : Pool) (k : Nat) : Bool :=
  let t := nth x.thresh (k - 1) 0 * x.shared
  if k ≤ x.level then decide (256 * x.sharedFree < t + 256 * 64) else decide (256 * x.sharedFree ≤ t)

/-- The highest level that holds; a pool without a shared part has none. -/
def Pool.newLevel (x : Pool) : Nat :=
  if x.shared = 0 then 0
  else if x.levelHolds 3 then 3
  else if x.levelHolds 2 then 2
  else if x.levelHolds 1 then 1
  else 0

/-- Stores a pool, with its level and the notices of R454. -/
def State.putPool (s : State) (d p : Nat) (x : Pool) : State :=
  let n := x.newLevel
  let s := s.setPool d p { x with level := n }
  let s := if x.level = 0 && 0 < n then
      ({ s with plt := { s.plt with levels := satInc s.plt.levels } }.tally 0x19050).notify .platLevel .ok none (d + put 4 2 p) 1 (.die d)
    else s
  if p = poolCollation && x.level < 3 && n = 3 then s.notify .platLevel .ok none (d + put 4 2 p) 3 (.die d) else s

/-- Whether a level holds a requester that asks for shared buffers. -/
def Pool.holdsBack (x : Pool) (p : Nat) (cls : Option Nat) : Bool :=
  if p = poolMemreq then
    (match cls with
      | some c => if 2 ≤ c then decide (2 ≤ x.level) else decide (3 ≤ x.level)
      | none => decide (3 ≤ x.level))
  else if p = poolCollation then decide (2 ≤ x.level)
  else false

/-! ### Allocation (R451, R452) -/

/-- Whether an allocation is granted. -/
def Pool.grants (x : Pool) (p : Nat) (w : PlatWait) : Bool :=
  !x.faulted && 0 < x.freeCount && (decide (x.usedOf w.owner < x.reserveOf w.owner) ||
    (0 < x.sharedFree && (match x.capOf w.owner with
      | some c => decide (x.usedOf w.owner < c)
      | none => true) && !x.holdsBack p w.cls))

/-- Whether it is a level that keeps an allocation waiting (R455). -/
def Pool.heldByLevel (x : Pool) (p : Nat) (w : PlatWait) : Bool :=
  !x.faulted && decide (x.reserveOf w.owner ≤ x.usedOf w.owner) && x.holdsBack p w.cls

/-- Takes the oldest free entry for an owner. -/
def Pool.take (x : Pool) (o : Nat) : Option (Nat × Pool) :=
  match x.ring.filter (fun r => r.1 < r.2) with
  | [] => none
  | (a, b) :: r =>
    some (a, { x with ring := if a + 1 < b then (a + 1, b) :: r else r, held := x.held.put a o, used := x.used.put o (x.usedOf o + 1) })

/-- An allocation: the buffer, if it is granted now. -/
def State.platTake (s : State) (d p : Nat) (w : PlatWait) : Option (Nat × State) :=
  let x := s.pool d p
  if x.grants p w then (x.take w.owner).map (fun r => (r.1, s.putPool d p r.2)) else none

/-- Counts an allocation that a level holds (R455). -/
def State.platHold (s : State) (d p : Nat) (w : PlatWait) : State :=
  if (s.pool d p).heldByLevel p w then
    ({ s with plt := { s.plt with holds := satInc s.plt.holds } }.tally 0x19048).drift 12 (match w.part with
      | some q => [q]
      | none => [])
  else s

/-- A waiting allocation joins those that wait: after all earlier ones, and among those of one cycle by its owner number (R453). -/
def platQueue (l : List PlatWait) (w : PlatWait) : List PlatWait :=
  let later := fun (v : PlatWait) => v.since = w.since && w.owner < v.owner
  l.filter (fun v => !later v) ++ [w] ++ l.filter later

/-- An allocation by the command PLAT_ALLOC: granted, or waiting at its requester. -/
def State.platAlloc (s : State) (d p : Nat) (w : PlatWait) : State :=
  match s.platTake d p w with
  | some (_, s) => s
  | none =>
    let s := s.platHold d p w
    s.setPool d p { s.pool d p with waiting := platQueue (s.pool d p).waiting { w with held := (s.pool d p).heldByLevel p w, since := s.now } }

/-- Grants the first waiting allocation that can be granted (log 41). -/
def State.platGrant (s : State) (d p : Nat) : State :=
  let x := s.pool d p
  match x.waiting.find? (x.grants p) with
  | none => s
  | some w =>
    match s.platTake d p w with
    | some (_, s) => s.setPool d p { s.pool d p with waiting := x.waiting.erase w }
    | none => s

/-! ### Free (R452, R453, R456) -/

/-- A free; the status is DOUBLE_FREE where it is refused. A FAULTED pool accepts none (R457): the free waits. -/
def State.platFree (s : State) (d p o i : Nat) : Status × State :=
  let x := s.pool d p
  if x.faulted then (.ok, s)
  else
    let range := x.outside i
    let clear := (x.held.look i).isNone
    let notHeld := decide (x.usedOf o = 0)
    if range || clear || notHeld then
      let s := { s with plt := { s.plt with doubles := satInc s.plt.doubles, last := ⟨d, p, i % 2 ^ 23, o % 2 ^ 16, range, notHeld, true⟩ } }.tally 0x19040
      let s := s.w1cSet 0x19028 (2 ^ 63)
      (.doubleFree, s.notify .doubleFree .doubleFree none (d + put 4 2 p + put 27 5 i + put 43 28 o) (flag 0 range + flag 1 notHeld) (.die d))
    else
      (.ok, s.putPool d p { x with
        ring := x.ring ++ [(i, i + 1)], held := x.held.del i,
        used := if x.usedOf o = 1 then x.used.del o else x.used.put o (x.usedOf o - 1) })

/-- Frees buffers of an owner. -/
def State.platFreeAll (s : State) (d p o : Nat) (is : List Nat) : State := is.foldl (fun s i => (s.platFree d p o i).2) s

/-- Takes n buffers, or none of them. -/
def State.platTakeN (s : State) (d p : Nat) (w : PlatWait) : Nat → Option (List Nat × State)
  | 0 => some ([], s)
  | n + 1 =>
    match s.platTake d p w with
    | none => none
    | some (i, s) => (State.platTakeN s d p w n).map (fun r => (i :: r.1, r.2))

/-- Raises or lowers a reservation; none where S does not cover the increase (R451). -/
def State.platReserve (s : State) (d p o r : Nat) : Option State :=
  let x := s.pool d p
  if x.reserveOf o < r && x.sharedFree < r - x.reserveOf o then none
  else some (s.putPool d p { x with reserve := x.reserve.put o r })

end Sys2Proof.Machine
end

