-- ==== Sys2Proof/Machine/StkCore.lean ====
section
/-! DEFINITION. Stacked memory: the address map, the 72/64 code, row repair, and memory requests (R404 to R424, R429 to R432, R162 to R165). -/

namespace Sys2Proof.Machine

/-! ### The address map (R407, R410) -/

/-- Blocks of a pseudo-channel. -/
def blocksPerPch : Nat := 183105

/-- The key of a block, and the address of its byte. -/
def blockKey (pch block : Nat) : Nat := blocksPerPch * pch + block
def cellAddr (pch block off : Nat) : Nat := 4096 * blockKey pch block + off

/-- The die of a pseudo-channel, its channel 32s + h, and its controller (R17). -/
def pchDie (q : Nat) : Nat := q / 384
def pchChannel (q : Nat) : Nat := q / 2
def pchController (q : Nat) : Nat := q / 16

/-- The region that holds the controller of a pseudo-channel, as 8d + r: die-local controllers 3r to 3r + 2 (R24). -/
def pchRegion (q : Nat) : Nat := 8 * (q / 384) + q / 16 % 24 / 3

/-- The regions that hold the four controllers of a stack (R17, R24). -/
def stackRegions (stack : Nat) : List Nat := (List.range 4).map (fun k => pchRegion (64 * stack + 16 * k))

def StkRegion.bandSize (g : StkRegion) : Nat := if g.global then 6291456 else 1572864
def StkRegion.size (g : StkRegion) : Nat := g.bands * g.bandSize

/-- stk_map (R410): pseudo-channel, block, unit and byte of an offset in a region. A global region runs over all 24 stacks, so over all
32 regions of control (R25). -/
def StkRegion.map (g : StkRegion) (o : Nat) : Nat × Nat × Nat × Nat :=
  let n := if g.global then 24 else 6
  let s0 := if g.global then 0 else 6 * g.die
  let band := g.first + o / g.bandSize
  let w := o % g.bandSize / 256
  let q := w / n
  let h := (q * 0x9E37 + band * 0x7F4B) % 65521
  let s := s0 + (w % n + h % n) % n
  let c := (q % 64) ^^^ (band % 64)
  (64 * s + c, band, q / 64, o % 256)

/-- The regions of an owner: a partition, or the device at 64. -/
def State.stkRegions (s : State) (o : Nat) : List StkRegion := s.stk.regions.lookD o []

/-- The region that holds n bytes from an address of the owner's view wholly. -/
def State.stkFind (s : State) (o a n : Nat) : Option StkRegion :=
  (s.stkRegions o).find? (fun g => g.vbase ≤ a && a + n ≤ g.vbase + g.size)

/-- Where the bytes from an address inside a region lie. -/
def StkRegion.place (g : StkRegion) (a : Nat) : MemTarget :=
  match g.map (a - g.vbase) with
  | (q, b, u, o) => .stk q b (256 * u + o)

/-- Splits n bytes from a at 256-byte boundaries (R405): address and length of each piece. The fuel bounds the pieces. -/
def splitUnits : Nat → Nat → Nat → List (Nat × Nat)
  | 0, _, _ => []
  | k + 1, a, n => if n = 0 then [] else
      let m := min n (256 - a % 256)
      (a, m) :: splitUnits k (a + m) (n - m)

def pieces256 (a n : Nat) : List (Nat × Nat) := splitUnits (n / 256 + 2) a n

/-! ### Repair (R418 to R420) -/

def State.pch (s : State) (q : Nat) : Pch := s.stk.pchs.lookD q {}
def State.setPch (s : State) (q : Nat) (x : Pch) : State := { s with stk := { s.stk with pchs := s.stk.pchs.put q x } }
def State.channel (s : State) (ch : Nat) : Channel := s.stk.channels.lookD ch {}
def State.setChannel (s : State) (ch : Nat) (x : Channel) : State := { s with stk := { s.stk with channels := s.stk.channels.put ch x } }

/-- A logical row of 1 KiB: 4 to a block. -/
def rowKey (pch block off : Nat) : Nat := 4 * blockKey pch block + off / 1024
def rowPch (r : Nat) : Nat := r / 4 / blocksPerPch
def rowBlock (r : Nat) : Nat := r / 4 % blocksPerPch

def State.rowLog (s : State) (r : Nat) : RowLog := s.stk.rows.lookD r {}
def State.setRowLog (s : State) (r : Nat) (x : RowLog) : State := { s with stk := { s.stk with rows := s.stk.rows.put r x } }

/-- Free spare rows and reserve blocks of a pseudo-channel (R418, R420). -/
def State.freeSpare (s : State) (q : Nat) : Option Nat := (List.range 64).find? (fun i => !(s.pch q).spares.contains i)
def State.usedReserves (s : State) (q : Nat) : List Nat :=
  (s.stk.retired.filter (fun e => e.1 / blocksPerPch = q)).filterMap (fun e => e.2.reserve)
def State.freeReserve (s : State) (q : Nat) : Option Nat := (List.range 32).find? (fun i => !(s.usedReserves q).contains i)

/-- SUBJECT of a row notice: pseudo-channel [10:0], block [33:16], row of the block [35:34] (log 33). -/
def rowSubject (r : Nat) : Nat := put 10 0 (rowPch r) + put 33 16 (rowBlock r) + put 35 34 (r % 4)

/-- A region in global interleave holds a block position (R420). -/
def State.globalAt (s : State) (b : Nat) : Bool :=
  s.stk.regions.any (fun e => e.2.any (fun g => g.global && g.first ≤ b && b < g.first + g.bands))

/-- Where `Stk.oldBad` keeps the words of a free reserve block of a pseudo-channel. -/
def reserveBase (q j : Nat) : Nat := 2 ^ 50 + 4096 * (32 * q + j)

/-- Retires the block of a row (R420). The copy replaces what the reserve block held. -/
def State.retireBlock (s : State) (r : Nat) : State :=
  let q := rowPch r
  let b := r / 4
  let res := s.freeReserve q
  let old := (s.stk.bad.filter (fun w => w / 4096 = b))
  let gone := fun (w : Nat) => w / 4096 = b || res.any (fun j => w / 4096 = reserveBase q j / 4096)
  let s := { s with stk := { s.stk with retired := s.stk.retired.put b ⟨res, s.globalAt (b % blocksPerPch)⟩, retires := satInc s.stk.retires,
                                        oldBad := s.stk.oldBad.filter (fun w => !gone w) ++ old } }
  (s.tally 0x16058).notifyRecorded .blockRetired .ok none (put 10 0 q + put 33 16 (b % blocksPerPch)) (s.rowLog r).fails (.region (pchRegion q))

/-- Remaps a row to a spare, or retires its block on the third failure or where no spare is free (R418 to R420). -/
def State.repairRow (s : State) (r : Nat) : State :=
  let q := rowPch r
  match s.freeSpare q with
  | none => s.retireBlock r
  | some i =>
    if 3 ≤ (s.rowLog r).fails && (s.stk.retired.look (r / 4)).isNone then s.retireBlock r
    else
      let s := s.setPch q { s.pch q with spares := (s.pch q).spares ++ [i] }
      let s := s.setRowLog r { s.rowLog r with home := .spare i }
      ({ s with stk := { s.stk with remaps := satInc s.stk.remaps } }.tally 0x16050).notifyRecorded .rowRemapped .ok none (rowSubject r)
        (s.rowLog r).fails (.region (pchRegion q))

/-- A row triggers R418: its failure count rises, and its repair is due (R419). -/
def State.triggerRow (s : State) (r : Nat) : State :=
  let q := rowPch r
  let s := s.setRowLog r { s.rowLog r with fails := (s.rowLog r).fails + 1 }
  if (s.pch q).due.contains r then s else s.setPch q { s.pch q with due := (s.pch q).due ++ [r] }

/-- Maintenance occupies a pseudo-channel from now for a free number of cycles up to a bound: it takes the slot (R413, R418, R422,
log 42). -/
def State.maintain (s : State) (q most : Nat) : State :=
  let x := s.pch q
  let idle := if x.slots.isEmpty then 0 else min 64 ((s.now - x.last) / 15 - 1)
  let n := Config.freeNat s.free % (most + 1)
  { s with free := s.free + 1 }.setPch q { x with slots := (4 :: (List.replicate idle 4 ++ x.slots)).take 64, last := s.now,
                                                  busy := max x.busy (s.now + n) }

/-- Whether the block of a row that is due a repair is to be retired for it (R420). -/
def State.retiring (s : State) (r : Nat) : Bool :=
  ((s.freeSpare (rowPch r)).isNone || 3 ≤ (s.rowLog r).fails) && (s.stk.retired.look (r / 4)).isNone

/-- Runs the repair copies that are due on a pseudo-channel: where a remap and a retirement meet in one block, the retirement
is applied (R420). -/
def State.repairDue (s : State) (q : Nat) : State :=
  let rs := (s.pch q).due
  let s := s.setPch q { s.pch q with due := [] }
  let retiring := rs.filter s.retiring
  let rs := rs.filter (fun r => if retiring.any (fun x => x / 4 = r / 4) then retiring.find? (fun x => x / 4 = r / 4) = some r else true)
  rs.foldl State.repairRow s

/-- The end of a slot of a pseudo-channel: outside Datum scheduling the repairs that it triggered are made, and the copies stall the
pseudo-channel for at most 240 cc; under it they wait for the channel's next scheduled window (R418). -/
def State.repairSlot (s : State) (q : Nat) : State :=
  if s.anyDatum || (s.pch q).due.isEmpty then s else (s.repairDue q).maintain q 240

/-! ### The code (R416) -/

/-- Words of a piece, by their cell address. -/
def pieceWords (a n : Nat) : List Nat := if n = 0 then [] else (List.range ((a + n - 1) / 8 - a / 8 + 1)).map (fun i => (a / 8 + i) * 8)

/-- A corrected error of a row counts in the controller's table of 256 rows (R418). -/
def State.countRow (s : State) (r : Nat) : State :=
  let k := pchController (rowPch r)
  let t := s.stk.ceTable.lookD k []
  let n := ((t.find? (fun e => e.1 = r)).map (·.2)).getD 0 + 1
  let rest := t.filter (fun e => e.1 ≠ r)
  if s.stk.ceThresh ≤ n then { s with stk := { s.stk with ceTable := s.stk.ceTable.put k rest } }.triggerRow r
  else { s with stk := { s.stk with ceTable := s.stk.ceTable.put k (((r, n) :: rest).take 256) } }

/-- STK_ECC_ADDR of a word (R435). -/
def eccWord (w : Nat) : Nat :=
  let b := w / 4096
  put 10 0 (b / blocksPerPch) + put 33 16 (b % blocksPerPch) + put 42 34 (w % 4096 / 8)

/-- A correctable word: corrected, counted, written back in a later maintenance slot (R416). -/
def State.correctWord (s : State) (w : Nat) : State :=
  let q := w / 4096 / blocksPerPch
  let s := { s with stk := { s.stk with corr := satInc s.stk.corr } }.tally 0x16040
  let s := if (s.pch q).fixes.contains w then s else s.setPch q { s.pch q with fixes := (s.pch q).fixes ++ [w] }
  s.countRow (w / 1024)

/-- An uncorrectable word that a request read: recorded, counted, noticed; its row is repaired (R416, R418). -/
def State.badWord (s : State) (w : Nat) : State :=
  let s := { s with stk := { s.stk with uncorr := satInc s.stk.uncorr, eccAddr := eccWord w, eccValid := true } }.tally 0x16048
  let s := s.w1cSet 0x16020 (2 ^ 63)
  let s := s.notify .stkUncorrectable .uncorrectable none (eccWord w) 0 (.region (pchRegion (w / 4096 / blocksPerPch))) (eccWord w)
  s.triggerRow (w / 1024)

/-- Words found in error join the stored errors: word address, and true where uncorrectable. -/
def State.newErrors (s : State) (es : List (Nat × Bool)) : State :=
  let add := fun (l : List Nat) (w : Nat) => if l.contains w then l else l ++ [w]
  { s with stk := { s.stk with
      bad := (es.filter (·.2)).foldl (fun l e => add l e.1) s.stk.bad,
      soft := ((es.filter (fun e => !e.2 && !s.stk.bad.contains e.1)).foldl (fun l e => add l e.1) s.stk.soft).filter
        (fun w => !es.contains (w, true)) } }

/-- What a read of a pseudo-channel that met these words gives: corrections, and UNCORRECTABLE; then the repairs they trigger. -/
def State.checkWords (s : State) (q : Nat) (bad soft : List Nat) : Status × State :=
  let s := soft.foldl State.correctWord s
  (if bad.isEmpty then .ok else .uncorrectable, (bad.foldl State.badWord s).repairSlot q)

/-- A block that was retired without a copy (R420). -/
def State.blockGone (s : State) (q b : Nat) : Bool :=
  match s.stk.retired.look (blockKey q b) with
  | some x => x.reserve.isNone
  | none => false

/-- The channel of a pseudo-channel has FAILED (R423). -/
def State.chFailed (s : State) (q : Nat) : Bool := (s.channel (pchChannel q)).state = .failed

/-- The status that a request to a block has before any word is looked at. -/
def State.blockStatus (s : State) (q b : Nat) : Status :=
  if s.blockGone q b then .pageRetired else if s.chFailed q then .uncorrectable else .ok

/-- Writes bytes into a block: whole words replace words and check bits; a partly written uncorrectable word keeps its bits. -/
def Stk.store (k : Stk) (q b off : Nat) (bs : List Byte) : Stk :=
  let a := cellAddr q b off
  let ws := pieceWords a bs.length
  let whole := ws.filter (fun w => a ≤ w && w + 8 ≤ a + bs.length)
  let keep := ws.filter (fun w => k.bad.contains w && !whole.contains w)
  let m := (List.range bs.length).foldl (fun (m : Memory) i =>
    if keep.contains ((a + i) / 8 * 8) then m else m.write (a + i) (nth bs i 0)) k.mem
  { k with mem := m, bad := k.bad.filter (fun w => !whole.contains w), soft := k.soft.filter (fun w => !ws.contains w || keep.contains w) }

/-- A whole access by a command that is one step of its own (log 43): the status and the bytes. -/
def State.stkRead (s : State) (q b off n : Nat) : Status × List Byte × State :=
  match s.blockStatus q b with
  | .ok =>
    let a := cellAddr q b off
    let ws := pieceWords a n
    let (st, s) := s.checkWords q (ws.filter s.stk.bad.contains) (ws.filter s.stk.soft.contains)
    (st, s.stk.mem.readN a n, s)
  | st => (st, [], s)

def State.stkWrite (s : State) (q b off : Nat) (bs : List Byte) : Status × State :=
  match s.blockStatus q b with
  | .ok => (.ok, { s with stk := s.stk.store q b off bs })
  | st => (st, s)

/-- The pieces of n bytes of an owner's view, each with its offset and length; none where one lies in no region of the owner. -/
def State.viewPieces (s : State) (owner a n : Nat) : Option (List (MemTarget × Nat × Nat)) :=
  (pieces256 a n).mapM (fun x => (s.stkFind owner x.1 x.2).map (fun g => (g.place x.1, x.1 - a, x.2)))

/-- The same of one unit, which must lie wholly within one region (R410). -/
def State.viewUnit (s : State) (owner a n : Nat) : Option (List (MemTarget × Nat × Nat)) :=
  if n = 0 || (s.stkFind owner a n).isSome then s.viewPieces owner a n else none

/-- Reads n bytes of an owner's view piece by piece: ADDR_RANGE where they do not all lie in its regions. -/
def State.viewRead (s : State) (owner a n : Nat) : Status × List Byte × State :=
  match s.viewPieces owner a n with
  | none => (.addrRange, [], s)
  | some ps =>
    ps.foldl (fun (r : Status × List Byte × State) p =>
      match p.1 with
      | .stk q b off =>
        let (st, bs, s) := r.2.2.stkRead q b off p.2.2
        (if r.1 = .ok then st else r.1, r.2.1 ++ (if bs.isEmpty then List.replicate p.2.2 0 else bs), s)
      | _ => r) (.ok, [], s)

/-- The same of one unit (R410). -/
def State.unitRead (s : State) (owner a n : Nat) : Status × List Byte × State :=
  if (s.viewUnit owner a n).isNone then (.addrRange, [], s) else s.viewRead owner a n

/-- Writes bytes of an owner's view. -/
def State.viewWrite (s : State) (owner a : Nat) (bs : List Byte) : Status × State :=
  match s.viewPieces owner a bs.length with
  | none => (.addrRange, s)
  | some ps =>
    ps.foldl (fun (r : Status × State) p =>
      match p.1 with
      | .stk q b off =>
        let (st, s) := r.2.stkWrite q b off ((bs.drop p.2.1).take p.2.2)
        (if r.1 = .ok then st else r.1, s)
      | _ => r) (.ok, s)

/-! ### Padding (R162, R165) -/

/-- The padded cycle of a Datum request that leaves now: none outside Datum mode. The count is that of the core clock. -/
def State.padOf (s : State) (r : MemReq) : Option Nat :=
  match r.part with
  | some p =>
    if !s.partDatum p then none
    else match r.target with
      | .pinned _ _ => some (s.now + 128)
      | .far _ _ => some (s.now + 3750)
      | .stk q _ _ =>
        let per := 2 ^ s.dtm.period
        let c := s.timebase
        let o := 4096 * pchChannel q
        -- the window that began last, and the one that comes next
        let w1 := (c + per - o % per) / per * per + o % per
        let w0 := w1 - per
        let hit := fun w => decide (o % per ≤ w ∧ c < w + 2813 ∧ w < c + 788)
        if hit w0 then some (s.now + (w0 + 2813 + 788) - c)
        else if hit w1 then some (s.now + (w1 + 2813 + 788) - c)
        else some (s.now + 788)
  | none => none

/-! ### Requests (R405, R413, R414) -/

def State.setReqs (s : State) (l : List MemReq) : State := { s with stk := { s.stk with reqs := l } }
def State.setReq (s : State) (r : MemReq) : State := s.setReqs (s.stk.reqs.map (fun x => if x.id = r.id then r else x))
def State.req (s : State) (id : Nat) : Option MemReq := s.stk.reqs.find? (fun r => r.id = id)

def MemReq.atPch (r : MemReq) (q : Nat) : Bool :=
  match r.target with
  | .stk p _ _ => p = q
  | _ => false

def MemReq.atFar (r : MemReq) (p : Nat) : Bool :=
  match r.target with
  | .far q _ => q = p
  | _ => false

/-- Drops a request that no one waits for and that holds no queue entry. -/
def State.dropReq (s : State) (id : Nat) : State :=
  s.setReqs (s.stk.reqs.filter (fun r => !(r.id = id && !r.queued && (match r.stage with
    | .complete _ => true
    | _ => false))))

/-- Whether the queue of a pseudo-channel has an entry for a class: 64 are LATENCY's, 32 SYNC's, the rest shared (R414). -/
def State.entryFree (s : State) (q cls : Nat) : Bool :=
  let l := s.stk.reqs.filter (fun r => r.queued && r.atPch q)
  let n := fun c => (l.filter (fun r => r.cls = c)).length
  let shared := (n 0 - 64) + (n 1 - 32) + n 2 + n 3
  (cls = 0 && n 0 < 64) || (cls = 1 && n 1 < 32) || shared < 416

/-- A read whose lines are all held in adder slots of its controller: it needs no DRAM access (R415). -/
def State.slotServes (s : State) (r : MemReq) : Bool :=
  match r.target with
  | .stk q b off =>
    let a := cellAddr q b off
    let held := s.stk.adders.lookD (pchController q) []
    !r.write && 0 < r.len && (List.range ((a + r.len - 1) / 64 - a / 64 + 1)).all (fun i => held.any (fun x => x.addr = (a / 64 + i) * 64 && x.got = some .ok))
  | _ => false

/-- A request reaches its controller behind those that are there: it takes a queue entry, its write is made and visible, the data of
its read is that of this order (R134, R413); a read of held lines is served from their slots (R415). A write is complete at its
acceptance, or at its padded cycle. -/
def State.reach (s : State) (r : MemReq) : State :=
  let s := s.setReqs (s.stk.reqs.filter (fun x => x.id ≠ r.id) ++ [r])
  let r := { r with left := s.now, pad := s.padOf r, queued := true, buffer := none }
  match r.target with
  | .stk q b off =>
    match s.blockStatus q b with
    | .ok =>
      if r.write then
        { s with stk := s.stk.store q b off r.data }.setReq { r with stage := if r.pad.isSome then .held .ok else .complete .ok }
      else if s.slotServes r then s.setReq { r with data := s.stk.mem.readN (cellAddr q b off) r.len, queued := false, stage := .served }
      else
        let a := cellAddr q b off
        let ws := pieceWords a r.len
        s.setReq { r with data := s.stk.mem.readN a r.len, badAt := ws.filter s.stk.bad.contains,
                          softAt := ws.filter s.stk.soft.contains, stage := .out }
    | st => s.setReq { r with queued := false, stage := if r.write then (if r.pad.isSome then .held st else .complete st) else .served }
  | _ => s.setReq { r with stage := .out }

/-- Every port of a die has stopped taking requests of a class (R414, R454): at level 1 of the MEMREQ pool the classes of which a
request waits in a buffer, from level 2 on BULK and SPILL, at level 3 all of them. -/
def State.memStopped (s : State) (die cls : Nat) : Bool :=
  let level := (s.pool die poolMemreq).level
  3 ≤ level || (2 ≤ level && 2 ≤ cls) ||
    (1 ≤ level && s.stk.reqs.any (fun r => r.die = die && r.cls = cls && r.stage = .atPort && r.buffer.isSome))

/-- A request leaves its port where it can: its port has taken it or takes it now, its pseudo-channel has an entry for it and no
older request of its class waits. -/
def State.leave (s : State) (id : Nat) : State :=
  match s.req id with
  | none => s
  | some r =>
    match r.target with
    | .stk q _ _ =>
      let older := (s.stk.reqs.takeWhile (fun x => x.id ≠ id)).any (fun x => x.stage = .atPort && x.atPch q && x.cls = r.cls)
      if (s.slotServes r || s.entryFree q r.cls) && !older && (r.buffer.isSome || !s.memStopped r.die r.cls) then
        let s := match r.buffer with
          | some i => (s.platFree r.die poolMemreq r.port i).2
          | none => s
        s.reach r
      else s
    | _ => s.reach r

/-- A request that has written nothing yet: it has not left its port, or waits in the queue of a far port (R126, R431). -/
def MemReq.unsent (r : MemReq) : Bool :=
  r.stage = .atPort || (r.queued && r.stage = .out && (match r.target with
    | .far _ _ => true
    | _ => false))

/-- The unsent requests that a test selects are dropped (R103, R126). -/
def State.memCancel (s : State) (p : MemReq → Bool) : State :=
  let s := (s.stk.reqs.filter (fun r => r.unsent && p r)).foldl (fun s r => match r.buffer with
    | some i => (s.platFree r.die poolMemreq r.port i).2
    | none => s) s
  s.setReqs (s.stk.reqs.filter (fun r => !(r.unsent && p r)))

/-- The allocation of a request at its port. -/
def MemReq.wait (r : MemReq) : PlatWait := { owner := r.port, part := r.part, cls := some r.cls }

/-- A port that is not stopped takes a request that cannot leave into a buffer of the MEMREQ pool (R414). -/
def State.memTake (s : State) (r : MemReq) : State :=
  if s.memStopped r.die r.cls then s
  else match s.platTake r.die poolMemreq r.wait with
    | some (i, s) => s.setReq { r with buffer := some i }
    | none => s

/-- A request that a level of the pool holds at its port counts, with PLAT_THRESHOLD (R175, R455). -/
def State.portStop (s : State) (r : MemReq) : State :=
  ({ s with plt := { s.plt with holds := satInc s.plt.holds } }.tally 0x19048).drift 12 r.part.toList

/-- A request that could not leave at once waits in a buffer, or at its requester while its port is stopped or has no buffer for
it; a Datum request counts STK_BACKPRESSURE, and one that a level of the pool holds counts, with PLAT_THRESHOLD (R163, R175, R414,
R455). -/
def State.portWait (s : State) (id : Nat) : State :=
  match s.req id with
  | some r =>
    if r.stage = .atPort then
      let stop := s.memStopped r.die r.cls
      let s := (s.drift 5 r.part.toList).memTake r
      if stop then s.portStop r
      else if (s.req id).any (·.buffer.isNone) then s.platHold r.die poolMemreq r.wait
      else s
    else s
  | none => s

/-! ### Far ports (R428 to R433) -/

def State.farPort (s : State) (p : Nat) : FarPort := s.far.ports.lookD p {}
def State.setFarPort (s : State) (p : Nat) (x : FarPort) : State := { s with far := { s.far with ports := s.far.ports.put p x } }

/-- A far-tier request ends with TARGET_LOST, in a Datum partition at its padded cycle; past it, it ends now and counts
FAR_PAD_OVERRUN (R162, R163, R433). -/
def State.farLose (s : State) (r : MemReq) : State :=
  let s := { s with far := { s.far with lost := satInc s.far.lost } }.tally 0x17048
  let s := match r.pad with
    | some p => if p < s.now then s.drift 1 r.part.toList else s
    | none => s
  s.setReq { r with queued := false, stage := match r.pad with
    | some p => if p ≤ s.now then .complete .targetLost else .held .targetLost
    | none => .complete .targetLost }

/-- A request whose address no region or window of its partition holds any more: it ends with TARGET_LOST, in a Datum partition at its
padded cycle (R22, R162). -/
def State.memLost (s : State) (r : MemReq) : State :=
  let r := { r with id := s.stk.next, left := s.now }
  let r := { r with pad := s.padOf r }
  let s : State := { s with stk := { s.stk with next := r.id + 1, reqs := s.stk.reqs ++ [r] } }
  match r.target with
  | .far _ _ => s.farLose r
  | _ => s.setReq { r with stage := if r.pad.isSome then .held .targetLost else .complete .targetLost }

/-- Room in a far port's queue: 2,048 reads and 512 writes (R431). -/
def State.farRoom (s : State) (p : Nat) (write : Bool) : Bool :=
  ((s.stk.reqs.filter (fun r => r.queued && r.atFar p && r.write = write)).length < if write then 512 else 2048)

/-- A request leaves for a far port: TARGET_LOST unless the port is READY (R430). -/
def State.farLeave (s : State) (id : Nat) : State :=
  match s.req id with
  | none => s
  | some r =>
    match r.target with
    | .far p _ =>
      if (s.farPort p).state ≠ .ready then s.farLose { r with left := s.now, pad := s.padOf r }
      else if s.farRoom p r.write then
        (s.setReqs (s.stk.reqs.filter (fun x => x.id ≠ id) ++ [r])).setReq { r with left := s.now, pad := s.padOf r, queued := true, stage := .out }
      else s
    | _ => s

/-! ### Pinned rows (R261, R437, R438) -/

/-- The bank of a pinned-row byte (R438). -/
def pinnedBank (die off : Nat) : Nat := put 18 16 die + put 15 13 3 + off / 262144

/-- A request to pinned rows needs no slot: it is served as it leaves. A write that covers part of an uncorrectable word leaves
that word and ends with UNCORRECTABLE; one that covers part of a correctable word corrects it (R76, R438). -/
def State.pinLeave (s : State) (id : Nat) : State :=
  match s.req id with
  | none => s
  | some r =>
    match r.target with
    | .pinned d off =>
      let a := 16777216 * d + off
      let ws := pieceWords a r.len
      let r := { r with left := s.now, pad := s.padOf r }
      if r.write then
        let whole := fun (w : Nat) => decide (a ≤ w ∧ w + 8 ≤ a + r.len)
        let stuck := ws.filter (fun w => s.atl.bad.contains w && !whole w)
        let fixed := ws.filter (fun w => s.atl.softBits.contains w && !whole w)
        let st : Status := if stuck.isEmpty then .ok else .uncorrectable
        let mem := (List.range r.len).foldl (fun (m : Memory) i =>
          if stuck.contains ((a + i) / 8 * 8) then m else m.write (a + i) (nth r.data i 0)) s.atl.pinned
        { s with atl := { s.atl with pinned := mem, bad := s.atl.bad.filter (fun w => !ws.contains w || stuck.contains w),
                                     softBits := s.atl.softBits.filter (fun w => !ws.contains w),
                                     corrected := satInc s.atl.corrected fixed.length } } |>.tally 0x18050 fixed.length |>.setReq
          { r with stage := if r.pad.isSome then .held st else .complete st }
      else
        s.setReq { r with data := s.atl.pinned.readN a r.len, badAt := ws.filter s.atl.bad.contains,
                          softAt := ws.filter s.atl.softBits.contains, stage := .served }
    | _ => s

/-- A request to the far tier or to pinned rows leaves, unless its port has stopped (R414). -/
def State.leaveOther (s : State) (r : MemReq) : State :=
  if r.stage ≠ .atPort || s.memStopped r.die r.cls then s
  else match r.target with
    | .stk _ _ _ => s
    | .far _ _ => s.farLeave r.id
    | .pinned _ _ => s.pinLeave r.id

/-- A request that its port has not taken leaves, or is taken, once the port takes requests again. -/
def State.portResume (s : State) (id : Nat) : State :=
  match s.req id with
  | none => s
  | some r => match r.target with
    | .stk _ _ _ =>
      let s := s.leave id
      (match s.req id with
      | some r => if r.stage = .atPort && r.buffer.isNone then s.memTake r else s
      | none => s)
    | _ => s.leaveOther r

/-- The ports go on with the requests they have not taken, in the order of their stopping (R414). -/
def State.portsResume (s : State) : State :=
  ((s.stk.reqs.filter (fun r => r.stage = .atPort && r.buffer.isNone)).map (·.id)).foldl State.portResume s

/-- Sends a new request from its memory-plane port. -/
def State.memSend (s : State) (r : MemReq) : State :=
  let r := { r with id := s.stk.next }
  let s := { s with stk := { s.stk with next := r.id + 1, reqs := s.stk.reqs ++ [r] } }
  match r.target with
  | .stk _ _ _ => (s.leave r.id).portWait r.id
  | _ => if s.memStopped r.die r.cls then s.portStop r else s.leaveOther r

/-- The bytes from a on lie in regions assigned to an owner that satisfy a test; the fuel bounds the regions crossed. -/
def State.viewCovers (s : State) (o : Nat) (ok : StkRegion → Bool) : Nat → Nat → Nat → Bool
  | 0, _, n => n = 0
  | f + 1, a, n =>
    n = 0 || (match s.stkFind o a 1 with
      | some g =>
        let m := min n (g.vbase + g.size - a)
        ok g && s.viewCovers o ok f (a + m) (n - m)
      | none => false)

/-- The bytes lie in local SYSTEM regions of a die (R322, R409). -/
def State.systemLocal (s : State) (die a n : Nat) : Bool :=
  s.viewCovers 64 (fun g => !g.global && g.die = die) ((s.stkRegions 64).length + 1) a n

/-- The first address of a SYSTEM region of start-up in the device's view (R409): of its own 16 TiB, a multiple of 2^30 that is not
known. DESIGN CHOICE (log 66). -/
def systemVbase (die kind : Nat) : Nat := 2 ^ 44 * (3 * die + kind) + 2 ^ 30 * (Config.systemBase die kind % 8192)

/-- Bytes written to, or with none given read from, the SYSTEM view by the spill paths of a die: requests of the SPILL class from
memory-plane port 258 of Traverse or 259 of Bearing (R322, R350, R412, R450). They wait for no answer. -/
def State.spillMem (s : State) (die port a n : Nat) (data : Option (List Byte)) : State :=
  ((s.viewPieces 64 a n).getD []).foldl (fun s p => s.memSend
    { id := 0, user := .spill, write := data.isSome, target := p.1, len := p.2.2, data := ((data.getD []).drop p.2.1).take p.2.2, cls := 3,
      part := none, die := die, port := port }) s

/-- The accesses to the free ring of a die's SPILL pool that taking or freeing these buffers makes: requests of the SYNC class from
Traverse's port, to places in the ring's SYSTEM region that the model chooses (R405, R412, R450, log 66). -/
def State.ringTouch (s : State) (die : Nat) (write : Bool) (is : List Nat) : State :=
  is.foldl (fun s i => ((s.viewPieces 64 (systemVbase die 2 + 4 * i) 4).getD []).foldl (fun s p => s.memSend
    { id := 0, user := .spill, write := write, target := p.1, len := p.2.2, data := if write then leBytes 4 i else [], cls := 1,
      part := none, die := die, port := 258 }) s) s

/-- Spill bytes over a ring: what passes its end goes on at its base. -/
def State.ringMem (s : State) (die base size pos n : Nat) (data : Option (List Byte)) : State :=
  let k := min n (size - pos)
  let s := s.spillMem die 259 (base + pos) k (data.map (·.take k))
  if k < n then s.spillMem die 259 base (n - k) (data.map (·.drop k)) else s

/-- The address a fault-log entry names for a request: the word of a stack, the bank of a pinned row, the device address. -/
def MemReq.faultAddr (r : MemReq) : Nat :=
  match r.target with
  | .stk q b off => eccWord (cellAddr q b off / 8 * 8)
  | .pinned d off => pinnedBank d off
  | .far p a => p * 2 ^ 42 + a

/-- The address that a consumer's notice carries: of a pinned row, the one of R261 (R438). -/
def MemReq.noticeAddr (r : MemReq) : Nat :=
  match r.target with
  | .pinned d off => put 25 24 d + put 23 0 off
  | _ => r.faultAddr

/-! ### Addresses of a partition (R410, R429, R261) -/

/-- The far window of a partition that holds the bytes wholly (R429). -/
def State.farFind (s : State) (p port a n : Nat) : Bool :=
  (List.range 16).any (fun e => match s.far.windows.look (16 * p + e) with
    | some w => w.port = port && w.base ≤ a && a + n ≤ w.base + w.size
    | none => false)

/-- The pinned range of a table (R258, R260). -/
def pinHolds (d : TableDef) (die off n : Nat) : Bool :=
  d.pinDie = die && d.pinOff ≤ off && off + n ≤ d.pinOff + d.pinRows * d.rowBytes

/-- The n bytes of one piece are pinned rows of tables of a partition. -/
def State.pinOwns (s : State) (p die off n : Nat) : Bool :=
  (List.range n).all (fun i => s.gaz.tables.any (fun e => e.2.d.part = p && pinHolds e.2.d die (off + i) 1))

/-- The pieces of a unit of n bytes at an address of a space (1 stacked, 2 far, 3 pinned) of a partition, each with its offset
in the unit and its length; none where the address is turned away: a unit lies wholly within one region or one window (R410, R429). -/
def State.memPieces (s : State) (p space a n : Nat) : Option (List (MemTarget × Nat × Nat)) :=
  match space with
  | 1 => s.viewUnit p a n
  | 2 =>
    let port := a / 2 ^ 42
    let b := a % 2 ^ 42
    if port ≤ 1 && s.farFind p port b n then some ((pieces256 b n).map (fun x => (.far port x.1, x.1 - b, x.2))) else none
  | _ =>
    let die := a / 2 ^ 24
    let off := a % 2 ^ 24
    if die ≤ 3 && s.pinOwns p die off n then
      some ((pieces256 off n).map (fun x => (.pinned die x.1, x.1 - off, x.2)))
    else none

/-! ### Bank IDs (R438) -/

def bankDie (b : Nat) : Nat := fld b 18 16
def bankKind (b : Nat) : Nat := fld b 15 13
def bankIndex (b : Nat) : Nat := fld b 12 0
def bankId (die kind index : Nat) : Nat := put 18 16 die + put 15 13 kind + put 12 0 index

/-- Banks of each kind (R437): 272 physical tiles of 24 scratchpad banks. -/
def bankCount (kind : Nat) : Nat := nth [6528, 256, 128, 64, 64, 16, 32] kind 0

/-- Whether a bank ID names a bank. -/
def bankReal (b : Nat) : Bool :=
  b < 2 ^ 19 && bankIndex b < bankCount (bankKind b) && (if bankKind b ≤ 4 then bankDie b ≤ 3 else bankKind b ≤ 6 && bankDie b = 4)

/-- 64 KiB banks have 2 sub-arrays and 16 Sounding regions, 256 KiB banks 8 and 64 (R443, R447). -/
def bankSmall (b : Nat) : Bool := bankKind b = 0 || bankKind b = 4
def bankSubs (b : Nat) : Nat := if bankSmall b then 2 else 8
def bankRegions (b : Nat) : Nat := if bankSmall b then 16 else 64

def State.bank (s : State) (b : Nat) : Bank := s.atl.banks.lookD b {}
def State.setBank (s : State) (b : Nat) (x : Bank) : State := { s with atl := { s.atl with banks := s.atl.banks.put b x } }

/-- The pinned-row banks of a range. -/
def pinBanks (die off n : Nat) : List Nat :=
  ((List.range 64).filter (fun i => off < 262144 * (i + 1) && 262144 * i < off + n)).map (bankId die 3)

/-- The items a power command waits for: tiles by index, banks above 2^20. -/
def powerKey (b : Nat) : Nat := 2 ^ 20 + b

/-- GAZ_TABLE_DEFINE turns on the banks of a pinned range, within its step (R442, log 43); an ATL_POWER that waits for one of them waits
no longer (log 12). -/
def State.pinOn (s : State) (die off n : Nat) : State :=
  (pinBanks die off n).foldl (fun s b => if (s.bank b).power = .on then s else
    (s.setBank b { s.bank b with power := .on, goal := none }).progress 0x0E01 (powerKey b)) s

end Sys2Proof.Machine
end

