-- ==== Sys2Proof/Machine/Mesh.lean ====
section
/-! DEFINITION. Tiles by index, coordinates, mesh messages, and the sending of Meridian transfers (R72, R83, R84, R136, R189). -/

namespace Sys2Proof.Machine

/-! ### Tiles and coordinates -/

def State.tile (s : State) (t : Nat) : Tile := s.grid.tiles.lookD t {}
def State.setTile (s : State) (t : Nat) (x : Tile) : State := { s with grid := { s.grid with tiles := s.grid.tiles.put t x } }
def State.onTile (s : State) (t : Nat) (f : Tile → Tile) : State := s.setTile t (f (s.tile t))

/-- The logical coordinate of tile index 256d + 16y + x as headers and registers write it: d [9:8], x [7:4], y [3:0]; the
same function takes a coordinate to the index (R83, R106). -/
def coord (t : Nat) : Nat := 256 * (t / 256 % 4) + 16 * (t % 16) + t / 16 % 16

/-- The region of a tile, 8d + r (R24). -/
def tileRegion (t : Nat) : Nat := t / 32

/-- The regions a tile set lies in. -/
def tileRegions (tiles : List Nat) : List Nat := tiles.map tileRegion

/-- The Traverse line whose west gateway serves a tile's row (R341). -/
def tileLine (t : Nat) : Nat := t / 16

/-! ### Headers (R83, R84) -/

def MeshMsg.w0 (m : MeshMsg) : Word := nth m.header 0 0
def MeshMsg.dest (m : MeshMsg) : Nat := bits m.w0 9 0
def MeshMsg.src (m : MeshMsg) : Nat := bits m.w0 19 10
def MeshMsg.srcGw (m : MeshMsg) : Bool := bit m.w0 20
def MeshMsg.destGw (m : MeshMsg) : Bool := bit m.w0 21
def MeshMsg.handler (m : MeshMsg) : Nat := bits m.w0 27 22
def MeshMsg.len (m : MeshMsg) : Nat := bits m.w0 34 28
def MeshMsg.part (m : MeshMsg) : Nat := bits m.w0 40 35
def MeshMsg.tag (m : MeshMsg) : Nat := bits m.w0 63 48

/-- Header word 0 with SRC, SRC_GW and PART written by the sender (R84); the reserved bits stay clear. -/
def header0 (dest : Nat) (destGw : Bool) (src : Nat) (srcGw : Bool) (handler len part tag : Nat) : Word :=
  wd (put 9 0 dest + put 19 10 src + flag 20 srcGw + flag 21 destGw + put 27 22 handler + put 34 28 len + put 40 35 part +
    put 63 48 tag)

/-- Waits of a Datum partition's head behind another partition's message, at router outputs and at the places of R563. Which heads
meet there, and when, is the mesh's timing: MESH_FOREIGN counts a free number of them, at most one for each output and place of a
longest path (R175, log 78). -/
def State.meshWaits (s : State) (p : Nat) : State :=
  if s.partDatum p then
    let (v, s) := s.fresh
    (List.range (v % 65)).foldl (fun s _ => s.drift 9 [p]) s
  else s

/-- A message enters the mesh (R88 to R92); messages of one source to one destination keep their order (R91). It and those of other
partitions that are under way may wait for one another. -/
def State.toMesh (s : State) (m : MeshMsg) : State :=
  let foreign := (s.grid.mesh.filter (fun y => y.part ≠ m.part)).map (·.part)
  let s := { s with grid := { s.grid with mesh := s.grid.mesh ++ [m] } }
  (if foreign.isEmpty then [] else m.part :: foreign).foldl State.meshWaits s

/-- A message from a gateway service to tile t: SRC_GW set, the partition of what produced it (R84). -/
def gatewayMsg (service t handler part tag : Nat) (user : List Byte) (payload : List Byte) : MeshMsg :=
  ⟨header0 (coord t) false service true handler (ceilDiv payload.length 64) part tag :: leWords 7 (padTo 56 0 user),
   padTo (64 * ceilDiv payload.length 64) 0 payload⟩

/-- Takes the first message that satisfies p out of the mesh. -/
def takeFirst {α : Type} (p : α → Bool) : List α → Option (α × List α)
  | [] => none
  | x :: xs => if p x then some (x, xs) else (takeFirst p xs).map (fun r => (r.1, x :: r.2))

def State.setMer (s : State) (m : Meridian) : State := { s with mer := m }

/-! ### Sending on Meridian -/

/-- Something begins in a partition that ends a deadlock of it: the window starts anew, the episode is over and the bit of
MER_DL_STATUS clears (R209). A blocked partition has no engine, strand or handshake at work, so only what comes from outside
its tiles begins anything there: a transfer to one of its objects, a message in a ring, a descriptor, a tile that starts. -/
def State.stir (s : State) (p : Nat) : State :=
  s.setMer { s.mer with since := s.mer.since.del p, dl := s.mer.dl.filter (· ≠ p) }

/-- Sends a transfer; it takes the next number. -/
def State.merSend (s : State) (x : MerXfer) : State :=
  let s := (x.part.toList ++ ((s.mer.objs.look x.obj).map (·.part)).toList).foldl State.stir s
  s.setMer { s.mer with xfers := s.mer.xfers ++ [{ x with id := s.mer.next }], next := s.mer.next + 1 }

/-- A signal from a tile: MSIGNAL of a strand, or SIG_EN of an engine (R189, R192). -/
def State.tileSignal (s : State) (t obj strand : Nat) (src : MerSource) (clear : Bool) : State :=
  s.merSend { id := 0, obj := obj, act := .signal clear, src := src, tile := t, strand := strand, part := (s.tile t).part,
              stamp := s.timebase, reg := 0 }

end Sys2Proof.Machine
end

