-- ==== Sys2Proof/Machine/GazCore.lean ====
section
/-! DEFINITION. Gazetteer's shared operations: rows, requests, row reads, pooling (R258 to R273). -/

namespace Sys2Proof.Machine

/-! ### FP64 addition and the maximum (R241, R245) -/

/-- fadd64. -/
def fadd64 (a b : Exact) : Exact := roundIeee 0xD .rne (a.add b)

/-- The larger value: a NaN is ignored beside a number, and −0 lies below +0. -/
def maxVal (a b : Exact) : Exact := if a.isNan then b else if b.isNan then a else if a.before b then b else a

/-! ### Tables and rows (R258 to R260) -/

/-- Row bytes that are read: the elements, the scales, rounded up to 32. -/
def rowUsed (d : TableDef) : Nat := ceilDiv (d.d * fmtBits d.fmt / 8 + (if d.block = 1 then d.d / 32 else 0)) 32 * 32

/-- Space and address of row i (R260). -/
def rowPlace (d : TableDef) (i : Nat) : Option (Nat × Nat) :=
  if i < d.pinRows then some (3, put 25 24 d.pinDie + d.pinOff + i * d.rowBytes)
  else if i < d.pinRows + d.stkRows then some (1, d.stkBase + (i - d.pinRows) * d.rowBytes)
  else if i < d.pinRows + d.stkRows + d.farRows then some (2, put 42 42 d.farPort + d.farBase + (i - d.pinRows - d.stkRows) * d.rowBytes)
  else none

/-- The elements of a row, block scales applied. -/
def decodeRow (d : TableDef) (bytes : List Byte) : List Exact :=
  let w := fmtBits d.fmt
  (List.range d.d).map (fun e =>
    let x := elemAt w bytes e
    if d.block = 1 then decodeInBlock d.fmt (nth bytes (d.d * w / 8 + e / 32) 0).toNat 0 (e % 32) x else decodeElem d.fmt x)

def State.gazTable (s : State) (t : Nat) : Option GazTable := s.gaz.tables.look t

/-! ### Requests -/

def State.setGaz (s : State) (g : Gaz) : State := { s with gaz := g }

/-- Adds to a counter of R291. -/
def State.countGaz (s : State) (i : Nat) (n : Nat := 1) : State := 
  (s.setGaz { s.gaz with counts := s.gaz.counts.modify i (satInc · n) }).tally (0x13040 + 8 * i) n
def gazReqs : Nat := 0
def gazRows : Nat := 1
def gazRowFails : Nat := 2
def gazInvalids : Nat := 3
def gazSats : Nat := 4

/-- Requests in flight in the unit of a die (R270). -/
def State.gazInFlight (s : State) (die : Nat) : Nat := (s.gaz.reqs.filter (fun r => r.die = die)).length

/-- The bag table and the row list of a payload (R265). -/
def bagTable (n : Nat) (payload : List Byte) : List (Nat × Nat × Nat) :=
  (List.range n).map (fun k =>
    let w := ofLe ((payload.drop (4 * k)).take 4)
    (fld w 11 0, fld w 13 12, fld w 31 16))

/-- Bag of each row, in list order. -/
def bagOfRows (bags : List (Nat × Nat × Nat)) : List Nat :=
  (List.range bags.length).flatMap (fun k => List.replicate (nth bags k (0, 0, 0)).2.2 k)

def rowList (bags : List (Nat × Nat × Nat)) (weighted : Bool) (payload : List Byte) : List GazRow :=
  let base := 8 * ceilDiv bags.length 2
  let step := if weighted then 8 else 4
  let bs := bagOfRows bags
  (List.range bs.length).map (fun i =>
    let at_ := base + step * i
    let b := nth bs i 0
    { bag := b, table := (nth bags b (0, 0, 0)).1, index := ofLe ((payload.drop at_).take 4),
      weight := if weighted then ofLe ((payload.drop (at_ + 4)).take 4) else 0x3F800000 })

/-- The class of a request's row reads (R270): LATENCY, or BULK for GATHER_POOL. -/
def GazReq.cls (r : GazReq) : Nat :=
  match r.src with
  | .cfl _ => 2
  | _ => 0

/-- Issues the read of row i: outside the table it completes with ROW_RANGE; a range that is no longer assigned is lost, at the cycle
of such a read (R22, R162). -/
def State.gazRowIssue (s : State) (r : GazReq) (i : Nat) (row : GazRow) : GazRow × State :=
  match s.gazTable row.table with
  | none => ({ row with status := some .targetLost }, s)
  | some t =>
    match rowPlace t.d row.index with
    | none => ({ row with status := some .rowRange }, s)
    | some (space, a) =>
      let req : MemTarget → Nat → Nat → MemReq := fun target off len =>
        { id := 0, user := .gaz r.die r.id i off, write := false, target := target, len := len, cls := r.cls, part := some r.part, die := r.die, port := 256 }
      let s := s.countGaz gazRows
      match s.memPieces t.d.part space a (rowUsed t.d) with
      | none =>
        let target : MemTarget := if space = 1 then .stk 0 0 0 else if space = 2 then .far (a / 2 ^ 42) (a % 2 ^ 42) else .pinned (a / 2 ^ 24) (a % 2 ^ 24)
        (row, s.memLost (req target 0 (rowUsed t.d)))
      | some ps => (row, ps.foldl (fun s p => s.memSend (req p.1 p.2.1 p.2.2)) s)

/-- Issues up to k further row reads of a request in list order; a row that completes in its issue cycle fails (R267, R271). -/
def State.gazIssue : Nat → State → GazReq → GazReq × State
  | 0, s, r => (r, s)
  | k + 1, s, r =>
    match r.rows[r.sent]? with
    | none => (r, s)
    | some x =>
      let (row, s) := s.gazRowIssue r r.sent x
      let s := if row.status.isSome then s.countGaz gazRowFails else s
      s.gazIssue k { r with rows := r.rows.set r.sent row, sent := r.sent + 1, last := if row.status.isSome then s.now else r.last }

/-- A unit accepts a request. Outside Datum mode its row reads are issued at once; in a Datum partition one in each cycle
(R270, R271). -/
def State.gazAccept (s : State) (r : GazReq) : State :=
  let s := s.countGaz gazReqs
  let r := { r with len := 0, body := [] }
  let (r, s) := if s.partDatum r.part then (r, s) else s.gazIssue r.rows.length r
  s.setGaz { s.gaz with reqs := s.gaz.reqs ++ [r] }

def State.gazReq (s : State) (die id : Nat) : Option GazReq := s.gaz.reqs.find? (fun r => r.die = die && r.id = id)
def State.setGazReq (s : State) (r : GazReq) : State :=
  s.setGaz { s.gaz with reqs := s.gaz.reqs.map (fun x => if x.die = r.die && x.id = r.id then r else x) }

/-- Every row has completed. -/
def GazReq.whole (r : GazReq) : Bool := r.rows.all (fun x => x.status.isSome)

/-- A request is over: a table that was being deleted is freed with its last one (R263, R479). -/
def State.gazEnd (s : State) (r : GazReq) : State :=
  let s := s.setGaz { s.gaz with reqs := s.gaz.reqs.filter (fun x => !(x.die = r.die && x.id = r.id)) }
  (r.bags.map (·.1)).eraseDups.foldl (fun s t =>
    match s.gazTable t with
    | some x =>
      if x.deleting && !s.gaz.reqs.any (fun q => q.bags.any (fun b => b.1 = t)) then
        ((s.setGaz { s.gaz with tables := s.gaz.tables.del t }).progress 0x0702 t).progress 0x0206 (4096 + t)
      else s
    | none => s) s

/-- A held request of a Datum partition counts once where requests of others fill the unit (R270). -/
def State.gazWait (s : State) (die part : Nat) : State :=
  if s.gaz.reqs.any (fun r => r.die = die && r.part ≠ part) then s.drift 5 [part] else s

/-- The unit of a die takes no further request: it is full, or others are held before it (R270). -/
def State.gazFull (s : State) (die : Nat) : Bool := 1024 ≤ s.gazInFlight die || s.gaz.held.any (fun r => r.die = die)

/-- Row i of a request completes with what its reads gave (R267): none while a read is still out. Given are the status, the
bytes, the addresses of the read that failed for the fault log and for the notice (R438). -/
def State.gazRowDone (s : State) (r : GazReq) (i : Nat) : Option (Status × List Byte × (Nat × Nat) × State) :=
  let mine := s.stk.reqs.filter (fun q => match q.user with
    | .gaz d id k _ => d = r.die && id = r.id && k = i
    | _ => false)
  let off := fun (q : MemReq) => match q.user with
    | .gaz _ _ _ o => o
    | _ => 0
  let ends := mine.map (fun q => match q.stage with
    | .complete st => some st
    | _ => none)
  if mine.isEmpty || ends.any (·.isNone) then none
  else
    let st := ((ends.filterMap id).find? (· ≠ .ok)).getD .ok
    let n := (mine.map (fun q => off q + q.len)).foldl max 0
    let data := mine.foldl (fun (d : List Byte) q => d.take (off q) ++ padTo q.len 0 q.data ++ d.drop (off q + q.len)) (List.replicate n 0)
    let at_ := ((mine.find? (fun q => q.stage = .complete st)).map (fun q => (q.faultAddr, q.noticeAddr))).getD (0, 0)
    some (st, data, at_, mine.foldl (fun s q => s.dropReq q.id) s)

/-! ### Pooling (R268) -/

/-- The rows of a bag that completed OK, decoded and weighted, in list order. -/
def State.bagRows (s : State) (r : GazReq) (k : Nat) : List (List Exact) :=
  (r.rows.filter (fun x => x.bag = k && x.status = some .ok)).filterMap (fun x =>
    (s.gazTable x.table).map (fun t => (decodeRow t.d x.data).map (fun v => v.mul (f32 x.weight))))

/-- pool_bag for one element: the values of the rows in order. -/
def poolElem (pool : Nat) (xs : List Exact) : Exact :=
  let y := match xs with
    | [] => Exact.zero
    | x :: r => r.foldl (fun a b => if pool = 2 then maxVal a b else fadd64 a b) x
  if pool = 1 && 0 < xs.length then y.divNat xs.length else y

/-- The output elements of a bag: pooled, or under POOL NONE every row, +0 where it failed. -/
def State.bagOut (s : State) (r : GazReq) (k : Nat) : List Exact :=
  match (nth r.bags k (0, 0, 0)), s.gazTable (nth r.bags k (0, 0, 0)).1 with
  | (_, 3, _), some t =>
    (r.rows.filter (fun x => x.bag = k)).flatMap (fun x =>
      if x.status = some .ok then (decodeRow t.d x.data).map (fun v => v.mul (f32 x.weight)) else List.replicate t.d.d Exact.zero)
  | (_, pool, _), some t =>
    let rows := s.bagRows r k
    (List.range t.d.d).map (fun e => poolElem pool (rows.map (fun x => nth x e Exact.zero)))
  | _, none => []

end Sys2Proof.Machine
end

