-- ==== Sys2Proof/Machine/CflDesc.lean ====
section
/-! DEFINITION. Confluence as functions of the descriptor: its checks, the trees, segments, wire elements, combining and root rounding (R221 to R247). -/

namespace Sys2Proof.Machine

/-! ### The descriptor (R221) -/

/-- The fields of the sixteen descriptor words. -/
structure CflDesc where
  group  : Nat
  op     : Nat
  red    : Nat
  mode   : Nat
  rtz    : Bool
  inBlock : Bool
  rootOnly : Bool
  inFmt  : Nat
  outFmt : Nat
  segLog : Nat
  root   : Nat
  elems  : Nat
  param  : Nat
  pred   : Nat
  down   : Bool
  predLo : Nat
  predHi : Nat
  src    : Nat
  dst    : Nat
  scale  : Nat
  compl  : Nat
  job    : Nat
  user   : Nat
  sigObj : Nat
  sigEn  : Bool
deriving DecidableEq, Repr

def cflDesc (ws : List Word) : CflDesc :=
  let w := fun i => nth ws i (0 : Word)
  { group := bits (w 0) 15 0, op := bits (w 0) 23 16, red := bits (w 0) 26 24, mode := bits (w 0) 28 27, rtz := bit (w 0) 29,
    inBlock := bit (w 0) 30, rootOnly := bit (w 0) 31, inFmt := bits (w 0) 35 32, outFmt := bits (w 0) 39 36,
    segLog := bits (w 0) 44 40, root := bits (w 0) 63 48, elems := bits (w 1) 39 0, param := bits (w 2) 31 0,
    pred := bits (w 2) 34 32, down := bit (w 2) 35, predLo := (w 3).toNat, predHi := (w 4).toNat, src := (w 5).toNat,
    dst := (w 6).toNat, scale := (w 7).toNat, compl := (w 8).toNat, job := bits (w 9) 15 0, user := bits (w 9) 31 16,
    sigObj := bits (w 9) 45 32, sigEn := bit (w 9) 46 }

/-- OP codes (R232). -/
def opAllReduce : Nat := 0x01
def opReduce : Nat := 0x02
def opBroadcast : Nat := 0x03
def opAllGather : Nat := 0x04
def opReduceScatter : Nat := 0x05
def opAllToAll : Nat := 0x06
def opBarrier : Nat := 0x07
def opScalar : Nat := 0x08
def opPool : Nat := 0x09
def opTopK : Nat := 0x0A
def opSort : Nat := 0x0B
def opFilter : Nat := 0x0C

namespace CflDesc

/-- BARRIER and SCALAR_REDUCE: control packets only (R234). -/
def ctl (d : CflDesc) : Bool := d.op = opBarrier || d.op = opScalar
/-- Operations that RED applies to. -/
def reduces (d : CflDesc) : Bool := d.op = opAllReduce || d.op = opReduce || d.op = opReduceScatter || d.op = opScalar || d.op = opPool
def moves (d : CflDesc) : Bool := d.op = opBroadcast || d.op = opAllGather || d.op = opAllToAll
def selects (d : CflDesc) : Bool := d.op = opTopK || d.op = opSort || d.op = opFilter
/-- SUM or MEAN. -/
def sums (d : CflDesc) : Bool := d.reduces && d.red ≤ 1
def canon (d : CflDesc) : Bool := d.sums && d.mode = 0
def anchor (d : CflDesc) : Bool := d.sums && d.mode = 1
def exact (d : CflDesc) : Bool := d.sums && d.mode = 2
def argmax (d : CflDesc) : Bool := d.reduces && d.red = 4
/-- Two trees (R232). -/
def two (d : CflDesc) : Bool := 1 ≤ d.op && d.op ≤ 5 || d.op = opPool
/-- The result goes to ROOT only. -/
def toRoot (d : CflDesc) : Bool := d.op = opReduce || d.rootOnly
/-- DOWN carries each subtree only its part. -/
def scatters (d : CflDesc) : Bool := d.op = opReduceScatter || d.op = opSort

/-- Width of an EXACT wire element (R239). -/
def exactBits (d : CflDesc) : Nat := if d.inFmt = 3 || d.inFmt = 4 || d.inFmt = 0xC then 64 else 32

/-- Bits of an UP wire element (R239), and of a result element (R232, R236). -/
def upBits (d : CflDesc) : Nat :=
  if d.selects || d.argmax || d.anchor then 128 else if d.canon then 64 else if d.exact then d.exactBits else fmtBits d.inFmt
def outBits (d : CflDesc) : Nat := if d.selects || d.argmax then 128 else if d.sums then fmtBits d.outFmt else fmtBits d.inFmt

/-- The effective SEG_LOG2 (R226); 0 for an operation that is not segmented. -/
def segEff (d : CflDesc) : Nat :=
  if d.selects || d.ctl then 0
  else if d.segLog ≠ 0 then d.segLog
  else (List.range 13).foldl (fun b i => if 2 ^ (i + 5) * d.upBits ≤ 2 ^ 23 then i + 5 else b) 5

/-- Largest ELEMS of SCALAR_REDUCE (R234). -/
def scalarMax (d : CflDesc) : Nat :=
  if d.argmax || d.anchor then 4 else if d.canon then 8 else if d.exact then 64 * 8 / d.exactBits else 512 / fmtBits d.inFmt

/-- The formats of R238; element movements and selections take any code of R30 that has stored elements. -/
def formatBad (d : CflDesc) : Bool :=
  if d.op = opBarrier then false
  else if d.canon || d.anchor then 7 < d.inFmt || (d.inBlock && d.inFmt < 3) || 4 < d.outFmt
  else if d.exact then
    !((3 ≤ d.inFmt && d.inFmt ≤ 7) || (8 ≤ d.inFmt && d.inFmt ≤ 0xC)) || d.inBlock ||
      (if d.inFmt ≤ 7 then 2 < d.outFmt else d.outFmt ≠ 0xC && d.outFmt ≠ 0)
  else if d.reduces then 0xC < d.inFmt || d.inBlock || d.outFmt ≠ d.inFmt
  else 0xC < d.inFmt

/-- The other checks of R222 for a group of n members. -/
def bad (d : CflDesc) (ws : List Word) (n : Nat) : Bool :=
  let w := fun i => nth ws i (0 : Word)
  let reserved := bits (w 0) 47 45 ≠ 0 || bits (w 1) 63 40 ≠ 0 || bits (w 2) 63 36 ≠ 0 || bits (w 9) 63 47 ≠ 0 ||
    (List.range 6).any (fun i => w (10 + i) ≠ 0)
  reserved || d.op = 0 || opFilter < d.op || 4 < d.red || d.mode = 3 || (!d.reduces && d.red ≠ 0) ||
    (!d.sums && d.mode ≠ 0) || (d.rootOnly && !(d.op = opPool || d.op = opTopK || d.op = opFilter)) ||
    ((d.toRoot || d.op = opBroadcast) && n ≤ d.root) ||
    ((d.selects || d.ctl) && d.segLog ≠ 0) ||
    (d.segLog ≠ 0 && (d.segLog < 5 || 17 < d.segLog || 2 ^ 23 < 2 ^ d.segLog * d.upBits)) ||
    (d.moves && d.outFmt ≠ d.inFmt) ||
    ((1 ≤ d.op && d.op ≤ 6 || d.op = opScalar || d.op = opPool) && fmtBits d.inFmt < 8 && d.elems * fmtBits d.inFmt % 8 ≠ 0) ||
    (d.op = opReduceScatter && d.elems % n ≠ 0) || (d.op = opBarrier && d.elems ≠ 0) ||
    (d.op = opScalar && d.scalarMax < d.elems) ||
    (if d.op = opTopK then d.param = 0 || 1024 < d.param
     else if d.op = opFilter then d.pred = 7
     else if d.op = opPool then d.param = 0 || d.param % 32 ≠ 0 || d.elems % d.param ≠ 0 || d.argmax
     else d.param ≠ 0) ||
    ((d.selects || d.argmax) && d.inBlock)

/-- The status of a descriptor that may not start (R222). -/
def check (d : CflDesc) (ws : List Word) (n : Nat) : Status :=
  if d.bad ws n then .descInvalid else if d.formatBad then .formatInvalid else .ok

end CflDesc

/-- DIGEST (R222). -/
def cflDigest (md : Word) (ws : List Word) : Word :=
  let d := cflDesc ws
  let w0 := (nth ws 0 (0 : Word)).toNat
  let w0 := w0 - fld w0 15 0 - put 44 40 d.segLog + put 44 40 d.segEff
  wd (ofLe ((shake256 (wordBytes ([md, wd w0] ++ (List.range 4).map (fun i => nth ws (i + 1) 0)))).take 8))

/-- Sequence numbers count modulo 2^32 (R218): whether a lies before b. -/
def seqBefore (a b : Nat) : Bool :=
  let k := (b + 2 ^ 32 - a % 2 ^ 32) % 2 ^ 32
  k ≠ 0 && k < 2 ^ 31

/-- MD (R215). -/
def memberDigest (ms : List Nat) : Word := wd (ofLe ((shake256 (ms.flatMap (leBytes 8))).take 8))

/-! ### The trees (R224) -/

def lowbitFuel : Nat → Nat → Nat
  | 0, _ => 1
  | k + 1, i => if i % 2 = 1 then 1 else 2 * lowbitFuel k (i / 2)

/-- The lowest set bit of a position. -/
def lowbit (i : Nat) : Nat := lowbitFuel 17 i

/-- The largest power of two not above n. -/
def treeRoot (n : Nat) : Nat := 2 ^ n.log2

def treeUp (i n : Nat) : Nat → Nat → Nat
  | 0, _ => 0
  | k + 1, b =>
    let p := i / (2 * b) / 2 * (4 * b) + 2 * b
    if p ≤ n then p else treeUp i n k (2 * b)

/-- tree_parent; 0 at the root. -/
def treeParent (i n : Nat) : Nat := if i = treeRoot n then 0 else treeUp i n 18 (lowbit i)

/-- Position of a rank in tree A (0) or B (1), and the rank at a position. -/
def treePos (tree r n : Nat) : Nat := if tree = 0 then r + 1 else (r + 1) % n + 1
def treeRank (tree p n : Nat) : Nat := if tree = 0 then p - 1 else (p + n - 2) % n

/-- The parent rank of a rank; none at the root. -/
def parentRank (tree r n : Nat) : Option Nat :=
  match treeParent (treePos tree r n) n with
  | 0 => none
  | p => some (treeRank tree p n)

def rootRank (tree n : Nat) : Nat := treeRank tree (treeRoot n) n

/-- A child of position i lies at i ± 2^k for 2^k below the lowest set bit of i: the first that has i as its parent. -/
def childAt (i n : Nat) (left : Bool) : Option Nat :=
  ((List.range 17).map (fun k => if left then i - 2 ^ k else i + 2 ^ k)).find? (fun c => 1 ≤ c && c ≤ n && c ≠ i && treeParent c n = i)

/-- The left and the right child of a rank. -/
def leftRank (tree r n : Nat) : Option Nat := (childAt (treePos tree r n) n true).map (fun p => treeRank tree p n)
def rightRank (tree r n : Nat) : Option Nat := (childAt (treePos tree r n) n false).map (fun p => treeRank tree p n)
def childRanks (tree r n : Nat) : List Nat := (leftRank tree r n).toList ++ (rightRank tree r n).toList

/-- Whether rank q lies in the subtree of rank r. -/
def inSubtree (tree n r q : Nat) : Bool :=
  let i := treePos tree r n
  let b := lowbit i
  let p := treePos tree q n
  i - (b - 1) ≤ p && p ≤ i + (b - 1)

/-! ### Elements (R233 to R240) -/

/-- An entry of R236: VALUE, RANK, INDEX. -/
def cflEntry (value rank index : Nat) : Nat := put 63 0 value + put 79 64 rank + put 119 80 index
def entryVal (fmt e : Nat) : Exact := decodeElem fmt (fld e 63 0)

/-- The total order of values (R236): NaN greatest, −0 below +0. -/
def valBefore (a b : Exact) : Bool := if a.isNan then false else if b.isNan then true else a.before b

/-- Whether entry a is greater than b: higher value, then lower RANK, then lower INDEX. -/
def entryAbove (fmt a b : Nat) : Bool :=
  let x := entryVal fmt a
  let y := entryVal fmt b
  if valBefore y x then true else if valBefore x y then false else a / 2 ^ 64 % 2 ^ 16 * 2 ^ 40 + fld a 119 80 < b / 2 ^ 64 % 2 ^ 16 * 2 ^ 40 + fld b 119 80

/-- Whether entry a comes before b in a SORT, ascending or descending; equal values in (RANK, INDEX) order. -/
def sortBefore (fmt : Nat) (desc : Bool) (a b : Nat) : Bool :=
  let x := entryVal fmt a
  let y := entryVal fmt b
  let tie := fld a 79 64 * 2 ^ 40 + fld a 119 80 ≤ fld b 79 64 * 2 ^ 40 + fld b 119 80
  if valBefore x y then !desc else if valBefore y x then desc else tie

/-- Merges two sorted lists whose entries carry the number of their source, as far as the parts that are here determine the
merged list; the flags say whether a list is whole. -/
def mergePart (before : Nat → Nat → Bool) : Nat → List (Nat × Nat) × Bool → List (Nat × Nat) × Bool → List (Nat × Nat) × Bool
  | 0, _, _ => ([], false)
  | _, ([], ad), b => if ad then b else ([], false)
  | _, a, ([], bd) => if bd then a else ([], false)
  | k + 1, (x :: xs, ad), (y :: ys, bd) =>
    if before x.1 y.1 then
      let r := mergePart before k (xs, ad) (y :: ys, bd)
      (x :: r.1, r.2)
    else
      let r := mergePart before k (x :: xs, ad) (ys, bd)
      (y :: r.1, r.2)

/-- Merges two sorted lists. -/
def mergeBy (before : Nat → Nat → Bool) : Nat → List Nat → List Nat → List Nat
  | 0, xs, ys => xs ++ ys
  | _, [], ys => ys
  | _, xs, [] => xs
  | k + 1, x :: xs, y :: ys => if before x y then x :: mergeBy before k xs (y :: ys) else y :: mergeBy before k (x :: xs) ys

def sortBy (before : Nat → Nat → Bool) (xs : List Nat) : List Nat := xs.foldr (fun x l => mergeBy before (l.length + 1) [x] l) []

/-- PRED of FILTER (R236): IEEE 754 comparison. -/
def predHolds (d : CflDesc) (x : Exact) : Bool :=
  let lo := decodeElem d.inFmt d.predLo
  let hi := decodeElem d.inFmt d.predHi
  match d.pred with
  | 0 => x.lt lo
  | 1 => x.lt lo || x.eqv lo
  | 2 => x.eqv lo
  | 3 => !x.eqv lo
  | 4 => lo.lt x || x.eqv lo
  | 5 => lo.lt x
  | _ => (lo.lt x || x.eqv lo) && (x.lt hi || x.eqv hi)

/-! ### Wire words (R239 to R243) -/

/-- p1_local over a block: the exponent as i16, 0x8000 for NONE. -/
def p1Local (xs : List Exact) : Nat :=
  let es := (xs.filter (fun x => x.isFin && !x.isZero)).map Exact.ilog2
  match es with
  | [] => 0x8000
  | e :: r => unsign 16 (r.foldl max e)

def p1Combine (a b : Nat) : Nat := if signed 16 a < signed 16 b then b else a

/-- p2_local: the u128 word of a value under an anchor. -/
def p2Local (x : Exact) (eb : Nat) : Nat :=
  match x with
  | .nan => 2 ^ 98
  | .inf s => if s then 2 ^ 97 else 2 ^ 96
  | .fin s .. =>
    if eb = 0x8000 then 0
    else
      let (q, r, dn) := (x.scale (74 - signed 16 eb)).divPow 0
      let m : Int := (roundQ .rne q r dn : Nat)
      unsign 96 (if s then -m else m)

/-- Adds two words with a value of n bits and three flags above it, the rest zero (p2_combine, exact_combine). -/
def addFlagged (n a b : Nat) : Nat := (a % 2 ^ n + b % 2 ^ n) % 2 ^ n + ((a / 2 ^ n % 8) ||| (b / 2 ^ n % 8)) * 2 ^ n

/-- Value and flags of such a word in units of 2^u: NaN, an infinity, +0 for a zero sum (anchor_value). -/
def flaggedValue (n : Nat) (u : Int) (w : Nat) : Exact :=
  let f := w / 2 ^ n % 8
  if 4 ≤ f || f = 3 then .nan else if f = 1 then .inf false else if f = 2 then .inf true
  else if w % 2 ^ n = 0 then Exact.zero else (Exact.ofInt (signed n (w % 2 ^ n))).scale u

/-- The exponent of the unit of EXACT (R243). -/
def exactUnit : Nat → Int
  | 0x3 => -9
  | 0x4 => -16
  | 0x5 => -3
  | 0x6 => -4
  | 0x7 => -1
  | _ => 0

/-- Bits of the integer of an EXACT word: i56 in 8 bytes; i32 in 4 bytes, whose formats have no special values. -/
def CflDesc.exactInt (d : CflDesc) : Nat := if d.exactBits = 64 then 56 else 32

/-- exact_local. -/
def exactLocal (d : CflDesc) (x : Exact) : Nat :=
  match x with
  | .nan => 2 ^ (d.exactInt + 2)
  | .inf s => if s then 2 ^ (d.exactInt + 1) else 2 ^ d.exactInt
  | .fin s .. =>
    let (q, _, _) := x.divPow (exactUnit d.inFmt)
    unsign d.exactInt (if s then -(q : Int) else (q : Int))

/-- MIN and MAX of two element words (R245): NaN is ignored beside a number; two NaNs give the canonical one. -/
def minMaxWord (d : CflDesc) (a b : Nat) : Nat :=
  let x := decodeElem d.inFmt a
  let y := decodeElem d.inFmt b
  if x.isNan && y.isNan then canonicalNan d.inFmt
  else if x.isNan then b else if y.isNan then a
  else if d.red = 2 then (if y.before x then b else a) else if x.before y then b else a

/-- The wire word of a value that contributes: element bits v, exact value x, element index i, anchor eb. MIN and MAX carry the
TERN code 0b10, which is read as 0 (R36, R238), as the code of 0. -/
def CflDesc.localWord (d : CflDesc) (rank i v eb : Nat) (x : Exact) : Nat :=
  if d.canon then encodeElem 0xD x
  else if d.anchor then p2Local x eb
  else if d.exact then exactLocal d x
  else if d.argmax then cflEntry v rank i
  else if d.inFmt = 0xB && v = 2 then 0
  else v

/-- Combines two wire words; a is the left one (R241 to R245). -/
def CflDesc.join (d : CflDesc) (a b : Nat) : Nat :=
  if d.canon then encodeElem 0xD (fadd64 (decodeElem 0xD a) (decodeElem 0xD b))
  else if d.anchor then addFlagged 96 a b
  else if d.exact then (if d.exactBits = 64 then addFlagged 56 a b else (a + b) % 2 ^ 32)
  else if d.argmax then (if entryAbove d.inFmt b a then b else a)
  else minMaxWord d a b

/-- Root rounding of one element (R244): the result word and the saturations; `count` divides a MEAN, and +0 stands for a
MEAN over nothing (R235). -/
def CflDesc.finish (d : CflDesc) (w eb count : Nat) : Nat × Nat :=
  if !d.sums then (if d.argmax then w else if (decodeElem d.inFmt w).isNan then canonicalNan d.inFmt else w, 0)
  else
    let y := if d.canon then decodeElem 0xD w
      else if d.anchor then flaggedValue 96 (signed 16 eb - 74) w
      else if d.exactBits = 64 then flaggedValue 56 (exactUnit d.inFmt) w
      else if w % 2 ^ 32 = 0 then Exact.zero else (Exact.ofInt (signed 32 w)).scale (exactUnit d.inFmt)
    let y := if d.red = 1 then (if count = 0 then Exact.zero else y.divNat count) else y
    let (r, ev) := stage5 d.outFmt (if d.rtz then .rtz else .rne) y
    (r, ev.sat)

/-! ### Segments (R225, R226, R234) -/

/-- Elements of a SCALAR_REDUCE packet. -/
def CflDesc.perPacket (d : CflDesc) : Nat := 256 / max d.upBits 1

/-- Segments of a collective: packets for BARRIER and SCALAR_REDUCE. -/
def CflDesc.segs (d : CflDesc) : Nat :=
  if d.op = opBarrier then 1
  else if d.ctl then max 1 (ceilDiv d.elems d.perPacket)
  else if d.selects then (if d.elems = 0 && d.op ≠ opFilter then 0 else 1)
  else ceilDiv d.elems (2 ^ d.segEff)

/-- The elements [a, b) that a tree carries of a segment. -/
def CflDesc.range (d : CflDesc) (tree seg : Nat) : Nat × Nat :=
  if d.ctl then (if tree = 0 then (seg * d.perPacket, min d.elems ((seg + 1) * d.perPacket)) else (0, 0))
  else
    let sz := 2 ^ d.segEff
    let lo := seg * sz
    let hi := min d.elems (lo + sz)
    if d.two then
      let h := 32 * ceilDiv sz 64
      if tree = 0 then (lo, min hi (lo + h)) else (min hi (lo + h), hi)
    else if tree = 0 then (lo, hi) else (lo, lo)

/-- An item of the UP wire data: an element, or the row count of a bag after the elements of it that this part holds. -/
inductive WItem where
  | elem (i : Nat)
  | count (bag : Nat)
deriving DecidableEq, Repr

/-- The items of a tree and segment, in wire order. -/
def CflDesc.items (d : CflDesc) (tree seg : Nat) : List WItem :=
  let (a, b) := d.range tree seg
  (List.range (b - a)).flatMap (fun k =>
    let i := a + k
    if d.op = opPool && ((i + 1) % d.param = 0 || i + 1 = b) then [.elem i, .count (i / d.param)] else [.elem i])

def CflDesc.itemBits (d : CflDesc) : WItem → Nat
  | .elem _ => d.upBits
  | .count _ => 64

/-- Packs words of the given widths without gaps (R37). -/
def packWords (ws : List (Nat × Nat)) : List Byte :=
  let n := (ws.map (·.1)).foldl (· + ·) 0
  leBytes (ceilDiv n 8) (ws.foldr (fun e a => e.2 % 2 ^ e.1 + 2 ^ e.1 * a) 0)

/-- Reads words of the given widths; stops at the first that is not whole. -/
def readWords (bytes : List Byte) (ws : List Nat) : List Nat :=
  let v := ofLe bytes
  (ws.foldl (fun (r : List Nat × Nat) w => if r.2 + w ≤ 8 * bytes.length then (r.1 ++ [v / 2 ^ r.2 % 2 ^ w], r.2 + w) else (r.1, 8 * bytes.length + 1))
    ([], 0)).1

/-- Bytes of the UP wire data of a tree and segment, and of its phase-1 data. -/
def CflDesc.upLen (d : CflDesc) (tree seg : Nat) : Nat :=
  ceilDiv (((d.items tree seg).map d.itemBits).foldl (· + ·) 0) 8
/-- The elements whose anchors a phase-1 exchange settles: those of the segment and tree, and of a SCALAR_REDUCE all of them in
its one round trip (R234, R240). -/
def CflDesc.p1Range (d : CflDesc) (tree seg : Nat) : Nat × Nat :=
  if d.ctl then (if tree = 0 && seg = 0 then (0, d.elems) else (0, 0)) else d.range tree seg

/-- The segment whose phase 1 holds the anchors of a segment. -/
def CflDesc.p1Seg (d : CflDesc) (seg : Nat) : Nat := if d.ctl then 0 else seg

def CflDesc.p1Len (d : CflDesc) (tree seg : Nat) : Nat :=
  let (a, b) := d.p1Range tree seg
  2 * ceilDiv (b - a) 32

/-- Rank r receives element i of the result. -/
def CflDesc.owns (d : CflDesc) (n r i : Nat) : Bool :=
  if d.op = opReduceScatter then i / (d.elems / n) = r else if d.op = opSort then i / d.elems = r else true

/-- The elements of the result that a DOWN stream of a tree to rank r carries. -/
def CflDesc.downElems (d : CflDesc) (n tree seg r : Nat) : List Nat :=
  if d.op = opSort then (List.range (n * d.elems)).filter (fun i => inSubtree tree n r (i / d.elems))
  else
    let (a, b) := d.range tree seg
    let is := (List.range (b - a)).map (a + ·)
    if d.op = opReduceScatter then is.filter (fun i => inSubtree tree n r (i / (d.elems / n))) else is

end Sys2Proof.Machine
end

