-- ==== Sys2Proof/Machine/FabCore.lean ====
section
/-! DEFINITION. The fabric's shared operations: packets, routes, drops, output queues, the entry of packets into Traverse (R292 to R300, R329 to R337, R341 to R357). -/

namespace Sys2Proof

/-! ### Packet fields (R297) -/

def Packet.word (p : Packet) (i : Nat) : Word := Machine.nth p.flit i 0
def Packet.setWord (p : Packet) (i : Nat) (w : Word) : Packet := { p with flit := (Machine.padTo 8 0 p.flit).set i w }

/-- SRC; of a control packet, bits [47:0] of its flit (log 53). -/
def Packet.src (p : Packet) : Nat := Machine.bits (p.word 0) 47 0
def Packet.job (p : Packet) : Nat := Machine.bits (p.word 0) 63 48
def Packet.fseq (p : Packet) : Nat := Machine.bits (p.word 1) 31 0
def Packet.reqId (p : Packet) : Nat := Machine.bits (p.word 1) 47 32
def Packet.notify (p : Packet) : Bool := Machine.bit (p.word 1) 48
def Packet.convId (p : Packet) : Nat := Machine.bits (p.word 1) 55 52
def Packet.wfmt (p : Packet) : Nat := Machine.bits (p.word 1) 59 56
def Packet.conv (p : Packet) : Bool := Machine.bit (p.word 1) 60
def Packet.bytes (p : Packet) : Nat := Machine.bits (p.word 2) 12 0
def Packet.addr (p : Packet) : Nat := (p.word 3).toNat

/-- Replaces bits [hi:lo] of a header word. -/
def Packet.setField (p : Packet) (i hi lo v : Nat) : Packet :=
  let w := (p.word i).toNat
  p.setWord i (Machine.wd (w - Machine.put hi lo (Machine.fld w hi lo) + Machine.put hi lo v))

/-- Data flits: PFLITS + 1 (R297). -/
def Packet.flits (p : Packet) : Nat := if p.isData then p.pflits + 1 else 0

/-- PFLITS of a payload of n bytes that takes as few flits as it can. -/
def flitsFor (n : Nat) : Nat := Machine.ceilDiv n 256 - 1

/-- Cells in Traverse (R343), and link credits (R300). -/
def Packet.cells (p : Packet) : Nat := 1 + p.flits
def Packet.credits (p : Packet) : Nat := 1 + 4 * p.flits

/-- ULP codes (R297). -/
def ulpPlp : Nat := 0
def ulpCfl : Nat := 1
def ulpSheet : Nat := 2
def ulpE2e : Nat := 3
def ulpColl : Nat := 4
def ulpCompletion : Nat := 5

/-- A data packet as a source of the device makes it: HOPS 32, the header words of R297. -/
def dataPacket (vc dest ulp src job fseq reqId addr : Nat) (hdr : List Word) (payload : List Byte) : Packet :=
  { isData := true, vc := vc, dest := dest, ulp := ulp, hops := 32, pflits := flitsFor payload.length,
    flit := [Machine.wd (Machine.put 47 0 src + Machine.put 63 48 job), Machine.wd (Machine.put 31 0 fseq + Machine.put 47 32 reqId),
             Machine.wd payload.length, Machine.wd addr] ++ Machine.padTo 4 0 hdr,
    payload := payload }

/-- A packet with a multicast DEST (R352). -/
def Packet.mcast (p : Packet) : Bool := Machine.fld p.dest 47 40 = 0xFF

/-- A packet that takes the fixed control path (R336, R337). -/
def Packet.fixedPath (p : Packet) : Bool := !p.isData || p.ulp = ulpCfl

/-- The fields of a Confluence header (R227), from the header words of a data packet or the flit of a control packet. -/
def Packet.cflWord (p : Packet) (i : Nat) : Word := p.word (if p.isData then 4 + i else i)
def Packet.cflGroup (p : Packet) : Nat := Machine.bits (p.cflWord 0) 15 0

end Sys2Proof

namespace Sys2Proof.Machine

/-! ### CRC-32 (R296) -/

def crcStep (x : Nat) : Nat := if x % 2 = 1 then (x / 2) ^^^ 0xEDB88320 else x / 2
def crcByte (c : Nat) (b : Byte) : Nat := (List.range 8).foldl (fun x _ => crcStep x) (c ^^^ b.toNat)
def crc32 (bs : List Byte) : Nat := (bs.foldl crcByte 0xFFFFFFFF) ^^^ 0xFFFFFFFF

/-- Bytes with their CRC-32 behind them. -/
def withCrc (bs : List Byte) : List Byte := bs ++ leBytes 4 (crc32 bs)

/-! ### Link units (R295 to R297) -/

/-- A link unit: KIND, VC and LSEQ of its tag, and its body. -/
structure WireUnit where
  kind : Nat
  vc   : Nat
  lseq : Nat
  body : List Byte
deriving DecidableEq, Repr

/-- Bytes of a unit of a KIND; none for a reserved KIND. -/
def unitSize : Nat → Option Nat
  | 0 => some 8
  | 1 => some 16
  | 2 => some 72
  | 3 => some 80
  | 4 => some 80
  | 5 => some 264
  | _ => none

/-- A unit as it is sent. -/
def WireUnit.bytes (u : WireUnit) : List Byte := withCrc (leBytes 4 (put 3 0 u.kind + put 7 4 u.vc + put 19 8 u.lseq) ++ u.body)

/-- A unit as it is read: none where its CRC fails or its length is not that of its KIND. -/
def parseUnit (bs : List Byte) : Option WireUnit :=
  let n := bs.length - 4
  let tag := ofLe (bs.take 4)
  if bs.length < 8 || crc32 (bs.take n) ≠ ofLe (bs.drop n) || (match unitSize (fld tag 3 0) with
    | some k => k ≠ bs.length
    | none => false) then none
  else some ⟨fld tag 3 0, fld tag 7 4, fld tag 19 8, (bs.drop 4).take (n - 4)⟩

/-- The body of a CTRL or HEAD unit: route word and flit (R297). -/
def unitBody (p : Packet) : List Byte :=
  leBytes 8 (put 47 0 p.dest + put 51 48 (if p.isData then p.pflits else 0) + put 55 52 p.ulp + put 63 56 p.hops) ++ wordBytes (padTo 8 0 p.flit)

/-- The packet that a CTRL or HEAD unit begins. -/
def WireUnit.packet (u : WireUnit) : Packet :=
  let w := nth (leWords 1 u.body) 0 0
  { isData := u.kind = 4, vc := u.vc, dest := bits w 47 0, ulp := bits w 55 52, hops := bits w 63 56,
    pflits := if u.kind = 4 then bits w 51 48 else 0, flit := leWords 8 (u.body.drop 8), payload := [] }

/-! ### Ports (R292, R341) -/

def State.setFab (s : State) (f : Fabric) : State := { s with fab := f }
def State.port (s : State) (p : Nat) : PhysPort := s.fab.ports.lookD p {}
def State.setPort (s : State) (p : Nat) (x : PhysPort) : State := s.setFab { s.fab with ports := s.fab.ports.put p x }
def State.sub (s : State) (l : Nat) : SubPort := s.fab.subs.lookD l {}
def State.setSub (s : State) (l : Nat) (x : SubPort) : State := s.setFab { s.fab with subs := s.fab.subs.put l x }
def State.onSub (s : State) (l : Nat) (f : SubPort → SubPort) : State := s.setSub l (f (s.sub l))
def State.onCtr (s : State) (l : Nat) (f : Contour → Contour) : State := s.onSub l (fun x => { x with ctr := f x.ctr })

/-- Physical port, die and Traverse line of a logical port. -/
def lportPhys (l : Nat) : Nat := l / 8
def lportDie (l : Nat) : Nat := l / 256
def lportLine (l : Nat) : Nat := l / 16
def lineDie (n : Nat) : Nat := n / 16

/-- The sub-port exists under the width of its port. -/
def State.subExists (s : State) (l : Nat) : Bool := l < 1024 && l % 8 % (s.port (lportPhys l)).width = 0

/-- The logical port of sub-port p.s, 8p + sW (R292); none where the width gives the port no such sub-port. -/
def State.subOf (s : State) (port i : Nat) : Option Nat :=
  let w := (s.port port).width
  if i * w < 8 then some (8 * port + i * w) else none

/-- STATE codes (R304). -/
def LinkState.code : LinkState → Nat
  | .disabled => 0
  | .training => 1
  | .ident => 2
  | .up => 3
  | .down => 4
  | .miswired => 5
  | .fenced => 6

/-- The region of a logical port (R341). -/
def lportRegion (l : Nat) : Nat := l / 32

/-- A member of a port set is usable (R332). -/
def State.usable (s : State) (l : Nat) : Bool := (s.sub l).state = .up && (s.sub l).cfg.mode = .switch

/-- Places of the counters in SubPort.counts (R328). -/
def cntCrc : Nat := 0
def cntRetry : Nat := 1
def cntFecCorr : Nat := 2
def cntFecUncorr : Nat := 3
def cntDrop : Nat := 4
def cntSpill : Nat := 5
def cntShed : Nat := 6
def cntRetx : Nat := 7
def cntSat : Nat := 8

/-- The sub-port of its port that a logical port is (R292). -/
def State.subIdx (s : State) (l : Nat) : Nat := l % 8 / max (s.port (lportPhys l)).width 1

/-- Increments of a Contour counter of a sub-port: 0 and 1 the frames shed, 2 the gate holds, 3 the control flits (R380). -/
def State.tallyCtr (s : State) (l i : Nat) : State := s.tally (0x180040 + 0x1000 * lportPhys l + 64 * i + 8 * s.subIdx l)

def State.countSub (s : State) (l i : Nat) (n : Nat := 1) : State :=
  (s.onSub l (fun x => { x with counts := x.counts.modify i (satInc · n) })).tally (0x100140 + 0x1000 * lportPhys l + 64 * i + 8 * s.subIdx l) n

/-- FEC's counts, with a unit or a frame (R328). -/
def State.fecIn (s : State) (l corr uncorr : Nat) : State :=
  if corr = 0 && uncorr = 0 then s else (s.countSub l cntFecCorr corr).countSub l cntFecUncorr uncorr

/-- Causes of BRG_DROP_COUNT (log 50). -/
def dropHops : Nat := 0
def dropLength : Nat := 1
def dropAddress : Nat := 2
def dropNoEntry : Nat := 3
def dropAction : Nat := 4
def dropOversize : Nat := 5
def dropEgress : Nat := 6
def dropConvSkip : Nat := 7
def dropDuplicate : Nat := 8
def dropFenced : Nat := 9
def dropLink : Nat := 10

/-- Counts drops of a cause at a sub-port. -/
def State.drop (s : State) (l cause : Nat) (n : Nat := 1) : State :=
  if n = 0 then s
  else (s.countSub l cntDrop n).onSub l (fun x => { x with drops := x.drops.upd cause 0 (satInc · n) })

/-- Frees credits of a VC: the running total of R301 rises and is due to the sender. -/
def State.creditBack (s : State) (from_ : Option Nat) (vc n : Nat) : State :=
  match from_ with
  | some l => if n = 0 then s else s.onSub l (fun x =>
      { x with freed := x.freed.modify vc (fun c => (c + n) % 65536), credDue := if x.credDue.contains vc then x.credDue else x.credDue ++ [vc] })
  | none => s

/-- The packet at the head of an accelerator's ingress, where its data flits are still arriving (R344). -/
def SubPort.arriving (x : SubPort) : Option RxCur := x.rx.filter (fun r => r.edge && (x.ingress.drop 1).all (fun p => !p.isData))

/-- Credits that the packet at the head of the ingress has used. -/
def SubPort.headCredits (x : SubPort) (p : Packet) : Nat :=
  if x.stale ≠ 0 then 0 else match x.arriving with
    | some r => 1 + 4 * r.got
    | none => p.credits

/-- The packet at the head of an accelerator's ingress leaves it and frees its credits; what is still to come of it is discarded. -/
def State.ingressPop (s : State) (l : Nat) : State :=
  let x := s.sub l
  match x.ingress with
  | p :: rest =>
    let rx := if x.arriving.isSome then x.rx.map (fun r => { r with edge := false }) else x.rx
    (s.setSub l { x with ingress := rest, stale := x.stale - 1, rx := rx }).creditBack (some l) p.vc (x.headCredits p)
  | [] => s

def State.trvDie (s : State) (d : Nat) : TrvDie := s.fab.trv.lookD d {}
def State.setTrv (s : State) (d : Nat) (x : TrvDie) : State := s.setFab { s.fab with trv := s.fab.trv.put d x }

/-- Places of the Traverse counters (R359). -/
def trvMark : Nat := 0
def trvSpill : Nat := 1
def trvStop : Nat := 2
def trvRecirc : Nat := 3
def trvMcFence : Nat := 4
def trvOrder : Nat := 5

def State.countTrv (s : State) (d i : Nat) (n : Nat := 1) : State :=
  (s.setTrv d { s.trvDie d with counts := (s.trvDie d).counts.modify i (satInc · n) }).tally (0x20040 + 0x1000 * d + 8 * i) n

/-- Places of the Waypoint counters (R360). -/
def wptTimeout : Nat := 0
def wptLoss : Nat := 1
def wptDrop : Nat := 2
def wptUnreach : Nat := 3

def State.countWpt (s : State) (i : Nat) (n : Nat := 1) : State :=
  (s.setFab { s.fab with wpt := s.fab.wpt.modify i (satInc · n) }).tally (0x14040 + 8 * i) n

/-- The die's stacks have all trained: spill is enabled (R21). -/
def State.dieTrained (s : State) (d : Nat) : Bool := (List.range 6).all (fun i => s.stk.trained.contains (6 * d + i))

/-! ### The route decision (R329 to R337, R530) -/

/-- Whether two keys agree in fields t5 to t(6 − depth); tier fields stand at their places in a Grid Reference. -/
def tiersMatch (depth a b : Nat) : Bool := a / 2 ^ (8 * (6 - depth)) = b / 2 ^ (8 * (6 - depth))

/-- alias(dest) (R334). -/
def State.routeKey (s : State) (dest : Nat) : Nat :=
  let es := (s.fab.alias_.keep (fun k e => k / 1024 = s.fab.active && e.valid && tiersMatch e.depth (256 * e.mtch) dest)).vals
  match es with
  | [] => dest
  | e :: r =>
    let b := r.foldl (fun (b x : AliasEntry) => if b.depth < x.depth then x else b) e
    let n := 2 ^ (8 * (6 - b.depth))
    256 * b.repl / n * n + dest % n

/-- A key that an isolation entry matches (R530). -/
def State.isolated (s : State) (key : Nat) : Bool := s.flt.isolation.any (fun e => tiersMatch e.2 (256 * e.1) key)

/-- A route decision: a multicast entry, a port set (256: UP), a local-table index; none where no route exists. -/
inductive Decision where
  | none
  | mcast (id : Nat)
  | set (v : Nat)
  | loc (p : Nat)
deriving DecidableEq, Repr

/-- route(dest) (R330). -/
def State.route (s : State) (dest : Nat) : Decision :=
  match s.fab.pfx with
  | .none => .none
  | some (pfx, level) =>
    if fld dest 47 40 = 0xFF then (if fld dest 39 16 = 0 then .mcast (fld dest 15 0) else .none)
    else
      let key := s.routeKey dest
      if (256 * pfx) / 2 ^ (8 * (level + 1)) ≠ key / 2 ^ (8 * (level + 1)) then .set 256
      else if level = 0 then .loc (key % 256)
      else .set (fld key (8 * level + 7) (8 * level))

/-- Port sets by branch value, the UP set at 256. -/
def State.portSet (s : State) (v : Nat) : List Nat := s.fab.sets.lookD v []

/-- The SRC over which R337 hashes. The flit of a Confluence control packet holds none: it is the Grid Reference of its SRC_RANK
where the group is defined here, else 0 (log 53). -/
def State.pathSrc (s : State) (p : Packet) : Nat :=
  if p.isData || p.ulp ≠ ulpCfl then p.src
  else match s.cfl.groups.look p.cflGroup with
    | some g => nth g.d.members (bits (p.cflWord 1) 63 48) 0
    | none => 0

/-- The hash of R337. -/
def State.pathHash (s : State) (p : Packet) : Nat := crc32 (leBytes 6 (s.pathSrc p) ++ leBytes 6 p.dest)

/-- The member that a packet takes next, and the spray pointer after it (R336, R337). -/
def State.member (s : State) (line v : Nat) (p : Packet) : Option (Nat × Option Nat) :=
  let m := s.portSet v
  let u := m.filter s.usable
  if u.isEmpty then none
  else if p.fixedPath then some (nth u (s.pathHash p % u.length) 0, none)
  else
    let ptr := s.fab.spray.lookD (257 * line + v) 0 % m.length
    let order := (List.range m.length).map (fun i => (ptr + i) % m.length)
    match order.find? (fun i => s.usable (nth m i 0)) with
    | some i => some (nth m i 0, some ((i + 1) % m.length))
    | none => none

/-- The first drop on a set in each window of 2^21 cc raises a notice that names the set (R332). -/
def State.noteDead (s : State) (die v dest : Nat) : State :=
  let w := s.timebase / 2097152
  if s.fab.setNote.look v = some w then s
  else (s.setFab { s.fab with setNote := s.fab.setNote.put v w }).notify .setUnreachable .ok none v dest (.die die)

/-- A packet is dropped on a set without a usable member: the set is marked unreachable, and those that wait over it must learn of
it, whether the mark is new or not (R249, R332, R400). -/
def State.markDead (s : State) (die v dest : Nat) : State :=
  (s.setFab { s.fab with dead := if s.fab.dead.contains v then s.fab.dead else s.fab.dead ++ [v], lostDue := true }).noteDead die v dest

/-- Whether Waypoint has marked the way to a Grid Reference unreachable (R332, R530). -/
def State.routeDead (s : State) (dest : Nat) : Bool :=
  s.isolated (s.routeKey dest) || (match s.route dest with
    | .set v => s.fab.dead.contains v
    | _ => false)

/-- The sets whose members are usable again lose their mark. -/
def State.unmark (s : State) : State := s.setFab { s.fab with dead := s.fab.dead.filter (fun v => !(s.portSet v).any s.usable) }

/-- Marks the sets of a lost sub-port that have no usable member left (R303). -/
def State.markLost (s : State) (l : Nat) : State :=
  s.setFab { s.fab with dead := s.fab.dead ++ (s.fab.sets.keep (fun v m => m.contains l && !m.any s.usable && !s.fab.dead.contains v)).keys }

/-! ### Loads and copies -/

def State.load (s : State) (id : Nat) : Option Load := s.fab.loads.look id
def State.setLoad (s : State) (l : Load) : State := s.setFab { s.fab with loads := s.fab.loads.put l.id l }

/-- The VC of a load's link credits. -/
def Load.vc (l : Load) : Nat :=
  match l.cargo with
  | .plp p => p.vc
  | .eth .. => l.cls

/-- A cell of a load leaves the receive share of its port: its buffer and its link credits are freed, 1 for a header and 4 for a
data flit (R300). -/
def State.cellLaunched (s : State) (id idx : Nat) : State :=
  match s.load id with
  | none => s
  | some l =>
    let s := match l.inPort with
      | some p => s.platFreeAll (lportDie p) poolRx (lportPhys p % 32) (l.rx.take 1)
      | none => s
    let n := if idx + 1 = l.cells then l.credit else min l.credit (if idx = 0 then 1 else 4)
    (s.creditBack l.inPort l.vc n).setLoad { l with rx := l.rx.drop 1, credit := l.credit - n }

/-- A load ends: what it still holds is freed. -/
def State.endLoad (s : State) (l : Load) : State :=
  let s := match l.inPort with
    | some p => s.platFreeAll (lportDie p) poolRx (lportPhys p % 32) l.rx
    | none => s
  let s := s.creditBack l.inPort l.vc l.credit
  s.setFab { s.fab with loads := s.fab.loads.del l.id }

/-- A copy has left the device, or was skipped or discarded: the load ends with its last copy; a completion that is owed learns
of it (R353, R354). -/
def State.copyDone (s : State) (id tgt : Nat) (st : Status) : State :=
  match s.load id with
  | none => s
  | some l =>
    let s := s.setFab { s.fab with owed := s.fab.owed.map (fun o =>
      if o.load = id then { o with left := o.left - 1, done := o.done.modify tgt (fun e => (e.1, some st.code)) } else o) }
    if l.left ≤ 1 then s.endLoad l else s.setLoad { l with left := l.left - 1 }

/-- The packet of a load. -/
def Load.pkt (l : Load) : Option Packet :=
  match l.cargo with
  | .plp p => some p
  | .eth .. => none

/-! ### Output queues (R349, R350) -/

def State.outQ (s : State) (k : Nat) : OutQ := s.fab.outq.lookD k {}
def State.setOutQ (s : State) (k : Nat) (q : OutQ) : State := s.setFab { s.fab with outq := s.fab.outq.put k q }

def OutQ.depth (q : OutQ) : Nat := q.cells.length
def OutQ.inChip (q : OutQ) : Nat := (q.cells.filter (fun c => !c.spilled)).length
/-- Cells of its ONCHIP_SHARE that a queue holds: those in buffers of the OUT pool, and not those that came after STOP (R349). -/
def OutQ.inShare (q : OutQ) : Nat := (q.cells.filter (fun c => c.buf.map (·.1) = some poolOut)).length
def OutQ.spilled (q : OutQ) : Bool := q.cells.any (·.spilled)

/-- Die, and owner of the OUT, HEADROOM and SPILL pools, of queue 8 port + class. -/
def queueDie (k : Nat) : Nat := k / 256
def queueOwner (k : Nat) : Nat := k % 256

/-- SPILL_SHARE in buffers. -/
def State.spillShare (s : State) (k : Nat) : Nat := (s.outQ k).spill.getD ((s.trvDie (queueDie k)).spill / 256)

/-- Spill is possible for a queue: the stacks have trained and the share has room. -/
def State.spillRoom (s : State) (k : Nat) : Bool := s.dieTrained (queueDie k) && (s.outQ k).bufs.length < s.spillShare k

/-- Recomputes STOP after a queue has shrunk (R349). -/
def State.easeStop (s : State) (k : Nat) : State :=
  let q := s.outQ k
  if q.stop && (q.inChip < q.onchip || s.spillRoom k) then s.setOutQ k { q with stop := false } else s

/-- Sets STOP of a queue; an assertion counts. -/
def State.setStop (s : State) (k : Nat) : State :=
  if (s.outQ k).stop then s else (s.setOutQ k { s.outQ k with stop := true }).countTrv (queueDie k) trvStop

def State.pushCell (s : State) (k : Nat) (c : QCell) : State := s.setOutQ k { s.outQ k with cells := (s.outQ k).cells ++ [c] }

/-- A cell that found no room: from the headroom reserve (R349). -/
def State.headroomCell (s : State) (k : Nat) (part : Option Nat) (c : QCell) : State :=
  let s := s.setStop k
  match s.platTake (queueDie k) poolHeadroom { owner := queueOwner k, part := part } with
  | some (i, s) => s.pushCell k { c with buf := some (poolHeadroom, i) }
  | none => s.pushCell k c

/-- A cell on chip. While a stack of the die has not trained, the queue that reaches the end of its share stops (R21). -/
def State.chipCell (s : State) (k : Nat) (part : Option Nat) (c : QCell) : State :=
  match s.platTake (queueDie k) poolOut { owner := queueOwner k, part := part } with
  | some (i, s) =>
    let s := s.pushCell k { c with buf := some (poolOut, i) }
    if !s.dieTrained (queueDie k) && (s.outQ k).onchip ≤ (s.outQ k).inChip then s.setStop k else s
  | none => s.headroomCell k part c

/-- The bytes of a cell: the header flit, a data flit, or a stretch of a frame (R343). -/
def Load.cellBytes (l : Load) (idx : Nat) : List Byte :=
  match l.cargo with
  | .plp p => padTo 256 0 (if idx = 0 then wordBytes (padTo 8 0 p.flit) else (p.payload.drop (256 * (idx - 1))).take 256)
  | .eth bs _ _ => padTo 256 0 ((bs.drop (256 * idx)).take 256)

/-- Where spill buffer b of a die lies in the SYSTEM view (R350, R409, log 66). -/
def spillAddr (die b : Nat) : Nat := systemVbase die 0 + 4096 * b

/-- A cell into spill, 16 to a buffer (R350); the share reached sets STOP. -/
def State.spillCell (s : State) (k : Nat) (part : Option Nat) (c : QCell) : State :=
  let d := queueDie k
  let go := fun (s : State) =>
    let q := s.outQ k
    let s := match q.bufs.getLast?, s.load c.load with
      | some b, some l => s.spillMem d 258 (spillAddr d b + 256 * (q.put % 16)) 256 (some (l.cellBytes c.idx))
      | _, _ => s
    let s := ((s.setOutQ k { q with put := q.put + 1 }).pushCell k { c with spilled := true }).countTrv d trvSpill
    let s := s.drift 11 part.toList
    if s.spillShare k ≤ (s.outQ k).bufs.length && (s.outQ k).put % 16 = 0 then s.setStop k else s
  if (s.outQ k).put % 16 ≠ 0 then go s
  else if !s.spillRoom k then s.headroomCell k part c
  else match s.platTake d poolSpill { owner := queueOwner k, part := part } with
    | some (i, s) => go ((s.setOutQ k { s.outQ k with bufs := (s.outQ k).bufs ++ [i] }).ringTouch d false [i])
    | none => s.headroomCell k part c

/-- A cell is released into its output queue (R349 to R351). -/
def State.queueCell (s : State) (l : Load) (idx tgt lport : Nat) : State :=
  let k := 8 * lportPhys lport + l.cls
  let q := s.outQ k
  let d := queueDie k
  let mark := decide (q.mark ≤ q.depth)
  let s := if mark then s.countTrv d trvMark else s
  let behind := q.cells.any (fun c => match s.load c.load with
    | some x => x.part ≠ l.part
    | none => false)
  let s := if behind then s.drift 10 l.part.toList else s
  let c : QCell := { load := l.id, idx := idx, lport := lport, tgt := tgt, mark := mark }
  let cur := (s.sub lport).cur.map (·.load)
  let s := if cur ≠ some l.id && q.cells.all (fun x => x.lport ≠ lport || some x.load = cur) then
      s.onCtr lport (fun t => { t with heads := t.heads.put l.cls (l.id, s.now) })
    else s
  if q.stop then s.headroomCell k l.part c
  else if q.spilled || q.onchip ≤ q.inChip then s.spillCell k l.part c
  else s.chipCell k l.part c

/-- Frees the buffer of a cell on chip. -/
def State.freeCell (s : State) (k : Nat) (c : QCell) : State :=
  match c.buf with
  | some (p, i) => (s.platFree (queueDie k) p (queueOwner k) i).2
  | none => s

/-- Spill buffers of a queue return to their pool. -/
def State.spillFree (s : State) (k : Nat) (is : List Nat) : State :=
  (s.platFreeAll (queueDie k) poolSpill (queueOwner k) is).ringTouch (queueDie k) true is

/-- Takes the cells that satisfy p out of a queue; a queue without spilled cells gives its spill buffers back. -/
def State.takeCells (s : State) (k : Nat) (p : QCell → Bool) : State :=
  let q := s.outQ k
  let s := (q.cells.filter p).foldl (fun s c => s.freeCell k c) (s.setOutQ k { q with cells := q.cells.filter (fun c => !p c) })
  let q := s.outQ k
  let s := if q.spilled then s
    else (s.spillFree k q.bufs).setOutQ k { q with bufs := [], put := 0, got := 0 }
  s.easeStop k

/-- The copies of packets that wait in the queues of a sub-port: load and target, oldest first. -/
def State.copiesAt (s : State) (l : Nat) : List (Nat × Nat) :=
  ((List.range 8).flatMap (fun c => ((s.outQ (8 * lportPhys l + c)).cells.filter (fun x => x.lport = l)).map (fun x => (x.load, x.tgt)))).eraseDups

/-- A skipped multicast copy (R353). -/
def State.skipCopy (s : State) (id tgt lport : Nat) : State := (s.countTrv (lportDie lport) trvMcFence).copyDone id tgt .fenced

/-- A control flit that a fence takes away: a multicast copy is skipped, any other counted as dropped (R353, R527). -/
def State.fencedFlit (s : State) (l : Nat) (p : Packet) : State := if p.mcast then s.countTrv (lportDie l) trvMcFence else s.drop l dropFenced

/-- Discards what a fenced sub-port has queued: multicast copies are skipped, other packets counted (R353, R527). The rest of a
packet whose first unit has left is discarded without a count (R529). -/
def State.discardQueued (s : State) (l : Nat) (cause : Nat) : State :=
  let cur := (s.sub l).cur.map (·.load)
  let cs := s.copiesAt l
  let s := (List.range 8).foldl (fun s c => s.takeCells (8 * lportPhys l + c) (fun x => x.lport = l)) s
  let gone := fun (s : State) (id tgt : Nat) => match s.load id with
    | some x => s.setLoad { x with gone := x.gone ++ [tgt] }
    | none => s
  let s := cs.foldl (fun s e =>
    let s := gone s e.1 e.2
    if some e.1 = cur then s.copyDone e.1 e.2 .ok
    else match s.load e.1 with
      | some x => if x.mcast then s.skipCopy e.1 e.2 l else (s.drop l cause).copyDone e.1 e.2 .fenced
      | none => s) s
  let s := match cur with
    | some id => if cs.any (fun e => e.1 = id) then s else
        match s.load id with
        | some x =>
          let tgt := (x.outs.idxOf? (OutTarget.sub l)).getD 0
          (gone s id tgt).copyDone id tgt .ok
        | none => s
    | none => s
  let s := (s.sub l).ctrlQ.foldl (fun s p => s.fencedFlit l p) s
  s.onSub l (fun x => { x with cur := none, ctrlQ := [] })

/-! ### Entry into Traverse (R344, R352, R355) -/

/-- The output line of a target, and the line's control source or queue place q (R355). -/
def OutTarget.line : OutTarget → Nat
  | .sub l => lportLine l
  | .gate n _ => n

/-- Ring position owned by a source: a port of the line, or its gateway. -/
def ctrlPos (line : Nat) (inPort : Option Nat) : Nat :=
  3 * line + (match inPort with
    | some l => lportPhys l % 2
    | none => 2)

/-- A control flit joins its source's control queue. -/
def State.ctrlSend (s : State) (line : Nat) (inPort : Option Nat) (f : Flit) : State :=
  let k := ctrlPos line inPort
  s.setFab { s.fab with ctrlSrc := s.fab.ctrlSrc.upd k [] (· ++ [f]) }

/-- The frame queue of a load: of its output line, or of multicast, and its class (R344). -/
def Load.queue (l : Load) : Nat :=
  let o := if l.mcast then 64 else (match l.outs with
    | t :: _ => t.line
    | [] => 64)
  8 * (65 * l.inLine + o) + l.cls

/-- Receive cells of the port that a load came in by. -/
def State.rxTake (s : State) (l : Load) (n : Nat) : List Nat × State :=
  match l.inPort with
  | some p => (State.platTakeN s (lportDie p) poolRx { owner := lportPhys p % 32, part := l.part } n).getD ([], s)
  | none => ([], s)

/-- Puts the cells of a load that are there into its frame queue: `here` of them, the rest as they arrive (R344). -/
def State.enqueue (s : State) (l : Load) (here : Nat := l.cells) : State :=
  let id := s.fab.next
  let (rx, s) := s.rxTake l here
  let l := { l with id := id, rx := rx, rel := l.outs.map (fun _ => 0), left := l.outs.length }
  s.setFab { s.fab with next := id + 1, loads := s.fab.loads.put id l,
                        fq := s.fab.fq.upd l.queue [] (· ++ [⟨id, 0, here, s.now⟩]) }

/-- One more data flit of a packet has arrived: its cell joins the frame queue (R344). `n` counts the data flits with it. -/
def State.cellArrive (s : State) (id n : Nat) (bytes : List Byte) : State :=
  match s.load id with
  | none => s
  | some l =>
    match l.cargo with
    | .eth .. => s
    | .plp p =>
      let (rx, s) := s.rxTake l 1
      let s := s.setLoad { l with rx := l.rx ++ rx, credit := l.credit + 4, cargo := .plp { p with payload := p.payload ++ bytes } }
      s.setFab { s.fab with fq := s.fab.fq.upd l.queue [] (· ++ [⟨id, n, n + 1, s.now⟩]) }

/-- A packet whose rest will not come, since its link was lost, is discarded where it stands and counted (log 20). -/
def State.cutLoad (s : State) (lport id : Nat) : State :=
  match s.load id with
  | none => s
  | some l =>
    let s := s.setFab { s.fab with fq := (s.fab.fq.map (fun e => (e.1, e.2.filter (fun i => i.load ≠ id)))).filter (fun e => !e.2.isEmpty),
                                   owed := s.fab.owed.filter (fun o => o.load ≠ id) }
    let s := l.outs.foldl (fun s t => match t with
      | .sub n => (s.takeCells (8 * lportPhys n + l.cls) (fun c => c.load = id)).onSub n (fun x =>
          if (x.cur.map (·.load)) = some id then { x with cur := none } else x)
      | .gate _ _ => s) s
    match s.load id with
    | some l => (s.endLoad l).drop lport dropLink
    | none => s

/-- The line and target of a local-table entry (R331). -/
def localOut : LocalTarget → Option OutTarget
  | .none => none
  | .subport l => some (.sub l)
  | .host f row => some (.gate row (.host f row))
  | .device p row => some (.gate row (.device p row))
  | .cfl d row => some (.gate (16 * d + row % 16) (.cfl d row))
  | .sheet d row => some (.gate (16 * d + row % 16) (.sheet d row))

/-- A local target as a packet finds it: behind the gateway of an entry that names a function or a device view, a Confluence packet is
taken by the runtime there (R214, R331). -/
def localFor (p : Packet) : OutTarget → OutTarget
  | .gate n (.cfl d row) => .gate n (.cfl d row)
  | .gate n t => if p.ulp = ulpCfl then .gate n (.cfl (n / 16) (n % 16)) else .gate n t
  | o => o

/-- Where a Confluence packet for the accelerator of a sub-port goes once the port has it in order: to the node, in the runtime of its
group's die (R214, R331, log 60). -/
def State.cflGate (s : State) (l : Nat) (p : Packet) : Nat × LocalTarget :=
  let die := match s.cfl.groups.look p.cflGroup with
    | some g => nth g.d.tiles 0 0 / 256
    | none => lportDie l
  (16 * die + lportLine l % 16, .cfl die (lportLine l % 16))

/-- The targets of a multicast entry (R352). -/
def State.mcastOuts (s : State) (id : Nat) : List OutTarget :=
  (s.fab.mcast.lookD id []).filterMap (fun t => match t with
    | .port l => some (.sub l)
    | .loc p => localOut (s.fab.table.lookD p .none))

/-- The Grid References that a multicast completion lists (R354). -/
def State.mcastDests (s : State) (id : Nat) : List Nat :=
  (s.fab.mcast.lookD id []).filterMap (fun t => match t with
    | .port l => some ((s.sub l).cfg.partnerGrid / 256 * 256)
    | .loc p => (localOut (s.fab.table.lookD p .none)).map (fun _ => 256 * ((s.fab.pfx.map (·.1)).getD 0) + p))

/-! ### Sheet entries (R389, R396, R398) -/

def State.member_ (s : State) (m : Nat) : SheetMember := nth s.sht.members m .none

/-- The p of a die's SHEET entry and the row it names: HOME_P of SELF; where no member is SELF, the entry of the local table. -/
def State.sheetEntry (s : State) (die : Nat) : Option (Nat × Nat) :=
  let es := s.fab.table.filterMap (fun e => match e.2 with
    | .sheet d row => if d = die then some (e.1, row) else none
    | _ => none)
  match s.sht.self.map s.member_ with
  | some (.pq _ hp) => some (nth hp die 0, ((es.find? (fun e => e.1 = nth hp die 0)).map (·.2)).getD 0)
  | _ => es.head?

/-- The SHEET entry of a die of this device as a Grid Reference (R389, R396). -/
def State.selfHome (s : State) (die : Nat) : Nat := 256 * ((s.fab.pfx.map (·.1)).getD 0) + ((s.sheetEntry die).map (·.1)).getD 0

/-- The die and row at which a device above level 0, whose route decision knows no local target, takes the completion of a packet it
merged (R396, R397, log 29). -/
def State.mergedHome (s : State) (p : Packet) : Option (Nat × Nat) :=
  if p.isData && p.ulp = ulpCompletion && s.fab.pfx.any (fun e => 0 < e.2) then
    (List.range 4).findSome? (fun d => (s.sheetEntry d).bind (fun e => if s.selfHome d = p.dest then some (d, e.2) else none))
  else none

/-- Whether a home takes a request of its partition now: at level 2 of the SHEET pool none above its reserve, at level 3 none
at all (R398, R454). -/
def State.homeTakes (s : State) (die : Nat) : Bool :=
  let x := s.pool die poolSheet
  !(3 ≤ x.level) && !(2 ≤ x.level && x.reserveOf s.sht.part < x.usedOf s.sht.part)

/-- Requests that a home does not take back up: their gateway row takes no more cells of their class (R398). -/
def State.homeStop (s : State) (o c : Nat) : Bool :=
  s.fab.inbox.any (fun e => e.1 = o && e.2.2.isData && e.2.2.ulp = ulpSheet && e.2.2.vc % 8 = c && (match e.2.1 with
    | .sheet d _ => !s.homeTakes d
    | _ => false))

/-- The load of a number, where it is a packet that came in by a sub-port: the one that was dropped has none. -/
def State.cameIn (s : State) (l id : Nat) : Option Nat := if (s.load id).any (fun d => d.inPort = some l) then some id else none

/-- Where a packet came from: its input line, the sub-port it entered by, its partition, and the credits it holds. -/
structure Entry where
  line   : Nat
  inPort : Option Nat := none
  part   : Option Nat := none
  credit : Nat := 0
  /-- The cells that are there, where the others follow as they arrive (R344). -/
  here   : Option Nat := none
deriving DecidableEq, Repr

/-- The surveyor that passes on a notice of where the packet came from: of the port's region, else of the line's die (R26). -/
def Entry.origin (e : Entry) : Origin := match e.inPort with
  | some l => .region (lportRegion l)
  | none => .die (lineDie e.line)

/-- A packet that has no route (R329, R331, R332, R352). -/
def State.unrouted (s : State) (e : Entry) (p : Packet) : State := (s.countWpt wptUnreach).creditBack e.inPort p.vc e.credit

/-- A packet enters with its targets: a flit for each, or one load. -/
def State.admitTo (s : State) (e : Entry) (p : Packet) (outs : List OutTarget) (mcast : Bool) : State :=
  if p.isData then
    s.enqueue { id := 0, cargo := .plp p, inLine := e.line, inPort := e.inPort, cls := p.vc % 8, cells := p.cells, part := e.part,
                outs := outs, mcast := mcast, credit := e.credit } (e.here.getD p.cells)
  else match outs with
    | [] => s
    | o :: r => r.foldl (fun s o => s.ctrlSend e.line e.inPort { pkt := p, out := o })
        (s.ctrlSend e.line e.inPort { pkt := p, out := o, from_ := e.inPort })

/-- The device forwards a packet that came in from another one; what its own edges and services send leaves with the HOPS they wrote
(R298, R308, R389). -/
def State.forwards (s : State) (e : Entry) : Bool := e.inPort.any (fun l => (s.sub l).cfg.mode = .switch)

/-- HOPS as the packet leaves (R298); a packet that has none left and must be forwarded is dropped, counted, noticed. -/
def State.forward (s : State) (e : Entry) (p : Packet) (go : State → Packet → State) : State :=
  if !s.forwards e then go s p
  else if p.hops = 0 then
    let s := match e.inPort with
      | some l => s.drop l dropHops
      | none => s
    (s.notify .hopsExpired .ok e.part p.dest (e.inPort.getD 0) e.origin).creditBack e.inPort p.vc e.credit
  else go s { p with hops := p.hops - 1 }

/-- The route decision for a packet, and its entry into Traverse or onto the express ring (R330 to R337, R352, R355). -/
def State.admitRaw (s : State) (e : Entry) (p : Packet) : State :=
  match s.mergedHome p with
  | some (d, row) => s.admitTo e p [.gate (16 * d + row) (.sheet d row)] false
  | none =>
  match s.route p.dest with
  | .none => s.unrouted e p
  | .mcast id =>
    let outs := s.mcastOuts id
    if outs.isEmpty then s.unrouted e p
    else
      let fwd := outs.any (fun t => match t with
        | .sub l => (s.sub l).cfg.mode = .switch
        | _ => false)
      let go := fun (s : State) (p : Packet) =>
        let n := s.fab.next
        let ds := s.mcastDests id
        let s := s.admitTo e p outs true
        if p.isData && p.notify then
          s.setFab { s.fab with owed := s.fab.owed ++ [{ load := n, src := p.src, reqId := p.reqId, job := p.job, cls := p.vc % 8,
                                                         inLine := e.line, left := outs.length, done := ds.map (fun d => (d, none)) }] }
        else s
      if fwd then s.forward e p go else go s p
  | .set v =>
    s.forward e p (fun s p =>
      if s.isolated (s.routeKey p.dest) then ((s.setFab { s.fab with lostDue := true }).noteDead (lineDie e.line) v p.dest).unrouted e p
      else match s.member e.line v p with
      | none => (s.markDead (lineDie e.line) v p.dest).unrouted e p
      | some (l, ptr) =>
        let s := match ptr with
          | some q => s.setFab { s.fab with spray := s.fab.spray.put (257 * e.line + v) q }
          | none => s
        s.admitTo e p [.sub l] false)
  | .loc p' =>
    if s.isolated (s.routeKey p.dest) then s.unrouted e p
    else match localOut (s.fab.table.lookD p' .none) with
    | none => s.unrouted e p
    | some o => s.admitTo e p [localFor p o] false

/-! ### Towards an accelerator (R308) -/

/-- A packet for the accelerator of an endpoint-mode sub-port: its cells enter the output queue of its class. -/
def State.toAccel (s : State) (lport : Nat) (p : Packet) (part : Option Nat) : State :=
  if (s.sub lport).state = .fenced then s.drop lport dropFenced
  else
    let id := s.fab.next
    let l : Load := { id := id, cargo := .plp p, inLine := lportLine lport, inPort := none, cls := p.vc % 8, cells := p.cells,
                      part := part, outs := [.sub lport], rel := [p.cells] }
    let s := s.setFab { s.fab with next := id + 1, loads := s.fab.loads.put id l }
    (List.range p.cells).foldl (fun s i => s.queueCell l i 0 lport) s

/-- A completion that the edge itself makes for its accelerator (R309): the status in a word of payload (log 54). -/
def State.accelStatus (s : State) (lport : Nat) (p : Packet) (st : Status) : State :=
  s.toAccel lport (dataPacket p.vc (s.sub lport).cfg.partnerGrid ulpCompletion p.dest p.job 0 p.reqId 0 [] (leBytes 8 st.code))
    (s.sub lport).cfg.part

/-- The next FSEQ of a flow of which no copies are kept; one that has been idle for 35.0 µs starts again at 0 (R309, log 21). -/
def State.flowSeq (s : State) (src dest vc : Nat) : Nat × State :=
  let hit := fun (f : SrcFlow) => f.src = src && f.dest = dest && f.vc = vc
  match s.fab.flows.find? hit with
  | some f =>
    let n := if f.pkts.isEmpty && f.last + 65625 ≤ s.now then 0 else f.next
    (n, s.setFab { s.fab with flows := s.fab.flows.map (fun g => if hit g then { g with next := (n + 1) % 2 ^ 32, last := s.now } else g) })
  | none => (0, s.setFab { s.fab with flows := s.fab.flows ++ [{ src := src, dest := dest, vc := vc, next := 1, last := s.now }] })

/-- The next FSEQ of a flow that the device's services originate: of (SRC, DEST, VC). -/
def State.serviceSeq (s : State) (src dest vc : Nat) : Nat × State := s.flowSeq (2048 + src) dest vc

/-! ### Source flows and their copies (R309) -/

def FlowPkt.size (f : FlowPkt) : Nat := 64 + f.pkt.bytes

/-- Bytes that a sub-port's retransmit store holds. -/
def State.storeUsed (s : State) (l : Nat) : Nat :=
  ((s.fab.flows.filter (fun f => f.src = l)).flatMap (fun f => f.pkts.map FlowPkt.size)).foldl (· + ·) 0

/-- Bytes of a packet are written into the retransmit store of a sub-port, in its die's SYSTEM region, 256 MiB apart (R309, log 66). -/
def State.storeBytes (s : State) (l : Nat) (bytes : List Byte) : State :=
  let x := s.sub l
  let size := max 1 x.cfg.retxSize
  let s := s.ringMem (lportDie l) (systemVbase (lportDie l) 1 + 2 ^ 28 * (l % 256)) size (x.storePut % size) bytes.length (some bytes)
  s.onSub l (fun x => { x with storePut := (x.storePut + bytes.length) % size })

def State.storeWrite (s : State) (l : Nat) (p : Packet) : State := s.storeBytes l (wordBytes (padTo 8 0 p.flit) ++ p.payload)

def SrcFlow.is (f : SrcFlow) (src dest vc : Nat) : Bool := f.src = src && f.dest = dest && f.vc = vc

def State.srcFlow (s : State) (src dest vc : Nat) : Option SrcFlow := s.fab.flows.find? (fun f => f.is src dest vc)

def State.putFlow (s : State) (f : SrcFlow) : State :=
  let l := if s.fab.flows.any (fun g => g.is f.src f.dest f.vc) then s.fab.flows.map (fun g => if g.is f.src f.dest f.vc then f else g)
    else s.fab.flows ++ [f]
  s.setFab { s.fab with flows := l }

/-- A data flit of a packet of which a copy is kept joins the copy (R309). -/
def State.copyData (s : State) (l : Nat) (c : Nat × Nat × Nat) (bytes : List Byte) (last : Bool) : State :=
  match s.srcFlow l c.1 c.2.1 with
  | none => s
  | some f =>
    if !f.pkts.any (fun q => q.partly && q.fseq = c.2.2) then s
    else (s.storeBytes l bytes).putFlow { f with pkts := f.pkts.map (fun q =>
      if q.partly && q.fseq = c.2.2 then { q with partly := !last, pkt := { q.pkt with payload := q.pkt.payload ++ bytes } } else q) }

def State.delFlow (s : State) (f : SrcFlow) : State := s.setFab { s.fab with flows := s.fab.flows.filter (fun g => !g.is f.src f.dest f.vc) }

end Sys2Proof.Machine
end

