-- ==== Sys2Proof/Machine/CflCore.lean ====
section
/-! DEFINITION. Confluence's shared operations: streams and credits, blocks, the digest round, results, completion, aborts (R216 to R254). -/

namespace Sys2Proof

def Packet.cflKind (p : Packet) : Nat := Machine.bits (p.cflWord 0) 19 16
def Packet.cflTree (p : Packet) : Nat := Machine.bits (p.cflWord 0) 20 20
def Packet.cflSeq (p : Packet) : Nat := Machine.bits (p.cflWord 0) 63 32
def Packet.cflSeg (p : Packet) : Nat := Machine.bits (p.cflWord 1) 31 0
def Packet.cflBlk (p : Packet) : Nat := Machine.bits (p.cflWord 1) 47 32
def Packet.cflSrc (p : Packet) : Nat := Machine.bits (p.cflWord 1) 63 48
def Packet.cflDigest (p : Packet) : Word := p.cflWord 2
def Packet.cflBytes (p : Packet) : Nat := Machine.bits (p.cflWord 3) 12 0
def Packet.cflStatus (p : Packet) : Nat := Machine.bits (p.cflWord 3) 23 16
def Packet.cflCredits (p : Packet) : Nat := Machine.bits (p.cflWord 3) 31 24
def Packet.cflPayload (p : Packet) : List Byte :=
  (if p.isData then p.payload else Machine.wordBytes (p.flit.drop 4)).take p.cflBytes

end Sys2Proof

namespace Sys2Proof.Machine

/-! ### Groups and runs -/

def State.setCfl (s : State) (c : Cfl) : State := { s with cfl := c }
def State.cflGroup (s : State) (g : Nat) : Option CflGroup := s.cfl.groups.look g
def State.setGroup (s : State) (g : Nat) (x : CflGroup) : State := s.setCfl { s.cfl with groups := s.cfl.groups.put g x }

def CflGroup.n (g : CflGroup) : Nat := g.d.members.length
def CflGroup.die (g : CflGroup) : Nat := nth g.d.tiles 0 0 / 256
def CflGroup.ref (g : CflGroup) (r : Nat) : Nat := nth g.d.members r 0
def CflGroup.kind (g : CflGroup) (r : Nat) : Option MemberKind := (g.d.hosted.find? (fun e => e.1 = r)).map (·.2)
def CflGroup.hosts (g : CflGroup) (r : Nat) : Bool := g.d.hosted.any (fun e => e.1 = r)
def CflGroup.nextSeq (g : CflGroup) (r : Nat) : Nat := g.next.lookD r 0
def CflGroup.isOpen (g : CflGroup) : Bool := g.phase ≠ .defined

def State.cflRun (s : State) (id : Nat) : Option CflRun := s.cfl.runs.find? (fun r => r.id = id)
def State.setRun (s : State) (r : CflRun) : State := s.setCfl { s.cfl with runs := s.cfl.runs.map (fun x => if x.id = r.id then r else x) }
def State.started (s : State) (g r q : Nat) : Option CflRun := s.cfl.runs.find? (fun x => x.group = g && x.rank = r && x.seq = some q)
def State.countCfl (s : State) (i : Nat) (n : Nat := 1) : State := 
  (s.setCfl { s.cfl with counts := s.cfl.counts.modify i (satInc · n) }).tally (0x12040 + 8 * i) n

def CflRun.d (r : CflRun) : CflDesc := cflDesc r.words
def CflRun.q (r : CflRun) : Nat := r.seq.getD 0

/-! ### How far a rank has come (R226, R229) -/

def subtreeSize (tree n r : Nat) : Nat :=
  let i := treePos tree r n
  let b := lowbit i
  min n (i + b - 1) + 1 - (i - (b - 1))

/-- Trees of the data. -/
def CflDesc.trees (d : CflDesc) : List Nat := if d.two then [0, 1] else [0]

/-- Blocks that a rank's own combining has in a tree and segment; those of a selection end where its list does. -/
def CflDesc.upBlocks (d : CflDesc) (tree seg : Nat) (p1 : Bool) : Nat :=
  let (a, b) := d.range tree seg
  if d.ctl then (if tree = 0 && (!p1 || seg = 0) then 1 else 0)
  else if p1 then ceilDiv (d.p1Len tree seg) 4096
  else if d.selects then 2 ^ 48
  else if d.moves then ceilDiv (ceilDiv ((b - a) * d.outBits) 8) 4096
  else ceilDiv (d.upLen tree seg) 4096

/-- The first place at or after a segment and block at which there is something to combine. -/
def CflDesc.settle (d : CflDesc) (tree : Nat) (p1 : Bool) : Nat → Nat × Nat → Nat × Nat
  | 0, p => p
  | f + 1, (k, j) => if d.segs ≤ k || j < d.upBlocks tree k p1 then (k, j) else CflDesc.settle d tree p1 f (k + 1, 0)

/-- Place of a tree, phase and destination in `pos`. -/
def posKey (d : CflDesc) (tree : Nat) (p1 : Bool) : Nat := if d.op = opAllToAll then 4 + tree else tree + (if p1 then 2 else 0)

/-- ALL_TO_ALL has no trees: its chunks are cut as tree A's. -/
def CflDesc.cutTree (d : CflDesc) (tree : Nat) : Nat := if d.op = opAllToAll then 0 else tree

def CflRun.at_ (r : CflRun) (tree : Nat) (p1 : Bool) : Nat × Nat :=
  r.d.settle (r.d.cutTree tree) p1 (r.d.segs + 1) (r.pos.lookD (posKey r.d tree p1) (0, 0))

/-- What a rank has to combine: tree and phase; the destinations of ALL_TO_ALL. -/
def CflDesc.lanes (d : CflDesc) (n rank : Nat) : List (Nat × Bool) :=
  if d.op = opAllToAll then (List.range n).map (fun q => (q, false))
  else if d.op = opBroadcast && d.root ≠ rank then []
  else d.trees.flatMap (fun t => if d.anchor then [(t, true), (t, false)] else [(t, false)])

def CflRun.upDone (r : CflRun) (n : Nat) : Bool := (r.d.lanes n r.rank).all (fun l => decide (r.d.segs ≤ (r.at_ l.1 l.2).1))

/-- A rank has combined everything in a tree. -/
def CflRun.upSent (r : CflRun) (n tree : Nat) : Bool :=
  (r.d.lanes n r.rank).all (fun l => l.1 ≠ tree || decide (r.d.segs ≤ (r.at_ l.1 l.2).1))

/-! ### Sending (R227, R228) -/

/-- The four header words (R227). -/
def cflHead (group kind tree seq seg blk src : Nat) (digest : Word) (bytes status credits : Nat) : List Word :=
  [wd (put 15 0 group + put 19 16 kind + put 20 20 tree + put 63 32 seq), wd (put 31 0 seg + put 47 32 blk + put 63 48 src), digest,
   wd (put 12 0 bytes + put 23 16 status + put 31 24 credits)]

/-- The line of the runtime's row, by which its packets enter Traverse. -/
def CflGroup.entry (g : CflGroup) : Entry := { line := tileLine (nth g.d.tiles 0 0), part := some g.d.part }

/-- Sends a control packet to a member's node. -/
def State.cflCtl (s : State) (g : CflGroup) (dst : Nat) (head payload : List Word) : State :=
  s.admitRaw g.entry { isData := false, vc := 8, dest := g.ref dst, ulp := ulpCfl, hops := 32, flit := head ++ padTo 4 0 payload, payload := [] }

/-- A stream between two ranks of a tree, upwards or downwards. -/
def cflStream (group from_ dst tree : Nat) (down : Bool) : Nat := (((group * 65536 + from_) * 65536 + dst) * 2 + tree) * 2 + flag 0 down

/-- Credits that the sender of a stream holds: two from the opening of the group on (log 56). -/
def State.cflCredit (s : State) (k : Nat) : Nat := s.cfl.credits.lookD k 2

/-- Frees the buffer of a block and grants anew what the level of the pool allows (R228, R454): at least two blocks on a stream,
up to eight in all, four at level 1, none of them shared from level 2 on (log 56). The credits of an accelerator's own contribution
go to its port (log 60). -/
def State.cflFree (s : State) (g : CflGroup) (rank : Nat) (buf : Option (Nat × Nat)) : State :=
  match buf with
  | none => s
  | some (k, i) =>
    let die := g.die
    let s := (s.platFree die poolCollation g.d.id i).2
    let have_ := (s.cfl.grants.lookD k []).length
    let level := (s.pool die poolCollation).level
    let want := (if level = 0 then 8 else if level = 1 then 4 else 2) - have_
    let (got, s) := (List.range (min want 2)).foldl (fun (r : Nat × State) _ =>
      match r.2.platTake die poolCollation { owner := g.d.id, part := some g.d.part } with
      | some (i, s) => (r.1 + 1, s.setCfl { s.cfl with grants := s.cfl.grants.upd k [] (· ++ [i]) })
      | none => r) (0, s)
    if got = 0 then s
    else
      let peer := k / 4 / 65536 % 65536
      let head := cflHead g.d.id 8 (k / 2 % 2) 0 0 0 rank 0 0 0 got
      match (if peer = rank then g.kind rank else none) with
      | some (.accel l) =>
        s.toAccel l { isData := false, vc := 8, dest := g.ref rank, ulp := ulpCfl, hops := 32, flit := head ++ padTo 4 0 [], payload := [] }
          (some g.d.part)
      | _ => s.cflCtl g peer head []

/-- The source of a rank's flows: an accelerator's blocks share the numbers of its sub-port, since their SRC is one (log 53). -/
def CflGroup.flowSrc (g : CflGroup) (rank : Nat) : Nat :=
  match g.kind rank with
  | some (.accel l) => l
  | _ => 2048 + g.ref rank

/-- Puts a block of a rank on the fabric with the FSEQ of its flow. -/
def State.cflLaunch (s : State) (g : CflGroup) (rank : Nat) (p : Packet) : State :=
  let (f, s) := s.flowSeq (g.flowSrc rank) p.dest p.vc
  s.admitRaw g.entry (p.setField 1 31 0 f)

/-- A started run of the same rank with an earlier sequence number may still send on a stream: upwards until it has combined
everything (an ALL_GATHER also forwards), downwards until it is over. Blocks of later collectives wait for it (R228). -/
def State.cflHolds (s : State) (n group rank seq stream : Nat) : Bool :=
  let tree := stream / 2 % 2
  s.cfl.runs.any (fun x => x.group = group && x.rank = rank && x.d.op ≠ opAllToAll && (match x.seq with
    | some q => seqBefore q seq
    | none => false) &&
    (stream % 2 = 1 || x.d.op = opAllGather || !(x.upSent n tree)))

/-- Blocks that a stream carries of a segment: phase 1, then the data; of ALL_GATHER those of every origin whose blocks pass. -/
def CflDesc.onStream (d : CflDesc) (n from_ dst tree : Nat) (down : Bool) (seg : Nat) : Nat :=
  let (a, b) := d.range tree seg
  if d.op = opAllGather then (if down then n else subtreeSize tree n from_) * d.upBlocks tree seg false
  else
    (if d.anchor then d.upBlocks tree seg true else 0) +
    (if !down then d.upBlocks tree seg false
     else if d.toRoot then 0
     else ceilDiv (ceilDiv ((if d.scatters then (d.downElems n tree seg dst).length else b - a) * d.outBits) 8) 4096)

/-- It is a block's turn on its stream: everything of earlier segments has been sent, and of ALL_GATHER every origin's earlier
blocks (R228). -/
def CflRun.turn (r : CflRun) (n k : Nat) (p : Packet) : Bool :=
  let d := r.d
  let down := k % 2 = 1
  let tree := k / 2 % 2
  let before := ((List.range p.cflSeg).map (d.onStream n r.rank (k / 4 % 65536) tree down)).foldl (· + ·) 0
  before + (if d.op = opAllGather then (if down then n else subtreeSize tree n r.rank) * p.cflBlk else 0) ≤ r.sent.lookD k 0

/-- The block that is next on a stream, with the others: of the earliest collective that has one waiting, and at its turn. -/
def State.cflNext (s : State) (g : CflGroup) (k : Nat) : Option (CflOut × List CflOut) :=
  takeFirst (fun o => o.stream = k && !s.cfl.outs.any (fun y => y.stream = k && seqBefore y.seq o.seq) &&
    !s.cflHolds g.n g.d.id o.rank o.seq k && (match s.started g.d.id o.rank o.seq with
      | some r => r.turn g.n k o.pkt
      | none => false)) s.cfl.outs

/-- Sends what waits on a stream while it has credits, in ascending order of sequence number, segment and block (R228); a block that
comes to its turn without a credit counts once in CFL_CREDIT_STALL_COUNT. Fuel bounds the loop. -/
def State.cflDrain (g : CflGroup) : Nat → State → Nat → State
  | 0, s, _ => s
  | n + 1, s, k =>
    match s.cflNext g k with
    | none => s
    | some (o, rest) =>
      if s.cflCredit k = 0 then
        if o.stalled then s
        else (s.setCfl { s.cfl with outs := s.cfl.outs.map (fun y => if y = o then { y with stalled := true } else y) }).countCfl 3
      else
        let s := s.setCfl { s.cfl with outs := rest, credits := s.cfl.credits.put k (s.cflCredit k - 1), runs := s.cfl.runs.map (fun r =>
          if r.group = g.d.id && r.rank = o.rank && r.seq = some o.seq then { r with sent := r.sent.upd k 0 (· + 1) } else r) }
        State.cflDrain g n ((s.cflLaunch g o.rank o.pkt).cflFree g o.rank o.buf) k

/-- Sends a data block to a node. On a stream it waits for its turn and for a credit (R228); a DIRECT block is on no stream
(log 57). The buffer it came in is freed when it has left. -/
def State.cflBlock (s : State) (g : CflGroup) (r : CflRun) (dst kind tree seg blk src : Nat) (payload : List Byte) (buf : Option (Nat × Nat)) : State :=
  let p := dataPacket g.d.cls (g.ref dst) ulpCfl (g.ref r.rank) r.d.job 0 0 0
    (cflHead g.d.id kind tree r.q seg blk src r.digest payload.length 0 0) payload
  if kind = 4 then (s.cflLaunch g r.rank p).cflFree g r.rank buf
  else
    let k := cflStream g.d.id r.rank dst tree (kind = 1 || kind = 3)
    let dry := s.cflCredit k = 0
    let s := s.setCfl { s.cfl with outs := s.cfl.outs ++ [⟨k, g.d.id, r.rank, r.q, p, buf, dry⟩] }
    State.cflDrain g (s.cfl.outs.length + 1) (if dry then s.countCfl 3 else s) k

/-- Drains every stream of a rank. -/
def State.cflDrainAll (s : State) (g : CflGroup) (rank : Nat) : State :=
  (((s.cfl.outs.filter (fun o => o.group = g.d.id && o.rank = rank)).map (·.stream)).eraseDups).foldl
    (fun s k => State.cflDrain g (s.cfl.outs.length + 1) s k) s

/-! ### Members' memory (R213, R232) -/

/-- The requests sent since the request number n that are complete already have had their effect; the first status other than OK among
them. -/
def State.cflSettle (s : State) (n : Nat) : Status × State :=
  let now := s.stk.reqs.filter (fun r => n ≤ r.id && (match r.stage with
    | .complete _ => true
    | _ => false))
  let st := ((now.map (fun r => match r.stage with
    | .complete st => st
    | _ => .ok)).find? (· ≠ .ok)).getD .ok
  let ids := now.map (·.id)
  (st, s.setReqs (s.stk.reqs.map (fun r => if ids.contains r.id then { r with user := .copy 1024 0 0 0 } else r)))

/-- Sends the requests of an access of a run to the memory of a DEVICE rank, BULK (R412), from the engine's memory-plane port (log 43);
`data`: the bytes of a write; `part`: the number of the part of the result that they are, in place of a read's offset. Each request is
a unit of its own (log 43). -/
def State.cflSend (s : State) (g : CflGroup) (run what : Nat) (data : Option (List Byte)) (a n : Nat) (part : Option Nat := none) : Status × State :=
  match s.viewPieces g.d.part a n with
  | none => (.addrRange, s)
  | some ps => (ps.foldl (fun s p => s.memSend
      { id := 0, user := .cfl run what (part.getD p.2.1), write := data.isSome, target := p.1, len := p.2.2,
        data := ((data.getD []).drop p.2.1).take p.2.2, cls := 2, part := some g.d.part, die := g.die, port := 257 }) s).cflSettle s.stk.next

/-- Requests of a run that are out. -/
def State.cflOut (s : State) (run : Nat) (p : Nat → Bool) : Bool :=
  s.stk.reqs.any (fun r => (match r.user with
    | .cfl a w _ => a = run && p w
    | _ => false) && (match r.stage with
    | .complete _ => false
    | _ => true))

/-- Reads bytes of a member's space in one step: of a HOST rank, or the bytes that a part of the result shares with other elements; an
accelerator's is not read. -/
def State.memberRead (s : State) (g : CflGroup) (rank a n : Nat) : Status × List Byte × State :=
  match g.kind rank with
  | some (.host f) => (.ok, s.hostRead f a n, s)
  | some .device => if n = 0 then (.ok, [], s) else s.viewRead g.d.part a n
  | _ => (.ok, List.replicate n 0, s)

/-- Writes bytes into a member's space, a part of its result (2) or its completion record (3): to an accelerator as PLP_DATA packets. -/
def State.memberWrite (s : State) (g : CflGroup) (r : CflRun) (what a : Nat) (bs : List Byte) (part : Nat := 0) : Status × State :=
  match g.kind r.rank with
  | some (.host f) => (.ok, s.hostWrite f a bs)
  | some .device =>
    if bs.isEmpty then (.ok, s) else s.cflSend g r.id what (some bs) a bs.length part
  | some (.accel l) =>
    (.ok, (List.range (ceilDiv bs.length 4096)).foldl (fun s i =>
      s.toAccel l (dataPacket g.d.cls (g.ref r.rank) ulpPlp (g.ref r.rank) r.d.job 0 0 (a + 4096 * i) [] ((bs.drop (4096 * i)).take 4096)) (some g.d.part)) s)
  | none => (.ok, s)

/-- Bytes of the destination, and of the source (R232, R233, R236). -/
def CflDesc.dstBytes (d : CflDesc) (n : Nat) : Nat :=
  if d.op = opBarrier then 0
  else if d.op = opAllGather || d.op = opAllToAll then n * (d.elems * d.outBits / 8)
  else if d.op = opReduceScatter then ceilDiv (d.elems / n * d.outBits) 8
  else if d.op = opTopK then 16 * min d.param (n * d.elems)
  else if d.op = opFilter then 16 * d.param
  else ceilDiv (d.elems * d.outBits) 8

def CflDesc.srcBytes (d : CflDesc) (n rank : Nat) : Nat :=
  if d.op = opBarrier || (d.op = opBroadcast && d.root ≠ rank) then 0
  else if d.op = opAllToAll then n * (d.elems * fmtBits d.inFmt / 8)
  else ceilDiv (d.elems * fmtBits d.inFmt) 8

def CflDesc.scaleBytes (d : CflDesc) : Nat := if d.inBlock && d.sums then ceilDiv d.elems 32 else 0

/-- A member that the result goes to. -/
def CflDesc.receives (d : CflDesc) (rank : Nat) : Bool := !d.toRoot || d.root = rank

/-! ### Lengths of streams -/

/-- Bytes of a FILTER list: a leading unit holds the total (log 58). -/
def CflDesc.filterLen (d : CflDesc) (bytes : List Byte) : Option Nat :=
  if bytes.length < 16 then none else some (16 + 16 * min (ofLe (bytes.take 16)) d.param)

/-- Bytes that a stream of one tree and segment has in all, where that is known yet. -/
def CflDesc.inLen (d : CflDesc) (n rank : Nat) (x : CflIn) : Option Nat :=
  let (a, b) := d.range x.tree x.seg
  if x.kind = 2 || x.kind = 3 || x.kind = 17 then some (d.p1Len x.tree x.seg)
  else if d.op = opFilter then d.filterLen x.bytes
  else if d.op = opTopK then some (16 * min d.param ((if x.kind = 0 then subtreeSize x.tree n x.src else n) * d.elems))
  else if d.op = opSort && x.kind = 0 then some (16 * (subtreeSize x.tree n x.src * d.elems))
  else if d.op = opSort && x.kind = 16 then some (16 * (n * d.elems))
  else if x.kind = 1 && d.scatters then some (ceilDiv ((d.downElems n x.tree x.seg rank).length * d.outBits) 8)
  else if d.moves then some (ceilDiv ((b - a) * d.outBits) 8)
  else if x.kind = 0 || x.kind = 9 then some (d.upLen x.tree x.seg)
  else some (ceilDiv ((b - a) * d.outBits) 8)

def CflDesc.whole (d : CflDesc) (n rank : Nat) (x : CflIn) : Bool := d.inLen n rank x = some x.bytes.length

/-- Blocks of which a stream is cut (R227); a control packet is one. -/
def CflDesc.blocksOf (d : CflDesc) (len : Nat) : Nat := if d.ctl then 1 else ceilDiv len 4096

def CflRun.in_ (r : CflRun) (kind tree seg src : Nat) : Option CflIn :=
  r.ins.find? (fun x => x.kind = kind && x.tree = tree && x.seg = seg && x.src = src)

/-- Appends a block to a stream. -/
def CflRun.append (r : CflRun) (kind tree seg src : Nat) (bytes : List Byte) (buf : Option Nat) (stream : Nat) : CflRun :=
  let add := fun (x : CflIn) =>
    { x with bytes := x.bytes ++ bytes, bufs := x.bufs ++ (match buf with
      | some i => [(stream * 65536 + x.bytes.length / 4096, i)]
      | none => []) }
  if (r.in_ kind tree seg src).isSome then
    { r with ins := r.ins.map (fun x => if x.kind = kind && x.tree = tree && x.seg = seg && x.src = src then add x else x) }
  else { r with ins := r.ins ++ [add { kind := kind, tree := tree, seg := seg, src := src }] }

/-! ### Parts of the result at a node -/

/-- The parts (origin, tree, segment) of the result that pass a node. -/
def CflDesc.parts (d : CflDesc) (n rank : Nat) : List (Nat × Nat × Nat) :=
  let segs := List.range d.segs
  let some_ := fun (t k : Nat) => d.ctl || d.op = opTopK || d.op = opFilter || !(d.downElems n t k rank).isEmpty
  if d.op = opAllGather then
    (List.range n).flatMap (fun o => d.trees.flatMap (fun t => (segs.filter (fun k => (d.range t k).1 < (d.range t k).2)).map (fun k => (o, t, k))))
  else if d.op = opAllToAll then (List.range n).flatMap (fun o => segs.map (fun k => (o, 0, k)))
  else if !d.receives rank then []
  else d.trees.flatMap (fun t => (segs.filter (some_ t)).map (fun k => (0, t, k)))

/-- The stream that holds a part. -/
def CflRun.partIn (r : CflRun) (p : Nat × Nat × Nat) : Option CflIn :=
  let d := r.d
  r.ins.find? (fun x => x.tree = p.2.1 && x.seg = p.2.2 &&
    (if d.op = opAllGather then (x.kind = 1 || x.kind = 16) && x.src = p.1
     else if d.op = opAllToAll then x.kind = 4 && x.src = p.1
     else if d.ctl then x.kind = 10 || x.kind = 16
     else if d.toRoot then x.kind = 4 || x.kind = 16
     else x.kind = 1 || x.kind = 16))

/-- The elements of a part that belong to the member, with their place in its destination, in elements. -/
def CflDesc.placed (d : CflDesc) (n rank : Nat) (p : Nat × Nat × Nat) (bytes : List Byte) : List (Nat × Nat) :=
  let w := d.outBits
  let val := fun i => elemAt w bytes i
  if d.op = opFilter then (List.range (bytes.length / 16 - 1)).map (fun i => (i, elemAt 128 bytes (i + 1)))
  else if d.op = opTopK then (List.range (bytes.length / 16)).map (fun i => (i, elemAt 128 bytes i))
  else if d.op = opAllGather || d.op = opAllToAll then
    let (a, b) := d.range p.2.1 p.2.2
    (List.range (b - a)).map (fun i => (p.1 * d.elems + a + i, val i))
  else
    let es := d.downElems n p.2.1 p.2.2 rank
    let es := if d.ctl then let (a, b) := d.range 0 p.2.2; (List.range (b - a)).map (a + ·) else es
    let base := if d.op = opReduceScatter then rank * (d.elems / n) else if d.op = opSort then rank * d.elems else 0
    ((List.range es.length).filter (fun i => d.owns n rank (nth es i 0))).map (fun i => (nth es i 0 - base, val i))

/-- The bytes of consecutive elements from place f on, over what stood there. -/
def overlay (w f : Nat) (vals : List Nat) (old : List Byte) : List Byte :=
  let off := w * f % 8
  let v := vals.foldr (fun x a => x % 2 ^ w + 2 ^ w * a) 0
  let o := ofLe old
  let n := w * vals.length
  leBytes old.length (o % 2 ^ off + v * 2 ^ off + o / 2 ^ (off + n) * 2 ^ (off + n))

/-- Writes a part of the result. -/
def State.cflWrite (s : State) (g : CflGroup) (r : CflRun) (p : Nat × Nat × Nat) (bytes : List Byte) : Status × State :=
  let d := r.d
  match d.placed g.n r.rank p bytes with
  | [] => (.ok, s)
  | (f, v) :: rest =>
    let w := d.outBits
    let a := d.dst + w * f / 8
    let m := rest.length + 1
    let len := ceilDiv (w * f % 8 + w * m) 8
    let (old, s) := if w * f % 8 = 0 && w * m % 8 = 0 then (List.replicate len 0, s) else
        let (_, o, s) := s.memberRead g r.rank a len
        (padTo len 0 o, s)
    s.memberWrite g r 2 a (overlay w f (v :: rest.map (·.2)) old) ((d.parts g.n r.rank).idxOf p)

/-! ### Completion (R223) -/

/-- The member holds the results of a segment complete: it has a part of them, and every part is written. -/
def CflRun.holds (r : CflRun) (n k : Nat) : Bool :=
  let ps := (r.d.parts n r.rank).filter (fun p => p.2.2 = k)
  !ps.isEmpty && ps.all r.wrote.contains

/-- Segments whose results the member holds complete. -/
def CflRun.segDone (r : CflRun) (n : Nat) : Nat := ((List.range r.d.segs).filter (r.holds n)).length

/-- The trees whose roots round. -/
def CflDesc.rounds (d : CflDesc) : List Nat :=
  if d.sums then d.trees.filter (fun t => (List.range d.segs).any (fun k => (d.range t k).1 < (d.range t k).2)) else []

/-- The completion record; `far`: the saturations at roots on other devices. -/
def CflRun.record (r : CflRun) (n : Nat) (st : Status) (by_ : Option Nat) (far : Nat) : List Word :=
  let d := r.d
  let done := (d.parts n r.rank).filter r.wrote.contains
  let filt := (r.partIn (0, 0, 0)).map (fun x => ofLe (x.bytes.take 16))
  let total := filt.getD 0
  let isF := d.op = opFilter && !done.isEmpty
  let count := if isF then total
    else (done.map (fun p => match r.partIn p with
      | some x => (d.placed n r.rank p x.bytes).length
      | none => 0)).foldl (· + ·) 0
  [wd (st.code + flag 8 (isF && d.param < total) + put 31 16 r.group + put 63 32 r.q),
   wd (put 31 0 (if r.seq.isSome then r.segDone n else 0) + put 63 32 (min (2 ^ 32 - 1) (r.sats.foldl (· + ·) far))), wd count,
   wd (put 15 0 (by_.getD 0) + put 31 16 d.user + put 47 32 d.job + flag 48 by_.isSome)]

/-- Delivers a completion record: to memory, to the tile with its signal, to the accelerator, to the command. -/
def State.cflDeliver (s : State) (g : CflGroup) (r : CflRun) (st : Status) (ws : List Word) : State :=
  let d := r.d
  let s := match g.kind r.rank with
    | some (.accel l) => s.toAccel l (dataPacket g.d.cls (g.ref r.rank) ulpCompletion (g.ref r.rank) d.job 0
        (match r.via with
          | .accel _ q => q
          | _ => 0) d.compl [] (wordBytes ws)) (some g.d.part)
    | _ => (s.memberWrite g r 3 d.compl (wordBytes ws)).2
  match r.via with
  | .kci => s.progress 0x0605 r.id st ws
  | .tile t h tag =>
    let s := s.toMesh (gatewayMsg 3 t h g.d.part tag (wordBytes ws) [])
    if d.sigEn then
      let x := nth g.d.tiles 0 0
      s.merSend { id := 0, obj := d.sigObj, act := .signal false, src := .engine 3, tile := x, strand := 0, part := some g.d.part,
                  stamp := s.timebase, reg := 0 }
    else s
  | .accel .. => s

/-- Bytes of a part of the result at its destination. -/
def CflDesc.partLen (d : CflDesc) (n rank : Nat) (p : Nat × Nat × Nat) : Nat :=
  if d.op = opTopK then 16 * min d.param (n * d.elems)
  else if d.op = opFilter then 16 * d.param + 16
  else if d.op = opAllGather || d.op = opAllToAll then ceilDiv (((d.range p.2.1 p.2.2).2 - (d.range p.2.1 p.2.2).1) * d.outBits) 8
  else ceilDiv ((d.downElems n p.2.1 p.2.2 rank).length * d.outBits) 8

/-- n free bytes (log 2). -/
def State.freeBytes (s : State) (n : Nat) : List Byte × State :=
  ((List.range n).map (Config.freeByte s.free), { s with free := s.free + 1 })

/-- An abort that follows CONFIRM leaves the segments that the member does not hold complete with unspecified contents: each of
their bytes takes a free value (R253, log 2). -/
def State.cflScramble (s : State) (g : CflGroup) (r : CflRun) : State :=
  ((r.d.parts g.n r.rank).filter (fun p => !r.holds g.n p.2.2)).foldl (fun s p =>
    let (bs, s) := s.freeBytes (r.d.partLen g.n r.rank p)
    (s.cflWrite g r p bs).2) s

/-- The most saturations that the root of a tree can count: one for each element it rounds, none where the exact sum lies within
OUT_FMT (R63, R244). -/
def CflDesc.satMost (d : CflDesc) (tree : Nat) : Nat :=
  if d.exact && (d.outFmt ≤ 1 || (d.exactBits = 32 && d.outFmt = 0xC)) then 0
  else ((List.range d.segs).map (fun k => (d.range tree k).2 - (d.range tree k).1)).foldl (· + ·) 0

/-- The saturations at roots that other devices host. R227 gives no packet a field that carries the count from there, so it is a
free value here, up to the number of elements that those roots round (log 55). -/
def State.cflFarSats (s : State) (g : CflGroup) (r : CflRun) : Nat × State :=
  let m := ((r.d.rounds.filter (fun t => !g.hosts (rootRank t g.n))).map r.d.satMost).foldl (· + ·) 0
  if r.seq.isSome && m ≠ 0 then (Config.freeNat s.free % (m + 1), { s with free := s.free + 1 })
  else (0, s)

/-- A named CFL_ABORT waits for this collective. -/
def abortKey (group seq : Nat) : Nat := 2 ^ 32 * group + seq

/-- A CFL_ABORT of (group, seq) completes once every hosted rank has started the collective and none runs it any more (R254). -/
def State.cflAbortDone (s : State) (g : CflGroup) (seq : Nat) : State :=
  let x := (s.cflGroup g.d.id).getD g
  if s.cfl.runs.any (fun r => r.group = g.d.id && r.seq = some seq) || g.d.hosted.any (fun e => !seqBefore seq (x.nextSeq e.1)) then s
  else s.progress 0x0606 (abortKey g.d.id seq)

/-- A collective ends at a rank: its record, its buffers, what it still had to send; blocks that waited behind it may leave. -/
def State.cflEnd (s : State) (g : CflGroup) (r : CflRun) (st : Status) (by_ : Option Nat) : State :=
  let s := s.setCfl { s.cfl with runs := s.cfl.runs.filter (fun x => x.id ≠ r.id) }
  let mine := fun (o : CflOut) => o.group = r.group && o.rank = r.rank && some o.seq = r.seq
  let bufs := (s.cfl.outs.filter mine).map (·.buf) ++ r.ins.flatMap (fun x => x.bufs.map (fun b => some (b.1 / 65536, b.2)))
  let s := s.setCfl { s.cfl with outs := s.cfl.outs.filter (fun o => !mine o) }
  let s := bufs.foldl (fun s b => s.cflFree g r.rank b) s
  let s := s.cflDrainAll g r.rank
  let s := if st ≠ .ok && r.confirmed && !r.d.ctl then s.cflScramble g r else s
  let (far, s) := s.cflFarSats g r
  let s := s.cflDeliver g r st (r.record g.n st by_ far)
  match r.seq with
  | some q => s.cflAbortDone g q
  | none => s

/-! ### Aborts (R248, R252) -/

/-- The neighbours that a rank sends its ABORT to: its tree edges, or every rank for ALL_TO_ALL. -/
def CflGroup.edges (g : CflGroup) (rank : Nat) : List Nat :=
  ([0, 1].flatMap (fun t => (parentRank t rank g.n).toList ++ childRanks t rank g.n)).eraseDups

/-- Ends (group, seq) on the device. `raised`: by a node of this device, otherwise received from `from_`. `here`: the status of the
hosted ranks where it differs from the one the packets carry. `addr`: the address that the notice logs (R251). `shown`: the status
that the notice carries where it is another, that of a row (R273). -/
def State.cflAbort (s : State) (g : CflGroup) (seq : Nat) (st : Status) (by_ from_ : Option Nat) (raised : Bool) (here : Option Status := none)
    (addr : Nat := 0) (shown : Option Status := none) : State :=
  let gid := g.d.id
  let runs := s.cfl.runs.filter (fun r => r.group = gid && r.seq = some seq)
  let ranks := g.d.hosted.map (·.1)
  let all := runs.any (fun r => r.d.op = opAllToAll)
  let digest := fun (rank : Nat) => ((runs.find? (fun r => r.rank = rank)).map (·.digest)).getD 0
  let s := (s.countCfl 0).setCfl { (s.countCfl 0).cfl with last := ⟨gid, st.code, raised, true, seq⟩ }
  let s := s.w1cSet 0x12028 (2 ^ 25)
  let s := if raised && st = .mismatch then s.countCfl 1 else s
  let detail := put 15 0 (by_.getD 0) + flag 16 by_.isSome + flag 17 raised
  let s := (s.notify .collectiveAbort (shown.getD st) (some g.d.part) (gid + put 63 32 seq) detail (.die g.die) addr).itinEvent
    Notice.collectiveAbort.code (some g.d.part) st (leBytes 8 (gid + put 63 32 seq) ++ leBytes 8 detail)
  let sends := ranks.flatMap (fun r => ((if all then (List.range g.n) else g.edges r).filter (fun q => !g.hosts q && some q ≠ from_)).map (fun q => (r, q)))
  let s := sends.foldl (fun s e => s.cflCtl g e.2 (cflHead gid 7 0 seq 0 0 e.1 (digest e.1) 0 st.code 0)
    [wd (put 15 0 (by_.getD 0) + flag 16 by_.isSome)]) s
  let s := runs.foldl (fun s r => s.cflEnd g r (here.getD st) by_) s
  if ranks.any (fun r => !seqBefore seq (g.nextSeq r)) && !s.cfl.aborts.any (fun a => a.group = gid && a.seq = seq) then
    if s.cfl.aborts.length < 1024 then s.setCfl { s.cfl with aborts := s.cfl.aborts ++ [⟨gid, seq, st.code, by_⟩] }
    else s.setGroup gid { g with phase := .failed }
  else s

/-! ### The digest round (R230) -/

def State.cflConfirm (s : State) (g : CflGroup) (r : CflRun) : State :=
  (childRanks 0 r.rank g.n).foldl (fun s c => s.cflCtl g c (cflHead g.d.id 6 0 r.q 0 0 r.rank r.digest 0 0 0) [])
    (s.setRun { r with confirmed := true })

/-- DIGEST_UP goes up once the children's are here; at the root CONFIRM goes down. -/
def State.cflRound (s : State) (id : Nat) : State :=
  match s.cflRun id with
  | none => s
  | some r =>
    match s.cflGroup r.group with
    | none => s
    | some g =>
      if r.d.ctl || r.digSent || !(childRanks 0 r.rank g.n).all r.digs.contains then s
      else
        let r := { r with digSent := true }
        match parentRank 0 r.rank g.n with
        | none => (s.setRun r).cflConfirm g r
        | some p => (s.setRun r).cflCtl g p (cflHead g.d.id 5 0 r.q 0 0 r.rank r.digest 0 0 0) []

/-! ### A node's own words (R235 to R243) -/

/-- Bits and value of element i of the contribution. -/
def CflRun.value (r : CflRun) (i : Nat) : Nat × Exact :=
  let d := r.d
  let x := elemAt (fmtBits d.inFmt) r.source i
  (x, if d.inBlock then decodeInBlock d.inFmt (nth r.scales (i / 32) 0).toNat 0 (i % 32) x else decodeElem d.inFmt x)

/-- The values of element i of the pooled bags: one for each row that completed OK, in list order (R273). -/
def CflRun.pooled (r : CflRun) (i : Nat) : List Exact :=
  let d := r.d
  (r.pool.filter (fun e => e.1 = i / d.param)).map (fun e => decodeElem 0xD (nth e.2 (i % d.param) 0))

/-- The anchor of element i, from phase 1. -/
def CflRun.anchorAt (r : CflRun) (tree seg i : Nat) : Nat :=
  let k := r.d.p1Seg seg
  let (a, _) := r.d.p1Range tree k
  match r.ins.find? (fun x => (x.kind = 3 || x.kind = 17) && x.tree = tree && x.seg = k) with
  | some x => ofLe ((x.bytes.drop (2 * ((i - a) / 32))).take 2)
  | none => 0x8000

/-- The node's own word of an item. A bag without rows contributes +0 to a sum, and to MIN or MAX no number: a NaN, or where the
format has none a free value (log 59). -/
def CflRun.own (r : CflRun) (tree seg : Nat) : WItem → Nat
  | .count b => (r.pool.filter (fun e => e.1 = b)).length
  | .elem i =>
    let d := r.d
    let eb := r.anchorAt tree seg i
    if d.op = opPool then
      let xs := r.pooled i
      match xs.map (fun x => d.localWord r.rank i (encodeElem d.inFmt x) eb x) with
      | w :: ws => ws.foldl d.join w
      | [] => if d.sums then 0 else if canonicalNan d.inFmt ≠ 0 then canonicalNan d.inFmt
          else Config.freeNat (r.free + i) % 2 ^ fmtBits d.inFmt
    else
      let (v, x) := r.value i
      d.localWord r.rank i v eb x

/-- The node's own anchors of a tree and segment. -/
def CflRun.ownAnchors (r : CflRun) (tree seg : Nat) : List Nat :=
  let d := r.d
  let (a, b) := d.p1Range tree seg
  (List.range (ceilDiv (b - a) 32)).map (fun k =>
    let is := (List.range 32).map (a + 32 * k + ·) |>.filter (· < b)
    if d.op = opPool then p1Local (is.flatMap r.pooled) else p1Local (is.map (fun i => (r.value i).2)))

/-- The entries that a member contributes to a selection (R236), in the order in which they are merged. -/
def CflRun.entries (r : CflRun) : List Nat :=
  let d := r.d
  let es := (List.range d.elems).map (fun i => ((r.value i).2, cflEntry (r.value i).1 r.rank i))
  if d.op = opFilter then (es.filter (fun e => predHolds d e.1)).map (·.2)
  else if d.op = opTopK then (sortBy (entryAbove d.inFmt) (es.map (·.2))).take d.param
  else sortBy (sortBefore d.inFmt d.down) (es.map (·.2))

/-! ### Combining (R229) -/

/-- The children of a rank with what has come from them on a kind of stream; none where something is missing. -/
def CflRun.fromKids (r : CflRun) (n kind tree seg : Nat) : Option (List CflIn × List CflIn) :=
  let get := fun (c : Option Nat) => match c with
    | none => some []
    | some c => (r.in_ kind tree seg c).map (fun x => [x])
  match get (leftRank tree r.rank n), get (rightRank tree r.rank n) with
  | some a, some b => some (a, b)
  | _, _ => none

/-- The first segment not yet done at the node, which has something to combine there or a part of the result to take: at most four
are in flight from it on (R226). -/
def CflRun.base (r : CflRun) (n : Nat) : Nat :=
  let ps := r.d.parts n r.rank
  ((r.d.lanes n r.rank).map (fun l => (r.at_ l.1 l.2).1)).foldl min
    (((List.range r.d.segs).find? (fun k => ps.any (fun p => p.2.2 = k && !r.wrote.contains p))).getD r.d.segs)

/-- What a combining step makes. -/
inductive CflMade where
  /-- A block for the parent (kind 0, 2 or 9), with this node's rank as its source. -/
  | up (kind : Nat) (bytes : List Byte)
  /-- The result of a tree and segment as far as it is known, at its root (kind 16 or 17), with its saturations. -/
  | result (kind : Nat) (bytes : List Byte) (sats : Nat)
  /-- A block of a moving operation for one node. -/
  | direct (dst : Nat) (bytes : List Byte)
  /-- A bag's count exceeds 2^20 (R235). -/
  | limit
deriving DecidableEq, Repr

/-- A slice that is block j. -/
def blockSlice (j : Nat) (bytes : List Byte) : List Byte := (bytes.drop (4096 * j)).take 4096

/-- Phase 1: block j of the anchors. -/
def CflRun.makeP1 (r : CflRun) (n tree seg j : Nat) : Option CflMade := do
  let (ls, rs) ← r.fromKids n 2 tree seg
  let len := r.d.p1Len tree seg
  let need := min len (4096 * (j + 1))
  if (ls ++ rs).any (fun x => x.bytes.length < need) then none
  else
    let m := need / 2
    let kid := fun (x : CflIn) => readWords x.bytes (List.replicate m 16)
    let es := (ls ++ rs).foldl (fun e x => (e.zip (kid x)).map (fun p => p1Combine p.1 p.2)) ((r.ownAnchors tree seg).take m)
    let bytes := packWords (es.map (fun e => (16, e)))
    if (parentRank tree r.rank n).isNone then some (.result 17 bytes 0) else some (.up 2 (blockSlice j bytes))

/-- The results of the leading items at a root; under GATHER_POOL those of whole bags. -/
def CflRun.finishAll (r : CflRun) (n tree seg : Nat) (items : List WItem) (ws : List Nat) : List (Nat × Nat) :=
  let d := r.d
  let ps := items.zip ws
  let counts := ps.filterMap (fun p => match p.1 with
    | .count b => some (b, p.2)
    | .elem _ => none)
  ps.filterMap (fun p => match p.1 with
    | .count _ => none
    | .elem i =>
      if d.op = opPool then (counts.find? (fun c => c.1 = i / d.param)).map (fun c => d.finish p.2 (r.anchorAt tree seg i) c.2)
      else some (d.finish p.2 (r.anchorAt tree seg i) n))

/-- Block j of a reduction: the node's own words with its children's, in the order left, own, right (R241). -/
def CflRun.makeReduce (r : CflRun) (n tree seg j : Nat) : Option CflMade := do
  let d := r.d
  let kind := if d.ctl then 9 else 0
  let (ls, rs) ← r.fromKids n kind tree seg
  let items := d.items tree seg
  let ends := (items.foldl (fun (a : List Nat × Nat) i => (a.1 ++ [a.2], a.2 + d.itemBits i)) ([], 0)).1
  let m := if d.ctl then items.length else (ends.filter (· < 32768 * (j + 1))).length
  let part := items.take m
  let widths := part.map d.itemBits
  let words := fun (x : CflIn) => readWords x.bytes widths
  if (ls ++ rs).any (fun x => (words x).length < m) then none
  else if d.anchor && !(r.ins.any (fun x => (x.kind = 3 || x.kind = 17) && x.tree = tree && x.seg = d.p1Seg seg && x.bytes.length = d.p1Len tree (d.p1Seg seg))) then none
  else
    let join2 := fun (e : List (WItem × Nat)) (x : CflIn) => (e.zip (words x)).map (fun p =>
      (p.1.1, match p.1.1 with
        | .elem _ => d.join p.2 p.1.2
        | .count _ => (p.1.2 + p.2) % 2 ^ 64))
    let own := part.map (fun i => (i, r.own tree seg i))
    let es := rs.foldl (fun e x => (e.zip (words x)).map (fun p =>
        (p.1.1, match p.1.1 with
          | .elem _ => d.join p.1.2 p.2
          | .count _ => (p.1.2 + p.2) % 2 ^ 64))) (ls.foldl join2 own)
    let ws := es.map (·.2)
    if (parentRank tree r.rank n).isSome then some (.up kind (blockSlice j (packWords (widths.zip ws))))
    else if !d.canon && d.sums && es.any (fun e => match e.1 with
        | .count _ => decide (2 ^ 20 < e.2)
        | .elem _ => false) then some .limit
    else
      let fs := r.finishAll n tree seg part ws
      let bits := fs.length * d.outBits
      let bytes := packWords (fs.map (fun f => (d.outBits, f.1)))
      some (.result 16 (if m = items.length then bytes else bytes.take (bits / 8)) ((fs.map (·.2)).foldl (· + ·) 0))

/-- The entries of a selection's stream that are here, with the number of their source, and whether the list is whole. -/
def CflRun.listOf (r : CflRun) (n tag : Nat) (x : CflIn) : List (Nat × Nat) × Bool :=
  let skip := if r.d.op = opFilter then 1 else 0
  ((List.range (x.bytes.length / 16 - skip)).map (fun i => (elemAt 128 x.bytes (i + skip), tag)), r.d.whole n r.rank x)

/-- One list behind another, as far as that is known. -/
def chainPart (a b : List (Nat × Nat) × Bool) : List (Nat × Nat) × Bool := if a.2 then (a.1 ++ b.1, b.2) else a

/-- What a selection has made so far (R236): the entries known, each with its source (1 and 2 the left and the right child, 0 the
node), and the bytes of the whole list; none where that length is not known yet. -/
def CflRun.selected (r : CflRun) (n : Nat) : Option (List (Nat × Nat) × Nat) := do
  let d := r.d
  let (ls, rs) ← r.fromKids n 0 0 0
  let own := (r.entries.map (·, 0), true)
  let l := ls.map (r.listOf n 1)
  let q := rs.map (r.listOf n 2)
  if d.op = opFilter then
    if (ls ++ rs).any (fun x => x.bytes.length < 16) then none
    else
      let total := own.1.length + ((ls ++ rs).map (fun x => ofLe (x.bytes.take 16))).foldl (· + ·) 0
      let all := (l ++ [own] ++ q).foldl chainPart ([], true)
      some (all.1.take d.param, 16 + 16 * min total d.param)
  else
    let bef := if d.op = opTopK then entryAbove d.inFmt else sortBefore d.inFmt d.down
    let all := (l ++ q).foldl (fun e x => mergePart bef (e.1.length + x.1.length + 1) e x) own
    let m := (ls ++ rs).foldl (fun a x => a + subtreeSize 0 n x.src * d.elems) d.elems
    some (if d.op = opTopK then (all.1.take d.param, 16 * min d.param m) else (all.1, 16 * m))

/-- Bytes of a selection's list before its block j + 1. -/
def selectTo (len j : Nat) : Nat := min len (4096 * (j + 1))

/-- The first bytes of a selection's list; the leading unit of FILTER holds the total (log 58). -/
def CflRun.selectBytes (r : CflRun) (n : Nat) (es : List (Nat × Nat)) : List Byte :=
  let own := if r.d.op = opFilter then
      (match r.fromKids n 0 0 0 with
        | some (ls, rs) => leBytes 16 (r.entries.length + ((ls ++ rs).map (fun x => ofLe (x.bytes.take 16))).foldl (· + ·) 0)
        | none => [])
    else []
  own ++ packWords (es.map (fun e => (128, e.1)))

/-- Block j of a selection, once the children's lists determine it. -/
def CflRun.makeSelect (r : CflRun) (n j : Nat) : Option CflMade := do
  let (es, len) ← r.selected n
  let bytes := r.selectBytes n es
  if bytes.length < selectTo len j then none
  else
    let upTo := bytes.take (selectTo len j)
    if (parentRank 0 r.rank n).isSome then some (.up 0 (blockSlice j upTo)) else some (.result 16 upTo 0)

/-- The number of a child's entries that lie in the list up to block j, and whether the list ends there. -/
def CflRun.consumed (r : CflRun) (n j tag : Nat) : Nat × Bool :=
  match r.selected n with
  | none => (0, false)
  | some (es, len) =>
    let skip := if r.d.op = opFilter then 1 else 0
    (((es.take (selectTo len j / 16 - skip)).filter (fun e => e.2 = tag)).length + skip, decide (len ≤ 4096 * (j + 1)))

/-- A moving operation: block j of the node's own elements (R232, R233). -/
def CflRun.makeMove (r : CflRun) (n tree seg j : Nat) : Option CflMade :=
  let d := r.d
  let (a, b) := d.range (d.cutTree tree) seg
  let chunk := if d.op = opAllToAll then tree * d.elems else 0
  let w := d.outBits
  let bytes := blockSlice j (packWords ((List.range (b - a)).map (fun i => (w, elemAt w r.source (chunk + a + i)))))
  if d.op = opAllToAll then some (.direct tree bytes)
  else if d.op = opBroadcast then some (.direct (rootRank tree n) bytes)
  else if (parentRank tree r.rank n).isNone then some (.direct r.rank bytes) else some (.up 0 bytes)

/-- The step for a tree, segment and block, if all its inputs are here and it is the next of its lane. -/
def CflRun.make (r : CflRun) (n tree seg j : Nat) (p1 : Bool) : Option CflMade :=
  let d := r.d
  if !r.ready || !(d.lanes n r.rank).contains (tree, p1) || r.at_ tree p1 ≠ (seg, j) || d.segs ≤ seg || r.base n + 4 ≤ seg then none
  else if p1 then r.makeP1 n tree seg j
  else if d.selects then r.makeSelect n j
  else if d.moves then r.makeMove n tree seg j
  else r.makeReduce n tree seg j

/-- Takes from a stream the buffers of the first m blocks. -/
def CflIn.release (x : CflIn) (m : Nat) : CflIn × List (Option (Nat × Nat)) :=
  ({ x with bufs := x.bufs.filter (fun b => m ≤ b.1 % 65536) },
   (x.bufs.filter (fun b => b.1 % 65536 < m)).map (fun b => some (b.1 / 65536, b.2)))

/-- Blocks of an input that are combined once block j of the output is made: as many, or of a selection those whose entries all
stand in its list so far. -/
def CflRun.spent (r : CflRun) (n j : Nat) (x : CflIn) : Nat :=
  if r.d.selects then
    let (m, last) := r.consumed n j (if leftRank 0 r.rank n = some x.src then 1 else 2)
    if last then 65536 else m / 256
  else j + 1

/-- A buffer that holds an uncorrectable error, by its word (R251). -/
def State.cflBad (s : State) (g : CflGroup) (bufs : List (Option (Nat × Nat))) : Option Nat :=
  (s.cfl.bad.find? (fun e => e.1 = g.die && bufs.any (fun b => b.map (·.2) = some e.2.1))).map (·.2.2)

/-- A root has rounded: the saturations count, and every hosted rank's record will carry them (R244). -/
def State.cflSat (s : State) (r : CflRun) (tree n : Nat) : State :=
  let s := s.setCfl { s.cfl with runs := s.cfl.runs.map (fun x =>
    if x.group = r.group && x.seq = r.seq then { x with sats := x.sats.modify tree (· + n) } else x) }
  s.countCfl 2 n

/-- Carries out a combining step; `none` where an input is missing. -/
def State.cflCombine (s : State) (id tree seg j : Nat) (p1 : Bool) : Option State := do
  let r ← s.cflRun id
  let g ← s.cflGroup r.group
  let made ← r.make g.n tree seg j p1
  let d := r.d
  let key := posKey d tree p1
  let upKind := if p1 then 2 else if d.ctl then 9 else 0
  let used := fun (x : CflIn) => x.kind = upKind && x.tree = tree && x.seg = seg && !d.moves
  let bufs := (r.ins.filter used).flatMap (fun x => (x.release (r.spent g.n j x)).2)
  match s.cflBad g bufs with
  | some a => some (s.cflAbort g r.q .uncorrectable (some r.rank) none true none a)
  | none =>
    let next := if d.selects && (r.consumed g.n j 0).2 then (d.segs, 0) else (seg, j + 1)
    let r := { r with pos := r.pos.put key next, ins := r.ins.map (fun x => if used x then (x.release (r.spent g.n j x)).1 else x) }
    let s := s.setRun r
    let s := match made with
      | .up kind bytes =>
        (match parentRank tree r.rank g.n with
          | some p =>
            if d.ctl then s.cflCtl g p (cflHead g.d.id kind 0 r.q seg 0 r.rank r.digest bytes.length 0 0) (leWords 4 (padTo 32 0 bytes))
            else s.cflBlock g r p kind tree seg j r.rank bytes none
          | none => s)
      | .result kind bytes sat =>
        let old := (r.in_ kind tree seg r.rank).getD { kind := kind, tree := tree, seg := seg, src := r.rank }
        let x := { old with bytes := bytes, sat := sat }
        (s.setRun { r with ins := r.ins.filter (fun (y : CflIn) => !(y.kind = kind && y.tree = tree && y.seg = seg)) ++ [x] }).cflSat r tree (sat - old.sat)
      | .direct dst bytes =>
        if dst = r.rank then
          s.setRun (r.append (if d.op = opAllToAll then 4 else 16) (d.cutTree tree) seg r.rank bytes none 0)
        else s.cflBlock g r dst 4 (d.cutTree tree) seg j r.rank bytes none
      | .limit => s.cflAbort g r.q .countLimit (some r.rank) none true
    some ((bufs.foldl (fun s b => s.cflFree g r.rank b) s).cflDrainAll g r.rank)

end Sys2Proof.Machine
end

