-- ==== Sys2Proof/Machine/SheetCore.lean ====
section
/-! DEFINITION. Sheet at the sender: operation records, windows, operations in flight, their completion, lost members (R381 to R395, R400). -/

namespace Sys2Proof

/-- Whether a window entry of kind SHEET names a target and covers a line (R387). -/
def Window.holdsLine (w : Window) (member off : Nat) : Bool := w.valid && !w.plp && w.member = member && w.base ≤ off && off + 64 ≤ w.base + w.size
def Window.holdsPlp (w : Window) (dest a n : Nat) : Bool := w.valid && w.plp && w.dest = dest && w.base ≤ a && a + n ≤ w.base + w.size
def Window.forJob (w : Window) (job : Nat) : Bool := w.anyJob || w.jobTag = job

end Sys2Proof

namespace Sys2Proof.Machine

def State.setSht (s : State) (x : Sheet) : State := { s with sht := x }

/-- Places of the Sheet counters (R403). -/
def shtCombine : Nat := 0
def shtMark : Nat := 1
def shtRetx : Nat := 2
def shtLost : Nat := 3
def shtDenied : Nat := 4

def State.countSht (s : State) (i : Nat) (n : Nat := 1) : State := 
  (s.setSht { s.sht with counts := s.sht.counts.modify i (satInc · n) }).tally (0x15040 + 8 * i) n

/-! ### The operation record (R382, R385) -/

/-- An operation record: the four words. -/
structure SRec where
  w0 : Word
  w1 : Word
  w2 : Word
  w3 : Word
deriving DecidableEq, Repr

def srec (ws : List Word) : SRec := ⟨nth ws 0 0, nth ws 1 0, nth ws 2 0, nth ws 3 0⟩
def SRec.words (r : SRec) : List Word := [r.w0, r.w1, r.w2, r.w3]
def SRec.member (r : SRec) : Nat := bits r.w0 51 48
def SRec.off (r : SRec) : Nat := bits r.w0 47 0
def SRec.saddr (r : SRec) : Nat := bits r.w0 51 0
def SRec.op (r : SRec) : Nat := bits r.w0 55 52
def SRec.type (r : SRec) : Nat := bits r.w0 59 56
def SRec.fetch (r : SRec) : Bool := bit r.w0 60
def SRec.release (r : SRec) : Bool := bit r.w0 61
def SRec.mask (r : SRec) : Nat := r.w1.toNat
def SRec.job (r : SRec) : Nat := bits r.w2 15 0
def SRec.reqId (r : SRec) : Nat := bits r.w2 31 16
def SRec.handler (r : SRec) : Nat := bits r.w2 37 32
def SRec.cack (r : SRec) : Nat := bits r.w3 31 0
def SRec.unord (r : SRec) : Bool := bit r.w3 32
def SRec.merged (r : SRec) : Bool := bit r.w3 33
def SRec.parts (r : SRec) : Nat := bits r.w3 39 34 + 1

/-- OP codes. -/
def opLoad : Nat := 0
def opStore : Nat := 1
def opAdd : Nat := 2
def opMin : Nat := 3
def opMax : Nat := 4
def opCas : Nat := 5

/-- LOAD, STORE and CAS are ordered (R390). -/
def SRec.ordered (r : SRec) : Bool := r.op = opLoad || r.op = opStore || r.op = opCas
def SRec.atomic (r : SRec) : Bool := 2 ≤ r.op && r.op ≤ 5

/-- The operation returns a data line (R393). -/
def SRec.returns (r : SRec) : Bool := r.op = opLoad || r.op = opCas || r.fetch

/-- Bytes of an element of TYPE. -/
def typeBytes : Nat → Nat
  | 0 => 4
  | 1 => 8
  | 2 => 4
  | 3 => 2
  | 4 => 8
  | _ => 16

/-- The elements that MASK selects wholly, by their byte offset. -/
def SRec.elems (r : SRec) : List Nat :=
  let n := typeBytes r.type
  ((List.range (64 / n)).filter (fun i => (List.range n).all (fun j => r.mask.testBit (n * i + j)))).map (n * ·)

/-- MASK is a union of whole elements. -/
def SRec.wholeMask (r : SRec) : Bool :=
  let n := typeBytes r.type
  (List.range 64).all (fun i => !r.mask.testBit i || r.elems.contains (i / n * n))

/-- The MSG_INVALID conditions of R386 but for the length. -/
def SRec.invalid (r : SRec) : Bool :=
  bits r.w0 5 0 ≠ 0 || 6 ≤ r.op || 6 ≤ r.type || bits r.w0 63 62 ≠ 0 || bits r.w2 63 38 ≠ 0 || bits r.w3 63 40 ≠ 0 || r.mask = 0 ||
  (r.type = 5 && r.op ≠ opCas) || (r.op = opCas && r.type ≠ 1 && r.type ≠ 5) || (r.fetch && r.ordered) ||
  (r.release && r.op ≠ opStore) || (r.atomic && !r.wholeMask) ||
  (r.op = opCas && !(r.elems.length = 1 && r.elems.all (fun e => e + typeBytes r.type ≤ 32)))

/-! ### Members and homes (R381 to R384, R389) -/

/-- The home die of a line (R384). -/
def homeDie (off : Nat) : Nat := crc32 (leBytes 8 (off / 64)) % 4

/-- The home entries of a member, and the one that serves a line. -/
def memberHomes : SheetMember → List Nat
  | .none => []
  | .pq pfx hp => (List.range 4).map (fun d => 256 * pfx + nth hp d 0)
  | .endpoint g => [g]

def memberHome (m : SheetMember) (off : Nat) : Nat :=
  match m with
  | .none => 0
  | .pq pfx hp => 256 * pfx + nth hp (homeDie off) 0
  | .endpoint g => g

/-! ### Windows (R387) -/

def winKey : WinOwner → Nat
  | .part p => 64 * p
  | .sub l => 64 * (64 + l)

def State.windows (s : State) (o : WinOwner) : List Window := (s.sht.windows.filter (fun e => e.1 / 64 = winKey o / 64)).map (·.2)

/-- A Sheet request passes the check. -/
def State.winOk (s : State) (o : WinOwner) (r : SRec) : Bool :=
  (s.windows o).any (fun w => w.holdsLine r.member r.off && w.forJob r.job &&
    (if r.op = opLoad then w.load else if r.op = opStore then w.store else w.atomic && ((!r.fetch && r.op ≠ opCas) || w.load)))

/-- A PLP_DATA packet passes the check (R308). -/
def State.winPlp (s : State) (o : WinOwner) (dest a n job : Nat) : Bool :=
  (s.windows o).any (fun w => w.holdsPlp dest a n && w.forJob job && w.store)

/-! ### Completion (R394) -/

/-- The completion word. -/
def complWord (st : Status) (mark inter casFail : Bool) (reqId job : Nat) : Word :=
  wd (put 7 0 st.code + flag 8 mark + flag 9 inter + flag 10 casFail + put 31 16 reqId + put 47 32 job)

/-- Sends a completion to the source of an operation. -/
def State.shtReply (s : State) (o : ShtOp) (w : Word) (data : Option (List Byte)) : State :=
  match o.source with
  | .tile t => s.toMesh (gatewayMsg 1 t (srec o.words).handler (o.part.getD 0) o.tag (leBytes 8 w.toNat) (data.getD []))
  | .accel l =>
    s.toAccel l (dataPacket o.cls (s.sub l).cfg.partnerGrid ulpCompletion o.dest (srec o.words).job 0 o.reqId 0 [w]
      (data.getD (List.replicate 64 0))) o.part

/-- A kept packet is the request of an operation. -/
def FlowPkt.keeps (q : FlowPkt) (o : ShtOp) : Bool :=
  q.pkt.ulp = ulpSheet && (match o.fseq with
    | some n => q.op.isNone && q.fseq = n
    | none => q.op = some o.id)

/-- The copy of a completed request leaves the store. -/
def State.shtUnkeep (s : State) (o : ShtOp) : State :=
  match o.source with
  | .accel l =>
    (match s.srcFlow l o.dest o.cls with
      | some f => s.putFlow { f with last := s.now, pkts := f.pkts.filter (fun q => !q.keeps o) }
      | none => s)
  | .tile _ => s

/-- The source Grid Reference of a flow (R389). -/
def State.shtSrc (s : State) (o : ShtOp) : Nat :=
  match o.source with
  | .tile _ => s.selfHome o.die
  | .accel l => (s.sub l).cfg.partnerGrid

def State.shtFlow (s : State) (src dest : Nat) : ShtFlow :=
  (s.sht.flows.find? (fun f => f.src = src && f.dest = dest)).getD { src := src, dest := dest }

def State.setShtFlow (s : State) (f : ShtFlow) : State :=
  s.setSht { s.sht with flows := s.sht.flows.filter (fun g => !(g.src = f.src && g.dest = f.dest)) ++ [f] }

/-- An operation that is in flight has completed: it leaves the unit, releases that waited for it learn of it (R388, R391). -/
def State.shtFinish (s : State) (o : ShtOp) (st : Status) (mark inter casFail : Bool) (data : Option (List Byte)) : State :=
  let s := s.setSht { s.sht with
    ops := (s.sht.ops.filter (fun x => x.id ≠ o.id)).map (fun x =>
      if x.after.contains o.id then { x with after := x.after.filter (· ≠ o.id), spoiled := x.spoiled || st ≠ .ok } else x),
    failed := if st = .ok || s.sht.failed.contains o.source then s.sht.failed else s.sht.failed ++ [o.source] }
  let s := if o.fseq.isSome then s.setShtFlow { s.shtFlow (s.shtSrc o) o.dest with last := s.now } else s
  (s.shtUnkeep o).shtReply o (complWord st mark inter casFail (srec o.words).reqId (srec o.words).job) data

/-- A completion without data and without marks. -/
def State.shtEnd (s : State) (o : ShtOp) (st : Status) : State := s.shtFinish o st false false false none

/-! ### Sending (R388 to R391) -/

/-- The Traverse line by which an operation enters. -/
def ShtOp.line (o : ShtOp) : Nat :=
  match o.source with
  | .tile t => tileLine t
  | .accel l => lportLine l

/-- CACK of a flow, counted modulo 2^32: every ordered FSEQ below it has completed at the source (R385, R394). -/
def State.shtCack (s : State) (src dest next : Nat) : Nat :=
  ((s.sht.ops.filter (fun o => o.sent && o.dest = dest && s.shtSrc o = src)).filterMap (·.fseq)).foldl
    (fun b f => if (next + 2 ^ 32 - b) % 2 ^ 32 < (next + 2 ^ 32 - f) % 2 ^ 32 then f else b) next

/-- The flow of an operation that is about to leave. One to an endpoint member that has been idle for 35.0 µs starts again at 0, as the
reorder at the member's edge expects (R309, R339, log 21). -/
def State.shtFlowNow (s : State) (o : ShtOp) : ShtFlow :=
  let f := s.shtFlow (s.shtSrc o) o.dest
  let busy := s.sht.ops.any (fun x => x.sent && x.fseq.isSome && x.dest = o.dest && s.shtSrc x = f.src)
  match s.member_ o.member with
  | .endpoint _ => if !busy && f.last + 65625 ≤ s.now then { f with next := 0 } else f
  | _ => f

/-- The request packet of an operation (R385, R389). -/
def State.shtPacket (s : State) (o : ShtOp) : Packet :=
  let r := srec o.words
  let src := s.shtSrc o
  let cack := s.shtCack src o.dest (s.shtFlow src o.dest).next
  dataPacket o.cls o.dest ulpSheet src r.job (o.fseq.getD 0) o.wire 0
    [r.w0, r.w1, wd (put 15 0 r.job + put 31 16 r.reqId), wd (put 31 0 cack + flag 32 (!r.ordered))] (padTo 64 0 o.data)

/-- Whether a home entry is this device's own: the request goes to the home die on chip (R384). -/
def State.ownDie (s : State) (o : ShtOp) : Option Nat :=
  if s.sht.self = some o.member then some (homeDie (srec o.words).off) else none

/-- Writes the request on the wire, or hands it to the home die on chip. -/
def State.shtEmit (s : State) (o : ShtOp) : State :=
  let p := s.shtPacket o
  match s.ownDie o with
  | some d => s.setFab { s.fab with inbox := s.fab.inbox ++ [(16 * d, .sheet d 0, p)] }
  | none => s.admitRaw { line := o.line, part := o.part } p

/-- The copy of an accelerator's request in the retransmit store of its sub-port: an ordered one under the flow's FSEQ (R309, R340). -/
def State.shtKeep (s : State) (o : ShtOp) : State :=
  match o.source, s.ownDie o with
  | .accel l, none =>
    let p := s.shtPacket o
    let f := (s.srcFlow l o.dest o.cls).getD { src := l, dest := o.dest, vc := o.cls }
    (s.storeWrite l p).putFlow { f with last := s.now, timer := if f.pkts.isEmpty then s.now else f.timer,
                                        pkts := f.pkts ++ [{ fseq := o.fseq.getD 0, pkt := p, op := if o.fseq.isSome then none else some o.id }] }
  | _, _ => s

/-- Sends an operation for the first time: an ordered one takes the next FSEQ of its flow. -/
def State.shtSend (s : State) (o : ShtOp) : State :=
  let r := srec o.words
  let f := s.shtFlowNow o
  let o := { o with sent := true, sentAt := s.now, fseq := if r.ordered then some f.next else none }
  let s := s.setSht { s.sht with ops := s.sht.ops.map (fun x => if x.id = o.id then o else x) }
  let s := if r.ordered then s.setShtFlow { f with next := (f.next + 1) % 2 ^ 32 } else s
  (s.shtKeep o).shtEmit o

/-- A release store that must still wait, or be aborted (R391). -/
def ShtOp.heldBack (o : ShtOp) : Bool := (srec o.words).release && (!o.after.isEmpty || o.spoiled)

/-- The operations of one source leave in issue order (R390): those ahead of the first that is held. -/
def State.shtPump (s : State) (src : ShtSource) : State :=
  ((s.sht.ops.filter (fun o => o.source = src && !o.sent)).takeWhile (fun o => !o.heldBack)).foldl State.shtSend s

/-- Room for one more operation: 4,096 in a die's unit, 256 ordered ones in a flow (R388). -/
def State.shtRoom (s : State) (die src dest : Nat) (ordered : Bool) : Bool :=
  (s.sht.ops.filter (fun o => o.die = die)).length < 4096 &&
    (!ordered || (s.sht.ops.filter (fun o => o.dest = dest && s.shtSrc o = src && (srec o.words).ordered)).length < 256)

/-- The unit of a die is full, and with operations of other partitions too (R388). -/
def State.shtFullByOthers (s : State) (die : Nat) (part : Option Nat) : Bool :=
  let l := s.sht.ops.filter (fun o => o.die = die)
  4096 ≤ l.length && l.any (fun o => o.part ≠ part)

/-- The next wire number of a die, of 32,768, that no operation of it uses (log 52). -/
def State.shtWire (s : State) (die : Nat) : Nat :=
  let used := (s.sht.ops.filter (fun o => o.die = die)).map (·.wire)
  (((List.range (used.length + 1)).map (fun i => (s.sht.wires.lookD die 0 + i) % 32768)).find? (fun i => !used.contains i)).getD 0

/-- What becomes of a request at the unit (R386 to R391): the status that turns it away, acceptance, or a wait for room. -/
inductive ShtTake where
  | refuse (st : Status)
  | wait
  | take
deriving DecidableEq, Repr

def State.shtJudge (s : State) (o : ShtOp) (owner : WinOwner) (badLen : Bool) : ShtTake :=
  let r := srec o.words
  if r.invalid || badLen then .refuse .msgInvalid
  else if s.member_ r.member = .none then .refuse .accessDenied
  else if !s.winOk owner r then .refuse .accessDenied
  else if s.sht.lost.contains r.member then .refuse .targetLost
  else if !s.shtRoom o.die (s.shtSrc o) o.dest r.ordered then .wait
  else .take

/-- Counts of a refusal: SHT_DENIED_COUNT, SHT_LOST_COUNT; `plp`: the packet carries a PLP address. The request waits no more, and a later
release store of its source learns that it failed (R391). -/
def State.shtRefused (s : State) (o : ShtOp) (owner : WinOwner) (st : Status) (plp : Bool := false) : State :=
  let r := srec o.words
  let s := s.setSht { s.sht with waiting := s.sht.waiting.filter (fun w => w.source ≠ o.source),
                                 failed := if s.sht.failed.contains o.source then s.sht.failed else s.sht.failed ++ [o.source] }
  if plp then s.countSht shtDenied
  else if st = .targetLost then s.countSht shtLost
  else if st = .accessDenied && s.member_ r.member ≠ .none && !s.winOk owner r then s.countSht shtDenied
  else s

/-- Counts STK_BACKPRESSURE once for each request of a Datum partition that waits while others' operations fill its unit (R388). -/
def State.shtCrowd (s : State) : State :=
  let due := fun (w : ShtWait) => !w.counted && s.shtFullByOthers w.die w.part
  let s' := s.setSht { s.sht with waiting := s.sht.waiting.map (fun w => { w with counted := w.counted || due w }) }
  (s.sht.waiting.filter due).foldl (fun s w => s.drift 5 w.part.toList) s'

/-- Takes an operation in flight. -/
def State.shtAccept (s : State) (o : ShtOp) : State :=
  let rel := (srec o.words).release
  let o := { o with id := s.sht.next, wire := s.shtWire o.die,
                    after := if rel then (s.sht.ops.filter (fun x => x.source = o.source)).map (·.id) else [],
                    spoiled := rel && s.sht.failed.contains o.source }
  let s := s.setSht { s.sht with next := s.sht.next + 1, wires := s.sht.wires.put o.die ((o.wire + 1) % 32768), ops := s.sht.ops ++ [o], waiting := s.sht.waiting.filter (fun w => w.source ≠ o.source),
                                 failed := if rel then s.sht.failed.filter (· ≠ o.source) else s.sht.failed }
  s.shtCrowd.shtPump o.source

/-- A request waits for room (R388). -/
def State.shtHold (s : State) (o : ShtOp) : State :=
  if s.sht.waiting.any (fun w => w.source = o.source) then s.shtCrowd
  else (s.setSht { s.sht with waiting := s.sht.waiting ++ [{ source := o.source, die := o.die, part := o.part }] }).shtCrowd

/-- The merged packet of a combine record leaves: its timer runs (R397). -/
def State.combineSent (s : State) (load : Nat) : State :=
  s.setSht { s.sht with records := s.sht.records.map (fun r => if r.load = load then { r with sentAt := some s.now } else r) }

/-! ### Answers (R394) -/

/-- A packet is the answer to an operation: of its wire number, with its REQ_ID and JOB_TAG in the completion word. -/
def ShtOp.answered (o : ShtOp) (p : Packet) : Bool :=
  p.isData && p.ulp = ulpCompletion && o.sent && o.wire = p.reqId && bits (p.word 4) 31 16 = (srec o.words).reqId &&
    bits (p.word 4) 47 32 = (srec o.words).job

/-- The answer to an operation that has reached its unit, and the state without it. -/
def State.shtAnswer (s : State) (o : ShtOp) : Option (Packet × State) :=
  (takeFirst (fun (e : Nat × LocalTarget × Packet) => (match e.2.1 with
    | .sheet d _ => d = o.die
    | _ => false) && o.answered e.2.2) s.fab.inbox).map (fun r => (r.1.2.2, s.setFab { s.fab with inbox := r.2 }))

/-- An operation completes with its answer. -/
def State.shtComplete (s : State) (o : ShtOp) (p : Packet) : State :=
  let w := p.word 4
  let st := (Status.ofCode (bits w 7 0)).getD .ok
  let s := if bit w 9 then s.drift 13 o.part.toList else s
  s.shtFinish o st (bit w 8) (bit w 9) (bit w 10) (if (srec o.words).returns && st = .ok then some (padTo 64 0 p.payload) else none)

/-- Sources whose operations were ended: what waited behind them may leave (R390, R391). -/
def State.shtPumpAll (s : State) (ops : List ShtOp) : State := ((ops.map (·.source)).eraseDups).foldl State.shtPump s

/-! ### Lost members (R400) -/

/-- Declares a member lost: its operations complete with TARGET_LOST, but for those whose completion has arrived, which stands; a notice
for each job tag ended. -/
def State.shtLose (s : State) (m : Nat) : State :=
  let (stand, gone) := (s.sht.ops.filter (fun o => o.member = m)).partition (fun o => (s.shtAnswer o).isSome)
  let s := stand.foldl (fun s o => match s.shtAnswer o with
    | some (p, s) => s.shtComplete o p
    | none => s) s
  let s := s.setSht { s.sht with lost := if s.sht.lost.contains m then s.sht.lost else s.sht.lost ++ [m] }
  let s := gone.foldl (fun s o => (s.countSht shtLost).shtEnd o .targetLost) s
  let jobs := (gone.map (fun o => (srec o.words).job)).eraseDups
  let via := fun (l : List ShtOp) => Origin.die ((l.map (·.die)).headD 0)
  let s := if jobs.isEmpty then s.notify .memberLost .targetLost none m 0 (via [])
    else jobs.foldl (fun s j => s.notify .memberLost .targetLost none m j (via (gone.filter (fun o => (srec o.words).job = j))) (job := j)) s
  s.shtPumpAll (stand ++ gone)

/-- Members whose every home entry is marked unreachable are lost. -/
def State.shtScan (s : State) : State :=
  (List.range 16).foldl (fun s m =>
    let hs := (memberHomes (s.member_ m))
    if !hs.isEmpty && s.sht.self ≠ some m && !s.sht.lost.contains m && hs.all s.routeDead then s.shtLose m else s) s

/-- A route has become usable again: members that it reaches are lost no more. -/
def State.shtRouteBack (s : State) : State :=
  s.setSht { s.sht with lost := s.sht.lost.filter (fun m => (memberHomes (s.member_ m)).all s.routeDead) }

end Sys2Proof.Machine
end

