-- ==== Sys2Proof/Machine/CflFlow.lean ====
section
/-! DEFINITION. Confluence at work: results that pass a node, submissions and starts, packets that arrive, lost neighbours (R218 to R236, R248 to R252); and the entry of packets into Traverse with what it makes lost. -/

namespace Sys2Proof.Machine

/-! ### Passing results on -/

/-- Where a node passes a stream on, with the kind it then has. -/
def CflRun.targets (r : CflRun) (n : Nat) (x : CflIn) : List (Nat × Nat) :=
  let d := r.d
  let kids := childRanks x.tree r.rank n
  let fed := kids.filter (fun c => !d.scatters || !(d.downElems n x.tree x.seg c).isEmpty)
  if x.kind = 3 || x.kind = 17 then kids.map (·, 3)
  else if x.kind = 10 || (x.kind = 16 && d.ctl) then kids.map (·, 10)
  else if x.kind = 16 && d.toRoot then (if d.root = r.rank then [] else [(d.root, 4)])
  else if x.kind = 1 || x.kind = 16 then fed.map (·, 1)
  else []

/-- The elements of a stream's first bytes that a child gets, packed, and their bits. -/
def CflRun.kidPart (r : CflRun) (n : Nat) (x : CflIn) (c : Nat) (bytes : List Byte) : List Byte × Nat :=
  let d := r.d
  let (a, b) := d.range x.tree x.seg
  let es := if x.kind = 1 then d.downElems n x.tree x.seg r.rank
    else if d.op = opSort then List.range (n * d.elems) else (List.range (b - a)).map (a + ·)
  let mine := d.downElems n x.tree x.seg c
  let is := (List.range (min es.length (8 * bytes.length / max d.outBits 1))).filter (fun i => mine.contains (nth es i 0))
  (packWords (is.map (fun i => (d.outBits, elemAt d.outBits bytes i))), is.length * d.outBits)

/-- The first bytes of a stream, to the end of block j. -/
def CflRun.upTo (r : CflRun) (n : Nat) (x : CflIn) (j : Nat) : List Byte × Bool :=
  let last := r.d.whole n r.rank x && decide (r.d.blocksOf x.bytes.length ≤ j)
  (if last then x.bytes else x.bytes.take (4096 * j), last)

/-- The blocks that block j of a stream completes for a child of a scattering operation: index and bytes. -/
def CflRun.kidBlocks (r : CflRun) (n : Nat) (x : CflIn) (c j : Nat) : List (Nat × List Byte) :=
  let before := (r.kidPart n x c (r.upTo n x j).1).2 / 32768
  let (bs, last) := r.upTo n x (j + 1)
  let (bytes, bits) := r.kidPart n x c bs
  let after := if last then ceilDiv bytes.length 4096 else bits / 32768
  (List.range (after - before)).map (fun i => (before + i, blockSlice (before + i) bytes))

/-- Blocks of a stream that may be passed on. -/
def CflRun.passable (r : CflRun) (n : Nat) (x : CflIn) : Nat :=
  let d := r.d
  if d.whole n r.rank x then d.blocksOf x.bytes.length else if d.ctl then 0 else x.bytes.length / 4096

/-- Sends block j of a stream to its targets; the buffer is freed with the last of them. A block whose buffer holds an
uncorrectable error is not forwarded (R251). -/
def State.cflPass (s : State) (g : CflGroup) (r : CflRun) (x : CflIn) (j : Nat) : State :=
  let d := r.d
  let ts := r.targets g.n x
  let bufs := (x.bufs.filter (fun b => b.1 % 65536 = j)).map (fun b => some (b.1 / 65536, b.2))
  let src := if d.op = opAllGather then x.src else r.rank
  if (s.cflRun r.id).isNone then s
  else match s.cflBad g bufs with
    | some a => s.cflAbort g r.q .uncorrectable (some r.rank) none true none a
    | none =>
      if ts.isEmpty then bufs.foldl (fun s b => s.cflFree g r.rank b) s
      else if d.ctl then
        ts.foldl (fun s t => s.cflCtl g t.1 (cflHead g.d.id t.2 0 r.q x.seg 0 r.rank r.digest x.bytes.length 0 0)
          (leWords 4 (padTo 32 0 x.bytes))) s
      else if d.scatters && (x.kind = 1 || x.kind = 16) then
        let s := ts.foldl (fun s t => (r.kidBlocks g.n x t.1 j).foldl (fun s b => s.cflBlock g r t.1 t.2 x.tree x.seg b.1 src b.2 none) s) s
        bufs.foldl (fun s b => s.cflFree g r.rank b) s
      else (List.range ts.length).foldl (fun s i =>
        let (dst, kind) := nth ts i (0, 0)
        s.cflBlock g r dst kind x.tree x.seg j src (blockSlice j x.bytes) (if i + 1 = ts.length then (bufs.head?).getD none else none)) s

/-- Passes on everything of a run that may go: results only after CONFIRM (R230). -/
def State.cflForward (s : State) (id : Nat) : State :=
  match s.cflRun id with
  | none => s
  | some r0 =>
    match s.cflGroup r0.group with
    | none => s
    | some g =>
      (List.range r0.ins.length).foldl (fun s i =>
        match s.cflRun id with
        | none => s
        | some r =>
          match r.ins[i]? with
          | none => s
          | some x =>
            let down := x.kind = 1 || x.kind = 10 || x.kind = 16 || x.kind = 3 || x.kind = 17
            if !down || (!r.confirmed && x.kind ≠ 3 && x.kind ≠ 17) then s
            else
              let m := r.passable g.n x
              let s := s.setRun { r with ins := r.ins.set i { x with fwd := m, bufs := x.bufs.filter (fun b => m ≤ b.1 % 65536) } }
              (List.range (m - x.fwd)).foldl (fun s k => s.cflPass g r x (x.fwd + k)) s) s

/-- Writes the parts of the result that are whole, once CONFIRM has come; a write that fails aborts the collective (R248). -/
def State.cflStore (s : State) (id : Nat) : State :=
  match s.cflRun id with
  | none => s
  | some r =>
    match s.cflGroup r.group with
    | none => s
    | some g =>
      if !r.confirmed then s
      else (r.d.parts g.n r.rank).foldl (fun s p =>
        match s.cflRun id with
        | none => s
        | some r =>
          if r.wrote.contains p then s
          else match r.partIn p with
            | none => s
            | some x =>
              if r.d.whole g.n r.rank x then
                let (st, s) := (s.setRun { r with wrote := r.wrote ++ [p] }).cflWrite g r p x.bytes
                if st = .ok then s else (s.setRun r).cflAbort g r.q st (some r.rank) none true
              else s) s

/-- Whether a run has done all its work. -/
def CflRun.over (r : CflRun) (n : Nat) : Bool :=
  r.confirmed && r.upDone n && (r.d.parts n r.rank).all r.wrote.contains &&
    r.ins.all (fun x => (r.targets n x).isEmpty || (r.d.whole n r.rank x && x.fwd = r.passable n x))

/-- The roots that this device hosts have rounded everything, so that the saturations are known (R244). -/
def State.cflRounded (s : State) (g : CflGroup) (r : CflRun) : Bool :=
  r.d.rounds.all (fun t => match s.cfl.runs.find? (fun x => x.group = r.group && x.seq = r.seq && x.rank = rootRank t g.n) with
    | some x => x.upSent g.n t
    | none => true)

def State.cflFinish (s : State) (id : Nat) : State :=
  match s.cflRun id with
  | none => s
  | some r =>
    match s.cflGroup r.group with
    | none => s
    | some g =>
      if r.over g.n && s.cflRounded g r && !s.cflOut r.id (fun _ => true) && !s.cfl.outs.any (fun o => o.group = r.group && o.rank = r.rank && some o.seq = r.seq) then s.cflEnd g r .ok none else s

/-- BARRIER and SCALAR_REDUCE combine by themselves as soon as they can (R234); fuel bounds the loop. -/
def State.cflScalar : Nat → State → Nat → State
  | 0, s, _ => s
  | k + 1, s, id =>
    match s.cflRun id with
    | none => s
    | some r =>
      if !r.d.ctl then s
      else match (r.d.lanes ((s.cflGroup r.group).map (·.n) |>.getD 1) r.rank).findSome? (fun l =>
          s.cflCombine id l.1 (r.at_ l.1 l.2).1 (r.at_ l.1 l.2).2 l.2) with
        | some s => State.cflScalar k s id
        | none => s

/-- What follows an event at a node; the other ranks of the collective here may then be complete too. -/
def State.cflStep (s : State) (id : Nat) : State :=
  let s := ((State.cflScalar 8 (s.cflRound id) id).cflForward id).cflStore id
  match s.cflRun id with
  | none => s
  | some r =>
    let s := match s.cflGroup r.group with
      | some g => s.cflDrainAll g r.rank
      | none => s
    ((s.cfl.runs.filter (fun x => x.group = r.group && x.seq = r.seq)).map (·.id)).foldl State.cflFinish s

/-! ### Packets that arrive (R228 to R234) -/

/-- The runs of the same device that a packet or an abort may have ended are looked up anew: a packet for a started run. -/
def State.cflTake (s : State) (g : CflGroup) (r : CflRun) (p : Packet) (buf : Option (Nat × Nat)) : State :=
  let d := r.d
  let kind := p.cflKind
  let tree := p.cflTree
  let seg := p.cflSeg
  let src := p.cflSrc
  let r := { r with last := s.now }
  let s := s.setRun r
  let stream := ((buf.map (·.1)).getD 0)
  let own := kind = 0 && src = r.rank
  if kind ≠ 6 && !own && p.cflDigest ≠ r.digest then (s.cflFree g r.rank buf).cflAbort g r.q .mismatch (some r.rank) none true
  else if kind = 5 then s.setRun { r with digs := r.digs ++ [src] }
  else if kind = 6 then s.cflConfirm g r
  else
    let bytes := p.cflPayload
    if own then
      -- the contribution of an accelerator, whose buffer is free once its bytes are taken (log 60)
      let all := r.source ++ bytes
      let n := d.srcBytes g.n r.rank
      let whole := decide (n + d.scaleBytes ≤ all.length)
      match s.cflBad g [buf] with
      | some a => (s.cflFree g r.rank buf).cflAbort g r.q .uncorrectable (some r.rank) none true none a
      | none => (s.setRun (if d.op = opPool then { r with source := all } else if whole then { r with source := all.take n, scales := all.drop n, ready := true } else { r with source := all })).cflFree g r.rank buf
    else if d.op = opAllGather && kind = 0 then
      match parentRank tree r.rank g.n with
      | some q => (s.setRun r).cflBlock g r q 0 tree seg p.cflBlk src bytes buf
      | none => s.setRun (r.append 16 tree seg src bytes (buf.map (·.2)) stream)
    else if d.op = opBroadcast && kind = 4 then (s.setRun (r.append 16 tree seg r.rank bytes none 0)).cflFree g r.rank buf
    else s.setRun (r.append kind tree seg src bytes (buf.map (·.2)) stream)

/-- A packet for a hosted rank: to its run where that has started; kept where it has not (R231); discarded where it is over.
`after`: what follows at the run. -/
def State.cflArrive (s : State) (g : CflGroup) (rank : Nat) (p : Packet) (after : State → Nat → State) : State :=
  let tree := p.cflTree
  let kind := p.cflKind
  let peer := if kind = 0 && !((childRanks tree rank g.n).contains p.cflSrc) then
      ((childRanks tree rank g.n).find? (fun c => inSubtree tree g.n c p.cflSrc)).getD p.cflSrc
    else if kind = 1 || kind = 3 then (parentRank tree rank g.n).getD 0 else p.cflSrc
  let k := cflStream g.d.id peer rank tree (kind = 1 || kind = 3)
  let data := p.isData && kind ≠ 4
  let (buf, s) := match (if data then s.cfl.grants.lookD k [] else []) with
    | i :: rest => (some (k, i), s.setCfl { s.cfl with grants := s.cfl.grants.put k rest,
                                                         bad := s.cfl.bad.filter (fun e => !(e.1 = g.die && e.2.1 = i)) })
    | [] => (none, s)
  match s.started g.d.id rank p.cflSeq with
  | some r => after (s.cflTake g r p buf) r.id
  | none =>
    if !seqBefore p.cflSeq (g.nextSeq rank) then s.setCfl { s.cfl with early := s.cfl.early ++ [(rank, p, buf.map (fun b => b.1 * 65536 + b.2))] }
    else s.cflFree g rank buf

/-! ### Starting (R23, R216, R218, R231) -/

/-- Collectives of a group in flight here, by sequence number. -/
def State.cflSeqs (s : State) (g : Nat) : List Nat := ((s.cfl.runs.filter (fun r => r.group = g)).filterMap (·.seq)).eraseDups

def State.cflOpen (s : State) : Nat := (s.cfl.groups.keep (fun _ g => g.isOpen)).length
def State.cflShared (s : State) : Nat := (s.cfl.groups.map (fun e => (s.cflSeqs e.1).length - 1)).foldl (· + ·) 0

/-- The head of a rank's queue. -/
def State.cflHeadOf (s : State) (g rank : Nat) : Option CflRun := s.cfl.runs.find? (fun r => r.group = g && r.rank = rank && r.seq.isNone)

/-- The group accepts: it is open and its tiles run the runtime (R23). The spec names no mark of the collective runtime: a designated
tile counts as running it when it is RUNNING, whatever its program: DESIGN CHOICE (log 30). -/
def State.cflAccepts (s : State) (g : CflGroup) : Bool := g.phase = .open_ && g.d.tiles.all (fun t => (s.tile t).state = .running)

/-- Whether a submission would need a context of the shared pool. -/
def State.cflNeedsShared (s : State) (g : CflGroup) (r : CflRun) : Bool :=
  let qs := s.cflSeqs g.d.id
  !qs.isEmpty && !qs.contains (g.nextSeq r.rank)

/-- Whether a context is there: the group's own, one that the collective already has, or a shared one, in the order of
submission (R216). -/
def State.cflContext (s : State) (g : CflGroup) (r : CflRun) : Bool :=
  !s.cflNeedsShared g r || (decide (s.cflShared < 1024 - s.cflOpen) &&
    !(s.cfl.runs.takeWhile (fun x => x.id ≠ r.id)).any (fun x => x.seq.isNone && (match s.cflGroup x.group with
      | some y => s.cflAccepts y && s.cflNeedsShared y x && (s.cflHeadOf x.group x.rank).map (·.id) = some x.id
      | none => false)))

/-- The sequence number that a submission which has not started will take. -/
def State.heldSeq (s : State) (r : CflRun) : Nat :=
  let ahead := (s.cfl.runs.takeWhile (fun x => x.id ≠ r.id)).filter (fun x => x.group = r.group && x.rank = r.rank && x.seq.isNone)
  ((((s.cflGroup r.group).map (fun g => g.nextSeq r.rank)).getD 0) + ahead.length) % 2 ^ 32

/-- The collectives, by group and sequence number, of the submissions that a test selects and that no rank here has started. -/
def State.heldOf (s : State) (p : CflRun → Bool) : List (Nat × Nat) :=
  (((s.cfl.runs.filter (fun r => r.seq.isNone && p r)).map (fun r => (r.group, s.heldSeq r))).eraseDups).filter (fun e =>
    !s.cfl.runs.any (fun r => r.group = e.1 && r.seq = some e.2))

/-- The collectives that wait for a context only (R216, R257). -/
def State.heldForContext (s : State) : List (Nat × Nat) :=
  s.heldOf (fun r => match s.cflGroup r.group with
    | some g => s.cflAccepts g && (s.cflHeadOf r.group r.rank).map (·.id) = some r.id && !s.cflContext g r
    | none => false)

/-- The bags of a GATHER_POOL contribution: its table must agree with the descriptor (R273). -/
def State.poolBad (s : State) (g : CflGroup) (d : CflDesc) (bags : List (Nat × Nat × Nat)) : Bool :=
  bags.any (fun b => match s.gazTable b.1 with
    | some t => t.deleting || t.d.part ≠ g.d.part || t.d.d ≠ d.param || t.d.fmt ≠ d.inFmt
    | none => true)

/-- A row of GATHER_POOL that failed, or all of them read: the run goes on or is aborted (R273). -/
def State.cflRows (s : State) (q : GazReq) (run : Nat) : State :=
  match s.cflRun run with
  | none => s.gazEnd q
  | some r =>
    match s.cflGroup r.group with
    | none => s.gazEnd q
    | some g =>
      match q.rows.findSome? (fun x => match x.status with
        | some .ok => none
        | st => st) with
      | some st => (s.gazEnd q).cflAbort g r.q (if st = .uncorrectable then .uncorrectable else .aborted) (some r.rank) none true (shown := some st)
      | none =>
        if q.whole then
          let pool := (List.range q.bags.length).flatMap (fun k => (s.bagRows q k).map (fun v => (k, v.map (encodeElem 0xD))))
          let ready := fun (x : CflRun) => { x with pool := pool, ready := true }
          ((s.setRun (ready r)).gazEnd q).cflStep run
        else s

/-- A unit takes the lookups of a GATHER_POOL contribution: its tables are judged now. -/
def State.cflPoolTaken (s : State) (q : GazReq) (run : Nat) : State :=
  match s.cflRun run with
  | none => s
  | some r =>
    match s.cflGroup r.group with
    | none => s
    | some g =>
      if s.poolBad g r.d q.bags then s.cflAbort g r.q .formatInvalid (some r.rank) none true
      else
        let s := s.gazAccept q
        match s.gazReq q.die q.id with
        | some q => s.cflRows q r.id
        | none => s

/-- Issues the lookups of a GATHER_POOL contribution; while the unit is full they are held (R270). -/
def State.cflPool (s : State) (g : CflGroup) (r : CflRun) : State :=
  let d := r.d
  let bags := bagTable (d.elems / max d.param 1) r.source
  let q : GazReq := { id := s.gaz.next, die := g.die, src := .cfl r.id, part := g.d.part, head := 0, bags := bags,
                      rows := rowList bags false r.source }
  let s := s.setGaz { s.gaz with next := q.id + 1 }
  if s.gazFull g.die then (s.setGaz { s.gaz with held := s.gaz.held ++ [q] }).gazWait g.die g.d.part else s.cflPoolTaken q r.id

/-- Bytes of a GATHER_POOL contribution whose bag table is known. -/
def poolBytes (bags : List (Nat × Nat × Nat)) : Nat := 8 * ceilDiv bags.length 2 + 4 * (bags.map (·.2.2)).foldl (· + ·) 0

/-- Reads the contribution of a HOST or DEVICE rank; the status, the run. The requests of a DEVICE rank leave here, and the contribution
is ready when they have completed (R405). -/
def State.cflSource (s : State) (g : CflGroup) (r : CflRun) : Status × CflRun × State :=
  let d := r.d
  let accel := match g.kind r.rank with
    | some (.accel _) => true
    | _ => false
  if accel then (.ok, { r with ready := decide (d.op ≠ opPool ∧ d.srcBytes g.n r.rank = 0) }, s)
  else if g.kind r.rank = some .device then
    let n := if d.op = opPool then 8 * ceilDiv (d.elems / max d.param 1) 2 else d.srcBytes g.n r.rank
    let r := { r with source := List.replicate n 0, scales := List.replicate d.scaleBytes 0, ready := decide (d.op ≠ opPool ∧ n = 0) }
    let (st, s) := s.cflSend g r.id 0 none d.src n
    if st ≠ .ok then (st, r, s)
    else
      let (st, s) := s.cflSend g r.id 1 none d.scale d.scaleBytes
      (st, r, s)
  else if d.op = opPool then
    let b := d.elems / max d.param 1
    let (st, t, s) := s.memberRead g r.rank d.src (8 * ceilDiv b 2)
    if st ≠ .ok then (st, r, s)
    else
      let (st, t, s) := s.memberRead g r.rank d.src (poolBytes (bagTable b t))
      (st, { r with source := t }, s)
  else
    let (st, t, s) := s.memberRead g r.rank d.src (d.srcBytes g.n r.rank)
    if st ≠ .ok then (st, r, s)
    else
      let (st, sc, s) := s.memberRead g r.rank d.scale d.scaleBytes
      (st, { r with source := t, scales := sc, ready := true }, s)

/-- The destination does not lie wholly within the member's space (R232). -/
def State.dstBad (s : State) (g : CflGroup) (r : CflRun) : Bool :=
  let d := r.d
  let n := if d.receives r.rank then d.dstBytes g.n else 0
  match g.kind r.rank with
  | some .device => (s.viewPieces g.d.part d.dst n).isNone
  | some _ => decide (2 ^ 64 < d.dst + n)
  | none => false

/-- The contribution of an accelerator under GATHER_POOL: once whole, its lookups are issued. -/
def State.cflAccelPool (s : State) (id : Nat) : State :=
  match s.cflRun id with
  | none => s
  | some r =>
    match s.cflGroup r.group with
    | none => s
    | some g =>
      let b := r.d.elems / max r.d.param 1
      if r.d.op = opPool && !r.ready && r.pool.isEmpty && 8 * ceilDiv b 2 ≤ r.source.length &&
          poolBytes (bagTable b r.source) ≤ r.source.length && !s.gaz.reqs.any (fun q => q.src = .cfl id) && !s.gaz.held.any (fun q => q.src = .cfl id)
      then s.cflPool g r else s

/-- The audit record at the start of a collective: once per device (R256). -/
def State.cflAudit (s : State) (g : CflGroup) (r : CflRun) (q : Nat) : State :=
  if g.d.audit && (g.d.hosted.all (fun e => !seqBefore q (g.nextSeq e.1))) then
    s.itinEvent 0x000B (some g.d.part) .ok
      (leBytes 8 (g.d.id + put 63 32 q) ++ leBytes 8 (put 7 0 r.d.op + put 10 8 r.d.red + put 12 11 r.d.mode) ++ leBytes 8 r.digest.toNat)
  else s

/-- Takes out the blocks that came for a rank before its collective started (R231): packets with their buffers. -/
def State.cflEarly (s : State) (g : CflGroup) (r : CflRun) (q : Nat) : State × List (Packet × Option Nat) :=
  let mine := fun (e : Nat × Packet × Option Nat) => e.1 = r.rank && e.2.1.cflGroup = g.d.id && e.2.1.cflSeq = q
  (s.setCfl { s.cfl with early := s.cfl.early.filter (fun e => !mine e) }, (s.cfl.early.filter mine).map (·.2))

/-- Frees the buffers of the blocks that came before a start that does not take place (R231). -/
def State.cflDropEarly (s : State) (g : CflGroup) (r : CflRun) (q : Nat) : State :=
  let (s, mine) := s.cflEarly g r q
  mine.foldl (fun s e => s.cflFree g r.rank (e.2.map (fun b => (b / 65536, b % 65536)))) s

/-- Starts the head of a rank's queue. -/
def State.cflBegin (s : State) (g : CflGroup) (r : CflRun) : State :=
  let q := g.nextSeq r.rank
  let s := s.cflAudit g r q
  let g' := { g with next := g.next.put r.rank ((q + 1) % 2 ^ 32) }
  let s := s.setGroup g.d.id g'
  let (fr, s) := if r.d.op = opPool then ((s.free : Nat), { s with free := s.free + r.d.elems }) else (0, s)
  let r := { r with seq := some q, last := s.now, confirmed := r.d.ctl, free := fr }
  let s := s.setRun r
  match s.cfl.aborts.find? (fun a => a.group = g.d.id && a.seq = q) with
  | some a =>
    let s := if g'.d.hosted.all (fun e => seqBefore q (g'.nextSeq e.1)) then
        s.setCfl { s.cfl with aborts := s.cfl.aborts.filter (fun b => !(b.group = g.d.id && b.seq = q)) }
      else s
    (s.cflDropEarly g' r q).cflEnd g' r ((Status.ofCode a.status).getD .aborted) a.from_
  | none =>
    if s.dstBad g' r then (s.cflDropEarly g' r q).cflAbort g' q .addrRange (some r.rank) none true
    else
      let (st, r, s) := s.cflSource g' r
      let s := s.setRun r
      if st ≠ .ok then (s.cflDropEarly g' r q).cflAbort g' q st (some r.rank) none true
      else
        let (s, mine) := s.cflEarly g' r q
        let s := mine.foldl (fun s e =>
          let buf := e.2.map (fun b => (b / 65536, b % 65536))
          match s.cflRun r.id with
          | some x => s.cflTake g' x e.1 buf
          | none => s.cflFree g' r.rank buf) s
        let s := match s.cflRun r.id with
          | some x => if r.d.op = opPool && !x.source.isEmpty && (match g.kind r.rank with
              | some (.host _) => true
              | _ => false) then s.cflPool g' x else s
          | none => s
        (s.cflAccelPool r.id).cflStep r.id

/-- The requests of a contribution have completed (R162): the row list of a GATHER_POOL follows its bag table, then its lookups;
any other contribution is ready. -/
def State.cflFetched (s : State) (g : CflGroup) (r : CflRun) : State :=
  let d := r.d
  if d.op ≠ opPool then (s.setRun { r with ready := true }).cflStep r.id
  else
    let n := poolBytes (bagTable (d.elems / max d.param 1) r.source)
    if r.source.length < n then
      let (st, s) := (s.setRun { r with source := padTo n 0 r.source }).cflSend g r.id 0 none d.src n
      if st = .ok then s else s.cflAbort g r.q st (some r.rank) none true
    else if s.gaz.reqs.any (fun q => q.src = .cfl r.id) || s.gaz.held.any (fun q => q.src = .cfl r.id) || r.ready then s
    else s.cflPool g r

/-- A request of a run has completed (R162): a contribution's bytes take their place, a status ends the collective, and
a part of the result whose write failed does not stand (R253). -/
def State.cflMemDone (s : State) (q : MemReq) (run what off : Nat) (st : Status) : State :=
  match s.cflRun run with
  | none => s
  | some r =>
    match s.cflGroup r.group with
    | none => s
    | some g =>
      if st ≠ .ok then
        let lost := (r.d.parts g.n r.rank)[off]?
        (s.setRun (if what = 2 then { r with wrote := r.wrote.filter (fun p => some p ≠ lost) } else r)).cflAbort g r.q st (some r.rank) none true
      else
        let put_ := fun (l : List Byte) => l.take off ++ padTo q.len 0 q.data ++ l.drop (off + q.len)
        let r := if what = 0 then { r with source := put_ r.source } else if what = 1 then { r with scales := put_ r.scales } else r
        let s := s.setRun r
        if 2 ≤ what then s.cflStep run else if s.cflOut run (· < 2) then s else s.cflFetched g r

/-- COLLECTIVE_START at a rank. -/
def State.cflStart (s : State) (gid rank : Nat) : State :=
  match s.cflGroup gid, s.cflHeadOf gid rank with
  | some g, some r => if s.cflAccepts g && s.cflContext g r then s.cflBegin g r else s
  | _, _ => s

/-- Submits a collective for a rank of a defined group (R218, R222, R252): a failed check or group ends it at once. -/
def State.cflSubmit (s : State) (g : CflGroup) (rank : Nat) (words : List Word) (via : CflVia) : State :=
  let id := s.cfl.nextRun
  let r : CflRun := { id := id, group := g.d.id, rank := rank, words := padTo 16 0 words, via := via, digest := cflDigest g.md words }
  let s := s.setCfl { s.cfl with nextRun := id + 1, runs := s.cfl.runs ++ [r] }
  let st := if g.phase = .failed then .aborted else r.d.check r.words g.n
  if st ≠ .ok then s.cflEnd g r st none else s

/-! ### Lost neighbours (R249) -/

def State.portLost (s : State) (l : Nat) : Bool := (s.sub l).state = .down || (s.sub l).state = .fenced

/-- Whether a member is lost to the nodes of this device. -/
def State.cflPeerLost (s : State) (g : CflGroup) (q : Nat) : Bool :=
  match g.kind q with
  | some (.accel l) => s.portLost l
  | some _ => false
  | none => s.routeDead (g.ref q)

/-- Aborts one run where a neighbour is lost; a rank whose own port is fenced completes with FENCED. -/
def State.cflCheck (s : State) (id : Nat) : State :=
  match s.cflRun id with
  | none => s
  | some r =>
    match s.cflGroup r.group, r.seq with
    | some g, some q =>
      let nbs := if r.d.op = opAllToAll then (List.range g.n).filter (· ≠ r.rank) else g.edges r.rank
      let own := match g.kind r.rank with
        | some (.accel l) => some (s.sub l).state
        | _ => none
      if own = some .fenced then
        let s := s.cflEnd g r .fenced (some r.rank)
        s.cflAbort g q .memberLost (some r.rank) none true
      else if own = some .down || nbs.any (s.cflPeerLost g) then s.cflAbort g q .memberLost (some r.rank) none true
      else s
    | _, _ => s

/-- Looks through every started collective for lost neighbours. -/
def State.cflScan (s : State) : State := ((s.cfl.runs.filter (fun r => r.seq.isSome)).map (·.id)).foldl State.cflCheck s

/-- A runtime tile halts: the collectives it holds blocks of end, on this device with the tile's fault status (R229, R249): blocks in
collation buffers, DIRECT blocks that wait for CONFIRM, and combined blocks that have not left. -/
def State.cflTileLost (s : State) (t : Nat) (st : Status) : State :=
  let ids := (s.cfl.runs.filter (fun r => r.seq.isSome && (match s.cflGroup r.group with
    | some g => (match g.d.tiles.idxOf? t with
      | some i =>
        let m := g.d.tiles.length
        if r.d.selects then decide (r.q % m = i) && !r.ins.isEmpty
        else
          let at_ := fun (j tree : Nat) => (2 * j + tree) % m = i
          r.ins.any (fun x => x.bufs.any (fun b => at_ (b.1 % 65536) x.tree) ||
            (x.kind = 4 && !r.confirmed && (List.range (ceilDiv x.bytes.length 4096)).any (fun j => at_ j x.tree))) ||
          s.cfl.outs.any (fun o => o.group = r.group && o.rank = r.rank && o.seq = r.q && at_ o.pkt.cflBlk o.pkt.cflTree)
      | none => false)
    | none => false))).map (·.id)
  ids.foldl (fun s id =>
    match s.cflRun id with
    | some r => (match s.cflGroup r.group, r.seq with
      | some g, some q => s.cflAbort g q .memberLost (some r.rank) none true (some st)
      | _, _ => s)
    | none => s) s

/-! ### Traverse with its consequences -/

/-- What follows when ways have been lost: Sheet members (R400), Confluence neighbours. -/
def State.scanLost (s : State) : State := s.shtScan.cflScan

/-- Those who must learn of routes marked unreachable are told (R249, R332, R400). -/
def State.tellLost (s : State) : State := (s.setFab { s.fab with lostDue := false }).scanLost

/-- A packet enters Traverse; a way that turns out dead has its consequences. -/
def State.enterFabric (s : State) (e : Entry) (p : Packet) : State :=
  let s := s.admitRaw e p
  if s.fab.lostDue then s.tellLost else s

end Sys2Proof.Machine
end

