-- ==== Sys2Proof/Machine/Operands.lean ====
section
/-! DEFINITION. Operand forms of the tile: registers, scratchpad words, tile coordinates, counters, halting (R72 to R80, R102, R108 to R112). -/

namespace Sys2Proof.Machine

/-- Physical column of a logical tile (R93). -/
def State.physX (s : State) (t : Nat) : Nat :=
  match s.grid.shift.look (t / 256) with
  | some f => if t % 16 < f then t % 16 else t % 16 + 1
  | none => t % 16

/-! ### Registers (R78, R109) -/

def Tile.strand (x : Tile) (n : Nat) : Strand := x.strands.lookD n {}
def Tile.setStrand (x : Tile) (n : Nat) (d : Strand) : Tile := { x with strands := x.strands.put n d }

/-- Reads a register as strand n sees it; g0 reads as zero. -/
def Tile.regOf (x : Tile) (n : Nat) (r : Nat) : Word :=
  if r = 0 then 0
  else if r < 29 then nth x.g r 0
  else if r = 29 then (x.strand n).g29
  else if r = 30 then (x.strand n).g30
  else (x.strand n).g31

/-- Writes a register as strand n sees it; a write to g0 is discarded. -/
def Tile.setRegOf (x : Tile) (n : Nat) (r : Nat) (v : Word) : Tile :=
  if r = 0 then x
  else if r < 29 then { x with g := x.g.set r v }
  else if r = 29 then x.setStrand n { x.strand n with g29 := v }
  else if r = 30 then x.setStrand n { x.strand n with g30 := v }
  else x.setStrand n { x.strand n with g31 := v }

/-- Registers of the current strand. -/
def Tile.reg (x : Tile) (r : Reg) : Word := x.regOf x.current r.toNat
def Tile.setReg (x : Tile) (r : Reg) (v : Word) : Tile := x.setRegOf x.current r.toNat v

/-- The immediate as a number: sign-extended to 64 bits (R108). -/
def sext (imm : Imm) : Word := imm.signExtend 64

/-- The exact address g[RA] + sext(IMM), a signed sum (R112, R120). -/
def Tile.addr (x : Tile) (ra : Reg) (imm : Imm) : Int := ((x.reg ra).toNat : Int) + imm.toInt

/-- The first address past the scratchpad (R73). -/
def scratchEnd : Nat := 0x180000

/-! ### Counters (R69) -/

/-- An event counter of the tile window: holds against events while COUNT_FREEZE is set. -/
def Tile.count (x : Tile) (c n : Nat) : Nat := if x.freeze then c else satInc c n

/-- Counts numeric events (R69, R70). -/
def Tile.countNum (x : Tile) (e : NumEv) : Tile :=
  { x with numSat := x.count x.numSat e.sat, numUfl := x.count x.numUfl e.ufl, numNan := x.count x.numNan e.nan,
           numEsc := x.count x.numEsc e.esc, numCode := x.count x.numCode e.code }

/-! ### Scratchpad (R73 to R77) -/

/-- The word addresses that n bytes from a touch. -/
def wordsOf (a n : Nat) : List Nat := if n = 0 then [] else (List.range ((a + n - 1) / 8 - a / 8 + 1)).map (fun i => (a / 8 + i) * 8)

/-- Those of the words read that hold a correctable error are corrected, written back and counted (R76). -/
def Tile.fixSoft (x : Tile) (ws : List Nat) : Tile :=
  let fixed := ws.filter (fun w => x.soft.contains w)
  if fixed.isEmpty then x
  else { x with soft := x.soft.filter (fun w => !fixed.contains w), eccCorr := x.count x.eccCorr fixed.length }

/-- Reads scratchpad bytes: the first uncorrectable word on error, otherwise the bytes; either way with the tile whose correctable
words of the access are corrected and counted (R76). -/
def Tile.load (x : Tile) (a n : Nat) : Except (Nat × Tile) (List Byte × Tile) :=
  match (wordsOf a n).find? (fun w => x.bad.contains w) with
  | some w => .error (w, x.fixSoft (wordsOf a n))
  | none => .ok (x.scratch.readN a n, x.fixSoft (wordsOf a n))

/-- Writes scratchpad bytes: a partly written uncorrectable word stops the write and keeps its bits; a whole word replaces
the word and its check bits; the other word of a narrow write is read, so a correctable error there is corrected and counted, also
where the write stops (R76). A write that stops writes none of its words: of the whole words of one access R76 says nothing. DESIGN
CHOICE (log 82). -/
def Tile.store (x : Tile) (a : Nat) (bs : List Byte) : Except (Nat × Tile) Tile :=
  let n := bs.length
  let ws := wordsOf a n
  let whole := ws.filter (fun w => a ≤ w && w + 8 ≤ a + n)
  let y := x.fixSoft (ws.filter (fun w => !whole.contains w))
  match ws.find? (fun w => x.bad.contains w && !whole.contains w) with
  | some w => .error (w, y)
  | none =>
    .ok { y with scratch := x.scratch.writeN a bs,
                 bad := x.bad.filter (fun w => !whole.contains w), soft := x.soft.filter (fun w => !ws.contains w) }

/-- Writes whole words: the words and their check bits are replaced, unread (R76). -/
def Tile.overwrite (x : Tile) (a : Nat) (bs : List Byte) : Tile :=
  let keep := fun (w : Nat) => w < a || a + bs.length ≤ w
  { x with scratch := x.scratch.writeN a bs, bad := x.bad.filter keep, soft := x.soft.filter keep }

/-- Records an uncorrectable address (GRT_ECC_ADDR). -/
def Tile.eccAt (x : Tile) (w : Nat) : Tile := { x with eccAddr := w, eccValid := true }

/-- Stores a tile with an uncorrectable address in GRT_ECC_ADDR. -/
def State.setEcc (s : State) (t : Nat) (x : Tile) (w : Nat) : State :=
  (s.setTile t (x.eccAt w)).w1cSet (0x4000000 + 0x1000 * t + 0x70) (2 ^ 63)

/-! ### Strand contexts in the scratchpad (R82) -/

def StrandState.code : StrandState → Nat
  | .free => 0
  | .runnable => 1
  | .running => 2
  | .waiting => 3

/-- The 32 bytes of a context. -/
def Strand.context (d : Strand) : List Byte :=
  leBytes 8 (put 12 0 d.pc + put 15 13 d.state.code + put 21 16 d.handler) ++
    leBytes 8 d.g29.toNat ++ leBytes 8 d.g30.toNat ++ leBytes 8 d.g31.toNat

/-- Where the context of a strand lies. -/
def Tile.ctxAt (x : Tile) (n : Nat) : Nat := x.area * 65536 + 32 * n

/-- Saves a context into its place, whole words. -/
def Tile.saveCtx (x : Tile) (n : Nat) : Tile := x.overwrite (x.ctxAt n) (x.strand n).context

/-- Loads the program counter and private registers of a context from its place; the first uncorrectable word on error (R76). STATE
and HANDLER of the context are the sequencer's own record: what software wrote over them in the scratchpad does not count at a switch,
which R82 leaves open. DESIGN CHOICE (log 82). -/
def Tile.loadCtx (x : Tile) (n : Nat) : Except (Nat × Tile) Tile :=
  match x.load (x.ctxAt n) 32 with
  | .error e => .error e
  | .ok (bs, x) =>
    let w := leWords 4 bs
    .ok (x.setStrand n { x.strand n with pc := bits (nth w 0 0) 12 0, g29 := nth w 1 0, g30 := nth w 2 0, g31 := nth w 3 0 })

/-! ### Halting (R102, R141, R155) -/

/-- The strand that is RUNNING, if any. -/
def Tile.runs (x : Tile) : Bool := x.state = .running && (x.strand x.current).state = .running

/-- The tile halted in this cycle, so what found a fault in the same cycle still records it (R155). -/
def State.haltedNow (s : State) (x : Tile) : Bool := x.state = .halted && x.haltAt = s.now

/-- An engine may execute: the tile is RUNNING, or it halted in this cycle (R102, R155). -/
def State.engineLive (s : State) (x : Tile) : Bool := x.state = .running || s.haltedNow x

/-- A fault halts the tile (R102): FAULT, FAULT_PC and FAULT_STRAND are recorded, loops close (R119), TILE_FAULT is raised. Of
the faults of one cycle each raises its notice, and FAULT records the sequencer's, then the first engine's in engine order
(R155); a tile that a fault halted earlier keeps it. `by_`: 0 the sequencer, 1 + e engine e. `extra` holds DETAIL bits [63:24]. -/
def State.faultHalt (s : State) (t : Nat) (st : Status) (pc strand extra : Nat) (addr : Nat := 0) (by_ : Nat := 0) : State :=
  let x := s.tile t
  let first := x.state = .running || (x.state = .halted && x.cmdHalt)
  if first || s.haltedNow x then
    let s := if first || by_ < x.faultBy then
        s.setTile t { x with state := .halted, cmdHalt := false, fault := st.code, faultPc := pc % 8192,
                             faultStrand := strand, loops := [], haltLoops := if first then x.loops else x.haltLoops,
                             haltAt := s.now, faultBy := by_ }
      else s
    let s := s.notify .tileFault st x.part (coord t) (pc % 8192 + put 23 13 strand + extra) (.region (tileRegion t)) addr
    s.cflTileLost t st
  else s

/-- DETAIL of a fault of an engine: its number with bit 43 (R102). -/
def engineDetail (e : Nat) : Nat := put 42 40 e + 2 ^ 43

/-- A commanded halt (R102). -/
def State.commandHalt (s : State) (t : Nat) : State :=
  let x := s.tile t
  if x.state = .running then
    (s.setTile t { x with state := .halted, cmdHalt := true, loops := [], haltLoops := x.loops, haltAt := s.now }).cflTileLost t .aborted
  else s

end Sys2Proof.Machine
end

