-- ==== Sys2Proof/Machine/Flags.lean ====
section
/-! DEFINITION. Conditions and the sequencer's flow: the tile has no flag register; branches compare two registers (R110), loops test their ends (R117), strands give way (R81). -/

namespace Sys2Proof.Machine

/-- The condition of BR (R110): EQ, NE, LT, GE, LTU, GEU. -/
def brHolds (cond : Nat) (a b : Word) : Bool :=
  match cond with
  | 0 => a == b
  | 1 => a != b
  | 2 => BitVec.slt a b
  | 3 => !BitVec.slt a b
  | 4 => BitVec.ult a b
  | _ => !BitVec.ult a b

/-- The comparisons that SLT, SLTU, MIN and MAX make. -/
def sltWord (a b : Word) : Word := if BitVec.slt a b then 1 else 0
def sltuWord (a b : Word) : Word := if BitVec.ult a b then 1 else 0
def minWord (a b : Word) : Word := if BitVec.slt b a then b else a
def maxWord (a b : Word) : Word := if BitVec.slt a b then b else a

/-- The test of R117 after the instruction at address a: levels that end at a count down; a level with iterations left loops
back, a level without closes and the next outer one is tested. -/
def loopEnd (a : Nat) : List Loop → Option Nat × List Loop
  | [] => (none, [])
  | l :: r =>
    if l.last = a then
      if 1 < l.left then (some l.start, { l with left := l.left - 1, index := l.index + 1 } :: r)
      else loopEnd a r
    else (none, l :: r)

/-- Levels that a branch to a target leaves open (R119). -/
def loopsAfter (target : Nat) (ls : List Loop) : List Loop :=
  ls.dropWhile (fun l => target < l.start || l.last < target)

/-- Where strand n goes after an instruction that does not branch: the loop test of strand 0, then the next instruction;
none past instruction 8,191 (R113, R117). -/
def Tile.fallThroughOf (x : Tile) (n a : Nat) : Option Nat × List Loop :=
  let (j, ls) := if n = 0 then loopEnd a x.loops else (none, x.loops)
  match j with
  | some p => (some p, ls)
  | none => if a = 8191 then (none, ls) else (some (a + 1), ls)

/-- The same for the current strand. -/
def Tile.fallThrough (x : Tile) (a : Nat) : Option Nat × List Loop := x.fallThroughOf x.current a

/-- Another strand is RUNNABLE. -/
def Tile.othersRunnable (x : Tile) : Bool := x.strands.any (fun e => e.1 ≠ x.current && e.2.state = .runnable)

/-- Sets the program counter of the current strand and counts the instruction: after 64 the strand gives way if another can
run, otherwise its count restarts (R81). -/
def Tile.goTo (x : Tile) (pc : Nat) : Tile :=
  let d := { x.strand x.current with pc := pc }
  if x.issued + 1 < 64 then { x.setStrand x.current d with issued := x.issued + 1 }
  else if x.othersRunnable then { x.setStrand x.current { d with state := .runnable } with issued := 0 }
  else { x.setStrand x.current d with issued := 0 }

/-- What an instruction makes of the sequencer. -/
inductive SeqOut where
  /-- Done; the strand falls through. -/
  | next (s : State)
  /-- Branches to an address. -/
  | jump (s : State) (pc : Nat)
  /-- Faults with a status; extra DETAIL bits; the address for the fault log. -/
  | fault (s : State) (st : Status) (extra addr : Nat)
  /-- Falls through past instruction 8,191 (R113). -/
  | past (s : State)
  /-- The strand is WAITING; the program counter stays. -/
  | wait (s : State) (w : Wait)
  /-- YIELD. -/
  | yield (s : State)
  /-- END. -/
  | finish (s : State)

/-- The program counter of the current strand. -/
def Tile.pc (x : Tile) : Nat := (x.strand x.current).pc

/-- Falls through from the current instruction. -/
def State.seqNext (s : State) (t : Nat) : State :=
  let x := s.tile t
  match x.fallThrough x.pc with
  | (some p, ls) => s.setTile t { x.goTo p with loops := ls }
  | (none, _) => s.faultHalt t .illegalOp 0x1FFF x.current 0

/-- Releases the ring lines of the messages that a test selects, and reclaims released ones in ring order (R88). -/
def Tile.release (x : Tile) (p : RxMsg → Bool) : Tile :=
  let rx := x.rx.map (fun m => if p m then { m with released := true } else m)
  let gone := rx.takeWhile (fun m => m.released)
  let n := (gone.map (·.lines)).foldl (· + ·) 0
  { x with rx := rx.drop gone.length, rxReclaim := if x.rxSize = 0 then x.rxReclaim else (x.rxReclaim + n) % x.rxSize }

/-- One scalar instruction of tile t: it acts only while the tile is RUNNING and a strand runs (log 3). In the cycle in which a
HALT or an engine's fault halted the tile, the sequencer issues nothing more, but a fault of its own in that cycle is still found (R155). -/
def seqRun (t : Nat) (s : State) (f : Tile → SeqOut) : State :=
  let x := s.tile t
  if !x.runs then
    if s.haltedNow x && (x.cmdHalt || 0 < x.faultBy) && (x.strand x.current).state = .running then
      let past := { x with loops := x.haltLoops }.fallThrough x.pc = (none, [])
      match f x with
      | .fault s st extra addr => s.faultHalt t st x.pc x.current extra addr
      | .past _ => s.faultHalt t .illegalOp 0x1FFF x.current 0
      | .next _ => if past then s.faultHalt t .illegalOp 0x1FFF x.current 0 else s
      | .yield _ => if past then s.faultHalt t .illegalOp 0x1FFF x.current 0 else s
      | _ => s
    else s
  else match f x with
    | .next s => s.seqNext t
    | .jump s pc =>
      let y := s.tile t
      s.setTile t { y.goTo pc with loops := if y.current = 0 then loopsAfter pc y.loops else y.loops }
    | .fault s st extra addr => s.faultHalt t st x.pc x.current extra addr
    | .past s => s.faultHalt t .illegalOp 0x1FFF x.current 0
    | .wait s w =>
      let y := s.tile t
      s.setTile t ({ y.setStrand y.current { y.strand y.current with state := .waiting, wait := w } with issued := 0 })
    | .yield s =>
      let y := s.tile t
      match y.fallThrough y.pc with
      | (none, _) => s.faultHalt t .illegalOp 0x1FFF y.current 0
      | (some p, ls) =>
        let st := if y.othersRunnable then StrandState.runnable else .running
        let y := { y.setStrand y.current { y.strand y.current with state := st, pc := p } with issued := 0, loops := ls }
        s.setTile t y
    | .finish s =>
      let y := s.tile t
      let y := { y.setStrand y.current { y.strand y.current with state := .free } with
                 issued := 0, loops := if y.current = 0 then [] else y.loops }
      s.setTile t (y.release (fun m => m.strand = some y.current))

end Sys2Proof.Machine
end

