-- ==== Sys2Proof/Machine/TileRegs.lean ====
section
/-! DEFINITION. The tile register window, as the sequencer and the host read and write it (R70, R106, R107, R114, R156, R290). -/

namespace Sys2Proof.Machine

def TileState.code : TileState → Nat
  | .off => 0
  | .reset => 1
  | .ready => 2
  | .running => 3
  | .halted => 4
  | .unavailable => 5

/-- Instructions in an engine queue (R146). -/
def Tile.queue (x : Tile) (e : Nat) : List QEntry := x.queues.lookD e []

/-- All instructions in flight (R143). -/
def Tile.inFlight (x : Tile) : List QEntry := (List.range 5).flatMap x.queue

def QEntry.rdMask (q : QEntry) : Word := nth q.words 0 0
def QEntry.wrMask (q : QEntry) : Word := nth q.words 1 0

/-- R_f and W_f (R143). -/
def Tile.readers (x : Tile) : Word := x.inFlight.foldl (fun m q => m ||| q.rdMask) 0
def Tile.writers (x : Tile) : Word := x.inFlight.foldl (fun m q => m ||| q.wrMask) 0

/-- GRT_TILE_STATUS (R106). -/
def Tile.statusWord (x : Tile) : Word :=
  wd (x.state.code + flag 3 x.cmdHalt + put 4 4 x.bank + put 15 8 x.fault + put 28 16 x.faultPc + put 39 29 x.faultStrand)

def Tile.strandCount (x : Tile) (st : StrandState) : Nat := (x.strands.filter (fun e => e.2.state = st)).length

def Handler.word (h : Handler) : Word := wd (put 12 0 h.entry + flag 13 h.valid + put 26 16 h.max)
def handlerOf (w : Word) : Handler := ⟨bits w 12 0, bit w 13, bits w 26 16⟩

/-- A message waits in the receive ring whose handler could still start a strand. -/
def Tile.ringReady (x : Tile) : Bool :=
  x.rx.any (fun m => m.strand.isNone && !m.released &&
    (let h := x.handlers.lookD m.handler {}
     decide ((x.strands.filter (fun e => e.1 ≠ 0 && e.2.state ≠ .free && e.2.handler = m.handler)).length <
       (if h.max = 0 then 2047 else h.max))))

/-- Reads a register of a tile's window; an offset that maps no register reads as zero (R6, R114). -/
def State.tileReg (s : State) (t off : Nat) : Word :=
  let x := s.tile t
  if 0x400 ≤ off && off < 0x600 then (x.handlers.lookD ((off - 0x400) / 8) {}).word
  else if 0x600 ≤ off && off < 0x800 then
    match x.regions.look ((off - 0x600) / 8) with
    | some r => wd (put 14 0 r.line + put 30 16 r.lines + 2 ^ 31)
    | none => 0
  else match off with
    | 0x008 => x.statusWord
    | 0x010 => wd (coord t + put 20 16 (s.physX t) + put 27 24 (t / 16 % 16))
    | 0x018 => match x.part with
      | some p => wd (p + 2 ^ 8)
      | none => 0
    | 0x020 => wd (put 20 6 x.rxBase)
    | 0x028 => wd (put 14 0 x.rxSize)
    | 0x030 => wd (put 14 0 x.rxWrite + put 30 16 x.rxReclaim + put 46 32 (x.rx.filter (fun m => m.strand.isNone && !m.released)).length)
    | 0x038 => wd (put 20 16 x.area)
    | 0x040 => wd (put 11 0 (2048 - x.strandCount .runnable - x.strandCount .waiting - x.strandCount .running) +
        put 23 12 (x.strandCount .runnable) + put 35 24 (x.strandCount .waiting) + put 46 36 x.current)
    | 0x048 => wd (put 5 0 (x.queue 0).length + put 13 8 (x.queue 1).length + put 21 16 (x.queue 2).length +
        put 29 24 (x.queue 3).length + put 37 32 (x.queue 4).length)
    | 0x050 => wd (s.now - x.cycle0)
    | 0x058 => wd x.rxDrop
    | 0x060 => wd x.rxPartErr
    | 0x068 => wd x.eccCorr
    | 0x070 => wd (put 20 0 x.eccAddr + flag 63 x.eccValid)
    | 0x078 => x.readers
    | 0x080 => x.writers
    | 0x088 => wd (flag 0 x.armed + flag 1 x.table.isSome + flag 2 x.loading.isSome + put 3 3 (x.loading.getD 0))
    | 0x800 => wd (put 31 0 x.threshold + flag 32 x.freeze)
    | 0x808 => wd x.sr.seed
    | 0x810 => wd x.numSat
    | 0x818 => wd x.numUfl
    | 0x820 => wd x.numNan
    | 0x828 => wd x.numEsc
    | 0x830 => wd x.numPromote
    | 0x838 => wd x.numCode
    | 0x900 => x.sparseCtrl
    | 0x908 => x.predThresh
    | 0x910 => wd (nth x.gazCount 0 0)
    | 0x918 => wd (nth x.gazCount 1 0)
    | 0x920 => wd (nth x.gazCount 2 0)
    | 0x928 => wd (nth x.gazCount 3 0)
    | 0x930 => wd (nth x.gazCount 4 0)
    | 0x938 => wd (nth x.gazCount 5 0)
    | _ => 0

/-- Whether an offset maps a register of the tile window. -/
def tileMapped (off : Nat) : Bool :=
  off % 8 = 0 && (off ≤ 0x88 || (0x400 ≤ off && off < 0x840) || (0x900 ≤ off && off < 0x940))

/-- The registers the sequencer may write (R106): numeric and Gazetteer controls and every counter of the window. -/
def seqWritable (off : Nat) : Bool :=
  (0x800 ≤ off && off ≤ 0x838) || off = 0x58 || off = 0x60 || off = 0x68 || (0x900 ≤ off && off ≤ 0x938)

/-- Writes one of those registers; reserved bits are ignored (R7), a write sets a counter's value (R69). -/
def Tile.writeReg (x : Tile) (off : Nat) (v : Word) : Tile :=
  match off with
  | 0x058 => { x with rxDrop := v.toNat }
  | 0x060 => { x with rxPartErr := v.toNat }
  | 0x068 => { x with eccCorr := v.toNat }
  | 0x800 => { x with threshold := bits v 31 0, freeze := bit v 32 }
  | 0x808 => { x with sr := { seed := v.toNat }, srWrote := true }
  | 0x810 => { x with numSat := v.toNat }
  | 0x818 => { x with numUfl := v.toNat }
  | 0x820 => { x with numNan := v.toNat }
  | 0x828 => { x with numEsc := v.toNat }
  | 0x830 => { x with numPromote := v.toNat }
  | 0x838 => { x with numCode := v.toNat }
  | 0x900 => { x with sparseCtrl := wd (bits v 14 0 + flag 16 (bit v 16)) }
  | 0x908 => { x with predThresh := wd (bits v 31 0) }
  | _ => if 0x910 ≤ off && off ≤ 0x938 then { x with gazCount := x.gazCount.set ((off - 0x910) / 8) v.toNat } else x

/-- Registers only the host writes, and not while the tile is RUNNING or HALTED (R107). -/
def Tile.hostConfig (x : Tile) (off : Nat) (v : Word) : Tile :=
  match off with
  | 0x020 => { x with rxBase := bits v 20 6 }
  | 0x028 => { x with rxSize := bits v 14 0 }
  | 0x038 => { x with area := bits v 20 16 }
  | _ => if 0x400 ≤ off && off < 0x600 then { x with handlers := x.handlers.put ((off - 0x400) / 8) (handlerOf v) } else x

def hostConfigurable (off : Nat) : Bool := off = 0x20 || off = 0x28 || off = 0x38 || (0x400 ≤ off && off < 0x600)

end Sys2Proof.Machine
end

