-- ==== Sys2Proof/Machine/Scalar.lean ====
section
/-! DEFINITION. The scalar instructions of Tarpeth (R108 to R119), strand switching (R81, R82). -/

namespace Sys2Proof.Machine

/-- An instruction that writes one register from the tile's registers. -/
def aluRun (t : Nat) (rd : Reg) (v : Tile → Word) (s : State) : Host.Outcome State Fault Refusal :=
  .next (seqRun t s (fun x => .next (s.setTile t (x.setReg rd (v x)))))

/-- The same, with a field that must be zero. -/
def aluRunIf (ok : Bool) (t : Nat) (rd : Reg) (v : Tile → Word) (s : State) : Host.Outcome State Fault Refusal :=
  .next (seqRun t s (fun x => if ok then .next (s.setTile t (x.setReg rd (v x))) else .fault s .illegalOp 0 0))

/-- IMM[31:n] is zero (R109, R110). -/
def immFits (imm : Imm) (n : Nat) : Bool := decide (imm.toNat < 2 ^ n)

/-- NOP (R110). -/
def execNop (t : Nat) (s : State) : Host.Outcome State Fault Refusal := .next (seqRun t s (fun _ => .next s))

/-- END (R81, R88). -/
def execEnd (t : Nat) (s : State) : Host.Outcome State Fault Refusal := .next (seqRun t s (fun _ => .finish s))

/-- YIELD (R81, R115). -/
def execYield (t : Nat) (s : State) : Host.Outcome State Fault Refusal := .next (seqRun t s (fun _ => .yield s))

/-- The scratchpad address of a ring line. -/
def Tile.ringAddr (x : Tile) (line : Nat) : Nat := (x.rxBase + line) * 64

/-- RXREL (R88): the message whose header line is at g29. -/
def execRxrel (t : Nat) (s : State) : Host.Outcome State Fault Refusal :=
  .next (seqRun t s (fun x => .next (s.setTile t (x.release (fun m => x.ringAddr m.line = (x.regOf x.current 29).toNat)))))

/-- TRAP (R110): USER_TRAP, IMM[15:0] in the notice. -/
def execTrap (t : Nat) (imm : Imm) (s : State) : Host.Outcome State Fault Refusal :=
  .next (seqRun t s (fun _ =>
    if immFits imm 16 then .fault s .userTrap (put 39 24 imm.toNat) 0 else .fault s .illegalOp 0 0))

def execAdd (t : Nat) (rd ra rb : Reg) (s : State) : Host.Outcome State Fault Refusal := aluRun t rd (fun x => x.reg ra + x.reg rb) s
def execSub (t : Nat) (rd ra rb : Reg) (s : State) : Host.Outcome State Fault Refusal := aluRun t rd (fun x => x.reg ra - x.reg rb) s
def execAnd (t : Nat) (rd ra rb : Reg) (s : State) : Host.Outcome State Fault Refusal := aluRun t rd (fun x => x.reg ra &&& x.reg rb) s
def execOr (t : Nat) (rd ra rb : Reg) (s : State) : Host.Outcome State Fault Refusal := aluRun t rd (fun x => x.reg ra ||| x.reg rb) s
def execXor (t : Nat) (rd ra rb : Reg) (s : State) : Host.Outcome State Fault Refusal := aluRun t rd (fun x => x.reg ra ^^^ x.reg rb) s

/-- The shift amount g[RB][5:0]. -/
def shamt (w : Word) : Nat := w.toNat % 64

def execShl (t : Nat) (rd ra rb : Reg) (s : State) : Host.Outcome State Fault Refusal :=
  aluRun t rd (fun x => x.reg ra <<< shamt (x.reg rb)) s
def execShr (t : Nat) (rd ra rb : Reg) (s : State) : Host.Outcome State Fault Refusal :=
  aluRun t rd (fun x => x.reg ra >>> shamt (x.reg rb)) s
def execSar (t : Nat) (rd ra rb : Reg) (s : State) : Host.Outcome State Fault Refusal :=
  aluRun t rd (fun x => (x.reg ra).sshiftRight (shamt (x.reg rb))) s
def execMul (t : Nat) (rd ra rb : Reg) (s : State) : Host.Outcome State Fault Refusal := aluRun t rd (fun x => x.reg ra * x.reg rb) s
def execMin (t : Nat) (rd ra rb : Reg) (s : State) : Host.Outcome State Fault Refusal := aluRun t rd (fun x => minWord (x.reg ra) (x.reg rb)) s
def execMax (t : Nat) (rd ra rb : Reg) (s : State) : Host.Outcome State Fault Refusal := aluRun t rd (fun x => maxWord (x.reg ra) (x.reg rb)) s
def execSlt (t : Nat) (rd ra rb : Reg) (s : State) : Host.Outcome State Fault Refusal := aluRun t rd (fun x => sltWord (x.reg ra) (x.reg rb)) s
def execSltu (t : Nat) (rd ra rb : Reg) (s : State) : Host.Outcome State Fault Refusal := aluRun t rd (fun x => sltuWord (x.reg ra) (x.reg rb)) s

def execAddi (t : Nat) (rd ra : Reg) (imm : Imm) (s : State) : Host.Outcome State Fault Refusal := aluRun t rd (fun x => x.reg ra + sext imm) s
def execAndi (t : Nat) (rd ra : Reg) (imm : Imm) (s : State) : Host.Outcome State Fault Refusal := aluRun t rd (fun x => x.reg ra &&& sext imm) s
def execOri (t : Nat) (rd ra : Reg) (imm : Imm) (s : State) : Host.Outcome State Fault Refusal := aluRun t rd (fun x => x.reg ra ||| sext imm) s
def execXori (t : Nat) (rd ra : Reg) (imm : Imm) (s : State) : Host.Outcome State Fault Refusal := aluRun t rd (fun x => x.reg ra ^^^ sext imm) s
def execShli (t : Nat) (rd ra : Reg) (imm : Imm) (s : State) : Host.Outcome State Fault Refusal :=
  aluRunIf (immFits imm 6) t rd (fun x => x.reg ra <<< (imm.toNat % 64)) s
def execShri (t : Nat) (rd ra : Reg) (imm : Imm) (s : State) : Host.Outcome State Fault Refusal :=
  aluRunIf (immFits imm 6) t rd (fun x => x.reg ra >>> (imm.toNat % 64)) s
def execSari (t : Nat) (rd ra : Reg) (imm : Imm) (s : State) : Host.Outcome State Fault Refusal :=
  aluRunIf (immFits imm 6) t rd (fun x => (x.reg ra).sshiftRight (imm.toNat % 64)) s
def execLi (t : Nat) (rd : Reg) (imm : Imm) (s : State) : Host.Outcome State Fault Refusal := aluRun t rd (fun _ => sext imm) s

/-- LUI (R110): bits [31:0] unchanged. -/
def execLui (t : Nat) (rd : Reg) (imm : Imm) (s : State) : Host.Outcome State Fault Refusal :=
  aluRun t rd (fun x => (x.reg rd &&& 0xFFFFFFFF) ||| (imm.setWidth 64 <<< 32)) s

/-- The address checks of LD, LDW, ST and STW (R112): range first, then alignment. -/
def scalarAddr (a : Int) (width : Nat) : Except Status Nat :=
  if a < 0 || (scratchEnd : Int) ≤ a then .error .addrRange
  else if a.toNat % width ≠ 0 then .error .addrAlign
  else .ok a.toNat

/-- A load of `width` bytes, zero-extended (R110 to R112, R76). -/
def loadRun (width : Nat) (t : Nat) (rd ra : Reg) (imm : Imm) (s : State) : State :=
  seqRun t s (fun x =>
    match scalarAddr (x.addr ra imm) width with
    | .error st => .fault s st 0 0
    | .ok a => match x.load a width with
      | .error (w, y) => .fault (s.setEcc t y w) .uncorrectable 0 w
      | .ok (bs, y) => .next (s.setTile t (y.setReg rd (wd (ofLe bs)))))

/-- A store of the low `width` bytes of g[RB]. -/
def storeRun (width : Nat) (t : Nat) (rb ra : Reg) (imm : Imm) (s : State) : State :=
  seqRun t s (fun x =>
    match scalarAddr (x.addr ra imm) width with
    | .error st => .fault s st 0 0
    | .ok a => match x.store a (leBytes width (x.reg rb).toNat) with
      | .error (w, y) => .fault (s.setEcc t y w) .uncorrectable 0 w
      | .ok y => .next (s.setTile t y))

def execLd (t : Nat) (rd ra : Reg) (imm : Imm) (s : State) : Host.Outcome State Fault Refusal := .next (loadRun 8 t rd ra imm s)
def execLdw (t : Nat) (rd ra : Reg) (imm : Imm) (s : State) : Host.Outcome State Fault Refusal := .next (loadRun 4 t rd ra imm s)
def execSt (t : Nat) (rb ra : Reg) (imm : Imm) (s : State) : Host.Outcome State Fault Refusal := .next (storeRun 8 t rb ra imm s)
def execStw (t : Nat) (rb ra : Reg) (imm : Imm) (s : State) : Host.Outcome State Fault Refusal := .next (storeRun 4 t rb ra imm s)

/-- BR (R110): COND above 5 faults (R109). -/
def execBr (t : Nat) (cond : BitVec 5) (ra rb : Reg) (imm : Imm) (s : State) : Host.Outcome State Fault Refusal :=
  .next (seqRun t s (fun x =>
    if 5 < cond.toNat || !immFits imm 13 then .fault s .illegalOp 0 0
    else if brHolds cond.toNat (x.reg ra) (x.reg rb) then .jump s imm.toNat else .next s))

/-- JMP (R110). -/
def execJmp (t : Nat) (imm : Imm) (s : State) : Host.Outcome State Fault Refusal :=
  .next (seqRun t s (fun _ => if immFits imm 13 then .jump s imm.toNat else .fault s .illegalOp 0 0))

/-- JR (R113). -/
def execJr (t : Nat) (ra : Reg) (s : State) : Host.Outcome State Fault Refusal :=
  .next (seqRun t s (fun x => if 8192 ≤ (x.reg ra).toNat then .fault s .illegalOp 0 0 else .jump s (x.reg ra).toNat))

/-- CALL (R110). -/
def execCall (t : Nat) (rd : Reg) (imm : Imm) (s : State) : Host.Outcome State Fault Refusal :=
  .next (seqRun t s (fun x =>
    if immFits imm 13 then .jump (s.setTile t (x.setReg rd (wd (x.pc + 1)))) imm.toNat else .fault s .illegalOp 0 0))

/-- DBNZ (R110). -/
def execDbnz (t : Nat) (ra : Reg) (imm : Imm) (s : State) : Host.Outcome State Fault Refusal :=
  .next (seqRun t s (fun x =>
    if !immFits imm 13 then .fault s .illegalOp 0 0
    else
      let v := x.reg ra - 1
      let s := s.setTile t (x.setReg ra v)
      -- the decremented value decides, whatever register holds it
      if v = 0 then .next s else .jump s imm.toNat))

/-- LOOP (R116). -/
def execLoop (t : Nat) (ra : Reg) (imm : Imm) (s : State) : Host.Outcome State Fault Refusal :=
  .next (seqRun t s (fun x =>
    let a := x.pc
    let e := imm.toNat
    let n := bits (x.reg ra) 31 0
    let beyond := match x.loops with
      | l :: _ => decide (l.last < e)
      | [] => false
    if !immFits imm 13 || x.current ≠ 0 || e < a + 1 || beyond then .fault s .illegalOp 0 0
    else if 4 ≤ x.loops.length then .fault s .loopDepth 0 0
    else if n = 0 then
      -- as though the body had run once to its end
      match loopEnd e x.loops with
      | (some p, ls) => .jump (s.setTile t { x with loops := ls }) p
      | (none, ls) => if e = 8191 then .past s else .jump (s.setTile t { x with loops := ls }) (e + 1)
    else .next (s.setTile t { x with loops := ⟨a + 1, e, n, 0⟩ :: x.loops })))

/-- LIDX (R110, R119). -/
def execLidx (t : Nat) (rd : Reg) (imm : Imm) (s : State) : Host.Outcome State Fault Refusal :=
  aluRunIf (immFits imm 2) t rd (fun x =>
    if x.current ≠ 0 then 0
    else match x.loops[imm.toNat]? with
      | some l => wd l.index
      | none => 0) s

/-- The IMM of RDREG and WRREG: a multiple of 8 below 0x1000 (R114). -/
def regImm (imm : Imm) : Bool := imm.toNat % 8 = 0 && imm.toNat < 0x1000

/-- RDREG (R114). -/
def execRdreg (t : Nat) (rd : Reg) (imm : Imm) (s : State) : Host.Outcome State Fault Refusal :=
  aluRunIf (regImm imm) t rd (fun _ => s.tileReg t imm.toNat) s

/-- WRREG (R114): a register the sequencer may not write is left as it is, with a notice that carries the offset. -/
def execWrreg (t : Nat) (ra : Reg) (imm : Imm) (s : State) : Host.Outcome State Fault Refusal :=
  .next (seqRun t s (fun x =>
    if !regImm imm then .fault s .illegalOp 0 0
    else if seqWritable imm.toNat then .next (s.setTile t (x.writeReg imm.toNat (x.reg ra)))
    else if tileMapped imm.toNat then
      .next (s.notify .accessError .ok x.part imm.toNat (coord t) (.region (tileRegion t)))
    else .next s))

/-- QFREE (R146): engine numbers 0 to 4. -/
def execQfree (t : Nat) (rd : Reg) (imm : Imm) (s : State) : Host.Outcome State Fault Refusal :=
  aluRunIf (imm.toNat ≤ 4) t rd (fun x => wd (32 - (x.queue imm.toNat).length)) s

/-- DEFRGN (R142): waits for in-flight users of the region. -/
def execDefrgn (t : Nat) (ra rb : Reg) (imm : Imm) (s : State) : Host.Outcome State Fault Refusal :=
  .next (seqRun t s (fun x =>
    let base := (x.reg ra).toNat
    let lines := (x.reg rb).toNat
    let r := imm.toNat
    if !immFits imm 6 then .fault s .illegalOp 0 0
    else if base % 64 ≠ 0 || lines = 0 || 24576 < lines || scratchEnd < base + 64 * lines then .fault s .regionInvalid 0 0
    else
      let users := x.inFlight.filter (fun q => bit (q.rdMask ||| q.wrMask) r)
      if users.isEmpty then .next (s.setTile t { x with regions := x.regions.put r ⟨base / 64, lines⟩ })
      else .wait s (.insns (users.map (·.id)))))

/-- FENCE (R148, R150). -/
def execFence (t : Nat) (ra : Reg) (imm : Imm) (s : State) : Host.Outcome State Fault Refusal :=
  .next (seqRun t s (fun x =>
    let boundary := imm.toNat.testBit 5
    if !immFits imm 6 || (boundary && x.current ≠ 0) then .fault s .illegalOp 0 0
    else
      let byRegion := x.inFlight.filter (fun q => (q.rdMask ||| q.wrMask) &&& x.reg ra ≠ 0)
      let byEngine := (List.range 5).flatMap (fun e => if imm.toNat.testBit e then x.queue e else [])
      let ids := (byRegion ++ byEngine).map (·.id)
      if ids.isEmpty && !boundary then .next s else .wait s (.fence ids boundary)))

/-- Instructions of a list that are still in flight. -/
def Tile.stillIn (x : Tile) (ids : List Nat) : Bool := x.inFlight.any (fun q => ids.contains q.id)

/-- A strand that has passed its FENCE, or whose wait is answered: RUNNABLE at the next instruction. -/
def State.passFence (s : State) (t n : Nat) : State :=
  let x := s.tile t
  let d := x.strand n
  match x.fallThroughOf n d.pc with
  | (some p, ls) => s.setTile t ({ x.setStrand n { d with state := .runnable, pc := p, wait := .none } with loops := ls }.saveCtx n)
  | (none, _) => s.faultHalt t .illegalOp 0x1FFF n 0

/-- PROGRAM_BOUNDARY_SWAP (R150): every other strand FREE, all queues empty; an armed swap changes the bank unless a load is
in progress. -/
def State.boundary (s : State) (t : Nat) : State :=
  let x := s.tile t
  let d := x.strand 0
  let at_ := d.state = .waiting && (match d.wait with
    | .fence ids true => !x.stillIn ids
    | _ => false)
  if x.state = .running && at_ && x.strands.all (fun e => e.1 = 0 || e.2.state = .free) && x.inFlight.isEmpty then
    if !x.armed then s.passFence t 0
    else if x.loading.isSome then s
    else
      let hs := match x.table with
        | some ws => (List.range 64).foldl (fun m i => m.put i (handlerOf (nth ws i 0))) x.handlers
        | none => x.handlers
      let b := 1 - x.bank
      (s.setTile t ({ x.setStrand 0 { d with state := .runnable, pc := 0, wait := .none } with
        bank := b, handlers := hs, loops := [], armed := false, table := none }.saveCtx 0)).itinEvent 0x0509 x.part .ok
          (leBytes 8 t ++ leBytes 8 b)
  else s

def execProgramBoundarySwap (t : Nat) (s : State) : Host.Outcome State Fault Refusal := .next (s.boundary t)

/-- The next RUNNABLE strand in ascending number after the current one, wrapping (R81). -/
def Tile.nextRunnable (x : Tile) : Option Nat :=
  let rs := (x.strands.filter (fun e => e.2.state = .runnable)).map (·.1)
  match rs.find? (fun n => x.current < n) with
  | some n => some n
  | none => rs.head?

/-- The incoming strand of a switch whose context cannot be read: the tile halts with it as the current strand. The consuming
instruction is the one that strand would issue: DESIGN CHOICE (R76, log 83). -/
def State.switchLost (s : State) (t : Nat) (x : Tile) (n w : Nat) : State :=
  (s.setEcc t { x with current := n, issued := 0 } w).faultHalt t .uncorrectable (x.strand n).pc n 0 w

/-- STRAND_SWITCH (R81): the outgoing context is saved, the incoming one loaded, and the strand runs. -/
def State.strandSwitch (s : State) (t : Nat) : State :=
  let x := s.tile t
  if x.state = .running && (x.strand x.current).state ≠ .running then
    match x.nextRunnable with
    | none => s
    | some n =>
      let x := x.saveCtx x.current
      match if n = x.current then .ok x else x.loadCtx n with
      | .error (w, y) => s.switchLost t y n w
      | .ok x => s.setTile t { x.setStrand n { x.strand n with state := .running } with current := n, issued := 0 }
  else s

def execStrandSwitch (t : Nat) (s : State) : Host.Outcome State Fault Refusal := .next (s.strandSwitch t)

/-- STRAND_WAKE (R82, R140, R148): a scoreboard condition has cleared. A conflict is tried again from the instruction; a FENCE
is passed; an MSIGNAL finds a free entry (R189). -/
def State.strandWake (s : State) (t n : Nat) : State :=
  let x := s.tile t
  let d := x.strand n
  let retry := s.setTile t (x.setStrand n { d with state := .runnable, wait := .none })
  if d.state ≠ .waiting then s
  else match d.wait with
    | .insns ids => if x.stillIn ids then s else retry
    | .fence ids false => if x.stillIn ids then s else s.passFence t n
    | .signalSlot => if x.signals < 64 then retry else s
    | _ => s

def execStrandWake (t n : Nat) (s : State) : Host.Outcome State Fault Refusal := .next (s.strandWake t n)

end Sys2Proof.Machine
end

