-- ==== Sys2Proof/Machine/MerCore.lean ====
section
/-! DEFINITION. The Meridian network: transfers, home cells, releases (R181 to R199, R203, R204). -/

namespace Sys2Proof.Machine

/-- The home die of an object (R183). -/
def merDie (obj : Nat) : Nat := obj / 4096 % 4

/-! ### Words of an object (R188, R212) -/

def merKindCode : MerKind → Nat
  | .count => 1
  | .event => 2
  | .barrier => 3

/-- The value word: MER_DBG_VALUE. -/
def MerObj.valueWord (o : MerObj) : Word := wd (put 31 0 o.value + put 47 32 o.target)

/-- The state word: MER_DBG_STATE with VALID set. -/
def MerObj.stateWord (o : MerObj) : Word :=
  wd (merKindCode o.kind + flag 2 true + put 9 4 o.part + put 29 16 o.waiters.length + put 63 32 o.gen)

/-- A waiter word: MER_DBG_WAITER_n. -/
def MerWaiter.word (w : MerWaiter) : Word :=
  wd (put 9 0 (coord w.tile) + put 21 11 w.strand + flag 22 w.expiry.isSome + flag 23 true + put 63 32 w.stamp)

/-- The last-signaller word of a signal: MER_DBG_LAST. -/
def MerXfer.lastWord (x : MerXfer) : Word :=
  match x.src with
  | .strand => wd (1 + put 12 3 (coord x.tile) + put 26 16 x.strand + put 63 32 x.stamp)
  | .engine e => wd (1 + put 2 1 1 + put 12 3 (coord x.tile) + put 15 13 e + put 63 32 x.stamp)
  | .kci => wd (1 + put 2 1 2 + put 63 32 x.stamp)

/-- The result word of a wait (R190). -/
def waitResult (st : Status) (immediate : Bool) (info : Nat) : Word := wd (st.code + flag 9 immediate + put 47 16 info)

/-! ### The order of transfers at a home cell (R166, R193) -/

/-- Where a source stands within one tile: the sequencer before the engines; KCI after every tile. -/
def MerXfer.place (x : MerXfer) : List Nat :=
  match x.src with
  | .kci => [1, 0, 0, 0, 0, 0]
  | .strand => [0, x.tile / 256, x.tile / 16 % 16, x.tile % 16, 0, x.strand]
  | .engine e => [0, x.tile / 256, x.tile / 16 % 16, x.tile % 16, e + 1, 0]

def MerXfer.isWithdraw (x : MerXfer) : Bool :=
  match x.act with
  | .withdraw .. => true
  | _ => false

/-- The order key of a Datum partition: stamp, withdrawals last, then the place. -/
def MerXfer.key (x : MerXfer) : List Nat := x.stamp :: (if x.isWithdraw then 1 else 0) :: x.place

def keyLt : List Nat → List Nat → Bool
  | a :: as, b :: bs => if a = b then keyLt as bs else a < b
  | _, _ => false

/-- In a Datum partition a home cell takes transfers in stamp order; a timed waiter that expired before this stamp must be
withdrawn first. Outside it the join accepts the transfers as the commands name them; those of one core cycle are one handshake, in the
order of R193: one that stands before a transfer already taken in this cycle is of a later handshake (log 36). Everywhere the transfers of one strand to one object keep their order. -/
def State.merBlocked (s : State) (x : MerXfer) : Bool :=
  let others := s.mer.xfers.filter (fun y => y.obj = x.obj && y.id ≠ x.id)
  let datum := match s.mer.objs.look x.obj with
    | some o => s.partDatum o.part
    | none => false
  others.any (fun y => y.src = x.src && y.tile = x.tile && y.strand = x.strand && y.id < x.id) ||
    (!datum && (match s.mer.joined.look x.obj with
      | some (c, l) => c = s.now && keyLt x.place l
      | none => false)) ||
    (datum && x.src ≠ .kci &&
      (others.any (fun y => y.src ≠ .kci && keyLt y.key x.key) ||
        (match s.mer.objs.look x.obj with
          | some o => o.waiters.any (fun w => match w.expiry with
              | some e => decide (e < x.stamp) && !(x.isWithdraw && w.reg = x.reg)
              | none => false)
          | none => false)))

/-! ### Replies -/

/-- Queues a reply to a waiter. `decided`: the stamp that decides it in a Datum partition; none where no stamp does. -/
def State.merReply (s : State) (datum : Bool) (reg tile strand obj : Nat) (result : Word) (expiry decided : Option Nat)
    (stamp sig : Nat) (unit : Bool) : State :=
  let r : MerReply := { id := s.mer.next, reg := reg, tile := tile, strand := strand, obj := obj, result := result,
                        expiry := expiry, decided := decided,
                        sample := if datum then decided.map (fun c => max c stamp + 64) else none,
                        sig := sig, unit := unit,
                        dead := s.mer.xfers.any (fun y => match y.act with
                          | .withdraw g true => g = reg
                          | _ => false) }
  s.setMer { s.mer with replies := s.mer.replies ++ [r], next := s.mer.next + 1 }

/-- Releases a waiter: ARRIVED with an INFO field (R190). -/
def State.merRelease (s : State) (datum : Bool) (obj : Nat) (w : MerWaiter) (info : Nat) (decided : Option Nat) (sig : Nat)
    (unit : Bool) : State :=
  s.merReply datum w.reg w.tile w.strand obj (waitResult .arrived false info) w.expiry decided w.stamp sig unit

def State.setObj (s : State) (obj : Nat) (o : MerObj) : State := s.setMer { s.mer with objs := s.mer.objs.put obj o }

/-- A unit given to a COUNT object: the earliest waiter takes it, otherwise VALUE rises (R184, R186). The new state and whether
a waiter was released. -/
def State.merUnit (s : State) (obj : Nat) (o : MerObj) (decided : Option Nat) (sig : Nat) : State × Bool :=
  match o.waiters with
  | w :: ws => ((s.setObj obj { o with waiters := ws }).merRelease (s.partDatum o.part) obj w 0 decided sig true, true)
  | [] =>
    if o.value = 0xFFFFFFFF then
      (((s.setMer { s.mer with ovf := satInc s.mer.ovf }).tally 0x11020).notify .countOverflow .ok (some o.part) obj 0 (.die (merDie obj)), false)
    else (s.setObj obj { o with value := o.value + 1 }, false)

/-- A BARRIER generation completes (R185): every waiter is released with the current GEN. -/
def State.merComplete (s : State) (obj : Nat) (o : MerObj) (decided : Option Nat) (sig : Nat) : State :=
  let s := s.setObj obj { o with value := 0, gen := (o.gen + 1) % 2 ^ 32, waiters := [] }
  o.waiters.foldl (fun s w => s.merRelease (s.partDatum o.part) obj w o.gen decided sig false) s

/-- Waiter entries in use on a die (R187). -/
def State.merPool (s : State) (die : Nat) : Nat :=
  (s.mer.objs.map (fun e => if merDie e.1 = die then e.2.waiters.length else 0)).foldl (· + ·) 0

/-- Registers a waiter; in a Datum partition in stamp order (R194). -/
def insertWaiter (datum : Bool) (w : MerWaiter) (ws : List MerWaiter) : List MerWaiter :=
  if datum then
    let before := fun (v : MerWaiter) => v.stamp < w.stamp ||
      (v.stamp = w.stamp && !keyLt [w.tile / 256, w.tile / 16 % 16, w.tile % 16, w.strand]
        [v.tile / 256, v.tile / 16 % 16, v.tile % 16, v.strand])
    ws.takeWhile before ++ w :: ws.dropWhile before
  else ws ++ [w]

/-! ### The home cell -/

/-- Whether the sender may name the object (R191, R211). -/
def MerXfer.mayName (x : MerXfer) (o : MerObj) : Bool := x.part = some o.part || (x.src = .kci && x.part.isNone)

/-- Refuses a transfer (R191): counted, with a notice that carries the object and the source; a wait or read is answered
OBJ_INVALID, a read with zero; a command ends so. -/
def State.merRefuse (s : State) (x : MerXfer) : State :=
  let s := ((s.setMer { s.mer with reject := satInc s.mer.reject }).tally 0x11028).notify .merReject .objInvalid x.part x.obj x.lastWord.toNat
    (.die (merDie x.obj))
  let datum := match x.part with
    | some p => s.partDatum p
    | none => false
  match x.act with
  | .wait _ => s.merReply datum x.reg x.tile x.strand x.obj (waitResult .objInvalid false 0) none (some x.stamp) x.stamp x.id false
  | .read _ => s.merReply datum x.reg x.tile x.strand x.obj 0 none (some x.stamp) x.stamp x.id false
  | .signal _ => if x.src = .kci then s.progress 0x0A04 x.id .objInvalid else s
  | .withdraw .. => s

/-- Applies a signal to an object (R184 to R186, R195, R196). A signal without a stamp that releases a waiter of a Datum
partition counts MER_FOREIGN_SIGNAL once (R167). -/
def State.merSignal (s : State) (x : MerXfer) (o : MerObj) (clear : Bool) : State :=
  let decided := if x.src = .kci then none else some x.stamp
  let o := { o with last := x.lastWord }
  let foreign := fun (s : State) (released : Bool) => if released && x.src = .kci then s.drift 3 [o.part] else s
  match o.kind, clear with
  | .event, true => s.setObj x.obj { o with value := 0 }
  | .event, false =>
    let s' := o.waiters.foldl (fun s w => s.merRelease (s.partDatum o.part) x.obj w 0 decided x.id false)
      (s.setObj x.obj { o with value := 1, waiters := [] })
    foreign s' (!o.waiters.isEmpty)
  | .count, _ =>
    let (s', r) := (s.setObj x.obj o).merUnit x.obj o decided x.id
    foreign s' r
  | .barrier, _ =>
    if o.value + 1 = o.target then foreign (s.merComplete x.obj o decided x.id) (!o.waiters.isEmpty)
    else s.setObj x.obj { o with value := o.value + 1 }

/-- Applies a registration (R184, R187, R190). -/
def State.merWait (s : State) (x : MerXfer) (o : MerObj) (expiry : Option Nat) : State :=
  let datum := s.partDatum o.part
  let w : MerWaiter := ⟨x.reg, x.tile, x.strand, expiry, x.stamp⟩
  let now := fun (s : State) (info : Nat) (unit : Bool) =>
    s.merReply datum x.reg x.tile x.strand x.obj (waitResult .arrived true info)
      (if datum then none else expiry) (some x.stamp) x.stamp x.id unit
  let full := decide (8192 ≤ s.merPool (merDie x.obj))
  let limit := ((s.setMer { s.mer with limit := satInc s.mer.limit }).tally 0x11018).merReply datum x.reg x.tile x.strand x.obj
    (waitResult .waiterLimit false 0) none (some x.stamp) x.stamp x.id false
  match o.kind with
  | .count =>
    if 0 < o.value then now (s.setObj x.obj { o with value := o.value - 1 }) (o.value - 1) true
    else if full then limit
    else s.setObj x.obj { o with waiters := insertWaiter datum w o.waiters }
  | .event =>
    if o.value = 1 then now s 0 false
    else if full then limit
    else s.setObj x.obj { o with waiters := insertWaiter datum w o.waiters }
  | .barrier =>
    if o.value + 1 = o.target then now (s.merComplete x.obj o (some x.stamp) x.id) o.gen false
    else if full then limit
    else s.setObj x.obj { o with value := o.value + 1, waiters := insertWaiter datum w o.waiters }

/-- Applies a withdrawal (R197, R204). A registration that stands is removed, and a timed wait is answered TIMEOUT. One that
was already released keeps its release, but for a reset tile: there a COUNT unit goes to the next waiter or back. -/
def State.merWithdraw (s : State) (x : MerXfer) (o : MerObj) (reg : Nat) (reset : Bool) : State :=
  let datum := s.partDatum o.part
  match o.waiters.find? (fun w => w.reg = reg) with
  | some w =>
    let o := { o with waiters := o.waiters.filter (fun v => v.reg ≠ reg), value := if o.kind = .barrier then o.value - 1 else o.value }
    let s := s.setObj x.obj o
    if reset then s
    else s.merReply datum reg w.tile w.strand x.obj (waitResult .timeout false 0) none (some x.stamp) x.stamp x.id false
  | none =>
    if reset then
      match s.mer.replies.find? (fun r => r.reg = reg) with
      | some r =>
        let s := s.setMer { s.mer with replies := s.mer.replies.filter (fun r => r.reg ≠ reg) }
        if r.unit then (s.merUnit x.obj o (if datum then some x.stamp else none) x.id).1 else s
      | none => s
    else s

/-- The home cell applies a transfer (R193 to R196); a signal of a tile is acknowledged (R189), a command's has taken effect. -/
def State.merApply (s : State) (x : MerXfer) : State :=
  let s := s.setMer { s.mer with xfers := s.mer.xfers.filter (fun y => y.id ≠ x.id), joined := s.mer.joined.put x.obj (s.now, x.place) }
  let ackOf := fun (s : State) (e : Option Nat) =>
    let d := match x.part with
      | some p => s.partDatum p
      | none => false
    s.setMer { s.mer with acks := s.mer.acks ++ [⟨x.id, x.tile, e, x.stamp, d⟩] }
  let s := match x.act, x.src with
    | .signal _, .strand => ackOf s none
    | .signal _, .engine e => ackOf s (some e)
    | _, _ => s
  match s.mer.objs.look x.obj with
  | none =>
    match x.act with
    | .withdraw g true => s.setMer { s.mer with replies := s.mer.replies.filter (fun r => r.reg ≠ g) }
    | .withdraw _ false => s
    | _ => s.merRefuse x
  | some o =>
    if x.isWithdraw then
      match x.act with
      | .withdraw g r => s.merWithdraw x o g r
      | _ => s
    else if !x.mayName o then s.merRefuse x
    else match x.act with
      | .signal clear =>
        if clear && o.kind ≠ .event then s.merRefuse x
        else
          let s := s.merSignal x o clear
          if x.src = .kci then s.progress 0x0A04 x.id else s
      | .wait e => s.merWait x o e
      | .read w =>
        s.merReply (s.partDatum o.part) x.reg x.tile x.strand x.obj
          (match w with
            | 0 => o.valueWord
            | 1 => o.stateWord
            | _ => o.last) none (some x.stamp) x.stamp x.id false
      | .withdraw .. => s

/-! ### Arrival at the tile -/

/-- Delivers a reply: the result to RD, the strand RUNNABLE (R190, R198, R199, R202). -/
def State.merDeliver (s : State) (r : MerReply) : State :=
  let s := s.setMer { s.mer with replies := s.mer.replies.filter (fun q => q.id ≠ r.id) }
  let x := s.tile r.tile
  let d := x.strand r.strand
  match d.wait with
  | .meridian _ rd reg _ timeout _ =>
    if d.state = .waiting && reg = r.reg then
      let late := match r.expiry, r.sample, r.decided, timeout with
        | some e, some _, some c, _ => decide (c = e)
        | some _, _, _, some t => decide (t ≤ s.now)
        | _, _, _, _ => false
      (s.setTile r.tile (x.setRegOf r.strand rd (wd (r.result.toNat + flag 8 late)))).passFence r.tile r.strand
    else s
  | _ => s

/-- A reply reaches its tile (R166, R167): held for its sample point in a Datum partition; one that comes after it is delivered
now and MER_LATE_SAMPLE counts once for the signal. -/
def State.merArrive (s : State) (r : MerReply) : State :=
  match r.sample with
  | none => s.merDeliver r
  | some c =>
    if s.timebase ≤ c then
      s.setMer { s.mer with replies := s.mer.replies.map (fun q => if q.id = r.id then { q with arrived := true } else q) }
    else
      let part := ((s.tile r.tile).part).toList
      let s := if r.counted then s else
        (s.setMer { s.mer with replies := s.mer.replies.map (fun q => if q.sig = r.sig then { q with counted := true } else q) }).drift
          2 part
      s.merDeliver r

/-- Withdrawals of a tile reset (R204): every registration of its strands, with replies discarded. -/
def State.merTileReset (s : State) (t : Nat) : State :=
  let waits := (s.tile t).strands.filterMap (fun e => match e.2.wait with
    | .meridian obj _ reg _ _ _ => if e.2.state = .waiting then some (e.1, obj, reg) else none
    | _ => none)
  let s := s.setMer { s.mer with replies := s.mer.replies.map (fun r => if r.tile = t then { r with dead := true, arrived := false } else r) }
  waits.foldl (fun s w =>
    s.merSend { id := 0, obj := w.2.1, act := .withdraw w.2.2 true, src := .strand, tile := t, strand := w.1, part := (s.tile t).part,
                stamp := s.timebase, reg := w.2.2 }) s

end Sys2Proof.Machine
end

