-- ==== Sys2Proof/Machine/Desc.lean ====
section
/-! DEFINITION. Descriptors of long-running instructions and the checks made at issue (R120 to R139, R279, R285, R286). -/

namespace Sys2Proof.Machine

/-- An address generator (R124). -/
structure Ag where
  base   : Nat
  counts : List Nat
  strides : List Int
  fmtf   : Nat
  space  : Nat
  scale  : Nat
  esc    : Nat
  useVreg : Bool
  vreg   : Nat
  useImm : Bool
  /-- Its reserved bits are zero. -/
  clean  : Bool
deriving DecidableEq, Repr

/-- The AG in descriptor words w to w + 7. -/
def agAt (ws : List Word) (w : Nat) : Ag :=
  let l := (List.range 6).map (fun j => nth ws (w + 1 + j) 0)
  let a := nth ws (w + 7) 0
  { base := (nth ws w 0).toNat, counts := l.map (fun x => bits x 19 0 + 1), strides := l.map (fun x => signed 32 (bits x 63 32)),
    fmtf := bits a 11 0, space := bits a 13 12, scale := bits a 36 16, esc := bits a 57 37, useVreg := bit a 58,
    vreg := bits a 62 59, useImm := bit a 63,
    clean := l.all (fun x => bits x 31 20 = 0) && bits a 15 14 = 0 && bits a 11 9 = 0 }

/-- The number of units (R125). -/
def Ag.units (g : Ag) : Nat := g.counts.foldl (· * ·) 1

/-- The offset of unit n: level 0 is innermost (R125). -/
def agOffset : List Nat → List Int → Nat → Int
  | c :: cs, s :: ss, n => (n % c : Nat) * s + agOffset cs ss (n / c)
  | _, _, _ => 0

/-- The exact address of unit n (R125). -/
def Ag.addr (g : Ag) (n : Nat) : Int := (g.base : Int) + agOffset g.counts g.strides n

def Ag.fmt (g : Ag) : OpFmt := opFmt g.fmtf

/-- Elements per unit for the vector engine and for outputs: one, or a block of 32 below 8 bits (R128, R130). -/
def perUnit (code : Nat) : Nat := if fmtBits code < 8 && code < 0xE then 32 else 1

/-- Bytes of a unit of that many elements. -/
def unitBytes (code per : Nat) : Nat := ceilDiv (fmtBits code * per) 8

/-- Header fields (R121). -/
def dOp (ws : List Word) : Nat := bits (nth ws 2 0) 7 0
def dCompl (ws : List Word) : Bool := bit (nth ws 2 0) 8
def dSigEn (ws : List Word) : Bool := bit (nth ws 2 0) 9
def dSigObj (ws : List Word) : Nat := bits (nth ws 2 0) 23 10
def dComplAddr (ws : List Word) : Nat := bits (nth ws 2 0) 44 24
def dConv (ws : List Word) : Word := nth ws 3 0

/-- Words a to b of a descriptor are zero. -/
def wordsZero (ws : List Word) (a b : Nat) : Bool := (List.range (b + 1 - a)).all (fun i => nth ws (a + i) 0 = 0)

/-- AGs of engines other than the vector engine leave its fields clear (R124). -/
def Ag.plain (g : Ag) : Bool := g.clean && !g.useVreg && !g.useImm

/-! ### Tensor (R127, R128) -/

def accKeep (ws : List Word) : Bool := bit (nth ws 31 0) 33
def accInit (ws : List Word) : Bool := bit (nth ws 31 0) 32
def accBase (ws : List Word) : Nat := bits (nth ws 31 0) 45 34

/-- Chunks, rows and columns of a MATMUL. -/
def mmChunks (ws : List Word) : Nat := nth (agAt ws 4).counts 0 1
def mmM (ws : List Word) : Nat := nth (agAt ws 4).counts 1 1
def mmN (ws : List Word) : Nat := nth (agAt ws 12).counts 1 1

/-- Reserved fields, OP, AG counts and shape of a tensor descriptor (R127, R128). -/
def tensorShapeBad (ws : List Word) : Bool :=
  let a := agAt ws 4
  let b := agAt ws 12
  let c := agAt ws 20
  let keep := accKeep ws
  let n := mmN ws
  let per := perUnit (convCtl (dConv ws)).fmt
  let batchA := a.counts.drop 2
  dOp ws ≠ 1 || !a.plain || !b.plain || a.space ≠ 0 || b.space ≠ 0 || 2 ^ 32 < a.units || 2 ^ 32 < b.units ||
    bits (nth ws 31 0) 63 46 ≠ 0 || nth a.counts 0 1 ≠ nth b.counts 0 1 || batchA ≠ b.counts.drop 2 ||
    (accInit ws && batchA.any (· ≠ 1)) || 4096 < accBase ws + mmM ws * n ||
    (!keep && (!c.plain || c.space ≠ 0 || c.fmtf ≠ 0 || 2 ^ 32 < c.units || batchA ≠ c.counts.drop 2 ||
      nth c.counts 0 1 * per ≠ n || nth c.counts 1 1 ≠ mmM ws ||
      bits (dConv ws) 31 13 ≠ 0 || bits (nth ws 28 0) 63 42 ≠ 0 || bits (nth ws 30 0) 63 42 ≠ 0))

/-- Operand and conversion fields of a tensor descriptor (R48, R60, R127). -/
def tensorFormat (ws : List Word) : Option Status :=
  let a := (agAt ws 4).fmt
  let b := (agAt ws 12).fmt
  let k := 32 * mmChunks ws
  let w := nth ws 29 0
  let c := convCtl (dConv ws)
  if tensorOperandBad a k (bits w 31 0) || tensorOperandBad b k (bits w 63 32) then some .formatInvalid
  else if a.fmt ≠ b.fmt || a.split ≠ b.split then some .formatMix
  else if accKeep ws then none
  else if convBad c || (c.block && mmN ws % 32 ≠ 0) || (c.tensor && badTensorScale (bits (nth ws 31 0) 31 0)) then some .formatInvalid
  else none

/-! ### Vector (R130, R131) -/

def vecBinary (op : Nat) : Bool := (1 ≤ op && op ≤ 6) || (0x40 ≤ op && op ≤ 0x47)
def vecReduce (op : Nat) : Bool := 0x20 ≤ op && op ≤ 0x22
def vecInt (op : Nat) : Bool := 0x40 ≤ op && op ≤ 0x47
def vecKnown (op : Nat) : Bool :=
  (1 ≤ op && op ≤ 7) || (0x10 ≤ op && op ≤ 0x15) || vecReduce op || op = 0x30 || vecInt op

/-- The operation's own type: FP32 or INT32. -/
def vecType (op : Nat) : Nat := if vecInt op then 0xC else 0x0

/-- CVT of an INT32 operand, which enters the conversion unit as it stands (R131). -/
def vecCvtInt (ws : List Word) : Bool :=
  let x := agAt ws 4
  dOp ws = 0x30 && !x.useVreg && !x.useImm && x.fmt.fmt = 0xC

/-- Results are written directly: CONV zero, or OUT_FMT names the operation's type (R131). A CVT of INT32 has an INT32 result: with
OUT_FMT FP32 it is rounded under RMODE, RNE where CONV is zero, and with OUT_FMT INT32 it is written as it stands (log 82). -/
def vecDirect (ws : List Word) : Bool :=
  if vecCvtInt ws then bits (dConv ws) 3 0 = 0xC else dConv ws = 0 || bits (dConv ws) 3 0 = vecType (dOp ws)

/-- The format of the output. -/
def vecOutFmt (ws : List Word) : Nat := if vecDirect ws && !vecCvtInt ws then vecType (dOp ws) else bits (dConv ws) 3 0

/-- The format in which an operand is read: a register or the scalar in the operation's type. -/
def Ag.vecFmt (g : Ag) (op : Nat) : Nat := if g.useVreg || g.useImm then vecType op else g.fmt.fmt

/-- Element counts of operands and output. -/
def Ag.elems (g : Ag) (code : Nat) : Nat := g.units * perUnit code

/-- The operands an operation reads besides X (R130). AG_Y of an operation of one operand, of a reduction and of CVT, and AG_Z of all
but FMA as an operand, are not read: no field of theirs is checked, FMTF among them (R31). The spec does not say so: DESIGN CHOICE
(log 82). -/
def vecOperands (ws : List Word) : List Ag :=
  agAt ws 4 :: (if vecBinary (dOp ws) then [agAt ws 12] else []) ++ (if dOp ws = 4 then [agAt ws 20] else [])

/-- The level-0 run of a reduction, in elements. -/
def vecRun (ws : List Word) : Nat := let x := agAt ws 4; nth x.counts 0 1 * perUnit (x.vecFmt (dOp ws))

/-- Reserved fields, OP and element counts of a vector descriptor (R130). An operand in a register enumerates exactly 64 elements: of a
reduction that is X with its 64 elements, whatever Z counts. A reduction of the scalar of word 28 is refused: it has no level-0 run
(log 82). Three more points the spec leaves open are the model's: AG_Y of an operation of one operand, a reduction or CVT is ignored
whole, with its counts, reserved bits and SPACE; an operand with both USE_VREG and USE_IMM, and a SPACE other than 0, which it names
for tensor and sparse AGs, give DESC_INVALID. DESIGN CHOICE (log 82). -/
def vecShapeBad (ws : List Word) : Bool :=
  let op := dOp ws
  let x := agAt ws 4
  let z := agAt ws 20
  let zn := z.elems (vecOutFmt ws)
  let ins := x :: (if vecBinary op then [agAt ws 12] else [])
  let direct := vecDirect ws
  !vecKnown op || !wordsZero ws 29 31 || bits (dConv ws) 31 13 ≠ 0 ||
    ins.any (fun g => !g.clean || g.space ≠ 0 || (!g.useImm && 2 ^ 32 < g.units) || (g.useVreg && g.useImm)) ||
    !z.clean || z.space ≠ 0 || 2 ^ 32 < z.units || z.useImm || (z.useVreg && !direct) ||
    (if vecReduce op then x.useImm || vecRun ws * zn ≠ x.elems (x.vecFmt op)
     else (vecOperands ws).any (fun g => !g.useImm && g.elems (g.vecFmt op) ≠ zn)) ||
    ins.any (fun g => g.useVreg && g.elems (g.vecFmt op) ≠ 64) || (z.useVreg && zn ≠ 64)

/-- An operand field of a vector descriptor that faults (R31, R38, R40, R43, R131). A code, X, ISCALE or SPLIT that no vector operand
may have faults in every field; what depends on the elements read does not concern a register or the scalar of word 28. The reduction
length of R40 is the level-0 run of a reduction, and the whole operand otherwise (log 82). That INT32 operations refuse floating-point
and block-scaled operands is a DESIGN CHOICE (log 82). -/
def vecFieldBad (ws : List Word) (g : Ag) : Bool :=
  let op := dOp ws
  let o := g.fmt
  let run := if vecReduce op then nth g.counts 0 1 * perUnit o.fmt else g.elems o.fmt
  0xD ≤ o.fmt || o.tensor || o.split ≠ 0 || (o.x && (o.fmt ≠ 7 || !o.block)) ||
    (!(g.useVreg || g.useImm) && ((o.block && (!blockCode o.fmt || run % 32 ≠ 0)) ||
      (vecInt op && !((isIntFmt o.fmt || o.fmt = 0xB) && !o.block))))

/-- Operand and conversion fields of a vector descriptor (R31, R40, R60, R131). DQ_COL, BIAS_EN, tensor OSCALE and PROMOTE_EN name
vectors, a scale or a destination for which the vector descriptor has no field: FORMAT_INVALID, as R279 has it for SPMM. DESIGN CHOICE
(log 82). The row of a block-scaled output is level 0 of AG_Z. -/
def vecFormat (ws : List Word) : Option Status :=
  let c := convCtl (dConv ws)
  if (vecOperands ws).any (vecFieldBad ws) then some .formatInvalid
  else if dConv ws = 0 then none
  else if convBad c || c.dqCol || c.bias || c.tensor || c.promote then some .formatInvalid
  else if c.block && !vecDirect ws && nth (agAt ws 20).counts 0 1 * perUnit c.fmt % 32 ≠ 0 then some .formatInvalid
  else none

/-! ### Move, message, sparse -/

/-- COPY (R133). -/
def moveShapeBad (ws : List Word) : Bool :=
  let a := agAt ws 4
  let b := agAt ws 12
  let w := nth ws 20 0
  dOp ws ≠ 1 || dConv ws ≠ 0 || !a.plain || !b.plain || a.fmtf ≠ 0 || b.fmtf ≠ 0 || 2 ^ 32 < a.units || 2 ^ 32 < b.units ||
    !wordsZero ws 21 31 || bits w 63 6 ≠ 0 || bits w 3 0 < 3 || 12 < bits w 3 0 || bits w 5 4 % 2 = 1 ||
    (a.space ≠ 0 && b.space ≠ 0) || a.units ≠ b.units

/-- SEND (R84, R135, R136). -/
def msgShapeBad (ws : List Word) : Bool :=
  let h := nth ws 4 0
  let w := nth ws 5 0
  dOp ws ≠ 1 || dConv ws ≠ 0 || !wordsZero ws 6 31 || bits w 63 42 ≠ 0 || bits w 20 0 % 8 ≠ 0 || bits w 41 21 % 64 ≠ 0 ||
    bits h 47 41 ≠ 0 || 64 < bits h 34 28 || (bit h 21 && 5 ≤ bits h 9 0)

/-- SPMM and PREDICT: OP 1 and 2 (R138, R279, R285). -/
def sparseShapeBad (ws : List Word) : Bool :=
  let x := agAt ws 4
  let z := agAt ws 12
  let w := nth ws 21 0
  let rows := bits w 15 0
  let cols := bits w 31 16
  let predict := dOp ws = 2
  let predEn := bit w 38
  let policy := bits w 33 32
  let k := bits w 37 34
  let per := perUnit (convCtl (dConv ws)).fmt
  let b := nth x.counts 1 1
  (dOp ws ≠ 1 && !predict) || !x.plain || !z.plain || x.space ≠ 0 || z.space ≠ 0 || z.fmtf ≠ 0 ||
    (x.counts.drop 2).any (· ≠ 1) || (z.counts.drop 2).any (· ≠ 1) ||
    rows = 0 || 64 < rows || cols = 0 || 64 < cols || 32 * nth x.counts 0 1 ≠ 128 * cols || 32 < b ||
    nth z.counts 1 1 ≠ b || (if predict then nth z.counts 0 1 * 64 else nth z.counts 0 1 * per) ≠ 128 * rows ||
    !wordsZero ws 23 31 || bits w 63 39 ≠ 0 || bits (nth ws 22 0) 63 21 ≠ 0 || bits (dConv ws) 31 13 ≠ 0 ||
    policy = 3 || (!predEn && (policy ≠ 0 || k ≠ 0)) || (policy = 1 && k = 0) || (policy ≠ 1 && k ≠ 0) ||
    (predict && (predEn || dConv ws ≠ 0))

/-- PRED_ADDR under R120's address checks (R286). -/
def predAddr (ws : List Word) : Option Status :=
  let w := nth ws 21 0
  let a := bits (nth ws 22 0) 20 0
  let n := nth (agAt ws 4).counts 1 1 * (16 * bits w 15 0)
  if !bit w 38 then none
  else if a % 8 ≠ 0 then some .addrAlign
  else if scratchEnd < a + n then some .addrRange
  else none

def sparseFormat (ws : List Word) (theta : Word) : Option Status :=
  let x := (agAt ws 4).fmt
  let k := 32 * nth (agAt ws 4).counts 0 1
  let c := convCtl (dConv ws)
  if dOp ws = 2 then
    if x.fmt ≠ 7 || x.x || x.tensor || x.split ≠ 0 || (x.block && k % 32 ≠ 0) || (f32 (bits theta 31 0)).isNan then some .formatInvalid
    else none
  else if tensorOperandBad x k 0 || x.tensor then some .formatInvalid
  else if convBad c || c.promote || c.x || c.dqCol || c.bias || c.tensor then some .formatInvalid
  else none

/-! ### The checks of an engine -/

def shapeBad (e : Nat) (ws : List Word) : Bool :=
  bits (nth ws 2 0) 63 45 ≠ 0 ||
    (match e with
      | 0 => tensorShapeBad ws
      | 1 => vecShapeBad ws
      | 2 => moveShapeBad ws
      | 3 => msgShapeBad ws
      | _ => sparseShapeBad ws)

/-- Step 3.1 of R139. -/
def issueShape (e : Nat) (ws : List Word) : Option Status :=
  if shapeBad e ws then some (if e = 3 then .msgInvalid else .descInvalid)
  else match (if e = 4 then predAddr ws else none) with
    | some st => some st
    | none =>
      if !dCompl ws then none
      else if scratchEnd ≤ dComplAddr ws then some .addrRange
      else if dComplAddr ws % 8 ≠ 0 then some .addrAlign
      else none

/-- Step 3.2 (R139): every region named in a mask is VALID. -/
def Tile.regionsOk (x : Tile) (ws : List Word) : Bool :=
  (List.range 64).all (fun r => !bit (nth ws 0 0 ||| nth ws 1 0) r || (x.regions.look r).isSome)

/-- Step 3.3. -/
def Tile.issueFormat (x : Tile) (e : Nat) (ws : List Word) : Option Status :=
  match e with
  | 0 => tensorFormat ws
  | 1 => vecFormat ws
  | 4 => sparseFormat ws x.predThresh
  | _ => none

/-- The in-flight instructions that conflict with masks (R144). -/
def Tile.conflicts (x : Tile) (ws : List Word) : List Nat :=
  let r := nth ws 0 0
  let w := nth ws 1 0
  (x.inFlight.filter (fun q => (r ||| w) &&& q.wrMask ≠ 0 || w &&& q.rdMask ≠ 0)).map (·.id)

/-- The issue of a long-running instruction (R120, R139 to R147). -/
def issueRun (e t : Nat) (ra : Reg) (imm : Imm) (s : State) : State :=
  seqRun t s (fun x =>
    let d := x.addr ra imm
    if d % 256 ≠ 0 then .fault s .addrAlign 0 0
    else if d < 0 || (scratchEnd : Int) < d + 256 then .fault s .addrRange 0 0
    else match x.load d.toNat 256 with
      | .error (w, y) => .fault (s.setEcc t y w) .uncorrectable 0 w
      | .ok (bytes, x) =>
        let s := s.setTile t x
        let ws := leWords 32 bytes
        match issueShape e ws with
        | some st => .fault s st 0 0
        | none =>
          if !x.regionsOk ws then .fault s .regionInvalid 0 0
          else match x.issueFormat e ws with
            | some st => .fault s st 0 0
            | none =>
              if e = 4 && (match x.part with
                  | some p => s.partTrain p
                  | none => false) then .fault s .sparseInTrain 0 0
              else
                let cs := x.conflicts ws
                if !cs.isEmpty then .wait s (.insns cs)
                else if 32 ≤ (x.queue e).length then .fault s .queueFull (engineDetail e) 0
                else
                  let q : QEntry := { id := x.nextId, words := ws, strand := x.current, pc := x.pc, thresh := x.threshold,
                                      sctrl := x.sparseCtrl, theta := x.predThresh }
                  .next (s.setTile t { x with queues := x.queues.put e (x.queue e ++ [q]), nextId := x.nextId + 1 }))

def execTens (t : Nat) (ra : Reg) (imm : Imm) (s : State) : Host.Outcome State Fault Refusal := .next (issueRun 0 t ra imm s)
def execVec (t : Nat) (ra : Reg) (imm : Imm) (s : State) : Host.Outcome State Fault Refusal := .next (issueRun 1 t ra imm s)
def execMove (t : Nat) (ra : Reg) (imm : Imm) (s : State) : Host.Outcome State Fault Refusal := .next (issueRun 2 t ra imm s)
def execMsg (t : Nat) (ra : Reg) (imm : Imm) (s : State) : Host.Outcome State Fault Refusal := .next (issueRun 3 t ra imm s)
def execSprs (t : Nat) (ra : Reg) (imm : Imm) (s : State) : Host.Outcome State Fault Refusal := .next (issueRun 4 t ra imm s)

end Sys2Proof.Machine
end

