-- ==== Sys2Proof/Machine/Engine.lean ====
section
/-! DEFINITION. What the engines share: reads and writes at generated addresses, operand units, stops (R74, R76, R125, R126). -/

namespace Sys2Proof.Machine

/-- Why an engine stopped: the status, and the scratchpad word of an uncorrectable error. -/
structure Stop where
  st   : Status
  word : Option Nat := none
deriving DecidableEq, Repr

/-- What an engine works on: the tile, the output units written (R122), its own stage-5 saturations (R68), and how many units
it writes at most: a stop keeps the units that were written before its cycle (R126, log 76). -/
structure EngSt where
  x     : Tile
  units : Nat := 0
  nsat  : Nat := 0
  cap   : Option Nat := none
deriving DecidableEq, Repr

abbrev EngM (α : Type) := EStateM Stop EngSt α

/-- Nothing more is written. -/
def EngSt.capped (e : EngSt) : Bool :=
  match e.cap with
  | some c => c ≤ e.units
  | none => false

/-- The alignment of a unit of n bytes (R126). -/
def unitAlign (n : Nat) : Nat := if 8 ≤ n then 8 else n

/-- The address check of R126: range first, then alignment. -/
def engAddr (a : Int) (n align : Nat) : Except Stop Nat :=
  if a < 0 || (scratchEnd : Int) < a + n then .error { st := .addrRange }
  else if a.toNat % align ≠ 0 then .error { st := .addrAlign }
  else .ok a.toNat

/-- Reads n bytes at a generated address. -/
def engRead (a : Int) (n align : Nat) : EngM (List Byte) := fun e =>
  match engAddr a n align with
  | .error st => .error st e
  | .ok b => match e.x.load b n with
    | .error (w, x) => .error ⟨.uncorrectable, some w⟩ { e with x := x }
    | .ok (bs, x) => .ok bs { e with x := x }

/-- Writes bytes at a generated address. -/
def engWrite (a : Int) (bs : List Byte) (align : Nat) : EngM Unit := fun e =>
  match engAddr a bs.length align with
  | .error st => .error st e
  | .ok b => if e.capped then .ok () e else match e.x.store b bs with
    | .error (w, x) => .error ⟨.uncorrectable, some w⟩ { e with x := x }
    | .ok x => .ok () { e with x := x }

/-- Counts numeric events, and the saturations of the run. -/
def engCount (ev : NumEv) : EngM Unit := fun e => .ok () { e with x := e.x.countNum ev, nsat := e.nsat + ev.sat }

/-- Counts events that are no stage-5 events: code errors, split underflows, accumulator saturations. -/
def engCountOther (ev : NumEv) : EngM Unit := fun e => .ok () { e with x := e.x.countNum ev }

/-- One more output unit is written. -/
def engUnit : EngM Unit := fun e => .ok () (if e.capped then e else { e with units := e.units + 1 })

/-- Runs an action over a list, in order. -/
def engEach {α : Type} (f : α → EngM Unit) : List α → EngM Unit
  | [] => pure ()
  | a :: as => do
    f a
    engEach f as

/-- Collects what an action gives over a list, in order. -/
def engMap {α β : Type} (f : α → EngM β) : List α → EngM (List β)
  | [] => pure []
  | a :: as => do
    let b ← f a
    let bs ← engMap f as
    pure (b :: bs)

/-- Collects from n on, k times, up to the first stop, which is returned beside what was collected (R126: outputs before a
stop are written). -/
def engCollect {β : Type} (f : Nat → EngM (List β)) : Nat → Nat → EngM (List β × Option Stop)
  | _, 0 => pure ([], none)
  | n, k + 1 => fun e =>
    match f n e with
    | .error st e => .ok ([], some st) e
    | .ok bs e =>
      match engCollect f (n + 1) k e with
      | .ok (cs, st) e => .ok (bs ++ cs, st) e
      | .error st e => .error st e

/-- Stops with a status. -/
def engStop {α : Type} (st : Stop) : EngM α := fun e => .error st e

/-- Elements of unit n of an operand (R37, R38, R44, R45, R125): `per` elements of w bits. `first`: this reading counts the
invalid codes (R36, R45: once for each instruction). The escape word is read at any alignment (log 82). -/
def readUnit (g : Ag) (w per n : Nat) (first : Bool) : EngM (List Exact) := do
  let o := g.fmt
  let bs ← engRead (g.addr n) (ceilDiv (w * per) 8) (unitAlign (ceilDiv (w * per) 8))
  let xs := (List.range per).map (elemAt w bs)
  if o.block then do
    let j := if per = 32 then n else n / 32
    let i0 := if per = 32 then 0 else n % 32
    let sc ← engRead ((g.scale + j : Nat) : Int) 1 1
    let esc ← if o.x then engRead ((g.esc + 4 * j : Nat) : Int) 4 1 else pure []
    engCountOther { code := if first && i0 = 0 && escInvalid (ofLe esc) then 1 else 0 }
    pure ((List.range per).map (fun i => decodeInBlock o.fmt (ofLe sc) (ofLe esc) (i0 + i) (nth xs i 0)))
  else do
    engCountOther { code := if first && o.fmt = 0xB then (xs.filter (· = 2)).length else 0 }
    pure (xs.map (fun v => if w = 16 && o.fmt = 0x8 then Exact.ofInt (signed 16 v) else decodeElem o.fmt v))

/-- The integer an exact value holds (the values of integer formats and their sums). -/
def Exact.toInt (y : Exact) : Int :=
  let (q, _, _) := y.divPow 0
  if y.sign then -(q : Int) else (q : Int)

/-- An instruction at the head of an engine queue that the engine has not begun. -/
def Tile.head (x : Tile) (e : Nat) : Option QEntry := (x.queue e).head?

/-- Replaces the head of an engine queue. -/
def Tile.setHead (x : Tile) (e : Nat) (q : QEntry) : Tile := { x with queues := x.queues.put e (q :: (x.queue e).tail) }

/-- What an engine leaves: the tile, the units and status in its entry; a stop also halts the tile (R102, R126). -/
def State.engEnd (s : State) (t e : Nat) (q : QEntry) (r : EStateM.Result Stop EngSt Unit) : State :=
  match r with
  | .ok _ y => s.setTile t (y.x.setHead e { q with ran := true, units := y.units, nsat := y.nsat })
  | .error st y =>
    let x := y.x.setHead e { q with ran := true, units := y.units, nsat := y.nsat, status := st.st, decided := true }
    (match st.word with
      | some w => s.setEcc t x w
      | none => s.setTile t x).faultHalt
      t st.st q.pc q.strand (engineDetail e) (st.word.getD 0) (1 + e)

/-- An engine executes an instruction from a tile's state. Of the units before a stop, a free number is written (R126, log 76). -/
def State.engFinish (s : State) (t e : Nat) (q : QEntry) (x : Tile) (f : EngM Unit) : State :=
  match f { x := x } with
  | .ok u y => s.engEnd t e q (.ok u y)
  | .error st y =>
    let z := match f { x := x, cap := some (Config.freeNat s.free % (y.units + 1)) } with
      | .ok _ z => z
      | .error _ z => z
    { s with free := s.free + 1 }.engEnd t e q (.error st z)

/-- An engine starts the instruction at the head of its queue, if its OP is the one named, while the tile is RUNNING, or in the
cycle in which it halted (R102, R123, R155). -/
def engineRun (t e op : Nat) (s : State) (f : QEntry → EngM Unit) : State :=
  let x := s.tile t
  match x.head e with
  | some q =>
    if s.engineLive x && !q.ran && dOp q.words = op then s.engFinish t e q x (f q) else s
  | none => s

end Sys2Proof.Machine
end

