-- ==== Sys2Proof/Machine/Tensor.lean ====
section
/-! DEFINITION. The tensor engine: MATMUL and its rerun (R51 to R59, R68, R127 to R129). -/

namespace Sys2Proof.Machine

/-! ### Products and chunk sums -/

/-- Rounds to FP8-E4M3 to nearest even, saturating at 448 (R58). -/
def toE4m3 (x : Exact) : Exact :=
  match ffmt 0x3 with
  | some f =>
    let y := f.round .rne x
    if f.over y then (if x.sign then (f.mag false f.maxEnc).neg else f.mag false f.maxEnc) else y
  | none => x

/-- One operand chunk: its values, and its block exponent with the two pieces of each element where it is split (R58). -/
structure Chunk where
  vals : List Exact
  s    : Int := 0
  hi   : List Exact := []
  lo   : List Exact := []
deriving DecidableEq, Repr

/-- The two-piece split of BF16 (R58), and the underflows of lo. In a block that holds a NaN, S is taken from the other elements and
their underflows count: R58 does not say. DESIGN CHOICE (log 82). -/
def splitBf16 (xs : List Exact) : Chunk × Nat :=
  let s := blockExp (amaxOf xs) 8
  let hi := xs.map (fun x => if x.isFin then toE4m3 (x.scale (-s)) else x)
  let rest := (xs.zip hi).map (fun e => if e.1.isFin then (e.1.scale (-s)).sub e.2 else Exact.zero)
  let lo := rest.map toE4m3
  (⟨xs, s, hi, lo⟩, ((rest.zip lo).filter (fun e => !e.1.isZero && e.2.isZero)).length)

/-- An exact sum from +0: a sum of zeros of either sign is +0, which the spec does not state for products that are all −0.
DESIGN CHOICE (log 82). -/
def exactSum (xs : List Exact) : Exact := xs.foldl Exact.add Exact.zero

def dot (xs ys : List Exact) : Exact := exactSum ((xs.zip ys).map (fun e => e.1.mul e.2))

/-- The exponent of a finite BF16 or FP32 operand, −126 for subnormals (R54). -/
def operandExp (x : Exact) : Int := max x.ilog2 (-126)

/-- E of a chunk: the largest ea + eb + 1 over the nonzero finite products; none without one (R54, R57). -/
def chunkE (xs ys : List Exact) : Option Int :=
  (xs.zip ys).foldl (fun m e =>
    if e.1.isFin && e.2.isFin && !e.1.isZero && !e.2.isZero then
      let v := operandExp e.1 + operandExp e.2 + 1
      match m with
      | some b => some (max b v)
      | none => some v
    else m) none

/-- A sum of products cut below 2^L toward −infinity; without a nonzero finite product nothing is cut (R54). -/
def alignedSum (l : Option Int) (ps : List Exact) : Exact :=
  match l with
  | some l => exactSum (ps.map (fun p => p.floorTo l))
  | none => exactSum ps

/-- The three pieces of a finite FP32 operand (R56). -/
def split3 (x : Exact) : List Exact :=
  let e := operandExp x
  let (sig, _, _) := x.divPow (e - 23)
  [.fin x.sign (sig / 65536) 1 (e - 7), .fin x.sign (sig / 256 % 256) 1 (e - 15), .fin x.sign (sig % 256) 1 (e - 23)]

/-- The six piece products of a term; a term with a special operand is the product itself (R56, R57). -/
def products3 (x y : Exact) : List Exact :=
  if x.isFin && y.isFin then
    let a := split3 x
    let b := split3 y
    [(0, 0), (0, 1), (1, 0), (0, 2), (1, 1), (2, 0)].map (fun e => (nth a e.1 Exact.zero).mul (nth b e.2 Exact.zero))
  else [x.mul y]

/-- The chunk sum of R51 to R59. -/
def chunkSum (o : OpFmt) (a b : Chunk) : Exact :=
  if o.split = 2 then
    alignedSum ((chunkE a.vals b.vals).map (· - 40)) ((a.vals.zip b.vals).flatMap (fun e => products3 e.1 e.2))
  else if o.fmt = 0x1 && o.split = 1 then
    if a.vals.all Exact.isFin && b.vals.all Exact.isFin then
      (((dot a.hi b.hi).add (dot a.hi b.lo)).add (dot a.lo b.hi)).scale (a.s + b.s)
    else dot a.vals b.vals
  else if o.fmt = 0x1 then alignedSum ((chunkE a.vals b.vals).map (· - 30)) ((a.vals.zip b.vals).map (fun e => e.1.mul e.2))
  else dot a.vals b.vals

/-- The accumulator is INT32 for integers without block scaling, FP32 otherwise (R52). TERN counts as an integer format, and INT8 with
one block-scaled operand accumulates in FP32: R52 states neither. DESIGN CHOICE (log 82). -/
def intAcc (a b : OpFmt) : Bool := (isIntFmt a.fmt || a.fmt = 0xB) && !a.block && !b.block

/-- Adds a chunk sum to an accumulator entry (R53). -/
def accAdd (int : Bool) (acc : Nat) (s : Exact) : Nat × NumEv :=
  if int then
    let v := signed 32 acc + s.toInt
    let lo : Int := -(2 ^ 31 : Nat)
    let hi : Int := (2 ^ 31 : Nat) - 1
    if v < lo then (unsign 32 lo, { sat := 1 })
    else if hi < v then (unsign 32 hi, { sat := 1 })
    else (unsign 32 v, {})
  else (toF32 ((f32 acc).add s), {})

/-- The value of an accumulator entry. -/
def accValue (int : Bool) (acc : Nat) : Exact := if int then Exact.ofInt (signed 32 acc) else f32 acc

/-! ### MATMUL -/

/-- A descriptor of MATMUL, read out. -/
structure Matmul where
  a    : Ag
  b    : Ag
  c    : Ag
  k    : Nat
  m    : Nat
  n    : Nat
  batches : Nat
  int  : Bool
  keep : Bool
  init : Bool
  base : Nat
  conv : ConvCtl
deriving DecidableEq, Repr

def matmulOf (ws : List Word) : Matmul :=
  let a := agAt ws 4
  let b := agAt ws 12
  { a := a, b := b, c := agAt ws 20, k := mmChunks ws, m := mmM ws, n := mmN ws,
    batches := (a.counts.drop 2).foldl (· * ·) 1, int := intAcc a.fmt b.fmt, keep := accKeep ws, init := accInit ws,
    base := accBase ws, conv := convCtl (dConv ws) }

/-- Bits of an operand element: 16 for INT16 (R59). -/
def OpFmt.elemBits (o : OpFmt) : Nat := if o.fmt = 0x8 && o.split = 1 then 16 else fmtBits o.fmt

/-- One operand chunk; `codes` counts its invalid codes, once for each instruction (R36, R45). `split` counts the underflows of its
finite elements: R58 does not say how often an element that several groups split is counted, and the model counts it once in each run
of the instruction. DESIGN CHOICE (log 82). -/
def readChunk (g : Ag) (n : Nat) (codes split : Bool) : EngM Chunk := do
  let xs ← readUnit g g.fmt.elemBits 32 n codes
  if g.fmt.fmt = 0x1 && g.fmt.split = 1 then do
    let (c, u) := splitBf16 xs
    engCountOther { ufl := if split then u else 0 }
    pure c
  else pure { vals := xs }

/-- Outputs in a group, by the operand class (R129). -/
def OpFmt.group (o : OpFmt) : Nat :=
  if o.split = 2 then 2
  else if o.fmt = 0x1 then (if o.split = 1 then 4 else 2)
  else if o.fmt = 0x8 then (if o.split = 1 then 1 else 4)
  else if 3 ≤ o.fmt && o.fmt ≤ 6 then 4
  else 8

/-- Chunk c enters the accumulator of output o. An invalid TERN code counts once for each AG ordinal and operand that reaches it: of one
stored element under several ordinals (a stride of 0, shared batches, X and Y alike) R36 does not speak. DESIGN CHOICE (log 82). -/
def mmChunk (d : Matmul) (once : Bool) (c o acc : Nat) : EngM Nat := do
  let batch := o / (d.m * d.n)
  let i := o % (d.m * d.n) / d.n
  let j := o % d.n
  let a ← readChunk d.a ((batch * d.m + i) * d.k + c) (once && j = 0) (j = 0)
  let b ← readChunk d.b ((batch * d.n + j) * d.k + c) (once && i = 0) (i = 0)
  let (v, ev) := accAdd d.int acc (chunkSum d.a.fmt a b)
  engCountOther ev
  pure v

/-- Chunks c, c + 1, … enter the accumulators of a group: every output takes a chunk before any takes the next (R129). -/
def mmAccum (d : Matmul) (once : Bool) (os : List Nat) : Nat → Nat → List Nat → EngM (List Nat)
  | _, 0, accs => pure accs
  | c, k + 1, accs => do
    let vs ← engMap (fun (e : Nat × Nat) => mmChunk d once c e.1 e.2) (os.zip accs)
    mmAccum d once os (c + 1) k vs

/-- Group g of the outputs, from their initial values (R127 to R129); the results also stay in the accumulator file. -/
def mmGroup (d : Matmul) (once : Bool) (inits : List Nat) (total g : Nat) : EngM (List Nat) := do
  let size := d.a.fmt.group
  let os := (List.range (min size (total - size * g))).map (size * g + ·)
  let entry := fun (o : Nat) => o % (d.m * d.n)
  let vs ← mmAccum d once os 0 d.k (os.map (fun o => if d.init then nth inits (entry o) 0 else 0))
  fun e => .ok vs { e with x := { e.x with acc := (os.zip vs).foldl (fun (m : SMap Nat) p => m.put (d.base + entry p.1) p.2) e.x.acc } }

/-- All groups in order, up to the first stop: the accumulators of the finished groups. -/
def mmAccs (d : Matmul) (once : Bool) (inits : List Nat) : EngM (List Nat × Option Stop) :=
  let total := d.batches * (d.m * d.n)
  engCollect (mmGroup d once inits total) 0 (ceilDiv total d.a.fmt.group)

/-- Column values of outputs from o: an FP32 array, column n at +4n (R127). R126 gives an alignment for units only: a column value, a
scale and an escape word are checked for their range alone. DESIGN CHOICE (log 82). -/
def colValue (use : Bool) (base n : Nat) (dflt : Exact) : EngM Exact := do
  if use then do
    let bs ← engRead ((base + 4 * n : Nat) : Int) 4 1
    pure (f32 (ofLe bs))
  else pure dflt

/-- The tensor scales of the operands (R61 stage 1). -/
def mmScale (d : Matmul) (ws : List Word) : Exact :=
  let w := nth ws 29 0
  (if d.a.fmt.tensor then f32 (bits w 31 0) else Exact.one).mul (if d.b.fmt.tensor then f32 (bits w 63 32) else Exact.one)

/-- Draws the rounding modes of n elements from ordinal `first`. -/
def engModes (c : ConvCtl) (first n : Nat) : EngM (List RMode) := fun e =>
  let (ms, sr) := convModes c 64 e.x.sr first n
  .ok ms { e with x := { e.x with sr := sr } }

/-- Writes the scale byte and the escape word of block j (R39, R125), at any alignment (log 82). -/
def writeScales (c : ConvCtl) (scale esc j : Nat) (b : BlockEnc) : EngM Unit := do
  if c.block then engWrite ((scale + j : Nat) : Int) (leBytes 1 b.scale) 1
  if c.block && c.x then engWrite ((esc + 4 * j : Nat) : Int) (leBytes 4 b.esc) 1

/-- Writes one run of encoded outputs: its scale and escape word, then one unit of 32, or units of one element (R37, R125). A unit that
is counted has its scale in place (R122, R126). -/
def writeRun (g : Ag) (c : ConvCtl) (r : Nat) (b : BlockEnc) : EngM Unit := do
  let w := fmtBits c.fmt
  writeScales c g.scale g.esc r b
  if perUnit c.fmt = 32 then do
    engWrite (g.addr r) (packElems w b.elems) (unitAlign (unitBytes c.fmt 32))
    engUnit
  else
    engEach (fun (e : Nat × Nat) => do
      engWrite (g.addr (r * b.elems.length + e.1)) (packElems w [e.2]) (unitAlign (unitBytes c.fmt 1))
      engUnit) ((List.range b.elems.length).zip b.elems)

/-- Elements converted together: a block, a unit of 32, or one (R38, R61). -/
def runLen (c : ConvCtl) : Nat := if c.block || perUnit c.fmt = 32 then 32 else 1

/-- Converts run r of the accumulators and hands it to the writer (R61 to R66). -/
def convertRun (d : Matmul) (ws : List Word) (c : ConvCtl) (len : Nat) (accs : List Nat) (r : Nat) : EngM BlockEnc := do
  let w30 := nth ws 30 0
  let ys ← engMap (fun i => do
    let o := len * r + i
    let sc ← colValue c.dqCol (bits w30 20 0) (o % d.n) Exact.one
    let b ← colValue c.bias (bits w30 41 21) (o % d.n) Exact.zero
    pure (convPre c (mmScale d ws) sc b (f32 (bits (nth ws 31 0) 31 0)) (accValue d.int (nth accs o 0)))) (List.range len)
  let ms ← engModes c (len * r) len
  let b := convRun c ms ys
  engCount b.ev
  pure b

/-- The whole of one run of MATMUL: accumulations group by group, then their conversion. A stop in a group leaves that group and
the later ones unconverted; with ACC_KEEP no unit is ever written, and a run that completes counts its M·N results (log 76). -/
def mmRun (ws : List Word) (inits : List Nat) : EngM Unit := do
  let d := matmulOf ws
  let (accs, st) ← mmAccs d true inits
  if d.keep then
    fun e => .ok () { e with units := if st.isNone then accs.length else 0 }
  else do
    let len := runLen d.conv
    engEach (fun r => do
      let b ← convertRun d ws d.conv len accs r
      writeRun d.c d.conv r b) (List.range (accs.length / len))
  match st with
  | some st => engStop st
  | none => pure ()

/-- The rerun at FP8 (R68, R128): the unit of the FP4 output at address a goes to ALT_BASE + 2(a − BASE). -/
def mmRerun (ws : List Word) (inits : List Nat) : EngM Unit := do
  let d := matmulOf ws
  let c := d.conv.promoted
  let w28 := nth ws 28 0
  let (accs, st) ← mmAccs d false inits
  engEach (fun r => do
    let b ← convertRun d ws c 32 accs r
    writeScales c (bits w28 41 21) 0 r b
    engWrite ((bits w28 20 0 : Nat) + 2 * (d.c.addr r - d.c.base)) (packElems 8 b.elems) 8
    engUnit) (List.range (accs.length / 32))
  match st with
  | some st => engStop st
  | none => pure ()

/-- The accumulator entries of an instruction. -/
def mmEntries (x : Tile) (ws : List Word) : List Nat :=
  (List.range (mmM ws * mmN ws)).map (fun i => x.acc.lookD (accBase ws + i) 0)

/-- Accumulator entries after a stop hold unspecified values (R126): free values, one for each entry of the instruction (log 2). -/
def State.freeAcc (t base : Nat) : Nat → State → State
  | 0, s => s
  | n + 1, s =>
    let (v, s) := s.fresh
    State.freeAcc t base n (s.onTile t (fun x => { x with acc := x.acc.put (base + n) (v % 2 ^ 32) }))

/-- After a run of MATMUL: where it stopped, its accumulator entries are free. -/
def State.mmAfter (s : State) (t : Nat) (q : QEntry) : State :=
  match (s.tile t).head 0 with
  | some p => if p.status ≠ .ok then State.freeAcc t (accBase q.words) (mmM q.words * mmN q.words) s else s
  | none => s

/-- The sparse engine is executing, or its head could start and entered before q (R283). -/
def Tile.sparseFirst (x : Tile) (q : QEntry) : Bool :=
  match x.head 4 with
  | some p => !p.ran && (p.fetch.isSome || p.id < q.id)
  | none => false

/-- MATMUL at the head of the tensor queue (R127 to R129); it shares the dot-product units with the sparse engine (R283). -/
def State.matmul (s : State) (t : Nat) : State :=
  let x := s.tile t
  match x.head 0 with
  | some q =>
    if s.engineLive x && !q.ran && !x.sparseFirst q then
      let c := convCtl (dConv q.words)
      let q := { q with saved := x.sr, accs := if accInit q.words then mmEntries x q.words else [],
                        decided := accKeep q.words || !c.promote }
      (s.engFinish t 0 q { x with srWrote := false } (mmRun q.words q.accs)).mmAfter t q
    else s
  | none => s

def execMatmul (t : Nat) (s : State) : Host.Outcome State Fault Refusal := .next (s.matmul t)

/-- PROMOTE_DECISION (R68): more saturations than the threshold latched at issue make the instruction run again in full from
the same operands, with the generator states saved before it. The engine finishes what it executes, also on a halted tile. -/
def State.promoteDecision (s : State) (t : Nat) : State :=
  let x := s.tile t
  match x.head 0 with
  | some q =>
    if q.ran && !q.decided then
      if q.thresh < q.nsat then
        let q := { q with decided := true, rerun := true }
        let s := (s.engFinish t 0 q { x with sr := q.saved } (mmRerun q.words q.accs)).mmAfter t q
        -- a write of GRT_SR_SEED since the first run began takes effect after the rerun (R67)
        if x.srWrote then s.onTile t (fun y => { y with sr := x.sr }) else s
      else s.setTile t (x.setHead 0 { q with decided := true })
    else s
  | none => s

def execPromoteDecision (t : Nat) (s : State) : Host.Outcome State Fault Refusal := .next (s.promoteDecision t)

end Sys2Proof.Machine
end

