-- ==== Sys2Proof/Machine/Vector.lean ====
section
/-! DEFINITION. The vector engine (R99, R100, R130 to R132). -/

namespace Sys2Proof.Machine

/-! ### Transcendentals (R99, R100) -/

/-- The tile runtime image that is active: TYPE 4 of R513. -/
def State.tileImage (s : State) : List Byte := s.crt.active.lookD 4 []

/-- c0 + c1·d + c2·d² with 40 fraction bits and arithmetic shifts (R99). -/
def vtabPoly (c : Int × Int × Int) (d : Int) : Int :=
  c.1 + c.2.1 * d / 65536 + c.2.2 * d / 65536 * d / 65536

/-- p of R99 for the 23-bit fraction t. -/
def vtabP (image : List Byte) (f half t : Nat) : Exact :=
  (Exact.ofInt (vtabPoly (Config.vtabCoef image f half (t / 65536)) (t % 65536))).scale (-40)

/-- x = 2^k · (1 + t): the 23-bit fraction and k of a positive finite value. -/
def normParts (x : Exact) : Nat × Int :=
  let k := x.ilog2
  let (q, _, _) := x.divPow (k - 23)
  (q % 2 ^ 23, k)

/-- 2^x. Beyond ±400 the result has long overflowed or vanished: k is cut there. -/
def vexp2 (image : List Byte) (x : Exact) : Exact :=
  match x with
  | .nan => .nan
  | .inf s => if s then Exact.zero else .inf false
  | .fin .. =>
    if x.isZero then Exact.one
    else if (Exact.ofInt 400).lt x then .inf false
    else if x.lt (Exact.ofInt (-400)) then Exact.zero
    else
      let k := x.floorTo 0
      let (q, _, _) := (x.sub k).divPow (-23)
      rne32 ((vtabP image 0 0 q).scale k.toInt)

def vlog2 (image : List Byte) (x : Exact) : Exact :=
  match x with
  | .nan => .nan
  | .inf s => if s then .nan else .inf false
  | .fin s .. =>
    if x.isZero then .inf true
    else if s then .nan
    else
      let (t, k) := normParts x
      rne32 ((Exact.ofInt k).add (vtabP image 1 0 t))

def vrecip (image : List Byte) (x : Exact) : Exact :=
  match x with
  | .nan => .nan
  | .inf s => .fin s 0 1 0
  | .fin s .. =>
    if x.isZero then .inf s
    else
      let (t, k) := normParts x.abs
      let y := rne32 ((vtabP image 2 0 t).scale (-k))
      if s then y.neg else y

def vrsqrt (image : List Byte) (x : Exact) : Exact :=
  match x with
  | .nan => .nan
  | .inf s => if s then .nan else Exact.zero
  | .fin s .. =>
    if x.isZero then .inf s
    else if s then .nan
    else
      let (t, k) := normParts x
      rne32 ((vtabP image 3 (k % 2).toNat t).scale (-(k / 2)))

/-- RECIP(1 + EXP2(−x · log2 e)), every step rounded (R100). -/
def vsigmoid (image : List Byte) (x : Exact) : Exact :=
  vrecip image (rne32 (Exact.one.add (vexp2 image (rne32 (x.neg.mul (f32 0x3FB8AA3B))))))

/-- 2 · SIGMOID(2x) − 1 (R100). -/
def vtanh (image : List Byte) (x : Exact) : Exact :=
  let two := Exact.ofInt 2
  rne32 ((rne32 (two.mul (vsigmoid image (rne32 (two.mul x))))).sub Exact.one)

/-! ### Elementwise operations -/

/-- MIN and MAX: a NaN operand yields the other operand (R130). -/
def vmin (x y : Exact) : Exact := if x.isNan then y else if y.isNan then x else if y.before x then y else x
def vmax (x y : Exact) : Exact := if x.isNan then y else if y.isNan then x else if x.before y then y else x

/-- What an operation does to elements x, y and z. -/
inductive VecFn where
  | float (f : Exact → Exact → Exact → Exact)
  | int (f : BitVec 32 → BitVec 32 → BitVec 32)
  /-- A reduction; for a sum the lanes start at +0. -/
  | reduce (f : Exact → Exact → Exact) (sum : Bool)

/-- Reads an operand element by element: registers, the scalar, or memory, up to the first stop. -/
def vecRead (ws : List Word) (g : Ag) (n : Nat) (zCount : Nat) : EngM (List Exact × Option Stop) := fun e =>
  let dec := fun (v : Nat) => if vecInt (dOp ws) then Exact.ofInt (signed 32 v) else f32 v
  if g.useImm then .ok (List.replicate zCount (dec (bits (nth ws 28 0) 31 0)), none) e
  else if g.useVreg then .ok ((List.range 64).map (fun i => dec (e.x.vregs.lookD (64 * g.vreg + i) 0)), none) e
  else
    let o := g.fmt.fmt
    let per := perUnit o
    -- other formats than FP32 and INT32 are rounded to FP32 (R131); integers stay integers
    let fix := fun (y : Exact) => if vecInt (dOp ws) || o = 0xC then y else rne32 y
    match engCollect (fun i => readUnit g (fmtBits o) per i true) 0 (n / per) e with
    | .ok (ys, st) e => .ok (ys.map fix, st) e
    | .error st e => .error st e

/-- An element as INT32 bits. -/
def toWord32 (y : Exact) : BitVec 32 := BitVec.ofInt 32 y.toInt

/-- Combines lanes i and i + w (R132); a lane without an element takes no part. -/
def combineLanes (f : Exact → Exact → Exact) (w : Nat) (lanes : List (Option Exact)) : List (Option Exact) :=
  (List.range w).map (fun i =>
    match nth lanes i none, nth lanes (i + w) none with
    | some a, some b => some (f a b)
    | some a, none => some a
    | none, b => b)

/-- One reduction (R132): element i into lane i mod 64, then the lanes. -/
def vecReduceRun (f : Exact → Exact → Exact) (sum : Bool) (xs : List Exact) : Exact :=
  let start : List (Option Exact) := List.replicate 64 none
  let lanes := ((List.range xs.length).zip xs).foldl (fun ls e =>
    ls.set (e.1 % 64) (match nth ls (e.1 % 64) none with
      | some a => some (f a e.2)
      | none => some (if sum then f Exact.zero e.2 else e.2))) start
  let out := [32, 16, 8, 4, 2, 1].foldl (fun ls w => combineLanes f w ls) lanes
  (nth out 0 none).getD Exact.zero

/-- The shortest of the lengths read, and the stop that came first. -/
def firstStop (rs : List (List Exact × Option Stop)) : Option (Nat × Stop) :=
  rs.foldl (fun m r =>
    match r.2 with
    | some st => match m with
      | some (n, _) => if r.1.length < n then some (r.1.length, st) else m
      | none => some (r.1.length, st)
    | none => m) none

/-- Results of the elements read. -/
def vecResults (fn : VecFn) (run n : Nat) (xs ys zs : List Exact) : List Exact :=
  match fn with
  | .float f => (List.range n).map (fun i => rne32 (f (nth xs i Exact.zero) (nth ys i Exact.zero) (nth zs i Exact.zero)))
  | .int f => (List.range n).map (fun i => Exact.ofInt (f (toWord32 (nth xs i Exact.zero)) (toWord32 (nth ys i Exact.zero))).toInt)
  | .reduce f sum => (pieces run (if run = 0 then 0 else n / run) xs).map (fun r => rne32 (vecReduceRun f sum r))

/-- Writes results directly, in the operation's own type (R131). -/
def vecWriteDirect (ws : List Word) (rs : List Exact) : EngM Unit :=
  let z := agAt ws 20
  let code := vecOutFmt ws
  engEach (fun (e : Nat × Exact) => do
    let v := encodeElem code e.2
    if z.useVreg then
      fun s => .ok () (if s.capped then s else { s with x := { s.x with vregs := s.x.vregs.put (64 * z.vreg + e.1) v } })
    else
      engWrite (z.addr e.1) (leBytes 4 v) 4
    engUnit) ((List.range rs.length).zip rs)

/-- Writes results through the conversion pipeline (R131, R61). -/
def vecWriteConv (ws : List Word) (rs : List Exact) : EngM Unit :=
  let z := agAt ws 20
  let c := convCtl (dConv ws)
  let len := runLen c
  engEach (fun r => do
    let ys := ((rs.drop (len * r)).take len).map (convPre c Exact.one Exact.one Exact.zero Exact.one)
    let ms ← engModes c (len * r) len
    let b := convRun c ms ys
    engCount b.ev
    writeRun z c r b) (List.range (rs.length / len))

/-- A vector instruction: operands are read, results written in order; a stop in reading leaves the results before it (R126,
R130 to R132). -/
def vecProgram (fn : VecFn) (q : QEntry) : EngM Unit := do
  let ws := q.words
  let op := dOp ws
  let zn := (agAt ws 20).elems (vecOutFmt ws)
  let rd := fun (g : Ag) => vecRead ws g (g.elems (g.vecFmt op)) zn
  let x ← rd (agAt ws 4)
  let y ← if vecBinary op then rd (agAt ws 12) else pure ([], none)
  let z ← if op = 4 then rd (agAt ws 20) else pure ([], none)
  let total := if vecReduce op then x.1.length else zn
  let stop := firstStop [x, y, z]
  let n := match stop with
    | some (k, _) => min k total
    | none => total
  let rs := vecResults fn (vecRun ws) n x.1 y.1 z.1
  if vecDirect ws then vecWriteDirect ws rs else vecWriteConv ws rs
  match stop with
  | some (_, st) => engStop st
  | none => pure ()

def vecStep (t op : Nat) (fn : VecFn) (s : State) : Host.Outcome State Fault Refusal :=
  .next (engineRun t 1 op s (vecProgram fn))

def execVecAdd (t : Nat) (s : State) : Host.Outcome State Fault Refusal := vecStep t 0x01 (.float (fun x y _ => x.add y)) s
def execVecSub (t : Nat) (s : State) : Host.Outcome State Fault Refusal := vecStep t 0x02 (.float (fun x y _ => x.sub y)) s
def execVecMul (t : Nat) (s : State) : Host.Outcome State Fault Refusal := vecStep t 0x03 (.float (fun x y _ => x.mul y)) s
def execVecFma (t : Nat) (s : State) : Host.Outcome State Fault Refusal := vecStep t 0x04 (.float (fun x y z => (x.mul y).add z)) s
def execVecMin (t : Nat) (s : State) : Host.Outcome State Fault Refusal := vecStep t 0x05 (.float (fun x y _ => vmin x y)) s
def execVecMax (t : Nat) (s : State) : Host.Outcome State Fault Refusal := vecStep t 0x06 (.float (fun x y _ => vmax x y)) s
def execVecAbs (t : Nat) (s : State) : Host.Outcome State Fault Refusal := vecStep t 0x07 (.float (fun x _ _ => x.abs)) s
def execVecExp2 (t : Nat) (s : State) : Host.Outcome State Fault Refusal :=
  vecStep t 0x10 (.float (fun x _ _ => vexp2 s.tileImage (rne32 x))) s
def execVecLog2 (t : Nat) (s : State) : Host.Outcome State Fault Refusal :=
  vecStep t 0x11 (.float (fun x _ _ => vlog2 s.tileImage (rne32 x))) s
def execVecRecip (t : Nat) (s : State) : Host.Outcome State Fault Refusal :=
  vecStep t 0x12 (.float (fun x _ _ => vrecip s.tileImage (rne32 x))) s
def execVecRsqrt (t : Nat) (s : State) : Host.Outcome State Fault Refusal :=
  vecStep t 0x13 (.float (fun x _ _ => vrsqrt s.tileImage (rne32 x))) s
def execVecSigmoid (t : Nat) (s : State) : Host.Outcome State Fault Refusal :=
  vecStep t 0x14 (.float (fun x _ _ => vsigmoid s.tileImage (rne32 x))) s
def execVecTanh (t : Nat) (s : State) : Host.Outcome State Fault Refusal :=
  vecStep t 0x15 (.float (fun x _ _ => vtanh s.tileImage (rne32 x))) s
def execVecRsum (t : Nat) (s : State) : Host.Outcome State Fault Refusal :=
  vecStep t 0x20 (.reduce (fun a b => rne32 (a.add b)) true) s
def execVecRmax (t : Nat) (s : State) : Host.Outcome State Fault Refusal := vecStep t 0x21 (.reduce vmax false) s
def execVecRmin (t : Nat) (s : State) : Host.Outcome State Fault Refusal := vecStep t 0x22 (.reduce vmin false) s

/-- CVT (R130, R131): an INT32 operand enters the conversion unit as it stands, every other one as FP32. -/
def execVecCvt (t : Nat) (s : State) : Host.Outcome State Fault Refusal :=
  .next (engineRun t 1 0x30 s (fun q => do
    let ws := q.words
    let x := agAt ws 4
    let zn := (agAt ws 20).elems (vecOutFmt ws)
    let r ← vecRead ws x (x.elems (x.vecFmt 0x30)) zn
    if vecDirect ws then vecWriteDirect ws (if vecCvtInt ws then r.1 else r.1.map rne32) else vecWriteConv ws r.1
    match r.2 with
    | some st => engStop st
    | none => pure ()))

def execVecIadd (t : Nat) (s : State) : Host.Outcome State Fault Refusal := vecStep t 0x40 (.int (fun x y => x + y)) s
def execVecIsub (t : Nat) (s : State) : Host.Outcome State Fault Refusal := vecStep t 0x41 (.int (fun x y => x - y)) s
def execVecImul (t : Nat) (s : State) : Host.Outcome State Fault Refusal := vecStep t 0x42 (.int (fun x y => x * y)) s
def execVecImin (t : Nat) (s : State) : Host.Outcome State Fault Refusal :=
  vecStep t 0x43 (.int (fun x y => if BitVec.slt y x then y else x)) s
def execVecImax (t : Nat) (s : State) : Host.Outcome State Fault Refusal :=
  vecStep t 0x44 (.int (fun x y => if BitVec.slt x y then y else x)) s
def execVecIand (t : Nat) (s : State) : Host.Outcome State Fault Refusal := vecStep t 0x45 (.int (fun x y => x &&& y)) s
def execVecIor (t : Nat) (s : State) : Host.Outcome State Fault Refusal := vecStep t 0x46 (.int (fun x y => x ||| y)) s
def execVecIxor (t : Nat) (s : State) : Host.Outcome State Fault Refusal := vecStep t 0x47 (.int (fun x y => x ^^^ y)) s

end Sys2Proof.Machine
end

