-- ==== Sys2Proof/Machine/TileCtl.lean ====
section
/-! DEFINITION. Tile states: reset, halt, resume, start, as register writes and as commands (R79, R99, R101 to R107). -/

namespace Sys2Proof.Machine

/-! ### The four actions (R101 to R105) -/

/-- The receive ring and the context area allow START (GRT_RX_SIZE, GRT_STRAND_BASE). -/
def Tile.startable (x : Tile) : Bool :=
  x.state = .ready && x.part.isSome && 65 ≤ x.rxSize && x.rxSize ≤ 24576 && 64 * (x.rxBase + x.rxSize) ≤ scratchEnd && x.area ≤ 0x17

def Tile.resettable (x : Tile) : Bool := x.state ≠ .off && x.state ≠ .unavailable

/-- What a tile reset leaves at once (R103, R152): the instruction banks, the scratchpad and the assignment stay; everything
else takes its reset value. A message whose header the port holds for ring space is dropped with it, uncounted, as R103 does not speak
of it: DESIGN CHOICE (log 82). Numbers of instructions and outstanding signals go on. -/
def Tile.cleared (x : Tile) : Tile :=
  { part := x.part, lastPart := x.lastPart, joining := x.joining, imem := x.imem, scratch := x.scratch, bad := x.bad, soft := x.soft,
    loading := x.loading, nextId := x.nextId, signals := x.signals, engSignals := x.engSignals, cycle0 := x.cycle0 }

/-- A power change in progress that another command overtakes: an ATL_POWER that waits for the tile waits no longer (log 12). -/
def State.powerOver (s : State) (t : Nat) : State := if (s.tile t).goal.isSome then s.progress 0x0E01 t else s

/-- Starts a reset of tile t: 64 cc, or 1,088 cc with CLEAR_SCRATCH (R103), and 64 cc more from RETENTION (R441); its Meridian registrations are withdrawn (R204).
The reset of a tile that joins a partition clears the scratchpad whatever the RESET that starts it again asks (R104). -/
def State.tileReset (s : State) (t : Nat) (clear : Bool) : State :=
  let clear := clear || (s.tile t).joining.isSome
  let s := if (s.tile t).state = .running then s.cflTileLost t .aborted else s
  let s := (((s.tile t).part.toList.foldl State.stir s).merTileReset t).powerOver t
  let back := if (s.tile t).power = .retention then 64 else 0
  s.setTile t { (s.tile t).cleared with state := .reset, resetAt := s.now + back + (if clear then 1088 else 64), clearing := clear, power := .on, goal := none }

/-- START (R79): strand 0 runnable at instruction 0 with its private registers at zero. -/
def State.tileStart (s : State) (t : Nat) : State :=
  let s := ((s.tile t).part.toList.foldl State.stir s).powerOver t
  let x := s.tile t
  s.setTile t ({ x.setStrand 0 { state := .runnable } with state := .running, current := 0, issued := 0, power := .on, goal := none }.saveCtx 0)

/-- RESUME after a commanded halt (R102). -/
def State.tileResume (s : State) (t : Nat) : State :=
  (((s.tile t).part.toList.foldl State.stir s).powerOver t).onTile t (fun x => { x with state := .running, cmdHalt := false, power := .on, goal := none })

/-- A command that is not valid in the tile's state: ignored, with a notice (R105), whose STATUS TILE_STATE and DETAIL, the bits [4:0]
that were written, the spec does not state: DESIGN CHOICE (log 33). -/
def State.tileCmdInvalid (s : State) (t : Nat) (value : Word) : State :=
  s.notify .tileCmdInvalid .tileState (s.tile t).part (coord t) (bits value 4 0) (.region (tileRegion t))

/-- A host write to GRT_TILE_CTRL acts on the first set bit in the order RESET, HALT, RESUME, START (R105). -/
def State.tileCtrl (s : State) (t : Nat) (value : Word) : State :=
  let x := s.tile t
  if bit value 0 then (if x.resettable then s.tileReset t (bit value 1) else s.tileCmdInvalid t value)
  else if bit value 2 then (if x.state = .running then s.commandHalt t else s.tileCmdInvalid t value)
  else if bit value 3 then (if x.state = .halted && x.cmdHalt then s.tileResume t else s.tileCmdInvalid t value)
  else if bit value 4 then (if x.startable then s.tileStart t else s.tileCmdInvalid t value)
  else s

/-- The register writes, each for a value whose acting bit is its own. -/
def execTileCtrlReset (t : Nat) (value : Word) (s : State) : Host.Outcome State Fault Refusal :=
  .next (if bit value 0 then s.tileCtrl t value else s)

def execTileCtrlHalt (t : Nat) (value : Word) (s : State) : Host.Outcome State Fault Refusal :=
  .next (if bit value 2 && !bit value 0 then s.tileCtrl t value else s)

def execTileCtrlResume (t : Nat) (value : Word) (s : State) : Host.Outcome State Fault Refusal :=
  .next (if bit value 3 && !bit value 2 && !bit value 0 then s.tileCtrl t value else s)

def execTileCtrlStart (t : Nat) (value : Word) (s : State) : Host.Outcome State Fault Refusal :=
  .next (if bit value 4 && !bit value 3 && !bit value 2 && !bit value 0 then s.tileCtrl t value else s)

/-- TILE_RESET_DONE (R103, R104): the tile is READY with bank 0 active; the scratchpad is cleared where asked; a pending
assignment takes effect. -/
def State.tileResetDone (s : State) (t : Nat) : State :=
  let x := s.tile t
  if x.state = .reset && x.resetAt ≤ s.now then
    let x := { x with state := .ready, cycle0 := s.now, clearing := false }
    let x := if (s.tile t).clearing then { x with scratch := [], bad := [], soft := [] } else x
    let x := match x.joining with
      | some p => { x with part := some p, lastPart := some p, joining := none }
      | none => x
    let s := s.setTile t x
    [0x0501, 0x0203, 0x0206, 0x0506].foldl (fun s op => s.progress op t) s
  else s

def execTileResetDone (t cc : Nat) (s : State) : Host.Outcome State Fault Refusal := .next ((s.at cc).tileResetDone t)

/-- SR_RESEED (R67): a write to GRT_SR_SEED reseeds all 64 lanes. -/
def execSrReseed (t : Nat) (value : Word) (s : State) : Host.Outcome State Fault Refusal :=
  .next (s.onTile t (fun x => x.writeReg 0x808 value))

/-! ### Commands (R105) -/

/-- A virtual function names only tiles of its partition (R154). -/
def State.tilesDenied (s : State) (k : Kci) (tiles : List Nat) : Bool × Status :=
  (match k.src with
    | .vf v => tiles.any (fun t => (s.tile t).part ≠ some (v - 1))
    | _ => false, .accessDenied)

/-- A tile set holds logical tile indices 0 to 1,023 (R562). -/
def badTiles (tiles : List Nat) : Bool × Status := (tiles.any (1024 ≤ ·), .badOperand)

/-- A tile command: every tile of the set must be in a state where it is valid, or none is touched. -/
def tileCommand (opcode : Nat) (k : Kci) (tiles : List Nat) (s : State) (bad : Tile → Option Status) (act : State → Nat → State)
    (keys : List Nat) : Host.Outcome State Fault Refusal :=
  .next (kciRun opcode k s (fun s =>
    KRes.check s [badTiles tiles, s.tilesDenied k tiles] (fun _ =>
      match tiles.findSome? (fun t => bad (s.tile t)) with
      | some st => KRes.fail s st
      | none => { st := tiles.foldl act s, keys := keys })) (records := false) (regions := tileRegions tiles))

def execTileReset (k : Kci) (tiles : List Nat) (clearScratch : Bool) (s : State) : Host.Outcome State Fault Refusal :=
  tileCommand 0x0501 k tiles s (fun x => if x.resettable then none else some .tileState) (fun s t => s.tileReset t clearScratch) tiles

def execTileStart (k : Kci) (tiles : List Nat) (s : State) : Host.Outcome State Fault Refusal :=
  tileCommand 0x0502 k tiles s (fun x => if x.startable then none else some .tileState) State.tileStart []

def execTileHalt (k : Kci) (tiles : List Nat) (s : State) : Host.Outcome State Fault Refusal :=
  tileCommand 0x0503 k tiles s (fun x => if x.state = .running then none else some .tileState) State.commandHalt []

/-- TILE_RESUME: a fault halt gives TILE_FAULTED (R102). -/
def execTileResume (k : Kci) (tiles : List Nat) (s : State) : Host.Outcome State Fault Refusal :=
  tileCommand 0x0504 k tiles s (fun x =>
    if x.state = .halted then (if x.cmdHalt then none else some .tileFaulted) else some .tileState) State.tileResume []

/-- TILE_STATUS: GRT_TILE_STATUS of each tile, in ascending tile index. -/
def execTileStatus (k : Kci) (tiles : List Nat) (s : State) : Host.Outcome State Fault Refusal :=
  .next (kciRun 0x0505 k s (fun s =>
    KRes.check s [badTiles tiles, s.tilesDenied k tiles] (fun _ =>
      { st := s, result := tiles.map (fun t => (s.tile t).statusWord) })) (records := false) (regions := tileRegions tiles))

/-- The coefficient table of a function (R99, log 39): for RSQRT both halves, 128 segments of c0, c1, c2. -/
def vtabBytes (image : List Byte) (f : Nat) : List Byte :=
  (if f = 3 then [0, 1] else [0]).flatMap (fun h => (List.range 128).flatMap (fun i =>
    let c := Config.vtabCoef image f h i
    leBytes 8 (unsign 64 c.1) ++ leBytes 8 (unsign 64 c.2.1) ++ leBytes 8 (unsign 64 c.2.2)))

/-- VTAB_READ (R99): functions 0 to 3 in the order of R99. -/
def execVtabRead (k : Kci) (table dest : Nat) (s : State) : Host.Outcome State Fault Refusal :=
  .next (kciRun 0x0507 k s (fun s =>
    KRes.check s [(4 ≤ table, .badOperand)] (fun _ => { st := s.putHost k dest (vtabBytes s.tileImage table) })) (records := false))

end Sys2Proof.Machine
end

