-- ==== Sys2Proof/Machine/Atlas.lean ====
section
/-! DEFINITION. Atlas banks: power states, Sounding, column repair, queries (R437 to R448, R458). -/

namespace Sys2Proof.Machine

/-! ### Power of a bank -/

/-- The logical tile at a physical place of a die, if any (R93). -/
def State.logicalAt (s : State) (die phys : Nat) : Option Nat :=
  (List.range 256).find? (fun i => let t := 256 * die + i; 17 * (i / 16) + s.physX t = phys) |>.map (256 * die + ·)

/-- The power state of a bank: a scratchpad bank has its tile's; a spare tile's is ON. -/
def State.bankPower (s : State) (b : Nat) : BankPower :=
  if bankKind b = 0 then
    match s.logicalAt (bankDie b) (bankIndex b / 24) with
    | some t => (s.tile t).power
    | none => .on
  else (s.bank b).power

/-! ### Power states (R439 to R442) -/

/-- A bank leaves ON: its walker goes on at its next region when the bank is ON again (R446). -/
def State.walkLeave (s : State) (b : Nat) : State :=
  let x := s.bank b
  if x.phase = .idle then s
  else s.setBank b { x with phase := .idle, region := if bankRegions b ≤ x.region + 1 then 0 else x.region + 1 }

/-- The scratchpad banks of a tile. -/
def State.tileBanks (s : State) (t : Nat) : List Nat :=
  (List.range 24).map (fun i => bankId (t / 256) 0 (24 * (17 * (t % 256 / 16) + s.physX t) + i))

/-- Time of a change (R439). -/
def powerTime (small : Bool) (src dst : BankPower) : Nat :=
  match src, dst with
  | .off, .on => if small then 1088 else 4160
  | .retention, .on => 64
  | _, _ => 16

/-- A tile whose scratchpad goes OFF loses it; the tile is OFF (R101, R441). -/
def State.tileOff (s : State) (t : Nat) : State :=
  let s := s.merTileReset t
  s.setTile t { (s.tile t).cleared with state := .off, scratch := [], bad := [], soft := [], power := .off, goal := some (.off, s.now + 16) }

/-- A commanded power state of a tile. -/
def State.tilePower (s : State) (target : BankPower) (t : Nat) : State :=
  let x := s.tile t
  if x.power = target then s
  else
    let s := if target = .on then s else (s.tileBanks t).foldl State.walkLeave s
    match target with
    | .off => s.tileOff t
    | .retention => s.setTile t { x with power := .retention, goal := some (.retention, s.now + 16) }
    | .on =>
      if x.state = .off then
        s.setTile t { x with state := .reset, resetAt := s.now + 1088, clearing := true, power := .on, goal := some (.on, s.now + 1088) }
      else s.setTile t { x with power := .on, goal := some (.on, s.now + 64) }

/-- A pinned range of some table touches a pinned-row bank (R440). -/
def State.pinTouches (s : State) (b : Nat) : Bool :=
  let lo := 262144 * bankIndex b
  s.gaz.tables.any (fun e => e.2.d.pinDie = bankDie b && 0 < e.2.d.pinRows && e.2.d.pinOff < lo + 262144 &&
    lo < e.2.d.pinOff + e.2.d.pinRows * e.2.d.rowBytes)

/-- Clears the bytes of a pinned-row bank. -/
def State.pinClear (s : State) (b : Nat) : State :=
  let lo := 16777216 * bankDie b + 262144 * bankIndex b
  let out := fun (a : Nat) => decide (a < lo ∨ lo + 262144 ≤ a)
  { s with atl := { s.atl with pinned := s.atl.pinned.clear lo 262144, bad := s.atl.bad.filter out, softBits := s.atl.softBits.filter out } }

/-- A commanded power state of a pinned-row bank: OFF loses the contents, and it comes up as zeros. -/
def State.pinPower (s : State) (target : BankPower) (b : Nat) : State :=
  let x := s.bank b
  if x.power = target then s
  else
    let s := if target = .off then s.pinClear b else s
    let s := if target = .on then s else s.walkLeave b
    s.setBank b { s.bank b with power := target, goal := some (target, s.now + powerTime false x.power target) }

/-- ATL_POWER (R440, R441). -/
def execAtlPower (k : Kci) (target : PowerTarget) (state : BankPower) (s : State) : Host.Outcome State Fault Refusal :=
  .next (kciRun 0x0E01 k s (fun s =>
    match target with
    | .tiles ts =>
      KRes.check s [k.denied, badTiles ts,
          (state ≠ .on && ts.any (fun t => (s.tile t).state ≠ .ready && (s.tile t).state ≠ .halted), .tileState)] (fun _ =>
        let s := ts.foldl (fun s t => s.tilePower state t) s
        { st := s, keys := ts.filter (fun t => (s.tile t).goal.isSome) })
    | .banks bs =>
      KRes.check s [k.denied, (bs.any (fun b => !bankReal b || bankKind b ≠ 3), .badOperand),
          (state ≠ .on && bs.any s.pinTouches, .memBusy)] (fun _ =>
        let s := bs.foldl (fun s b => s.pinPower state b) s
        { st := s, keys := (bs.filter (fun b => (s.bank b).goal.isSome)).map powerKey }))
    (regions := match target with
      | .tiles ts => tileRegions ts
      | .banks _ => [])
    (dies := match target with
      | .tiles _ => []
      | .banks bs => bs.map bankDie))

/-- A goal whose cycle has come. -/
def goalDue (now : Nat) (g : Option (BankPower × Nat)) : Bool := match g with
  | some (_, c) => decide (c ≤ now)
  | none => false

/-- ATL_POWER_DONE (R439): every change that is due is complete. -/
def State.powerDone (s : State) : State :=
  let ts := (s.grid.tiles.filter (fun e => goalDue s.now e.2.goal)).map (·.1)
  let bs := (s.atl.banks.filter (fun e => goalDue s.now e.2.goal)).map (·.1)
  let s := ts.foldl (fun s t => (s.onTile t (fun x => { x with goal := none })).progress 0x0E01 t) s
  bs.foldl (fun s b => (s.setBank b { s.bank b with goal := none }).progress 0x0E01 (powerKey b)) s

def execAtlPowerDone (cc : Nat) (s : State) : Host.Outcome State Fault Refusal := .next (s.at cc).powerDone

/-! ### Sounding (R443 to R446) -/

def SoundPhase.code : SoundPhase → Nat
  | .idle => 0
  | .save => 1
  | .test => 2
  | .restore => 3

/-- What runs the walker of a bank and passes its notices on (R26, R443): the Region Surveyor of a tile's rows, the Quadrant Surveyor
of a die's shared banks, Compass on the hub die. -/
def bankOrigin (b : Nat) : Origin :=
  if bankDie b = 4 then .hub
  else if bankKind b = 0 then .region (8 * bankDie b + bankIndex b / 24 / 17 / 2)
  else .die (bankDie b)

/-- Who runs the walker of a bank does not restart: a restarting surveyor starts no region (R27, R443). -/
def State.walkerRuns (s : State) (b : Nat) : Bool :=
  match bankOrigin b with
  | .hub => s.cmp.state = .ready
  | .die d => !(s.lay.quad.lookD d {}).restarting
  | .region r => !(s.lay.region.lookD r {}).restarting

/-- SOUNDING_REGION_START (R443): at most once in 2^INTERVAL_LOG2 cc, on a bank that is ON. -/
def State.soundStart (s : State) (b : Nat) : State :=
  let x := s.bank b
  let soon := match x.began with
    | some c => decide (s.now < c + 2 ^ s.atl.interval)
    | none => false
  if !bankReal b || !s.atl.enabled || !s.walkerRuns b || x.phase ≠ .idle || s.bankPower b ≠ .on || soon || (bankKind b = 5 && s.atl.wiping) then s
  else s.setBank b { x with phase := .save, began := some s.now }

def execSoundingRegionStart (bank cc : Nat) (s : State) : Host.Outcome State Fault Refusal := .next ((s.at cc).soundStart bank)

/-- Adds an entry to the fault map of a die, at most 64 (R534). -/
def State.mapAdd (s : State) (die : Nat) (e : MapEntry) : State :=
  let l := s.flt.faultMap.lookD die []
  if l.contains e || 64 ≤ l.length then s else { s with flt := { s.flt with faultMap := s.flt.faultMap.put die (l ++ [e]) } }

/-- A failing column (R445): fault map, ATL_SOUND_FAULT, counter, notice. -/
def State.soundFault (hard : Bool) (b : Nat) (s : State) (c : Nat × Nat) : State :=
  let s := s.mapAdd (bankDie b) (.column b c.1 c.2)
  let s := { s with atl := { s.atl with fault := ⟨b, c.1, c.2, hard, true⟩, faults := satInc s.atl.faults } }.tally 0x18048
  let s := s.w1cSet 0x18018 (2 ^ 63)
  s.notify .soundingFault .ok none b (put 2 0 c.1 + put 9 3 c.2 + flag 10 hard) (bankOrigin b)

/-- The address of byte o of a bank: of the scratchpad of its tile, whose lines lie in turn in 24 banks (R73), or of pinned rows. -/
def bankByte (b o : Nat) : Nat :=
  if bankKind b = 0 then 64 * (24 * (o / 64) + bankIndex b % 24) + o % 64 else 16777216 * bankDie b + 262144 * bankIndex b + o

/-- The words of the region under Sounding, by address. -/
def State.soundWords (s : State) (b : Nat) : List Nat := (List.range 512).map (fun i => bankByte b (4096 * (s.bank b).region + 8 * i))

/-- Save reads a region through the code: its correctable words are corrected and counted (R438, R444). -/
def State.soundSave (s : State) (b : Nat) : State :=
  let ws := s.soundWords b
  if bankKind b = 0 then
    match s.logicalAt (bankDie b) (bankIndex b / 24) with
    | some t => s.onTile t (fun x =>
        let fixed := x.soft.filter ws.contains
        if fixed.isEmpty then x else { x with soft := x.soft.filter (fun w => !fixed.contains w), eccCorr := x.count x.eccCorr fixed.length })
    | none => s
  else if bankKind b = 3 then
    let fixed := s.atl.softBits.filter ws.contains
    { s with atl := { s.atl with softBits := s.atl.softBits.filter (fun w => !fixed.contains w), corrected := satInc s.atl.corrected fixed.length } }.tally 0x18050 fixed.length
  else s

/-- SOUNDING_PHASE (R444, R445): a phase ends. The test finds the columns `failing` (sub-array, column); `hard`: two of them meet
in one word. -/
def State.soundPhase (s : State) (b : Nat) (failing : List (Nat × Nat)) (hard : Bool) : State :=
  let x := s.bank b
  match x.phase with
  | .idle => s
  | .save => (s.setBank b { x with phase := .test }).soundSave b
  | .test => (failing.filter (fun c => c.1 < bankSubs b && c.2 < 72)).foldl (State.soundFault hard b) (s.setBank b { x with phase := .restore })
  | .restore =>
    let last := bankRegions b ≤ x.region + 1
    let s := s.setBank b { x with phase := .idle, region := if last then 0 else x.region + 1, passes := x.passes + if last then 1 else 0 }
    if last then { s with atl := { s.atl with passes := satInc s.atl.passes } }.tally 0x18040 else s

def execSoundingPhase (bank : Nat) (failing : List (Nat × Nat)) (hard : Bool) (cc : Nat) (s : State) : Host.Outcome State Fault Refusal :=
  .next ((s.at cc).soundPhase bank failing hard)

/-- ATL_SOUND_CFG (R446): a walker in mid-region completes its restore. -/
def execAtlSoundCfg (k : Kci) (enable : Bool) (interval : Nat) (s : State) : Host.Outcome State Fault Refusal :=
  .next (kciRun 0x0F10 k s (fun s =>
    KRes.check s [k.denied, (interval < 12 || 24 < interval, .memInvalid)] (fun _ =>
      { st := { s with atl := { s.atl with enabled := enable, interval := interval } } })) (conf := true) (key := 0))

/-! ### Column repair (R447, R448) -/

/-- The columns of a bank recorded in its die's fault map. -/
def State.bankFaults (s : State) (b : Nat) : List (Nat × Nat) :=
  (s.flt.faultMap.lookD (bankDie b) []).filterMap (fun e => match e with
    | .column b' sub col => if b' = b then some (sub, col) else none
    | _ => none)

/-- Spares left in a sub-array. -/
def Bank.spares (x : Bank) (sub : Nat) : Nat := 4 - ((x.hard ++ x.soft).filter (fun c => c.1 = sub)).length

def State.bankSpares (s : State) (b : Nat) : Nat := ((List.range (bankSubs b)).map (s.bank b).spares).foldl (· + ·) 0

/-- A recorded column that no fuse covers and that no reset has come to yet: it waits for the next one. -/
def State.faultPending (s : State) (b : Nat) : Bool :=
  (s.bankFaults b).any (fun c => !((s.bank b).hard ++ (s.bank b).soft ++ (s.bank b).unfused).contains c)

/-- Sets a soft fuse for a recorded column, or marks the bank DEGRADED (R447, R448); an applied fuse enters the Itinerary under
the code of SOUNDING_FAULT where the bank's fuses before the reset, `old`, did not select its spare (log 47). -/
def State.fuse (s : State) (old : List (Nat × Nat)) (b sub col : Nat) : State :=
  let x := s.bank b
  if (x.hard ++ x.soft).contains (sub, col) then s
  else if x.spares sub = 0 then s.setBank b { x with degraded := true, unfused := x.unfused ++ [(sub, col)] }
  else
    let s := s.setBank b { x with soft := x.soft ++ [(sub, col)] }
    if old.contains (sub, col) then s else s.itinEvent Notice.soundingFault.code none .ok
    (leBytes 8 b ++ leBytes 8 (put 2 0 sub + put 9 3 col))

/-- Power-off loses the soft fuses (R447). -/
def State.fusesLost (s : State) : State :=
  { s with atl := { s.atl with banks := s.atl.banks.map (fun (e : Nat × Bank) => (e.1, { e.2 with soft := [] })) } }

/-- The reset of a die (4: the hub die): every soft fuse is set again from the fault map; walkers begin anew. -/
def State.atlasReset (s : State) (die : Nat) : State :=
  let old := s.atl.banks
  let s := { s with atl := { s.atl with banks := s.atl.banks.map (fun (e : Nat × Bank) =>
    if bankDie e.1 = die then (e.1, { e.2 with soft := [], unfused := [], degraded := false, region := 0, phase := .idle, passes := 0, began := none,
                                               power := .on, goal := none }) else e) } }
  let s := (old.filter (fun e => bankDie e.1 = die && e.2.goal.isSome)).foldl (fun s e => s.progress 0x0E01 (powerKey e.1)) s
  (s.flt.faultMap.lookD die []).foldl (fun (s : State) (e : MapEntry) => match e with
    | .column b sub col => s.fuse (old.lookD b {}).soft b sub col
    | _ => s) s

/-- ATL_BANK_QUERY (R458, log 48): power, spares of each sub-array, then hard fuses, soft fuses and recorded faults (each a count
and sub-array [2:0], column [9:3]), then region and phase. -/
def execAtlBankQuery (k : Kci) (bank : Nat) (s : State) : Host.Outcome State Fault Refusal :=
  .next (kciRun 0x0F11 k s (fun s =>
    KRes.check s [k.denied, (!bankReal bank, .badOperand)] (fun _ =>
      let x := s.bank bank
      let l := fun (cs : List (Nat × Nat)) => wd cs.length :: cs.map (fun c => wd (put 2 0 c.1 + put 9 3 c.2))
      let p := match s.bankPower bank with
        | .on => 0
        | .retention => 1
        | .off => 2
      { st := s, result := wd p :: (List.range (bankSubs bank)).map (fun i => wd (x.spares i)) ++ l x.hard ++ l x.soft ++
          l (s.bankFaults bank) ++ [wd x.region, wd x.phase.code] })) (records := false)
    (regions := match bankOrigin bank with
      | .region r => [r]
      | _ => [])
    (dies := match bankOrigin bank with
      | .die d => [d]
      | _ => []))

end Sys2Proof.Machine
end

