-- ==== Sys2Proof/Machine/Cartouche.lean ====
section
/-! DEFINITION. Cartouche: life cycle, identity, firmware, Itinerary export (R490 to R520). The steps that reach other subsystems (transitions, tamper, attestation) stand in Recovery.lean. -/

namespace Sys2Proof.Machine

/-- The codes 0 to 4 of the life-cycle states, in the order of R490. -/
def lcCode : LcState → Nat
  | .blank => 0
  | .provisioned => 1
  | .deployed => 2
  | .returned => 3
  | .decommissioned => 4

def State.setCrt (s : State) (c : Cartouche) : State := { s with crt := c }

/-- A tamper latch is set, or the device is treated as tampered (R449, R500). -/
def State.tampered (s : State) : Bool := s.crt.latched ≠ 0 || s.crt.suspect

/-- Unwraps the identity key into the secure bank (R493, R496); a key that fails to unwrap raises KEY_UNAVAILABLE. -/
def State.loadKey (s : State) : State :=
  if s.crt.keyGone then s.setCrt { s.crt with loaded := none }
  else match s.crt.wrapped with
    | none => s
    | some w => match Config.keyUnwrap w with
      | some key => s.setCrt { s.crt with loaded := some key }
      | none => (s.setCrt { s.crt with loaded := none }).notify .keyUnavailable .ok none 0 0

/-! ### Life cycle and identity -/

/-- LC_QUERY (R518): state, KEY_LOADED, certificate present, fuse value. -/
def execLcQuery (k : Kci) (s : State) : Host.Outcome State Fault Refusal :=
  .next (kciRun 0x0110 k s (fun s =>
    { st := s, result := [wd (lcCode s.crt.lc), wd (flag 0 s.crt.loaded.isSome), wd (flag 0 s.crt.certDone), wd s.crt.svn] })
    (records := false))

/-- The certificate request of LC_PROVISION (R497). -/
def csrBody (pubKey serial build : List Byte) : List Byte :=
  padTo 128 0 (padTo 57 0 pubKey ++ padTo 16 0 serial ++ padTo 2 0 build)

/-- LC_PROVISION (R497, R507): key pair, fuse, GENESIS; public key, request and its signature to the destination (log 27). -/
def State.provision (s : State) (k : Kci) (dest : Nat) : State :=
  let (key, s) := s.freshBytes 57
  let pub := padTo 57 0 (Config.ed448Public key)
  let s := s.setCrt { s.crt with lc := .provisioned, wrapped := some (Config.keyWrap key), loaded := some key, pubKey := pub,
                                 itin := { s.crt.itin with chain := shake256 (ascii "PQ2480-ITIN" ++ pub) } }
  let s := s.itinRecord 0x0001 none 66 .ok (pub.take 32) [pub.drop 32]
  let body := csrBody pub s.serial s.buildCode
  s.putHost k dest (pub ++ body ++ padTo 114 0 (Config.ed448Sign key (ascii "PQ2480-CSR") body))

/-- LC_PROVISION; while the secure bank is wiped it takes no key: TAMPERED (R449, log 84). -/
def execLcProvision (k : Kci) (dest : Nat) (s : State) : Host.Outcome State Fault Refusal :=
  .next (kciRun 0x0111 k s (fun s =>
    KRes.check s [k.denied, (s.crt.lc ≠ .blank, .lcState), (s.atl.wiping, .tampered)] (fun _ => { st := s.provision k dest })))

/-- LC_CERT_INSTALL (R495, R498). -/
def execLcCertInstall (k : Kci) (addr len : Nat) (s : State) : Host.Outcome State Fault Refusal :=
  .next (kciRun 0x0112 k s (fun s =>
    let chain := s.hostRead k.src.fnIdx addr len
    KRes.check s
      [k.denied, (s.crt.lc ≠ .provisioned, .lcState), (8192 < len, .badOperand),
       (Config.certCount chain < 2 || 4 < Config.certCount chain, .badOperand),
       (Config.certKey chain ≠ s.crt.pubKey || Config.certSerial chain ≠ s.serial || !Config.certChainOk chain, .sigInvalid)] (fun _ =>
      { st := s.setCrt { s.crt with certs := chain, certDone := true } })))

/-- LC_TRANSITION_ARM (R491): the challenge is drawn from the random source. -/
def execLcTransitionArm (k : Kci) (target : LcState) (s : State) : Host.Outcome State Fault Refusal :=
  .next (kciRun 0x0113 k s (fun s =>
    KRes.check s [k.denied] (fun _ =>
      let (c, s) := s.freshBytes 16
      { st := s.setCrt { s.crt with arm := some ⟨target, c, s.now⟩ }, result := leWords 2 c })) (records := false))

/-- LC_ARM_EXPIRY (R491): 10 s after the arm. -/
def State.armExpiry (s : State) (cc : Nat) : State :=
  let s := s.at cc
  match s.crt.arm with
  | some a => if a.at_ + 10 * 1875000000 ≤ cc then s.setCrt { s.crt with arm := none } else s
  | none => s

def execLcArmExpiry (cc : Nat) (s : State) : Host.Outcome State Fault Refusal := .next (s.armExpiry cc)

/-- CERT_READ (R495). -/
def execCertRead (k : Kci) (dest : Nat) (s : State) : Host.Outcome State Fault Refusal :=
  .next (kciRun 0x0115 k s (fun s =>
    KRes.check s [(!s.crt.certDone, .notPresent)] (fun _ => { st := s.putHost k dest s.crt.certs })) (records := false))

/-- TAMPER_QUERY (R518). -/
def execTamperQuery (k : Kci) (s : State) : Host.Outcome State Fault Refusal :=
  .next (kciRun 0x0116 k s (fun s =>
    KRes.check s [k.denied] (fun _ => { st := s, result := [wd s.crt.latched, wd s.crt.live, wd s.crt.tampers] }))
    (records := false))

/-- TAMPER_CLEAR (R500): from the PF only. -/
def execTamperClear (k : Kci) (s : State) : Host.Outcome State Fault Refusal :=
  .next (kciRun 0x0117 k s (fun s =>
    KRes.check s [(k.src ≠ .pf, .accessDenied), (s.crt.live ≠ 0, .tampered)] (fun _ =>
      let s := s.setCrt { s.crt with latched := 0, suspect := false }
      { st := (if s.atl.wiping then s else s.loadKey).itinEvent 0x0008 none .ok (leBytes 8 s.crt.tampers) })))

/-! ### Firmware (R512 to R516) -/

/-- Fields of an image header (R512). -/
def imgType (b : List Byte) : Nat := ofLe ((b.drop 4).take 1)
def imgSvn (b : List Byte) : Nat := ofLe ((b.drop 5).take 1)
def imgVersion (b : List Byte) : List Byte := (b.drop 8).take 4
def imgSettingsFmt (b : List Byte) : Nat := ofLe ((b.drop 0xC).take 4)
def imgPayloadLen (b : List Byte) : Nat := ofLe ((b.drop 0x10).take 8)

/-- The measurement: SHAKE256 of header bytes 0x000 to 0x0BF and the payload (R512). -/
def imgMeasure (b : List Byte) : List Byte := shake256 (b.take 0xC0 ++ (b.drop 0x200).take (imgPayloadLen b))

/-- The whole length of an image: header and payload, padded to a multiple of 4 KiB (R512). -/
def imgLen (b : List Byte) : Nat := ceilDiv (0x200 + imgPayloadLen b) 4096 * 4096

def allZero (b : List Byte) : Bool := b.all (· == 0)

/-- The form checks of an image (first row of R513's table). -/
def imgFormOk (b : List Byte) (seen : List Nat) : Bool :=
  b.take 4 = ascii "YPQI" && ofLe ((b.drop 6).take 2) = 1 && (b.drop 0x18).take 16 = padTo 16 0 (ascii "PQ-2480-L") &&
    1 ≤ imgType b && imgType b ≤ 6 && !seen.contains (imgType b) && imgSvn b ≤ 128 && ofLe ((b.drop 0x28).take 1) ≤ 3 &&
    imgLen b ≤ b.length && (imgType b = 2 || imgSettingsFmt b = 0) &&
    allZero ((b.drop 0x29).take 0x17) && allZero ((b.drop 0xB9).take 7) && allZero ((b.drop 0x132).take 0xCE) &&
    allZero ((b.take (imgLen b)).drop (0x200 + imgPayloadLen b))

/-- The signature checks of an image (second row). -/
def State.imgSigOk (s : State) (b : List Byte) : Bool :=
  let pub := (b.drop 0x80).take 57
  let slot := nth s.crt.keySlots (ofLe ((b.drop 0x28).take 1)) ([], true)
  slot.1 = shake256 pub && !slot.2 &&
    Config.ed448Verify pub (ascii "PQ2480-FW") (b.take 0xC0) ((b.drop 0xC0).take 114) &&
    (b.drop 0x40).take 64 = shake256 ((b.drop 0x200).take (imgPayloadLen b))

/-- Checks the images of a package in order; the first failure decides (R513). Fuel: at most six types. -/
def State.checkPackage (s : State) : Nat → List Nat → List Byte → Status
  | _, _, [] => .ok
  | 0, _, _ => .imageInvalid
  | k + 1, seen, b =>
    if !imgFormOk b seen then .imageInvalid
    else if !s.imgSigOk b then .sigInvalid
    else if imgSvn b < s.crt.svn then .rollback
    else s.checkPackage k (imgType b :: seen) (b.drop (imgLen b))

/-- The images of a package in order. -/
def packageImages : Nat → List Byte → List (List Byte)
  | 0, _ => []
  | k + 1, b => if b.isEmpty || imgLen b = 0 then [] else b.take (imgLen b) :: packageImages k (b.drop (imgLen b))

def State.stagedBytes (s : State) : List Byte := s.crt.staging.readN 0 s.crt.stageLen

/-- Stops of the 0x0Bxx range: rights, tamper (R500), ACTIVATE in progress (R513). -/
def State.fwStops (s : State) (k : Kci) (more : List (Bool × Status)) : List (Bool × Status) :=
  k.denied :: (s.tampered, .tampered) :: (s.crt.stage = .activating, .modeConflict) :: more

/-- FW_STAGE_BEGIN (R513). -/
def execFwStageBegin (k : Kci) (len : Nat) (s : State) : Host.Outcome State Fault Refusal :=
  .next (kciRun 0x0B01 k s (fun s =>
    KRes.check s (s.fwStops k [(2 ^ 25 < len, .badOperand)]) (fun _ =>
      { st := s.setCrt { s.crt with staging := [], stageLen := len, stage := .writing } })) (records := false))

/-- FW_STAGE_WRITE (R513). -/
def execFwStageWrite (k : Kci) (offset src len : Nat) (s : State) : Host.Outcome State Fault Refusal :=
  .next (kciRun 0x0B02 k s (fun s =>
    KRes.check s (s.fwStops k [(s.crt.stage ≠ .writing, .modeConflict),
        (offset % 4096 ≠ 0 || 2 ^ 20 < len || s.crt.stageLen < offset + len, .badOperand)]) (fun _ =>
      { st := s.setCrt { s.crt with staging := s.crt.staging.writeN offset (s.hostRead k.src.fnIdx src len) } }))
    (records := false))

/-- FW_STAGE_VERIFY (R513). A failed package is INVALID. -/
def execFwStageVerify (k : Kci) (s : State) : Host.Outcome State Fault Refusal :=
  .next (kciRun 0x0B03 k s (fun s =>
    KRes.check s (s.fwStops k [(s.crt.stage = .empty || s.crt.stage = .invalid, .imageInvalid)]) (fun _ =>
      let st := if s.crt.stageLen = 0 then .imageInvalid else s.checkPackage 6 [] s.stagedBytes
      { st := s.setCrt { s.crt with stage := if st = .ok then .verified else .invalid }, status := st }))
    (records := false))

/-- An IMAGE_ACTIVE record: type, VERSION and SVN, and the measurement (R506, R514). -/
def State.imageActive (s : State) (b : List Byte) : State :=
  s.itinEvent 0x0009 none .ok (leBytes 8 (imgType b) ++ padTo 8 0 (imgVersion b) ++ leBytes 8 (imgSvn b)) (digestBlocks (imgMeasure b))

/-- The staging area once an activation has ended; a tamper trip has left it INVALID (R500, R513). -/
def Cartouche.unstage (c : Cartouche) : Cartouche :=
  if c.stage = .activating then { c with stage := .empty, staging := [], stageLen := 0 } else c

/-- The images of the package take their slots (R514): a MGMT image restarts Compass into it, and the completion is then written by the
new image; the others stay pending. -/
def State.fwMove (s : State) : State :=
  let imgs := packageImages 6 s.stagedBytes
  let others := imgs.filter (fun b => imgType b ≠ 2)
  let s := s.setCrt { s.crt with
    pending := others.foldl (fun m b => m.put (imgType b) b) s.crt.pending,
    pendStart := s.crt.pendStart || !others.isEmpty }
  match imgs.find? (fun b => imgType b = 2) with
  | none => (s.setCrt s.crt.unstage).progress 0x0B04 0
  | some b =>
    let prev := match s.crt.active.look 2 with
      | some a => s.crt.previous.put 2 a
      | none => s.crt.previous
    let s := s.setCrt { s.crt with update := true, previous := prev, active := s.crt.active.put 2 b,
                                   mgmtSince := some s.now, fallback := false }
    { s with cmp := { s.cmp with state := .restarting, restartAt := s.now } }

/-- The copy of a FW_ACTIVATE ends, of its own accord: whether it verifies is a free value. One that does not completes the command with
IMAGE_INVALID, and no slot changes: the package stays VERIFIED (R514, log 28). While Compass restarts the end waits. -/
def State.fwCopied (s : State) : State :=
  if !s.crt.copying || s.cmp.state ≠ .ready then s
  else
    let (v, s) := s.fresh
    let s := s.setCrt { s.crt with copying := false }
    if v = 0 then (s.setCrt { s.crt with stage := if s.crt.stage = .activating then .verified else s.crt.stage }).progress 0x0B04 0 .imageInvalid
    else s.fwMove

/-- FW_ACTIVATE (R514): the copy begins; Compass keeps serving commands during it. -/
def execFwActivate (k : Kci) (s : State) : Host.Outcome State Fault Refusal :=
  .next (kciRun 0x0B04 k s (fun s =>
    KRes.check s (s.fwStops k [(s.crt.stage ≠ .verified, .imageInvalid)]) (fun _ =>
      { st := s.setCrt { s.crt with stage := .activating, copying := true }, keys := [0] })))

/-- FW_QUERY (R518): the 512-byte headers of staged, pending, active and previous images, in RESULT order (log 28). -/
def execFwQuery (k : Kci) (s : State) : Host.Outcome State Fault Refusal :=
  .next (kciRun 0x0B05 k s (fun s =>
    KRes.check s [k.denied, (s.tampered, .tampered)] (fun _ =>
      let hs := (packageImages 6 s.stagedBytes ++ s.crt.pending.vals ++ s.crt.active.vals ++ s.crt.previous.vals).map (padTo 512 0)
      { st := s, result := hs.flatMap (fun h => leWords 64 h) })) (records := false))

/-- FW_SVN_COMMIT (R515). -/
def execFwSvnCommit (k : Kci) (v : Nat) (s : State) : Host.Outcome State Fault Refusal :=
  .next (kciRun 0x0B06 k s (fun s =>
    KRes.check s (s.fwStops k [(128 < v, .badOperand),
        ((s.crt.active.vals ++ s.crt.pending.vals).any (fun b => imgSvn b < v), .rollback)]) (fun _ =>
      { st := s.setCrt { s.crt with svn := max s.crt.svn v, previous := s.crt.previous.keep (fun _ b => v ≤ imgSvn b) } })))

/-- The configuration record in the order of R502: by opcode, then by first operand word. -/
def insertConfig (e : ConfigEntry) : List ConfigEntry → List ConfigEntry
  | [] => [e]
  | x :: xs =>
    if e.opcode < x.opcode || (e.opcode = x.opcode && (nth e.words 0 0).toNat < (nth x.words 0 0).toNat) then e :: x :: xs
    else x :: insertConfig e xs

def State.configEntries (s : State) : List ConfigEntry := s.cmp.config.foldl (fun l e => insertConfig e l) []

/-- The bytes of the configuration record: u16 opcode, u16 length, operands (R502). -/
def State.configRecord (s : State) : List Byte :=
  s.configEntries.flatMap (fun e => leBytes 2 e.opcode ++ leBytes 2 (8 * e.words.length) ++ wordBytes e.words)

/-- SETTINGS_FMT of the running MGMT image (R512, R520). -/
def State.settingsFmt (s : State) : Nat := imgSettingsFmt (s.crt.active.lookD 2 [])

/-- SETTINGS_SAVE (R517). -/
def execSettingsSave (k : Kci) (s : State) : Host.Outcome State Fault Refusal :=
  .next (kciRun 0x0B07 k s (fun s =>
    KRes.check s [k.denied, (s.tampered, .tampered)] (fun _ =>
      { st := s.setCrt { s.crt with settings := some (s.settingsFmt, s.configEntries.map (fun e => (e.opcode, e.words))) } })))

/-- SETTINGS_CLEAR (R517). -/
def execSettingsClear (k : Kci) (s : State) : Host.Outcome State Fault Refusal :=
  .next (kciRun 0x0B08 k s (fun s =>
    KRes.check s [k.denied, (s.tampered, .tampered)] (fun _ => { st := s.setCrt { s.crt with settings := none } })))

/-- CONFIG_EXPORT (R502, R518). -/
def execConfigExport (k : Kci) (dest maxLen : Nat) (s : State) : Host.Outcome State Fault Refusal :=
  .next (kciRun 0x0C02 k s (fun s =>
    let b := s.configRecord
    KRes.check s [k.denied, (maxLen < b.length, .noResources)] (fun _ =>
      { st := s.putHost k dest b, result := [wd b.length] })) (records := false))

/-! ### Itinerary export and checkpoints (R508 to R510) -/

/-- Whether the entry with a SEQ is still held. -/
def State.itinHolds (s : State) (seq : Nat) : Bool := s.crt.itin.entries.any (fun e => e.seq = seq)

/-- ITIN_EXPORT (R510). -/
def execItinExport (k : Kci) (seq count dest : Nat) (s : State) : Host.Outcome State Fault Refusal :=
  .next (kciRun 0x0C03 k s (fun s =>
    KRes.check s [k.denied, (65536 < count, .badOperand), (!s.itinHolds seq, .notPresent)] (fun _ =>
      let es := (s.crt.itin.entries.filter (fun e => seq ≤ e.seq && e.seq < seq + count)).reverse
      { st := s.putHost k dest (es.flatMap (·.bytes)), result := [wd es.length] })) (records := false))

/-- ITIN_EXPORT_ACK (R510). -/
def execItinExportAck (k : Kci) (seq : Nat) (s : State) : Host.Outcome State Fault Refusal :=
  .next (kciRun 0x0C04 k s (fun s =>
    KRes.check s [k.denied, (s.crt.itin.next ≤ seq, .badOperand)] (fun _ =>
      let i := { s.crt.itin with acked := max s.crt.itin.acked seq }
      { st := s.setCrt { s.crt with itin := { i with high := i.high && decide (98304 ≤ i.next - i.acked) } } })))

/-- ITIN_CHECKPOINT (R508): completes with the checkpoint number. -/
def execItinCheckpoint (k : Kci) (s : State) : Host.Outcome State Fault Refusal :=
  .next (kciRun 0x0C05 k s (fun s =>
    KRes.check s [k.denied, (!s.itinRoom 9, .noResources)] (fun _ => { st := s.checkpoint, result := [wd s.crt.itin.ckptNext] })) (records := false))

/-- ITIN_CKPT_READ (R508). -/
def execItinCkptRead (k : Kci) (number dest : Nat) (s : State) : Host.Outcome State Fault Refusal :=
  .next (kciRun 0x0C06 k s (fun s =>
    match s.crt.itin.ckpts.find? (fun c => c.number = number) with
    | none => KRes.check s [k.denied] (fun _ => .fail s .notPresent)
    | some c => KRes.check s [k.denied] (fun _ => { st := s.putHost k dest c.bytes })) (records := false))

/-- ITIN_JOURNAL_WRITE (R509): a page of at most 32 entries becomes durable. -/
def execItinJournalWrite (s : State) : Host.Outcome State Fault Refusal :=
  let i := s.crt.itin
  .next (s.setCrt { s.crt with itin := { i with durable := min i.next (i.durable + 32) } })

end Sys2Proof.Machine
end

