-- ==== Sys2Proof/Machine/Cfl.lean ====
section
/-! DEFINITION. The meanings of the Confluence rows (R213 to R256, R308). -/

namespace Sys2Proof.Machine

/-! ### Groups (R213 to R217, R255) -/

def ascending : List Nat → Bool
  | a :: b :: r => a < b && ascending (b :: r)
  | _ => true

/-- The ranks that the device hosts (R214). -/
def State.hostedRanks (s : State) (ms : List Nat) : List Nat :=
  (List.range ms.length).filter (fun r => s.fab.pfx.map (·.1) = some (nth ms r 0 / 256))

/-- A VF names only groups of its own partition (R255). -/
def State.cflGuard (s : State) (k : Kci) (gid : Nat) : List (Bool × Status) :=
  match s.cflGroup gid with
  | some g => [k.notOwn g.d.part]
  | none => [((match k.src with
      | .vf _ => true
      | _ => false), .accessDenied), (true, .groupInvalid)]

/-- A virtual function owns a rank: its own HOST function, or an accelerator of its partition's ports (R255). -/
def State.ownsMember (s : State) (k : Kci) : MemberKind → Bool
  | .host f => (match k.src with
    | .vf v => f = v
    | _ => true)
  | .accel l => (match k.src with
    | .vf v => (s.sub l).cfg.part = some (v - 1)
    | _ => true)
  | .device => true

/-- PROG_TIMEOUT_LOG2 of a definition that gives 0 is the default of R250 (log 30). -/
def groupTimed (d : GroupDef) : GroupDef := if d.progTimeoutLog2 = 0 then { d with progTimeoutLog2 := 28 } else d

def State.groupDefine (k : Kci) (given : GroupDef) (s : State) : KRes :=
  let d := groupTimed given
  let md := memberDigest d.members
  let off := d.tiles.find? (fun t => (s.tile t).state = .unavailable)
  KRes.check s [k.notOwn d.part, (!s.partExists d.part, .partInvalid),
      ((match k.src with
        | .vf _ => d.tiles.any (fun t => (s.tile t).part ≠ some d.part)
        | _ => false) || !d.hosted.all (fun e => s.ownsMember k e.2), .accessDenied),
      (d.members.isEmpty || 65536 < d.members.length, .groupInvalid),
      (65536 ≤ d.id || 8 ≤ d.cls || d.progTimeoutLog2 < 20 || 40 < d.progTimeoutLog2 || d.tiles.isEmpty || 16 < d.tiles.length ||
        d.tiles.any (1024 ≤ ·) || d.hosted.map (·.1) ≠ s.hostedRanks d.members, .badOperand),
      (off.isSome, .tileUnavailable),
      (!ascending d.members || d.members.any (2 ^ 48 ≤ ·) ||
        d.tiles.any (fun t => (s.tile t).part ≠ some d.part || t / 256 ≠ nth d.tiles 0 0 / 256) ||
        d.reserve % 4096 ≠ 0 || d.reserve < 65536 * d.hosted.length || 1048576 < d.reserve || (s.cflGroup d.id).isSome, .groupInvalid),
      (4096 ≤ s.cfl.groups.length, .noResources)]
    (fun _ => { st := s.setGroup d.id { d := d, md := md }, result := [md], cont := [leBytes 8 md.toNat] })

def execCflGroupDefine (k : Kci) (g : GroupDef) (s : State) : Host.Outcome State Fault Refusal :=
  .next (kciRun 0x0601 k s (State.groupDefine k g) (conf := true) (regions := tileRegions g.tiles))

/-- The streams that end at a rank: from each child and from the parent, and the node's own contribution, in each tree (R228). -/
def CflGroup.streamsAt (g : CflGroup) (r : Nat) : List Nat :=
  [0, 1].flatMap (fun t => (childRanks t r g.n).map (fun c => cflStream g.d.id c r t false) ++
    (parentRank t r g.n).toList.map (fun p => cflStream g.d.id p r t true) ++ [cflStream g.d.id r r t false])

/-- Grants two buffers to each stream of a newly opened group. -/
def State.cflGrantAll (s : State) (g : CflGroup) : State :=
  ((g.d.hosted.flatMap (fun e => g.streamsAt e.1)).flatMap (fun k => [k, k])).foldl (fun s k =>
    match s.platTake g.die poolCollation { owner := g.d.id, part := some g.d.part } with
    | some (i, s) => s.setCfl { s.cfl with grants := s.cfl.grants.upd k [] (· ++ [i]) }
    | none => s) s

def State.groupOpen (k : Kci) (gid : Nat) (s : State) : KRes :=
  KRes.check s (s.cflGuard k gid) (fun _ =>
    match s.cflGroup gid with
    | none => .fail s .groupInvalid
    | some g =>
      if g.isOpen then .fail s .groupBusy
      else if 1024 ≤ s.cflOpen + s.cflShared || 3 ≤ (s.pool g.die poolCollation).level then .fail s .noResources
      else match s.platReserve g.die poolCollation gid (g.d.reserve / 4096) with
        | none => .fail s .noResources
        | some s =>
          let g := { g with phase := .open_, next := g.d.hosted.map (fun e => (e.1, 0)) }
          { st := (s.setGroup gid g).cflGrantAll g })

def execCflGroupOpen (k : Kci) (group : Nat) (s : State) : Host.Outcome State Fault Refusal :=
  .next (kciRun 0x0602 k s (State.groupOpen k group) (conf := true))

/-- Gives back what an open group holds; a CFL_ABORT that waits for a start of the group ends, for there is none any more. -/
def State.cflClose (s : State) (g : CflGroup) : State :=
  let gid := g.d.id
  let mine := fun (k : Nat) => k / 4 / 65536 / 65536 = gid
  let bufs := ((s.cfl.grants.keep (fun k _ => mine k)).vals).flatMap id ++
    (s.cfl.early.filter (fun e => e.2.1.cflGroup = gid)).filterMap (fun e => e.2.2.map (· % 65536))
  let s := s.platFreeAll g.die poolCollation gid bufs
  let s := (s.platReserve g.die poolCollation gid 0).getD s
  let waiting := s.cmp.inflight.flatMap (fun r => match r.stage with
    | .running ks => if r.opcode = 0x0606 then ks.filter (fun k => k / 2 ^ 32 = gid) else []
    | _ => [])
  let s := waiting.foldl (fun s k => s.progress 0x0606 k) s
  (s.setCfl { s.cfl with grants := s.cfl.grants.keep (fun k _ => !mine k), credits := s.cfl.credits.keep (fun k _ => !mine k),
                         early := s.cfl.early.filter (fun e => e.2.1.cflGroup ≠ gid),
                         aborts := s.cfl.aborts.filter (fun a => a.group ≠ gid) }).setGroup gid { g with phase := .defined, next := [] }

def execCflGroupClose (k : Kci) (group : Nat) (s : State) : Host.Outcome State Fault Refusal :=
  .next (kciRun 0x0603 k s (fun s =>
    KRes.check s (s.cflGuard k group) (fun _ =>
      match s.cflGroup group with
      | none => .fail s .groupInvalid
      | some g =>
        if s.cfl.runs.any (fun r => r.group = group) then .fail s .groupBusy
        else
          let s := if g.isOpen then s.cflClose g else s
          { st := s.unconfig (fun e => e.opcode = 0x0602 && (nth e.words 0 0).toNat = group) })))

/-! ### Submitting (R218 to R222) -/

/-- The rank belongs to the issuing function's partition: a HOST or DEVICE rank of the group (R219). -/
def CflGroup.hostOrDevice (g : CflGroup) (rank : Nat) : Bool :=
  match g.kind rank with
  | some (.host _) => true
  | some .device => true
  | _ => false

/-- A HOST rank of a VF's group is the VF's own function. -/
def CflGroup.ownRank (g : CflGroup) (k : Kci) (rank : Nat) : Bool :=
  match k.src, g.kind rank with
  | .vf v, some (.host f) => f = v
  | _, _ => true

def execCflSubmit (k : Kci) (rank : Nat) (desc : List Word) (s : State) : Host.Outcome State Fault Refusal :=
  let gid := (cflDesc desc).group
  .next (kciRun 0x0605 k s (fun s =>
    KRes.check s (s.cflGuard k gid) (fun _ =>
      match s.cflGroup gid with
      | none => .fail s .groupInvalid
      | some g =>
        if !g.hostOrDevice rank || !g.ownRank k rank || (k.acts.isSome && k.acts ≠ some g.d.part) then .fail s .accessDenied
        else
          let id := s.cfl.nextRun
          let s := s.cflSubmit g rank desc .kci
          match s.cflRun id with
          | some _ => { st := s, keys := [id] }
          | none =>
            let st := if g.phase = .failed then Status.aborted else (cflDesc desc).check (padTo 16 0 desc) g.n
            { st := s, status := st, result := [wd (st.code + put 31 16 gid), 0, 0, wd (put 31 16 (cflDesc desc).user + put 47 32 (cflDesc desc).job)] }))
    (records := false))

/-- A refusal to a tile: a record with its status only (R220). -/
def State.cflRefuse (s : State) (t : Nat) (m : MeshMsg) (st : Status) : State :=
  s.toMesh (gatewayMsg 3 t (bits (nth m.header 1 0) 21 16) m.part m.tag (leBytes 32 st.code) [])

/-- Takes the submission of a tile (R220). -/
def State.cflTileTake (s : State) (t : Nat) (m : MeshMsg) : State :=
  let u := fun i => nth m.header (1 + i) (0 : Word)
  let rank := bits (u 0) 15 0
  let words := leWords 16 m.payload
  if m.len ≠ 2 || bits (u 0) 63 22 ≠ 0 || (List.range 6).any (fun i => u (i + 1) ≠ 0) then s.cflRefuse t m .msgInvalid
  else match s.cflGroup (cflDesc words).group with
    | none => s.cflRefuse t m .accessDenied
    | some g =>
      if g.d.part ≠ m.part || g.kind rank ≠ some .device then s.cflRefuse t m .accessDenied
      else s.cflSubmit g rank words (.tile t (bits (u 0) 21 16) m.tag)

def execCflTileSubmit (t : Nat) (s : State) : Host.Outcome State Fault Refusal :=
  .next (match takeFirst (fun (m : MeshMsg) => !m.srcGw && m.destGw && m.dest = 3 && coord m.src = t) s.grid.mesh with
    | some (m, rest) => ({ s with grid := { s.grid with mesh := rest } } : State).cflTileTake t m
    | none => s)

/-- A refusal to an accelerator: a completion with the record. -/
def State.cflRefuseAccel (s : State) (l : Nat) (p : Packet) (st : Status) : State :=
  s.toAccel l (dataPacket p.vc (s.sub l).cfg.partnerGrid ulpCompletion p.dest p.job 0 p.reqId 0 [] (leBytes 32 st.code)) (s.sub l).cfg.part

/-- A collective-submit packet at an endpoint-mode sub-port goes to the CFL gateway (R219, R308). -/
def execCollSubmitPacket (lport : Nat) (s : State) : Host.Outcome State Fault Refusal :=
  .next (let x := s.sub lport
    match x.ingress with
    | p :: _ =>
      if x.cfg.mode ≠ .endpoint || p.ulp ≠ ulpColl then s
      else
        let s := s.ingressPop lport
        let words := leWords 16 p.payload
        match s.cflGroup (cflDesc words).group with
        | none => s.cflRefuseAccel lport p .accessDenied
        | some g =>
          match g.d.hosted.find? (fun e => e.2 = .accel lport) with
          | none => s.cflRefuseAccel lport p .accessDenied
          | some (rank, _) =>
            if x.cfg.part ≠ some g.d.part then s.cflRefuseAccel lport p .accessDenied
            else s.cflSubmit g rank words (.accel lport p.reqId)
    | [] => s)

def execCollectiveStart (group rank : Nat) (s : State) : Host.Outcome State Fault Refusal := .next (s.cflStart group rank)

/-! ### Ending (R250, R254) -/

/-- A collective that ends in an abort before it started at any rank: counted and recorded like one that had started, under the
sequence number it would have taken (R256, R257, log 30). -/
def State.cflHeldEnds (s : State) (e : Nat × Nat) (st : Status) : State :=
  match s.cflGroup e.1 with
  | some g =>
    (((s.countCfl 0).setCfl { (s.countCfl 0).cfl with last := ⟨e.1, st.code, true, true, e.2⟩ }).w1cSet 0x12028 (2 ^ 25)).notifyRecorded .collectiveAbort st (some g.d.part)
      (e.1 + put 63 32 e.2) (flag 17 true) (.die g.die)
  | none => s

/-- The group of a run is open. -/
def State.cflOpenRun (s : State) (r : CflRun) : Bool := (s.cflGroup r.group).map (·.phase) = some .open_

/-- The collectives that a test of runs names: started ones, and of open groups those that a submission here will take (R254). -/
def State.cflNamed (s : State) (p : CflRun → Bool) : List (Nat × Nat) :=
  ((s.cfl.runs.filter (fun r => p r && (r.seq.isSome || s.cflOpenRun r))).map (fun r => (r.group, r.seq.getD (s.heldSeq r)))).eraseDups

/-- The named collectives that a rank hosted here has not started: a CFL_ABORT waits for them (R254). -/
def State.cflWaits (s : State) (es : List (Nat × Nat)) : List Nat :=
  es.filterMap (fun e => match s.cflGroup e.1 with
    | some g => if g.phase = .open_ && g.d.hosted.any (fun h => !seqBefore e.2 (g.nextSeq h.1)) then some (abortKey e.1 e.2) else none
    | none => none)

/-- Begins the submissions at the head of their queues whose collective is among those named and has its abort record: each takes its
number and ends at once, for which it needs no context (R252, R254). Fuel bounds the loop. -/
def State.cflHeldStart (es : List (Nat × Nat)) : Nat → State → State
  | 0, s => s
  | n + 1, s =>
    match s.cfl.runs.find? (fun r => s.cflOpenRun r && (s.cflHeadOf r.group r.rank).map (·.id) = some r.id && es.contains (r.group, s.heldSeq r) &&
        s.cfl.aborts.any (fun a => a.group = r.group && a.seq = s.heldSeq r)) with
    | none => s
    | some r => match s.cflGroup r.group with
      | none => s
      | some g => State.cflHeldStart es n (s.cflBegin g r)

/-- Ends (group, seq) under R248, with the submissions here that would have taken the number. One that no rank has started and whose
abort record is there already gets nothing more. -/
def State.cflEndOne (s : State) (e : Nat × Nat) (st : Status) : State :=
  match s.cflGroup e.1 with
  | none => s
  | some g =>
    let known := s.cfl.aborts.any (fun a => a.group = e.1 && a.seq = e.2) && !s.cfl.runs.any (fun r => r.group = e.1 && r.seq = some e.2)
    State.cflHeldStart [e] (s.cfl.runs.length + 1) (if known then s else s.cflAbort g e.2 st none none true)

/-- Ends the collectives that a test of runs selects (R254); submissions to a group that is not open end without a number. -/
def State.cflEndAll (s : State) (p : CflRun → Bool) (st : Status := .aborted) : State :=
  let es := s.cflNamed p
  let left := (s.cfl.runs.filter (fun r => p r && r.seq.isNone)).map (·.id)
  let s := es.foldl (fun s e => s.cflEndOne e st) s
  let s := State.cflHeldStart es (s.cfl.runs.length + 1) s
  let late := fun (s : State) (r : CflRun) => left.contains r.id && r.seq.isNone && !s.cflOpenRun r
  let s := ((s.heldOf (late s)).filter (fun e => !es.contains e)).foldl (fun s e => s.cflHeldEnds e st) s
  (s.cfl.runs.filter (late s)).foldl (fun s r =>
    match s.cflGroup r.group with
    | some g => s.cflEnd g r st none
    | none => s) s

/-- A collective carries a JOB_TAG, in a partition where one is given. -/
def State.cflOfJob (s : State) (job : Nat) (part : Option Nat) (r : CflRun) : Bool :=
  r.d.job = job && (part.isNone || (s.cflGroup r.group).map (·.d.part) = part)

/-- The CFL_ABORT of a job teardown (R254, R531). -/
def State.cflAbortJob (s : State) (job : Nat) (part : Option Nat) : State := s.cflEndAll (s.cflOfJob job part)

/-- CFL_ABORT (R254). It waits for the start of a named collective at every hosted rank of an open group, which the abort record ends;
a (group, seq) whose abort record is there already gets nothing more. -/
def State.cflAbortCmd (k : Kci) (what : AbortWhat) (s : State) : KRes :=
  match what with
  | .one gid q => KRes.check s (s.cflGuard k gid) (fun _ =>
      match s.cflGroup gid with
      | none => .fail s .groupInvalid
      | some g =>
        let runs := s.cfl.runs.any (fun r => r.group = gid && r.seq = some q)
        let s := if runs || (g.phase = .open_ && s.cflWaits [(gid, q)] ≠ []) then s.cflEndOne (gid, q) .aborted else s
        { st := s, keys := s.cflWaits [(gid, q)] })
  | .all gid => KRes.check s (s.cflGuard k gid) (fun _ =>
      let p := fun (r : CflRun) => decide (r.group = gid)
      { st := s.cflEndAll p, keys := (s.cflEndAll p).cflWaits (s.cflNamed p) })
  | .job tag =>
    let part := match k.src with
      | .vf v => some (v - 1)
      | _ => none
    { st := s.cflAbortJob tag part, keys := (s.cflAbortJob tag part).cflWaits (s.cflNamed (s.cflOfJob tag part)) }

/-- CFL_GROUP_DELETE (R255): refused while the group is open; submissions that still wait for its opening end with ABORTED (log 30). -/
def execCflGroupDelete (k : Kci) (group : Nat) (s : State) : Host.Outcome State Fault Refusal :=
  .next (kciRun 0x0604 k s (fun s =>
    KRes.check s (s.cflGuard k group) (fun _ =>
      match s.cflGroup group with
      | none => .fail s .groupInvalid
      | some g =>
        if g.isOpen then .fail s .groupBusy
        else
          let s := s.cflEndAll (fun r => decide (r.group = group))
          let s := s.setCfl { s.cfl with groups := s.cfl.groups.del group }
          { st := s.unconfig (fun e => e.opcode = 0x0601 && (nth e.words 0 0).toNat = group) })))

def execCflAbort (k : Kci) (what : AbortWhat) (s : State) : Host.Outcome State Fault Refusal :=
  .next (kciRun 0x0606 k s (State.cflAbortCmd k what))

def CflPhase.code : CflPhase → Nat
  | .defined => 1
  | .open_ => 2
  | .failed => 3

/-- State, contexts and buffers in use, then the ranks hosted here with their NEXT_SEQ (R255). -/
def execCflGroupQuery (k : Kci) (group : Nat) (s : State) : Host.Outcome State Fault Refusal :=
  .next (kciRun 0x0607 k s (fun s =>
    KRes.check s (s.cflGuard k group) (fun _ =>
      match s.cflGroup group with
      | none => .fail s .groupInvalid
      | some g => { st := s, result := [wd g.phase.code] ++ g.d.hosted.map (fun e => wd (put 15 0 e.1 + put 63 32 (g.nextSeq e.1))) ++
          [wd (max (if g.isOpen then 1 else 0) (s.cflSeqs group).length), wd ((s.pool g.die poolCollation).usedOf group)] })) (records := false))

def execCflDigest (k : Kci) (group : Nat) (desc : List Word) (s : State) : Host.Outcome State Fault Refusal :=
  .next (kciRun 0x0608 k s (fun s =>
    KRes.check s (s.cflGuard k group) (fun _ =>
      match s.cflGroup group with
      | none => .fail s .groupInvalid
      | some g =>
        match (cflDesc desc).check (padTo 16 0 desc) g.n with
        | .ok => { st := s, result := [cflDigest g.md desc] }
        | st => .fail s st)) (records := false))

/-- A timeout falls in a cycle: a started collective without a packet for 2^PROG_TIMEOUT_LOG2 cc ends with TIMEOUT (R250). -/
def execCflProgTimeout (group seq cc : Nat) (s : State) : Host.Outcome State Fault Refusal :=
  .next (let s := s.at cc
    match s.cflGroup group with
    | none => s
    | some g =>
      match s.cfl.runs.find? (fun r => r.group = group && r.seq = some seq && r.last + 2 ^ g.d.progTimeoutLog2 ≤ s.now) with
      | some r => s.cflAbort g seq .timeout (some r.rank) none true
      | none => s)

/-! ### Packets that arrive at a die's runtime -/

/-- Takes the first Confluence packet of some kinds that has reached the runtime of a die. -/
def State.cflInbox (s : State) (die : Nat) (ok : Packet → Bool) : Option (Packet × State) :=
  let mine := fun (e : Nat × LocalTarget × Packet) => (match e.2.1 with
    | .cfl d _ => d = die
    | _ => false) && ok e.2.2
  (takeFirst mine s.fab.inbox).map (fun r => (r.1.2.2, s.setFab { s.fab with inbox := r.2 }))

/-- Takes a packet of a kind and gives it to the node of the rank it is addressed to; one for a group that is not open here, or
for a rank that is not hosted here, is discarded. -/
def State.cflReceive (s : State) (die : Nat) (ok : Packet → Bool) (go : State → CflGroup → Nat → Packet → State) : State :=
  match s.cflInbox die ok with
  | none => s
  | some (p, s) =>
    match s.cflGroup p.cflGroup with
    | none => s
    | some g =>
      match g.d.members.idxOf? p.dest with
      | none => s
      | some rank => if g.isOpen && g.hosts rank then go s g rank p else s

/-- What follows a packet at a run. -/
def State.cflAfter (s : State) (id : Nat) : State := (s.cflAccelPool id).cflStep id

/-- A data block (R228, R231). -/
def execCflBlockReceive (die : Nat) (s : State) : Host.Outcome State Fault Refusal :=
  .next (s.cflReceive die (fun p => p.isData) (fun s g rank p => s.cflArrive g rank p State.cflAfter))

/-- CREDIT: the blocks that wait on the stream leave (R228). -/
def State.cflCreditTake (s : State) (g : CflGroup) (rank : Nat) (p : Packet) : State :=
  let tree := p.cflTree
  let down := parentRank tree rank g.n ≠ some p.cflSrc
  let k := cflStream g.d.id rank p.cflSrc tree down
  let s := s.setCfl { s.cfl with credits := s.cfl.credits.put k (s.cflCredit k + p.cflCredits),
                                 runs := s.cfl.runs.map (fun r => if r.group = g.d.id && r.rank = rank && r.seq.isSome then { r with last := s.now } else r) }
  let s := State.cflDrain g (s.cfl.outs.length + 1) s k
  ((s.cfl.runs.filter (fun r => r.group = g.d.id && r.rank = rank && r.seq.isSome)).map (·.id)).foldl State.cflFinish s

def execCflCreditReceive (die : Nat) (s : State) : Host.Outcome State Fault Refusal :=
  .next (s.cflReceive die (fun p => !p.isData && p.cflKind = 8) State.cflCreditTake)

def execDigestUpReceive (die : Nat) (s : State) : Host.Outcome State Fault Refusal :=
  .next (s.cflReceive die (fun p => !p.isData && p.cflKind = 5) (fun s g rank p => s.cflArrive g rank p State.cflStep))

def execConfirmReceive (die : Nat) (s : State) : Host.Outcome State Fault Refusal :=
  .next (s.cflReceive die (fun p => !p.isData && p.cflKind = 6) (fun s g rank p => s.cflArrive g rank p State.cflStep))

def execScalarReceive (die : Nat) (s : State) : Host.Outcome State Fault Refusal :=
  .next (s.cflReceive die (fun p => !p.isData && (p.cflKind = 9 || p.cflKind = 10 || p.cflKind = 2 || p.cflKind = 3))
    (fun s g rank p => s.cflArrive g rank p State.cflStep))

/-- ABORT: forwarded, and the hosted ranks complete; discarded where every hosted rank has done with the collective (R248, R251), and
in a FAILED group for one that runs nowhere here (R252). -/
def State.cflAbortTake (s : State) (g : CflGroup) (_rank : Nat) (p : Packet) : State :=
  let q := p.cflSeq
  let w := p.word 4
  let live := s.cfl.runs.any (fun r => r.group = g.d.id && r.seq = some q) ||
    (g.phase = .open_ && g.d.hosted.any (fun e => !seqBefore q (g.nextSeq e.1)) && !s.cfl.aborts.any (fun a => a.group = g.d.id && a.seq = q))
  if live then s.cflAbort g q ((Status.ofCode p.cflStatus).getD .aborted) (if bit w 16 then some (bits w 15 0) else none) (some p.cflSrc) false
  else s

def execCflAbortReceive (die : Nat) (s : State) : Host.Outcome State Fault Refusal :=
  .next (s.cflReceive die (fun p => !p.isData && p.cflKind = 7) State.cflAbortTake)

/-- A combining step of a started collective, where its inputs are present (R229). -/
def execCflCombine (group rank seq tree segment block : Nat) (p1 : Bool) (s : State) : Host.Outcome State Fault Refusal :=
  .next (match s.started group rank seq with
    | some r => ((s.cflCombine r.id tree segment block p1).map (fun s => s.cflStep r.id)).getD s
    | none => s)

end Sys2Proof.Machine
end

