-- ==== Sys2Proof/Machine/Converter.lean ====
section
/-! DEFINITION. The format converter of a port (R311 to R314). -/

namespace Sys2Proof.Machine

/-- Bytes of an element of SRC_FMT or DST_FMT: FP32 or BF16. -/
def tensorBytes (f : Nat) : Nat := if f = 0x0 then 4 else 2

/-- Bytes of a block of 32 on the wire: 33 for FP8 and 17 for FP4 (R313). -/
def wireBlock (f : Nat) : Nat := 4 * fmtBits f + 1

/-- A profile whose values lie within R311. -/
def profileOk (p : ConvProfile) : Bool :=
  p.srcFmt ≤ 1 && p.dstFmt ≤ 1 && (p.wireFmt = 0x3 || p.wireFmt = 0x4 || p.wireFmt = 0x7)

/-- The rounding of n elements, and the port's lanes after their draws: element i uses lane i mod 64 (R314). -/
def quantModes (pr : ConvProfile) (l : SrLanes) (n : Nat) : List RMode × SrLanes :=
  if pr.stoch then (match SrLanes.draws 64 l 0 n with
    | (rs, l) => (rs.map RMode.sr, l))
  else ([], l)

/-- The element codes, the scale byte and the saturations of each block of a payload, quantised under given roundings (R312). -/
def quantBlocks (pr : ConvProfile) : List RMode → List (List Exact) → List (List Nat × Nat × Nat)
  | _, [] => []
  | ms, b :: bs =>
    let e := encodeBlock pr.wireFmt (padTo 32 .rne (ms.take 32)) b
    (e.elems, e.scale, e.ev.sat) :: quantBlocks pr (ms.drop 32) bs

/-- The profile that a packet names at a port. -/
def State.convProfile (s : State) (port : Nat) (p : Packet) : Option ConvProfile :=
  if p.convId = 0 then none else (s.port port).profiles.look p.convId

/-- A packet that leaves the port may be quantised: PLP_DATA, not yet converted, with a profile that quantises. -/
def State.quantProfile (s : State) (port : Nat) (p : Packet) : Option ConvProfile :=
  if p.isData && p.ulp = ulpPlp && !p.conv then
    (match s.convProfile port p with
      | some pr => if pr.quantEn then some pr else none
      | none => none)
  else none

/-- The length rule of R312. -/
def quantLength (pr : ConvProfile) (p : Packet) : Bool := p.bytes % (32 * tensorBytes pr.srcFmt) = 0

/-- Elements of a packet that is quantised, and the bytes of its wire form (R312). -/
def quantElems (pr : ConvProfile) (p : Packet) : Nat := p.bytes / tensorBytes pr.srcFmt
def quantBytes (pr : ConvProfile) (p : Packet) : Nat := quantElems pr p / 32 * wireBlock pr.wireFmt

/-- A packet that the port quantises as it leaves (R312). -/
def State.headQuant (s : State) (l : Nat) (p : Packet) : Option ConvProfile :=
  match s.quantProfile (lportPhys l) p with
  | some pr => if quantLength pr p then some pr else none
  | none => none

/-- The header of a packet in quantised wire form (R312). -/
def quantHead (pr : ConvProfile) (p : Packet) : Packet :=
  let n := quantBytes pr p
  (({ p with pflits := flitsFor n }.setField 1 60 60 1).setField 1 59 56 pr.wireFmt).setField 2 12 0 n

/-- The elements whose codes lie in the first n data flits of the wire form. -/
def quantUpTo (pr : ConvProfile) (p : Packet) (n : Nat) : Nat := min (quantElems pr p) (256 * n * 8 / fmtBits pr.wireFmt)

/-- Data flit n, from 1, of the wire form, and the saturations of the elements whose codes lie in it. It reads no more of the payload
than those elements, or all of it where a scale byte lies in the flit. -/
def quantFlit (pr : ConvProfile) (ms : List RMode) (p : Packet) (n : Nat) : List Byte × Nat :=
  let tb := tensorBytes pr.srcFmt
  let e := quantElems pr p
  let xs := (pieces tb e (padTo p.bytes 0 p.payload)).map (fun b => decodeElem pr.srcFmt (ofLe b))
  let bl := quantBlocks pr ms (pieces 32 (e / 32) xs)
  let all := packElems (fmtBits pr.wireFmt) (bl.flatMap (·.1)) ++ bl.map (fun b => BitVec.ofNat 8 b.2.1)
  let lo := quantUpTo pr p (n - 1) / 32
  let hi := quantUpTo pr p n / 32
  (padTo 256 0 ((all.drop (256 * (n - 1))).take 256), (((bl.drop lo).take (hi - lo)).map (·.2.2)).foldl (· + ·) 0)

/-- The profile under which a packet that arrives at a sub-port is dequantised (R313); a payload that is no whole number of blocks,
or that would outgrow a packet, stays as it is (log 62). -/
def State.dequantProfile (s : State) (l : Nat) (p : Packet) : Option ConvProfile :=
  let f := p.wfmt
  match if p.isData && p.ulp = ulpPlp && p.conv then s.convProfile (lportPhys l) p else none with
  | none => none
  | some pr =>
    let k := p.bytes / wireBlock f
    if !pr.dequantEn || (f ≠ 0x3 && f ≠ 0x4 && f ≠ 0x7) || p.bytes % wireBlock f ≠ 0 || k = 0 || 4096 < 32 * k * tensorBytes pr.dstFmt then none
    else some pr

/-- Dequantise (R313) at a sub-port. -/
def State.dequantise (s : State) (l : Nat) (p : Packet) : Packet × State :=
  match s.dequantProfile l p with
  | none => (p, s)
  | some pr =>
    let f := p.wfmt
    let k := p.bytes / wireBlock f
    let n := tensorBytes pr.dstFmt
    let w := fmtBits f
    let outs := (List.range (32 * k)).map (fun i =>
      let sc := (nth p.payload (4 * w * k + i / 32) 0).toNat
      stage5 pr.dstFmt .rne (decodeInBlock f sc 0 (i % 32) (elemAt w p.payload i)))
    let bytes := outs.flatMap (fun e => leBytes n e.1)
    ((({ p with payload := bytes, pflits := flitsFor bytes.length }.setField 1 60 60 0)).setField 2 12 0 bytes.length,
      s.countSub l cntSat (NumEv.sum (outs.map (·.2))).sat)

/-- A write to BRG_SR_SEED reseeds the port's lanes (R314). -/
def State.srReseed (s : State) (port seed : Nat) : State := s.setPort port { s.port port with seed := seed, lanes := { seed := seed } }

def execBrgSrReseed (port : Nat) (value : Word) (s : State) : Host.Outcome State Fault Refusal :=
  .next (if port < 128 then s.srReseed port value.toNat else s)

end Sys2Proof.Machine
end

