-- ==== Sys2Proof/Machine/Links.lean ====
section
/-! DEFINITION. Links: bring-up, identity, credits, retry, loss (R292 to R307). -/

namespace Sys2Proof

/-- The body of a LINK_ID (R307). -/
def LinkId.bytes (i : LinkId) : List Byte :=
  Machine.padTo 16 0 i.serial ++ Machine.padTo 2 0 i.build ++ Machine.leBytes 1 i.role ++ Machine.leBytes 1 i.version ++ Machine.leBytes 2 i.lport ++ Machine.leBytes 5 i.pfx ++ [0] ++
    (Machine.padTo 9 0 i.credits).flatMap (Machine.leBytes 2) ++ [0, 0] ++ Machine.padTo 16 0 i.partNo

end Sys2Proof

namespace Sys2Proof.Machine

/-- A LINK_ID from its body (R307). -/
def linkIdOf (bs : List Byte) : LinkId :=
  let at_ := fun (i n : Nat) => (bs.drop i).take n
  { serial := at_ 0 16, build := at_ 16 2, role := ofLe (at_ 18 1), version := ofLe (at_ 19 1), lport := ofLe (at_ 20 2), pfx := ofLe (at_ 22 5),
    credits := (List.range 9).map (fun i => ofLe (at_ (28 + 2 * i) 2)), partNo := at_ 48 16 }

/-! ### Rates and credits (R292, R300) -/

/-- Mb/s of a lane by its rate code. -/
def laneRate : Nat → Nat
  | 0 => 200000
  | 1 => 100000
  | _ => 50000

/-- The data rate of a sub-port in Mb/s. -/
def State.subRate (s : State) (l : Nat) : Nat := (s.port (lportPhys l)).width * laneRate (s.port (lportPhys l)).rate

/-- The sub-ports of a port whose mode is not DISABLED. -/
def State.enabledSubs (s : State) (port : Nat) : List Nat :=
  ((List.range 8).map (8 * port + ·)).filter (fun l => s.subExists l && (s.sub l).cfg.mode ≠ .disabled)

/-- The credits of VC0 to VC8 that a sub-port gives its partner. -/
def State.ownCredits (s : State) (l : Nat) : List Nat :=
  let c := 8192 / max 1 (s.enabledSubs (lportPhys l)).length
  List.replicate 8 ((c - 64) / 8) ++ [64]

/-- The LINK_ID a sub-port sends (R307). -/
def State.ownId (s : State) (l : Nat) : LinkId :=
  { serial := s.serial, build := s.buildCode, role := if (s.sub l).cfg.mode = .switch then 1 else 3, version := 1, lport := l,
    pfx := (s.fab.pfx.map (·.1)).getD 0, credits := s.ownCredits l, partNo := s.partNumber }

/-! ### States (R303 to R307) -/

/-- FAIL_CAUSE codes (R328). -/
def failAlign : Nat := 1
def failUnit : Nat := 2
def failTrain : Nat := 3
def failIdent : Nat := 4
def failWired : Nat := 5
def failFenced : Nat := 6
def failCommand : Nat := 7
def failVersion : Nat := 8

/-- The LINK_STATE record: the sub-port, the new state and FAIL_CAUSE (R306). -/
def State.linkRecord (s : State) (l : Nat) : State :=
  let x := s.sub l
  s.itinEvent 0x000C x.cfg.part .ok (leBytes 8 l ++ leBytes 8 x.state.code ++ leBytes 8 x.cause)

/-- Bearing's write to the data-path field of page 10h of a module that answers: DPDeinit of the sub-port's lanes, in byte 128, set or
clear (R325, log 63). -/
def State.dataPath (s : State) (l : Nat) (off : Bool) : State :=
  let p := lportPhys l
  let x := s.port p
  match x.cmis.pages.look 0x10 with
  | none => s
  | some pg =>
    if !x.cmis.present || !x.cmis.ack then s
    else
      let mask := (2 ^ x.width - 1) * 2 ^ (l % 8)
      let old := (nth pg 128 0).toNat
      let b : Byte := BitVec.ofNat 8 (if off then old ||| mask else old &&& (255 - mask % 256))
      (s.setPort p { x with cmis := { x.cmis with pages := x.cmis.pages.put 0x10 (pg.set 128 b) } }).emit (.cmis p 0x10 128 [b])

/-- TRAINING begins: the data path of the sub-port's lanes is initialised. -/
def State.train (s : State) (l : Nat) : State :=
  (s.dataPath l false).onSub l (fun x => { x with state := .training, since := s.now, fecLock := false, lanes := 0, valid := false })

/-- A list without the last of its elements that satisfy p. -/
def dropLast {α : Type} (p : α → Bool) (l : List α) : List α := ((takeFirst p l.reverse).map (fun r => r.2.reverse)).getD l

/-- The packet that was arriving is cut: its rest will not come (log 20). Of one that its edge has taken, the copy that is kept stays
behind without its rest: it cannot be sent again, and after six times its flow fails (R309). -/
def State.rxEnd (s : State) (l : Nat) : State :=
  match (s.sub l).rx with
  | none => s
  | some r =>
    let s := s.onSub l (fun x => { x with rx := none })
    if r.edge then ((s.onSub l (fun x => { x with ingress := dropLast (·.isData) x.ingress })).drop l dropLink).creditBack (some l) r.pkt.vc (1 + 4 * r.got)
    else match r.load, r.keep with
    | some id, _ => s.cutLoad l id
    | none, true => (s.drop l dropLink).creditBack (some l) r.pkt.vc (1 + 4 * r.got)
    | none, false => s

/-- UP: numbers and credits of the link begin anew; what came in over an earlier link holds no credits of this one. -/
def State.enterUp (s : State) (l : Nat) : State :=
  let s := s.setFab { s.fab with
    loads := s.fab.loads.map (fun (e : Nat × Load) => if e.2.inPort = some l then (e.1, { e.2 with credit := 0 }) else e),
    ctrlSrc := s.fab.ctrlSrc.map (fun (e : Nat × List Flit) => (e.1, e.2.map (fun f => if f.from_ = some l then { f with from_ := none } else f))) }
  let s := s.onSub l (fun x => { x with
    state := .up, attempts := 0, since := s.now, rxNext := 0, nakOut := false, nakDue := false, ackDue := false,
    freed := List.replicate 9 0, credDue := [], lastGood := s.now, txNext := 0, replay := [], resend := [],
    granted := padTo 9 0 ((x.partner.map (·.credits)).getD []), totals := List.replicate 9 0, usedCr := List.replicate 9 0,
    sinceCtl := 0, cur := none, stale := x.ingress.length })
  ((s.linkRecord l).unmark.shtRouteBack).progress 0x0302 l

/-- The packet that a sub-port is sending ends with the link. -/
def State.dropCur (s : State) (l : Nat) : State :=
  match (s.sub l).cur with
  | none => s
  | some c =>
    let s := (s.takeCells (8 * lportPhys l + c.cls) (fun x => x.lport = l && x.load = c.load)).onSub l (fun x => { x with cur := none })
    match s.load c.load with
    | none => s
    | some d =>
      let tgt := (d.outs.idxOf? (OutTarget.sub l)).getD 0
      ((s.setLoad { d with gone := d.gone ++ [tgt] }).drop l dropLink).copyDone c.load tgt .ok

/-- An exit from UP (R303, R304, R306): units still to be replayed are discarded, sets without a usable member are marked. -/
def State.leaveUp (s : State) (l : Nat) (st : LinkState) (cause : Nat) : State :=
  let s := ((s.dropCur l).rxEnd l).onSub l (fun x => { x with
    state := st, cause := cause, downs := min (x.downs + 1) (2 ^ 32 - 1), since := s.now, fecLock := false, lanes := 0, replay := [], resend := [] })
  (s.linkRecord l).markLost l

/-- A link that was UP is lost (R303). -/
def State.loseLink (s : State) (l cause : Nat) : State :=
  let s := s.leaveUp l .down cause
  let s := { s with flt := { s.flt with linkLoss := satInc s.flt.linkLoss } }.tally 0x240
  let s := s.notify .linkDown .ok (s.sub l).cfg.part l cause (.region (lportRegion l))
  (s.progress 0x0302 l).scanLost

/-- An attempt fails into DOWN; after eight in a row the sub-port stays there (R304, R305). -/
def State.failAttempt (s : State) (l cause : Nat) (st : LinkState := .down) : State :=
  let n := min 8 ((s.sub l).attempts + 1)
  let s := s.onSub l (fun x => { x with state := st, cause := cause, attempts := n, since := s.now, fecLock := false, lanes := 0 })
  let s := if st = .down && n = 8 then s.notify .trainStopped .ok (s.sub l).cfg.part l cause (.region (lportRegion l)) else s
  if st = .down then s.progress 0x0302 l else s

def execTrainingComplete (lport cc : Nat) (s : State) : Host.Outcome State Fault Refusal :=
  .next (let s := s.at cc
    if (s.sub lport).state ≠ .training then s
    else
      let s := s.onSub lport (fun x => { x with fecLock := true, lanes := 2 ^ (s.port (lportPhys lport)).width - 1 })
      if (s.sub lport).cfg.mode = .ethernet then s.enterUp lport
      else s.onSub lport (fun x => { x with state := .ident, since := s.now, idsLeft := 3, lastId := none }))

/-- The time that training may take (R305). -/
def trainLimit (rate : Nat) : Nat := if rate = 0 then 1875000000 else 937500000

def execTrainingTimeout (lport cc : Nat) (s : State) : Host.Outcome State Fault Refusal :=
  .next (let s := s.at cc
    let x := s.sub lport
    if x.state = .training && x.since + trainLimit (s.port (lportPhys lport)).rate ≤ s.now then s.failAttempt lport failTrain else s)

/-- The sub-port's cage holds it in DOWN, whether it was enabled when the bus fell silent or later (R326). -/
def State.heldDown (s : State) (l : Nat) : Bool := (s.sub l).held || (s.port (lportPhys l)).cmis.held

def execDownHoldoffExpiry (lport cc : Nat) (s : State) : Host.Outcome State Fault Refusal :=
  .next (let s := s.at cc
    let x := s.sub lport
    if x.state = .down && x.attempts < 8 && !s.heldDown lport && x.since + 1875000 ≤ s.now then s.train lport else s)

/-! ### Units that arrive (R296, R302) -/

/-- A unit reaches the receiver of a PLP sub-port. One whose CRC fails is discarded and counted, and NAKed on a link that is UP. -/
def State.unitIn (s : State) (l : Nat) (u : LinkUnit) : Option WireUnit × State :=
  let x := s.sub l
  if (x.state ≠ .ident && x.state ≠ .up) || x.cfg.mode = .ethernet then (none, s)
  else
    let s := s.fecIn l u.corr u.uncorr
    match parseUnit u.bytes with
    | some w => (some w, s)
    | none =>
      let s := s.countSub l cntCrc
      (none, if x.state = .up then s.onSub l (fun x => { x with nakOut := true, nakDue := true }) else s)

/-! ### Identity (R307) -/

def execLinkIdSend (lport cc : Nat) (s : State) : Host.Outcome State Fault Refusal :=
  .next (let s := s.at cc
    let x := s.sub lport
    let due := match x.lastId with
      | none => true
      | some c => decide (c + 1875 ≤ s.now)
    if x.state ≠ .ident || !due then s
    else
      let s := (s.emit (.unit lport (WireUnit.bytes ⟨2, 0, 0, (s.ownId lport).bytes⟩))).onSub lport (fun x => { x with lastId := some s.now })
      if !x.valid then s
      else
        let s := s.onSub lport (fun x => { x with idsLeft := x.idsLeft - 1 })
        if x.idsLeft ≤ 1 then s.enterUp lport else s)

/-- The identity is not what the sub-port's mode expects. -/
def miswired (x : SubPort) (id : LinkId) : Bool :=
  if x.cfg.mode = .switch then id.role ≠ 1 || (x.cfg.expectPrefix ≠ 0 && id.pfx ≠ x.cfg.expectPrefix)
  else id.role ≠ 2

/-- A LINK_ID on a sub-port in IDENT. -/
def State.takeLinkId (s : State) (l : Nat) (id : LinkId) : State :=
  let x := s.sub l
  if id.version ≠ 1 then s.failAttempt l failVersion
  else
    let s := s.onSub l (fun x => { x with partner := some id, valid := true })
    if miswired x id then
      (s.failAttempt l failWired .miswired).notify .miswired .ok x.cfg.part l id.role (.region (lportRegion l))
    else s

def execLinkIdReceive (lport : Nat) (u : LinkUnit) (s : State) : Host.Outcome State Fault Refusal :=
  .next (match s.unitIn lport u with
    | (some w, s) => if (s.sub lport).state = .ident && w.kind = 2 then s.takeLinkId lport (linkIdOf w.body) else s
    | (none, s) => s)

def execIdentTimeout (lport cc : Nat) (s : State) : Host.Outcome State Fault Refusal :=
  .next (let s := s.at cc
    let x := s.sub lport
    if x.state = .ident && !x.valid && x.since + 18750000 ≤ s.now then s.failAttempt lport failIdent else s)

/-! ### Loss (R303) -/

def execAlignmentLoss (lport cc : Nat) (s : State) : Host.Outcome State Fault Refusal :=
  .next (let s := s.at cc
    match (s.sub lport).state with
    | .up => s.loseLink lport failAlign
    | .ident => s.failAttempt lport failAlign
    | _ => s)

def execNoGoodUnitTimeout (lport cc : Nat) (s : State) : Host.Outcome State Fault Refusal :=
  .next (let s := s.at cc
    let x := s.sub lport
    if x.state = .up && x.cfg.mode ≠ .ethernet && x.lastGood + 1024 ≤ s.now then s.loseLink lport failUnit else s)

/-! ### Link units (R299 to R303) -/

/-- What is left of a replay list once everything up to a number is acknowledged. -/
def ackedUpTo (ack : Nat) (l : List (Nat × List Byte)) : List (Nat × List Byte) :=
  if l.any (fun e => e.1 = ack) then (l.dropWhile (fun e => e.1 ≠ ack)).drop 1 else l

/-- The partitions that a sub-port carries traffic of: its own, and those of units to be sent again (R175). -/
def SubPort.carried (x : SubPort) (seqs : List Nat) : List Nat :=
  x.cfg.part.toList ++ (x.carries.filter (fun e => seqs.contains e.1)).map (·.2)

/-- The partitions of the packets that are on their way out through a sub-port. -/
def State.carriedAt (s : State) (l : Nat) : List Nat :=
  (s.fab.loads.filter (fun e => e.2.outs.contains (.sub l))).filterMap (fun e => e.2.part)

/-- LINK_CTRL from its body (R301): acknowledgement, NAK, the running total of a VC. -/
def State.takeLinkCtl (s : State) (l : Nat) (w : Word) : State :=
  let x := s.sub l
  let ack := bits w 11 0
  let nak := bit w 12
  let vc := bits w 19 16
  let total := bits w 35 20
  let gain := (total + 65536 - nth x.totals vc 0) % 65536
  let left := ackedUpTo ack x.replay
  let s := s.setSub l { x with
    lastGood := s.now, replay := left, resend := if nak then left else ackedUpTo ack x.resend,
    totals := x.totals.set vc total, granted := x.granted.modify vc (· + gain) }
  if nak && !left.isEmpty then (s.countSub l cntRetry).drift 7 (x.carried (left.map (·.1)) ++ s.carriedAt l).eraseDups else s

def execLinkCtrlReceive (lport : Nat) (bytes : List Byte) (corr uncorr : Nat) (s : State) : Host.Outcome State Fault Refusal :=
  .next (match s.unitIn lport ⟨bytes, corr, uncorr⟩ with
    | (some w, s) => if (s.sub lport).state = .up && w.kind = 1 then s.takeLinkCtl lport (nth (leWords 1 w.body) 0 0) else s
    | (none, s) => s)

/-- A control packet takes its place in the device. -/
def State.takeCtrl (s : State) (l : Nat) (p : Packet) : State :=
  if (s.sub l).cfg.mode = .switch then s.enterFabric { line := lportLine l, inPort := some l, part := (s.sub l).cfg.part, credit := 1 } p
  else s.onSub l (fun x => { x with ingress := x.ingress ++ [p] })

/-- A data packet that was stored whole takes its place in the device; that of an accelerator waits for its source edge (R308, R313). -/
def State.takeWhole (s : State) (l : Nat) (p : Packet) : State :=
  if (s.sub l).cfg.mode = .switch then
    let (q, s) := s.dequantise l p
    s.enterFabric { line := lportLine l, inPort := some l, part := (s.sub l).cfg.part, credit := p.credits } q
  else s.onSub l (fun x => { x with ingress := x.ingress ++ [p] })

/-- A packet that its edge handles whole: one that it dequantises, and of an accelerator a Sheet request or a submission (R308, R313). -/
def State.heldWhole (s : State) (l : Nat) (p : Packet) : Bool :=
  (s.dequantProfile l p).isSome || ((s.sub l).cfg.mode ≠ .switch && (p.ulp = ulpSheet || p.ulp = ulpColl))

/-- A HEAD in order (R297, R299, R344): its packet enters Traverse, or the ingress of its accelerator's edge, with its header cell alone,
or is stored until it is whole. A packet whose payload does not fit is dropped, flit by flit. -/
def State.takeHead (s : State) (l : Nat) (p : Packet) : State :=
  let s := s.rxEnd l
  let x := s.sub l
  let began := fun (s : State) (load : Option Nat) (keep : Bool) => s.onSub l (fun x => { x with rx := some { load := load, keep := keep, pkt := p } })
  if p.bytes = 0 || 4096 < p.bytes || 256 * p.flits < p.bytes then began ((s.drop l dropLength).creditBack (some l) p.vc 1) none false
  else if s.heldWhole l p then began s none true
  else if x.cfg.mode = .switch then
    let id := s.fab.next
    let s := s.enterFabric { line := lportLine l, inPort := some l, part := x.cfg.part, credit := 1, here := some 1 } p
    began s (s.cameIn l id) false
  else s.onSub l (fun x => { x with ingress := x.ingress ++ [p], rx := some { pkt := p, edge := true } })

/-- A DATA unit in order: the next flit of the packet that is arriving; one without a HEAD is dropped. -/
def State.takeData (s : State) (l vc : Nat) (body : List Byte) : State :=
  match (s.sub l).rx with
  | none => (s.drop l dropLength).creditBack (some l) vc 4
  | some r =>
    let bytes := body.take (min 256 (r.pkt.bytes - 256 * r.got))
    let last := decide (r.got + 1 = r.pkt.flits)
    let p := if r.keep then { r.pkt with payload := r.pkt.payload ++ bytes } else r.pkt
    let s := s.onSub l (fun x => { x with rx := if last then none else some { r with got := r.got + 1, pkt := p } })
    let s := match r.copy with
      | some c => s.copyData l c bytes last
      | none => s
    if r.edge then s.onSub l (fun x => { x with
      ingress := (adjFirst (·.isData) (fun (q : Packet) => { q with payload := q.payload ++ bytes }) x.ingress.reverse).reverse })
    else match r.load, r.keep with
    | some id, _ => if (s.load id).isSome then s.cellArrive id (r.got + 1) bytes else s.creditBack (some l) p.vc 4
    | none, true => if last then s.takeWhole l p else s
    | none, false => s.creditBack (some l) p.vc 4

/-- A CTRL, HEAD or DATA unit arrives: the one expected takes its place in the device, after any other one NAK goes out (R302). A
fenced sub-port discards it (R527). -/
def execSequencedUnitReceive (lport : Nat) (u : LinkUnit) (s : State) : Host.Outcome State Fault Refusal :=
  .next (match s.unitIn lport u with
    | (none, s) => s
    | (some w, s) =>
      if (s.sub lport).state ≠ .up || !([3, 4, 5].contains w.kind) then s
      else
        let s := s.onSub lport (fun x => { x with lastGood := s.now })
        if w.lseq ≠ (s.sub lport).rxNext then
          if (s.sub lport).nakOut then s else s.onSub lport (fun x => { x with nakOut := true, nakDue := true })
        else
          let s := s.onSub lport (fun x => { x with rxNext := (x.rxNext + 1) % 4096, nakOut := false, ackDue := true })
          if w.kind = 3 then s.takeCtrl lport w.packet
          else if w.kind = 4 then s.takeHead lport w.packet
          else s.takeData lport w.vc w.body)

end Sys2Proof.Machine
end

