-- ==== Sys2Proof/Machine/Cmis.lean ====
section
/-! DEFINITION. Module identity over CMIS (R325, R326). -/

namespace Sys2Proof.Machine

def State.setCmis (s : State) (port : Nat) (c : Cmis) : State := s.setPort port { s.port port with cmis := c }

/-- A page of 256 bytes, the lower page first, as bank and page select it. -/
def Cmis.page (c : Cmis) (bank page : Nat) : Option (List Byte) := c.pages.look (256 * bank + page)

/-- Holds a sub-port in DOWN (R326; FAIL_CAUSE is log 63). -/
def State.cmisHoldSub (s : State) (l : Nat) : State :=
  let s := s.onSub l (fun x => { x with held := true })
  match (s.sub l).state with
  | .up => ((s.leaveUp l .down failCommand).progress 0x0302 l).scanLost
  | .training | .ident | .miswired =>
    (s.onSub l (fun x => { x with state := .down, cause := failCommand, since := s.now, fecLock := false, lanes := 0 })).progress 0x0302 l
  | _ => s

/-- The bus does not acknowledge: a notice, and the port's sub-ports are held in DOWN until the next presence change. -/
def State.cmisSilent (s : State) (port : Nat) : State :=
  let s := s.setCmis port { (s.port port).cmis with ack := false, held := true }
  (s.enabledSubs port).foldl State.cmisHoldSub (s.notify .cmisTimeout .timeout none port 0 (.region (port / 4)))

/-- A presence change ends the hold and starts the reading of the pages the module advertises. -/
def execCmisPresence (port : Nat) (present ack : Bool) (pages : List (Nat × Nat × List Byte)) (cc : Nat) (s : State) : Host.Outcome State Fault Refusal :=
  .next (let s := s.at cc
    if 128 ≤ port then s
    else
      let read : SMap (List Byte) := if present && ack then pages.foldl (fun m e => SMap.put m (256 * e.2.1 + e.1) (padTo 256 0 e.2.2)) [] else []
      let s := s.setCmis port { present := present, pages := read, polled := s.now, ack := true, held := false }
      let s := ((List.range 8).map (8 * port + ·)).foldl (fun s l => s.onSub l (fun x => { x with held := false })) s
      if present && !ack then s.cmisSilent port else s)

/-- The lane flags and monitors of pages 10h and 11h, bank 0, are read. -/
def State.cmisRead (s : State) (port : Nat) (ack : Bool) (page10 page11 : List Byte) : State :=
  let c := (s.port port).cmis
  if !ack then s.cmisSilent port
  else
    let low := padTo 128 0 ((c.page 0 0).getD [])
    s.setCmis port { c with polled := s.now, pages := (c.pages.put 0x10 (low ++ padTo 128 0 page10)).put 0x11 (low ++ padTo 128 0 page11) }

def execCmisPoll (port : Nat) (ack : Bool) (page10 page11 : List Byte) (cc : Nat) (s : State) : Host.Outcome State Fault Refusal :=
  .next (let s := s.at cc
    let c := (s.port port).cmis
    if port < 128 && c.present && !c.held && c.polled + 1875000000 ≤ s.now then s.cmisRead port ack page10 page11 else s)

def execCmisInterrupt (port : Nat) (ack : Bool) (page10 page11 : List Byte) (cc : Nat) (s : State) : Host.Outcome State Fault Refusal :=
  .next (let s := s.at cc
    let c := (s.port port).cmis
    if port < 128 && c.present && !c.held then s.cmisRead port ack page10 page11 else s)

def execPortCmisRead (k : Kci) (port bank page offset len : Nat) (s : State) : Host.Outcome State Fault Refusal :=
  .next (kciRun 0x0305 k s (fun s =>
    KRes.check s [k.denied, (128 ≤ port || len = 0 || 128 < len || 256 < offset + len, .badOperand), (!(s.port port).cmis.present, .notPresent)]
      (fun _ =>
        let c := (s.port port).cmis
        if !c.ack then { st := s.cmisSilent port, status := .timeout }
        else match c.page bank page with
          | none => .fail s .accessDenied
          | some bs => { st := s, result := leWords (ceilDiv len 8) (padTo (8 * ceilDiv len 8) 0 ((bs.drop offset).take len)) }))
    (records := false) (regions := [port / 4]))

end Sys2Proof.Machine
end

