-- ==== Sys2Proof/Machine/Compass.lean ====
section
/-! DEFINITION. Compass: rings and mailbox, completions, identity, PTP, the management port, resets of functions, surveyors (R27, R461 to R485). -/

namespace Sys2Proof.Machine

/-! ### What the functions report (R461, R462) -/

/-- Class code, device ID of a function, and the vendor ID that PCI-SIG assigned, which the spec does not give. -/
def pciClass : Nat := 0x120000
def pciDevice (f : Nat) : Nat := if f = 0 then 0x2480 else 0x2481
def pciVendor : BitVec 16 := Config.pciVendor

/-- What the PCIe capabilities report: the largest Max_Payload_Size and Max_Read_Request_Size in bytes; 10-bit tags, AER, Function Level
Reset and MSI-X are supported, INTx, MSI, ATS, PRI, PASID and peer-to-peer access are not. No command reads or sets the configuration
space, and no rule gives these a further effect on the model's state (log 77). -/
def pciMaxPayload : Nat := 512
def pciMaxReadRequest : Nat := 4096
def pciSupports : List (String × Bool) :=
  [("10-bit tags", true), ("AER", true), ("FLR", true), ("MSI-X", true), ("INTx", false), ("MSI", false), ("ATS", false), ("PRI", false),
   ("PASID", false), ("peer-to-peer", false)]

/-- The SR-IOV capability of the PF: TotalVFs, First VF Offset, VF Stride. -/
def sriov : Nat × Nat × Nat := (64, 1, 1)

/-- BAR size in bytes and MSI-X vectors of a function. -/
def barSize (f : Nat) : Nat := if f = 0 then 0x10000000 else 0x1000000
def msixVectors (f : Nat) : Nat := if f = 0 then 1024 else 16

/-! ### Rings and doorbells -/

/-- The partition a notice about a function's own access concerns. -/
def fnPart (f : Nat) : Option Nat := if f = 0 then none else some (f - 1)

/-- Ring commands of a function in flight (R470). -/
def State.ringInflight (s : State) (src : Source) : Nat :=
  (s.cmp.inflight.filter (fun r => r.src = src && !r.mbox)).length

def ringBase (w : Word) : Nat := bits w 63 12 * 4096
def ringLog (w : Word) : Nat := bits w 4 0

/-- KCI_RINGS_SET (R475). -/
def execKciRingsSet (k : Kci) (cmdRing evtRing vector : Word) (s : State) : Host.Outcome State Fault Refusal :=
  .next (kciRun 0x0201 k s (fun s =>
    let f := k.src.fnIdx
    let x := s.fn f
    KRes.check s
      [(!k.mbox || k.src = .mgmt, .badOperand), (0 < s.ringInflight k.src, .partState)] (fun _ =>
      if ringLog cmdRing = 0 || ringLog evtRing = 0 then
        { st := s.setFn f { x with rings := false, cmdBase := 0, cmdLog := 0, evtBase := 0, evtLog := 0, evtVector := 0,
                                   held := if f = 0 then x.held else [], lost := if f = 0 then x.lost else 0 } }
      else
        KRes.check s
          [(ringLog cmdRing < 6 || 16 < ringLog cmdRing, .badOperand), (ringLog evtRing < 7 || 16 < ringLog evtRing, .badOperand),
           (msixVectors f ≤ bits vector 9 0, .badOperand),
           (bits cmdRing 11 5 ≠ 0 || bits evtRing 11 5 ≠ 0 || bits vector 63 10 ≠ 0, .badOperand)] (fun _ =>
          { st := (s.setFn f { x with rings := true, cmdBase := ringBase cmdRing, cmdLog := ringLog cmdRing,
                                      evtBase := ringBase evtRing, evtLog := ringLog evtRing, evtVector := bits vector 9 0,
                                      cmdTail := 0, cmdHead := 0, evtTail := 0, evtHead := 0 }).flushNotices 257 f })))
    (records := false))

/-- CMD_DOORBELL (R467). -/
def State.cmdDoorbell (s : State) (f : Nat) (v : Word) : State :=
  let x := s.fn f
  let t := bits v 16 0
  if !x.rings || 2 ^ x.cmdLog < ringUsed t x.cmdHead then s.accessError 0x18 (fnPart f)
  else s.setFn f { x with cmdTail := t }

def execCmdDoorbell (f : Nat) (v : Word) (s : State) : Host.Outcome State Fault Refusal := .next (s.cmdDoorbell f v)

/-- EVT_HEAD_WRITE (R467, R473): frees slots, and held notices then enter. -/
def State.evtHeadWrite (s : State) (f : Nat) (v : Word) : State :=
  let x := s.fn f
  let h := bits v 16 0
  if !x.rings || ringUsed x.evtTail x.evtHead < ringUsed x.evtTail h then s.accessError 0x30 (fnPart f)
  else (s.setFn f { x with evtHead := h }).flushNotices 257 f

def execEvtHeadWrite (f : Nat) (v : Word) (s : State) : Host.Outcome State Fault Refusal := .next (s.evtHeadWrite f v)

/-- MBOX_GO (R474). -/
def State.mboxGo (s : State) (f : Nat) (v : Word) : State :=
  let x := s.fn f
  if !bit v 0 then s
  else if x.mboxBusy then s.accessError 0x80 (fnPart f)
  else s.setFn f { x with mboxGo := true, mboxBusy := true }

def execMboxGo (f : Nat) (v : Word) (s : State) : Host.Outcome State Fault Refusal := .next (s.mboxGo f v)

/-! ### Completions (R470 to R474, R482) -/

/-- The completion entry of a command (R472), PHASE zero. -/
def InFlight.entry (r : InFlight) : EventWords :=
  wd (flag 2 r.dup + put 15 8 r.status.code + put 31 16 r.tag.toNat + put 47 32 r.opcode) :: padTo 3 0 r.result

/-- Removes the first record that satisfies p. -/
def dropFirst {α : Type} (p : α → Bool) : List α → List α
  | [] => []
  | x :: xs => if p x then xs else x :: dropFirst p xs

/-- The management response: sent to the request's source, and kept (R482). -/
def State.mgmtRespond (s : State) (r : InFlight) : State :=
  let m := s.cmp.mgmt
  match m.key, m.requests.find? (fun q => q.seq = r.seq && q.response.isNone) with
  | some key, some q =>
    let bytes := mgmtDatagram key q.seq (wordBytes r.entry)
    let s := { s with cmp := { s.cmp with mgmt := { m with requests := (
      adjFirst (fun q => q.seq = r.seq && q.response.isNone) (fun q => { q with response := some bytes }) m.requests) } } }
    s.emit (.mgmt q.dest.1 q.dest.2 bytes)
  | _, _ => s

/-- Whether the command's Itinerary record still has to be appended. -/
def InFlight.owesItin (r : InFlight) : Bool := r.itin.isSome && !r.recorded

/-- The record that COMMAND_COMPLETE names: done, of this source, path and tag. -/
def InFlight.isDone (src : Source) (mbox : Bool) (tag : BitVec 16) (r : InFlight) : Bool :=
  r.sameTag src tag && r.mbox = mbox && r.stage = .done

/-- The part of a command's record: a VF's own partition, otherwise PART (R468, R504). -/
def InFlight.acts (r : InFlight) : Option Nat :=
  match r.src with
  | .vf v => some (v - 1)
  | _ => r.part

/-- COMMAND_COMPLETE (R470 to R472, R509): appends the Itinerary record and writes the completion entry. A full event ring, a
ring of entries not yet durable, or, before an immediate completion, an earlier one of the same source or an earlier command of it that
has not run makes it wait: no effect. -/
def State.commandComplete (s : State) (src : Source) (mbox : Bool) (tag : BitVec 16) : State :=
  match s.cmp.inflight.find? (InFlight.isDone src mbox tag) with
  | none => s
  | some r =>
    let f := src.fnIdx
    let x := s.fn f
    let ring := !mbox && src ≠ .mgmt
    let earlier := s.cmp.inflight.takeWhile (fun q => !InFlight.isDone src mbox tag q)
    let waits := s.cmp.state ≠ .ready ||
      (ring && x.rings && !r.discard && x.evtFull) ||
      (r.immediate && earlier.any (fun q => q.src = src && (q.stage = .waiting || (q.immediate && q.stage = .done)))) ||
      (r.owesItin && s.ringFull)
    if waits then s
    else
      let s := match r.itin, r.recorded with
        | some conts, false => s.itinCommand r.opcode r.acts src.code r.status r.words conts
        | _, _ => s
      let s := s.setInflight (dropFirst (InFlight.isDone src mbox tag) s.cmp.inflight)
      match src with
      | .mgmt => s.mgmtRespond r
      | _ =>
        let x := s.fn f
        if mbox then s.setFn f { x with mboxBusy := false, mboxResp := if r.discard then x.mboxResp else r.entry }
        else if r.discard || !x.rings then s
        else s.postEvent f r.entry

def execCommandComplete (src : Source) (mbox : Bool) (tag : BitVec 16) (s : State) : Host.Outcome State Fault Refusal :=
  .next (s.commandComplete src mbox tag)

/-- MSIX_DEFERRED (R473). -/
def State.msixDeferred (s : State) (f vector cc : Nat) : State :=
  let s := s.at cc
  let x := s.fn f
  if x.msixWait.contains vector && x.lastMsix.lookD vector 0 + 1875 ≤ cc then
    (s.setFn f { x with msixWait := x.msixWait.filter (· ≠ vector), lastMsix := x.lastMsix.put vector cc }).emit (.msix f vector)
  else s

def execMsixDeferred (f vector cc : Nat) (s : State) : Host.Outcome State Fault Refusal := .next (s.msixDeferred f vector cc)

/-! ### Identity (R2, R485) -/

/-- MODULE_IDENTITY (R485): part number, build code and serial number; zeros after a failed digest. -/
def execModuleIdentity (k : Kci) (s : State) : Host.Outcome State Fault Refusal :=
  .next (kciRun 0x0101 k s (fun s =>
    let bytes := if s.cmp.idFault then List.replicate 34 0 else s.partNumber ++ s.buildCode ++ s.serial
    { st := s, result := leWords 5 (padTo 40 0 bytes) }) (records := false))

/-- IDMEM_READ (R485). -/
def execIdmemRead (k : Kci) (source offset len dest : Nat) (s : State) : Host.Outcome State Fault Refusal :=
  .next (kciRun 0x0102 k s (fun s =>
    KRes.check s [k.denied, (1 < source || len = 0 || 256 < len, .badOperand),
        ((if source = 0 then 8192 else 256) < offset + len, .addrRange)] (fun _ =>
      { st := s.putHost k dest ((if source = 0 then s.cmp.eeprom else s.cmp.coldPlate).readN offset len) }))
    (records := false))

/-! ### PTP (R483) -/

def PtpState.code : PtpState → Nat
  | .disabled => 0
  | .acquiring => 1
  | .locked => 2
  | .holdover => 3

/-- Sets CMP_PTP_STATUS.STATE; a change raises PTP_STATE. -/
def State.ptpGo (s : State) (st : PtpState) : State :=
  if s.cmp.ptp.state = st then s
  else
    let t := s.ptpTime
    { s with cmp := { s.cmp with ptp := { s.cmp.ptp with state := st, good := 0, since := s.now, time := t, setAt := s.now } } }.notify
      .ptpState .ok none st.code 0

/-- PTP_SET (R483). -/
def execPtpSet (k : Kci) (enable : Bool) (domain : Nat) (s : State) : Host.Outcome State Fault Refusal :=
  .next (kciRun 0x0232 k s (fun s =>
    KRes.check s [k.denied, (127 < domain, .badOperand)] (fun _ =>
      let s := { s with cmp := { s.cmp with ptp := { s.cmp.ptp with domain := domain } } }
      { st := if !enable then s.ptpGo .disabled else if s.cmp.ptp.state = .disabled then s.ptpGo .acquiring else s }))
    (records := false) (conf := true) (key := 0))

/-- TIME_QUERY (R483): the pair and STATE. -/
def execTimeQuery (k : Kci) (s : State) : Host.Outcome State Fault Refusal :=
  .next (kciRun 0x0233 k s (fun s =>
    { st := s, result := [wd s.cmp.ptp.pairTb, wd s.cmp.ptp.pairPtp, wd s.cmp.ptp.state.code] }) (records := false))

/-- PTP_MESSAGE_RECEIVE (R483): the offset is measured and taken off; 16 in a row within ±1 µs lock. -/
def State.ptpMessage (s : State) (offset : Int) (cc : Nat) : State :=
  let s := s.at cc
  let p := s.cmp.ptp
  if p.state = .disabled then s
  else
    let good := if offset.natAbs ≤ 1000 then p.good + 1 else 0
    let t := ((s.ptpTime : Int) - offset).toNat
    let s := { s with cmp := { s.cmp with ptp := { p with offset := offset, good := good, time := t, setAt := s.now } } }
    if 16 ≤ good then s.ptpGo .locked else s

def execPtpMessageReceive (offset : Int) (cc : Nat) (s : State) : Host.Outcome State Fault Refusal := .next (s.ptpMessage offset cc)

/-- PTP_SYNC_MISSING (R483). -/
def State.ptpMissing (s : State) (cc : Nat) : State :=
  let s := s.at cc
  if s.cmp.ptp.state = .disabled then s else s.ptpGo .holdover

def execPtpSyncMissing (cc : Nat) (s : State) : Host.Outcome State Fault Refusal := .next (s.ptpMissing cc)

/-- PTP_HOLDOVER_TIMEOUT (R483): 60 s in HOLDOVER. -/
def State.ptpHoldover (s : State) (cc : Nat) : State :=
  let s := s.at cc
  if s.cmp.ptp.state = .holdover && s.cmp.ptp.since + 60 * 1875000000 ≤ cc then s.ptpGo .acquiring else s

def execPtpHoldoverTimeout (cc : Nat) (s : State) : Host.Outcome State Fault Refusal := .next (s.ptpHoldover cc)

/-- PTP_SECOND_LATCH (R483): in the cycle of a PTP second boundary. -/
def State.ptpLatch (s : State) (cc : Nat) : State :=
  let s := s.at cc
  if s.cmp.ptp.state ≠ .disabled && s.ptpTime % 1000000000 = 0 then
    { s with cmp := { s.cmp with ptp := { s.cmp.ptp with pairTb := s.timebase, pairPtp := s.ptpTime } } }
  else s

def execPtpSecondLatch (cc : Nat) (s : State) : Host.Outcome State Fault Refusal := .next (s.ptpLatch cc)

/-! ### The management port (R482) -/

/-- MGMT_PORT_SET (R482). -/
def execMgmtPortSet (k : Kci) (addr pfxLen udpPort : Nat) (permitted : List Nat) (notices : Option (Nat × Nat)) (s : State) :
    Host.Outcome State Fault Refusal :=
  .next (kciRun 0x0230 k s (fun s =>
    KRes.check s [k.denied, (8 < permitted.length || 128 < pfxLen || 65535 < udpPort, .badOperand)] (fun _ =>
      { st := { s with cmp := { s.cmp with mgmt := { s.cmp.mgmt with
          addr := addr, pfxLen := pfxLen, udpPort := udpPort, permitted := permitted, notices := notices, portSet := true } } } }))
    (records := false) (conf := true) (key := 0))

/-- MGMT_KEY_SET (R482). -/
def execMgmtKeySet (k : Kci) (key : List Byte) (s : State) : Host.Outcome State Fault Refusal :=
  .next (kciRun 0x0231 k s (fun s =>
    KRes.check s [k.denied, (key.length ≠ 32, .badOperand), (s.atl.wiping, .tampered)] (fun _ =>
      { st := { s with cmp := { s.cmp with mgmt := { s.cmp.mgmt with key := some key } } } })) (records := false))

/-- A dropped datagram: counted, and the first in each second raises MGMT_DROP (R482). -/
def State.mgmtDrop (s : State) (srcAddr : Nat) : State :=
  let first := match s.cmp.mgmt.lastDrop with
    | some c => decide (c + 1875000000 ≤ s.now)
    | none => true
  let s := { s with cmp := { s.cmp with mgmtDrops := satInc s.cmp.mgmtDrops } }.tally 0x140
  if first then
    { s with cmp := { s.cmp with mgmt := { s.cmp.mgmt with lastDrop := some s.now } } }.notify .mgmtDrop .ok none srcAddr s.cmp.mgmtDrops
  else s

/-- MGMT_DATAGRAM (R482): SEQ, descriptor, tag. A repeated accepted request gets its stored response again. -/
def State.mgmtDatagramIn (s : State) (srcAddr srcPort : Nat) (bytes : List Byte) : State :=
  let m := s.cmp.mgmt
  match m.key with
  | none => s
  | some key =>
    if !m.portSet || s.cmp.state = .failed then s
    else if !m.permitted.contains srcAddr || bytes.length ≠ 88 then s.mgmtDrop srcAddr
    else if kmac256 key (bytes.take 72) 16 "KCI-MGMT" ≠ bytes.drop 72 then s.mgmtDrop srcAddr
    else
      let seq := ofLe (bytes.take 8)
      match m.requests.find? (fun q => q.seq = seq && q.request = bytes) with
      | some q => match q.response with
        | some r => s.emit (.mgmt srcAddr srcPort r)
        | none => s
      | none =>
        if (match m.lastSeq with
            | some l => decide (seq ≤ l)
            | none => false) then s.mgmtDrop srcAddr
        else
          let words := leWords 8 ((bytes.drop 8).take 64)
          let req : MgmtResp := ⟨seq, bytes, BitVec.ofNat 16 (bits (nth words 0 0) 31 16), (srcAddr, srcPort), none⟩
          let reqs := m.requests ++ [req]
          { s with cmp := { s.cmp with
              mgmt := { m with lastSeq := some seq, requests := reqs.drop (reqs.length - 4096) },
              mgmtQueue := s.cmp.mgmtQueue ++ [(seq, words)] } }

def execMgmtDatagram (srcAddr srcPort : Nat) (bytes : List Byte) (s : State) : Host.Outcome State Fault Refusal :=
  .next (s.mgmtDatagramIn srcAddr srcPort bytes)

/-! ### Function and host-link resets (R461, R463) -/

/-- What a Function Level Reset does to one function (R463). A descriptor stops with the turn of 4 KiB that is out. The reset lasts until
the block next idles (log 25). -/
def State.resetFn (s : State) (f : Nat) : State :=
  let x := s.fn f
  let s := s.setFn f { x with rings := false, inFlr := true, cmdBase := 0, cmdLog := 0, evtBase := 0, evtLog := 0, evtVector := 0,
                              cmdTail := 0, cmdHead := 0, evtTail := 0, evtHead := 0,
                              held := if f = 0 then x.held else [], lost := if f = 0 then x.lost else 0 }
  let s := s.setInflight (s.cmp.inflight.map (fun r => if r.src ≠ .mgmt && r.src.fnIdx = f then { r with discard := true } else r))
  { s with cmp := { s.cmp with dmaq := s.cmp.dmaq.map (fun e =>
      if e.2.part.isSome && e.2.fn = f then (e.1, { e.2 with state := .disabled, cur := if e.2.waits.isEmpty then none else e.2.cur }) else e) } }

/-- The Function Level Resets in progress end. -/
def State.flrEnds (s : State) : State :=
  { s with cmp := { s.cmp with fns := s.cmp.fns.map (fun e => (e.1, { e.2 with inFlr := false })) } }

/-- FUNCTION_LEVEL_RESET (R463). -/
def execFunctionLevelReset (f : Nat) (s : State) : Host.Outcome State Fault Refusal := .next (s.resetFn f)

/-- HOST_LINK_DOWN (R463): every function as under a Function Level Reset, and an Itinerary entry (log 25). -/
def State.hostLinkDown (s : State) : State :=
  let s := (List.range 65).foldl State.resetFn s
  { s with cmp := { s.cmp with linkUp := false } }.itinEvent 0x000C none .ok (leBytes 8 (2 ^ 64 - 1) ++ leBytes 8 0)

def execHostLinkDown (s : State) : Host.Outcome State Fault Refusal := .next s.hostLinkDown

/-- HOST_LINK_UP (R461). -/
def execHostLinkUp (gen5 : Bool) (s : State) : Host.Outcome State Fault Refusal :=
  .next { s with cmp := { s.cmp with linkUp := true, gen5 := gen5 } }

/-! ### Surveyors (R27, R28) -/

/-- REGION_SURVEYOR_RESTART (R27). -/
def State.regionRestart (s : State) (d r cc : Nat) : State :=
  let s := s.at cc
  let i := 8 * d + r
  let q := s.lay.region.lookD i {}
  if q.restarting then s
  else
    { s with lay := { s.lay with region := s.lay.region.put i { q with restarting := true, since := cc } } }.notifyRecorded
      .surveyorRestart .ok none i 0 (.die d)

def execRegionSurveyorRestart (d r cc : Nat) (s : State) : Host.Outcome State Fault Refusal := .next (s.regionRestart d r cc)

/-- QUADRANT_SURVEYOR_RESTART (R27): SUBJECT 32 + die (log 26). -/
def State.quadRestart (s : State) (d cc : Nat) : State :=
  let s := s.at cc
  let q := s.lay.quad.lookD d {}
  if q.restarting then s
  else
    { s with lay := { s.lay with quad := s.lay.quad.put d { q with restarting := true, since := cc } } }.notifyRecorded
      .surveyorRestart .ok none (32 + d) 0

def execQuadrantSurveyorRestart (d cc : Nat) (s : State) : Host.Outcome State Fault Refusal := .next (s.quadRestart d cc)

/-- Delivers what a surveyor held: one overflow notice with the number lost, then the notices in order (R27). -/
def State.deliverHeld (s : State) (o : Origin) (subject : Nat) (q : Surveyor) : State :=
  let s := if 0 < q.lost then s.sendUp o (noticeWords .noticeOverflow .ok none subject q.lost s.timebase) else s
  q.held.foldl (fun s ws => s.sendUp o ws) s

/-- A Quadrant Surveyor delivers its queue once it runs and Compass takes notices (R27, R29). -/
def State.quadFlush (s : State) (d : Nat) : State :=
  let q := s.lay.quad.lookD d {}
  if q.restarting || s.compassDeaf || (q.held.isEmpty && q.lost = 0) then s
  else { s with lay := { s.lay with quad := s.lay.quad.put d {} } }.deliverHeld .hub (32 + d) q

/-- SURVEYOR_RESTART_DONE (R27, R28). -/
def State.surveyorDone (s : State) (d : Nat) (region : Option Nat) : State :=
  match region with
  | some r =>
    let i := 8 * d + r
    let q := s.lay.region.lookD i {}
    if !q.restarting then s
    else
      let s := { s with lay := { s.lay with region := s.lay.region.put i {} } }
      (s.deliverHeld (.die d) i q)
  | none =>
    let q := s.lay.quad.lookD d {}
    if !q.restarting then s
    else
      { s with lay := { s.lay with quad := s.lay.quad.put d { q with restarting := false, since := 0 } } }.quadFlush d

def execSurveyorRestartDone (d : Nat) (region : Option Nat) (s : State) : Host.Outcome State Fault Refusal :=
  .next (s.surveyorDone d region)

/-! ### Bridge retries (R175) -/

def BridgeKey : BridgeId → Nat
  | .die a b => 4 * min a b + max a b
  | .hub d => 16 + d

/-- BRIDGE_RETRY (R175): the flit is repeated; delayed Datum traffic counts cause 8. -/
def State.bridgeRetry (s : State) (b : BridgeId) (parts : List Nat) : State :=
  let i := BridgeKey b
  { s with lay := { s.lay with bridges := s.lay.bridges.upd i {} (fun x => { x with retries := satInc x.retries }) } }.drift 8 parts

def execBridgeRetry (b : BridgeId) (parts : List Nat) (s : State) : Host.Outcome State Fault Refusal := .next (s.bridgeRetry b parts)

/-! ### Descriptor queues: configuration and doorbell (R480) -/

/-- DMAQ_SET (R480). -/
def execDmaqSet (k : Kci) (q base log vector : Nat) (enable : Bool) (s : State) : Host.Outcome State Fault Refusal :=
  .next (kciRun 0x0208 k s (fun s =>
    let x := s.cmp.dmaq.lookD q {}
    let f := k.src.fnIdx
    KRes.check s
      [(16384 ≤ q || base % 4096 ≠ 0 || log < 4 || 16 < log || msixVectors f ≤ vector, .badOperand),
       (k.acts.isNone || x.part ≠ k.acts, .partState)] (fun _ =>
      let y := if x.state = .stopped then x else { x with head := 0, tail := 0, skip := [] }
      let y := { y with fn := f, base := base, log := log, vector := vector, cur := none, waits := [], st := .ok,
                        state := if !enable then .disabled else if y.head = y.tail then .idle else .active }
      { st := { s with cmp := { s.cmp with dmaq := s.cmp.dmaq.put q y } } }))
    (records := false) (conf := true))

/-- DMAQ_DOORBELL (R465, R467, R480). -/
def State.dmaqDoorbell (s : State) (f q : Nat) (v : Word) : State :=
  let x := s.cmp.dmaq.lookD q {}
  let t := bits v 16 0
  let off := (if f = 0 then 0x400000 else 0x40000) + 16 * q
  if (f ≠ 0 && x.part ≠ some (f - 1)) || x.state = .disabled || 2 ^ x.log < ringUsed t x.head then s.accessError off (fnPart f)
  else { s with cmp := { s.cmp with dmaq := s.cmp.dmaq.put q { x with
      tail := t, state := if x.state = .idle && t ≠ x.head then .active else x.state } } }

def execDmaqDoorbell (f q : Nat) (v : Word) (s : State) : Host.Outcome State Fault Refusal := .next (s.dmaqDoorbell f q v)

end Sys2Proof.Machine
end

