-- ==== Sys2Proof/Machine/Ethernet.lean ====
section
/-! DEFINITION. Ethernet mode: frames, steering, unpausable ingress, frames of tiles, PAUSE and PFC (R315 to R324). -/

namespace Sys2Proof.Machine

/-! ### Parsing (R316) -/

/-- The big-endian number of n bytes at an offset. -/
def beAt (bs : List Byte) (i n : Nat) : Nat := ofBe (padTo n 0 ((bs.drop i).take n))

/-- What the parser finds in a frame. -/
structure Parsed where
  vlan  : Bool
  /-- PCP of the outer tag, 0 for an untagged frame. -/
  pcp   : Nat
  etype : Nat
  v4    : Bool
  v6    : Bool
  l3    : Nat
  /-- 0 where the frame does not carry UDP. -/
  l4    : Nat
deriving DecidableEq, Repr

def parseFrame (bs : List Byte) : Parsed :=
  let t0 := beAt bs 12 2
  let outer := t0 = 0x88A8 || t0 = 0x8100
  let inner := outer && beAt bs 16 2 = 0x8100
  let off := if inner then 20 else if outer then 16 else 12
  let ty := beAt bs off 2
  let l3 := off + 2
  let b0 := beAt bs l3 1
  let v4 := decide (ty = 0x0800 ∧ b0 / 16 = 4 ∧ 5 ≤ b0 % 16 ∧ l3 + 4 * (b0 % 16) ≤ bs.length)
  let v6 := decide (ty = 0x86DD ∧ b0 / 16 = 6 ∧ l3 + 40 ≤ bs.length)
  let l4 := if v4 then l3 + 4 * (b0 % 16) else l3 + 40
  let udp := (v4 && beAt bs (l3 + 9) 1 = 17 && beAt bs (l3 + 6) 2 % 16384 = 0 || v6 && beAt bs (l3 + 6) 1 = 17) && l4 + 8 ≤ bs.length
  ⟨outer, if outer then beAt bs 14 1 / 32 else 0, ty, v4, v6, if v4 || v6 then l3 else 0, if udp then l4 else 0⟩

/-- The ones' complement sum of bytes taken as 16-bit words. -/
def onesSum (bs : List Byte) : Nat :=
  let n := ((List.range (ceilDiv bs.length 2)).map (fun i => beAt bs (2 * i) 2)).foldl (· + ·) 0
  if n = 0 then 0 else (n - 1) % 65535 + 1

def ipHeader (bs : List Byte) (p : Parsed) : List Byte := (bs.drop p.l3).take (4 * (beAt bs p.l3 1 % 16))

/-- The bytes that the UDP checksum covers: pseudo header, header and data. -/
def udpCovered (bs : List Byte) (p : Parsed) : List Byte :=
  let n := beAt bs (p.l4 + 4) 2
  let addrs := if p.v4 then (bs.drop (p.l3 + 12)).take 8 else (bs.drop (p.l3 + 8)).take 32
  addrs ++ beBytes 4 n ++ beBytes 4 17 ++ (bs.drop p.l4).take n

def ipCsumErr (bs : List Byte) (p : Parsed) : Bool := p.v4 && onesSum (ipHeader bs p) ≠ 65535

/-- A UDP checksum error; over IPv4 a zero field means no checksum. -/
def udpCsumErr (bs : List Byte) (p : Parsed) : Bool :=
  let n := beAt bs (p.l4 + 4) 2
  p.l4 ≠ 0 && (n < 8 || bs.length < p.l4 + n ||
    (if beAt bs (p.l4 + 6) 2 = 0 then p.v6 else onesSum (udpCovered bs p) ≠ 65535))

/-- Writes bytes at an offset. -/
def patch (bs : List Byte) (i : Nat) (v : List Byte) : List Byte := bs.take i ++ v ++ bs.drop (i + v.length)

/-- Fills the IPv4 header checksum (R320, R351). -/
def fillIp (bs : List Byte) : List Byte :=
  let p := parseFrame bs
  if p.v4 then
    let z := patch bs (p.l3 + 10) [0, 0]
    patch z (p.l3 + 10) (beBytes 2 (65535 - onesSum (ipHeader z p)))
  else bs

/-- Fills the UDP checksum; a computed zero is sent as all ones. -/
def fillUdp (bs : List Byte) : List Byte :=
  let p := parseFrame bs
  if p.l4 = 0 then bs
  else
    let z := patch bs (p.l4 + 6) [0, 0]
    let c := 65535 - onesSum (udpCovered z p)
    patch z (p.l4 + 6) (beBytes 2 (if c = 0 then 65535 else c))

/-- Writes CE into the ECN field of an IP packet that holds ECT(0) or ECT(1) (R351). -/
def markCe (bs : List Byte) : List Byte :=
  let p := parseFrame bs
  if p.v4 then
    let b := beAt bs (p.l3 + 1) 1
    if b % 4 = 1 || b % 4 = 2 then fillIp (patch bs (p.l3 + 1) (beBytes 1 (b / 4 * 4 + 3))) else bs
  else if p.v6 then
    let w := beAt bs p.l3 2
    if fld w 5 4 = 1 || fld w 5 4 = 2 then patch bs p.l3 (beBytes 2 (w - put 5 4 (fld w 5 4) + put 5 4 3)) else bs
  else bs

/-- A frame without its FCS, where it is 64 to 9,216 bytes long and its FCS is good (R315). -/
def frameBody (f : Frame) : Option (List Byte) :=
  let n := f.bytes.length - 4
  if f.bytes.length < 64 || 9216 < f.bytes.length || crc32 (f.bytes.take n) ≠ ofLe (f.bytes.drop n) then none else some (f.bytes.take n)

/-- Whether the MAC accepts a destination address (R316). -/
def macAccepts (c : SubConfig) (bs : List Byte) : Bool :=
  let d := beAt bs 0 6
  c.promisc || d = c.mac.toNat || beAt bs 0 1 % 2 = 1

/-! ### Steering (R317 to R319) -/

def Steer.word (x : Steer) (i : Nat) : Word := nth x.words i 0

/-- An entry matches a frame of a port. -/
def Steer.hits (x : Steer) (port : Nat) (bs : List Byte) (p : Parsed) : Bool :=
  let w := x.word 0
  bit w 32 && w.toNat.testBit (port % 32) &&
    (if bit w 33 then bits w 49 34 = p.etype else p.l4 ≠ 0 && bits w 49 34 = beAt bs (p.l4 + 2) 2)

/-- The tiles of an entry as DEST coordinates. -/
def Steer.tile (x : Steer) (i : Nat) : Nat := ofLe (wordBytes (x.words.drop 2)) / 2 ^ (10 * i) % 1024

def Steer.part (x : Steer) : Nat := bits (x.word 0) 56 51

/-- The hash of R318: over the source address and the source UDP port. -/
def steerHash (bs : List Byte) (p : Parsed) : Nat :=
  let a := if p.v4 then padTo 16 0 ((bs.drop (p.l3 + 12)).take 4) else if p.v6 then (bs.drop (p.l3 + 8)).take 16 else List.replicate 16 0
  crc32 (a ++ leBytes 2 (if p.l4 = 0 then 0 else beAt bs p.l4 2))

/-- The message that a frame becomes (R319). -/
def steerMsg (x : Steer) (l : Nat) (unp : Bool) (bs : List Byte) (p : Parsed) (tFec : Nat) : UnpFrame :=
  let w := x.word 1
  let n := max 1 (bits w 13 7)
  let i := if bit w 6 then steerHash bs p % n else x.seq % n
  let dl := if bits w 63 32 = 0 then 0 else tFec + bits w 63 32
  let u0 := put 9 0 l + flag 10 unp + flag 12 p.vlan + flag 13 p.v6 + put 26 14 bs.length + put 34 27 p.l3 + put 42 35 p.l4 +
    flag 43 (ipCsumErr bs p) + flag 44 (udpCsumErr bs p)
  { msg := gatewayMsg 0 (coord (x.tile i)) (bits w 5 0) x.part 0 (wordBytes [wd u0, wd tFec, wd dl, wd x.seq]) bs,
    deadline := dl, cells := ceilDiv bs.length 256, part := x.part }

/-- Sets the SPILLED flag of a frame's USER word 0. -/
def UnpFrame.spilled (u : UnpFrame) : UnpFrame :=
  { u with msg := { u.msg with header := u.msg.header.modify 1 (fun w => wd (w.toNat ||| 2048)) } }

/-! ### Unpausable ingress (R321 to R324) -/

def shedRing : Nat := 0
def shedNoSpill : Nat := 1
def shedLate : Nat := 2

/-- A frame is shed (R324, R373). -/
def State.shedFrame (s : State) (l cause part : Nat) : State :=
  let s := (s.countSub l cntShed).onSub l (fun x => { x with sheds := x.sheds.modify cause (satInc ·) })
  let s := ((s.onCtr l (fun c => { c with shedIn := satInc c.shedIn })).tallyCtr l 0).drift 14 [part]
  let w := s.timebase / 2097152
  let x := s.sub l
  if x.shedNote = some w then s
  else (s.setSub l { x with shedNote := some w }).notify .ingressShed .ok (some part) l
    (put 20 0 (nth x.sheds 0 0) + put 41 21 (nth x.sheds 1 0) + put 62 42 (nth x.sheds 2 0)) (.region (lportRegion l))

def framesCells (l : List UnpFrame) : Nat := (l.map (·.cells)).foldl (· + ·) 0

/-- A frame enters the on-chip queue, with cells of the port's receive share. -/
def State.unpQueue (s : State) (l : Nat) (u : UnpFrame) : State :=
  let (bufs, s) := (State.platTakeN s (lportDie l) poolRx { owner := lportPhys l % 32, part := some u.part } u.cells).getD ([], s)
  s.onSub l (fun x => { x with unp := x.unp ++ [{ u with bufs := bufs }] })

/-- Whether the on-chip queue has room for a frame. -/
def SubPort.unpRoom (x : SubPort) (u : UnpFrame) : Bool := framesCells x.unp + u.cells ≤ x.cfg.onchipLimit

/-- A decided frame is placed (R322); the ring holds it in whole cells. -/
def State.unpPlace (s : State) (l : Nat) (u : UnpFrame) : State :=
  let x := s.sub l
  if x.ring.isEmpty && x.unpRoom u then s.unpQueue l u
  else if !s.dieTrained (lportDie l) then s.shedFrame l shedNoSpill u.part
  else if 256 * (framesCells x.ring + u.cells) ≤ x.cfg.ringSize && s.systemLocal (lportDie l) x.cfg.ringBase x.cfg.ringSize then
    let n := 256 * u.cells
    let s := s.ringMem (lportDie l) x.cfg.ringBase x.cfg.ringSize x.ringPut n (some (padTo n 0 u.msg.payload))
    (s.countSub l cntSpill).onSub l (fun y => { y with ring := y.ring ++ [u.spilled], ringPut := (x.ringPut + n) % x.cfg.ringSize })
  else s.shedFrame l shedRing u.part

/-- The head leaves the on-chip queue. -/
def State.unpPop (s : State) (l : Nat) (u : UnpFrame) : State :=
  (s.platFreeAll (lportDie l) poolRx (lportPhys l % 32) u.bufs).onSub l (fun x => { x with unp := x.unp.drop 1, popAt := some s.now })

/-- The frame at the head of the on-chip queue, where none has left it in this cycle (R323). -/
def State.unpHead (s : State) (l : Nat) : Option UnpFrame := if (s.sub l).popAt = some s.now then none else (s.sub l).unp.head?

def UnpFrame.late (u : UnpFrame) (tb : Nat) : Bool := u.deadline ≠ 0 && u.deadline ≤ tb

def execSpillRingMove (lport : Nat) (s : State) : Host.Outcome State Fault Refusal :=
  .next (let x := s.sub lport
    match x.ring with
    | u :: rest =>
      if x.unpRoom u then
        let size := x.cfg.ringSize
        let pos := (x.ringPut + size - 256 * framesCells x.ring % max 1 size) % max 1 size
        let s := s.ringMem (lportDie lport) x.cfg.ringBase size pos (256 * u.cells) none
        (s.onSub lport (fun y => { y with ring := rest })).unpQueue lport u
      else s
    | [] => s)

def execUnpFrameInject (lport cc : Nat) (s : State) : Host.Outcome State Fault Refusal :=
  .next (let s := s.at cc
    match s.unpHead lport with
    | some u =>
      if u.late s.timebase then (s.unpPop lport u).shedFrame lport shedLate u.part
      else (s.unpPop lport u).toMesh u.msg
    | none => s)

def execIngressDeadlineShed (lport cc : Nat) (s : State) : Host.Outcome State Fault Refusal :=
  .next (let s := s.at cc
    match s.unpHead lport with
    | some u => if u.late s.timebase then (s.unpPop lport u).shedFrame lport shedLate u.part else s
    | none => s)

/-! ### Frames that arrive -/

/-- An accepted frame at the steering table of its die. -/
def State.steerFrame (s : State) (l : Nat) (bs : List Byte) : State :=
  let x := s.sub l
  let p := parseFrame bs
  let die := lportDie l
  match (s.fab.steer.keep (fun k e => k / 256 = die && e.hits (lportPhys l) bs p)) with
  | [] => s.drop l dropNoEntry
  | (k, e) :: _ =>
    let s := s.setFab { s.fab with steer := s.fab.steer.put k { e with seq := e.seq + 1 } }
    if !bit (e.word 0) 50 then s.drop l dropAction
    else if 4096 < bs.length then s.drop l dropOversize
    else
      let u := steerMsg e l x.cfg.unpausable bs p s.timebase
      if x.cfg.unpausable then s.unpPlace l u else s.toMesh u.msg

/-- A frame leaves FEC decode in a cycle (R315 to R319). -/
def execEthFrameReceive (lport cc : Nat) (frame : Frame) (s : State) : Host.Outcome State Fault Refusal :=
  .next (let s := s.at cc
    let x := s.sub lport
    if x.cfg.mode ≠ .ethernet || x.state ≠ .up then s
    else
      let s := s.fecIn lport frame.corr frame.uncorr
      match frameBody frame with
      | none => s.drop lport dropLength
      | some bs => if macAccepts x.cfg bs then s.steerFrame lport bs else s.drop lport dropAddress)

/-! ### PAUSE and PFC (R315) -/

/-- Core cycles of pause quanta of 512 bit times at a rate in Mb/s. -/
def pauseCc (quanta rate : Nat) : Nat := ceilDiv (quanta * 512 * 1875) rate

/-- A class is held, or released by a time of zero. -/
def Contour.pause (c : Contour) (cls until_ : Nat) (hold : Bool) : Contour :=
  { c with paused := if hold then c.paused.put cls until_ else c.paused.del cls }

/-- A MAC control frame: PAUSE holds every class, PFC those of its vector. -/
def State.takePause (s : State) (l : Nat) (bs : List Byte) : State :=
  let hold := fun (c : Contour) (cls q : Nat) => c.pause cls (s.now + pauseCc q (s.subRate l)) (decide (q ≠ 0))
  if beAt bs 12 2 ≠ 0x8808 then s
  else if beAt bs 14 2 = 0x0001 then s.onCtr l (fun c => (List.range 8).foldl (fun c i => hold c i (beAt bs 16 2)) c)
  else if beAt bs 14 2 = 0x0101 then
    s.onCtr l (fun c => (List.range 8).foldl (fun c i => if (beAt bs 16 2).testBit i then hold c i (beAt bs (18 + 2 * i) 2) else c) c)
  else s

def execPauseReceive (lport cc : Nat) (frame : Frame) (s : State) : Host.Outcome State Fault Refusal :=
  .next (let s := s.at cc
    let x := s.sub lport
    if x.cfg.mode ≠ .ethernet || x.state ≠ .up then s
    else
      let s := s.fecIn lport frame.corr frame.uncorr
      match frameBody frame with
      | none => s.drop lport dropLength
      | some bs => s.takePause lport bs)

def execPauseTimerExpiry (lport cls cc : Nat) (s : State) : Host.Outcome State Fault Refusal :=
  .next (let s := s.at cc
    match (s.sub lport).ctr.paused.look cls with
    | some t => if t ≤ s.now then s.onCtr lport (fun c => { c with paused := c.paused.del cls }) else s
    | none => s)

/-- Cells of the frames of one priority that wait in the ingress queue of a pausable sub-port for their tiles. -/
def State.waitCells (s : State) (l pr : Nat) : Nat :=
  ((s.grid.mesh.filter (fun m =>
    let u := nth m.header 1 0
    m.srcGw && m.src = 0 && bits u 9 0 = l && !bit u 10 && (parseFrame m.payload).pcp = pr)).map (fun m =>
      ceilDiv (bits (nth m.header 1 0) 26 14) 256)).foldl (· + ·) 0

/-- The priorities whose queue passes its threshold (R315, log 22). -/
def State.pfcDue (s : State) (l : Nat) : List Nat :=
  let c := (s.sub l).cfg
  if c.pfcEn && !c.unpausable then (List.range 8).filter (fun i => Config.pfcThreshold i < s.waitCells l i) else []

/-- A PFC frame: the longest time for the priorities that are held now, zero for those held before and no more. -/
def pfcFrame (mac : Nat) (now before : List Nat) : List Byte :=
  let set := (List.range 8).filter (fun i => now.contains i || before.contains i)
  withCrc (padTo 60 0 (beBytes 6 0x0180C2000001 ++ beBytes 6 mac ++ beBytes 2 0x8808 ++ beBytes 2 0x0101 ++
    beBytes 2 ((set.map (2 ^ ·)).foldl (· + ·) 0) ++ (List.range 8).flatMap (fun i => beBytes 2 (if now.contains i then 0xFFFF else 0))))

/-- PFC goes out when the held priorities change: whether a frame left. -/
def State.sendPfc (s : State) (l : Nat) : Bool × State :=
  let now := s.pfcDue l
  let x := s.sub l
  if now = x.pfcSent then (false, s)
  else (true, (s.emit (.frame l (pfcFrame x.cfg.mac.toNat now x.pfcSent))).setSub l { x with pfcSent := now })

/-! ### Frames of tiles (R320) -/

/-- The notice to a tile about its frame. -/
def State.frameNotice (s : State) (n : Option (Nat × Nat × Nat)) (part : Nat) (st : Status) : State :=
  match n with
  | some (t, h, tag) => s.toMesh (gatewayMsg 0 t h part tag (leBytes 8 st.code) [])
  | none => s

/-- The status that turns a PORT request away, if any. -/
def State.egressRefusal (s : State) (m : MeshMsg) : Option Status :=
  let u := nth m.header 1 0
  let l := bits u 9 0
  let n := bits u 25 13
  if (s.sub l).cfg.mode ≠ .ethernet || (s.sub l).state ≠ .up then some .portState
  else if (s.sub l).cfg.part ≠ some m.part then some .accessDenied
  else if n < 60 || 4096 < n || m.len ≠ ceilDiv n 64 || bits u 63 35 ≠ 0 then some .msgInvalid
  else none

/-- A tile's frame: refused, or queued for egress. -/
def State.egressTake (s : State) (t : Nat) (m : MeshMsg) : State :=
  let u := nth m.header 1 0
  let l := bits u 9 0
  let note := if bit u 28 then some (t, bits u 34 29, m.tag) else none
  match s.egressRefusal m with
  | some st => (s.drop l dropEgress).frameNotice note m.part st
  | none =>
    let bs := m.payload.take (bits u 25 13)
    let bs := if bit u 27 then fillUdp bs else bs
    let bs := if bit u 26 then fillIp bs else bs
    s.enqueue { id := 0, cargo := .eth bs (nth m.header 2 0).toNat note, inLine := tileLine t, inPort := none, cls := bits u 12 10,
                cells := ceilDiv bs.length 256, part := some m.part, outs := [.sub l] }

def execPortEgressRequest (t : Nat) (s : State) : Host.Outcome State Fault Refusal :=
  .next (match takeFirst (fun (m : MeshMsg) => !m.srcGw && m.destGw && m.dest = 0 && coord m.src = t) s.grid.mesh with
    | some (m, rest) => ({ s with grid := { s.grid with mesh := rest } } : State).egressTake t m
    | none => s)

end Sys2Proof.Machine
end

