-- ==== Sys2Proof/Machine/Traverse.lean ====
section
/-! DEFINITION. Traverse and the express ring: launches, intermediates, release, spill, control flits (R341 to R357). -/

namespace Sys2Proof.Machine

/-- The core cycle in which a slot lies (R342). -/
def State.atSlot (s : State) (slot : Nat) : State := s.at (s.fab.slot0 + slot / 2)

/-- Slots between two stages: 2 cc on one die, 26 cc across a bridge (R343). -/
def transit (a b : Nat) : Nat := if lineDie a = lineDie b then 4 else 52

/-! ### STOP (R348, R349, R454) -/

/-- STOP of an output queue: its own, or by a level of HEADROOM or SPILL. -/
def State.queueStop (s : State) (k : Nat) : Bool :=
  let q := s.outQ k
  let hr := (s.pool (queueDie k) poolHeadroom).level
  let spill := s.pool (queueDie k) poolSpill
  q.stop || (2 ≤ hr && q.cells.any (fun c => c.buf.map (·.1) = some poolHeadroom)) || 
    (2 ≤ spill.level && spill.reserveOf (queueOwner k) < q.bufs.length) || (3 ≤ spill.level && 0 < q.bufs.length)

/-- An output line and class take no new frame. -/
def State.lineStop (s : State) (o c : Nat) : Bool :=
  s.fab.stops.any (fun x => x % 520 = 8 * o + c) || s.queueStop (8 * (2 * o) + c) || s.queueStop (8 * (2 * o + 1) + c) ||
    3 ≤ (s.pool (lineDie o) poolHeadroom).level || s.homeStop o c

/-- A frame queue must not be scanned: its output, or for multicast an output of its oldest packet, is stopped. -/
def State.fqStop (s : State) (o c : Nat) (q : List FqItem) : Bool :=
  if o < 64 then s.lineStop o c
  else s.fab.stops.any (fun x => x % 520 = 512 + c) || (match q with
    | i :: _ => (match s.load i.load with
      | some l => l.outs.any (fun t => s.lineStop t.line c)
      | none => false)
    | [] => false)

/-! ### Stage 1 (R344) -/

def fqCells (q : List FqItem) : Nat := (q.map (fun i => i.cells - i.next)).foldl (· + ·) 0

/-- The first n cells of a frame queue, as load and index, and what is left. -/
def fqTake : Nat → List FqItem → List (Nat × Nat) × List FqItem
  | _, [] => ([], [])
  | n, i :: r =>
    let k := min n (i.cells - i.next)
    let got := (List.range k).map (fun j => (i.load, i.next + j))
    if i.next + k < i.cells then (got, { i with next := i.next + k } :: r)
    else
      let (g, rest) := fqTake (n - k) r
      (got ++ g, rest)

/-- The queue that a line launches from: 8 o + c (R344). -/
def State.fqChoice (s : State) (line : Nat) : Option (Nat × List FqItem) :=
  let last := s.fab.fqLast.lookD line 519
  let qs := (s.fab.fq.filter (fun e => e.1 / 520 = line && 0 < fqCells e.2)).map (fun (e : Nat × List FqItem) => (e.1 % 520, e.2))
  let qs := qs.filter (fun e => !s.fqStop (e.1 / 8) (e.1 % 8) e.2)
  let order := qs.filter (fun e => last < e.1) ++ qs.filter (fun e => e.1 ≤ last)
  let flush := (s.trvDie (lineDie line)).flush
  match order.find? (fun e => 64 ≤ fqCells e.2) with
  | some e => some e
  | none => order.find? (fun e => match e.2 with
    | i :: _ => i.since + flush ≤ s.now
    | [] => false)

/-- The output lines of a multicast load. -/
def Load.lines (l : Load) : List Nat := (l.outs.map OutTarget.line).eraseDups

/-- Multicast cells of an input line and class that an output line has still to release. -/
def State.mcastDue (s : State) (line o c : Nat) : Bool :=
  s.fab.cells.any (fun x => x.mcast && x.inLine = line && x.cls = c && x.left.contains o) ||
    s.fab.arrived.any (fun x => x.mcast && x.inLine = line && x.cls = c && x.outLine = o)

/-- Before a multicast frame is launched, the output lines with nothing of the class left to release expect its first cell: the
frames in between held no copy for them (R345). -/
def State.mcastExpect (s : State) (line c frame : Nat) : State :=
  let free := (List.range 64).filter (fun o => !s.mcastDue line o c)
  let m := free.foldl (fun (m : SMap Nat) o => m.put (16 * (64 * o + line) + 2 * c + 1) (64 * frame)) s.fab.expect
  s.setFab { s.fab with expect := m }

def execFrameLaunch (line slot : Nat) (s : State) : Host.Outcome State Fault Refusal :=
  .next (let s := s.atSlot slot
    if 64 ≤ line || slot < s.fab.fqFree.lookD line 0 then s
    else match s.fqChoice line with
    | none => s
    | some (r, q) =>
      let o := r / 8
      let (took, rest) := fqTake 64 q
      let got := if o = 64 then took.filter (fun e => (s.load e.1).isSome) else took
      let n := got.length
      let k := 520 * line + r
      let frame := s.fab.fqFrame.lookD k 0
      let cells := ((List.range n).zip got).map (fun (e : Nat × (Nat × Nat)) =>
        let j := (line + slot + e.1) % 64
        ({ load := e.2.1, idx := e.2.2, inLine := line, outLine := o, mcast := decide (o = 64), cls := r % 8, frame := frame, pos := e.1,
           last := decide (e.1 + 1 = n), inter := j, at_ := slot + e.1 + transit line j,
           left := if o = 64 then ((s.load e.2.1).map Load.lines).getD [] else [] } : Cell))
      let s := if o = 64 then s.mcastExpect line (r % 8) frame else s
      let s := s.setFab { s.fab with
        cells := s.fab.cells ++ cells, fqFrame := s.fab.fqFrame.put k (if n = 0 then frame else (frame + 1) % 256), fqLast := s.fab.fqLast.put line r,
        fqFree := s.fab.fqFree.put line (slot + n), fq := if rest.isEmpty then s.fab.fq.del k else s.fab.fq.put k rest }
      took.foldl (fun s e => s.cellLaunched e.1 e.2) s)

/-! ### Stage 2 (R348, R352) -/

/-- The head of a queue of an intermediate: of the cells that have reached it, the one that came first. -/
def firstCell (slot : Nat) (p : Cell → Bool) (l : List Cell) : Option Cell :=
  (l.filter (fun c => c.at_ ≤ slot && p c)).foldl (fun (b : Option Cell) c => match b with
    | none => some c
    | some x => if c.at_ < x.at_ then some c else b) none

/-- The cell that an intermediate sends to output line o in a slot. -/
def State.stage2Cell (s : State) (j o slot : Nat) : Option Cell :=
  let order := (List.range 8).map (fun i => (slot / 64 + i) % 8)
  let heads := order.filterMap (fun c => firstCell slot (fun x => x.inter = j && x.mcast && x.cls = c) s.fab.cells)
  match heads.find? (fun x => x.left.contains o) with
  | some x => some x
  | none => order.findSome? (fun c => firstCell slot (fun x => x.inter = j && !x.mcast && x.outLine = o && x.cls = c) s.fab.cells)

/-- STOP of an intermediate by the depth of its queues. -/
def State.interStops (s : State) (j slot : Nat) : State :=
  let counts := (s.fab.cells.filter (fun c => c.inter = j && c.at_ ≤ slot)).foldl
    (fun (m : SMap Nat) c => m.upd (520 * j + 8 * (if c.mcast then 64 else c.outLine) + c.cls) 0 (· + 1)) []
  let full := (counts.keep (fun _ n => 16 ≤ n)).keys
  let fresh := full.filter (fun k => !s.fab.stops.contains k)
  (s.setFab { s.fab with stops := s.fab.stops.filter (fun k => k / 520 ≠ j) ++ full }).countTrv (lineDie j) trvStop fresh.length

def execStage2Slot (inter slot : Nat) (s : State) : Host.Outcome State Fault Refusal :=
  .next (let s := s.atSlot slot
    if 64 ≤ inter then s
    else
      let o := (slot + 64 - inter) % 64
      let s := match s.stage2Cell inter o slot with
        | none => s
        | some x =>
          let y := { x with outLine := o, at_ := slot + transit inter o, left := [] }
          let left := x.left.filter (· ≠ o)
          let rest := if left.isEmpty then s.fab.cells.erase x else s.fab.cells.map (fun c => if c = x then { c with left := left } else c)
          s.setFab { s.fab with cells := rest, arrived := s.fab.arrived ++ [y] }
      s.interStops inter slot)

/-! ### Release at the output (R345, R349, R353) -/

def Cell.tag (c : Cell) : Nat := 64 * c.frame + c.pos

/-- a lies before b in the order of frame tags, which count modulo 2^14. -/
def tagBefore (a b : Nat) : Bool := a ≠ b && (b + 16384 - a) % 16384 < 8192

def Cell.expectKey (c : Cell) : Nat := 16 * (64 * c.outLine + c.inLine) + 2 * c.cls + (if c.mcast then 1 else 0)

/-- A cell is next at its output line. -/
def State.cellNext (s : State) (c : Cell) : Bool :=
  if c.mcast then
    !(s.fab.arrived.any (fun x => x.mcast && x.outLine = c.outLine && x.inLine = c.inLine && x.cls = c.cls && tagBefore x.tag c.tag)) &&
      !(s.fab.cells.any (fun x => x.mcast && x.left.contains c.outLine && x.inLine = c.inLine && x.cls = c.cls && tagBefore x.tag c.tag))
  else s.fab.expect.lookD c.expectKey 0 = c.tag

/-- A copy that a fence takes away: skipped, or the packet dropped (R353, R527). -/
def State.fencedCopy (s : State) (x : Load) (tgt l : Nat) : State :=
  let s := s.setLoad { x with gone := x.gone ++ [tgt] }
  if x.mcast then s.skipCopy x.id tgt l else (s.drop l dropFenced).copyDone x.id tgt .fenced

/-- A packet that passes the reorder of its edge: unicast, and no unordered Sheet request (R331, R338, R390). -/
def Load.reorders (x : Load) : Bool :=
  !x.mcast && (match x.pkt with
    | some p => !(p.ulp = ulpSheet && bit (p.word 7) 32)
    | none => false)

/-- One cell of a load reaches one of its targets. -/
def State.releaseAt (s : State) (id idx tgt : Nat) : State :=
  match s.load id with
  | none => s
  | some x =>
    if x.gone.contains tgt then s
    else
      let x := { x with rel := x.rel.modify tgt (· + 1) }
      let s := s.setLoad x
      let whole := decide (nth x.rel tgt 0 = x.cells)
      match x.outs[tgt]? with
      | some (.sub l) =>
        if (s.sub l).state = .fenced then s.fencedCopy x tgt l
        else if (s.sub l).cfg.mode = .endpoint && x.reorders then
          (if whole then s.setFab { s.fab with toRo := s.fab.toRo ++ [(lportDie l, id)] } else s)
        else s.queueCell x idx tgt l
      | some (.gate n t) =>
        (match x.pkt with
          | some p => if whole then (s.setFab { s.fab with inbox := s.fab.inbox ++ [(n, t, p)] }).copyDone id tgt .ok else s
          | none => s)
      | none => s

/-- A cell leaves the arrival buffer of its line into its targets there. -/
def State.releaseCell (s : State) (c : Cell) : State :=
  let next := (if c.last then 64 * (c.frame + 1) else c.tag + 1) % 16384
  let s := s.setFab { s.fab with arrived := s.fab.arrived.erase c, expect := s.fab.expect.put c.expectKey next }
  match s.load c.load with
  | none => s
  | some x =>
    ((List.range x.outs.length).filter (fun i => (x.outs[i]?).map OutTarget.line = some c.outLine)).foldl (fun s i => s.releaseAt c.load c.idx i) s

/-- Releases and discards at a line until no cell that has arrived is next; fuel bounds the loop by the cells there. -/
def State.releaseAll : Nat → State → Nat → Nat → State
  | 0, s, _, _ => s
  | n + 1, s, line, slot =>
    let here := s.fab.arrived.filter (fun c => c.outLine = line && c.at_ ≤ slot)
    match here.find? (fun c => (s.fab.expect.look c.expectKey).isSome && tagBefore c.tag (s.fab.expect.lookD c.expectKey 0)) with
    | some c =>
      let s := (s.setFab { s.fab with arrived := s.fab.arrived.erase c }).countTrv (lineDie line) trvOrder
      State.releaseAll n (s.notify .orderError .ok none line c.tag (.die (lineDie line))) line slot
    | none =>
      match here.find? s.cellNext with
      | some c => State.releaseAll n (s.releaseCell c) line slot
      | none => s

def execCellRelease (line slot : Nat) (s : State) : Host.Outcome State Fault Refusal :=
  .next (let s := s.atSlot slot
    State.releaseAll s.fab.arrived.length s line slot)

/-! ### Spill (R350) -/

/-- Brings spilled cells back in order while there is room on chip, each with a read of its place in spill; fuel bounds the loop by the cells. -/
def State.spillBack : Nat → State → Nat → State
  | 0, s, _ => s
  | n + 1, s, k =>
    let q := s.outQ k
    match q.cells.find? (·.spilled) with
    | none => s
    | some c =>
      if q.onchip ≤ q.inShare then s
      else
        let part := (s.load c.load).bind (·.part)
        match s.platTake (queueDie k) poolOut { owner := queueOwner k, part := part } with
        | none => s
        | some (i, s) =>
          let q := s.outQ k
          let s := match q.bufs with
            | b :: _ => s.spillMem (queueDie k) 258 (spillAddr (queueDie k) b + 256 * (q.got % 16)) 256 none
            | [] => s
          let got := q.got + 1
          let gone := if got % 16 = 0 then q.bufs.take 1 else []
          let s := s.spillFree k gone
          let cells := adjFirst (fun (x : QCell) => x.spilled) (fun x => { x with spilled := false, buf := some (poolOut, i) }) q.cells
          let q := { q with cells := cells, got := got, bufs := q.bufs.drop gone.length }
          if q.spilled then State.spillBack n (s.setOutQ k q) k
          else (s.spillFree k q.bufs).setOutQ k { q with bufs := [], put := 0, got := 0 }

def execSpillReturn (queue : Nat) (s : State) : Host.Outcome State Fault Refusal :=
  .next (if 1024 ≤ queue then s else (State.spillBack (s.outQ queue).cells.length s queue).easeStop queue)

/-! ### The express ring (R355 to R357) -/

/-- An owner puts its oldest control flit into its own position as it passes, empty; the credit of the flit is freed. -/
def execExpressRingInject (line slot : Nat) (s : State) : Host.Outcome State Fault Refusal :=
  .next (let s := s.atSlot slot
    if 64 ≤ line || slot % 64 ≠ 0 then s
    else (List.range 3).foldl (fun s q =>
      let k := 3 * line + q
      match s.fab.ring.look k, s.fab.ctrlSrc.lookD k [] with
      | none, f :: rest =>
        (s.setFab { s.fab with ring := s.fab.ring.put k f, ctrlSrc := if rest.isEmpty then s.fab.ctrlSrc.del k else s.fab.ctrlSrc.put k rest }).creditBack
          f.from_ 8 1
      | _, _ => s) s)

/-- Room at the destination of a flit: 256 flits at a logical port, what its edge takes counted among them, 1,024 control flits at a gateway row. -/
def State.flitRoom (s : State) (f : Flit) : Bool :=
  match f.out with
  | .sub l => (s.sub l).state = .fenced || (s.sub l).ctrlQ.length + (s.sub l).e2eIn.length < 256
  | .gate n _ => f.pkt.ulp = ulpE2e || (s.fab.inbox.filter (fun e => e.1 = n && !e.2.2.isData)).length < 1024

/-- A flit enters its destination's control queue; a fenced sub-port discards it. One of a Confluence node goes to the node, and the
services, which keep no copies, discard an acknowledgement (R309, log 21). -/
def State.flitIn (s : State) (f : Flit) : State :=
  match f.out with
  | .sub l =>
    if (s.sub l).state = .fenced then s.fencedFlit l f.pkt
    else if (s.sub l).cfg.mode = .endpoint && f.pkt.ulp = ulpE2e then s.onSub l (fun x => { x with e2eIn := x.e2eIn ++ [f.pkt] })
    else if (s.sub l).cfg.mode = .endpoint && f.pkt.ulp = ulpCfl then
      s.setFab { s.fab with inbox := s.fab.inbox ++ [((s.cflGate l f.pkt).1, (s.cflGate l f.pkt).2, f.pkt)] }
    else s.onSub l (fun x => { x with ctrlQ := x.ctrlQ ++ [f.pkt] })
  | .gate n t => if f.pkt.ulp = ulpE2e then s else s.setFab { s.fab with inbox := s.fab.inbox ++ [(n, t, f.pkt)] }

/-- The line takes off the ring what is addressed to it, from the positions that pass it in the slot; a full queue leaves the
flit in its position. -/
def execExpressRingDeliver (line slot : Nat) (s : State) : Host.Outcome State Fault Refusal :=
  .next (let s := s.atSlot slot
    if 64 ≤ line then s
    else (List.range 3).foldl (fun s q =>
      let k := 3 * ((line + 64 - slot % 64) % 64) + q
      match s.fab.ring.look k with
      | some f =>
        if f.out.line ≠ line then s
        else if s.flitRoom f then (s.setFab { s.fab with ring := s.fab.ring.del k }).flitIn f
        else s.countTrv (lineDie line) trvRecirc
      | none => s) s)

/-! ### Multicast completion (R354) -/

/-- The payload: COUNT, then DEST and STATUS of each target. -/
def McOwed.payload (o : McOwed) : List Byte :=
  leBytes 8 o.done.length ++ o.done.flatMap (fun e => leBytes 8 (put 47 0 e.1 + put 55 48 (e.2.getD 0)))

def execMcastCompletion (id : Nat) (s : State) : Host.Outcome State Fault Refusal :=
  .next (match s.fab.owed.find? (fun o => o.load = id && o.left = 0) with
    | none => s
    | some o =>
      let s := s.setFab { s.fab with owed := s.fab.owed.filter (fun x => x.load ≠ id) }
      let me := 256 * ((s.fab.pfx.map (·.1)).getD 0)
      let (q, s) := s.serviceSeq me o.src o.cls
      s.enterFabric { line := o.inLine } (dataPacket o.cls o.src ulpCompletion me o.job q o.reqId 0 [] o.payload))

end Sys2Proof.Machine
end

