-- ==== Sys2Proof/Machine/Contour.lean ====
section
/-! DEFINITION. Contour: unit selection, deficit round robin, shapers, gates, shedding (R361 to R373). -/

namespace Sys2Proof.Machine

/-! ### The lists of a sub-port (R362, R363) -/

def outKey (l c : Nat) : Nat := 8 * lportPhys l + c

/-- The cells of a sub-port's list of a class, in release order. -/
def State.listCells (s : State) (l c : Nat) : List QCell := (s.outQ (outKey l c)).cells.filter (fun x => x.lport = l)

/-- The first cell of the packet or frame at the head of a list: the packet in progress is a head no more. -/
def State.headCell (s : State) (l c : Nat) : Option QCell :=
  (s.listCells l c).find? (fun q => (s.sub l).cur.map (·.load) ≠ some q.load)

/-- The load at the head of a list. -/
def State.headLoad (s : State) (l c : Nat) : Option Load := (s.headCell l c).bind (fun q => s.load q.load)

/-- Data flits of a packet on the wire. -/
def State.wireFlits (s : State) (l : Nat) (p : Packet) : Nat :=
  match s.headQuant l p with
  | some pr => (quantHead pr p).flits
  | none => p.flits

/-- The cost of a load in bytes (R362). -/
def State.cost (s : State) (l : Nat) (x : Load) : Nat :=
  match x.cargo with
  | .plp p => 80 + 264 * s.wireFlits l p
  | .eth bs _ _ => bs.length + 24

/-- tx_cc (R362). -/
def State.txCc (s : State) (l cost : Nat) : Nat := ceilDiv (cost * 15000) (s.subRate l)

/-- The largest cost of a sub-port's mode. -/
def maxCost (m : PortMode) : Nat := if m = .ethernet then 9236 else 4304

/-! ### Gates (R369, R370) -/

def GateList.cycle (g : GateList) : Nat := (g.entries.map (·.duration)).foldl (· + ·) 0

/-- The entry that holds a position, and the cycles left of it. -/
def gateAt : List GateEntry → Nat → Nat → Nat × Nat
  | [], i, _ => (i, 0)
  | e :: r, i, pos => if pos < e.duration then (i, e.duration - pos) else gateAt r (i + 1) (pos - e.duration)

/-- Cycles from the start of a list up to its first entry that closes a class. -/
def openRun (c : Nat) : List GateEntry → Nat
  | [] => 0
  | e :: r => if e.openMask.toNat.testBit c then e.duration + openRun c r else 0

/-- The open window of a class from entry i with some cycles of it left; none where it never closes. -/
def GateList.window (g : GateList) (c i left : Nat) : Option Nat :=
  if g.entries.all (fun e => e.openMask.toNat.testBit c) then none
  else match g.entries.drop i with
    | e :: r => some (if e.openMask.toNat.testBit c then left + openRun c (r ++ g.entries.take i) else 0)
    | [] => some 0

/-- The entry in force at a count of DTM_TIMEBASE, and the cycles left of it. -/
def GateList.now (g : GateList) (tb : Nat) : Nat × Nat := gateAt g.entries 0 (tb % max 1 g.cycle)

/-- OPEN in force; all ones while the list is disabled. -/
def GateList.openMask (g : GateList) (tb : Nat) : Nat :=
  if g.enable then ((g.entries[(g.now tb).1]?).map (fun e => e.openMask.toNat)).getD 0 else 255

/-- A transmit time fits the open window of a class. -/
def GateList.fits (g : GateList) (tb c tx : Nat) : Bool :=
  !g.enable || (g.openMask tb).testBit c && (match g.window c (g.now tb).1 (g.now tb).2 with
    | none => true
    | some w => tx ≤ w)

/-! ### Shapers (R367, R368) -/

def Shaper.conforms (x : Shaper) : Bool := !x.enable || 0 ≤ x.tokens

def Shaper.charge (x : Shaper) (cost : Nat) : Shaper := { x with tokens := x.tokens - 125 * cost }

def noShaper : Shaper := {}
def Contour.shaper (c : Contour) (i : Nat) : Shaper := nth c.shapers i noShaper
def Contour.conforms (x : Contour) (c : Nat) : Bool := (x.shaper c).conforms && (x.shaper 8).conforms

/-- A refill; a change accepted before this cycle takes effect with it. -/
def Shaper.refill (x : Shaper) (now : Nat) : Shaper :=
  let x := match x.pending with
    | some (r, b, e) =>
      if x.pendAt < now then
        { x with rate := r, burst := b, enable := e, pending := none, tokens := if e && !x.enable then 125 * b else min x.tokens (125 * b) }
      else x
    | none => x
  { x with tokens := min (x.tokens + x.rate) (125 * x.burst) }

/-- The refill of a cycle, once, before anything is charged in it (R367). -/
def State.refillSub (s : State) (l : Nat) : State :=
  if s.timebase % 120 ≠ 0 || (s.sub l).ctr.refilled = some s.now then s
  else s.onCtr l (fun c => { c with shapers := c.shapers.map (fun x => x.refill s.now), refilled := some s.now })

def execShaperRefill (lport cc : Nat) (s : State) : Host.Outcome State Fault Refusal := .next ((s.at cc).refillSub lport)

/-! ### Eligibility (R300, R302, R364) -/

/-- Bytes that the replay buffer of a sub-port holds, and its size. -/
def replayUsed (x : SubPort) : Nat := (x.replay.map (fun e => e.2.length)).foldl (· + ·) 0
def State.replaySize (s : State) (l : Nat) : Nat := 262144 / max 1 (s.enabledSubs (lportPhys l)).length

def State.replayRoom (s : State) (l bytes : Nat) : Bool := replayUsed (s.sub l) + bytes ≤ s.replaySize l

/-- Credits that a sub-port may still use on a VC. -/
def SubPort.creditLeft (x : SubPort) (vc : Nat) : Nat := nth x.granted vc 0 - nth x.usedCr vc 0

/-- A packet may be started: its header cell is on chip, with credits for the whole packet and room for the HEAD unit in the replay
buffer; a frame has all its cells on chip (R302, R347, R350). -/
def State.startable (s : State) (l c : Nat) (x : Load) : Bool :=
  let here := (s.listCells l c).filter (fun q => q.load = x.id)
  match x.cargo with
  | .eth .. => here.length = x.cells && here.all (fun q => !q.spilled)
  | .plp p => 1 + 4 * s.wireFlits l p ≤ (s.sub l).creditLeft p.vc && s.replayRoom l 80 && (here.head?.map (·.spilled)) = some false

/-- The gate is open and the head fits (R370). -/
def State.gateFit (s : State) (l c : Nat) (x : Load) : Bool := (s.sub l).ctr.gates.fits s.timebase c (s.txCc l (s.cost l x))

/-- The head of a class was shed in this cycle: the next packet becomes the head in the following one (R372). -/
def State.shedNow (s : State) (l c : Nat) : Bool := (s.sub l).ctr.shedAt.look c = some s.now

/-- Class c of a sub-port is eligible. -/
def State.classReady (s : State) (l c : Nat) : Bool :=
  match s.headLoad l c with
  | none => false
  | some x => (((s.sub l).ctr.paused.look c).isNone) && s.gateFit l c x && (s.sub l).ctr.conforms c && s.startable l c x && !s.shedNow l c

/-- Whether class c, in some of `span` cycles from the one in which entry i has `left` cycles left, is open and too narrow for a transmit
time: the last of them in each entry is the narrowest. Fuel bounds the entries passed. -/
def GateList.misses (g : GateList) (c tx : Nat) : Nat → Nat → Nat → Nat → Bool
  | 0, _, _, _ => false
  | n + 1, i, left, span =>
    let k := min left span
    let j := (i + 1) % max 1 g.entries.length
    if span = 0 then false
    else (g.entries[i]?).any (fun e => e.openMask.toNat.testBit c) && (g.window c i (left + 1 - k)).any (fun w => decide (w < tx)) ||
      GateList.misses g c tx n j (((g.entries[j]?).map (·.duration)).getD 0) (span - k)

/-- A head did not fit an open gate in some cycle from one on up to another (R370). -/
def State.missed (s : State) (l c : Nat) (x : Load) (from_ to_ : Nat) : Bool :=
  let g := (s.sub l).ctr.gates
  let at_ := g.now (s.timebase - (s.now - from_))
  g.enable && g.misses c (s.txCc l (s.cost l x)) (g.entries.length + 1) at_.1 at_.2 (min (to_ + 1 - from_) g.cycle)

/-- Records the heads: one that was none before is the head from this cycle on, after a shed from the next (R372). -/
def State.noteHeads (s : State) (l : Nat) : State :=
  (List.range 8).foldl (fun s c =>
    match s.headLoad l c with
    | some x =>
      if ((s.sub l).ctr.heads.look c).map (·.1) = some x.id then s
      else s.onCtr l (fun t => { t with heads := t.heads.put c (x.id, if s.shedNow l c then s.now + 1 else s.now) })
    | none => s) s

/-- Counts the heads of open classes that do not fit their window, each once, in the first cycle in which they do not (R370): all cycles
up to one are looked at. -/
def State.countHoldsTo (s : State) (l to_ : Nat) : State :=
  let s := (List.range 8).foldl (fun s c =>
    match s.headLoad l c with
    | some x =>
      let t := (s.sub l).ctr
      if t.held.look c ≠ some x.id && s.missed l c x (max (((t.heads.look c).map (·.2)).getD s.now) t.seen) to_ then
        (s.onCtr l (fun t => { t with gateHold := satInc t.gateHold, held := t.held.put c x.id })).tallyCtr l 2
      else s
    | none => s) (s.noteHeads l)
  s.onCtr l (fun t => { t with seen := max t.seen to_ })

/-- The same up to the present cycle. -/
def State.countHolds (s : State) (l : Nat) : State := s.countHoldsTo l s.now

/-! ### Deficit round robin (R365) -/

/-- drr_select, with n steps left. -/
def State.drrLoop (s : State) (l : Nat) : Nat → Contour → Option Nat × Contour
  | 0, x => (none, x)
  | n + 1, x =>
    let c := x.ptr
    let next : Contour := { x with ptr := (c + 1) % 8, fed := false }
    if (s.listCells l c).isEmpty then State.drrLoop s l n { next with deficit := x.deficit.set c 0 }
    else if s.classReady l c then
      let d := nth x.deficit c 0 + (if x.fed then 0 else 64 * nth x.quantum c 0)
      let cost := ((s.headLoad l c).map (s.cost l)).getD 0
      if cost ≤ d then (some c, { x with fed := true, deficit := x.deficit.set c (d - cost) })
      else State.drrLoop s l n { next with deficit := x.deficit.set c d }
    else State.drrLoop s l n next

/-- Chooses a class, and charges its shaper and the port's (R367). -/
def State.drrSelect (s : State) (l : Nat) : Option Nat × State :=
  let (r, x) := s.drrLoop l 9 (s.sub l).ctr
  match r with
  | none => (none, s.onCtr l (fun _ => x))
  | some c =>
    let cost := ((s.headLoad l c).map (s.cost l)).getD 0
    (some c, s.onCtr l (fun _ => { x with shapers := (x.shapers.modify c (·.charge cost)).modify 8 (·.charge cost) }))

/-! ### Shedding at egress (R372, R373) -/

/-- The frame at a head can no longer meet its deadline. -/
def State.headLate (s : State) (l c : Nat) : Bool :=
  match s.headLoad l c with
  | some x => !s.shedNow l c && (match x.cargo with
    | .eth _ dl _ => dl ≠ 0 && dl < s.timebase + s.txCc l (s.cost l x)
    | .plp _ => false)
  | none => false

/-- A load leaves a sub-port's list, with the status of its copy. -/
def State.leaveList (s : State) (l c : Nat) (x : Load) (st : Status) : State :=
  let tgt := (x.outs.idxOf? (OutTarget.sub l)).getD 0
  let s := s.takeCells (outKey l c) (fun q => q.lport = l && q.load = x.id)
  (s.setLoad { x with gone := x.gone ++ [tgt] }).copyDone x.id tgt st

def State.shedHead (s : State) (l c : Nat) : State :=
  match s.headLoad l c with
  | some x =>
    (match x.cargo with
      | .eth _ _ note =>
        let s := (s.leaveList l c x .deadlineMissed).onCtr l (fun t => { t with shedOut := satInc t.shedOut, shedAt := t.shedAt.put c s.now })
        let s := s.tallyCtr l 1
        (s.drift 14 x.part.toList).frameNotice note (x.part.getD 0) .deadlineMissed
      | .plp _ => s)
  | none => s

/-- Sheds the late heads of a cycle. -/
def State.shedHeads (s : State) (l : Nat) : State := ((List.range 8).filter (s.headLate l)).foldl (fun s c => s.shedHead l c) s

def execEgressDeadlineShed (lport cc : Nat) (s : State) : Host.Outcome State Fault Refusal :=
  .next (let s := s.at cc
    ((s.countHoldsTo lport (s.now - 1)).shedHeads lport).noteHeads lport)

/-! ### Unit selection (R361) -/

/-- A sequenced unit of a KIND leaves and is kept for replay (R299, R302). -/
def State.sendUnit (s : State) (l kind vc credits : Nat) (body : List Byte) : State :=
  let x := s.sub l
  let bs := WireUnit.bytes ⟨kind, vc, x.txNext, body⟩
  (s.setSub l { x with txNext := (x.txNext + 1) % 4096, replay := x.replay ++ [(x.txNext, bs)], usedCr := x.usedCr.modify vc (· + credits),
                       sinceCtl := x.sinceCtl + 1 }).emit (.unit l bs)

/-- The unit that has just left carries traffic of a partition (R175). -/
def State.carry (s : State) (l : Nat) (part : Option Nat) : State :=
  match part with
  | some p => s.onSub l (fun x => { x with
      carries := x.carries.filter (fun e => x.replay.any (fun r => r.1 = e.1)) ++ [((x.txNext + 4095) % 4096, p)] })
  | none => s

/-- An IDLE unit. -/
def State.sendIdle (s : State) (l : Nat) : State :=
  (s.onSub l (fun x => { x with sinceCtl := x.sinceCtl + 1 })).emit (.unit l (WireUnit.bytes ⟨0, 0, 0, []⟩))

/-- The VCs whose totals may be reported: level 3 of the die's REORDER pool withholds those of switch-mode sub-ports (R454). -/
def State.creditVcs (s : State) (l : Nat) : List Nat :=
  let x := s.sub l
  if x.cfg.mode = .switch && 3 ≤ (s.pool (lportDie l) poolReorder).level then x.credDue.filter (· = 8) else x.credDue

def State.ctlPending (s : State) (l : Nat) : Bool := (s.sub l).ackDue || (s.sub l).nakDue || !(s.creditVcs l).isEmpty

/-- A LINK_CTRL unit (R301). -/
def State.sendCtl (s : State) (l : Nat) : State :=
  let x := s.sub l
  let vc := ((s.creditVcs l).head?).getD 8
  let body := leBytes 8 (put 11 0 ((x.rxNext + 4095) % 4096) + flag 12 x.nakDue + put 19 16 vc + put 35 20 (nth x.freed vc 0))
  (s.emit (.unit l (WireUnit.bytes ⟨1, 0, 0, body⟩))).setSub l
    { x with ackDue := false, nakDue := false, credDue := x.credDue.filter (· ≠ vc), sinceCtl := 0 }

/-- The last cell of its packet that the next data unit of a packet in progress needs. -/
def TxCur.needs (t : TxCur) (p : Packet) : Nat :=
  match t.conv with
  | none => min p.flits t.next
  | some pr => min p.flits (if t.next = t.last then p.flits else ceilDiv (256 * t.next * 8 / fmtBits pr.wireFmt * tensorBytes pr.srcFmt) 256)

/-- The data flit that a packet in progress sends next, and its saturations. -/
def TxCur.flit (t : TxCur) (p : Packet) : List Byte × Nat :=
  match t.conv with
  | none => (padTo 256 0 ((p.payload.drop (256 * (t.next - 1))).take 256), 0)
  | some pr => quantFlit pr t.draws p t.next

/-- The next DATA unit of the packet in progress, if the cells it needs have been released and are on chip (R347, R361). -/
def State.dataUnit (s : State) (l : Nat) (t : TxCur) : Option State :=
  match s.load t.load with
  | none => none
  | some x =>
    match x.pkt with
    | none => none
    | some p =>
      let k := t.needs p
      let tgt := (x.outs.idxOf? (OutTarget.sub l)).getD 0
      let mine := fun (q : QCell) => q.lport = l && q.load = t.load && (q.idx ≤ k || t.next = t.last)
      if !s.replayRoom l 264 || nth x.rel tgt 0 ≤ k || (s.listCells l t.cls).any (fun q => mine q && q.spilled) then none
      else
        let (body, sat) := t.flit p
        let s := if sat = 0 then s else s.countSub l cntSat sat
        let s := ((s.takeCells (outKey l t.cls) mine).sendUnit l 5 t.cls 0 body).carry l x.part
        some (if t.next = t.last then (s.onSub l (fun x => { x with cur := none })).copyDone t.load tgt .ok
          else s.onSub l (fun x => { x with cur := some { t with next := t.next + 1 } }))

/-- The HEAD unit of a packet, with the header of its wire form where the port quantises it; its elements draw now (R312, R314). -/
def State.headUnit (s : State) (l c : Nat) (x : Load) (p : Packet) : State :=
  let conv := s.headQuant l p
  let s := if (s.quantProfile (lportPhys l) p).isSome && conv.isNone then s.drop l dropConvSkip else s
  let (q, ms, s) : Packet × List RMode × State := match conv with
    | some pr =>
      let port := s.port (lportPhys l)
      let (ms, lanes) := quantModes pr port.lanes (quantElems pr p)
      (quantHead pr p, ms, s.setPort (lportPhys l) { port with lanes := lanes })
    | none => (p, [], s)
  let s := (s.takeCells (outKey l c) (fun y => y.lport = l && y.load = x.id && y.idx = 0)).combineSent x.id
  let s := (s.sendUnit l 4 p.vc q.credits (unitBody q)).carry l x.part
  s.onSub l (fun y => { y with cur := some { load := x.id, cls := c, next := 1, last := q.flits, conv := conv, draws := ms } })

/-- A whole frame of an Ethernet sub-port, marked where Traverse marked it, with its FCS (R315, R351). -/
def State.frameOut (s : State) (l c : Nat) (x : Load) (bs : List Byte) (note : Option (Nat × Nat × Nat)) : State :=
  let marked := (s.listCells l c).any (fun q => q.load = x.id && q.mark)
  let s := (s.emit (.frame l (withCrc (if marked then markCe bs else bs)))).leaveList l c x .ok
  s.frameNotice note (x.part.getD 0) .ok

/-- Entry 5 of R361: whether a unit left. -/
def State.startPacket (s : State) (l : Nat) : Bool × State :=
  let (r, t) := s.drrSelect l
  match r.bind (fun c => (t.headLoad l c).map (fun x => (c, x))) with
  | none => (false, t)
  | some (c, x) => (true, match x.cargo with
    | .plp p => t.headUnit l c x p
    | .eth bs _ note => t.frameOut l c x bs note)

/-- Entries 4 to 7 of R361. -/
def State.laterUnit (s : State) (l : Nat) : State :=
  let (sent, t) := match (s.sub l).cur with
    | some t => (match s.dataUnit l t with
      | some u => (true, u)
      | none => (false, s))
    | none => s.startPacket l
  if sent then t else if t.ctlPending l then t.sendCtl l else t.sendIdle l

/-- The next unit of a PLP sub-port that is UP. -/
def State.plpUnit (s : State) (l : Nat) : State :=
  let x := s.sub l
  match x.resend with
  | (_, bs) :: rest => (s.setSub l { x with resend := rest, sinceCtl := x.sinceCtl + 1 }).emit (.unit l bs)
  | [] =>
    match x.ctrlQ, decide (0 < x.creditLeft 8) && s.replayRoom l 80 with
    | p :: rest, true =>
      (((s.setSub l { x with ctrlQ := rest }).sendUnit l 3 8 1 (unitBody p)).onCtr l (fun c => { c with ctrlTx := satInc c.ctrlTx })).tallyCtr l 3
    | _, _ => if s.ctlPending l && 63 ≤ x.sinceCtl then s.sendCtl l else s.laterUnit l

/-- A unit boundary of a port's transmitter (R361); of an Ethernet sub-port, PFC that is due goes before its frames (R315). A PLP sub-port that is in IDENT or FENCED sends IDLE (R527). -/
def execTxUnitSelect (lport cc : Nat) (s : State) : Host.Outcome State Fault Refusal :=
  .next (let s := s.at cc
    let x := s.sub lport
    if x.cfg.mode = .disabled then s
    else if x.cfg.mode = .ethernet then
      if x.state ≠ .up then s
      else
        let s := (((s.refillSub lport).countHoldsTo lport (s.now - 1)).shedHeads lport).countHolds lport
        let (sent, t) := s.sendPfc lport
        if sent then t else ((s.startPacket lport).2).noteHeads lport
    else match x.state with
      | .up => (((s.refillSub lport).countHolds lport).plpUnit lport).noteHeads lport
      | .ident | .fenced => s.sendIdle lport
      | _ => s)

/-! ### Gate lists in time (R369, R371) -/

/-- The list moves to its next entry: what is open follows DTM_TIMEBASE; packets that no longer fit are counted. -/
def execGateEntryChange (lport cc : Nat) (s : State) : Host.Outcome State Fault Refusal :=
  .next ((s.at cc).countHolds lport)

/-- A new list takes effect at its cycle start; a command that disables the list, in a cycle after its acceptance. -/
def execGateListStart (lport cc : Nat) (s : State) : Host.Outcome State Fault Refusal :=
  .next (let s := s.at cc
    let c := (s.sub lport).ctr
    match c.pending with
    | some g =>
      if c.pendAt < s.now && (!g.enable || s.timebase % max 1 g.cycle = 0) then
        ((s.countHoldsTo lport (s.now - 1)).onCtr lport (fun c => { c with gates := g, pending := none })).countHolds lport
      else s
    | none => s)

end Sys2Proof.Machine
end

