-- ==== Sys2Proof/Machine/PortCmd.lean ====
section
/-! DEFINITION. The Bearing commands (R293, R304, R322, R327). -/

namespace Sys2Proof

/-- A sub-port or entry of the function's own partition (R327). -/
def Kci.ownPart (k : Kci) (p : Option Nat) : Bool × Machine.Status :=
  (match k.src with
    | .vf v => p ≠ some (v - 1)
    | _ => false, .accessDenied)

end Sys2Proof

namespace Sys2Proof.Machine

/-! ### PORT_CONFIG -/

/-- A sub-port configuration outside the limits of R309 and R322. -/
def subBad (c : SubConfig) : Bool :=
  (c.unpausable && (c.mode ≠ .ethernet || c.onchipLimit < 16 || 2048 < c.onchipLimit || c.ringSize < 2 ^ 20 || 2 ^ 30 < c.ringSize ||
      c.ringSize % 4096 ≠ 0 || c.ringBase % 4096 ≠ 0)) ||
    (c.mode = .endpoint && (c.retxSize < 2 ^ 22 || 2 ^ 28 < c.retxSize || c.rtoLog2 < 15 || 31 < c.rtoLog2))

/-- The ONCHIP_LIMIT values of the unpausable sub-ports of a port. -/
def limitSum (cs : List SubConfig) : Nat := ((cs.filter (·.unpausable)).map (·.onchipLimit)).foldl (· + ·) 0

/-- Enabled sub-ports of the other ports of a port's group. -/
def State.groupOthers (s : State) (port : Nat) : Nat :=
  ((((List.range 4).map (port / 4 * 4 + ·)).filter (· ≠ port)).map (fun p => (s.enabledSubs p).length)).foldl (· + ·) 0

/-- Whether a configuration may be put on a sub-port in its present state. -/
def modeFree (x : SubPort) (c : SubConfig) : Bool := x.cfg.mode = c.mode || c.mode = .disabled || x.state = .disabled

/-- A sub-port goes to DISABLED. -/
def State.disableSub (s : State) (l : Nat) : State :=
  let s := if (s.sub l).state = .up then (s.leaveUp l .disabled failCommand).scanLost else s
  ((s.dataPath l true).onSub l (fun x => { x with state := .disabled, since := s.now, fecLock := false, lanes := 0 })).progress 0x0302 l

/-- Sets one sub-port. -/
def State.configSub (s : State) (l : Nat) (c : SubConfig) : State :=
  let s := if c.mode = .disabled && (s.sub l).state ≠ .disabled then s.disableSub l else s
  s.onSub l (fun x => { x with cfg := c, ringPut := if x.ring.isEmpty then 0 else x.ringPut })

def State.portConfig (s : State) (k : Kci) (port width rate : Nat) (subs : List SubConfig) : KRes :=
  let x := s.port port
  let old := (List.range 8).map (8 * port + ·)
  let new := (List.range (8 / width)).map (8 * port + width * ·)
  let allOff := old.all (fun l => (s.sub l).state = .disabled)
  KRes.check s [k.denied,
      (128 ≤ port || !([8, 4, 2, 1].contains width) || 3 ≤ rate || subs.length ≠ 8 / width || subs.any subBad || 2048 < limitSum subs ||
        subs.any (fun c => c.unpausable && !s.systemLocal (port / 32) c.ringBase c.ringSize), .badOperand),
      (subs.any (fun c => match c.part with
        | some p => !s.partExists p
        | none => false), .partInvalid),
      (old.any (fun l => (s.sub l).state = .fenced), .portState),
      (16 < s.groupOthers port + (subs.filter (fun c => c.mode ≠ .disabled)).length, .portLimit),
      ((x.width ≠ width || x.rate ≠ rate) && !allOff, .portState),
      ((new.zip subs).any (fun e => !modeFree (s.sub e.1) e.2), .portState)]
    (fun _ =>
      let s := if x.width ≠ width then old.foldl (fun s l => s.onSub l (fun y => { y with cfg := ({} : SubPort).cfg })) s else s
      let s := s.setPort port { s.port port with width := width, rate := rate }
      { st := (new.zip subs).foldl (fun s e => s.configSub e.1 e.2) s })

def execPortConfig (k : Kci) (port width rate : Nat) (subs : List SubConfig) (s : State) : Host.Outcome State Fault Refusal :=
  .next (kciRun 0x0301 k s (fun s => s.portConfig k port width rate subs) (conf := true) (regions := [port / 4]))

/-! ### PORT_LINK -/

/-- A fresh series of attempts; a sub-port that its cage holds goes to DOWN instead (R326). -/
def State.startTraining (s : State) (l : Nat) : State :=
  let s := s.onSub l (fun x => { x with attempts := 0 })
  if s.heldDown l then
    (s.onSub l (fun x => { x with state := .down, cause := failCommand, since := s.now, fecLock := false, lanes := 0 })).progress 0x0302 l
  else s.train l

/-- PORT_LINK; in RETURNED and DECOMMISSIONED every sub-port stays DISABLED: UP completes with LC_STATE (R490, log 27). -/
def State.portLink (s : State) (k : Kci) (l : Nat) (a : LinkAction) : KRes :=
  let x := s.sub l
  let wait := fun (s : State) => ({ st := s, keys := if (s.sub l).state = .up || (s.sub l).state = .down then [] else [l] } : KRes)
  KRes.check s [k.denied, (1024 ≤ l, .badOperand),
      (!s.subExists l || x.cfg.mode = .disabled || x.state = .fenced, .portState),
      (a = .up && (s.crt.lc = .returned || s.crt.lc = .decommissioned), .lcState),
      (x.state = .disabled && a ≠ .up, .portState)]
    (fun _ =>
      match a with
      | .up => wait (if x.state = .disabled || x.state = .down || x.state = .miswired then s.startTraining l else s)
      | .down =>
        if x.state = .up then wait ((s.leaveUp l .down failCommand).scanLost)
        else if x.state = .down then wait s
        else wait (s.onSub l (fun x => { x with state := .down, cause := failCommand, since := s.now, fecLock := false, lanes := 0 }))
      | .retrain =>
        if s.heldDown l then wait s
        else wait ((if x.state = .up then (s.leaveUp l .training failCommand).scanLost else s).startTraining l))

def execPortLink (k : Kci) (lport : Nat) (action : LinkAction) (s : State) : Host.Outcome State Fault Refusal :=
  .next (kciRun 0x0302 k s (fun s => s.portLink k lport action) (regions := [lportRegion lport]))

/-! ### PORT_STATUS and PORT_PARTNER -/

/-- BRG_LINK_STATUS (R328). -/
def State.linkStatus (s : State) (l : Nat) : Word :=
  let x := s.sub l
  wd (put 2 0 x.state.code + put 7 4 x.cause + put 11 8 x.attempts + flag 12 x.fecLock + put 20 13 x.lanes + put 63 32 x.downs)

/-- BRG_LINK_STATUS, the nine counters in the order of R328, RING_FULL, NO_SPILL and LATE, then the drop count of each cause in
the order of log 50. -/
def State.portStatusWords (s : State) (l : Nat) : List Word :=
  let x := s.sub l
  s.linkStatus l :: (x.counts ++ x.sheds ++ (List.range 11).map (fun i => x.drops.lookD i 0)).map wd

def execPortStatus (k : Kci) (lport : Nat) (s : State) : Host.Outcome State Fault Refusal :=
  .next (kciRun 0x0303 k s (fun s =>
    KRes.check s [k.ownPart (s.sub lport).cfg.part, (!s.subExists lport, .badOperand)] (fun _ => { st := s, result := s.portStatusWords lport }))
    (records := false) (regions := [lportRegion lport]))

def execPortPartner (k : Kci) (lport : Nat) (s : State) : Host.Outcome State Fault Refusal :=
  .next (kciRun 0x0304 k s (fun s =>
    KRes.check s [k.ownPart (s.sub lport).cfg.part, (!s.subExists lport, .badOperand)] (fun _ =>
      match (s.sub lport).partner with
      | some i => { st := s, result := leWords 8 i.bytes }
      | none => .fail s .notPresent))
    (records := false) (regions := [lportRegion lport]))

/-! ### Steering and converter profiles -/

/-- Reserved bits of a steering entry are clear and its count lies in 1 to 64 (R317). -/
def steerFields (ws : List Word) : Bool :=
  let w := fun i => nth ws i 0
  ws.length = 16 && bits (w 0) 63 57 = 0 && bits (w 1) 31 14 = 0 && (List.range 4).all (fun i => w (12 + i) = 0) &&
    1 ≤ bits (w 1) 13 7 && bits (w 1) 13 7 ≤ 64

/-- The tiles and ports of an entry lie in its partition; a port without an enabled sub-port has no owner. -/
def State.steerInside (s : State) (die : Nat) (x : Steer) : Bool :=
  (List.range (bits (x.word 1) 13 7)).all (fun i => (s.tile (coord (x.tile i))).part = some x.part) &&
    (List.range 32).all (fun i => !(x.word 0).toNat.testBit i ||
      (!(s.enabledSubs (32 * die + i)).isEmpty && (s.enabledSubs (32 * die + i)).all (fun l => (s.sub l).cfg.part = some x.part)))

def execPortSteerSet (k : Kci) (die index : Nat) (entry : List Word) (s : State) : Host.Outcome State Fault Refusal :=
  .next (kciRun 0x0306 k s (fun s =>
    let x : Steer := { words := entry }
    KRes.check s [k.denied, (4 ≤ die || 256 ≤ index, .badOperand),
        (bit (x.word 0) 32 && !steerFields entry, .badOperand), (!s.steerInside die x, .steerInvalid)]
      (fun _ => { st := s.setFab { s.fab with steer := s.fab.steer.put (256 * die + index) x } })) (conf := true) (key := 2) (dies := [die]))

/-- The entry and the count of frames it has decided. -/
def execPortSteerRead (k : Kci) (die index : Nat) (s : State) : Host.Outcome State Fault Refusal :=
  .next (kciRun 0x0307 k s (fun s =>
    let x := s.fab.steer.lookD (256 * die + index) { words := List.replicate 16 0 }
    KRes.check s [k.ownPart (if bit (x.word 0) 32 then some x.part else none), (4 ≤ die || 256 ≤ index, .badOperand)]
      (fun _ => { st := s, result := x.words ++ [wd x.seq] })) (records := false) (dies := [die]))

def execPortConvSet (k : Kci) (port conv : Nat) (profile : ConvProfile) (s : State) : Host.Outcome State Fault Refusal :=
  .next (kciRun 0x0308 k s (fun s =>
    KRes.check s [k.denied, (128 ≤ port || conv = 0 || 8 ≤ conv, .badOperand), (!profileOk profile, .formatInvalid)]
      (fun _ => { st := s.setPort port { s.port port with profiles := (s.port port).profiles.put conv profile } }))
    (conf := true) (key := 2) (regions := [port / 4]))

end Sys2Proof.Machine
end

