-- ==== Sys2Proof/Machine/ContourCmd.lean ====
section
/-! DEFINITION. The Contour commands and the state registers they return (R366, R368, R371, R379, R380). -/

namespace Sys2Proof.Machine

/-! ### State registers (R380) -/

/-- CTR_CLASS_STATE of class c. -/
def State.ctrClassState (s : State) (l c : Nat) : Word :=
  let x := (s.sub l).ctr
  let head := s.headLoad l c
  wd (put 15 0 (nth x.quantum c 0) + flag 16 (!(s.listCells l c).isEmpty) + flag 17 (match head with
    | some h => s.gateFit l c h
    | none => false) + flag 18 (x.conforms c) + flag 19 (x.paused.look c).isSome + flag 20 (x.fed && x.ptr = c) + put 63 32 (nth x.deficit c 0))

/-- CTR_SHAPER_STATE of a class shaper, or the port shaper at 8. -/
def State.ctrShaperState (s : State) (l i : Nat) : Word :=
  let x := (s.sub l).ctr.shaper i
  wd (put 21 0 x.rate + flag 22 x.enable + flag 23 x.pending.isSome + flag 24 x.conforms + put 63 32 (unsign 32 x.tokens))

/-- CTR_GATE_STATUS. -/
def State.ctrGateStatus (s : State) (l : Nat) : Word :=
  let x := (s.sub l).ctr
  let g := x.gates
  wd ((if g.enable then put 7 0 (g.now s.timebase).1 else 0) + put 15 8 (g.openMask s.timebase) + flag 16 g.enable + flag 17 x.pending.isSome +
    (if g.enable then put 62 32 g.cycle else 0))

/-! ### Commands (R379) -/

/-- The floor of a quantum: 68 on a PLP sub-port, 145 on an Ethernet one; a DISABLED one takes either (R366, log 65). -/
def quantumFloor (m : PortMode) : Nat := if m = .ethernet then 145 else 68

/-- A command that acts on a FENCED sub-port is turned away (R529). -/
def State.subFenced (s : State) (l : Nat) : Bool × Status := ((s.sub l).state = .fenced, .portState)

def execCtrClassCfg (k : Kci) (lport cls quantum : Nat) (s : State) : Host.Outcome State Fault Refusal :=
  .next (kciRun 0x040B k s (fun s =>
    KRes.check s [k.denied, (!s.subExists lport || 8 ≤ cls || 65535 < quantum, .badOperand), s.subFenced lport,
        (quantum < quantumFloor (s.sub lport).cfg.mode, .ctrInvalid)]
      (fun _ => { st := s.onCtr lport (fun c => { c with quantum := c.quantum.set cls quantum }) }))
    (conf := true) (key := 2) (regions := [lportRegion lport]))

def execCtrShaperSet (k : Kci) (lport : Nat) (which : ShaperId) (enable : Bool) (rate burst : Nat) (s : State) : Host.Outcome State Fault Refusal :=
  .next (kciRun 0x040C k s (fun s =>
    let i := match which with
      | .cls c => c
      | .port => 8
    let bad := match which with
      | .cls c => decide (8 ≤ c)
      | .port => false
    let at_ := s.acceptedAt k 0x040C
    KRes.check s [k.denied, (!s.subExists lport, .badOperand), s.subFenced lport,
        (bad || rate = 0 || 1600000 < rate || burst = 0 || 2 ^ 24 < burst, .ctrInvalid)]
      (fun _ => { st := s.onCtr lport (fun c => { c with shapers := c.shapers.modify i (fun x => { x with pending := some (rate, burst, enable), pendAt := at_ }) }) }))
    (conf := true) (key := 2) (regions := [lportRegion lport]))

/-- A gate entry from its word; none where a reserved bit is set or the duration lies outside its range. -/
def gateOf (w : Word) : Option GateEntry :=
  if bit w 31 || bits w 63 40 ≠ 0 || bits w 30 0 = 0 || 1875000000 < bits w 30 0 then none else some ⟨bits w 30 0, BitVec.ofNat 8 (bits w 39 32)⟩

def gateWord (e : GateEntry) : Word := wd (put 30 0 e.duration + put 39 32 e.openMask.toNat)

/-- Some class opens, but never long enough for the largest packet (R371). -/
def gateTooShort (es : List GateEntry) (tx : Nat) : Bool :=
  let g : GateList := ⟨es, true⟩
  (List.range 8).any (fun c =>
    es.any (fun e => e.openMask.toNat.testBit c) && (List.range es.length).all (fun i =>
      match g.window c i ((es[i]?.map (·.duration)).getD 0) with
      | some w => w < tx
      | none => false))

def State.gateSet (s : State) (k : Kci) (l : Nat) (enable : Bool) (count addr : Nat) : KRes :=
  let at_ := s.acceptedAt k 0x040D
  let put_ := fun (g : GateList) => ({ st := s.onCtr l (fun c => { c with pending := some g, pendAt := at_ }) } : KRes)
  if count = 0 || 256 < count then .fail s .ctrInvalid
  else
    let es := (leWords count (s.hostRead k.src.fnIdx addr (8 * count))).map gateOf
    let gs := es.filterMap id
    let g : GateList := ⟨gs, enable⟩
    KRes.check s [(es.any Option.isNone || 1875000000 < g.cycle || gateTooShort gs (s.txCc l (maxCost (s.sub l).cfg.mode)), .ctrInvalid)]
      (fun _ => put_ g)

def execCtrGateSet (k : Kci) (lport : Nat) (enable : Bool) (count addr : Nat) (s : State) : Host.Outcome State Fault Refusal :=
  .next (kciRun 0x040D k s (fun s =>
    KRes.check s [k.denied, (!s.subExists lport, .badOperand), s.subFenced lport] (fun _ => s.gateSet k lport enable count addr))
    (conf := true) (regions := [lportRegion lport]))

/-- A list as it is read (log 65): a word with ENABLE and the entry count from bit 8 on, then the entries. -/
def gateBytes (g : GateList) : List Byte := leBytes 8 (flag 0 g.enable + put 16 8 g.entries.length) ++ wordBytes (g.entries.map gateWord)

def execCtrGateRead (k : Kci) (lport dest : Nat) (s : State) : Host.Outcome State Fault Refusal :=
  .next (kciRun 0x040E k s (fun s =>
    KRes.check s [k.ownPart (s.sub lport).cfg.part, (!s.subExists lport, .badOperand)] (fun _ =>
      let c := (s.sub lport).ctr
      { st := s.putHost k dest (gateBytes c.gates ++ (match c.pending with
          | some g => gateBytes g
          | none => [])) })) (records := false) (regions := [lportRegion lport]))

/-- The state of the eight classes, of the nine shapers with their BURST values, and the four counters. -/
def execCtrStatus (k : Kci) (lport : Nat) (s : State) : Host.Outcome State Fault Refusal :=
  .next (kciRun 0x040F k s (fun s =>
    KRes.check s [k.ownPart (s.sub lport).cfg.part, (!s.subExists lport, .badOperand)] (fun _ =>
      let c := (s.sub lport).ctr
      { st := s, result := (List.range 8).map (s.ctrClassState lport) ++ (List.range 9).map (s.ctrShaperState lport) ++
          (List.range 9).map (fun i => wd (c.shaper i).burst) ++ [c.shedIn, c.shedOut, c.gateHold, c.ctrlTx].map wd }))
    (records := false) (regions := [lportRegion lport]))

end Sys2Proof.Machine
end

