-- ==== Sys2Proof/Machine/Dma.lean ====
section
/-! DEFINITION. The descriptors of the DMA queues: their words, their requests, their ends (R480). -/

namespace Sys2Proof.Machine

/-! ### Descriptors (R480) -/

def State.queue (s : State) (q : Nat) : DmaQueue := s.cmp.dmaq.lookD q {}
def State.setQueue (s : State) (q : Nat) (x : DmaQueue) : State := { s with cmp := { s.cmp with dmaq := s.cmp.dmaq.put q x } }

/-- The eight words of the descriptor at an index of a queue. -/
def State.dmaWords (s : State) (x : DmaQueue) (i : Nat) : List Word :=
  leWords 8 (s.hostRead x.fn (x.base + 64 * (i % 2 ^ x.log)) 64)

def dmaDesc (ws : List Word) : DmaDesc :=
  let w := fun i => nth ws i 0
  { op := bits (w 0) 1 0, sigEn := bit (w 0) 2, irq := bit (w 0) 3, sigObj := bits (w 0) 17 4, len := bits (w 0) 63 32,
    host := (w 1).toNat, dev := (w 2).toNat, compl := (w 3).toNat, jobTag := bits (w 4) 15 0, userTag := bits (w 4) 31 16, moved := 0 }

/-- Reserved fields are zero, OP and LEN name something, the record's address is a multiple of 8. -/
def dmaFields (ws : List Word) : Bool :=
  let w := fun i => nth ws i 0
  let d := dmaDesc ws
  (d.op = 1 || d.op = 2) && 0 < d.len && bits (w 0) 31 18 = 0 && d.compl % 8 = 0 && bits (w 4) 63 32 = 0 && w 5 = 0 && w 6 = 0 && w 7 = 0

/-- Sends a vector that a descriptor or a request of a tile names; the spacing of R473 is that of event rings. -/
def State.rawMsix (s : State) (f v : Nat) : State := (s.setFn f { s.fn f with lastMsix := (s.fn f).lastMsix.put v s.now }).emit (.msix f v)

/-- What the end of a descriptor gives: its completion record, then the signal, then the vector. -/
def State.dmaRecord (s : State) (x : DmaQueue) (d : DmaDesc) (st : Status) : State :=
  let s := if d.compl = 0 then s else s.hostWrite x.fn d.compl (leBytes 8 (put 7 0 st.code + put 31 16 d.userTag + put 63 32 d.moved))
  let s := if d.sigEn then
      s.merSend { id := 0, obj := d.sigObj, act := .signal false, src := .kci, tile := 0, strand := 0, part := x.part, stamp := s.timebase, reg := 0 }
    else s
  if d.irq then s.rawMsix x.fn x.vector else s

/-- HEAD passes the descriptors that have ended already; the fuel bounds them. -/
def DmaQueue.pass : Nat → DmaQueue → DmaQueue
  | 0, x => x
  | n + 1, x => if x.skip.contains x.head then DmaQueue.pass n { x with head := (x.head + 1) % 2 ^ 17, skip := x.skip.filter (· ≠ x.head) } else x

/-- The descriptor at the head ends; the queue stops on any status but OK. -/
def State.dmaEnd (s : State) (q : Nat) (d : DmaDesc) (st : Status) : State :=
  let x := s.queue q
  let y := DmaQueue.pass x.skip.length { x with head := (x.head + 1) % 2 ^ 17, last := st.code, done := (x.done + 1) % 2 ^ 32, cur := none, waits := [], st := .ok }
  (s.dmaRecord x d st).setQueue q { y with state := if st ≠ .ok then .stopped else if y.head = y.tail then .idle else .active }

/-- Sends the requests of n bytes of a descriptor from device address a on: BULK, from the hub link's port of the die that they reach
(R405, R412, R450). A write carries the bytes of host memory. -/
def State.dmaSend (s : State) (q : Nat) (x : DmaQueue) (d : DmaDesc) (a n : Nat) : State :=
  ((s.viewPieces (x.part.getD 64) a n).getD []).foldl (fun s p =>
    let h := d.host + (a - d.dev) + p.2.1
    let die := match p.1 with
      | .stk c _ _ => pchDie c
      | _ => 0
    let y := s.queue q
    let s := s.setQueue q { y with waits := y.waits ++ [s.stk.next] }
    s.memSend { id := 0, user := .dma q h, write := decide (d.op = 1), target := p.1, len := p.2.2,
                data := if d.op = 1 then s.hostRead x.fn h p.2.2 else [], cls := 2, part := none, die := die, port := 260 }) s

/-- A request of a descriptor has completed: what it read goes to host memory; the descriptor ends with the last of its bytes, or
where one of its requests failed. That of a disabled queue ends with its turn, and gives no record (R463). -/
def State.dmaGot (s : State) (r : MemReq) (q host : Nat) (st : Status) : State :=
  let x := s.queue q
  match x.cur with
  | none => s
  | some d =>
    if !x.waits.contains r.id then s
    else
      let s := if st = .ok && !r.write then s.hostWrite x.fn host (padTo r.len 0 r.data) else s
      let d := if st = .ok then { d with moved := d.moved + r.len } else d
      let y := { x with waits := x.waits.filter (· ≠ r.id), st := if x.st = .ok then st else x.st, cur := some d }
      let s := s.setQueue q y
      if !y.waits.isEmpty then s
      else if y.state = .disabled then s.setQueue q { y with cur := none, st := .ok }
      else if y.st ≠ .ok then s.dmaEnd q d y.st
      else if d.len ≤ d.moved then s.dmaEnd q d .ok
      else s

/-- The descriptor i places behind the head of a queue. -/
def State.dmaAt (s : State) (x : DmaQueue) (i : Nat) : DmaDesc :=
  match i, x.cur with
  | 0, some d => d
  | _, _ => dmaDesc (s.dmaWords x (x.head + i))

/-- The places behind the head of the submitted descriptors that a test selects and that have not ended. -/
def State.dmaHits (s : State) (x : DmaQueue) (p : DmaDesc → Bool) : List Nat :=
  if x.state = .disabled then []
  else (List.range (ringUsed x.tail x.head)).filter (fun i => !x.skip.contains ((x.head + i) % 2 ^ 17) && p (s.dmaAt x i))

/-- Ends, in order, the descriptors of a queue that a test selects, and stops the queue where it holds one such (R479, R532). A
descriptor that is not selected stays in its place (log 14). The number of descriptors ended. -/
def State.dmaStop (s : State) (q : Nat) (st : Status) (p : DmaDesc → Bool) : Nat × State :=
  let x := s.queue q
  let hits := s.dmaHits x p
  if hits.isEmpty then (0, s)
  else
    let y := { x with state := .stopped, last := st.code, done := (x.done + hits.length) % 2 ^ 32, cur := if hits.contains 0 then none else x.cur, waits := if hits.contains 0 then [] else x.waits,
                      skip := x.skip ++ hits.map (fun i => (x.head + i) % 2 ^ 17) }
    let t := (hits.foldl (fun t i => t.dmaRecord x (s.dmaAt x i) st) s).setQueue q (DmaQueue.pass y.skip.length y)
    (hits.length, if hits.contains 0 then t.memCancel (fun r => x.waits.contains r.id) else t)

/-- The same for every queue of a list; the number of descriptors ended. -/
def State.dmaStopAll (s : State) (qs : List Nat) (st : Status) (p : DmaDesc → Bool) : Nat × State :=
  qs.foldl (fun r q =>
    let e := r.2.dmaStop q st p
    (r.1 + e.1, e.2)) (0, s)

end Sys2Proof.Machine
end

