-- ==== Sys2Proof/Machine/Region.lean ====
section
/-! DEFINITION. Regions of stacked memory: the checks of STK_REGION_SET, and its zeroing (R407 to R409). -/

namespace Sys2Proof

/-- The owner number of a region: a partition, or 64 for the device. -/
def RegionOwner.idx : RegionOwner → Nat
  | .part p => p
  | .system => 64

def RegionDef.owner (r : RegionDef) : Nat := if r.system then 64 else r.part

/-- Whether a region holds the block position b of a die. -/
def RegionDef.covers (r : RegionDef) (die b : Nat) : Bool := (r.global || r.die = die) && r.firstBand ≤ b && b < r.firstBand + r.bands

def RegionDef.toRegion (r : RegionDef) : Machine.StkRegion := ⟨r.global, r.die, r.vbase, r.firstBand, r.bands⟩

/-- Operands outside the ranges that R407 gives them (R562). -/
def RegionDef.outside (r : RegionDef) : Bool := r.bands = 0 || r.vbase % 2 ^ 30 ≠ 0

end Sys2Proof

namespace Sys2Proof.Machine

/-! ### Bands (R407, R408) -/

/-- Two assignments share a block position in some pseudo-channel. -/
def bandsMeet (g1 : Bool) (d1 f1 n1 : Nat) (g2 : Bool) (d2 f2 n2 : Nat) : Bool :=
  (g1 || g2 || d1 = d2) && f1 < f2 + n2 && f2 < f1 + n1

/-- The owner a band position of a die was last assigned to. -/
def lastOwner (us : List BandUse) (die b : Nat) : Option Nat :=
  (us.find? (fun u => (u.global || u.die = die) && u.first ≤ b && b < u.first + u.bands)).map (·.owner)

/-- Zeroing (R408): the blocks of the new region that were last assigned to a different owner. -/
def State.zeroBands (s : State) (r : RegionDef) : State :=
  let hit := fun (block : Nat) =>
    let die := pchDie (block / blocksPerPch)
    let b := block % blocksPerPch
    r.covers die b && (match lastOwner s.stk.uses die b with
      | some o => o ≠ r.owner
      | none => false)
  { s with stk := { s.stk with mem := s.stk.mem.filter (fun c => !hit (c.1 / 4096)), bad := s.stk.bad.filter (fun w => !hit (w / 4096)),
                               soft := s.stk.soft.filter (fun w => !hit (w / 4096)) } }

/-- The MEM_INVALID conditions of R407; a region whose STK_REGION_SET is still in flight counts as one (log 43). -/
def State.regionInvalid (s : State) (r : RegionDef) : Bool :=
  let size := r.toRegion.size
  r.reserved || 183105 < r.firstBand + r.bands || 2 ^ 48 < r.vbase + size ||
    s.stk.regions.any (fun e => e.2.any (fun g => bandsMeet r.global r.die r.firstBand r.bands g.global g.die g.first g.bands)) ||
    s.stk.zeroing.any (fun z => bandsMeet r.global r.die r.firstBand r.bands z.def_.global z.def_.die z.def_.firstBand z.def_.bands ||
      (z.def_.owner = r.owner && r.vbase < z.def_.vbase + z.def_.toRegion.size && z.def_.vbase < r.vbase + size)) ||
    s.stk.retired.any (fun e => e.2.reserve.isNone && r.covers (pchDie (e.1 / blocksPerPch)) (e.1 % blocksPerPch)) ||
    (s.stk.retired.any (fun e => e.2.reserve.isNone && (r.global || e.2.wide) && r.firstBand ≤ e.1 % blocksPerPch && e.1 % blocksPerPch < r.firstBand + r.bands)) ||
    (s.stkRegions r.owner).any (fun g => r.vbase < g.vbase + g.size && g.vbase < r.vbase + size)

/-- The limit of regions of an owner. -/
def regionLimit (owner : Nat) : Nat := if owner = 64 then 64 else 16

/-- Puts a region in force. -/
def State.addRegion (s : State) (r : RegionDef) : State :=
  let l := s.stkRegions r.owner
  { s with stk := { s.stk with regions := s.stk.regions.put r.owner (l ++ [r.toRegion]),
                               uses := ⟨r.owner, r.global, r.die, r.firstBand, r.bands⟩ :: s.stk.uses } }

/-! ### The SYSTEM regions of start-up (R409) -/

/-- A SYSTEM region that Compass makes: the spill region holds `spill` buffers of 4 KiB (R350), the second the retransmit stores of 256
sub-ports, the third the free rings. Within its stretch of block positions its place is not known: DESIGN CHOICE (log 66). -/
def systemDef (spill die kind : Nat) : RegionDef :=
  { part := 0, system := true, global := false, die := die, vbase := systemVbase die kind,
    firstBand := nth [0, 50000, 150000] kind 0 + Config.systemBand die kind % nth [39000, 6000, 16000] kind 1,
    bands := if kind = 0 then ceilDiv (4096 * spill) 1572864
             else nth [0, 43691, 11] kind 0 + Config.systemBands die kind % nth [1, 50000, 16000] kind 1,
    reserved := false }

/-- Compass makes a SYSTEM region, or gives the spill region its new size; it stays as it is where other regions are in its way. -/
def State.systemRegion (s : State) (spill die kind : Nat) : State :=
  let r := systemDef spill die kind
  let l := s.stkRegions 64
  let t := { s with stk := { s.stk with regions := s.stk.regions.put 64 (l.filter (fun g => g.vbase ≠ r.vbase)) } }
  if l.contains r.toRegion then s
  else if r.bands = 0 then t
  else if t.regionInvalid r then s
  else (t.zeroBands r).addRegion r

/-! ### Zeroing (R408) -/

/-- The block positions of a region on a die that were last assigned to a different owner. -/
def State.staleBands (s : State) (r : RegionDef) (die : Nat) : List Nat :=
  if !r.global && r.die ≠ die then []
  else ((List.range r.bands).map (r.firstBand + ·)).filter (fun b => match lastOwner s.stk.uses die b with
    | some o => o ≠ r.owner
    | none => false)

def State.setZeroing (s : State) (l : List Zeroing) : State := { s with stk := { s.stk with zeroing := l } }

/-- The last write has been accepted: the region takes effect, and its command completes. A partition that has gone meanwhile gets
no region. -/
def State.zeroEnd (s : State) (z : Zeroing) : State :=
  let s := s.setZeroing (s.stk.zeroing.filter (fun x => x.id ≠ z.id))
  if !z.def_.system && !s.partExists z.def_.part then s.progress 0x0901 z.id .partInvalid
  else (s.addRegion z.def_).progress 0x0901 z.id

/-- The next unit of zeros of a zeroing goes to a pseudo-channel, BULK, from the hub link's port (R405, R412, R450); a FAILED channel
takes no more, and with the last pseudo-channel the zeroing ends. -/
def State.zeroNext (s : State) (id q : Nat) : State :=
  match s.stk.zeroing.find? (fun z => z.id = id) with
  | none => s
  | some z => match z.left.look q with
    | none => s
    | some n =>
      let bs := nth z.bands (pchDie q) []
      let put_ := fun (z : Zeroing) => s.setZeroing (s.stk.zeroing.map (fun x => if x.id = id then z else x))
      if n < 16 * bs.length && !s.chFailed q then
        (put_ { z with left := z.left.put q (n + 1) }).memSend
          { id := 0, user := .zero id q, write := true, target := .stk q (nth bs (n / 16) 0) (256 * (n % 16)), len := 256,
            data := List.replicate 256 0, cls := 2, part := none, die := pchDie q, port := 260 }
      else
        let z := { z with left := z.left.del q }
        if z.left.isEmpty then (put_ z).zeroEnd z else put_ z

/-- Starts the zeroing of a new region: its number, or none where no band of a channel that is not FAILED needs it and the region is
in force at once. -/
def State.zeroStart (s : State) (r : RegionDef) : Option Nat × State :=
  let bands := (List.range 4).map (s.staleBands r)
  let qs := (List.range 1536).filter (fun q => !(nth bands (pchDie q) []).isEmpty && !s.chFailed q)
  if bands.all (·.isEmpty) || qs.isEmpty then (none, s.addRegion r)
  else
    let id := s.stk.next
    let z : Zeroing := { id := id, def_ := r, bands := bands, left := qs.map (fun q => (q, 0)) }
    let s := { s with stk := { s.stk with next := id + 1, zeroing := s.stk.zeroing ++ [z] } }
    (some id, qs.foldl (fun s q => s.zeroNext id q) s)

end Sys2Proof.Machine
end

