-- ==== Sys2Proof/Machine/SparseCore.lean ====
section
/-! DEFINITION. Sparse weights: the Legend, RLZ and dense block data, and the dense-or-sparse choice (R274 to R277, R280). -/

namespace Sys2Proof.Machine

/-- A Legend entry (R274). -/
structure Legend where
  fmt     : Nat
  bscale  : Bool
  dense   : Bool
  pattern : Nat
  nnz     : Nat
  bytes   : Nat
  ptr     : Nat
  clean   : Bool
deriving DecidableEq, Repr

def legendOf (w0 w1 : Word) : Legend :=
  { fmt := bits w0 3 0, bscale := bit w0 4, dense := bit w0 5, pattern := bits w0 7 6, nnz := bits w0 22 8, bytes := bits w0 63 32,
    ptr := w1.toNat, clean := bits w0 31 23 = 0 }

/-- The entry itself breaks R277. -/
def Legend.bad (l : Legend) : Bool :=
  !l.clean || l.fmt < 3 || 0xB < l.fmt || (l.bscale && !blockCode l.fmt) || 16384 < l.nnz

/-- A decoded block: 128 rows of 128 element encodings and which of them are stored, the scale bytes of its rows, the choice of
R280 but for FORCE_DENSE and DENSE_THRESH, and what decoding found. -/
structure SparseBlk where
  leg    : Legend
  rows   : List (List Nat)
  scales : List Byte
  /-- No group breaks PATTERN and NNZ is right. -/
  agrees : Bool
deriving DecidableEq, Repr

/-- Weight encodings of one RLZ row; none where a symbol runs past column 127 (R276). -/
def rlzRow (w : Nat) (stream : List Byte) : Nat → Nat → List Nat → Option (List Nat)
  | 0, _, acc => some (padTo 128 0 acc)
  | n + 1, i, acc =>
    let sym := elemAt (4 + w) stream i
    if 128 ≤ acc.length + sym % 16 then none
    else rlzRow w stream n (i + 1) (acc ++ List.replicate (sym % 16) 0 ++ [sym / 16])

/-- The rows of RLZ data from byte `off` on, and where they end. -/
def rlzRows (w : Nat) (data : List Byte) : List Nat → Nat → Option (List (List Nat) × Nat)
  | [], off => some ([], off)
  | c :: cs, off => do
    let r ← rlzRow w (data.drop off) c 0 []
    let (rs, e) ← rlzRows w data cs (off + ceilDiv (c * (4 + w)) 8)
    some (r :: rs, e)

/-- Columns of a group and the most nonzero weights it may hold. -/
def patternOf : Nat → Nat × Nat
  | 1 => (4, 2)
  | 2 => (4, 1)
  | 3 => (8, 2)
  | _ => (128, 128)

/-- A weight that counts as zero: its encoding is that of a zero value. -/
def zeroWeight (fmt x : Nat) : Bool := (decodeElem fmt x).isZero

def blockAgrees (l : Legend) (rows : List (List Nat)) : Bool :=
  let nz := rows.map (fun r => r.map (fun x => !zeroWeight l.fmt x))
  let (m, n) := patternOf l.pattern
  ((nz.map (fun r => (r.filter id).length)).foldl (· + ·) 0 = l.nnz) &&
    nz.all (fun r => (pieces m (128 / m) r).all (fun g => (g.filter id).length ≤ n))

/-- Decodes block data (R275 to R277). -/
def decodeBlock (l : Legend) (data : List Byte) : Except Status SparseBlk :=
  let w := fmtBits l.fmt
  let made := fun (rows : List (List Nat)) (scales : List Byte) => Except.ok ⟨l, rows, scales, blockAgrees l rows⟩
  if l.dense then
    if l.bytes ≠ 2048 * w + (if l.bscale then 512 else 0) then .error .sparseFormat
    else made ((List.range 128).map (fun r => (List.range 128).map (fun c => elemAt w (data.drop (16 * w * r)) c)))
      (if l.bscale then data.drop (2048 * w) else [])
  else
    let counts := (data.take 128).map (·.toNat)
    let base := 128 + (if l.bscale then 512 else 0)
    if counts.length < 128 || counts.any (128 < ·) || l.bytes ≠ base + (counts.map (fun c => ceilDiv (c * (4 + w)) 8)).foldl (· + ·) 0 then
      .error .sparseFormat
    else match rlzRows w data counts base with
      | none => .error .sparseFormat
      | some (rows, _) => made rows (if l.bscale then (data.drop 128).take 512 else [])

/-- The longest block data of R275: 128 counts, 512 scale bytes and 128 streams of 128 symbols of 12 bits. -/
def blockMost : Nat := 128 + 512 + 128 * 192

/-- What the 16 bytes of a Legend entry give: the block or its stop at once, where its data is not read, or the entry. -/
def blockLegend (bs : List Byte) : Except (Except Status SparseBlk) Legend :=
  let l := legendOf (nth (leWords 2 bs) 0 0) (nth (leWords 2 bs) 1 0)
  if l.bad then .error (.error .sparseFormat)
  else if l.nnz = 0 then .error (.ok ⟨l, [], [], true⟩)
  else if blockMost < l.bytes then .error (.error .sparseFormat)
  else if l.ptr % 64 ≠ 0 then .error (.error .addrAlign)
  else .ok l

/-- Reads and decodes block (i, j) of a Legend table in a partition's view, for GAZ_LEGEND_CHECK in one step (log 43); a block without
nonzero weights is not read. -/
def State.readBlock (s : State) (part base cols i j : Nat) : Except Status SparseBlk × State :=
  let (st, bs, s) := s.unitRead part (base + 16 * (i * cols + j)) 16
  if base % 16 ≠ 0 then (.error .addrAlign, s)
  else if st ≠ .ok then (.error st, s)
  else match blockLegend bs with
    | .error b => (b, s)
    | .ok l =>
      let (st, data, s) := s.unitRead part l.ptr l.bytes
      if st ≠ .ok then (.error st, s) else (decodeBlock l data, s)

/-- The blocks that the pieces read so far give, in the order named, up to the first stop; and the address and length of the next
piece that is needed (R282). -/
def gatherBlocks (base cols : Nat) : List (Nat × Nat) → List (Status × List Byte) → List (Nat × Except Status SparseBlk) × Option (Nat × Nat)
  | [], _ => ([], none)
  | (i, j) :: _, [] => if base % 16 ≠ 0 then ([(i, .error .addrAlign)], none) else ([], some (base + 16 * (i * cols + j), 16))
  | (i, j) :: next, (st, bs) :: got =>
    if st ≠ .ok then ([(i, .error st)], none)
    else match blockLegend bs with
      | .error (.error st) => ([(i, .error st)], none)
      | .error (.ok b) => ((i, .ok b) :: (gatherBlocks base cols next got).1, (gatherBlocks base cols next got).2)
      | .ok l => match got with
        | [] => ([], some (l.ptr, l.bytes))
        | (st, data) :: got => match (if st ≠ .ok then .error st else decodeBlock l data) with
          | .error st => ([(i, .error st)], none)
          | .ok b => ((i, .ok b) :: (gatherBlocks base cols next got).1, (gatherBlocks base cols next got).2)

/-- The choice of R280. -/
def SparseBlk.sparse (b : SparseBlk) (thresh : Nat) (force : Bool) : Bool :=
  !force && b.leg.pattern ≠ 0 && b.leg.nnz ≤ thresh && b.agrees

/-- Value of a weight, its block scale applied. -/
def SparseBlk.weight (b : SparseBlk) (r c : Nat) : Exact :=
  let x := nth (nth b.rows r []) c 0
  if b.leg.bscale then decodeInBlock b.leg.fmt (nth b.scales (4 * r + c / 32) 0).toNat 0 0 x else decodeElem b.leg.fmt x

/-- The scale of a 32-column segment is NaN. -/
def SparseBlk.nanScale (b : SparseBlk) (r q : Nat) : Bool := b.leg.bscale && (nth b.scales (4 * r + q) 0) = 255

end Sys2Proof.Machine
end

