-- ==== Sys2Proof/Machine/Sparse.lean ====
section
/-! DEFINITION. The sparse engine: SPMM and PREDICT (R278 to R287). -/

namespace Sys2Proof.Machine

/-- A sparse descriptor, read out. -/
structure Sprs where
  x      : Ag
  z      : Ag
  base   : Nat
  rows   : Nat
  cols   : Nat
  policy : Nat
  k      : Nat
  pred   : Bool
  mask   : Nat
  batch  : Nat
  conv   : ConvCtl
deriving DecidableEq, Repr

def sprsOf (ws : List Word) : Sprs :=
  let w := nth ws 21 0
  { x := agAt ws 4, z := agAt ws 12, base := (nth ws 20 0).toNat, rows := bits w 15 0, cols := bits w 31 16, policy := bits w 33 32,
    k := bits w 37 34, pred := bit w 38, mask := bits (nth ws 22 0) 20 0, batch := nth (agAt ws 4).counts 1 1, conv := convCtl (dConv ws) }

/-- Outputs of a batch row. -/
def Sprs.outs (d : Sprs) : Nat := 128 * d.rows

/-- Counts an event of the tile's Gazetteer counters (R69, R290). -/
def engGaz (i n : Nat) : EngM Unit := fun e => .ok () { e with x := { e.x with gazCount := e.x.gazCount.modify i (fun c => e.x.count c n) } }

/-- The activity bits (R286): bit (b, r) set where output r of batch row b is predicted active. -/
def activeBit (d : Sprs) (bytes : List Byte) (b r : Nat) : Bool :=
  (nth bytes (b * (d.outs / 8) + r / 8) 0).toNat.testBit (r % 8)

/-- The inactive outputs of a batch row, in ascending r. -/
def inactive (d : Sprs) (bytes : List Byte) (b : Nat) : List Nat := (List.range d.outs).filter (fun r => !activeBit d bytes b r)

/-- Whether an output is computed (R286), and whether it is so by SAMPLE's selection. -/
def computed (d : Sprs) (bytes : List Byte) (b r : Nat) : Bool × Bool :=
  if !d.pred || activeBit d bytes b r || d.policy = 2 then (true, false)
  else if d.policy = 1 then
    let hit := decide (((inactive d bytes b).idxOf r) % 2 ^ d.k = 0)
    (hit, hit)
  else (false, false)

/-- The order of the row blocks: ascending, or under FULL by descending active count, the lower first among equals. -/
def rowOrder (d : Sprs) (bytes : List Byte) : List Nat :=
  let cnt := fun i => ((List.range d.batch).map (fun b =>
    ((List.range 128).filter (fun r => activeBit d bytes b (128 * i + r))).length)).foldl (· + ·) 0
  let ins := fun (l : List Nat) (i : Nat) => l.takeWhile (fun j => cnt i ≤ cnt j) ++ i :: l.dropWhile (fun j => cnt i ≤ cnt j)
  if d.pred && d.policy = 2 then (List.range d.rows).foldl ins [] else List.range d.rows

/-- The chunk sum of columns 32q to 32q + 31 over the nonzero weights; a NaN scale makes it NaN (R278). -/
def sparseChunk (blk : SparseBlk) (r q : Nat) (xs : List Exact) (xNan : Bool) : Exact :=
  if xNan || blk.nanScale r q then .nan
  else exactSum ((List.range 32).filterMap (fun c =>
    if zeroWeight blk.leg.fmt (nth (nth blk.rows r []) (32 * q + c) 0) then none
    else some ((blk.weight r (32 * q + c)).mul (nth xs c Exact.zero))))

/-- The activations: chunks in AG order, and which of them lie under a NaN scale. -/
def readAct (d : Sprs) : EngM (List (List Exact × Bool)) :=
  engMap (fun n => do
    let xs ← readUnit d.x (fmtBits d.x.fmt.fmt) 32 n true
    let nan ← (if d.x.fmt.block then do
        let sc ← engRead ((d.x.scale + n : Nat) : Int) 1 1
        pure (decide (ofLe sc = 255))
      else pure false)
    pure (xs, nan)) (List.range (d.batch * (4 * d.cols)))

/-- The accumulator of output (b, r) over the blocks of its row block. -/
def sparseAcc (d : Sprs) (int : Bool) (acts : List (List Exact × Bool)) (blks : List SparseBlk) (b r : Nat) : Nat × NumEv :=
  ((List.range d.cols).flatMap (fun j => (List.range 4).map (fun q => (j, q)))).foldl (fun a p =>
    let blk := nth blks p.1 ⟨⟨0, false, false, 0, 0, 0, 0, true⟩, [], [], true⟩
    if blk.leg.nnz = 0 then a
    else
      let act := nth acts (b * (4 * d.cols) + 4 * p.1 + p.2) ([], false)
      let (v, ev) := accAdd int a.1 (sparseChunk blk r p.2 act.1 act.2)
      (v, a.2.add ev)) (0, {})

/-- The blocks of a row block up to the first that stops the instruction: one that breaks R277, or that a test turns away. -/
def blocksBefore (bad : SparseBlk → Option Status) : List (Except Status SparseBlk) → List SparseBlk × Option Status
  | [] => ([], none)
  | .error st :: _ => ([], some st)
  | .ok b :: bs => match bad b with
    | some st => ([], some st)
    | none => (b :: (blocksBefore bad bs).1, (blocksBefore bad bs).2)

/-- What decoding the blocks of a row block counts (R280), and the choice made for each executed block. The blocks before one that stops
the instruction are executed, so they count, with their invalid codes (R36), though their outputs are never converted. -/
def countBlocks (blks : List SparseBlk) (sctrl : Word) : EngM Unit := do
  let ex := blks.filter (fun b => b.leg.nnz ≠ 0)
  let sp := ex.filter (fun b => b.sparse (bits sctrl 14 0) (bit sctrl 16))
  engGaz 0 sp.length
  engGaz 1 (ex.length - sp.length)
  engCountOther { code := (ex.filter (fun b => !b.agrees)).length +
    ((ex.filter (fun b => b.leg.fmt = 0xB)).map (fun b => (b.rows.map (fun r => (r.filter (· = 2)).length)).foldl (· + ·) 0)).foldl (· + ·) 0 }

/-- Converts and writes `len` outputs from (b, r) on; `ms` are the rounding modes of all outputs (R66, R279). The misses of R287
are counted against a +0 accumulator in the same place. -/
def sparseRun (d : Sprs) (int : Bool) (ms : List RMode) (len b r : Nat) (accs : List Nat) (judged : List Bool) : EngM Unit := do
  let n := b * d.outs + r
  let m := (ms.drop n).take len
  let pre := fun v => convPre d.conv Exact.one Exact.one Exact.zero Exact.one v
  let ys := accs.map (fun a => pre (accValue int a))
  let enc := convRun d.conv m ys
  engCount enc.ev
  let miss := (List.range len).filter (fun i => nth judged i false &&
    nth (convRun d.conv m (ys.set i (pre Exact.zero))).elems i 0 ≠ nth enc.elems i 0)
  engGaz 5 miss.length
  writeRun d.z d.conv (n / len) enc

/-- One row block of SPMM (R278, R282, R286, R287): its outputs that are skipped or sampled count with it. -/
def spmmRow (d : Sprs) (sctrl : Word) (acts : List (List Exact × Bool)) (mask : List Byte) (ms : List RMode) (i : Nat)
    (blks : List SparseBlk) : EngM Unit := do
  let int := (isIntFmt d.x.fmt.fmt || d.x.fmt.fmt = 0xB) && !d.x.fmt.block && blks.all (fun b => b.leg.nnz = 0 || !b.leg.bscale)
  countBlocks blks sctrl
  if d.pred then do
    let cs := (List.range d.batch).flatMap (fun b => (List.range 128).map (fun r => computed d mask b (128 * i + r)))
    engGaz 3 (cs.filter (fun c => !c.1)).length
    engGaz 4 (cs.filter (fun c => c.2)).length
  let len := runLen d.conv
  engEach (fun b => engEach (fun k => do
    let r0 := 128 * i + len * k
    let outs := (List.range len).map (fun e =>
      let c := computed d mask b (r0 + e)
      if c.1 then sparseAcc d int acts blks b (r0 + e - 128 * i) else (0, {}))
    engCountOther (NumEv.sum (outs.map (·.2)))
    sparseRun d int ms len b r0 (outs.map (·.1))
      ((List.range len).map (fun e => d.pred && !activeBit d mask b (r0 + e) && (computed d mask b (r0 + e)).1))) (List.range (128 / len)))
    (List.range d.batch)

/-- The row blocks in turn, up to the first stop (R277, R282). Weights are not split: an AG_X that is differs from them (R48). -/
def spmmRows (d : Sprs) (sctrl : Word) (acts : List (List Exact × Bool)) (mask : List Byte) (ms : List RMode) :
    List (Nat × List (Except Status SparseBlk)) → EngM Unit
  | [] => pure ()
  | (i, bs) :: rest => do
    let (blks, st) := blocksBefore (fun x => if x.leg.fmt ≠ d.x.fmt.fmt || d.x.fmt.split ≠ 0 then some .formatMix else none) bs
    match st with
    | some st => do
      countBlocks blks sctrl
      engStop { st := st }
    | none => do
      spmmRow d sctrl acts mask ms i blks
      spmmRows d sctrl acts mask ms rest

/-- SPMM as a whole. Outputs predicted inactive were counted when PREDICT predicted them (log 31). -/
def spmmRun (ws : List Word) (sctrl : Word) (blks : List (Nat × List (Except Status SparseBlk))) : EngM Unit := do
  let d := sprsOf ws
  let mask ← (if d.pred then engRead (d.mask : Int) (d.batch * (d.outs / 8)) 8 else pure [])
  let acts ← readAct d
  let ms ← engModes d.conv 0 (d.batch * d.outs)
  spmmRows d sctrl acts mask ms blks

/-! ### PREDICT (R285) -/

/-- The score of output (b, r): FP32, chunk by chunk. -/
def predictScore (d : Sprs) (acts : List (List Exact × Bool)) (blks : List SparseBlk) (b r : Nat) : Exact := f32 (sparseAcc d false acts blks b r).1

def predictRows (d : Sprs) (sctrl theta : Word) (acts : List (List Exact × Bool)) : List (Nat × List (Except Status SparseBlk)) → EngM Unit
  | [] => pure ()
  | (i, bs) :: rest => do
    let (blks, st) := blocksBefore (fun x => if x.leg.fmt ≠ 0xB || x.leg.bscale then some .sparseFormat else none) bs
    countBlocks blks sctrl
    match st with
    | some st => engStop { st := st }
    | none => do
      let th := f32 (bits theta 31 0)
      engEach (fun b => engEach (fun u => do
        let on := (List.range 64).map (fun r =>
          let sc := predictScore d acts blks b (64 * u + r)
          sc.isNan || th.lt sc)
        engGaz 2 (on.filter (!·)).length
        let v := ((List.range 64).map (fun r => if nth on r false then 2 ^ r else 0)).foldl (· + ·) 0
        engWrite (d.z.addr (b * (d.outs / 64) + 2 * i + u)) (leBytes 8 v) 8
        engUnit) [0, 1]) (List.range d.batch)
      predictRows d sctrl theta acts rest

def predictRun (ws : List Word) (sctrl theta : Word) (blks : List (Nat × List (Except Status SparseBlk))) : EngM Unit := do
  let d := sprsOf ws
  let acts ← readAct d
  predictRows d sctrl theta acts blks

/-! ### Running -/

/-- A MATMUL is executing (R283). -/
def Tile.tensorBusy (x : Tile) : Bool :=
  match x.head 0 with
  | some q => q.ran && !q.decided
  | none => false

/-- The head of the tensor queue could start and entered before q, so that it starts first (R283). -/
def Tile.tensorFirst (x : Tile) (q : QEntry) : Bool :=
  match x.head 0 with
  | some p => !p.ran && p.id < q.id
  | none => false

/-- SPMM or PREDICT, by its OP. -/
def sparseRunOf (q : QEntry) (blks : List (Nat × List (Except Status SparseBlk))) : EngM Unit :=
  if dOp q.words = 1 then spmmRun q.words q.sctrl blks else predictRun q.words q.sctrl q.theta blks

/-- The order in which a sparse instruction takes its row blocks (R282). -/
def Tile.sparseOrder (x : Tile) (q : QEntry) : List Nat :=
  let d := sprsOf q.words
  if dOp q.words = 1 then rowOrder d (x.scratch.readN d.mask (d.batch * (d.outs / 8))) else List.range d.rows

/-- The blocks by row block, in their order. -/
def blocksByRow (order : List Nat) (blks : List (Nat × Except Status SparseBlk)) : List (Nat × List (Except Status SparseBlk)) :=
  (order.map (fun i => (i, (blks.filter (fun b => b.1 = i)).map (·.2)))).filter (fun e => !e.2.isEmpty)

/-- Sends the requests of a piece, in the LATENCY class (R282). -/
def State.sparseSend (s : State) (t insn : Nat) : List (MemTarget × Nat × Nat) → State
  | [] => s
  | (tg, o, n) :: l =>
    let id := s.stk.next
    let s := s.memSend { id := 0, user := .sparse t insn o, write := false, target := tg, len := n, cls := 0, part := (s.tile t).part,
                         die := t / 256, port := t % 256 }
    let s := match (s.tile t).head 4 with
      | some q => s.onTile t (fun x => x.setHead 4 { q with waits := q.waits ++ [id] })
      | none => s
    State.sparseSend s t insn l

/-- What a sparse instruction has read so far: its blocks by row block, where all that it needs is there. -/
def SparseFetch.blocks (f : SparseFetch) (d : Sprs) : Option (List (Nat × List (Except Status SparseBlk))) :=
  match gatherBlocks d.base d.cols (f.order.flatMap (fun i => (List.range d.cols).map (fun j => (i, j)))) f.got with
  | (blks, none) => some (blocksByRow f.order blks)
  | _ => none

/-- The sparse engine asks for the pieces that it needs next (R282): a piece of no bytes, or one outside the view, needs no request. The
fuel bounds the pieces. -/
def State.sparsePull (t : Nat) : Nat → State → State
  | 0, s => s
  | k + 1, s =>
    let x := s.tile t
    match x.head 4 with
    | none => s
    | some q =>
      match q.fetch with
      | none => s
      | some f =>
        let d := sprsOf q.words
        match gatherBlocks d.base d.cols (f.order.flatMap (fun i => (List.range d.cols).map (fun j => (i, j)))) f.got with
        | (_, none) => s
        | (_, some (a, n)) =>
          let went := fun (g : Status × List Byte) =>
            State.sparsePull t k (s.setTile t (x.setHead 4 { q with fetch := some { f with got := f.got ++ [g] } }))
          match s.viewUnit (x.part.getD 64) a n with
          | none => went (.addrRange, [])
          | some [] => went (.ok, [])
          | some ps => (s.setTile t (x.setHead 4 { q with fetch := some { f with cur := (.ok, List.replicate n 0) } })).sparseSend t q.id ps

/-- A request of a sparse instruction has completed: its bytes take their place; with the last one of a piece the engine goes on. -/
def State.sparseGot (s : State) (t insn off id : Nat) (st : Status) (data : List Byte) : State :=
  match (s.tile t).head 4 with
  | none => s
  | some q =>
    match q.fetch with
    | none => s
    | some f =>
      if q.id ≠ insn then s
      else
        let cur := (if f.cur.1 = .ok then st else f.cur.1, f.cur.2.take off ++ data ++ f.cur.2.drop (off + data.length))
        let waits := q.waits.filter (· ≠ id)
        let f := if waits.isEmpty then { f with got := f.got ++ [cur], cur := (.ok, []) } else { f with cur := cur }
        let s := s.onTile t (fun x => x.setHead 4 { q with waits := waits, fetch := some f })
        let d := sprsOf q.words
        if waits.isEmpty then State.sparsePull t (2 * d.rows * d.cols + 2) s else s

/-- The sparse instruction at the head of the sparse queue asks for its Legend and its blocks where it has not yet. -/
def State.sparseAsk (s : State) (t : Nat) (q : QEntry) : State :=
  let x := s.tile t
  let d := sprsOf q.words
  if q.fetch.isSome then s
  else State.sparsePull t (2 * d.rows * d.cols + 2) (s.setTile t (x.setHead 4 { q with fetch := some { order := x.sparseOrder q } }))

/-- A sparse instruction of the OP named at the head of the sparse queue (R282): it asks for what it reads, in the LATENCY class; once
that is there, it runs (log 43). -/
def State.sparseStart (s : State) (t op : Nat) : State :=
  match (s.tile t).head 4 with
  | some q =>
    if s.engineLive (s.tile t) && !q.ran && dOp q.words = op && !(s.tile t).tensorBusy && !(s.tile t).tensorFirst q then
      let s := s.sparseAsk t q
      match (s.tile t).head 4 with
      | some q => (match q.fetch.bind (fun f => if q.waits.isEmpty then f.blocks (sprsOf q.words) else none) with
        | some blks => s.engFinish t 4 { q with fetch := none } (s.tile t) (sparseRunOf q blks)
        | none => s)
      | none => s
    else s
  | none => s

def execSpmm (t : Nat) (s : State) : Host.Outcome State Fault Refusal := .next (s.sparseStart t 1)

def execPredict (t : Nat) (s : State) : Host.Outcome State Fault Refusal := .next (s.sparseStart t 2)

end Sys2Proof.Machine
end

