-- ==== Sys2Proof/Machine/Copy.lean ====
section
/-! DEFINITION. COPY: the move engine's units, and what the completion of a memory request does (R126, R133, R134, R162, R163, R261, R405, R410, R429). -/

namespace Sys2Proof.Machine

/-- The unit of a request of the COPY insn of tile t. -/
def MemReq.copyUnit (r : MemReq) (t insn : Nat) : Option Nat :=
  match r.user with
  | .copy a b u _ => if a = t && b = insn then some u else none
  | _ => none

def MemReq.isComplete (r : MemReq) : Bool :=
  match r.stage with
  | .complete _ => true
  | _ => false

/-- The requests of a stopped or abandoned COPY that have not left their port, or the queue of their far port, are dropped
(R103, R126). -/
def State.copyCancel (s : State) (t insn : Nat) : State := s.memCancel (fun r => (r.copyUnit t insn).isSome)

/-- A write that is made and only waits for its padded cycle. -/
def MemReq.writeMade (r : MemReq) : Bool := r.write && (r.stage = .held .ok || r.stage = .complete .ok)

/-- The output units of a COPY whose writes are all made, among those with a request that has not ended (R122, R126). -/
def State.unitsMade (s : State) (t insn : Nat) : Nat :=
  let l := s.stk.reqs.filter (fun r => (r.copyUnit t insn).isSome)
  let us := (l.filterMap (fun r => r.copyUnit t insn)).eraseDups
  (us.filter (fun u => (l.filter (fun r => r.copyUnit t insn = some u)).all MemReq.writeMade)).length

/-- Stops the COPY at the head of tile t's move queue with a status (R126, R155). Its UNITS counts the units written, those among them
whose completion is still held (R162); a far-tier write that has left for the device and has no answer yet counts as not written
(log 76). -/
def State.copyStop (s : State) (t : Nat) (st : Status) (addr : Nat) : State :=
  match (s.tile t).head 2 with
  | some q =>
    let made := s.unitsMade t q.id
    let s := s.copyCancel t q.id
    (s.onTile t (fun x => x.setHead 2 { q with ran := true, decided := true, status := st, waits := [], units := q.units + made })).faultHalt
      t st q.pc q.strand (engineDetail 2) addr 3
  | none => s

/-- No one waits for a request any more: it stays only as long as it holds a queue entry. -/
def State.reqDone (s : State) (id : Nat) : State :=
  s.setReqs (s.stk.reqs.map (fun y => if y.id = id then { y with user := .copy 1024 0 0 0 } else y))

/-- A request of a COPY is complete: a read's data goes to the scratchpad; the last request of a unit completes the unit. The
response of a COPY that is no longer there is discarded. -/
def State.copyEnds (s : State) (id : Nat) : State :=
  match s.req id with
  | none => s
  | some r =>
    match r.user, r.stage with
    | .copy t insn u dest, .complete st =>
      let s := s.setReqs (s.stk.reqs.filter (fun y => y.id ≠ id || y.queued))
      let s := s.reqDone id
      match (s.tile t).head 2 with
      | some q =>
        if q.id ≠ insn || q.status ≠ .ok then s
        else if st ≠ .ok then s.copyStop t st r.faultAddr
        else
          let x := s.tile t
          match (if r.write then .ok x else x.store dest r.data) with
          | .error (w, y) => (s.setEcc t y w).copyStop t .uncorrectable w
          | .ok x =>
            let whole := !s.stk.reqs.any (fun y => y.copyUnit t insn = some u)
            s.setTile t (x.setHead 2 { q with waits := q.waits.filter (· ≠ id), units := q.units + if whole then 1 else 0 })
      | none => s
    | _, _ => s

/-- The request that brings a line into its adder slot has ended. -/
def State.lineGot (s : State) (ctl addr : Nat) (st : Status) : State :=
  let l := (s.stk.adders.lookD ctl []).map (fun x => if x.addr = addr then { x with got := some st } else x)
  { s with stk := { s.stk with adders := s.stk.adders.put ctl l } }

/-- A complete request has its effect at its requester: a COPY, a sparse instruction, a descriptor, a Sheet home, a zeroing, or a
collective (4: it has had it). -/
def State.reqEnds (s : State) (id : Nat) : State :=
  match s.req id with
  | some r => (match r.user, r.stage with
    | .cfl run what off, .complete st =>
      (s.setReqs (s.stk.reqs.map (fun y => if y.id = id then { y with user := .cfl run 4 0 } else y))).cflMemDone r run what off st
    | .sparse t insn off, .complete st =>
      (s.reqDone id).sparseGot t insn off id st
        (padTo r.len 0 r.data)
    | .dma q host, .complete st => (s.reqDone id).dmaGot r q host st
    | .line ctl addr, .complete st => (s.reqDone id).lineGot ctl addr st
    | .zero z q, .complete _ => (s.reqDone id).zeroNext z q
    | _, _ => s.copyEnds id)
  | none => s

/-- Settles every complete request that someone waits for, a zeroing's once its slot has served it, and drops those that no one needs. -/
def State.memReap (s : State) : State :=
  let ids := (s.stk.reqs.filter (fun r => r.isComplete && (match r.user with
    | .copy t _ _ _ => t < 1024
    | .cfl _ w _ => w < 4
    | .zero _ _ => !r.queued
    | .sparse _ _ _ | .dma _ _ | .line _ _ => true
    | _ => false))).map (·.id)
  let s := ids.foldl State.reqEnds s
  s.setReqs (s.stk.reqs.filter (fun r => r.queued || !(match r.user with
    | .copy t _ _ _ => t = 1024
    | .cfl _ w _ => w = 4
    | .sparse _ _ _ | .dma _ _ | .line _ _ | .zero _ _ => false
    | .spill => r.isComplete
    | .gaz d i _ _ => r.isComplete && !s.gaz.reqs.any (fun q => q.die = d && q.id = i))))

/-- The outcome of a request arrives at its requester: held until the padded cycle, or complete; a late one counts its cause
(R162, R163, R165). -/
def State.arrive (s : State) (r : MemReq) (st : Status) : State :=
  match r.pad with
  | some p =>
    if s.now < p then s.setReq { r with stage := .held st }
    else
      let cause := match r.target with
        | .far _ _ => 1
        | _ => if r.stalled then 4 else 0
      let s := if p < s.now then s.drift cause r.part.toList else s
      (s.setReq { r with stage := .complete st }).memReap
  | none => (s.setReq { r with stage := .complete st }).memReap

/-! ### COPY (R133) -/

/-- A memory address of a unit: its pieces, ADDR_RANGE, or ADDR_ALIGN (R126). -/
def State.unitPieces (s : State) (p space : Nat) (a : Int) (n : Nat) : Except Stop (List (MemTarget × Nat × Nat)) :=
  if a < 0 then .error { st := .addrRange }
  else match s.memPieces p space a.toNat n with
    | none => .error { st := .addrRange }
    | some l => if a.toNat % 8 ≠ 0 then .error { st := .addrAlign } else .ok l

/-- Sends the requests of a unit: a write carries its bytes, a read the scratchpad address of its data. -/
def State.copySend (s : State) (t insn u cls : Nat) (write : Bool) (base : Nat) (bytes : List Byte) :
    List (MemTarget × Nat × Nat) → State
  | [] => s
  | (tg, o, n) :: l =>
    let r : MemReq := { id := 0, user := .copy t insn u (base + o), write := write, target := tg, len := n,
                        data := if write then (bytes.drop o).take n else [], cls := cls, part := (s.tile t).part, die := t / 256,
                        port := t % 256 }
    let id := s.stk.next
    let s := s.memSend r
    let s := match (s.tile t).head 2 with
      | some q => s.onTile t (fun x => x.setHead 2 { q with waits := q.waits ++ [id] })
      | none => s
    State.copySend s t insn u cls write base bytes l

/-- One unit of a COPY: source first, then destination. Within the scratchpad, the unit is written only below the cap (log 76). A stop
comes with the tile it leaves (R76). -/
def State.copyUnit (s : State) (t : Nat) (q : QEntry) (cap : Option Nat) (u : Nat) : Except (Stop × Tile) State :=
  let plain := fun {α : Type} (r : Except Stop α) => r.mapError (fun st => (st, s.tile t))
  let src := agAt q.words 4
  let dst := agAt q.words 12
  let w := nth q.words 20 0
  let n := 2 ^ bits w 3 0
  let p := (s.tile t).part.getD 64
  match src.space, dst.space with
  | 0, 0 => do
    let a ← plain (engAddr (src.addr u) n 8)
    let b ← plain (engAddr (dst.addr u) n 8)
    match (s.tile t).load a n with
    | .error (w, y) => .error (⟨.uncorrectable, some w⟩, y)
    | .ok (bs, x) => if (cap.map (fun c => decide (c ≤ u))).getD false then .ok s else match x.store b bs with
      | .error (w, y) => .error (⟨.uncorrectable, some w⟩, y)
      | .ok x => match x.head 2 with
        | some q => .ok (s.setTile t (x.setHead 2 { q with units := q.units + 1 }))
        | none => .ok s
  | 0, sp => do
    let a ← plain (engAddr (src.addr u) n 8)
    let l ← plain (s.unitPieces p sp (dst.addr u) n)
    match (s.tile t).load a n with
    | .error (w, y) => .error (⟨.uncorrectable, some w⟩, y)
    | .ok (bs, x) => .ok ((s.setTile t x).copySend t q.id u (bits w 5 4) true 0 bs l)
  | sp, _ => do
    let l ← plain (s.unitPieces p sp (src.addr u) n)
    let b ← plain (engAddr (dst.addr u) n 8)
    .ok (s.copySend t q.id u (bits w 5 4) false b [] l)

/-- The units from u on, k of them; a stop ends the instruction. -/
def State.copyUnits (s : State) (t : Nat) (q : QEntry) (cap : Option Nat) : Nat → Nat → State
  | _, 0 => s.onTile t (fun x => match x.head 2 with
    | some y => if y.id = q.id && y.status = .ok then x.setHead 2 { y with ran := true, decided := true } else x
    | none => x)
  | u, k + 1 =>
    match (s.tile t).head 2 with
    | some y =>
      if y.id ≠ q.id || y.status ≠ .ok then s
      else match s.copyUnit t q cap u with
        | .error (st, x) => (match st.word with
          | some w => s.setEcc t x w
          | none => s.setTile t x).copyStop t st.st (st.word.getD 0)
        | .ok s => State.copyUnits s.memReap t q cap (u + 1) k
    | none => s

/-- COPY (R133, R134). A COPY within the scratchpad that stops has written a free number of the units before the stop (R126,
log 76). -/
def State.copy (s : State) (t : Nat) : State :=
  let x := s.tile t
  match x.head 2 with
  | some q =>
    if s.engineLive x && !q.ran then
      let r := s.copyUnits t q none 0 (agAt q.words 4).units
      match (r.tile t).head 2 with
      | some y =>
        if y.id = q.id && y.status ≠ .ok && (agAt q.words 4).space = 0 && (agAt q.words 12).space = 0 then
          { s with free := s.free + 1 }.copyUnits t q (some (Config.freeNat s.free % (y.units + 1))) 0 (agAt q.words 4).units
        else r
      | none => r
    else s
  | none => s

def execCopy (t : Nat) (s : State) : Host.Outcome State Fault Refusal := .next (s.copy t)

end Sys2Proof.Machine
end

