-- ==== Sys2Proof/Machine/Stack.lean ====
section
/-! DEFINITION. The events of stacked memory: slots, responses, refresh, scrub, retraining, repair copies, adder write-back (R413 to R424). -/

namespace Sys2Proof.Machine

/-! ### Slots (R413) -/

/-- Two requests to the same 256-byte unit. -/
def MemReq.sameUnit (r x : MemReq) : Bool :=
  match r.target, x.target with
  | .stk q b o, .stk q' b' o' => q = q' && b = b' && o / 256 = o' / 256
  | _, _ => false

/-- The queued requests of a pseudo-channel that may be served: none older to the same unit waits. -/
def State.eligible (s : State) (q : Nat) : List MemReq :=
  let l := s.stk.reqs.filter (fun r => r.queued && r.atPch q)
  l.filter (fun r => !(l.takeWhile (fun x => x.id ≠ r.id)).any (fun x => x.sameUnit r))

/-- The oldest request of a class. -/
def oldestOf (l : List MemReq) (c : Nat) : Option MemReq := l.find? (fun r => r.cls = c)

/-- The request that a slot serves, with the round robin after it. -/
def State.pickReq (s : State) (x : Pch) (l : List MemReq) : Option (MemReq × Pch) :=
  let lat := oldestOf l 0
  let took := (x.slots.filter (· = 0)).length
  match (if took < s.stk.lat then lat else none) with
  | some r => some (r, x)
  | none => match oldestOf l 1 with
    | some r => some (r, x)
    | none => match oldestOf l 2, oldestOf l 3 with
      | some b, some p =>
        let cb := x.wBulk + s.stk.wBulk
        let cs := x.wSpill + s.stk.wSpill
        let total : Int := s.stk.wBulk + s.stk.wSpill
        if cs ≤ cb then some (b, { x with wBulk := cb - total, wSpill := cs }) else some (p, { x with wBulk := cb, wSpill := cs - total })
      | some b, none => some (b, x)
      | none, some p => some (p, x)
      | none, none => lat.map (fun r => (r, x))

/-- Requests that wait at a port for an entry of a pseudo-channel take it as it frees, oldest first; ports that this lets go on do. -/
def State.memAdmitQ (s : State) (q : Nat) : State :=
  (((s.stk.reqs.filter (fun r => r.stage = .atPort && r.atPch q)).map (·.id)).foldl State.leave s).portsResume.memReap

/-- Writes back the oldest corrected word that is due (R416). -/
def State.writeBack (s : State) (q : Nat) : State :=
  match (s.pch q).fixes with
  | [] => s
  | w :: ws => { s.setPch q { s.pch q with fixes := ws } with stk := { (s.setPch q { s.pch q with fixes := ws }).stk with
      soft := s.stk.soft.filter (· ≠ w) } }

/-- MEM_SLOT_SERVE: one slot of a pseudo-channel. A channel that is not READY or in a window of STK_MARGIN serves nothing, nor does a
pseudo-channel while a refresh or a repair copy occupies it. -/
def State.memSlot (s : State) (q : Nat) : State :=
  let x := s.pch q
  let c := s.channel (pchChannel q)
  if c.state ≠ .ready || s.now < c.window || s.now < x.busy || (!x.slots.isEmpty && s.now < x.last + 15) then s
  else
    let idle := if x.slots.isEmpty then 0 else min 64 ((s.now - x.last) / 15 - 1)
    let x := { x with slots := (List.replicate idle 4 ++ x.slots).take 64, last := s.now }
    if !x.fixes.isEmpty then (s.setPch q { x with slots := (4 :: x.slots).take 64 }).writeBack q
    else match s.pickReq x (s.eligible q) with
      | none => s.setPch q { x with slots := (4 :: x.slots).take 64 }
      | some (r, x) =>
        let s := s.setPch q { x with slots := (r.cls :: x.slots).take 64 }
        let s := s.setReq { r with queued := false, stage := if r.stage = .out then .served else r.stage }
        (s.dropReq r.id).memAdmitQ q

def execMemSlotServe (pch cc : Nat) (s : State) : Host.Outcome State Fault Refusal := .next ((s.at cc).memSlot pch)

/-! ### Responses (R416) -/

/-- MEMORY_RESPONSE: the read data is checked; errs names words of the request that the check finds in error for the first
time (true: uncorrectable). -/
def State.memResponse (s : State) (id : Nat) (errs : List (Nat × Bool)) : State :=
  match s.req id with
  | none => s
  | some r =>
    if r.stage ≠ .served then s
    else match r.target with
      | .stk q b off =>
        match s.blockStatus q b with
        | .ok =>
          let a := cellAddr q b off
          let ws := pieceWords a r.len
          let es := (errs.filter (fun e => e.1 < ws.length)).map (fun e => (nth ws e.1 0, e.2))
          let s := s.newErrors es
          let bad := ws.filter (fun w => r.badAt.contains w || es.contains (w, true))
          let soft := ws.filter (fun w => !bad.contains w && (r.softAt.contains w || es.contains (w, false)))
          let (st, s) := s.checkWords q bad soft
          s.arrive r st
        | st => s.arrive r st
      | .pinned d off =>
        let a := 16777216 * d + off
        let ws := pieceWords a r.len
        let es := (errs.filter (fun e => e.1 < ws.length)).map (fun e => (nth ws e.1 0, e.2))
        let bad := ws.filter (fun w => r.badAt.contains w || es.contains (w, true))
        let soft := ws.filter (fun w => !bad.contains w && (r.softAt.contains w || es.contains (w, false)))
        let s := { s with atl := { s.atl with
          bad := s.atl.bad ++ bad.filter (fun w => !s.atl.bad.contains w),
          softBits := s.atl.softBits.filter (fun w => !soft.contains w), corrected := satInc s.atl.corrected soft.length } }.tally 0x18050 soft.length
        s.arrive r (if bad.isEmpty then .ok else .uncorrectable)
      | .far _ _ => s

def execMemoryResponse (id cc : Nat) (errs : List (Nat × Bool)) (s : State) : Host.Outcome State Fault Refusal :=
  .next ((s.at cc).memResponse id errs)

/-- PADDED_COMPLETION (R162): a held request completes at its padded cycle. -/
def State.padded (s : State) (id : Nat) : State :=
  match s.req id with
  | none => s
  | some r => match r.stage, r.pad with
    | .held st, some p => if p ≤ s.now then (s.setReq { r with stage := .complete st }).memReap else s
    | _, _ => s

def execPaddedCompletion (id cc : Nat) (s : State) : Host.Outcome State Fault Refusal := .next ((s.at cc).padded id)

/-! ### Refresh and scrub (R164, R417, R422) -/

/-- STK_UNCORRECTABLE for word k of unit u of block i of a pseudo-channel, as the patrol scrub numbers its blocks. -/
def State.scrubNotice (s : State) (q i u k : Nat) : State :=
  let w := put 10 0 q + put 33 16 i + put 42 34 (32 * u + k)
  s.notify .stkUncorrectable .uncorrectable none w 0 (.region (pchRegion q)) w

/-- The scrub of a unit that serves no address, in the own rows of a retired block or in a free reserve block: its bytes from `base` on.
Corrections count, uncorrectable words are noticed (R416, R417). -/
def State.scrubIdle (s : State) (q i u base : Nat) (errs : List (Nat × Bool)) : State :=
  let word := fun (k : Nat) => base + 256 * u + 8 * k
  let es := errs.filter (fun e => e.1 < 32 && !s.stk.oldBad.contains (word e.1))
  let fixed := (es.filter (fun e => !e.2 && !es.contains (e.1, true))).length
  let s : State := { s with stk := { s.stk with corr := satInc s.stk.corr fixed,
                                                oldBad := s.stk.oldBad ++ (((es.filter (·.2)).map (fun e => word e.1)).eraseDups) } }
  ((List.range 32).filter (fun k => s.stk.oldBad.contains (word k))).foldl (fun s k => s.scrubNotice q i u k) (s.tally 0x16040 fixed)

/-- The scrub of a unit of a block in use: `errs` names words of the unit that it finds in error for the first time. Corrections follow
R416; an uncorrectable word raises the notice, and its row is repaired (R417, R418). -/
def State.scrubUsed (s : State) (q i u block : Nat) (errs : List (Nat × Bool)) : State :=
  let a := 4096 * block + 256 * u
  let ws := pieceWords a 256
  let s := s.newErrors ((errs.filter (fun e => e.1 < 32)).map (fun e => (a + 8 * e.1, e.2)))
  let s := (ws.filter (fun w => s.stk.soft.contains w)).foldl State.correctWord s
  ((ws.filter (fun w => s.stk.bad.contains w)).foldl (fun s w => (s.scrubNotice q i u ((w - a) / 8)).triggerRow (w / 1024)) s).repairSlot q

/-- The scrub of the next unit of a pseudo-channel: blocks in turn, then the reserve blocks (R417). -/
def State.scrub (s : State) (q : Nat) (errs : List (Nat × Bool)) : State :=
  let n := (s.pch q).scrub
  let s := s.setPch q { s.pch q with scrub := (n + 1) % 2930192 }
  let i := n / 16
  let own := blockKey q i
  if i < blocksPerPch then
    if (s.stk.retired.look own).isSome then s.scrubIdle q i (n % 16) (4096 * own) errs else s.scrubUsed q i (n % 16) own errs
  else match s.stk.retired.find? (fun e => e.1 / blocksPerPch = q && e.2.reserve = some (i - blocksPerPch)) with
    | some e => s.scrubUsed q i (n % 16) e.1 errs
    | none => s.scrubIdle q i (n % 16) (reserveBase q (i - blocksPerPch)) errs

/-- A refresh: a maintenance slot, of at most 660 cc outside Datum scheduling, with one write-back that is due and the scrub. Under it
the refresh is made per bank, and the other banks go on (log 42). -/
def State.refresh (s : State) (q : Nat) (errs : List (Nat × Bool)) : State :=
  ((s.maintain q (if s.anyDatum then 0 else 660)).writeBack q).scrub q errs

/-- REFRESH (R422), outside Datum scheduling. -/
def execRefresh (pch cc : Nat) (errs : List (Nat × Bool)) (s : State) : Host.Outcome State Fault Refusal :=
  let s := s.at cc
  .next (if pch < 1536 && !s.anyDatum && (s.channel (pchChannel pch)).state ≠ .untrained then s.refresh pch errs else s)

/-- SCHED_REFRESH (R164): pseudo-channel q refreshes where DTM_TIMEBASE mod 7,296 = 19 × (q mod 384), and in the cycle in which a
start barrier sets DTM_TIMEBASE to zero, where a refresh had fallen due. -/
def execSchedRefresh (pch cc : Nat) (errs : List (Nat × Bool)) (s : State) : Host.Outcome State Fault Refusal :=
  let s := s.at cc
  .next (if pch < 1536 && s.anyDatum && (s.timebase % 7296 = 19 * (pch % 384) || s.timebase = 0) && (s.channel (pchChannel pch)).state ≠ .untrained then
    s.refresh pch errs else s)

/-! ### Retraining (R165, R423, R424) -/

/-- A channel begins to retrain: its pseudo-channels serve nothing until it ends. -/
def State.retrain (s : State) (ch : Nat) (unscheduled : Bool) : State :=
  if ch < 768 && (s.channel ch).state = .ready then
    let s := s.setChannel ch { s.channel ch with state := .retraining, unscheduled := unscheduled, began := s.now }
    { s with stk := { s.stk with retrains := satInc s.stk.retrains } }.tally 0x16060
  else s

/-- PERIODIC_RETRAIN, outside Datum mode. -/
def execPeriodicRetrain (ch cc : Nat) (s : State) : Host.Outcome State Fault Refusal :=
  let s := s.at cc
  .next (if s.anyDatum then s else s.retrain ch false)

/-- SCHED_RETRAIN (R165). -/
def execSchedRetrain (ch cc : Nat) (s : State) : Host.Outcome State Fault Refusal :=
  let s := s.at cc
  .next (if s.anyDatum && s.timebase % 2 ^ s.dtm.period = 4096 * ch % 2 ^ s.dtm.period then s.retrain ch false else s)

/-- ERROR_RATE_RETRAIN (R423): more than RT_THRESH corrected transfer errors within 1 ms. -/
def execErrorRateRetrain (ch errors cc : Nat) (s : State) : Host.Outcome State Fault Refusal :=
  let s := s.at cc
  .next (if s.stk.rtThresh < errors then s.retrain ch true else s)

def MemReq.atChannel (r : MemReq) (ch : Nat) : Bool := r.atPch (2 * ch) || r.atPch (2 * ch + 1)

/-- RETRAIN_END (R423): READY again, or FAILED with a notice; the requests that an unscheduled retraining held are marked (R165). -/
def State.retrainEnd (s : State) (ch : Nat) (ok : Bool) : State :=
  let c := s.channel ch
  if c.state ≠ .retraining then s
  else
    let s := if c.unscheduled then
        s.setReqs (s.stk.reqs.map (fun r => if r.atChannel ch && r.stage = .out then { r with stalled := true } else r))
      else s
    if ok then s.setChannel ch { c with state := .ready, unscheduled := false }
    else
      let s := s.setChannel ch { c with state := .failed, unscheduled := false }
      let s := s.setReqs (s.stk.reqs.map (fun r =>
        if r.atChannel ch && r.queued then { r with queued := false, stage := if r.stage = .out then .served else r.stage } else r))
      ((s.notify .channelFailed .ok none ch 0 (.region (pchRegion (2 * ch)))).memAdmitQ (2 * ch)).memAdmitQ (2 * ch + 1)

def execRetrainEnd (ch cc : Nat) (ok : Bool) (s : State) : Host.Outcome State Fault Refusal := .next ((s.at cc).retrainEnd ch ok)

/-- REMAP_COPY (R418): the deferred copies of a pseudo-channel run in its channel's scheduled retraining window, or at once where
the schedule has ended. -/
def execRemapCopy (pch : Nat) (s : State) : Host.Outcome State Fault Refusal :=
  .next (if ((s.channel (pchChannel pch)).state = .retraining && !(s.channel (pchChannel pch)).unscheduled) || !s.anyDatum then s.repairDue pch else s)

/-! ### Adders (R415) -/

/-- The request of the SYNC class that brings a line into its slot, from the Sheet homes' port 257 of a die (R405, R412, R450). -/
def State.lineFetch (s : State) (die addr : Nat) : State :=
  let b := addr / 4096
  s.memSend { id := 0, user := .line (pchController (b / blocksPerPch)) addr, write := false,
              target := .stk (b / blocksPerPch) (b % blocksPerPch) (addr % 4096), len := 64, cls := 1, part := none, die := die, port := 257 }

/-- A line may leave its slot: it is there, and its channel does not retrain, so that it can be written back. -/
def State.lineFree (s : State) (x : AdderLine) : Bool :=
  x.got.isSome && (s.channel (pchChannel (x.addr / 4096 / blocksPerPch))).state ≠ .retraining

/-- A line that a home on a die needs goes into one of the 16 slots of its controller: a free one, or that of the line touched least
recently among those that may leave. Where there is none, it waits. -/
def State.lineBring (s : State) (die controller addr : Nat) : State :=
  let l := s.stk.adders.lookD controller []
  if l.any (fun x => x.addr = addr) then s
  else
    let kept := if l.length < 16 then some l
      else ((l.reverse.find? s.lineFree).map (fun v => l.filter (fun x => x.addr ≠ v.addr)))
    match kept with
    | none => s
    | some l => ({ s with stk := { s.stk with adders := s.stk.adders.put controller (⟨addr, s.now, none⟩ :: l) } }.lineFetch die addr).memReap

/-- A line operation touches its line: it comes to the front of the slots. -/
def State.lineTouch (s : State) (controller addr : Nat) : State :=
  let l := s.stk.adders.lookD controller []
  { s with stk := { s.stk with adders := s.stk.adders.put controller (⟨addr, s.now, some .ok⟩ :: l.filter (fun x => x.addr ≠ addr)) } }

/-- A line leaves its slot. -/
def State.lineDrop (s : State) (controller addr : Nat) : State :=
  { s with stk := { s.stk with adders := s.stk.adders.put controller ((s.stk.adders.lookD controller []).filter (fun x => x.addr ≠ addr)) } }

/-- ADDER_WRITEBACK: the lines of a die that no operation has touched for 16 cc; a write-back waits for its channel. -/
def execAdderWriteback (die cc : Nat) (s : State) : Host.Outcome State Fault Refusal :=
  let s := s.at cc
  .next { s with stk := { s.stk with adders := s.stk.adders.map (fun e =>
    if e.1 / 24 = die then (e.1, e.2.filter (fun x => s.now < x.touch + 16 || !s.lineFree x)) else e) } }

end Sys2Proof.Machine
end

