-- ==== Sys2Proof/Machine/Far.lean ====
section
/-! DEFINITION. The far tier: presence, readiness, responses, loss, and its commands (R428 to R434). -/

namespace Sys2Proof.Machine

/-- The capacity a port maps: min(capacity, 4 TB) (R428). -/
def FarPort.mapped (p : FarPort) : Nat := match p.id with
  | some i => min i.capacity (2 ^ 42)
  | none => 0

/-- The identity of R430 as FAR_IDENTITY returns it: vendor, device, serial, firmware, capacity. -/
def farIdWords (i : FarId) : List Word := [wd i.vendor, wd i.device, wd i.serial, wd i.firmware, wd i.capacity]

/-- Compass trains the link of a port (R430). -/
def State.farBring (s : State) (p : Nat) : State :=
  s.setFarPort p { s.farPort p with state := .training, linkUp := s.now, disabled := false, keying := false }

/-- The next step of a port that comes up, of its own accord: the trained link with CXL IDE stays DOWN until its keys are set (R428);
then the link is up, and Compass enumerates the device (R430, log 44). -/
def State.farAdvance (s : State) (p : Nat) : State :=
  let x := s.farPort p
  if x.state = .training && x.ide then s.setFarPort p { x with state := .down, keying := true }
  else if x.state = .training || (x.state = .down && x.keying) then
    s.setFarPort p { x with state := .enumerating, keying := false, linkUp := s.now }
  else s

/-- FAR_DEVICE_PRESENT (R430): `half` for 32 GT/s, `width` lanes trained. A disabled port stays DOWN. -/
def State.farPresent (s : State) (p : Nat) (i : FarId) (half : Bool) (width : Nat) : State :=
  let x := s.farPort p
  if p ≤ 1 && !x.keying && (x.state = .empty || x.state = .down || x.state = .failed) then
    let s := s.setFarPort p { x with id := some i, half := half, width := width }
    if x.disabled then s else s.farBring p
  else s

def execFarDevicePresent (port : Nat) (id : FarId) (half : Bool) (width cc : Nat) (s : State) : Host.Outcome State Fault Refusal :=
  .next ((s.at cc).farPresent port id half width)

/-- 2 s in core cycles (R430). -/
def farReadyLimit : Nat := 3750000000

/-- FAR_PORT_READY (R430): media ready within 2 s of link-up. The identity enters the Itinerary (log 44: under the code of link
states). -/
def State.farReady (s : State) (p : Nat) : State :=
  let x := s.farPort p
  if x.state = .enumerating && s.now ≤ x.linkUp + farReadyLimit then
    let s := s.setFarPort p { x with state := .ready, slots := [] }
    let s := match x.id with
      | some i => s.itinEvent 0x000C none .ok (leBytes 8 p) (pieces 32 2 (padTo 64 0 (wordBytes (farIdWords i))))
      | none => s
    s.progress 0x0909 p
  else s

def execFarPortReady (port cc : Nat) (s : State) : Host.Outcome State Fault Refusal := .next ((s.at cc).farReady port)

/-- FAR_READY_TIMEOUT (R430). A FAR_PORT_CTRL that waits completes with TIMEOUT (log 44). -/
def State.farTimeout (s : State) (p : Nat) : State :=
  let x := s.farPort p
  if (x.state = .enumerating || x.state = .training || x.keying) && x.linkUp + farReadyLimit ≤ s.now then
    ((s.setFarPort p { x with state := .failed, keying := false }).notify .farFailed .ok none p 0).progress 0x0909 p .timeout
  else s

def execFarReadyTimeout (port cc : Nat) (s : State) : Host.Outcome State Fault Refusal := .next ((s.at cc).farTimeout port)

/-- A port serves its next request: LATENCY before BULK, under LAT_CAP over its last 64 requests; the request leaves for the
device (R431). It is what the ports do of their own accord, on an empty command queue (log 1). -/
def State.farServe (s : State) (p : Nat) : State :=
  let x := s.farPort p
  let l := s.stk.reqs.filter (fun r => r.queued && r.atFar p)
  let lat := l.find? (fun r => r.cls = 0)
  let bulk := l.find? (fun r => r.cls ≠ 0)
  let pick := match (if (x.slots.filter (· = true)).length < s.stk.lat then lat else none), bulk with
    | some r, _ => some r
    | none, some r => some r
    | none, none => lat
  match x.state, pick with
  | .ready, some r =>
    let s := s.setFarPort p { x with slots := (decide (r.cls = 0) :: x.slots).take 64 }
    let a := match r.target with
      | .far _ a => a
      | _ => 0
    let s := (s.setReq { r with queued := false, stage := .served }).emit (.far p r.id r.write a r.len r.data)
    ((s.stk.reqs.filter (fun r => r.stage = .atPort && r.atFar p)).map (·.id)).foldl State.portResume s
  | _, _ => s

/-- FAR_RESPONSE (R432): data of a read, or the end of a write; poison or a media error gives UNCORRECTABLE. -/
def State.farResponse (s : State) (id : Nat) (poison : Bool) (bytes : List Byte) : State :=
  match s.req id with
  | some r =>
    match r.target, r.stage with
    | .far p a, .served =>
      let r := { r with data := if r.write then r.data else padTo r.len 0 bytes }
      if poison then
        let s := { s with far := { s.far with poison := satInc s.far.poison } }.tally 0x17040
        let s := s.notify .farPoison .uncorrectable r.part
          (p * 2 ^ 42 + a) 0 .hub (p * 2 ^ 42 + a)
        s.arrive r .uncorrectable
      else s.arrive r .ok
    | _, _ => s
  | none => s

def execFarResponse (id : Nat) (poison : Bool) (bytes : List Byte) (cc : Nat) (s : State) : Host.Outcome State Fault Refusal :=
  .next ((s.at cc).farResponse id poison bytes)

/-- Every request in flight on a port ends with TARGET_LOST, but for those named (R433). -/
def State.farEnd (s : State) (p : Nat) (stand : List Nat := []) : State :=
  ((s.stk.reqs.filter (fun r => r.atFar p && !stand.contains r.id && (match r.stage with
    | .held _ => false
    | .complete _ => false
    | _ => true))).foldl State.farLose s).memReap

/-- The requests whose response waits in the queue of commands for the same cycle: it stands (R433). -/
def State.farStanding (s : State) : List Nat :=
  s.pending.filterMap (fun c => match c with
    | .farResponse id _ _ cc => if cc = s.now then some id else none
    | _ => none)

/-- FAR_LINK_DOWN (R433): the link went down, or the device was removed, from a port whose link was down too. -/
def State.farDown (s : State) (p : Nat) (removed : Bool) : State :=
  let x := s.farPort p
  if p ≤ 1 && ((x.state ≠ .empty && x.state ≠ .down) || x.keying || (removed && x.id.isSome)) then
    let s := s.setFarPort p { x with state := .down, ide := false, keying := false, id := if removed then none else x.id }
    let s := { s with far := { s.far with downs := satInc s.far.downs } }.tally 0x17050
    let s := (s.farEnd p s.farStanding).notifyRecorded .farDown .targetLost none p (flag 0 removed)
    s.progress 0x0909 p
  else s

def execFarLinkDown (port cc : Nat) (removed : Bool) (s : State) : Host.Outcome State Fault Refusal :=
  .next ((s.at cc).farDown port removed)

/-! ### Commands (R434) -/

/-- FAR_WINDOW_SET (R429). -/
def State.windowBad (s : State) (part entry port base size : Nat) : Bool :=
  1 < port || base % 4096 ≠ 0 || size % 4096 ≠ 0 || size = 0 || (s.farPort port).mapped < base + size ||
    s.far.windows.any (fun e => e.1 / 16 ≠ part && e.2.port = port && base < e.2.base + e.2.size && e.2.base < base + size) || 15 < entry

def execFarWindowSet (k : Kci) (part entry port base size : Nat) (valid : Bool) (s : State) : Host.Outcome State Fault Refusal :=
  .next (kciRun 0x0907 k s (fun s =>
    KRes.check s [k.denied, (!s.partExists part, .partInvalid), (15 < entry, .memInvalid),
        (valid && s.windowBad part entry port base size, .memInvalid)] (fun _ =>
      let w := s.far.windows
      let w := if valid then SMap.put w (16 * part + entry) ⟨port, base, size⟩ else SMap.del w (16 * part + entry)
      { st := { s with far := { s.far with windows := w } } }))
    (conf := true) (key := 2))

/-- FAR_IDENTITY (R430). -/
def execFarIdentity (k : Kci) (port : Nat) (s : State) : Host.Outcome State Fault Refusal :=
  .next (kciRun 0x0908 k s (fun s =>
    KRes.check s [k.denied, (1 < port, .badOperand)] (fun _ =>
      match (s.farPort port).id with
      | some i => { st := s, result := farIdWords i }
      | none => .fail s .notPresent)) (records := false))

/-- FAR_PORT_CTRL (R433): completes when the port is READY, DOWN or EMPTY. -/
def State.farCtrl (s : State) (port : Nat) (action : FarAction) (ide : Bool) : State :=
  let x := s.farPort port
  match action with
  | .disable => ((s.farEnd port).setFarPort port { x with state := .down, disabled := true, ide := false, keying := false }).progress 0x0909 port
  | .enable =>
    let s := s.setFarPort port { x with disabled := false, ide := ide }
    if x.id.isSome && ((x.state = .down && !x.keying) || x.state = .failed) then s.farBring port
    else if x.id.isNone then s.setFarPort port { x with state := .empty, disabled := false, ide := false } else s
  | .reset =>
    let s := (s.farEnd port).setFarPort port { x with disabled := false, ide := ide, slots := [] }
    if x.id.isSome then s.farBring port else s.setFarPort port { x with state := .empty, disabled := false, ide := false }

def execFarPortCtrl (k : Kci) (port : Nat) (action : FarAction) (ide : Bool) (s : State) : Host.Outcome State Fault Refusal :=
  .next (kciRun 0x0909 k s (fun s =>
    KRes.check s [k.denied, (1 < port, .badOperand)] (fun _ =>
      let s := s.farCtrl port action ide
      let x := s.farPort port
      { st := s, keys := if x.state = .ready || (x.state = .down && !x.keying) || x.state = .empty then [] else [port] })) (conf := true))

end Sys2Proof.Machine
end

