-- ==== Sys2Proof/Machine/StackCmd.lean ====
section
/-! DEFINITION. The stacked-memory commands (R407, R408, R413, R421, R423, R425 to R427, R434). -/

namespace Sys2Proof.Machine

/-! ### Regions (R407, R408) -/

/-- STK_REGION_SET (R407, R408): in flight until its zeroing has been accepted. -/
def execStkRegionSet (k : Kci) (region : RegionDef) (s : State) : Host.Outcome State Fault Refusal :=
  .next (kciRun 0x0901 k s (fun s =>
    KRes.check s [k.denied, (region.outside, .badOperand), (!region.system && !s.partExists region.part, .partInvalid),
        (s.regionInvalid region, .memInvalid),
        (regionLimit region.owner ≤ (s.stkRegions region.owner).length + (s.stk.zeroing.filter (fun z => z.def_.owner = region.owner)).length,
          .noResources)] (fun _ =>
      let r := s.zeroStart region
      { st := r.2, keys := r.1.toList })) (conf := true) (key := 2))

/-- The four words of a region entry (R407). -/
def regionWords (owner : Nat) (g : StkRegion) : List Word :=
  [wd (put 5 0 (if owner = 64 then 0 else owner) + flag 6 (owner = 64) + flag 7 g.global + put 9 8 g.die), wd g.vbase,
   wd (put 17 0 g.first + put 49 32 g.bands), 0]

/-- STK_REGION_QUERY (R434): the regions, then the far windows as entry, port, base, size. -/
def execStkRegionQuery (k : Kci) (owner : RegionOwner) (s : State) : Host.Outcome State Fault Refusal :=
  .next (kciRun 0x0903 k s (fun s =>
    let o := owner.idx
    KRes.check s [k.notOwn o, (o < 64 && !s.partExists o, .partInvalid)] (fun _ =>
      { st := s, result := (s.stkRegions o).flatMap (regionWords o) ++
          (s.far.windows.filter (fun e => e.1 / 16 = o)).flatMap (fun e => [wd (e.1 % 16), wd e.2.port, wd e.2.base, wd e.2.size]) }))
    (records := false))

/-- STK_RETRAIN_CFG (R423). -/
def execStkRetrainCfg (k : Kci) (period rtThresh : Nat) (s : State) : Host.Outcome State Fault Refusal :=
  .next (kciRun 0x0904 k s (fun s =>
    KRes.check s [k.denied, (period < 22 || 34 < period || rtThresh = 0 || 255 < rtThresh, .memInvalid)] (fun _ =>
      { st := { s with dtm := { s.dtm with period := period }, stk := { s.stk with rtThresh := rtThresh } } })) (conf := true) (key := 0))

/-- STK_POLICY_SET (R413, R418). -/
def execStkPolicySet (k : Kci) (latCap wBulk wSpill ceThresh : Nat) (s : State) : Host.Outcome State Fault Refusal :=
  .next (kciRun 0x0905 k s (fun s =>
    KRes.check s [k.denied, (64 < latCap || wBulk = 0 || 15 < wBulk || wSpill = 0 || 15 < wSpill || ceThresh = 0 || 255 < ceThresh, .memInvalid)]
      (fun _ => { st := { s with stk := { s.stk with lat := latCap, wBulk := wBulk, wSpill := wSpill, ceThresh := ceThresh } } }))
    (conf := true) (key := 0))

/-! ### Repair log and bring-up access (R421, R425 to R427) -/

/-- An entry of the repair log (log 45): pseudo-channel [10:0], block [33:16], row [35:34], failures [47:40], home [49:48], spare
[55:50], retired [56]. -/
def State.repairEntry (s : State) (r : Nat) (x : RowLog) : List Byte :=
  leBytes 8 (rowSubject r + put 47 40 (min x.fails 255) + (match x.home with
    | .own => 0
    | .spare i => put 49 48 1 + put 55 50 i
    | .repaired => put 49 48 2) + flag 56 (s.stk.retired.look (r / 4)).isSome)

/-- STK_REPAIR_LOG (R427). -/
def execStkRepairLog (k : Kci) (dest first count : Nat) (s : State) : Host.Outcome State Fault Refusal :=
  .next (kciRun 0x0906 k s (fun s =>
    KRes.check s [k.denied] (fun _ =>
      { st := s.putHost k dest (((s.stk.rows.drop first).take count).flatMap (fun e => s.repairEntry e.1 e.2)) })) (records := false))

/-- Some tile of a Datum partition is RUNNING or HALTED (R177). -/
def State.datumBusy (s : State) : Bool :=
  s.grid.tiles.any (fun e => (e.2.state = .running || e.2.state = .halted) && (match e.2.part with
    | some p => s.partDatum p
    | none => false))

/-- STK_BRINGUP_SELECT (R425). -/
def execStkBringupSelect (k : Kci) (sel : Bringup) (s : State) : Host.Outcome State Fault Refusal :=
  .next (kciRun 0x0F20 k s (fun s =>
    KRes.check s [k.denied, (sel ≠ .none && s.datumBusy, .modeConflict)] (fun _ =>
      { st := { s with stk := { s.stk with bringup := sel } } })))

/-- A region holds a band of a stack. -/
def State.stackHeld (s : State) (stack : Nat) : Bool := s.stk.regions.any (fun e => e.2.any (fun g => g.global || g.die = stack / 6))

/-- The steps of a sweep (R426). -/
def sweepSteps : Sweep → Nat
  | .dqDelay => 65
  | .vref => 49
  | .supply => 21

/-- Takes n free values (log 2). -/
def State.freshList : State → Nat → List Nat × State
  | s, 0 => ([], s)
  | s, n + 1 => let r := State.freshList { s with free := s.free + 1 } n; (Config.freeNat s.free :: r.1, r.2)

/-- The windows of an STK_MARGIN begin: its channels serve nothing until the last has ended. Each step takes at most 2,813 cc, one
after another; how long they take in all is a free value (R426, log 46). -/
def State.marginStart (s : State) (chs : List Nat) (steps : Nat) (counts : List Word) : State :=
  let due := s.now + 1 + Config.freeNat s.free % (2813 * steps)
  let id := s.stk.next
  let s := { s with free := s.free + 1, stk := { s.stk with next := id + 1, margins := s.stk.margins ++ [⟨id, due, counts⟩] } }
  chs.foldl (fun s ch => s.setChannel ch { s.channel ch with window := due }) s

/-- Windows that have ended: their commands complete. -/
def State.marginsDue (s : State) : State :=
  (s.stk.margins.filter (fun m => m.due ≤ s.now)).foldl (fun s m =>
    { s with stk := { s.stk with margins := s.stk.margins.filter (fun x => x.id ≠ m.id) } }.progress 0x0F21 m.id .ok m.counts) s

/-- STK_MARGIN (R426): the counts per lane and step of every channel of the mask are free values; 64 lanes a channel (log 46). It
completes when its windows have ended. -/
def execStkMargin (k : Kci) (stack channels : Nat) (sweep : Sweep) (s : State) : Host.Outcome State Fault Refusal :=
  .next (kciRun 0x0F21 k s (fun s =>
    KRes.check s [k.denied, (24 ≤ stack || 2 ^ 32 ≤ channels, .badOperand), (s.stk.bringup ≠ .margin, .modeConflict),
        (sweep = .supply && s.stackHeld stack, .stackBusy)] (fun _ =>
      let chs := (List.range 32).filter channels.testBit
      let r := s.freshList (chs.length * 64 * sweepSteps sweep)
      if chs.isEmpty then { st := s }
      else { st := r.2.marginStart (chs.map (32 * stack + ·)) (sweepSteps sweep) (r.1.map wd), keys := [r.2.stk.next] }))
    (regions := stackRegions stack))

/-- Applies post-package repair to a logical row: its spare is free again, or the repair failed its verification (R421). Whether
it verifies is a free value. -/
def State.pprRow (s : State) (r : Nat) : State :=
  let q := rowPch r
  let b := 2 ^ 16 * (q / 64) + Config.rowBank q (r % (4 * blocksPerPch)) % 2 ^ 16
  let used := s.stk.pprUsed.lookD b 0
  if Config.pprResources ≤ used then s
  else
    let (v, s) := s.fresh
    let s := { s with stk := { s.stk with pprUsed := s.stk.pprUsed.put b (used + 1) } }
    if v = 0 then s.notify .pprFailed .ok none (rowSubject r) 0 (.region (pchRegion q))
    else
      let s := match (s.rowLog r).home with
        | .spare i => s.setPch q { s.pch q with spares := (s.pch q).spares.filter (· ≠ i) }
        | _ => s
      s.setRowLog r { s.rowLog r with home := .repaired }

/-- STK_REPAIR_ACCESS (R427): QUERY, or APPLY with a row: pseudo-channel of the stack, and row of it. -/
def execStkRepairAccess (k : Kci) (stack : Nat) (apply : Option (Nat × Nat)) (s : State) : Host.Outcome State Fault Refusal :=
  .next (kciRun 0x0F22 k s (fun s =>
    KRes.check s [k.denied, (24 ≤ stack, .badOperand), (s.stk.bringup ≠ .repair, .modeConflict)] (fun _ =>
      match apply with
      | none => { st := s, result := (List.range Config.pprBanks).map (fun b =>
          wd (Config.pprResources - s.stk.pprUsed.lookD (2 ^ 16 * stack + b) 0)) }
      | some (c, row) =>
        KRes.check s [(64 ≤ c || 4 * blocksPerPch ≤ row, .badOperand), (s.stackHeld stack, .stackBusy)] (fun _ =>
          { st := s.pprRow (4 * blocksPerPch * (64 * stack + c) + row) }))) (regions := stackRegions stack))

/-! ### Reset and training of a stack (R421, R423) -/

/-- Every reset of a stack: post-package repair of its remapped rows; its channels are untrained. -/
def State.stackReset (s : State) (stack : Nat) : State :=
  let rows := (s.stk.rows.filter (fun e => rowPch e.1 / 64 = stack && (match e.2.home with
    | .spare _ => true
    | _ => false))).map (·.1)
  let s := rows.foldl State.pprRow s
  let s := { s with stk := { s.stk with trained := s.stk.trained.filter (· ≠ stack) } }
  (List.range 32).foldl (fun s h => s.setChannel (32 * stack + h) { state := .training }) s

/-- STACK_TRAINED (R558): the channels of a stack that trained become READY. -/
def execStackTrained (stack : Nat) (s : State) : Host.Outcome State Fault Refusal :=
  .next (if 24 ≤ stack || s.stk.trained.contains stack then s
    else (List.range 32).foldl (fun s h => s.setChannel (32 * stack + h) { state := .ready })
      { s with stk := { s.stk with trained := s.stk.trained ++ [stack] } })

end Sys2Proof.Machine
end

