-- ==== Sys2Proof/Machine/Datum.lean ====
section
/-! DEFINITION. Datum mode: calibration, the start barrier, check pulses, partition starts, drift snapshots (R157, R168 to R180). -/

namespace Sys2Proof.Machine

def State.setDtm (s : State) (d : Datum) : State := { s with dtm := d }

/-- MARGIN or REPAIR access is selected (R177). -/
def State.bringupOn (s : State) : Bool := s.stk.bringup ≠ .none

/-- Some tile of partition p is RUNNING or HALTED. -/
def State.partBusy (s : State) (p : Nat) : Bool :=
  s.grid.tiles.any (fun e => e.2.part = some p && (e.2.state = .running || e.2.state = .halted))

/-- DATUM_SET (R157). -/
def execDatumSet (k : Kci) (part : Nat) (on : Bool) (s : State) : Host.Outcome State Fault Refusal :=
  .next (kciRun 0x0210 k s (fun s =>
    KRes.check s [k.denied, (!s.partExists part, .partInvalid), (on && s.bringupOn, .modeConflict), (s.partBusy part, .partState)] (fun _ =>
      let m := s.partMode part
      let masks := if on && !m.datum then s.dtm.masks.del part else s.dtm.masks
      let s := s.setDtm { s.dtm with parts := s.dtm.parts.put part { m with datum := on }, masks := masks }
      { st := s.driftRecord })) (conf := true))

/-! ### Calibration (R170) -/

/-- A reference edge: the count is a multiple of 12 (R168). -/
def State.onEdge (s : State) : Bool := s.timebase % 12 = 0

/-- The first reference edge not before a cycle. -/
def State.edgeFrom (s : State) (c : Nat) : Nat := s.dtm.tbZero + ceilDiv (c - s.dtm.tbZero) 12 * 12

/-- Inserts into a sorted list. -/
def insertNat (x : Nat) : List Nat → List Nat
  | [] => [x]
  | y :: ys => if x ≤ y then x :: y :: ys else y :: insertNat x ys

def sortNat (l : List Nat) : List Nat := l.foldr insertNat []

/-- A calibration ends: PHASE is the 128th smallest of 256 phases that lie from 1 to 11 with a spread of at most 2; otherwise
SYNC_FAIL with the phases recorded. -/
def State.calEnd (s : State) (c : Calib) : State :=
  let l := sortNat c.phases
  let lo := nth l 0 0
  let hi := l.getLastD 0
  let ok := c.phases.length = 256 && 1 ≤ lo && hi ≤ 11 && hi ≤ lo + 2
  let d := { s.dtm with calib := none, pulses := c.phases.length, spread := if c.phases.isEmpty then 0 else hi - lo }
  if ok then (s.setDtm { d with phase := nth l 127 0, calOk := true, state := .calibrated }).progress 0x0211 0
  else (s.setDtm { d with calOk := false }).progress 0x0211 0 .syncFail (c.phases.map wd)

/-- DATUM_SYNC_CAL. A calibration that another one replaces ends with SYNC_FAIL (log 49). -/
def State.syncCal (s : State) (k : Kci) (role : SyncRole) : KRes :=
  let s := match s.dtm.calib with
    | some c => s.progress 0x0211 0 .syncFail (c.phases.map wd)
    | none => s
  match role with
  | .standalone =>
    { st := s.setDtm { s.dtm with role := some role, state := .calibrated, phase := 0, spread := 0, pulses := 0, calOk := false, calib := none } }
  | _ =>
    let acc := s.acceptedAt k 0x0211
    let c : Calib := ⟨role, acc, if role = .leader then 256 else 0, s.edgeFrom s.now, []⟩
    { st := s.setDtm { s.dtm with role := some role, calOk := false, pulses := 0, calib := some c }, keys := [0] }

def execDatumSyncCal (k : Kci) (role : SyncRole) (s : State) : Host.Outcome State Fault Refusal :=
  .next (kciRun 0x0211 k s (fun s => KRes.check s [k.denied] (fun _ => s.syncCal k role))
    (records := false) (conf := true) (key := 0))

/-- CAL_PULSE_EMIT: the leader's next pulse, on a reference edge, 4,104 cc after the last. -/
def execCalPulseEmit (cc : Nat) (s : State) : Host.Outcome State Fault Refusal :=
  let s := s.at cc
  .next (match s.dtm.calib with
    | some c =>
      if c.role = .leader && 0 < c.toEmit && c.nextAt ≤ s.now && s.onEdge then
        (s.setDtm { s.dtm with calib := some { c with toEmit := c.toEmit - 1, nextAt := s.now + 4104 } }).emit (.sync s.now)
      else s
    | none => s)

/-- SYNC_CAL_TIMEOUT: no pulse within 1 ms of acceptance, or fewer than 256 (log 49). -/
def execSyncCalTimeout (cc : Nat) (s : State) : Host.Outcome State Fault Refusal :=
  let s := s.at cc
  .next (match s.dtm.calib with
    | some c => if c.since + 1875000 ≤ s.now then s.calEnd c else s
    | none => s)

/-! ### The start barrier (R171, R174) -/

/-- DATUM_START. A barrier that another one replaces ends with TIMEOUT (log 49). STATE reads SYNC_LOST until the barrier sets RUNNING,
where the module was in it (R173). -/
def State.datumStart (s : State) (k : Kci) : KRes :=
  let prior := match s.dtm.start with
    | some a => a.prior
    | none => s.dtm.state
  let s := if s.dtm.start.isSome then s.progress 0x0212 0 .timeout else s
  let acc := s.acceptedAt k 0x0212
  let arm : StartArm := match s.dtm.role with
    | some .leader => ⟨acc, some (s.edgeFrom (acc + 1875000)), none, prior⟩
    | some .standalone => ⟨acc, none, some (s.edgeFrom (acc + 1200)), prior⟩
    | _ => ⟨acc, none, none, prior⟩
  { st := s.setDtm { s.dtm with start := some arm, state := if s.dtm.state = .syncLost then .syncLost else .armed }, keys := [0], cont := [padTo 32 0 (leBytes 2 (s.dtm.epoch + 1))] }

def execDatumStart (k : Kci) (s : State) : Host.Outcome State Fault Refusal :=
  .next (kciRun 0x0212 k s (fun s =>
    KRes.check s [k.denied, (s.dtm.role.isNone || (s.dtm.role ≠ some .standalone && !s.dtm.calOk), .syncFail),
        (s.bringupOn || s.datumBusy, .modeConflict)] (fun _ => s.datumStart k)))

/-- START_PULSE_EMIT: 1 ms after acceptance, on a reference edge. A module that is no leader any more drives no SYNC_OUT (R170). -/
def execStartPulseEmit (cc : Nat) (s : State) : Host.Outcome State Fault Refusal :=
  let s := s.at cc
  .next (match s.dtm.start with
    | some a => match a.emitAt with
      | some e => if s.dtm.role = some .leader && e ≤ s.now && s.onEdge then (s.setDtm { s.dtm with start := some { a with emitAt := none } }).emit (.sync s.now) else s
      | none => s
    | none => s)

/-- E of R171: the reference edge nearest A − PHASE; an exact half goes to the lower. -/
def edgeOf (a phase : Nat) : Int := 12 * (((a : Int) - phase + 5) / 12)

/-- A check pulse (R173). -/
def State.checkPulse (s : State) : State :=
  let c := s.timebase % 1048572
  let s := s.setDtm { s.dtm with lastSeen := s.now, missed := false }
  if s.dtm.phase ≤ c + 1 && c ≤ s.dtm.phase + 1 then s
  else (s.drift 15 s.datumParts).notify .syncSkew .ok none 0 (s.timebase % 12)

/-- SYNC_PULSE: a pulse on SYNC_IN is a calibration pulse while one is listened for, the start pulse while a barrier is armed,
otherwise a check pulse. A STANDALONE module ignores it. -/
def State.syncPulse (s : State) : State :=
  if s.dtm.role = some .standalone || s.dtm.role.isNone then s
  else match s.dtm.calib with
    | some c =>
      let c := { c with phases := c.phases ++ [s.timebase % 12] }
      if c.phases.length = 256 then s.calEnd c
      else s.setDtm { s.dtm with calib := some c, pulses := c.phases.length }
    | none =>
      match s.dtm.start with
      | some a =>
        if a.emitAt.isNone && a.zeroAt.isNone then
          s.setDtm { s.dtm with start := some { a with zeroAt := some (s.dtm.tbZero + (edgeOf s.timebase s.dtm.phase + 1200).toNat) } }
        else if s.dtm.valid then s.checkPulse else s
      | none => if s.dtm.valid then s.checkPulse else s

def execSyncPulse (cc : Nat) (s : State) : Host.Outcome State Fault Refusal := .next (s.at cc).syncPulse

/-- The refreshes that the new count would delay past their period are made in the cycle of the barrier (R164). -/
def State.refreshCatchUp (s : State) : State :=
  if !s.anyDatum then s
  else (s.stk.trained.flatMap (fun st => (List.range 64).map (64 * st + ·))).foldl (fun s q =>
    let o := 19 * (q % 384)
    if 7296 ≤ (s.timebase + 7296 - o) % 7296 + o then s.refresh q [] else s) s

/-- The key of a partition start. -/
def startKey (p v : Nat) : Nat := p + 64 * v

/-- TIMEBASE_ZERO: the count is 0 in the barrier's cycle; partition starts of the old epoch end with TIMEOUT (R174). -/
def State.timebaseZero (s : State) : State :=
  match s.dtm.start with
  | some a => match a.zeroAt with
    | some z =>
      if z ≤ s.now then
        let s := s.refreshCatchUp
        let old := s.dtm.startAt
        let s := s.setDtm { s.dtm with tbZero := z, valid := true, epoch := (s.dtm.epoch + 1) % 65536, state := .running, start := none,
                                       lastSeen := z, missed := false, startAt := [] }
        let s := old.foldl (fun s e => s.progress 0x0213 (startKey e.1 e.2) .timeout) s
        s.driftRecord.progress 0x0212 0
      else s
    | none => s
  | none => s

def execTimebaseZero (cc : Nat) (s : State) : Host.Outcome State Fault Refusal := .next (s.at cc).timebaseZero

/-- DATUM_START_TIMEOUT: no start pulse within 2 ms; the count and VALID stay. -/
def execDatumStartTimeout (cc : Nat) (s : State) : Host.Outcome State Fault Refusal :=
  let s := s.at cc
  .next (match s.dtm.start with
    | some a =>
      if a.zeroAt.isNone && a.since + 3750000 ≤ s.now then
        (s.setDtm { s.dtm with start := none, state := a.prior }).progress 0x0212 0 .timeout
      else s
    | none => s)

/-! ### Check pulses (R173) -/

def execCheckPulseEmit (cc : Nat) (s : State) : Host.Outcome State Fault Refusal :=
  let s := s.at cc
  .next (if s.dtm.role = some .leader && s.dtm.valid && s.timebase % 1048572 = 0 && s.dtm.lastEmit ≠ s.now then
    (s.setDtm { s.dtm with lastEmit := s.now }).emit (.sync s.now) else s)

/-- CHECK_PULSE_MISSING: no check pulse within 2^21 cc. One loss counts once; a barrier that is armed and times out leaves SYNC_LOST. -/
def execCheckPulseMissing (cc : Nat) (s : State) : Host.Outcome State Fault Refusal :=
  let s := s.at cc
  .next (if (s.dtm.role = some .leader || s.dtm.role = some .follower) && s.dtm.valid && !s.dtm.missed &&
      s.dtm.lastSeen + 2097152 ≤ s.now then
    ((s.setDtm { s.dtm with state := .syncLost, missed := true, start := s.dtm.start.map (fun a => { a with prior := .syncLost }) }).drift
      15 s.datumParts).notify .syncSkew .ok none 0 0
  else s)

/-! ### Partition starts and drift (R174 to R176, R179) -/

/-- DATUM_START_AT (R174): v is read in the epoch of the acceptance, so a barrier since then gives TIMEOUT. -/
def execDatumStartAt (k : Kci) (part v : Nat) (s : State) : Host.Outcome State Fault Refusal :=
  .next (kciRun 0x0213 k s (fun s =>
    KRes.check s [k.notOwn part, (!s.partExists part, .partInvalid), (!s.dtm.valid || s.pastEpoch k 0x0213 || s.dtm.tbZero + v < s.acceptedAt k 0x0213 + 64, .timeout)] (fun _ =>
      { st := s.setDtm { s.dtm with startAt := s.dtm.startAt ++ [(part, v)] }, keys := [startKey part v] })) (records := false))

/-- Starts strand 0 of every READY tile of a partition that START may act on. -/
def State.startPart (s : State) (p : Nat) : State :=
  ((s.grid.tiles.filter (fun e => e.2.part = some p && e.2.startable)).map (·.1)).foldl State.tileStart s

def execDatumStartAtFire (cc : Nat) (s : State) : Host.Outcome State Fault Refusal :=
  let s := s.at cc
  let due := s.dtm.startAt.filter (fun e => e.2 ≤ s.timebase)
  .next (due.foldl (fun s e => (s.startPart e.1).progress 0x0213 (startKey e.1 e.2))
    (s.setDtm { s.dtm with startAt := s.dtm.startAt.filter (fun e => s.timebase < e.2) }))

/-- DRIFT_SNAPSHOT: the 16 counters and 64 masks; a virtual function sees only its own mask. -/
def execDriftSnapshot (k : Kci) (s : State) : Host.Outcome State Fault Refusal :=
  .next (kciRun 0x0214 k s (fun s =>
    let only := match k.src with
      | .vf v => some (v - 1)
      | _ => none
    KRes.check s [(s.itinFull, .noResources)] (fun _ =>
      { st := s.driftEvent, result := s.dtm.drift.map wd ++ leWords 16 (s.maskBytes only) })) (records := false))

end Sys2Proof.Machine
end

