-- ==== Sys2Proof/Machine/Gaz.lean ====
section
/-! DEFINITION. The meanings of the Gazetteer rows (R258 to R273, R288, R289). -/

namespace Sys2Proof.Machine

/-! ### Requests (R264 to R271) -/

def gazFormat (f : Nat) : Bool := f ≤ 4 || f = 7 || f = 8

/-- Bytes of the reply payload (R269). -/
def State.gazReplyLen (s : State) (head : Word) (bags : List (Nat × Nat × Nat)) : Nat :=
  let n := (bags.map (fun b => match s.gazTable b.1 with
    | some t => if b.2.1 = 3 then b.2.2 * t.d.d else t.d.d
    | none => 0)).foldl (· + ·) 0
  ceilDiv (n * fmtBits (bits head 21 18)) 8 + (if bit head 22 then n / 32 else 0)

/-- The cases in which a whole request is refused (R266). -/
def State.gazBad (s : State) (part len : Nat) (user : List Word) (payload : List Byte) : Bool :=
  let h := nth user 0 0
  let bags := bits h 7 0
  let rows := bits h 17 8
  let w := bit h 24
  let table := bagTable bags payload
  let f := bits h 21 18
  let block := bit h 22
  bags = 0 || 64 < bags || rows = 0 || 1000 < rows || bits h 31 25 ≠ 0 || bits h 63 38 ≠ 0 || (user.drop 1).any (· ≠ 0) ||
    len ≠ ceilDiv (8 * ceilDiv bags 2 + rows * (if w then 8 else 4)) 64 ||
    (List.range bags).any (fun k => fld (ofLe ((payload.drop (4 * k)).take 4)) 15 14 ≠ 0) ||
    table.any (fun b => 1000 < b.2.2) || (table.map (·.2.2)).foldl (· + ·) 0 ≠ rows ||
    table.any (fun b => match s.gazTable b.1 with
      | some t => t.deleting || t.d.part ≠ part
      | none => true) ||
    !gazFormat f || (block && (f ≤ 2)) || (!block && (f = 7 || f = 8)) || (block && table.any (fun b => b.2.1 = 3)) ||
    (w && table.any (fun b => b.2.1 = 2)) || 4096 < s.gazReplyLen h table

/-- Sends a reply (R269, R272). -/
def State.gazSend (s : State) (src : GazFrom) (part id : Nat) (user payload : List Byte) : State :=
  match src with
  | .tile t h tag => s.toMesh (gatewayMsg 2 t h part tag user payload)
  | .host fn a =>
    (s.hostWrite fn a (padTo 56 0 user ++ padTo (64 * ceilDiv payload.length 64) 0 payload)).progress 0x0704 id
  | .cfl _ => s

/-- Refuses a request: a reply with GAZ_INVALID and no payload. -/
def State.gazRefuse (s : State) (src : GazFrom) (part id : Nat) : State :=
  (s.countGaz gazInvalids).gazSend src part id (leBytes 8 Status.gazInvalid.code) []

def gazMake (id die : Nat) (src : GazFrom) (part : Nat) (head : Word) (payload : List Byte) : GazReq :=
  let bags := bagTable (bits head 7 0) payload
  { id := id, die := die, src := src, part := part, head := head, bags := bags, rows := rowList bags (bit head 24) payload }

/-- A lookup of a tile of a die. -/
def MeshMsg.lookup (m : MeshMsg) (die : Nat) : Bool := !m.srcGw && m.destGw && m.dest = 2 && coord m.src / 256 = die

/-- The requests that come first at the gateways of a die are held (R270): each counts at most once. -/
def State.gazHold (s : State) (die : Nat) : State :=
  (List.range 16).foldl (fun s y =>
    let line := 16 * die + y
    match s.grid.mesh.find? (fun m => m.lookup die && tileLine (coord m.src) = line) with
    | some m => if s.gaz.noted.contains line then s else (s.setGaz { s.gaz with noted := s.gaz.noted ++ [line] }).gazWait die m.part
    | none => s) s

/-- A lookup request of a tile reaches the unit of its die, which judges it when it takes it (R266, R270). -/
def execGazRequest (die : Nat) (s : State) : Host.Outcome State Fault Refusal :=
  .next (match takeFirst (fun (m : MeshMsg) => m.lookup die) s.grid.mesh with
    | none => s
    | some (m, rest) =>
      let src := GazFrom.tile (coord m.src) (bits (nth m.header 1 0) 37 32) m.tag
      if 1024 ≤ s.gazInFlight die then s.gazHold die
      else
        let s := ({ s with grid := { s.grid with mesh := rest } } : State).setGaz { s.gaz with noted := s.gaz.noted.filter (· ≠ tileLine (coord m.src)) }
        if s.gazBad m.part m.len (m.header.drop 1) m.payload then s.gazRefuse src m.part 0
        else
        let id := s.gaz.next
        let s := s.setGaz { s.gaz with next := id + 1 }
        s.gazAccept (gazMake id die src m.part (nth m.header 1 0) m.payload))

/-- Row `row` of a request completes (R267). -/
def State.gazRow (s : State) (die id row : Nat) : State :=
  match s.gazReq die id with
  | none => s
  | some r =>
    match r.rows[row]?, s.gazRowDone r row with
    | some x, some (st, data, addr, s) =>
      if x.status.isSome then s
      else
        let s := if st = .uncorrectable then
            s.notify .rowUncorrectable .uncorrectable (some r.part) (put 11 0 x.table + put 63 32 x.index) addr.2 (.die die) addr.1
          else s
        let s := if st = .ok then s else s.countGaz gazRowFails
        let r := { r with rows := r.rows.set row { x with status := some st, data := data }, last := s.now }
        let s := s.setGazReq r
        match r.src with
        | .cfl run => s.cflRows r run
        | _ => s
    | _, _ => s

def execGazRowComplete (die id row : Nat) (s : State) : Host.Outcome State Fault Refusal := .next (s.gazRow die id row)

/-- USER bytes of a reply (R269). -/
def GazReq.replyUser (r : GazReq) : List Byte :=
  let bad := (List.range r.rows.length).filterMap (fun i =>
    let x := nth r.rows i ⟨0, 0, 0, 0, [], none⟩
    if x.status = some .ok then none else some (put 15 0 i + put 23 16 ((x.status.getD .ok).code) + put 31 24 x.bag))
  let st := if bad.isEmpty then Status.ok else Status.rowFault
  leBytes 8 (st.code + flag 8 (decide (12 < bad.length)) + put 31 16 bad.length + put 47 32 (r.rows.length - bad.length)) ++
    (padTo 12 0 (bad.take 12)).flatMap (leBytes 4)

/-- Elements of the reply, rounded (R268, R269), and the saturations. -/
def gazEncode (head : Word) (xs : List Exact) : List Byte × Nat :=
  let f := bits head 21 18
  let m : RMode := if bit head 23 then .rtz else .rne
  if bit head 22 then
    let bs := (pieces 32 (xs.length / 32) xs).map (fun b => encodeBlock f (b.map (fun _ => m)) b)
    (packElems (fmtBits f) (bs.flatMap (·.elems)) ++ bs.flatMap (fun b => leBytes 1 b.scale), (bs.map (·.ev.sat)).foldl (· + ·) 0)
  else
    let rs := xs.map (stage5 f m)
    (packElems (fmtBits f) (rs.map (·.1)), (rs.map (·.2.sat)).foldl (· + ·) 0)

/-- After its last row a request is pooled, rounded and answered: in a Datum partition 24 cc after the latest completion (R271). -/
def State.gazAnswer (s : State) (die id : Nat) : State :=
  match s.gazReq die id with
  | none => s
  | some r =>
    match r.src with
    | .cfl _ => s
    | src =>
      if !r.whole || (s.partDatum r.part && s.now < r.last + 24) then s
      else
        let (bytes, sat) := gazEncode r.head ((List.range r.bags.length).flatMap (s.bagOut r))
        ((s.countGaz gazSats sat).gazSend src r.part id r.replyUser bytes).gazEnd r

def execGazReply (die id : Nat) (s : State) : Host.Outcome State Fault Refusal := .next (s.gazAnswer die id)

/-! ### What a unit does of its own accord (R263, R270, R271) -/

/-- A held request that its unit takes now: it is judged, then refused or accepted. -/
def State.gazTakeHeld (s : State) (q : GazReq) : State :=
  match q.src with
  | .cfl run => s.cflPoolTaken q run
  | src => if s.gazBad q.part q.len [q.head] q.body then s.gazRefuse src q.part q.id else s.gazAccept q

/-- The first held request of a die is taken once the unit has room. -/
def State.gazAdmit (s : State) (die : Nat) : State :=
  if 1024 ≤ s.gazInFlight die then s
  else match takeFirst (fun x => x.die = die) s.gaz.held with
    | some (q, rest) => (s.setGaz { s.gaz with held := rest }).gazTakeHeld q
    | none => s

/-- The row reads of this cycle in the Datum partitions: one for each request, in order of acceptance, 64 for the unit. -/
def State.gazCycle (s : State) (die : Nat) : State :=
  ((s.gaz.reqs.filter (fun r => r.die = die && r.sent < r.rows.length)).take 64).foldl (fun s r =>
    match s.gazReq r.die r.id with
    | none => s
    | some r =>
      let (r, s) := s.gazIssue 1 r
      let s := s.setGazReq r
      match r.src with
      | .cfl run => s.cflRows r run
      | _ => s) s

/-- The four units in one core cycle. -/
def State.gazTick (s : State) : State := (List.range 4).foldl (fun s die => (s.gazAdmit die).gazCycle die) s

/-! ### Tables (R258, R263, R288) -/

/-- A table definition that R258 turns away. -/
def State.tableBad (s : State) (d : TableDef) : Bool :=
  let rows := d.pinRows + d.stkRows + d.farRows
  let pinEnd := d.pinOff + d.pinRows * d.rowBytes
  4096 ≤ d.id || 64 ≤ d.part || !gazFormat d.fmt || 2 ≤ d.block || (d.block = 1 && d.fmt ≤ 2) || (d.block = 0 && d.fmt = 7) ||
    d.d < 32 || 512 < d.d || d.d % 32 ≠ 0 || d.rowBytes < 32 || 2048 < d.rowBytes || d.rowBytes % 32 ≠ 0 ||
    d.rowBytes < d.d * fmtBits d.fmt / 8 + (if d.block = 1 then d.d / 32 else 0) ||
    4 ≤ d.pinDie || d.pinOff % 32 ≠ 0 || d.stkBase % 64 ≠ 0 || d.farBase % 64 ≠ 0 || 2 ≤ d.farPort ||
    (s.gazTable d.id).isSome || rows = 0 || 2 ^ 32 < rows || 16777216 < pinEnd ||
    (0 < d.pinRows && s.gaz.tables.any (fun e => e.2.d.pinDie = d.pinDie && 0 < e.2.d.pinRows && e.2.d.pinOff < pinEnd &&
      d.pinOff < e.2.d.pinOff + e.2.d.pinRows * e.2.d.rowBytes)) ||
    (0 < d.pinRows && (pinBanks d.pinDie d.pinOff (d.pinRows * d.rowBytes)).any (fun b => (s.bank b).degraded)) ||
    !s.viewCovers d.part (fun _ => true) (((s.stkRegions d.part).length) + 1) d.stkBase (d.stkRows * d.rowBytes) ||
    (0 < d.farRows && !s.farFind d.part d.farPort d.farBase (d.farRows * d.rowBytes))

/-- The ranges and the partition of a table as the continuations of its record (R289). -/
def tableCont (d : TableDef) : List (List Byte) :=
  [leBytes 8 d.pinRows ++ leBytes 8 d.pinDie ++ leBytes 8 d.pinOff ++ leBytes 8 d.stkRows,
   leBytes 8 d.stkBase ++ leBytes 8 d.farRows ++ leBytes 8 d.farPort ++ leBytes 8 d.farBase, padTo 32 0 (leBytes 8 d.part)]

def execGazTableDefine (k : Kci) (d : TableDef) (s : State) : Host.Outcome State Fault Refusal :=
  .next (kciRun 0x0701 k s (fun s =>
    KRes.check s [k.notOwn d.part, (s.tableBad d, .tableInvalid), (!s.partExists d.part, .partInvalid)]
      (fun _ => { st := (s.pinOn d.pinDie d.pinOff (d.pinRows * d.rowBytes)).setGaz { s.gaz with tables := s.gaz.tables.put d.id { d := d } }, cont := tableCont d })) (conf := true))

/-- A VF names only tables of its own partition (R288). -/
def State.gazGuard (s : State) (k : Kci) (t : Nat) : List (Bool × Status) :=
  match s.gazTable t with
  | some x => [k.notOwn x.d.part]
  | none => [((match k.src with
      | .vf _ => true
      | _ => false), .accessDenied), (true, .tableInvalid)]

def execGazTableDelete (k : Kci) (table : Nat) (s : State) : Host.Outcome State Fault Refusal :=
  .next (kciRun 0x0702 k s (fun s =>
    KRes.check s (s.gazGuard k table) (fun _ =>
      match s.gazTable table with
      | none => .fail s .tableInvalid
      | some x =>
        let s := s.unconfig (fun e => e.opcode = 0x0701 && (nth e.words 0 0).toNat = table)
        if x.deleting then .fail s .tableInvalid
        else if s.gaz.reqs.any (fun q => q.bags.any (fun b => b.1 = table)) then
          { st := s.setGaz { s.gaz with tables := s.gaz.tables.put table { x with deleting := true } }, keys := [table], cont := tableCont x.d }
        else { st := s.setGaz { s.gaz with tables := s.gaz.tables.del table }, cont := tableCont x.d })))

def execGazTableQuery (k : Kci) (table : Nat) (s : State) : Host.Outcome State Fault Refusal :=
  .next (kciRun 0x0703 k s (fun s =>
    KRes.check s (s.gazGuard k table) (fun _ =>
      match s.gazTable table with
      | none => .fail s .tableInvalid
      | some x =>
        let d := x.d
        { st := s, result := ([d.id, d.part, d.fmt, d.block, d.d, d.rowBytes, d.pinRows, d.pinDie, d.pinOff, d.stkRows, d.stkBase,
            d.farRows, d.farPort, d.farBase, (s.gaz.reqs.filter (fun q => q.bags.any (fun b => b.1 = table))).length]).map wd })) (records := false))

/-- GAZ_LOOKUP (R272): the body is USER word 0 and the payload. -/
def execGazLookup (k : Kci) (die body len reply : Nat) (s : State) : Host.Outcome State Fault Refusal :=
  .next (kciRun 0x0704 k s (fun s =>
    KRes.check s [(4 ≤ die || 64 < len, .badOperand)] (fun _ =>
      let f := k.src.fnIdx
      let head := nth (leWords 1 (s.hostRead f body 8)) 0 0
      let payload := s.hostRead f (body + 8) (64 * len)
      let part := k.acts.getD 64
      let id := s.gaz.next
      let s := s.setGaz { s.gaz with next := id + 1 }
      let q := gazMake id die (.host f reply) part head payload
      if s.gazFull die then
        { st := (s.setGaz { s.gaz with held := s.gaz.held ++ [{ q with len := len, body := payload }] }).gazWait die part, keys := [id] }
      else if s.gazBad part len [head] payload then { st := s.gazRefuse (.host f reply) part id }
      else { st := s.gazAccept q, keys := [id] }))
    (records := false) (dies := [die]))

/-- GAZ_LEGEND_CHECK: blocks per PATTERN, blocks that R280 would execute SPARSE, the first block that breaks R277 and its status. -/
def State.legendCheck (s : State) (part base rows cols thresh : Nat) : KRes :=
  let n := rows * cols
  let (seen, s) := (List.range n).foldl (fun (r : List (Except Status SparseBlk) × State) i =>
    let (b, s) := r.2.readBlock part base cols (i / cols) (i % cols)
    (r.1 ++ [b], s)) ([], s)
  let good := seen.filterMap (fun b => match b with
    | .ok x => some x
    | .error _ => none)
  let cnt := fun p => (good.filter (fun b => b.leg.pattern = p)).length
  let sp := (good.filter (fun b => b.leg.nnz ≠ 0 && b.sparse thresh false)).length
  let first := (List.range n).find? (fun i => match nth seen i (.error .ok) with
    | .error _ => true
    | .ok _ => false)
  let st := match first with
    | some i => (match nth seen i (.error .ok) with
      | .error st => st.code
      | .ok _ => 0)
    | none => 0
  { st := s, result := [wd (cnt 0), wd (cnt 1), wd (cnt 2), wd (cnt 3), wd sp, wd (first.getD n), wd st] }

def execGazLegendCheck (k : Kci) (base rowBlocks colBlocks threshold : Nat) (s : State) : Host.Outcome State Fault Refusal :=
  .next (kciRun 0x0705 k s (fun s =>
    match k.acts with
    | none => .fail s .partInvalid
    | some p =>
      KRes.check s [(!s.partExists p, .partInvalid),
          (rowBlocks = 0 || 64 < rowBlocks || colBlocks = 0 || 64 < colBlocks || base % 16 ≠ 0 || 32768 ≤ threshold, .badOperand)]
        (fun _ => s.legendCheck p base rowBlocks colBlocks threshold)) (records := false))

/-! ### Host writes to the tile registers (R289, R290) -/

/-- A host write to one of the two registers, recorded with the tile and the value. -/
def State.gazHostWrite (s : State) (t off : Nat) (v : Word) : State :=
  let part := (s.tile t).part
  (s.onTile t (fun x => x.writeReg off v)).itinEvent 0x000D part .ok (leBytes 8 (put 15 0 off + put 31 16 t) ++ leBytes 8 v.toNat)

def execGazSparseCtrlWrite (t : Nat) (value : Word) (s : State) : Host.Outcome State Fault Refusal := .next (s.gazHostWrite t 0x900 value)
def execGazPredThreshWrite (t : Nat) (value : Word) (s : State) : Host.Outcome State Fault Refusal := .next (s.gazHostWrite t 0x908 value)

end Sys2Proof.Machine
end

