-- ==== Sys2Proof/Machine/Endpoint.lean ====
section
/-! DEFINITION. The duties of the endpoint edges, and the reorder of Waypoint at the destination edge (R308 to R310, R338 to R340). -/

namespace Sys2Proof.Machine

/-! ### Source flows (R309) -/

/-- Flow entries in use on a die. -/
def State.flowsOn (s : State) (die : Nat) : Nat :=
  (s.fab.flows.filter (fun f => f.src < 1024 && lportDie f.src = die)).length

/-- Completes packets of a flow to the accelerator; the copy of a Sheet request, as the operation in flight. -/
def State.flowDone (s : State) (l : Nat) (st : Status) (ps : List FlowPkt) : State :=
  ps.foldl (fun s q =>
    if q.pkt.ulp = ulpSheet then (match s.sht.ops.find? (fun o => o.source = .accel l && o.dest = q.pkt.dest && q.keeps o) with
      | some o => s.shtEnd o st
      | none => s)
    else s.accelStatus l q.pkt st) s

/-- A flow fails (R309). -/
def State.flowFail (s : State) (f : SrcFlow) : State :=
  ((s.delFlow f).flowDone f.src .targetLost f.pkts).notify .flowFailed .targetLost (s.sub f.src).cfg.part (put 9 0 f.src + put 19 16 f.vc) f.dest
    (.region (lportRegion f.src)) (job := (f.pkts.head?.map (·.pkt.job)).getD 0)

/-- Packets of a flow that an acknowledgement of the destination edge is awaited for. -/
def SrcFlow.unacked (f : SrcFlow) : List FlowPkt := f.pkts.filter (fun q => q.op.isNone)

/-- Resends the unacknowledged packets of a flow in FSEQ order, as far as they are whole; a seventh resend of one would be due: the flow
fails. -/
def State.flowResend (s : State) (f : SrcFlow) : State :=
  if f.unacked.any (fun q => 6 ≤ q.resends) then s.flowFail f
  else
    let s := s.putFlow { f with timer := s.now, last := s.now,
                                pkts := f.pkts.map (fun q => if q.op.isNone then { q with resends := q.resends + 1 } else q) }
    (f.unacked.filter (fun q => !q.partly)).foldl (fun s q => (s.countSub f.src cntRetx).enterFabric { line := lportLine f.src, part := (s.sub f.src).cfg.part } q.pkt) s

def execE2eRtoExpiry (lport dest vc cc : Nat) (s : State) : Host.Outcome State Fault Refusal :=
  .next (let s := s.at cc
    match s.srcFlow lport dest vc with
    | some f => if !f.unacked.isEmpty && f.timer + 2 ^ (s.sub lport).cfg.rtoLog2 ≤ s.now then s.flowResend f else s
    | none => s)

/-- 35.0 µs after the last packet of a flow was acknowledged, its entry retires. -/
def execSourceFlowRetire (lport dest vc cc : Nat) (s : State) : Host.Outcome State Fault Refusal :=
  .next (let s := s.at cc
    match s.srcFlow lport dest vc with
    | some f => if f.pkts.isEmpty && f.last + 65625 ≤ s.now then s.delFlow f else s
    | none => s)

/-- a is at or before b, modulo 2^32. -/
def seqUpTo (a b : Nat) : Bool := (b + 2 ^ 32 - a % 2 ^ 32) % 2 ^ 32 < 2 ^ 31

/-- An acknowledgement or a NAK reaches the source edge: what it covers leaves the store; a NAK resends what is left (R309, R310). -/
def State.e2eTake (s : State) (l : Nat) (p : Packet) : State :=
  let w0 := p.word 0
  let nak := bit w0 52
  let cum := bits (p.word 1) 31 0
  let upTo := if nak then (cum + 2 ^ 32 - 1) % 2 ^ 32 else cum
  match s.srcFlow l (bits w0 47 0) (bits w0 51 48) with
  | none => s
  | some f =>
    let hit := fun (q : FlowPkt) => q.op.isNone && seqUpTo q.fseq upTo
    let done := f.pkts.filter hit
    let f := { f with pkts := f.pkts.filter (fun q => !hit q), timer := s.now, last := s.now }
    let s := (s.putFlow f).flowDone l .ok (done.filter (·.notify))
    if nak && !f.unacked.isEmpty then s.flowResend f else s

def execE2ePacketReceive (lport : Nat) (s : State) : Host.Outcome State Fault Refusal :=
  .next (match (s.sub lport).e2eIn with
    | p :: rest => (s.onSub lport (fun x => { x with e2eIn := rest })).e2eTake lport p
    | [] => s)

/-! ### The source edge (R308) -/

/-- The number that a flow's next packet takes; the entry is created at its first packet. -/
def State.flowNext (s : State) (l dest vc : Nat) : SrcFlow := (s.srcFlow l dest vc).getD { src := l, dest := dest, vc := vc, timer := s.now }

/-- The edge writes SRC, HOPS and FSEQ; a control packet has only HOPS. -/
def stamp (p : Packet) (src fseq : Nat) : Packet :=
  let p := { p with hops := 32 }
  if p.isData then (p.setField 0 47 0 src).setField 1 31 0 fseq else p

/-- A Sheet request of an accelerator as an operation (R385, R389). -/
def State.accelOp (s : State) (l : Nat) (p : Packet) : ShtOp :=
  let r := srec [p.word 4, p.word 5, p.word 6, p.word 7]
  let part := (s.sub l).cfg.part
  { id := 0, source := .accel l, die := lportDie l, part := part, member := r.member, words := r.words, data := p.payload,
    reqId := p.reqId, dest := memberHome (s.member_ r.member) r.off, cls := s.sht.classes.lookD (part.getD 64) 0, wire := 0 }

/-- A packet of an accelerator at the source edge; a stall leaves it at the head of the ingress. What has not arrived of it follows its
header (R344). A Sheet packet whose header names an
ADDRESS carries a PLP address (R387). -/
def State.edgeTake (s : State) (l : Nat) (p : Packet) : State :=
  let x := s.sub l
  let src := x.cfg.partnerGrid
  let e : Entry := { line := lportLine l, inPort := some l, part := x.cfg.part, credit := x.headCredits p, here := x.arriving.map (·.got + 1) }
  let pop := fun (s : State) => s.onSub l (fun x => { x with ingress := x.ingress.drop 1, stale := x.stale - 1 })
  if p.isData && p.ulp = ulpSheet then
    let o := s.accelOp l p
    match if p.addr ≠ 0 then .refuse .accessDenied else s.shtJudge o (.sub l) (decide (p.payload.length ≠ 64)) with
    | .refuse st => ((s.shtRefused o (.sub l) st (plp := p.addr ≠ 0)).shtReply o (complWord st false false false (srec o.words).reqId (srec o.words).job) none).ingressPop l
    | .wait => s.shtHold o
    | .take =>
      let isNew := (s.ownDie o).isNone && (s.srcFlow l o.dest o.cls).isNone
      if x.cfg.retxSize < s.storeUsed l + 128 || (isNew && 16384 ≤ s.flowsOn (lportDie l)) then s else (s.ingressPop l).shtAccept o
  else
    let raw := s
    let (p, s) := s.dequantise l p
    let multi := fld p.dest 47 40 = 0xFF
    let f := s.flowNext l p.dest p.vc
    let isNew := (s.srcFlow l p.dest p.vc).isNone
    let full := p.isData && isNew && 16384 ≤ s.flowsOn (lportDie l)
    let denied := p.isData && p.ulp = ulpPlp && !s.winPlp (.sub l) p.dest p.addr p.bytes p.job
    if denied then
      let s := (s.ingressPop l).countSht shtDenied
      if p.notify then s.accelStatus l p .accessDenied else s
    else if full then raw
    else if p.isData then
      let q := stamp p src f.next
      let keep := p.ulp = ulpPlp && !multi
      if keep && x.cfg.retxSize < s.storeUsed l + (64 + p.bytes) then raw
      else
        let kept : List FlowPkt := if keep then [{ fseq := f.next, pkt := q, notify := p.notify, partly := x.arriving.isSome }] else []
        let s := s.putFlow { f with next := (f.next + 1) % 2 ^ 32, last := s.now, timer := if f.pkts.isEmpty then s.now else f.timer,
                                    pkts := f.pkts ++ kept }
        let id := s.fab.next
        let s := (pop (if keep then s.storeWrite l q else s)).enterFabric e q
        match x.arriving with
        | none => s
        | some r => s.onSub l (fun y => { y with
            rx := some { r with edge := false, load := s.cameIn l id, copy := if keep then some (q.dest, q.vc, q.fseq) else none } })
    else (pop s).enterFabric e (stamp p src 0)

def execAccelPacketIngress (lport : Nat) (s : State) : Host.Outcome State Fault Refusal :=
  .next (let x := s.sub lport
    match x.ingress with
    | p :: _ => if x.cfg.mode ≠ .endpoint || x.state = .fenced || p.ulp = ulpColl then s else s.edgeTake lport p
    | [] => s)

/-! ### The destination edge (R310) and reorder (R338 to R340) -/

def RoCtx.is (c : RoCtx) (die src vc : Nat) : Bool := c.die = die && c.src = src && c.vc = vc

def State.roCtx (s : State) (die src vc : Nat) : Option RoCtx := s.fab.ctxs.find? (fun c => c.is die src vc)

def State.putCtx (s : State) (c : RoCtx) : State :=
  let l := if s.fab.ctxs.any (fun g => g.is c.die c.src c.vc) then s.fab.ctxs.map (fun g => if g.is c.die c.src c.vc then c else g)
    else s.fab.ctxs ++ [c]
  s.setFab { s.fab with ctxs := l }

/-- An E2E control packet to the flow's source. -/
def State.sendE2e (s : State) (c : RoCtx) (nak : Bool) (cum : Nat) : State :=
  s.enterFabric { line := lportLine c.lport, part := (s.sub c.lport).cfg.part }
    { isData := false, vc := 8, dest := c.src, ulp := ulpE2e, hops := 32, payload := [],
      flit := padTo 8 0 [wd (put 47 0 (s.sub c.lport).cfg.partnerGrid + put 51 48 c.vc + flag 52 nak), wd (put 31 0 cum)] }

/-- An acknowledgement of everything delivered in order. -/
def State.roAck (s : State) (c : RoCtx) : State :=
  (s.putCtx { c with unack := 0, firstUnack := none }).sendE2e c false ((c.next + 2 ^ 32 - 1) % 2 ^ 32)

/-- Delivers a packet to its accelerator: a completion of a Sheet operation in flight goes to the Sheet unit first (R394), a
Confluence block to the accelerator's node (R214). -/
def State.roDeliver (s : State) (l : Nat) (p : Packet) : State :=
  if p.ulp = ulpCfl then s.setFab { s.fab with inbox := s.fab.inbox ++ [((s.cflGate l p).1, (s.cflGate l p).2, p)] }
  else if s.sht.ops.any (fun o => o.source = .accel l && o.answered p) then
    s.setFab { s.fab with inbox := s.fab.inbox ++ [(16 * lportDie l, .sheet (lportDie l) 0, p)] }
  else s.toAccel l p (s.sub l).cfg.part

/-- One more packet of a context has been delivered in order. -/
def State.roCount (s : State) (c : RoCtx) (l : Nat) : RoCtx × State :=
  let c := { c with lport := l, next := (c.next + 1) % 2 ^ 32, last := s.now, unack := c.unack + 1,
                    firstUnack := some (c.firstUnack.getD s.now) }
  if 16 ≤ c.unack then ({ c with unack := 0, firstUnack := none }, s.roAck c) else (c, s.putCtx c)

/-- Delivers the held packets that have become next; fuel bounds the loop by the packets held. -/
def State.roDrain : Nat → State → RoCtx → RoCtx × State
  | 0, s, c => (c, s)
  | n + 1, s, c =>
    match c.held.find? (fun h => h.fseq = c.next) with
    | none => (c, s)
    | some h =>
      let s := (s.platFreeAll c.die poolReorder ((s.sub h.lport).cfg.part.getD 0) h.bufs).roDeliver h.lport h.pkt
      let (c, s) := s.roCount { c with held := c.held.filter (fun x => x.fseq ≠ h.fseq) } h.lport
      State.roDrain n s c

/-- After NEXT has advanced: what is held follows, the timer runs anew while something is held. -/
def State.roAdvance (s : State) (c : RoCtx) : State :=
  let (c, s) := State.roDrain c.held.length s c
  s.putCtx { c with timer := if c.held.isEmpty then none else some s.now }

/-- A duplicate: discarded, counted, acknowledged again. -/
def State.roDuplicate (s : State) (c : RoCtx) (l : Nat) : State := (s.drop l dropDuplicate).roAck { c with lport := l }

/-- A packet at its context (R338). -/
def State.roPacket (s : State) (c : RoCtx) (l : Nat) (p : Packet) : State :=
  let d := (p.fseq + 2 ^ 32 - c.next) % 2 ^ 32
  if d = 0 then
    let (c, s) := (s.roDeliver l p).roCount c l
    s.roAdvance c
  else if d < 4096 then
    if c.held.any (fun h => h.fseq = p.fseq) then s.roDuplicate c l
    else
      match State.platTakeN s c.die poolReorder { owner := (s.sub l).cfg.part.getD 0, part := (s.sub l).cfg.part } p.cells with
      | none => (s.putCtx c).countWpt wptDrop
      | some (bufs, s) => s.putCtx { c with held := c.held ++ [⟨p.fseq, l, p, bufs⟩], timer := some (c.timer.getD s.now) }
  else if 2 ^ 31 ≤ d then s.roDuplicate c l
  else (s.putCtx c).countWpt wptDrop

/-- A packet reaches the reorder of its die (R338, R339); at level 2 of the pool a partition above its reserve gets no new context (R454). -/
def State.roTake (s : State) (die l : Nat) (p : Packet) : State :=
  match s.roCtx die p.src p.vc with
  | some c => s.roPacket c l p
  | none =>
    let x := s.pool die poolReorder
    let part := (s.sub l).cfg.part.getD 0
    if p.fseq < 4096 && (s.fab.ctxs.filter (fun c => c.die = die)).length < 16384 && !(2 ≤ x.level && x.reserveOf part < x.usedOf part) then
      s.roPacket { die := die, src := p.src, vc := p.vc, lport := l, last := s.now } l p
    else s.countWpt wptDrop

/-- The first packet that waits for the reorder of a die and satisfies p reaches its context. -/
def State.roArrive (s : State) (die : Nat) (p : Packet → Bool) : State :=
  match takeFirst (fun (e : Nat × Nat) => e.1 = die && (match (s.load e.2).bind (·.pkt) with
      | some q => p q
      | none => true)) s.fab.toRo with
  | none => s
  | some ((_, id), rest) =>
    let s := s.setFab { s.fab with toRo := rest }
    match s.load id with
    | none => s
    | some x =>
      let s := s.copyDone id 0 .ok
      match x.pkt, x.outs with
      | some p, [.sub l] => s.roTake die l p
      | _, _ => s

def execReorderArrival (die : Nat) (s : State) : Host.Outcome State Fault Refusal := .next (s.roArrive die (fun _ => true))

/-- A packet that has arrived and fills the gap of a context is applied before the timer expires (R340). -/
def State.roFill (s : State) (c : RoCtx) : State := s.roArrive c.die (fun p => p.src = c.src && p.vc = c.vc && p.fseq = c.next)

/-- The lowest held FSEQ of a context, counted from NEXT. -/
def RoCtx.lowest (c : RoCtx) : Option RoHeld :=
  c.held.foldl (fun (b : Option RoHeld) h => match b with
    | none => some h
    | some x => if (h.fseq + 2 ^ 32 - c.next) % 2 ^ 32 < (x.fseq + 2 ^ 32 - c.next) % 2 ^ 32 then some h else b) none

def execReorderTimeout (die src vc cc : Nat) (s : State) : Host.Outcome State Fault Refusal :=
  .next (let s := s.at cc
    let s := (s.roCtx die src vc).elim s s.roFill
    match s.roCtx die src vc with
    | none => s
    | some c =>
      match c.timer, c.lowest with
      | some t, some h =>
        if s.now < t + s.fab.timeout then s
        else
          let part := (s.sub h.lport).cfg.part
          let s := (s.countWpt wptTimeout).drift 6 part.toList
          if h.pkt.ulp = ulpPlp || h.pkt.ulp = ulpSheet then
            (s.putCtx { c with timer := some s.now }).sendE2e { c with lport := h.lport } true c.next
          else
            let skipped := (h.fseq + 2 ^ 32 - c.next) % 2 ^ 32
            let s := (s.countWpt wptLoss skipped).notify .reorderLoss .ok part (put 1 0 die + put 11 8 vc) src (.die die)
            s.roAdvance { c with next := h.fseq, lport := h.lport }
      | _, _ => s)

def execReorderCtxRetire (die src vc cc : Nat) (s : State) : Host.Outcome State Fault Refusal :=
  .next (let s := s.at cc
    match s.roCtx die src vc with
    | some c => if c.held.isEmpty && c.last + 32768 ≤ s.now then s.setFab { s.fab with ctxs := s.fab.ctxs.filter (fun g => !g.is die src vc) } else s
    | none => s)

/-- 2,000 ns after the first unacknowledged delivery. -/
def execE2eAckTimer (die src vc cc : Nat) (s : State) : Host.Outcome State Fault Refusal :=
  .next (let s := s.at cc
    match s.roCtx die src vc with
    | some c => (match c.firstUnack with
      | some t => if 0 < c.unack && t + 3750 ≤ s.now then s.roAck c else s
      | none => s)
    | none => s)

end Sys2Proof.Machine
end

