-- ==== Sys2Proof/Machine/Meridian.lean ====
section
/-! DEFINITION. Meridian: instructions, events of the network, the debug window, the deadlock detector and the commands (R188 to R212). -/

namespace Sys2Proof.Machine

/-! ### Instructions (R188 to R190) -/

/-- The object a register names; bits [63:14] must be zero. -/
def objOf (w : Word) : Option Nat := if w.toNat < 2 ^ 14 then some w.toNat else none

/-- MSIGNAL (R188, R189). -/
def execMsignal (t : Nat) (ra : Reg) (imm : Imm) (s : State) : Host.Outcome State Fault Refusal :=
  .next (seqRun t s (fun x =>
    match objOf (x.reg ra) with
    | none => .fault s .illegalOp 0 0
    | some obj =>
      if 2 ≤ imm.toNat then .fault s .illegalOp 0 0
      else if 64 ≤ x.signals then .wait s .signalSlot
      else .next ((s.setTile t { x with signals := x.signals + 1 }).tileSignal t obj x.current .strand (imm.toNat = 1))))

/-- Sends a registration or a read of the current strand, which waits for the reply (R190). The timer of a timed wait runs from
the issue (R197). -/
def State.merIssue (s : State) (t : Nat) (x : Tile) (obj : Nat) (rd : Reg) (act : MerAct) (timeout : Option Nat) : SeqOut :=
  let reg := s.mer.next
  .wait (s.merSend { id := 0, obj := obj, act := act, src := .strand, tile := t, strand := x.current, part := x.part,
                     stamp := s.timebase, reg := reg })
    (.meridian obj rd.toNat reg s.now (timeout.map (s.now + ·)) false)

/-- MWAIT (R190). -/
def execMwait (t : Nat) (rd ra : Reg) (s : State) : Host.Outcome State Fault Refusal :=
  .next (seqRun t s (fun x =>
    match objOf (x.reg ra) with
    | none => .fault s .illegalOp 0 0
    | some obj => s.merIssue t x obj rd (.wait none) none))

/-- MWAITTO (R190, R197). -/
def execMwaitto (t : Nat) (rd ra : Reg) (imm : Imm) (s : State) : Host.Outcome State Fault Refusal :=
  .next (seqRun t s (fun x =>
    match objOf (x.reg ra) with
    | none => .fault s .illegalOp 0 0
    | some obj => s.merIssue t x obj rd (.wait (some (s.timebase + imm.toNat))) (some imm.toNat)))

/-- MREAD (R188, R190). -/
def execMread (t : Nat) (rd ra : Reg) (imm : Imm) (s : State) : Host.Outcome State Fault Refusal :=
  .next (seqRun t s (fun x =>
    match objOf (x.reg ra) with
    | none => .fault s .illegalOp 0 0
    | some obj =>
      if 3 ≤ imm.toNat then .fault s .illegalOp 0 0
      else s.merIssue t x obj rd (.read imm.toNat) none))

/-! ### The network -/

/-- MER_HOME_APPLY (R193): the home cell takes a transfer. One with a parity error is discarded and the sender repeats it: it
stays in flight (R182). -/
def execMerHomeApply (id : Nat) (parityOk : Bool) (s : State) : Host.Outcome State Fault Refusal :=
  .next (match s.mer.xfers.find? (fun x => x.id = id) with
    | some x => if parityOk && !s.merBlocked x then s.merApply x else s
    | none => s)

/-- MER_RELEASE (R166, R190, R202): a reply reaches its tile. -/
def execMerRelease (id cc : Nat) (s : State) : Host.Outcome State Fault Refusal :=
  let s := s.at cc
  .next (match s.mer.replies.find? (fun r => r.id = id) with
    | some r => if r.dead || r.arrived then s else s.merArrive r
    | none => s)

/-- MER_SAMPLE_POINT (R166, R199): the held replies of an object whose sample point has come, in release order. -/
def execMerSamplePoint (obj cc : Nat) (s : State) : Host.Outcome State Fault Refusal :=
  let s := s.at cc
  let due := s.mer.replies.filter (fun r => r.obj = obj && r.arrived && (match r.sample with
    | some c => decide (c ≤ s.timebase)
    | none => true))
  .next (due.foldl State.merDeliver s)

/-- MER_SIGNAL_ACK (R189): frees an entry; in a Datum partition not before c + 64. Strands that wait for an entry retry, and a
completed instruction whose signal was held takes the engine's entry and leaves its queue. -/
def State.merAck (s : State) (a : MerAck) : State :=
  if a.datum && s.timebase < a.stamp + 64 then s
  else
    let s := s.setMer { s.mer with acks := s.mer.acks.filter (fun b => b.id ≠ a.id) }
    let x := s.tile a.tile
    match a.engine with
    | none =>
      let strands := x.strands.map (fun e =>
        (e.1, if e.2.state = .waiting && e.2.wait = .signalSlot then { e.2 with state := .runnable, wait := .none } else e.2))
      s.setTile a.tile { x with signals := x.signals - 1, strands := strands }
    | some e =>
      let n := x.engSignals.lookD e 0 - 1
      let x := { x with engSignals := x.engSignals.put e n }
      match x.queue e with
      | q :: r =>
        if q.written && n < 64 then
          (s.setTile a.tile { x with queues := x.queues.put e r, engSignals := x.engSignals.put e (n + 1) }).tileSignal a.tile
            (bits (nth q.words 2 0) 23 10) 0 (.engine e) false
        else s.setTile a.tile x
      | [] => s.setTile a.tile x

def execMerSignalAck (id : Nat) (s : State) : Host.Outcome State Fault Refusal :=
  .next (match s.mer.acks.find? (fun a => a.id = id) with
    | some a => s.merAck a
    | none => s)

/-- MWAITTO_EXPIRY (R197): the timer of a timed wait has run out without a release; the tile sends a withdrawal, and the
strand stays WAITING. In a Datum partition the withdrawal is stamped w + T (R199). -/
def State.merExpire (s : State) (t n : Nat) : State :=
  let x := s.tile t
  let d := x.strand n
  match d.wait with
  | .meridian obj rd reg issued (some e) false =>
    if d.state = .waiting && e ≤ s.now && !s.mer.replies.any (fun r => r.reg = reg && r.arrived) then
      let s := s.setTile t (x.setStrand n { d with wait := .meridian obj rd reg issued (some e) true })
      s.merSend { id := 0, obj := obj, act := .withdraw reg false, src := .strand, tile := t, strand := n, part := x.part,
                  stamp := s.timebase - (s.now - e), reg := reg }
    else s
  | _ => s

def execMwaittoExpiry (t strand cc : Nat) (s : State) : Host.Outcome State Fault Refusal := .next ((s.at cc).merExpire t strand)

/-! ### The debug window (R206, R207) -/

/-- MER_DBG_CAPTURE: a write to MER_DBG_SEL of a function's window; VALID reads 0 until the capture completes. -/
def State.merCapture (s : State) (fn : Nat) (value : Word) : State :=
  let obj := bits value 13 0
  let d := s.mer.dbg.lookD fn {}
  (s.setFn fn { s.fn fn with merSel := obj }).setMer { s.mer with dbg := s.mer.dbg.put fn { d with valid := false, busy := some obj } }

def execMerDbgCapture (fn : Nat) (value : Word) (s : State) : Host.Outcome State Fault Refusal := .next (s.merCapture fn value)

/-- The capture of an object as a function may see it. -/
def State.merCaptured (s : State) (fn obj : Nat) : MerDbg :=
  match s.mer.objs.look obj with
  | some o =>
    if fn = 0 || o.part + 1 = fn then
      { state := o.stateWord, value := o.valueWord, last := o.last, waiters := padTo 32 0 (o.waiters.map MerWaiter.word), valid := true }
    else {}
  | none => if fn = 0 then { state := wd 4, valid := true } else {}

/-- MER_DBG_CAPTURE_DONE (R207). -/
def execMerDbgCaptureDone (fn : Nat) (s : State) : Host.Outcome State Fault Refusal :=
  .next (match (s.mer.dbg.lookD fn {}).busy with
    | some obj => s.setMer { s.mer with dbg := s.mer.dbg.put fn (s.merCaptured fn obj) }
    | none => s)

/-! ### The deadlock detector (R208 to R210) -/

/-- Every partition that exists. -/
def State.partList (s : State) : List Nat := (s.dtm.parts.keep (fun _ m => m.assigned)).keys

/-- The tiles of a partition. -/
def State.partTiles (s : State) (p : Nat) : List (Nat × Tile) := s.grid.tiles.filter (fun e => e.2.part = some p)

def Strand.onMeridian (d : Strand) : Bool :=
  d.state = .waiting && (match d.wait with
    | .meridian .. => true
    | _ => false)

/-- An engine of the tile is executing an instruction: one that it has begun, or the head of a queue of a RUNNING tile; a HALTED
tile holds the rest of its queues (R102). -/
def Tile.engineBusy (x : Tile) : Bool := x.inFlight.any (fun q => x.state = .running || q.ran || q.fetch.isSome)

/-- A partition is blocked in a cycle (R208). -/
def State.blocked (s : State) (p : Nat) : Bool :=
  let ts := s.partTiles p
  ts.any (fun e => e.2.strands.any (fun d => d.2.onMeridian)) &&
    ts.all (fun e => e.2.strands.all (fun d => d.2.state ≠ .running && d.2.state ≠ .runnable) && !e.2.engineBusy && !e.2.ringReady) &&
    !s.mer.xfers.any (fun x => x.part = some p || (match s.mer.objs.look x.obj with
      | some o => o.part = p
      | none => false)) &&
    !s.mer.replies.any (fun r => (s.tile r.tile).part = some p) &&
    !s.mer.acks.any (fun a => (s.tile a.tile).part = some p) &&
    !s.cmp.dmaq.any (fun e => e.2.part = some p && e.2.cur.isSome)

/-- Wait kinds of a snapshot (R210): Meridian object, scoreboard, program-boundary fence. -/
def Wait.kind : Wait → Nat × Nat
  | .meridian obj .. => (0, obj)
  | .fence _ true => (2, 0)
  | _ => (1, 0)

def dedup : List Nat → List Nat
  | [] => []
  | x :: xs => if xs.contains x then dedup xs else x :: dedup xs

/-- The snapshot of a partition (R210). -/
def State.dlSnapshot (s : State) (p : Nat) : DlSnap :=
  let ws := (s.partTiles p).flatMap (fun e =>
    (e.2.strands.filter (fun d => d.2.state = .waiting)).map (fun d => (e.1, d.1, d.2.wait.kind.1, d.2.wait.kind.2)))
  let os := dedup ((ws.filter (fun w => w.2.2.1 = 0)).map (fun w => w.2.2.2))
  let ow := os.map (fun o => match s.mer.objs.look o with
    | some x => (o, x.valueWord, x.stateWord, x.last)
    | none => (o, 0, 0, 0))
  ⟨ws.take 256, ow.take 64, ws.length, os.length⟩

/-- The detector looks at a partition (R209): an unblocked one ends its episode, and the first cycle in which it sees a blocked one
begins the window. -/
def State.blockSeen (s : State) (p : Nat) : State :=
  let m := s.mer
  if !s.blocked p then s.setMer { m with since := m.since.del p, dl := m.dl.filter (· ≠ p) }
  else if (m.since.look p).isNone then s.setMer { m with since := m.since.put p s.now }
  else s

/-- The detector watches every partition in every cycle of its own accord (R209). -/
def State.blockWatch (s : State) : State :=
  if s.mer.objs.isEmpty && s.mer.dl.isEmpty then s else s.partList.foldl State.blockSeen s

/-- DEADLOCK_DETECT (R209, log 37): a blocked partition is reported once, when it has been blocked for the window. -/
def State.deadlockDetect (s : State) (p : Nat) : State :=
  let s := s.blockSeen p
  let m := s.mer
  match m.since.look p with
    | none => s
    | some c =>
      let lastWait := ((s.partTiles p).flatMap (fun e => e.2.strands.map (fun d => match d.2.wait with
        | .meridian _ _ _ i _ _ => i
        | _ => 0))).foldl max 0
      if m.enabled && !m.dl.contains p && max c lastWait + 2 ^ m.window ≤ s.now then
        let snap := s.dlSnapshot p
        (s.setMer { m with dl := m.dl ++ [p], snaps := m.snaps.put p snap }).notifyRecorded .deadlock .ok (some p) p
          (put 31 0 snap.numStrands + put 63 32 snap.numObjects)
      else s

/-- Nothing has changed since the cycle in which the module stood: a partition that is blocked has been so since then. -/
def execDeadlockDetect (part cc : Nat) (s : State) : Host.Outcome State Fault Refusal :=
  .next (((s.blockSeen part).at cc).deadlockDetect part)

/-! ### Commands (R211) -/

/-- A value or TARGET lies in the range of the kind. -/
def merRange (kind : MerKind) (v : Nat) : Bool :=
  match kind with
  | .count => v < 2 ^ 32
  | .event => v ≤ 1
  | .barrier => 1 ≤ v && v ≤ 65535

def merNew (kind : MerKind) (part v : Nat) : MerObj :=
  match kind with
  | .barrier => ⟨kind, part, 0, v, 0, 0, []⟩
  | _ => ⟨kind, part, v, 0, 0, 0, []⟩

/-- A virtual function names only objects of its own partition (R211). -/
def State.merDenied (s : State) (k : Kci) (obj : Nat) : Bool :=
  match k.src with
  | .vf v => (match s.mer.objs.look obj with
      | some o => o.part + 1 ≠ v
      | none => true)
  | _ => false

def execMerAlloc (k : Kci) (obj part : Nat) (kind : MerKind) (value : Nat) (s : State) : Host.Outcome State Fault Refusal :=
  .next (kciRun 0x0A01 k s (fun s =>
    KRes.check s
      [(16384 ≤ obj || 64 ≤ part, .badOperand), k.notOwn part,
       ((s.mer.objs.look obj).isSome && s.merDenied k obj, .accessDenied), (!s.partExists part, .partInvalid),
       ((s.mer.objs.look obj).isSome || !merRange kind value, .objInvalid)]
      (fun _ => { st := s.setObj obj (merNew kind part value) })) (conf := true) (dies := [merDie obj]))

/-- Entries of the configuration record that name an object. -/
def merEntry (obj : Nat) (e : ConfigEntry) : Bool := (e.opcode = 0x0A01 || e.opcode = 0x0A03) && nth e.words 0 0 = wd obj

def execMerFree (k : Kci) (obj : Nat) (s : State) : Host.Outcome State Fault Refusal :=
  .next (kciRun 0x0A02 k s (fun s =>
    KRes.check s [(16384 ≤ obj, .badOperand), (s.merDenied k obj, .accessDenied)] (fun _ =>
      match s.mer.objs.look obj with
      | none => KRes.fail s .objInvalid
      | some o =>
        if o.waiters.isEmpty then { st := (s.setMer { s.mer with objs := s.mer.objs.del obj }).unconfig (merEntry obj) }
        else KRes.fail s .objBusy)) (dies := [merDie obj]))

def execMerSet (k : Kci) (obj value : Nat) (gen : Option Nat) (s : State) : Host.Outcome State Fault Refusal :=
  .next (kciRun 0x0A03 k s (fun s =>
    KRes.check s [(16384 ≤ obj || decide (2 ^ 32 ≤ gen.getD 0), .badOperand), (s.merDenied k obj, .accessDenied)] (fun _ =>
      match s.mer.objs.look obj with
      | none => KRes.fail s .objInvalid
      | some o =>
        if !o.waiters.isEmpty then KRes.fail s .objBusy
        else if !merRange o.kind value then KRes.fail s .objInvalid
        else { st := s.setObj obj (match o.kind with
            | .barrier => { o with value := 0, target := value, gen := gen.getD o.gen }
            | _ => { o with value := value }) })) (conf := true) (dies := [merDie obj]))

/-- MER_SIGNAL (R192, R211): completes when the home cell has applied it. -/
def execMerSignal (k : Kci) (obj : Nat) (clear : Bool) (s : State) : Host.Outcome State Fault Refusal :=
  .next (kciRun 0x0A04 k s (fun s =>
    KRes.check s [(16384 ≤ obj, .badOperand), (s.merDenied k obj, .accessDenied)] (fun _ =>
      { st := s.merSend { id := 0, obj := obj, act := .signal clear, src := .kci, tile := 0, strand := 0, part := none,
                          stamp := s.timebase, reg := 0 }, keys := [s.mer.next] })) (records := false) (dies := [merDie obj]))

/-- MER_READ (R211): the three words and the full waiter list. -/
def execMerRead (k : Kci) (obj : Nat) (s : State) : Host.Outcome State Fault Refusal :=
  .next (kciRun 0x0A05 k s (fun s =>
    KRes.check s [(16384 ≤ obj, .badOperand), (s.merDenied k obj, .accessDenied)] (fun _ =>
      match s.mer.objs.look obj with
      | none => { st := s, result := [0, wd 4, 0] }
      | some o => { st := s, result := [o.valueWord, o.stateWord, o.last] ++ o.waiters.map MerWaiter.word })) (records := false)
    (dies := [merDie obj]))

/-- MER_DL_CFG (R211, R212). -/
def execMerDlCfg (k : Kci) (window : Nat) (enable : Bool) (s : State) : Host.Outcome State Fault Refusal :=
  .next (kciRun 0x0A06 k s (fun s =>
    KRes.check s [k.denied, (window < 16 || 40 < window, .objInvalid)] (fun _ =>
      { st := s.setMer { s.mer with window := window, enabled := enable } })) (conf := true) (key := 0))

/-- The bytes of a snapshot (log 38). -/
def DlSnap.bytes (d : DlSnap) : List Byte :=
  wordBytes ([wd d.numStrands, wd d.numObjects] ++
    d.strands.map (fun e => wd (put 9 0 (coord e.1) + put 21 11 e.2.1 + put 25 24 e.2.2.1 + put 45 32 e.2.2.2)) ++
    d.objects.flatMap (fun e => [wd e.1, e.2.1, e.2.2.1, e.2.2.2]))

/-- MER_DL_SNAPSHOT (R210, R211). -/
def execMerDlSnapshot (k : Kci) (part dest : Nat) (s : State) : Host.Outcome State Fault Refusal :=
  .next (kciRun 0x0A07 k s (fun s =>
    KRes.check s [(64 ≤ part, .badOperand), k.notOwn part] (fun _ =>
      { st := s.putHost k dest ((s.mer.snaps.lookD part ⟨[], [], 0, 0⟩).bytes) })) (records := false))

end Sys2Proof.Machine
end

