-- ==== Sys2Proof/Machine/Queues.lean ====
section
/-! DEFINITION. The descriptor engine and the HOST service: data between host memory and the partitions (R463, R480, R481). -/

namespace Sys2Proof.Machine

/-! ### Turns (R480) -/

/-- The next ACTIVE queue after the one that had the last turn, in ascending number; a queue whose turn still has requests out has
no further one (log 43). -/
def State.dmaNext (s : State) : Option Nat :=
  let act := (s.cmp.dmaq.filter (fun e => e.2.state = .active && e.2.waits.isEmpty)).map (·.1)
  match act.find? (s.cmp.dmaTurn < ·) with
  | some q => some q
  | none => act.head?

/-- One turn of a queue: the descriptor at its head is taken up, and the requests for up to 4 KiB of it leave. -/
def State.dmaTurn (s : State) (q : Nat) : State :=
  let x := s.queue q
  let s := { s with cmp := { s.cmp with dmaTurn := q } }
  let part := x.part.getD 64
  let go := fun (s : State) (d : DmaDesc) =>
    let x := { x with cur := some d }
    ((s.setQueue q x).dmaSend q x d (d.dev + d.moved) (min 4096 (d.len - d.moved))).memReap
  match x.cur with
  | some d => go s d
  | none =>
    let ws := s.dmaWords x x.head
    let d := dmaDesc ws
    if !dmaFields ws then s.dmaEnd q d .badOperand
    else if !s.viewCovers part (fun _ => true) ((s.stkRegions part).length + 1) d.dev d.len then s.dmaEnd q d .addrRange
    else go s d

/-- DMAQ_DESCRIPTOR: a turn of queue q, where it is its turn. -/
def execDmaqDescriptor (q : Nat) (s : State) : Host.Outcome State Fault Refusal :=
  .next (if s.dmaNext = some q then ((s.queue q).part.toList.foldl State.stir s).dmaTurn q else s)

/-! ### The HOST service (R481) -/

/-- What makes the service discard a request: 0 a reserved field, 1 the address or length, 2 the function is not enabled, 3 it is
being reset or the host link is down. -/
def State.hostRefuses (s : State) (m : MeshMsg) : Option Nat :=
  let u := fun i => nth m.header (i + 1) 0
  let haddr := (u 0).toNat
  let n := bits (u 1) 12 0
  let f := s.fn (m.part + 1)
  if bits (u 1) 63 18 ≠ 0 || (List.range 5).any (fun i => u (2 + i) ≠ 0) then some 0
  else if haddr % 8 ≠ 0 || n < 8 || 4096 < n || n % 8 ≠ 0 || 64 * m.len < n || 2 ^ 64 < haddr + n then some 1
  else if !f.enabled || !f.busMaster then some 2
  else if f.inFlr || !s.cmp.linkUp then some 3
  else none

/-- A discarded request: counted, and the first in each second raises HOST_WRITE_DROPPED. -/
def State.hostDrop (s : State) (t part cause : Nat) : State :=
  let first := match s.cmp.lastHostDrop with
    | some c => decide (c + 1875000000 ≤ s.now)
    | none => true
  let s := { s with cmp := { s.cmp with hostDrops := satInc s.cmp.hostDrops } }.tally 0x150
  if first then
    { s with cmp := { s.cmp with lastHostDrop := some s.now } }.notify .hostWriteDropped .ok (some part) (coord t) cause
  else s

/-- HOST_WRITE_REQUEST: the oldest request of tile t that has reached the service. -/
def execHostWriteRequest (t : Nat) (s : State) : Host.Outcome State Fault Refusal :=
  .next (match takeFirst (fun (m : MeshMsg) => !m.srcGw && m.destGw && m.dest = 4 && coord m.src = t) s.grid.mesh with
    | none => s
    | some (m, rest) =>
      let s := { s with grid := { s.grid with mesh := rest } }
      match s.hostRefuses m with
      | some c => s.hostDrop t m.part c
      | none =>
        let u := fun i => nth m.header (i + 1) 0
        let s := s.hostWrite (m.part + 1) (u 0).toNat (m.payload.take (bits (u 1) 12 0))
        if bit (u 1) 13 then s.rawMsix (m.part + 1) (bits (u 1) 17 14) else s)

end Sys2Proof.Machine
end

