-- ==== Sys2Proof/Machine/Sheet.lean ====
section
/-! DEFINITION. Sheet: requests of tiles, combining, the home, completions, teardown and the commands (R381 to R402). -/

namespace Sys2Proof.Machine

/-! ### Elements (R393) -/

/-- The number format of a floating TYPE: FP32, BF16, FP64. -/
def typeFmt (type : Nat) : Option Nat :=
  match type with
  | 2 => some 0x0
  | 3 => some 0x1
  | 4 => some 0xD
  | _ => none

/-- ADD, MIN or MAX of two elements of TYPE. -/
def elemOp (op type m d : Nat) : Nat :=
  let w := 8 * typeBytes type
  match typeFmt type with
  | some f =>
    let x := decodeElem f m
    let y := decodeElem f d
    encodeElem f (if op = opAdd then roundIeee f .rne (x.add y) else if op = opMin then vmin x y else vmax x y)
  | none =>
    if op = opAdd then (m + d) % 2 ^ w
    else if op = opMin then (if signed w m ≤ signed w d then m else d)
    else if signed w m ≤ signed w d then d else m

def lineElem (line : List Byte) (off n : Nat) : Nat := ofLe ((line.drop off).take n)
def setElem (line : List Byte) (off n v : Nat) : List Byte := line.take off ++ leBytes n v ++ line.drop (off + n)

/-- The bytes that MASK selects, others zero. -/
def SRec.selected (r : SRec) (line : List Byte) : List Byte :=
  (List.range 64).map (fun i => if r.mask.testBit i then nth line i 0 else 0)

/-- Combines the operands of an atomic into a line, element by element. -/
def SRec.into (r : SRec) (data line : List Byte) : List Byte :=
  let n := typeBytes r.type
  r.elems.foldl (fun l e => setElem l e n (elemOp r.op r.type (lineElem l e n) (lineElem data e n))) line

/-- What an operation does to its line, and whether a CAS compared unequal. -/
def SRec.apply (r : SRec) (data line : List Byte) : List Byte × Bool :=
  if r.op = opLoad then (line, false)
  else if r.op = opStore then ((List.range 64).map (fun i => if r.mask.testBit i then nth data i 0 else nth line i 0), false)
  else if r.op = opCas then
    let n := typeBytes r.type
    (match r.elems with
      | e :: _ => if lineElem line e n = lineElem data e n then (setElem line e n (lineElem data (e + 32) n), false) else (line, true)
      | [] => (line, true))
  else (r.into data line, false)

/-! ### Requests of tiles (R385 to R391) -/

/-- A tile's request as an operation. -/
def State.tileOp (s : State) (t : Nat) (m : MeshMsg) : ShtOp :=
  let r := srec ((m.header.drop 1).take 4)
  { id := 0, source := .tile t, die := t / 256, part := some m.part, member := r.member, words := r.words, data := m.payload.take 64,
    tag := m.tag, dest := memberHome (s.member_ r.member) r.off, cls := s.sht.classes.lookD m.part 0, wire := 0 }

/-- LEN does not match OP, or word 3, which a tile writes as zero, is not. -/
def tileLenBad (m : MeshMsg) : Bool :=
  let r := srec ((m.header.drop 1).take 4)
  r.w3 ≠ 0 || m.len ≠ (if r.op = opLoad then 0 else 1)

def execSheetRequest (t : Nat) (s : State) : Host.Outcome State Fault Refusal :=
  .next (match takeFirst (fun (m : MeshMsg) => !m.srcGw && m.destGw && m.dest = 1 && coord m.src = t) s.grid.mesh with
    | none => s
    | some (m, rest) =>
      let o := s.tileOp t m
      let taken : State := { s with grid := { s.grid with mesh := rest } }
      match s.shtJudge o (.part m.part) (tileLenBad m) with
      | .refuse st =>
        (taken.shtRefused o (.part m.part) st).shtReply o (complWord st false false false (srec o.words).reqId (srec o.words).job) none
      | .wait => s.shtHold o
      | .take => taken.shtAccept o)

/-- A held release store: sent once every earlier operation of its source has completed, aborted if one failed (R391). -/
def execReleaseStoreSend (id : Nat) (s : State) : Host.Outcome State Fault Refusal :=
  .next (match s.sht.ops.find? (fun o => o.id = id && !o.sent && (srec o.words).release && o.after.isEmpty) with
    | none => s
    | some o => if o.spoiled then (s.shtEnd o .aborted).shtPump o.source else s.shtPump o.source)

/-! ### Combining (R396) -/

def pktRec (p : Packet) : SRec := srec [p.word 4, p.word 5, p.word 6, p.word 7]

/-- An unordered Sheet request whose cells all wait in a list of a sub-port, its HEAD not yet chosen. -/
def State.combinable (s : State) (l : Nat) (x : Load) : Bool :=
  !x.mcast && ((s.outQ (8 * lportPhys l + x.cls)).cells.filter (fun c => c.lport = l && c.load = x.id)).length = x.cells &&
    ((s.sub l).cur.map (·.load)) ≠ some x.id && (match x.pkt with
      | some p => p.isData && p.ulp = ulpSheet && (pktRec p).unord
      | none => false)

/-- Two requests match (R396). -/
def sameOp (p q : Packet) : Bool :=
  let a := pktRec p
  let b := pktRec q
  p.dest = q.dest && a.saddr = b.saddr && a.op = b.op && a.type = b.type && a.fetch = b.fetch && a.job = b.job

/-- The operand line of a merge: the union of the selections, both operands combined where both select. -/
def mergeData (p q : Packet) : List Byte :=
  let a := pktRec p
  let b := pktRec q
  let n := typeBytes a.type
  b.elems.foldl (fun l e =>
    setElem l e n (if a.elems.contains e then elemOp a.op a.type (lineElem p.payload e n) (lineElem q.payload e n) else lineElem q.payload e n)) p.payload

/-- A free combine record of a die: the next one, of 8,192, that is not in use. -/
def State.freeRecord (s : State) (die : Nat) : Option Nat :=
  let used := (s.sht.records.filter (fun r => r.die = die)).map (·.id)
  ((List.range (min 8192 (used.length + 1))).map (fun i => (s.sht.slots.lookD die 0 + i) % 8192)).find? (fun i => !used.contains i)

/-- A request that a Datum partition keeps out of combining: an FP ADD and every FETCH (R177, R396). -/
def State.combineBarred (s : State) (x : Load) : Bool :=
  x.part.any s.partDatum && (match x.pkt with
    | some q => (pktRec q).fetch || ((pktRec q).op = opAdd && (typeFmt (pktRec q).type).isSome)
    | none => false)

/-- The merged packet of a record of n parts: SRC of this device's entry on the die, the record's number, MERGED, PARTS, the union
of the masks. A packet that an earlier device merged is one part here (R397, log 29). -/
def State.mergedPacket (s : State) (die id n : Nat) (p q : Packet) : Packet :=
  let a := pktRec p
  let b := pktRec q
  let r := ((({ p with payload := mergeData p q }).setField 0 47 0 (s.selfHome die)).setField 1 47 32 (0x8000 + id)).setWord 5 (wd (a.mask ||| b.mask))
  (r.setField 7 33 33 1).setField 7 39 34 (n - 1)

/-- A request merges into the youngest match among the 64 unordered requests queued last before it. -/
def State.combine (s : State) (l id : Nat) : State :=
  match s.load id with
  | none => s
  | some x =>
    match x.pkt with
    | none => s
    | some q =>
      if !s.combinable l x || s.combineBarred x then s
      else
        let ids := (((s.outQ (8 * lportPhys l + x.cls)).cells.filter (fun c => c.lport = l)).map (·.load)).eraseDups
        let before := ((ids.takeWhile (· ≠ id)).filterMap s.load).filter (s.combinable l)
        let cands := (before.reverse.take 64).filter (fun y => match y.pkt with
          | some p => (pktRec p).parts < 64 && sameOp p q && !s.combineBarred y
          | none => false)
        match cands with
        | [] => s
        | y :: _ =>
          match y.pkt with
          | none => s
          | some p =>
            let die := lportDie l
            let old := s.sht.records.find? (fun c => c.die = die && c.load = y.id)
            let slot := match old with
              | some c => some c.id
              | none => s.freeRecord die
            match slot with
            | none => s
            | some i =>
              let recs := match old with
                | some _ => s.sht.records.map (fun c => if c.die = die && c.load = y.id then { c with parts := c.parts ++ [q] } else c)
                | none => s.sht.records ++ [{ die := die, id := i, load := y.id, parts := [p, q] }]
              let s := (s.setSht { s.sht with records := recs,
                                              slots := if old.isSome then s.sht.slots else s.sht.slots.put die ((i + 1) % 8192) }).countSht shtCombine
              let n := match old with
                | some c => c.parts.length + 1
                | none => 2
              let s := s.setLoad { y with cargo := .plp (s.mergedPacket die i n p q) }
              let s := s.takeCells (8 * lportPhys l + x.cls) (fun c => c.lport = l && c.load = id)
              s.copyDone id ((x.outs.idxOf? (OutTarget.sub l)).getD 0) .ok

def execSheetCombine (lport id : Nat) (s : State) : Host.Outcome State Fault Refusal := .next (s.combine lport id)

/-! ### The home (R383, R384, R390 to R395, R398, R399) -/

/-- Takes the first packet that has reached the Sheet entry of a die and satisfies p. -/
def State.shtInbox (s : State) (die : Nat) (p : Packet → Bool) : Option (Packet × State) :=
  (takeFirst (fun (e : Nat × LocalTarget × Packet) => (match e.2.1 with
    | .sheet d _ => d = die
    | _ => false) && p e.2.2) s.fab.inbox).map (fun r => (r.1.2.2, s.setFab { s.fab with inbox := r.2 }))

def State.homeQueue (s : State) (die : Nat) : List HomeOp := s.sht.queue.lookD die []
def State.setHomeQueue (s : State) (die : Nat) (l : List HomeOp) : State := s.setSht { s.sht with queue := s.sht.queue.put die l }

def State.homeFlow (s : State) (die src : Nat) : HomeFlow :=
  (s.sht.homes.find? (fun f => f.die = die && f.src = src)).getD { die := die, src := src }

def State.setHomeFlow (s : State) (f : HomeFlow) : State :=
  s.setSht { s.sht with homes := s.sht.homes.filter (fun g => !(g.die = f.die && g.src = f.src)) ++ [f] }

/-- Frees a cell of the SHEET pool; its owner is the exporting partition. -/
def State.homeFree (s : State) (die : Nat) (b : Option Nat) : State := s.platFreeAll die poolSheet s.sht.part b.toList

/-- Ordered operations that have become next join the queue; fuel bounds the loop by those held. -/
def homeDrain : Nat → HomeFlow → List HomeOp → HomeFlow × List HomeOp
  | 0, f, q => (f, q)
  | n + 1, f, q =>
    match f.early.find? (fun e => e.1 = f.next) with
    | none => (f, q)
    | some e => homeDrain n { f with next := (f.next + 1) % 2 ^ 32, early := f.early.filter (fun x => x.1 ≠ e.1), queued := f.queued ++ [e.2.id] } (q ++ [e.2])

/-- A completion on its way to the source of a request: on chip where the source is an entry of this device. -/
def State.homeReply (s : State) (die : Nat) (p : Packet) : State :=
  match (List.range 4).find? (fun d => s.sht.self.isSome && s.selfHome d = p.dest) with
  | some d => s.setFab { s.fab with inbox := s.fab.inbox ++ [(16 * d, .sheet d 0, p)] }
  | none => s.enterFabric { line := 16 * die, part := some s.sht.part } p

/-- The reply packet to a request, as it is sent from a SHEET entry (R394). -/
def State.homePacket (s : State) (me : Nat) (p : Packet) (w : Word) (data : List Byte) : Packet × State :=
  let (q, s) := s.serviceSeq me p.src p.vc
  (dataPacket p.vc p.src ulpCompletion me p.job q p.reqId 0 [w] data, s)

/-- The oldest request of a home is held no more. -/
def State.homeUnheld (s : State) (die : Nat) : State := s.setSht { s.sht with homeHeld := s.sht.homeHeld.filter (· ≠ die) }

/-- A request at its home die: in order, early, or a duplicate (R390, R395). -/
def State.homeTake (s : State) (die : Nat) (p : Packet) (buf : Nat) : State :=
  let r := pktRec p
  let op : HomeOp := { id := s.sht.nextHome, pkt := p, buf := some buf }
  let s := (s.setSht { s.sht with nextHome := s.sht.nextHome + 1 }).homeUnheld die
  if r.unord then s.setHomeQueue die (s.homeQueue die ++ [op])
  else
    let f := s.homeFlow die p.src
    let old := f.done.filter (fun e => (r.cack + 2 ^ 32 - e.1) % 2 ^ 32 ≠ 0 && (r.cack + 2 ^ 32 - e.1) % 2 ^ 32 < 2 ^ 31)
    let s := old.foldl (fun s e => s.homeFree die e.2.2) s
    let f := { f with done := f.done.filter (fun e => !old.contains e) }
    let d := (p.fseq + 2 ^ 32 - f.next) % 2 ^ 32
    if d = 0 then
      let f := { f with next := (f.next + 1) % 2 ^ 32, queued := f.queued ++ [op.id] }
      let (f, q) := homeDrain f.early.length f (s.homeQueue die ++ [op])
      (s.setHomeFlow f).setHomeQueue die q
    else if d ≤ 256 then
      if f.early.any (fun e => e.1 = p.fseq) then (s.setHomeFlow f).homeFree die op.buf
      else s.setHomeFlow { f with early := f.early ++ [(p.fseq, op)] }
    else
      let s := (s.setHomeFlow f).homeFree die op.buf
      match f.done.find? (fun e => e.1 = p.fseq) with
      | some e => s.homeReply die e.2.1
      | none => s

/-- A request that a level of the SHEET pool keeps at its gateway row counts once (R398, R455). -/
def State.homeHold (s : State) (die : Nat) : State :=
  if s.sht.homeHeld.contains die || (s.pool die poolSheet).faulted then s
  else
    let s := s.setSht { s.sht with homeHeld := s.sht.homeHeld ++ [die] }
    ({ s with plt := { s.plt with holds := satInc s.plt.holds } }.tally 0x19048).drift 12 [s.sht.part]

def execSheetHomeReceive (die : Nat) (s : State) : Host.Outcome State Fault Refusal :=
  .next (match s.shtInbox die (fun p => !(p.isData && p.ulp = ulpCompletion)) with
    | none => s
    | some (p, t) =>
      if !p.isData || p.ulp ≠ ulpSheet || t.sht.dead.contains (pktRec p).job then t.homeUnheld die
      else if !s.homeTakes die then s.homeHold die
      else match t.platTake die poolSheet { owner := t.sht.part, part := some t.sht.part } with
        | some (i, t) => t.homeTake die p i
        | none => s)

/-- An operation may be applied: no earlier one waits for its line, nor one of its flow that comes before it. -/
def State.homeFirst (s : State) (die : Nat) (o : HomeOp) : Bool :=
  let r := pktRec o.pkt
  let before := (s.homeQueue die).takeWhile (fun x => x.id ≠ o.id)
  before.all (fun x => (pktRec x.pkt).off ≠ r.off) && (r.unord || (s.homeFlow die o.pkt.src).queued.head? = some o.id)

/-- What an operation finds at its home on a die: a line there, as its pseudo-channel, block and offset; or the status it ends with. -/
def State.lineOf (s : State) (die : Nat) (p : Packet) : Except Status (Nat × Nat × Nat) :=
  let r := pktRec p
  if homeDie r.off ≠ die then .error .msgInvalid
  else if s.sht.size < r.off + 64 then .error .addrRange
  else match s.stkFind s.sht.part (s.sht.base + r.off) 64 with
    | some g => (match g.place (s.sht.base + r.off) with
      | .stk q b off => .ok (q, b, off)
      | _ => .error .addrRange)
    | none => .error .addrRange

/-- The adder slot of a line. -/
def State.lineSlot (s : State) (q b off : Nat) : Option AdderLine :=
  (s.stk.adders.lookD (pchController q) []).find? (fun x => x.addr = cellAddr q b off)

/-- An operation that needs no line, or whose line is in its slot or could not be brought there. -/
def State.lineReady (s : State) (die : Nat) (p : Packet) : Bool :=
  match s.lineOf die p with
  | .ok (q, b, off) => (s.lineSlot q b off).any (·.got.isSome)
  | .error _ => true

/-- The line operation itself, in the slot of its line: status, the data line to return, CAS_FAIL (R383, R384, R393, R394, R415). Every
path sees the new value at once. A line that could not be brought gives its slot back, and the operation ends. -/
def State.lineApply (s : State) (die : Nat) (p : Packet) : Status × List Byte × Bool × State :=
  let r := pktRec p
  let none_ := List.replicate 64 (0 : Byte)
  match s.lineOf die p with
  | .error st => (st, none_, false, s)
  | .ok (q, b, off) =>
    let c := cellAddr q b off
    if (s.lineSlot q b off).any (fun x => x.got = some .ok) then
      let line := s.stk.mem.readN c 64
      let (new, casFail) := r.apply p.payload line
      let s := if r.op = opLoad || casFail then s else { s with stk := s.stk.store q b off new }
      (.ok, if r.returns then r.selected line else none_, casFail, s.lineTouch (pchController q) c)
    else (.uncorrectable, none_, false, (s.lineDrop (pchController q) c).notify .sheetUncorrectable .uncorrectable (some s.sht.part) r.off 0
      (.die die) (s.sht.base + r.off) (job := r.job))

/-- One line operation and its completion. -/
def State.homeApply (s : State) (die : Nat) (o : HomeOp) : State :=
  let p := o.pkt
  let r := pktRec p
  let mark := decide (s.sht.mark ≤ (s.homeQueue die).length - 1)
  let s := s.setHomeQueue die ((s.homeQueue die).filter (fun x => x.id ≠ o.id))
  let s := if mark then s.countSht shtMark else s
  let (st, data, casFail, s) := s.lineApply die p
  let past := s.sht.lines.lookD r.off []
  let inter := s.partDatum s.sht.part && past.any (· ≠ p.src) && st = .ok
  let s := if st = .ok then s.setSht { s.sht with lines := s.sht.lines.put r.off ((p.src :: past).take 64) } else s
  let (reply, s) := s.homePacket p.dest p (complWord st mark inter casFail r.reqId r.job) data
  let s := if r.unord then s.homeFree die o.buf
    else
      let f := s.homeFlow die p.src
      s.setHomeFlow { f with queued := f.queued.filter (· ≠ o.id), done := f.done ++ [(p.fseq, reply, o.buf)] }
  s.homeReply die reply

/-- SHEET_LINE_APPLY: the operation is applied where its line is in a slot; where it is not, the line is brought (R415, log 43). -/
def State.sheetLineApply (s : State) (die id : Nat) : State :=
  match (s.homeQueue die).find? (fun o => o.id = id) with
  | some o =>
    if !s.homeFirst die o then s
    else if s.lineReady die o.pkt then s.homeApply die o
    else (match s.lineOf die o.pkt with
      | .ok (q, b, off) => s.lineBring die (pchController q) (cellAddr q b off)
      | .error _ => s)
  | none => s

def execSheetLineApply (die id : Nat) (s : State) : Host.Outcome State Fault Refusal := .next (s.sheetLineApply die id)

/-! ### Completions (R394, R397) -/

/-- Sends the part of a combine record its own completion. -/
def State.partReply (s : State) (die : Nat) (q : Packet) (w : Word) (data : List Byte) : State :=
  let r := pktRec q
  let word := wd (w.toNat % 2 ^ 16 + put 31 16 r.reqId + put 47 32 r.job)
  let (p, s) := s.homePacket (s.selfHome die) q word data
  s.homeReply die p

/-- Fans a completion out to the parts of a record: each finds the prior value that the parts before it would have left. -/
def State.fanOut (s : State) (c : Combine) (w : Word) (data : List Byte) : State :=
  let s := s.setSht { s.sht with records := s.sht.records.filter (fun x => !(x.die = c.die && x.id = c.id)) }
  (c.parts.foldl (fun (e : List Byte × State) q =>
    let r := pktRec q
    let out := if r.fetch && bits w 7 0 = 0 then r.selected e.1 else List.replicate 64 0
    (r.into q.payload e.1, e.2.partReply c.die q w out)) (data, s)).2

/-- A packet is the answer to the merged packet of a record, which carries the REQ_ID and JOB_TAG of its first part. -/
def Combine.answered (c : Combine) (p : Packet) : Bool :=
  0x8000 + c.id = p.reqId && c.parts.head?.any (fun q => bits (p.word 4) 31 16 = (pktRec q).reqId && bits (p.word 4) 47 32 = (pktRec q).job)

def execSheetCompletionReceive (die : Nat) (s : State) : Host.Outcome State Fault Refusal :=
  .next (match s.shtInbox die (fun p => p.isData && p.ulp = ulpCompletion) with
    | none => s
    | some (p, s) =>
      match s.sht.records.find? (fun c => c.die = die && c.answered p) with
      | some c => s.fanOut c (p.word 4) (padTo 64 0 p.payload)
      | none =>
        match s.sht.ops.find? (fun o => o.die = die && o.answered p) with
        | some o => s.shtComplete o p
        | none => s)

/-! ### Timers (R395) -/

/-- The timer of an operation, or of the merged packet of a combine record, the record i of die d at 2^32 + 8192 d + i. -/
def execSheetRtoExpiry (id cc : Nat) (s : State) : Host.Outcome State Fault Refusal :=
  .next (let s := s.at cc
    match s.sht.ops.find? (fun o => o.id = id && o.sent && o.sentAt + 2 ^ s.sht.rto ≤ s.now) with
    | some o =>
      if !(srec o.words).ordered then s.shtEnd o .timeout
      else if 6 ≤ o.resends then s.shtLose o.member
      else
        let o := { o with resends := o.resends + 1, sentAt := s.now }
        let s := s.setSht { s.sht with ops := s.sht.ops.map (fun x => if x.id = o.id then o else x) }
        let s := (s.countSht shtRetx).shtEmit o
        if s.fab.lostDue then s.tellLost else s
    | none =>
      match s.sht.records.find? (fun c => 2 ^ 32 + 8192 * c.die + c.id = id && (match c.sentAt with
        | some t => t + 2 ^ s.sht.rto ≤ s.now
        | none => false)) with
      | some c => s.fanOut c (wd Status.timeout.code) []
      | none => s)

/-! ### Teardown (R401) -/

/-- Tears a job tag down; the operations ended at the device as a sender. -/
def State.shtTeardown (s : State) (job : Nat) : Nat × State :=
  let mine := s.sht.ops.filter (fun o => (srec o.words).job = job)
  let s := mine.foldl (fun s o => s.shtEnd o .aborted) s
  let recs := s.sht.records.filter (fun c => match c.parts with
    | p :: _ => (pktRec p).job = job
    | [] => false)
  let s := recs.foldl (fun s c => s.fanOut c (wd Status.aborted.code) []) s
  let s := (List.range 4).foldl (fun s d =>
    let hit := fun (o : HomeOp) => decide ((pktRec o.pkt).job = job)
    let early := (s.sht.homes.filter (fun f => f.die = d)).flatMap (fun f => (f.early.map (·.2)).filter hit)
    let gone := (s.homeQueue d).filter hit ++ early
    let s := gone.foldl (fun s o => s.homeFree d o.buf) (s.setHomeQueue d ((s.homeQueue d).filter (fun o => !hit o)))
    s.setSht { s.sht with homes := s.sht.homes.map (fun f => if f.die = d then
      { f with early := f.early.filter (fun e => !hit e.2), queued := f.queued.filter (fun i => !gone.any (fun o => o.id = i)) } else f) }) s
  let s := s.setSht { s.sht with
    windows := s.sht.windows.map (fun (e : Nat × Window) => if e.2.valid && !e.2.anyJob && e.2.jobTag = job then (e.1, { e.2 with valid := false }) else e),
    dead := if s.sht.dead.contains job then s.sht.dead else s.sht.dead ++ [job] }
  let s := s.shtPumpAll mine
  (mine.length + ((recs.map (fun c => c.parts.length)).foldl (· + ·) 0), s)

def execShtJobTeardown (k : Kci) (job : Nat) (s : State) : Host.Outcome State Fault Refusal :=
  .next (kciRun 0x0804 k s (fun s =>
    KRes.check s [k.denied, (65536 ≤ job, .badOperand)] (fun _ => { st := (s.shtTeardown job).2 })))

/-! ### Commands (R402) -/

/-- SHT_SHEET_SET: a HOME_P of SELF that does not name a SHEET entry is refused. -/
def execShtSheetSet (k : Kci) (members : List SheetMember) (self : Option Nat) (classes : List Nat) (rtoLog2 homeMark : Nat) (s : State) :
    Host.Outcome State Fault Refusal :=
  .next (kciRun 0x0801 k s (fun s =>
    let own := match self with
      | some m => (match nth members m .none with
        | .pq _ hp => hp
        | _ => [])
      | none => []
    let bad := own.any (fun p => match s.fab.table.lookD p .none with
      | .sheet .. => false
      | _ => true)
    KRes.check s [k.denied,
        (members.length ≠ 16 || 16 ≤ self.getD 0 || classes.length ≠ 64 || classes.any (8 ≤ ·) || rtoLog2 < 15 || 31 < rtoLog2 || 8192 ≤ homeMark,
          .badOperand), (bad, .routeInvalid)]
      (fun _ => { st := s.setSht { s.sht with members := members, self := self, rto := rtoLog2, mark := homeMark, lost := [],
                                              classes := ((List.range 64).zip classes).foldl (fun (m : SMap Nat) e => m.put e.1 e.2) [] } }))
    (conf := true) (key := 0))

def execShtExport (k : Kci) (part base size : Nat) (s : State) : Host.Outcome State Fault Refusal :=
  .next (kciRun 0x0802 k s (fun s =>
    let inside := s.viewCovers part (·.global) ((s.stkRegions part).length + 1) base size
    KRes.check s [k.denied, (!s.partExists part, .partInvalid), (size % 64 ≠ 0, .badOperand), (!inside, .addrRange)]
      (fun _ => { st := s.setSht { s.sht with part := part, base := base, size := size } })) (conf := true) (key := 0))

/-- A window entry from its four words; none where a reserved bit is set or a Sheet range is no multiple of 64. -/
def windowOf (ws : List Word) : Option Window :=
  let w := fun i => nth ws i 0
  if bits (w 0) 15 10 ≠ 0 || bits (w 0) 63 32 ≠ 0 || bits (w 3) 63 48 ≠ 0 || (!bit (w 0) 1 && ((w 1).toNat % 64 ≠ 0 || (w 2).toNat % 64 ≠ 0)) then none
  else some ⟨bit (w 0) 0, bit (w 0) 1, bit (w 0) 2, bit (w 0) 3, bit (w 0) 4, bit (w 0) 5, bits (w 0) 9 6, bits (w 0) 31 16,
    (w 1).toNat, (w 2).toNat, bits (w 3) 47 0⟩

/-- The 32 bytes of a window entry. -/
def windowBytes (w : Window) : List Byte :=
  leBytes 8 (flag 0 w.valid + flag 1 w.plp + flag 2 w.load + flag 3 w.store + flag 4 w.atomic + flag 5 w.anyJob + put 9 6 w.member + put 31 16 w.jobTag) ++
    leBytes 8 w.base ++ leBytes 8 w.size ++ leBytes 8 w.dest

/-- The partition that owns a table; none where there is no such table. -/
def State.winPart (s : State) : WinOwner → Option Nat
  | .part p => if s.partExists p then some p else none
  | .sub l => if s.subExists l && (s.sub l).cfg.mode = .endpoint then (s.sub l).cfg.part else none

/-- The region whose surveyor a command on a table goes through: a sub-port's (R28). -/
def winRegions : WinOwner → List Nat
  | .part _ => []
  | .sub l => [lportRegion l]

def State.windowSet (s : State) (k : Kci) (o : WinOwner) (first addr count : Nat) : KRes :=
  let ws := leWords (4 * count) (s.hostRead k.src.fnIdx addr (32 * count))
  let es := (List.range count).map (fun i => windowOf ((ws.drop (4 * i)).take 4))
  let m := ((List.range count).zip es).foldl (fun (m : SMap Window) e => match e.2 with
    | some x => m.put (winKey o + first + e.1) x
    | none => m) s.sht.windows
  let table := (List.range 64).flatMap (fun i => ((m.look (winKey o + i)).map windowBytes).getD (List.replicate 32 0))
  KRes.check s [(es.any Option.isNone, .badOperand)] (fun _ => { st := s.setSht { s.sht with windows := m }, cont := digestBlocks (shake256 table) })

def execShtWindowSet (k : Kci) (owner : WinOwner) (first addr count : Nat) (s : State) : Host.Outcome State Fault Refusal :=
  .next (kciRun 0x0803 k s (fun s =>
    let other := match s.winPart owner, k.acts with
      | some p, some q => p ≠ q
      | none, _ => true
      | _, none => false
    KRes.check s [k.denied, (other, .accessDenied), (count = 0 || 64 < first + count, .badOperand)] (fun _ => s.windowSet k owner first addr count))
    (conf := true) (key := 3) (regions := winRegions owner))

/-- Operations in flight per flow, as the number of flows and (source, home entry, count) of each; lost members; the counters. -/
def execShtStatus (k : Kci) (owner : WinOwner) (s : State) : Host.Outcome State Fault Refusal :=
  .next (kciRun 0x0805 k s (fun s =>
    let own := match k.src, owner with
      | .vf v, .part p => decide (p = v - 1)
      | .vf _, .sub _ => false
      | _, _ => true
    let none_ := match owner with
      | .part p => (!s.partExists p, Status.partInvalid)
      | .sub l => (!s.subExists l, Status.badOperand)
    KRes.check s [(!own, .accessDenied), none_] (fun _ =>
      let ops := s.sht.ops.filter (fun o => match owner with
        | .part p => o.part = some p
        | .sub l => o.source = .accel l)
      let flows := (ops.map (fun o => (s.shtSrc o, o.dest))).eraseDups
      let lost := ((List.range 16).map (fun m => flag m (s.sht.lost.contains m))).foldl (· + ·) 0
      { st := s, result := ([flows.length] ++ flows.flatMap (fun f => [f.1, f.2, (ops.filter (fun o => s.shtSrc o = f.1 && o.dest = f.2)).length]) ++
          [lost] ++ s.sht.counts).map wd })) (records := false) (regions := winRegions owner))

end Sys2Proof.Machine
end

