-- ==== Sys2Proof/Machine/TileLoad.lean ====
section
/-! DEFINITION. Loading and reading instruction banks and scratchpads (R151 to R154). -/

namespace Sys2Proof.Machine

/-- Reads a command's bytes: host memory of its function, or its partition's device-memory view (R154). -/
def State.dataRead (s : State) (k : Kci) (src : DataAt) (n : Nat) : Status × List Byte × State :=
  match src with
  | .host a => (.ok, s.hostRead k.src.fnIdx a n, s)
  | .device a => match k.acts with
    | some p => s.viewRead p a n
    | none => (.partInvalid, [], s)

/-- Writes a command's bytes to one of the two places. -/
def State.dataWrite (s : State) (k : Kci) (dest : DataAt) (bs : List Byte) : Status × State :=
  match dest with
  | .host a => (.ok, s.putHost k a bs)
  | .device a => match k.acts with
    | some p => s.viewWrite p a bs
    | none => (.partInvalid, s)

/-- The n instruction words of a bank from a word index on. -/
def Tile.imemWords (x : Tile) (bank first n : Nat) : List Word :=
  (List.range n).map (fun i => x.imem.lookD (8192 * bank + first + i) 0)

/-- The bytes of a bank from a byte offset on. -/
def Tile.imemBytes (x : Tile) (bank offset n : Nat) : List Byte :=
  ((wordBytes (x.imemWords bank (offset / 8) (ceilDiv (offset % 8 + n) 8))).drop (offset % 8)).take n

/-- Writes bytes into a bank from a byte offset on. -/
def Tile.putImem (x : Tile) (bank offset : Nat) (bs : List Byte) : Tile :=
  let first := offset / 8
  let n := ceilDiv (offset % 8 + bs.length) 8
  let old := wordBytes (x.imemWords bank first n)
  let ws := leWords n (old.take (offset % 8) ++ bs ++ old.drop (offset % 8 + bs.length))
  { x with imem := (List.range n).foldl (fun (m : SMap Word) i => m.put (8192 * bank + first + i) (nth ws i 0)) x.imem }

/-- A tile set as the 128 bytes of its mask (R562). -/
def tileMask (ts : List Nat) : List Byte :=
  (List.range 128).map (fun i => BitVec.ofNat 8 (((List.range 8).map (fun b => if ts.contains (8 * i + b) then 2 ^ b else 0)).foldl (· + ·) 0))

/-- What turns an IMEM_LOAD away on a tile (R98, R151). -/
def Tile.loadBad (x : Tile) (bank : Nat) : Option Status :=
  if x.state = .unavailable then some .tileUnavailable
  else if x.state = .reset || x.state = .off then some .tileState
  else if (x.bank = bank && (x.state = .running || x.state = .halted)) || (x.armed && x.bank ≠ bank) then some .imemBusy
  else none

/-- The first status that a test gives on a tile set: TILE_UNAVAILABLE, then TILE_STATE, then any other. -/
def State.setStatus (s : State) (ts : List Nat) (f : Tile → Option Status) : Option Status :=
  let l := ts.filterMap (fun t => f (s.tile t))
  if l.contains .tileUnavailable then some .tileUnavailable
  else if l.contains .tileState then some .tileState else l.head?

/-- IMEM_LOAD (R151, R153): its record's continuations hold the tile set, then the digest of the bytes. The bytes are written at
once, and the load is in progress (GRT_IMEM_STATUS) until the module's next cycle (log 12). -/
def execImemLoad (k : Kci) (tiles : List Nat) (bank : Nat) (src : DataAt) (offset len : Nat) (s : State) :
    Host.Outcome State Fault Refusal :=
  .next (kciRun 0x0508 k s (fun s =>
    KRes.check s [badTiles tiles, s.tilesDenied k tiles,
        (2 ≤ bank || len % 8 ≠ 0 || 65536 < offset + len, .badOperand)] (fun _ =>
      match s.setStatus tiles (·.loadBad bank) with
      | some st => .fail s st
      | none => match s.dataRead k src len with
        | (.ok, bs, s) =>
          { st := tiles.foldl (fun s t => s.onTile t (fun x => { x.putImem bank offset bs with loading := some bank })) s,
            keys := tiles, cont := pieces 32 4 (tileMask tiles) ++ digestBlocks (shake256 bs) }
        | (st, _, s) => .fail s st)) (regions := tileRegions tiles))

/-- Loads in progress end (R151, R154). -/
def State.imemSettle (s : State) : State :=
  let keys := s.cmp.inflight.flatMap (fun r => match r.stage with
    | .running ks => if r.opcode = 0x0508 then ks else []
    | _ => [])
  keys.foldl (fun s t => (s.onTile t (fun x => { x with loading := none })).progress 0x0508 t) s

/-- A swap on a READY tile happens at once (R152). -/
def Tile.swapNow (x : Tile) (table : Option (List Word)) : Tile :=
  let x := match table with
    | some ws => { x with handlers := (List.range 64).foldl (fun (m : SMap Handler) i => m.put i (handlerOf (nth ws i 0))) x.handlers }
    | none => x
  { x with bank := 1 - x.bank, armed := false, table := none }

/-- The continuations of a swap's record: the set of the tiles that swapped, and the bank they swapped to (R153, log 12). -/
def swapConts (ts : List Nat) (bank : Nat) : List (List Byte) := pieces 32 4 (tileMask ts) ++ [padTo 32 0 (leBytes 8 bank)]

/-- IMEM_SWAP (R152, R153): a record is added where some tile swaps at once. Where the tiles swap to different banks there are two:
the one of bank 0 is appended as they swap, the other with the completion (log 12). -/
def State.imemSwap (s : State) (k : Kci) (tiles : List Nat) (arm : Bool) (table : Option Nat) : KRes :=
  let ws := table.map (fun a => leWords 64 (s.hostRead k.src.fnIdx a 512))
  let act := fun (s : State) (t : Nat) => s.onTile t (fun x =>
    if !arm then { x with armed := false, table := none }
    else if x.state = .ready then x.swapNow ws
    else { x with armed := true, table := ws })
  let to_ := fun (b : Nat) => tiles.filter (fun t => arm && (s.tile t).state = .ready && 1 - (s.tile t).bank = b)
  let st := tiles.foldl act s
  match to_ 0, to_ 1 with
  | [], [] => { st := st }
  | [], ts => { st := st, cont := swapConts ts 1 }
  | ts, [] => { st := st, cont := swapConts ts 0 }
  | zs, ts => { st := st.itinCommand 0x0509 k.acts k.src.code .ok k.words (swapConts zs 0), cont := swapConts ts 1 }

def Tile.swapBad (table : Option Nat) (x : Tile) : Option Status :=
  if x.state = .unavailable then some (if table.isSome then .tileUnavailable else .tileState)
  else if x.state = .ready || x.state = .running || x.state = .halted then none
  else some .tileState

def execImemSwap (k : Kci) (tiles : List Nat) (arm : Bool) (table : Option Nat) (s : State) : Host.Outcome State Fault Refusal :=
  .next (kciRun 0x0509 k s (fun s =>
    KRes.check s [badTiles tiles, s.tilesDenied k tiles] (fun _ =>
      match s.setStatus tiles (Tile.swapBad table) with
      | some st => .fail s st
      | none => s.imemSwap k tiles arm table))
    (records := arm && tiles.any (fun t => (s.tile t).state = .ready)) (regions := tileRegions tiles))

/-- IMEM_READ (R154). -/
def execImemRead (k : Kci) (t bank dest offset len : Nat) (s : State) : Host.Outcome State Fault Refusal :=
  .next (kciRun 0x050A k s (fun s =>
    KRes.check s [badTiles [t], s.tilesDenied k [t],
        (2 ≤ bank || 65536 < offset + len, .badOperand)] (fun _ =>
      { st := s.putHost k dest ((s.tile t).imemBytes bank offset len) })) (records := false) (regions := [tileRegion t]))

/-- READY or HALTED tiles only (R154). -/
def Tile.scratchBad (x : Tile) : Option Status :=
  if x.state = .ready || x.state = .halted then none else some .tileState

/-- A retained scratchpad returns to ON before a command uses it (R441). -/
def State.wake (s : State) (t : Nat) : State :=
  if (s.tile t).power = .retention then (s.powerOver t).onTile t (fun x => { x with power := .on, goal := none }) else s

/-- A command met an uncorrectable word: the address goes to GRT_ECC_ADDR, and a notice is raised, TILE_FAULT with the tile and no
DETAIL (R76, R521, R524): DESIGN CHOICE (log 33). The tile does not run: nothing halts. -/
def State.scratchLost (s : State) (t : Nat) (x : Tile) (w : Nat) : State :=
  (s.setEcc t x w).notify .tileFault .uncorrectable x.part (coord t) 0 (.region (tileRegion t)) w

/-- SCRATCH_WRITE (R154). Where a word that the write covers in part is uncorrectable on a tile, nothing is written on that tile, the words
it covers whole neither: R76 does not say. DESIGN CHOICE (log 82). -/
def execScratchWrite (k : Kci) (tiles : List Nat) (addr : Nat) (src : DataAt) (len : Nat) (s : State) :
    Host.Outcome State Fault Refusal :=
  .next (kciRun 0x050B k s (fun s =>
    KRes.check s [badTiles tiles, s.tilesDenied k tiles, (scratchEnd < addr + len, .badOperand)] (fun _ =>
      match s.setStatus tiles Tile.scratchBad with
      | some st => .fail s st
      | none => match s.dataRead k src len with
        | (.ok, bs, s) =>
          let bad := tiles.any (fun t => match (s.tile t).store addr bs with
            | .error _ => true
            | .ok _ => false)
          { st := tiles.foldl (fun s t => match ((s.wake t).tile t).store addr bs with
              | .ok x => (s.wake t).setTile t x
              | .error (w, x) => (s.wake t).scratchLost t x w) s,
            status := if bad then .uncorrectable else .ok }
        | (st, _, s) => .fail s st)) (records := false) (regions := tileRegions tiles))

/-- SCRATCH_READ (R154). -/
def execScratchRead (k : Kci) (t addr : Nat) (dest : DataAt) (len : Nat) (s : State) : Host.Outcome State Fault Refusal :=
  .next (kciRun 0x050C k s (fun s =>
    KRes.check s [badTiles [t], s.tilesDenied k [t], (scratchEnd < addr + len, .badOperand)] (fun _ =>
      match s.setStatus [t] Tile.scratchBad with
      | some st => .fail s st
      | none => match ((s.wake t).tile t).load addr len with
        | .error (w, x) => { st := (s.wake t).scratchLost t x w, status := .uncorrectable }
        | .ok (bs, x) =>
          let (st, s) := ((s.wake t).setTile t x).dataWrite k dest bs
          { st := s, status := st })) (records := false) (regions := [tileRegion t]))

end Sys2Proof.Machine
end

