-- ==== Sys2Proof/Machine/Partition.lean ====
section
/-! DEFINITION. Partitions (R104, R408, R479): what they own, how they are made, stopped and taken apart. -/

namespace Sys2Proof.Machine

/-! ### STK_REGION_CLEAR (R408) -/

/-- Bytes [a, a + n) of an owner's view touch a region. -/
def StkRegion.touches (g : StkRegion) (a n : Nat) : Bool := 0 < n && a < g.vbase + g.size && g.vbase < a + n

/-- A region of the device that Compass made at start-up as a die's Traverse spill region (R409, log 66). -/
def spillBase (die : Nat) : Nat := systemVbase die 0

/-- Something of the spec's list lies in a region of an owner (64: the device). -/
def State.regionUsed (s : State) (o : Nat) (g : StkRegion) : Bool :=
  (o < 64 && s.gaz.tables.any (fun e => e.2.d.part = o && g.touches e.2.d.stkBase (e.2.d.stkRows * e.2.d.rowBytes))) ||
    (o < 64 && s.sht.part = o && g.touches s.sht.base s.sht.size) ||
    (o = 64 && s.fab.subs.any (fun e => (e.2.cfg.unpausable && g.touches e.2.cfg.ringBase e.2.cfg.ringSize))) ||
    (o = 64 && (List.range 4).any (fun d => g.vbase = spillBase d ||
      (g.vbase = systemVbase d 1 && s.fab.subs.any (fun e => lportDie e.1 = d && e.2.cfg.mode = .endpoint))))

def State.regionBusy (s : State) (o : Nat) (g : StkRegion) : Bool := (o < 64 && s.partBusy o) || s.regionUsed o g

/-- Takes a region away from its owner. The assignment of its bands stays known (R408). -/
def State.regionDrop (s : State) (o vbase : Nat) : State :=
  let s := { s with stk := { s.stk with regions := s.stk.regions.put o ((s.stkRegions o).filter (fun g => g.vbase ≠ vbase)) } }
  s.unconfig (fun e => e.opcode = 0x0901 && (nth e.words 1 0).toNat = vbase &&
    (if o = 64 then bit (nth e.words 0 0) 6 else !bit (nth e.words 0 0) 6 && bits (nth e.words 0 0) 5 0 = o))

def execStkRegionClear (k : Kci) (owner : RegionOwner) (vbase : Nat) (s : State) : Host.Outcome State Fault Refusal :=
  .next (kciRun 0x0902 k s (fun s =>
    KRes.check s [k.denied] (fun _ =>
      match (s.stkRegions owner.idx).find? (fun g => g.vbase = vbase) with
      | none => .fail s .memInvalid
      | some g => KRes.check s [(s.regionBusy owner.idx g, .memBusy)] (fun _ => { st := s.regionDrop owner.idx vbase }))))

/-! ### What a partition owns -/

/-- Tiles, sub-ports and queues of a partition, by number. -/
def State.tilesOf (s : State) (p : Nat) : List Nat := (s.grid.tiles.keep (fun _ x => x.part = some p)).keys
def State.subsOf (s : State) (p : Nat) : List Nat := (s.fab.subs.keep (fun _ x => x.cfg.part = some p)).keys
def State.queuesOf (s : State) (p : Nat) : List Nat := (s.cmp.dmaq.keep (fun _ x => x.part = some p)).keys
def State.groupsOf (s : State) (p : Nat) : List CflGroup := (s.cfl.groups.keep (fun _ g => g.d.part = p)).vals
def State.tablesOf (s : State) (p : Nat) : List Nat := (s.gaz.tables.keep (fun _ t => t.d.part = p)).keys
def State.objsOf (s : State) (p : Nat) : List Nat := (s.mer.objs.keep (fun _ o => o.part = p)).keys

/-- The regions that hold a tile or a sub-port of a partition: commands on the partition go through their Region Surveyors (R24, R28). -/
def State.partRegions (s : State) (p : Nat) : List Nat := ((s.tilesOf p).map tileRegion ++ (s.subsOf p).map lportRegion).eraseDups

/-! ### PART_STOP -/

/-- Ends what is in flight for a partition, with FENCED, and halts its RUNNING tiles. -/
def State.partStop (s : State) (p : Nat) : State :=
  let s := s.cflEndAll (fun r => (s.cflGroup r.group).map (·.d.part) = some p) .fenced
  let ops := s.sht.ops.filter (fun o => o.part = some p && (match o.source with
    | .tile _ => true
    | .accel _ => false))
  let s := ops.foldl (fun s o => s.shtEnd o .fenced) s
  let s := (s.dmaStopAll (s.queuesOf p) .fenced (fun _ => true)).2
  (s.tilesOf p).foldl State.commandHalt s

def State.partStopAll (s : State) (ps : List Nat) : State := ps.foldl State.partStop s

/-- A partition number, and the partition's existence. -/
def State.partGuard (s : State) (p : Nat) : List (Bool × Status) := [(64 ≤ p, .badOperand), (!s.partExists p, .partInvalid)]

def execPartStop (k : Kci) (part : Nat) (s : State) : Host.Outcome State Fault Refusal :=
  .next (kciRun 0x0205 k s (fun s => KRes.check s (k.denied :: s.partGuard part) (fun _ => { st := s.partStop part }))
    (regions := s.partRegions part))

/-! ### PART_CREATE and PART_MODE_SET -/

def State.setPart (s : State) (p : Nat) (m : PartMode) : State := s.setDtm { s.dtm with parts := s.dtm.parts.put p m }

/-- BLANK, RETURNED and DECOMMISSIONED allow no partition (R490). -/
def lcAllows : LcState → Bool
  | .provisioned => true
  | .deployed => true
  | _ => false

def execPartCreate (k : Kci) (part : Nat) (train : Bool) (s : State) : Host.Outcome State Fault Refusal :=
  .next (kciRun 0x0202 k s (fun s =>
    KRes.check s [k.denied, (64 ≤ part, .badOperand), (s.tampered, .tampered), (!lcAllows s.crt.lc, .lcState), (s.partExists part, .partInvalid)]
      (fun _ => { st := s.setPart part { s.partMode part with assigned := true, train := train } })) (conf := true))

/-- PART_MODE_SET. The configuration record keeps one entry for the partition, which PART_CREATE would make with this mode (R502). -/
def execPartModeSet (k : Kci) (part : Nat) (train : Bool) (s : State) : Host.Outcome State Fault Refusal :=
  .next (kciRun 0x0204 k s (fun s =>
    KRes.check s (k.denied :: s.partGuard part ++ [(s.partBusy part, .partState)])
      (fun _ => { st := (s.setPart part { s.partMode part with train := train }).config 0x0202 [wd part, wd (flag 0 train)] })))

/-! ### PART_ASSIGN -/

def resQueues (r : PartRes) : List Nat := (List.range r.numQ).map (r.firstQ + ·)

def State.assignChecks (s : State) (p : Nat) (r : PartRes) : List (Bool × Status) :=
  [(r.tiles.any (fun t => (s.tile t).state = .unavailable || s.flt.downDies.contains (t / 256)), .tileUnavailable),
   (r.tiles.any (fun t => match (s.tile t).part, (s.tile t).joining with
      | some q, _ => q ≠ p
      | none, some q => q ≠ p
      | none, none => false) || (resQueues r).any (fun q => match (s.queue q).part with
      | some o => o ≠ p
      | none => false), .partState),
   (r.tiles.any (fun t => (s.tile t).state ≠ .ready && (s.tile t).state ≠ .off), .tileState),
   (r.subs.any (fun l => (s.sub l).state ≠ .disabled || s.flt.downDies.contains (lportDie l)), .portState)]

/-- A tile joins a partition: at once where it was the tile's last one or the tile is OFF and holds nothing, else after a reset
that clears its scratchpad (R104). -/
def State.joinTile (p : Nat) (s : State) (t : Nat) : State :=
  let x := s.tile t
  if x.part = some p then s
  else if x.lastPart = some p || x.state = .off then s.setTile t { x with part := some p, lastPart := some p }
  else (s.tileReset t true).onTile t (fun x => { x with joining := some p })

def State.partAdd (s : State) (p : Nat) (r : PartRes) : KRes :=
  KRes.check s (s.assignChecks p r) (fun _ =>
    let s := r.tiles.foldl (State.joinTile p) s
    let s := r.subs.foldl (fun s l => s.onSub l (fun x => { x with cfg := { x.cfg with part := some p } })) s
    let s := (resQueues r).foldl (fun s q => s.setQueue q { s.queue q with part := some p }) s
    { st := s, keys := r.tiles.filter (fun t => (s.tile t).joining.isSome) })

/-- A tile leaves its partition; its scratchpad is cleared when it next joins another (R104). -/
def Tile.leave (x : Tile) (p : Nat) : Tile :=
  { x with part := if x.part = some p then none else x.part, joining := if x.joining = some p then none else x.joining }

def State.partRemove (s : State) (p : Nat) (r : PartRes) : KRes :=
  KRes.check s
    [(r.tiles.any (fun t => (s.tile t).part = some p && ((s.tile t).state = .running || (s.tile t).state = .halted)), .tileState),
     (r.subs.any (fun l => (s.sub l).state ≠ .disabled), .portState)] (fun _ =>
    let s := r.tiles.foldl (fun s t => s.onTile t (fun x => x.leave p)) s
    let s := r.subs.foldl (fun s l => s.onSub l (fun x => if x.cfg.part = some p then { x with cfg := { x.cfg with part := none } } else x)) s
    { st := (resQueues r).foldl (fun s q => if (s.queue q).part = some p then s.setQueue q {} else s) s })

def execPartAssign (k : Kci) (part : Nat) (add : Bool) (res : PartRes) (s : State) : Host.Outcome State Fault Refusal :=
  .next (kciRun 0x0203 k s (fun s =>
    KRes.check s (k.denied :: s.partGuard part ++
        [badTiles res.tiles, (res.subs.any (fun l => !s.subExists l) || 16384 < res.firstQ + res.numQ, .badOperand)])
      (fun _ => if add then s.partAdd part res else s.partRemove part res)) (conf := true) (key := 7)
    (regions := res.tiles.map tileRegion ++ res.subs.map lportRegion))

/-! ### PART_DESTROY -/

/-- Entries of the configuration record that set something of a partition. -/
def State.partEntry (s : State) (p : Nat) (e : ConfigEntry) : Bool :=
  let w := (nth e.words 0 0).toNat
  match e.opcode with
  | 0x0202 => w = p
  | 0x0203 => w = p
  | 0x0204 => w = p
  | 0x0210 => w = p
  | 0x0907 => w = p
  | 0x0802 => w = p
  | 0x0208 => (s.queue w).part = some p
  | 0x0A01 => (s.objsOf p).contains w
  | 0x0A03 => (s.objsOf p).contains w
  | 0x0601 => (s.groupsOf p).any (fun g => g.d.id = w)
  | 0x0602 => (s.groupsOf p).any (fun g => g.d.id = w)
  | 0x0701 => (s.tablesOf p).contains w
  | _ => false

/-- A sub-port is DISABLED and unowned, a FENCED one too (R479, log 13). -/
def State.releaseSub (s : State) (l : Nat) : State :=
  (s.disableSub l).onSub l (fun x => { x with cfg := { x.cfg with part := none, mode := .disabled } })

/-- Tears the rings of a function down. -/
def State.tearRings (s : State) (f : Nat) : State :=
  s.setFn f { s.fn f with rings := false, cmdBase := 0, cmdLog := 0, evtBase := 0, evtLog := 0, evtVector := 0, held := [], lost := 0 }

/-- Steps 2 to 9 of PART_DESTROY. -/
def State.partRelease (s : State) (p : Nat) : State :=
  let s := s.unconfig (s.partEntry p)
  let s := (s.groupsOf p).foldl (fun s g =>
    let s := if g.isOpen then s.cflClose g else s
    s.setCfl { s.cfl with groups := s.cfl.groups.del g.d.id }) s
  let s := (s.tablesOf p).foldl (fun s t =>
    if s.gaz.reqs.any (fun q => q.bags.any (fun b => b.1 = t)) then
      s.setGaz { s.gaz with tables := s.gaz.tables.adj t (fun x => { x with deleting := true }) }
    else s.setGaz { s.gaz with tables := s.gaz.tables.del t }) s
  let s := s.setMer { s.mer with objs := s.mer.objs.keep (fun _ o => o.part ≠ p) }
  let subs := s.subsOf p
  let s := s.setSht { s.sht with
    windows := s.sht.windows.keep (fun k _ => k / 64 ≠ p && !subs.any (fun l => k / 64 = 64 + l)),
    size := if s.sht.part = p then 0 else s.sht.size }
  let s := subs.foldl State.releaseSub s
  let s := s.unconfig (fun e => e.opcode = 0x0301 && (List.range 8).all (fun i => (s.sub (8 * (nth e.words 0 0).toNat + i)).cfg.mode = .disabled))
  let s := ((s.stkRegions p).map (·.vbase)).foldl (fun s v => s.regionDrop p v) s
  let s := { s with far := { s.far with windows := s.far.windows.keep (fun k _ => k / 16 ≠ p) } }
  let s := (s.queuesOf p).foldl (fun s q => s.setQueue q {}) s
  (s.setPart p {}).tearRings (p + 1)

/-- PART_DESTROY, with the tiles that are still joining the partition. -/
def State.partDestroy (s : State) (p : Nat) : KRes :=
  let s := s.partStop p
  let ts := (s.grid.tiles.keep (fun _ x => x.part = some p || x.joining = some p)).keys
  let live := ts.filter (fun t => (s.tile t).resettable)
  let s := live.foldl (fun s t => s.tileReset t true) s
  let s := ts.foldl (fun s t => s.onTile t (fun x => x.leave p)) s
  let s := s.partRelease p
  { st := s, keys := live ++ (s.tablesOf p).map (4096 + ·) }

def execPartDestroy (k : Kci) (part : Nat) (s : State) : Host.Outcome State Fault Refusal :=
  .next (kciRun 0x0206 k s (fun s => KRes.check s (k.denied :: s.partGuard part) (fun _ => s.partDestroy part))
    (regions := s.partRegions part))

/-! ### PART_QUERY (log 67) -/

def PartMode.word (m : PartMode) : Word := wd (flag 0 m.datum + flag 1 m.train + flag 8 m.assigned)

/-- The modes, then of every kind the count and its members: tiles, sub-ports, queues, region words, far windows (entry, port,
base, size), objects, groups, tables, valid Sheet windows. -/
def State.partQuery (s : State) (p : Nat) : List Word :=
  let l := fun (xs : List Nat) => wd xs.length :: xs.map wd
  let regs := s.stkRegions p
  let wins := s.far.windows.filter (fun e => e.1 / 16 = p)
  (s.partMode p).word :: (l (s.tilesOf p) ++ l (s.subsOf p) ++ l (s.queuesOf p) ++ [wd regs.length] ++ regs.flatMap (regionWords p) ++
    [wd wins.length] ++ wins.flatMap (fun e => [wd (e.1 % 16), wd e.2.port, wd e.2.base, wd e.2.size]) ++
    l (s.objsOf p) ++ l ((s.groupsOf p).map (·.d.id)) ++ l (s.tablesOf p) ++
    l ((s.sht.windows.keep (fun k w => k / 64 = p && w.valid)).keys.map (· % 64)))

def execPartQuery (k : Kci) (part : Nat) (s : State) : Host.Outcome State Fault Refusal :=
  .next (kciRun 0x0207 k s (fun s =>
    KRes.check s ((64 ≤ part, .badOperand) :: k.notOwn part :: [(!s.partExists part, .partInvalid)])
      (fun _ => { st := s, result := s.partQuery part })) (records := false))

end Sys2Proof.Machine
end

