-- ==== Sys2Proof/Machine/Plat.lean ====
section
/-! DEFINITION. Plat commands and the granting of waiting allocations (R451, R454, R457, R458). -/

namespace Sys2Proof.Machine

/-- PLAT_ALLOC_GRANT (R451): a waiting allocation that can now be granted is granted. -/
def execPlatAllocGrant (die pool : Nat) (s : State) : Host.Outcome State Fault Refusal :=
  .next (if 4 ≤ die || 8 ≤ pool then s else s.platGrant die pool)

/-- Damaged metadata makes a pool FAULTED, with a notice of the address: the die's first metadata bank and the buffer index
(R438, R457, log 33). -/
def State.poolFault (s : State) (d p i : Nat) : State :=
  let x := s.pool d p
  if x.faulted then s
  else
    let bank := put 18 16 d + put 15 13 4
    (s.setPool d p { x with faulted := true }).notify .poolFaulted .uncorrectable none (d + put 4 2 p) (bank + put 63 32 i) (.die d) bank

/-- The buffers of the cell buffer that the sizes of pools 0 to 5 leave (R437, R450). -/
def cellBufferCells : Nat := 262144 - 16384

def State.cellSum (s : State) (d skip : Nat) : Nat :=
  ((List.range 6).map (fun p => if p = skip then 0 else (s.pool d p).total + rangeCount (s.pool d p).bad)).foldl (· + ·) 0

/-- PLT_POOL_SET (R450, R451, R454, R458). The size is an operand of pools 2 to 5. -/
def State.poolSet (s : State) (d p total t1 t2 t3 reserve : Nat) : KRes :=
  let x := s.pool d p
  let total := if 2 ≤ p && p ≤ 5 then total else x.total
  let y := { x with total := total, ring := if total = x.total then x.ring else x.fresh total, thresh := [t1, t2, t3], dflt := reserve }
  let raise := y.sumReserve - x.sumReserve
  KRes.check s [(t1 ≤ t2 || t2 ≤ t3, .memInvalid), (p = poolHeadroom && t3 * y.shared < 2048 * 256, .memInvalid),
      (total ≠ x.total && !x.held.isEmpty, .memBusy), (p ≤ 5 && cellBufferCells < s.cellSum d p + total + rangeCount x.bad, .noResources),
      (total = x.total && x.sharedFree < raise || total < y.sumReserve, .noResources)] (fun _ => { st := s.putPool d p y })

def execPltPoolSet (k : Kci) (die pool total t1 t2 t3 reserve : Nat) (s : State) : Host.Outcome State Fault Refusal :=
  .next (kciRun 0x0220 k s (fun s =>
    KRes.check s [k.denied, (4 ≤ die || 8 ≤ pool || 255 < t1, .badOperand)] (fun _ => s.poolSet die pool total t1 t2 t3 reserve))
    (conf := true) (key := 2) (dies := [die]))

/-- The owners a query of ALL names: those with a number, and any other that holds or reserves. -/
def Pool.ownerList (x : Pool) : List Nat :=
  List.range x.owners ++ ((x.reserve.keys ++ x.used.keys).filter (x.owners ≤ ·)).eraseDups

/-- PLT_POOL_QUERY (R458): T, F, S, level, FAULTED, then R_o and U_o of each owner. -/
def execPltPoolQuery (k : Kci) (die pool : Nat) (owner : Option Nat) (s : State) : Host.Outcome State Fault Refusal :=
  .next (kciRun 0x0221 k s (fun s =>
    let own := match k.src with
      | .vf v => (pool = poolReorder || pool = poolSheet) && owner = some (v - 1)
      | _ => true
    KRes.check s [(!own, .accessDenied), (4 ≤ die || 8 ≤ pool, .badOperand)] (fun _ =>
      let x := s.pool die pool
      { st := s, result := [wd x.total, wd x.freeCount, wd x.sharedFree, wd x.level, wd (flag 0 x.faulted)] ++
          (match owner with
            | some o => [o]
            | none => x.ownerList).flatMap (fun o => [wd (x.reserveOf o), wd (x.usedOf o)]) })) (records := false) (dies := [die]))

end Sys2Proof.Machine
end

