-- ==== Sys2Proof/Machine/Waypoint.lean ====
section
/-! DEFINITION. The routing commands (R329 to R335, R340, R349, R350, R352, R358). -/

namespace Sys2Proof.Machine

/-- A logical port in switch mode. -/
def State.isSwitch (s : State) (l : Nat) : Bool := s.subExists l && (s.sub l).cfg.mode = .switch
def State.isEndpoint (s : State) (l : Nat) : Bool := s.subExists l && (s.sub l).cfg.mode = .endpoint

/-- What follows a change of routes: sets with usable members lose their mark, members that can be reached are lost no more. -/
def State.reroute (s : State) : State := (s.unmark.shtRouteBack).scanLost

def execRouteSetPrefix (k : Kci) (pfx level : Nat) (s : State) : Host.Outcome State Fault Refusal :=
  .next (kciRun 0x0401 k s (fun s =>
    KRes.check s [k.denied, (2 ^ 40 ≤ pfx || 5 < level, .badOperand), (fld pfx 39 32 = 0xFF, .routeInvalid)]
      (fun _ => { st := (s.setFab { s.fab with pfx := some (pfx, level) }).reroute })) (conf := true) (key := 0))

/-- Logical ports in ascending order, each once. -/
def sortPorts (l : List Nat) : List Nat := SMap.keys (l.foldl (fun (m : SMap Unit) x => m.put x ()) [])

def execRouteSetPortset (k : Kci) (set : PortSetId) (members : List Nat) (s : State) : Host.Outcome State Fault Refusal :=
  .next (kciRun 0x0402 k s (fun s =>
    let v := match set with
      | .up => 256
      | .down b => b
    let bad := match set with
      | .up => false
      | .down b => decide (256 ≤ b)
    KRes.check s [k.denied, (bad || members.isEmpty, .badOperand),
        (64 < members.length || members.any (fun l => !s.isSwitch l), .routeInvalid)]
      (fun _ => { st := (s.setFab { s.fab with sets := s.fab.sets.put v (sortPorts members) }).reroute })) (conf := true) (key := 2))

/-- A target of the local table that exists (R331). -/
def State.localOk (s : State) : LocalTarget → Bool
  | .none => true
  | .subport l => s.isEndpoint l
  | .host f row => f ≤ 64 && row < 64
  | .device p row => s.partExists p && row < 64
  | .cfl d row => d < 4 && row < 16
  | .sheet d row => d < 4 && row < 16

def execRouteLocalSet (k : Kci) (p : Nat) (target : LocalTarget) (s : State) : Host.Outcome State Fault Refusal :=
  .next (kciRun 0x0403 k s (fun s =>
    KRes.check s [k.denied, (256 ≤ p, .badOperand), (!s.localOk target, .routeInvalid)]
      (fun _ => { st := s.setFab { s.fab with table := s.fab.table.put p target } })) (conf := true))

/-! ### Aliases (R333 to R335) -/

/-- An alias entry from its two words; none where a reserved bit is set or DEPTH of a VALID entry lies outside 1 to 5. -/
def aliasOf (w0 w1 : Word) : Option AliasEntry :=
  if bits w0 63 44 ≠ 0 || bits w1 63 40 ≠ 0 || (bit w0 43 && (bits w0 42 40 = 0 || 5 < bits w0 42 40)) then none
  else some ⟨bits w0 39 0, bits w0 42 40, bit w0 43, bits w1 39 0⟩

/-- The 16 bytes of an alias entry. -/
def aliasBytes (e : AliasEntry) : List Byte := leBytes 8 (put 39 0 e.mtch + put 42 40 e.depth + flag 43 e.valid) ++ leBytes 8 e.repl

/-- Two VALID entries of one bank compare the same fields, or an entry names t5 = 0xFF. -/
def aliasClash (m : SMap AliasEntry) : Bool :=
  m.any (fun a => fld a.2.mtch 39 32 = 0xFF || fld a.2.repl 39 32 = 0xFF ||
    (a.2.valid && m.any (fun b => a.1 < b.1 && b.2.valid && a.2.depth = b.2.depth && tiersMatch a.2.depth (256 * a.2.mtch) (256 * b.2.mtch))))

/-- The bytes of a bank of 1,024 entries. -/
def State.aliasBank (s : State) (b : Nat) : List Byte :=
  (List.range 1024).flatMap (fun i => aliasBytes (s.fab.alias_.lookD (1024 * b + i) ⟨0, 0, false, 0⟩))

/-- The two banks exchange their parts (R335); the digest of the new active bank is what the swap's Itinerary entry carries. -/
def State.aliasSwap (s : State) : State × List (List Byte) :=
  let n := 1 - s.fab.active
  ((s.setFab { s.fab with active := n, swaps := (s.fab.swaps + 1) % 2 ^ 32 }).reroute, digestBlocks (shake256 (s.aliasBank n)))

/-- An ALIAS_LOAD has written the shadow bank: it completes, and after it the swap that waits (R335). -/
def State.aliasSettle (s : State) : State :=
  match s.fab.aliasNew with
  | none => s
  | some m =>
    let s := (s.setFab { s.fab with alias_ := m, aliasNew := none }).progress 0x0404 0
    if !s.fab.swapDue then s
    else
      let (s, cont) := (s.setFab { s.fab with swapDue := false }).aliasSwap
      (s.setInflight (s.cmp.inflight.map (fun x => if x.opcode = 0x0405 && x.stage = .running [0] then { x with itin := x.itin.map (· ++ cont) } else x))).progress 0x0405 0

/-- ALIAS_LOAD reads its entries and begins to write; one before it has done so first (R333, R335). -/
def State.aliasLoad (s : State) (k : Kci) (first addr count : Nat) : KRes :=
  let ws := leWords (2 * count) (s.hostRead k.src.fnIdx addr (16 * count))
  let es := (List.range count).map (fun i => aliasOf (nth ws (2 * i) 0) (nth ws (2 * i + 1) 0))
  let s := s.aliasSettle
  let b := 1024 * (1 - s.fab.active)
  let m := ((List.range count).zip es).foldl (fun (m : SMap AliasEntry) e => match e.2 with
    | some x => m.put (b + first + e.1) x
    | none => m) s.fab.alias_
  KRes.check s [(es.any Option.isNone, .badOperand), (aliasClash (m.keep (fun i _ => i / 1024 = 1 - s.fab.active)), .aliasInvalid)]
    (fun _ => { st := s.setFab { s.fab with aliasNew := some m }, keys := [0] })

def execAliasLoad (k : Kci) (first addr count : Nat) (s : State) : Host.Outcome State Fault Refusal :=
  .next (kciRun 0x0404 k s (fun s =>
    KRes.check s [k.denied, (count = 0 || 1024 < first + count, .badOperand)] (fun _ => s.aliasLoad k first addr count)) (conf := true))

def execAliasSwap (k : Kci) (s : State) : Host.Outcome State Fault Refusal :=
  .next (kciRun 0x0405 k s (fun s =>
    KRes.check s [k.denied] (fun _ =>
      if s.fab.swapDue then { st := s.aliasSettle.aliasSwap.1, cont := s.aliasSettle.aliasSwap.2 }
      else if s.fab.aliasNew.isSome then { st := s.setFab { s.fab with swapDue := true }, keys := [0] }
      else { st := s.aliasSwap.1, cont := s.aliasSwap.2 })))

/-! ### Multicast and reorder -/

def execMcastSet (k : Kci) (index : Nat) (targets : List McTarget) (s : State) : Host.Outcome State Fault Refusal :=
  .next (kciRun 0x0406 k s (fun s =>
    let bad := targets.any (fun t => match t with
      | .port l => !s.isSwitch l && !s.isEndpoint l
      | .loc p => decide (256 ≤ p))
    KRes.check s [k.denied, (4096 ≤ index, .badOperand), (64 < targets.length || bad, .routeInvalid)]
      (fun _ => { st := s.setFab { s.fab with mcast := s.fab.mcast.put index targets } })) (conf := true))

def execReorderCfg (k : Kci) (timeout : Nat) (s : State) : Host.Outcome State Fault Refusal :=
  .next (kciRun 0x0407 k s (fun s =>
    KRes.check s [k.denied, (timeout < 1000 || 1000000 < timeout, .routeInvalid)]
      (fun _ => { st := s.setFab { s.fab with timeout := timeout } })) (conf := true) (key := 0))

/-! ### Output queues and spill (R349, R350, R450) -/

/-- Σ ONCHIP_SHARE and Σ SPILL_SHARE of a die, one queue left out. -/
def State.chipShares (s : State) (d skip : Nat) : Nat :=
  ((List.range 256).map (fun o => if o = skip then 0 else (s.outQ (256 * d + o)).onchip)).foldl (· + ·) 0
def State.spillShares (s : State) (d skip : Nat) : Nat :=
  ((List.range 256).map (fun o => if o = skip then 0 else s.spillShare (256 * d + o))).foldl (· + ·) 0

/-- One queue's MARK_DEPTH, ONCHIP_SHARE and SPILL_SHARE, of which the two shares are returned (R359); pool OUT takes the new size, reservation and cap, pool SPILL the cap. -/
def State.queueCfg (s : State) (d o mark onchip spill : Nat) : KRes :=
  let k := 256 * d + o
  let x := s.pool d poolOut
  let total := s.chipShares d o + onchip
  KRes.check s [(cellBufferCells < s.cellSum d poolOut + total + rangeCount x.bad || (s.trvDie d).spill < s.spillShares d o + spill, .noResources),
      (total ≠ x.total && !x.held.isEmpty, .memBusy)]
    (fun _ =>
      let s := s.setOutQ k { s.outQ k with mark := mark, onchip := onchip, spill := some spill }
      let y := s.pool d poolSpill
      let s := s.putPool d poolSpill { y with caps := y.caps.put o spill }
      { result := [wd onchip, wd spill],
        st := s.putPool d poolOut { x with total := total, ring := if total = x.total then x.ring else x.fresh total,
                                           reserve := x.reserve.put o onchip, caps := x.caps.put o onchip } })

/-- SPILL_SIZE in buffers and FLUSH_CC of a die, whose spill region takes that size (R350). -/
def State.dieCfg (s : State) (d spill flush : Nat) : KRes :=
  let x := s.pool d poolSpill
  let sized := s.setTrv d { s.trvDie d with spill := spill, flush := flush }
  KRes.check s [(spill < sized.spillShares d 256, .noResources), (spill ≠ x.total && !x.held.isEmpty, .memBusy)]
    (fun _ => { st := (sized.putPool d poolSpill { x with total := spill, ring := if spill = x.total then x.ring else [(0, spill)],
                                                          dflt := if spill < 256 then 0 else x.dflt, cap := some (spill / 256) }).systemRegion spill d 0 })

def execTrvQueueCfg (k : Kci) (cfg : QueueCfg) (s : State) : Host.Outcome State Fault Refusal :=
  .next (kciRun 0x0408 k s (fun s =>
    KRes.check s [k.denied] (fun _ =>
      match cfg with
      | .queue die port cls mark onchip spill =>
        KRes.check s [(4 ≤ die || 32 ≤ port || 8 ≤ cls || 4096 ≤ mark, .badOperand)] (fun _ => s.queueCfg die (8 * port + cls) mark onchip spill)
      | .die die spill flush =>
        KRes.check s [(4 ≤ die || 4194304 < spill || flush < 16 || 1023 < flush, .badOperand)] (fun _ => s.dieCfg die spill flush)))
    (conf := true) (key := match cfg with
      | .queue .. => 4
      | .die .. => 2)
    (regions := match cfg with
      | .queue die port _ _ _ _ => [8 * die + port / 4]
      | .die .. => [])
    (dies := match cfg with
      | .queue .. => []
      | .die die _ _ => [die]))

/-! ### Queries -/

/-- NEXT, held count, and the cycles since the timer started (R338, R340). -/
def execFlowQuery (k : Kci) (die src vc : Nat) (s : State) : Host.Outcome State Fault Refusal :=
  .next (kciRun 0x0409 k s (fun s =>
    KRes.check s [(4 ≤ die, .badOperand)] (fun _ =>
      match s.fab.ctxs.find? (fun c => c.die = die && c.src = src && c.vc = vc) with
      | none => .fail s .notPresent
      | some c =>
        let own := match k.src with
          | .vf v => (s.sub c.lport).cfg.part = some (v - 1)
          | _ => true
        if !own then .fail s .accessDenied
        else { st := s, result := [wd c.next, wd c.held.length, wd ((c.timer.map (fun t => s.now - t)).getD 0)] }))
    (records := false) (dies := [die]))

/-- The decision as two words (log 64): 0 no route, 1 MULTICAST and MCID, 2 UP, 3 LOCAL and p, 4 DOWN and the branch. -/
def Decision.words : Decision → Nat × Nat
  | .none => (0, 0)
  | .mcast id => (1, id)
  | .loc p => (3, p)
  | .set v => if v = 256 then (2, 0) else (4, v)

/-- The route key, the decision, and the member that the spray pointer of line 0 would take next (log 64). -/
def execRouteQuery (k : Kci) (dest : Nat) (s : State) : Host.Outcome State Fault Refusal :=
  .next (kciRun 0x040A k s (fun s =>
    KRes.check s [k.denied, (2 ^ 48 ≤ dest, .badOperand)] (fun _ =>
      let d := s.route dest
      let m := match d with
        | .set v => ((s.member 0 v (dataPacket 0 dest 0 0 0 0 0 0 [] [])).map (·.1)).getD (2 ^ 64 - 1)
        | _ => 2 ^ 64 - 1
      { st := s, result := [wd (s.routeKey dest), wd d.words.1, wd d.words.2, wd m] })) (records := false))

end Sys2Proof.Machine
end

