-- ==== Sys2Proof/Machine/Recovery.lean ====
section
/-! DEFINITION. Faults, fences and recovery (R20, R93 to R97, R451, R456, R457, R523 to R540). -/

namespace Sys2Proof.Machine

/-! ### Fencing (R527 to R529) -/

/-- Frames of an unpausable sub-port are discarded and counted; their number. -/
def State.fenceFrames (s : State) (l : Nat) : Nat × State :=
  let x := s.sub l
  let n := x.unp.length + x.ring.length
  let s := s.platFreeAll (lportDie l) poolRx (lportPhys l % 32) (x.unp.flatMap (·.bufs))
  let s := s.onSub l (fun x => { x with unp := [], ring := [] })
  (n, if n = 0 then s else s.drop l dropFenced n)

/-- A sub-port enters FENCED. A packet whose first unit has left is complete (R529). -/
def State.fenceSub (s : State) (l : Nat) : State :=
  if (s.sub l).state = .fenced then s
  else
    let s := s.discardQueued l dropFenced
    let s := if (s.sub l).state = .up then s.leaveUp l .fenced failFenced
      else s.onSub l (fun x => { x with state := .fenced, cause := failFenced, since := s.now, fecLock := false, lanes := 0 })
    let s := s.setFab { s.fab with flows := s.fab.flows.filter (fun f => f.src ≠ l) }
    let (n, s) := s.fenceFrames l
    let s := s.notify .portFenced .fenced (s.sub l).cfg.part l n (.region (lportRegion l))
    s.progress 0x0302 l .fenced

/-- Fences sub-ports, and what follows for Sheet and Confluence. -/
def State.fenceList (s : State) (ls : List Nat) : State := (ls.foldl State.fenceSub s).scanLost

/-- Sub-ports whose mode is not DISABLED, and those of a die. -/
def State.fabricPorts (s : State) : List Nat := (s.fab.subs.keep (fun _ x => x.cfg.mode ≠ .disabled)).keys
def State.diePorts (s : State) (d : Nat) : List Nat := s.fabricPorts.filter (fun l => lportDie l = d)

/-- A list of 1 to 64 sub-ports that exist (R538). -/
def State.badPorts (s : State) (ls : List Nat) : Bool × Status := (ls.isEmpty || 64 < ls.length || ls.any (fun l => !s.subExists l), .badOperand)

def execFencePort (k : Kci) (lports : List Nat) (s : State) : Host.Outcome State Fault Refusal :=
  .next (kciRun 0x0D01 k s (fun s =>
    KRes.check s [k.denied, s.badPorts lports, (lports.any (fun l => (s.sub l).state = .disabled), .portState)]
      (fun _ => { st := s.fenceList lports })) (regions := lports.map lportRegion))

def execUnfencePort (k : Kci) (lports : List Nat) (s : State) : Host.Outcome State Fault Refusal :=
  .next (kciRun 0x0D02 k s (fun s =>
    KRes.check s [k.denied, s.badPorts lports, (lports.any (fun l => (s.sub l).state ≠ .fenced), .portState),
        (s.crt.lc = .returned || s.crt.lc = .decommissioned, .lcState), (s.flt.cause ≠ 0 || lports.any (fun l => s.flt.downDies.contains (lportDie l)), .fenced)]
      (fun _ => { st := lports.foldl State.startTraining s })) (regions := lports.map lportRegion))

/-! ### Failure domains (R525, R526) -/

/-- A partition holds a tile, sub-port, region, table or group on a die. -/
def State.partOnDie (s : State) (d p : Nat) : Bool :=
  (s.tilesOf p).any (fun t => t / 256 = d) || (s.subsOf p).any (fun l => lportDie l = d) ||
    (s.stkRegions p).any (fun g => g.global || g.die = d) ||
    s.gaz.tables.any (fun e => e.2.d.part = p && 0 < e.2.d.pinRows && e.2.d.pinDie = d) ||
    (s.groupsOf p).any (fun g => g.die = d)

/-- Compass, when it runs, stops the partitions that hold something on a die. -/
def State.stopOnDie (s : State) (d : Nat) : State :=
  if s.cmp.state = .ready then s.partStopAll (s.partList.filter (s.partOnDie d)) else s

/-- A die is DOWN (R525): its sub-ports are fenced, and Compass stops the partitions on it, when it runs (R526). -/
def State.dieDown (s : State) (d : Nat) : State :=
  if s.flt.downDies.contains d then s
  else
    let s := ({ s with flt := { s.flt with downDies := s.flt.downDies ++ [d] } }.notify .dieDown .fenced none d 0).fenceList (s.diePorts d)
    s.stopOnDie d

/-- Causes of CMP_FAULT_STATUS. -/
def causeBridge : Nat := 1
def causeCompass : Nat := 2
def causeTamper : Nat := 3
def causeHub : Nat := 4
def causePool : Nat := 5

/-- The module is FAILED. The Quadrant Surveyors fence at once; Compass stops the partitions when it runs. -/
def State.moduleFail (s : State) (cause : Nat) : State :=
  let first := s.flt.cause = 0
  let s := if first then
      { s with flt := { s.flt with cause := cause } }.notify .moduleFailed .fenced none cause 0
    else s
  let s := s.fenceList s.fabricPorts
  if s.cmp.state = .ready then s.partStopAll s.partList else s

/-- A FAULTED pool: the module with a forwarding pool, the die with any other (R525, R526). -/
def State.poolLost (s : State) (d p : Nat) : State :=
  if p = poolRx || p = poolOut || p = poolHeadroom || p = poolMemreq then s.moduleFail causePool else s.dieDown d

/-! ### Plat: allocation and free as events (R451, R456, R457) -/

/-- Damaged metadata. -/
def State.poolBroken (s : State) (d p i : Nat) : State :=
  if (s.pool d p).faulted then s else (s.poolFault d p i).poolLost d p

/-- An allocation at a pool; `metaBad`: the metadata that it reads is damaged. -/
def execPlatAlloc (die pool owner : Nat) (part : Option Nat) (metaBad : Bool) (s : State) : Host.Outcome State Fault Refusal :=
  .next (if 4 ≤ die || 8 ≤ pool then s
    else if metaBad then s.poolBroken die pool 0
    else s.platAlloc die pool { owner := owner, part := part })

def execPlatFree (die pool owner index : Nat) (metaBad : Bool) (s : State) : Host.Outcome State Fault Refusal :=
  .next (if 4 ≤ die || 8 ≤ pool then s
    else if metaBad then s.poolBroken die pool index
    else (s.platFree die pool owner index).2)

/-! ### Bridges (R20) -/

/-- The die whose Quadrant Surveyor owns a bridge: the lower die of a die bridge, the quadrant die of a hub link. The spec does not
say which of two Quadrant Surveyors owns a die bridge. DESIGN CHOICE (log 81). -/
def bridgeOwner (i : Nat) : Nat := if i < 16 then i / 4 else i - 16

/-- Lanes of a bridge direction that failed and were mapped onto its four spares; one more and the module fails. SUBJECT has the
bridge in [7:0], 4 min + max of a die bridge and 16 + d of a hub link, and bit 8 for the direction from the second die; DETAIL has
the lane: R20 only has the notice name the bridge and the lane. DESIGN CHOICE (log 33). -/
def execBridgeLaneFailure (b : BridgeId) (fromSecond : Bool) (lane : Nat) (parts : List Nat) (s : State) : Host.Outcome State Fault Refusal :=
  .next (let i := BridgeKey b
    let x := s.lay.bridges.lookD i {}
    let l := if fromSecond then x.second else x.first
    if l.contains lane then s
    else
      let y := if fromSecond then { x with second := l ++ [lane] } else { x with first := l ++ [lane] }
      let s := { s with lay := { s.lay with bridges := s.lay.bridges.put i y } }.drift 8 parts
      let subject := put 7 0 i + flag 8 fromSecond
      if l.length < 4 then s.notifyRecorded .bridgeLaneRemap .ok none subject lane (.die (bridgeOwner i))
      else (s.notifyRecorded .bridgeFailed .ok none subject lane (.die (bridgeOwner i))).moduleFail causeBridge)

/-! ### Isolation (R530, R531) -/

def execIsolatePeer (k : Kci) (tiers depth : Nat) (s : State) : Host.Outcome State Fault Refusal :=
  .next (kciRun 0x0D03 k s (fun s =>
    let l := s.flt.isolation
    KRes.check s [k.denied, (depth = 0 || 5 < depth || 2 ^ 40 ≤ tiers, .badOperand)] (fun _ =>
      if l.any (fun e => e.2 ≤ depth && tiersMatch e.2 (256 * e.1) (256 * tiers)) then { st := s }
      else KRes.check s [(64 ≤ l.length, .noResources)] (fun _ =>
        let s := { s with flt := { s.flt with isolation := l ++ [(tiers, depth)] } }
        { st := (s.notify .peerIsolated .ok none tiers depth).scanLost }))))

def execReleasePeer (k : Kci) (tiers depth : Nat) (s : State) : Host.Outcome State Fault Refusal :=
  .next (kciRun 0x0D04 k s (fun s =>
    let l := s.flt.isolation
    let hit := fun (e : Nat × Nat) => e.2 = depth && tiersMatch depth (256 * e.1) (256 * tiers)
    KRes.check s [k.denied, (!l.any hit, .notPresent)] (fun _ =>
      { st := { s with flt := { s.flt with isolation := l.filter (fun e => !hit e) } }.shtRouteBack })))

/-! ### JOB_TEARDOWN (R532) -/

/-- Step 3: unacknowledged PLP_DATA packets of the tag leave the stores; their number. -/
def State.plpTeardown (s : State) (job : Nat) : Nat × State :=
  let mine := fun (q : FlowPkt) => decide (q.pkt.ulp = ulpPlp && q.pkt.job = job)
  let edge := fun (f : SrcFlow) => decide (f.src < 1024)
  let gone := (s.fab.flows.filter edge).flatMap (fun f => (f.pkts.filter mine).map (fun q => (f.src, q)))
  let s := s.setFab { s.fab with flows := s.fab.flows.map (fun f => if edge f then { f with pkts := f.pkts.filter (fun q => !mine q) } else f) }
  (gone.length, gone.foldl (fun s e => if e.2.pkt.notify then s.flowDone e.1 .aborted [e.2] else s) s)

def State.jobTeardown (s : State) (job : Nat) : KRes :=
  let n1 := (s.cfl.runs.filter (fun r => r.d.job = job)).length
  let s := s.cflAbortJob job none
  let (n2, s) := s.shtTeardown job
  let (n3, s) := s.plpTeardown job
  let (n4, s) := s.dmaStopAll s.cmp.dmaq.keys .aborted (fun d => d.jobTag = job)
  let s := { s with flt := { s.flt with teardowns := satInc s.flt.teardowns } }.tally 0x250
  let s := s.notify .jobTornDown .ok none job (put 15 0 n1 + put 31 16 n2 + put 47 32 n3 + put 63 48 n4) (job := job)
  { st := s, result := [wd n1, wd n2, wd n3, wd n4], cont := [leBytes 8 n1 ++ leBytes 8 n2 ++ leBytes 8 n3 ++ leBytes 8 n4] }

def execJobTeardown (k : Kci) (job : Nat) (s : State) : Host.Outcome State Fault Refusal :=
  .next (kciRun 0x0D05 k s (fun s => KRes.check s [k.denied, (65536 ≤ job, .badOperand)] (fun _ => s.jobTeardown job)))

/-! ### The fault log and the fault map (R523, R534) -/

/-- The 32 bytes of a fault-log entry. -/
def FaultEntry.bytes (e : FaultEntry) : List Byte :=
  leBytes 8 e.timebase ++ leBytes 2 e.code ++ leBytes 1 e.status ++ leBytes 1 (e.part.getD 0xFF) ++ leBytes 4 e.subject ++
    leBytes 8 e.address ++ leBytes 2 e.jobTag ++ List.replicate 6 0

def execFaultLogRead (k : Kci) (first count dest : Nat) (s : State) : Host.Outcome State Fault Refusal :=
  .next (kciRun 0x0D06 k s (fun s =>
    KRes.check s [k.denied] (fun _ =>
      let es := (s.flt.log.drop first).take count
      { st := s.putHost k dest (es.flatMap FaultEntry.bytes), result := [wd es.length] })) (records := false))

def FaultPart.code : FaultPart → Nat
  | .scratchpad => 0
  | .sequencer => 1
  | .engine => 2
  | .router => 3

/-- A fault-map entry as one word (log 68): for a part the physical tile [15:0] and part [17:16]; for a column bit 63, the bank
[18:0], sub-array [26:24] and column [38:32]. -/
def MapEntry.word : MapEntry → Word
  | .part t p => wd (put 15 0 t + put 17 16 (FaultPart.code p))
  | .column b sub col => wd (put 18 0 b + put 26 24 sub + put 38 32 col + 2 ^ 63)

def execFaultMapRead (k : Kci) (die dest : Nat) (s : State) : Host.Outcome State Fault Refusal :=
  .next (kciRun 0x0F02 k s (fun s =>
    KRes.check s [k.denied, (5 ≤ die, .badOperand)] (fun _ =>
      let es := s.flt.faultMap.lookD die []
      { st := s.putHost k dest (wordBytes (es.map MapEntry.word)), result := [wd es.length] })) (records := false))

/-! ### TILE_TEST (R535) -/

/-- The physical place of a logical tile: 17y + x. -/
def State.physTile (s : State) (t : Nat) : Nat := 17 * (t / 16 % 16) + s.physX t

/-- What the built-in test of a tile found is part of the command; the tested tiles keep READY, their scratchpads are cleared. -/
def State.tileTest (s : State) (tiles : List Nat) (failed : List (Nat × FaultPart)) : KRes :=
  let failed := failed.filter (fun e => tiles.contains e.1)
  let s := tiles.foldl (fun s t => s.onTile t (fun x => { x with scratch := [], bad := [], soft := [] })) s
  let s := failed.foldl (fun s e =>
    (s.mapAdd (e.1 / 256) (.part (s.physTile e.1) e.2)).notify .tileTestFail .ok (s.tile e.1).part (coord e.1) (FaultPart.code e.2)
      (.region (tileRegion e.1))) s
  { st := s, result := leWords 16 (tileMask (failed.map (·.1))) }

def execTileTest (k : Kci) (tiles : List Nat) (failed : List (Nat × FaultPart)) (s : State) : Host.Outcome State Fault Refusal :=
  .next (kciRun 0x0F01 k s (fun s =>
    KRes.check s [k.denied, badTiles tiles, (tiles.any (fun t => (s.tile t).state ≠ .ready), .tileState)]
      (fun _ => s.tileTest tiles failed)) (regions := tileRegions tiles))

/-! ### The column shift (R95 to R97) -/

/-- Failed physical tiles of a die: entries of the fault map but for SCRATCHPAD; a ROUTER fails its column; tiles with a DEGRADED
scratchpad bank (R448). -/
def State.failedTiles (s : State) (die : Nat) : List Nat :=
  let m := s.flt.faultMap.lookD die []
  let one := m.filterMap (fun e => match e with
    | .part _ .scratchpad => none
    | .part t _ => some t
    | _ => none)
  let cols := m.filterMap (fun e => match e with
    | .part t .router => some (t % 17)
    | _ => none)
  let weak := (s.atl.banks.filter (fun e => e.2.degraded && bankKind e.1 = 0 && bankDie e.1 = die)).map (fun e => bankIndex e.1 / 24)
  (one ++ weak ++ cols.flatMap (fun c => (List.range 16).map (fun y => 17 * y + c))).eraseDups

/-- The shift column that start-up chooses: the column with the most failed tiles, the lower of two that tie; none where nothing
failed or column 16 needs no shift. -/
def State.startShift (s : State) (die : Nat) : Option Nat :=
  let f := s.failedTiles die
  let n := fun (c : Nat) => (f.filter (fun t => t % 17 = c)).length
  let best := (List.range 17).foldl (fun b c => if n b < n c then c else b) 0
  if n best = 0 || best = 16 then none else some best

/-- Puts a shift in force: logical tiles on failed places are UNAVAILABLE. -/
def State.applyShift (s : State) (die : Nat) (f : Option Nat) : State :=
  let sh := match f with
    | some c => s.grid.shift.put die c
    | none => s.grid.shift.del die
  let s := { s with grid := { s.grid with shift := sh } }
  let bad := s.failedTiles die
  (List.range 256).foldl (fun s i =>
    let t := 256 * die + i
    let lost := bad.contains (s.physTile t)
    if lost then s.onTile t (fun x => { x with state := .unavailable, joining := none })
    else if (s.tile t).state = .unavailable then s.onTile t (fun x => { x with state := .reset })
    else s) s

/-- The Itinerary entry of one step of a COLUMN_SHIFT (R96): the die, the number of the step, and f (log 12). -/
def State.shiftStep (s : State) (die column step : Nat) : State :=
  s.itinEvent 0x0506 none .ok ([die, step, column].flatMap (leBytes 8))

/-- COLUMN_SHIFT (R96): f 0 to 15, or 0x1F for none. Tiles that now occupy other physical tiles are cleared. Their instruction banks
keep what the logical tile held, of which R96 does not speak: DESIGN CHOICE (log 82). -/
def State.columnShift (s : State) (die column : Nat) : KRes :=
  let old := s.grid.shift.lookD die 16
  let f := if column < 16 then some column else none
  let first := min old (f.getD 16)
  let ts := (List.range 256).map (256 * die + ·)
  let s := (s.partStopAll (s.partList.filter (fun p => (s.tilesOf p).any (fun t => t / 256 = die)))).shiftStep die column 1
  let s := (ts.foldl State.commandHalt s).shiftStep die column 2
  let s := (s.applyShift die f).shiftStep die column 3
  let live := ts.filter (fun t => (s.tile t).resettable)
  { st := (live.foldl (fun s t => s.tileReset t (decide (first ≤ t % 16))) s).shiftStep die column 4, keys := live }

def execColumnShift (k : Kci) (die column : Nat) (s : State) : Host.Outcome State Fault Refusal :=
  .next (kciRun 0x0506 k s (fun s =>
    KRes.check s [k.denied, (4 ≤ die || (16 ≤ column && column ≠ 31), .badOperand)] (fun _ => s.columnShift die column)) (dies := [die]))

end Sys2Proof.Machine
end

