-- ==== Sys2Proof/Machine/Lifecycle.lean ====
section
/-! DEFINITION. Life-cycle transitions, tamper, attestation, and the restarts of Compass (R449, R486 to R492, R500 to R503, R514, R516, R517). -/

namespace Sys2Proof.Machine

/-! ### The secure bank (R449) -/

/-- Starts, or restarts, a wipe: cause 1 tamper, 2 life-cycle change. The bank holds the identity key and the management key;
its walker begins again at region 0 (R446). -/
def State.wipe (s : State) (cause : Nat) : State :=
  let s := { s with atl := { s.atl with wiping := true, verifyOk := false, cause := cause, wipes := min 255 (s.atl.wipes + 1) } }
  let s := { s with cmp := { s.cmp with mgmt := { s.cmp.mgmt with key := none } } }
  let s := { s with atl := { s.atl with banks := s.atl.banks.map (fun (b : Nat × Bank) =>
    if bankKind b.1 = 5 then (b.1, { b.2 with region := 0, phase := .idle }) else b) } }
  s.setCrt { s.crt with loaded := none }

/-! ### Transitions (R491, R492) -/

/-- The transitions of R491 that LC_TRANSITION makes. -/
def lcNext (old new : LcState) : Bool :=
  match old, new with
  | .provisioned, .deployed => true
  | .provisioned, .decommissioned => true
  | .deployed, .decommissioned => true
  | .returned, .decommissioned => true
  | .deployed, .returned => true
  | _, _ => false

/-- Every entry has been acknowledged as exported, but for the two that no acknowledgment can cover: the last one that it may name,
and its own record (R510, R518, log 84). -/
def State.allAcked (s : State) : Bool :=
  s.unexported = 0 || (s.unexported ≤ 2 && (match s.crt.itin.entries with
    | e :: _ => e.code = 0x0C04
    | [] => false))

/-- The further conditions of R491. -/
def State.lcReady (s : State) (new : LcState) : Bool :=
  match new with
  | .deployed => s.crt.certDone
  | .returned => !s.anyPart && s.allAcked
  | _ => true

/-- Steps 1 to 4 of R492. -/
def State.lcChange (s : State) (k : Kci) (new : LcState) : State :=
  let old := s.crt.lc
  let s := (s.itinGap.itinRecord 0x0006 none k.src.code .ok (leBytes 8 (lcCode old) ++ leBytes 8 (lcCode new)) []).checkpoint
  let s := if new = .decommissioned then s.setCrt { s.crt with keyGone := true, wrapped := none } else s
  (s.setCrt { s.crt with lc := new, arm := none, changing := some (old, new) }).wipe 2

def State.lcTransition (s : State) (k : Kci) (target : LcState) (challenge : List Byte) : KRes :=
  KRes.check s [k.denied, (s.tampered, .tampered), (!lcNext s.crt.lc target || !s.lcReady target, .lcState)] (fun _ =>
    let good := match s.crt.arm with
      | some a => a.target = target && a.challenge = challenge && decide (s.now < a.at_ + 10 * 1875000000)
      | none => false
    if good && s.itinFull then .fail s .noResources
    else if good then { st := s.lcChange k target, keys := [0] }
    else { st := s.setCrt { s.crt with arm := none }, status := .badOperand })

def execLcTransition (k : Kci) (target : LcState) (challenge : List Byte) (s : State) : Host.Outcome State Fault Refusal :=
  .next (kciRun 0x0114 k s (fun s => s.lcTransition k target challenge) (records := false))

/-- Steps 5 and 6 of R492. -/
def State.lcActions (s : State) (new : LcState) : State :=
  let s := if new = .decommissioned || s.tampered then s else s.loadKey
  let s := if new = .returned then
      { s.setCrt { s.crt with settings := none } with stk := { s.stk with mem := [], bad := [], soft := [] } }
    else s
  if new = .returned || new = .decommissioned then
    s.fabricPorts.foldl State.disableSub s
  else s

/-- SECURE_WIPE_DONE: the wipe has ended; `ok`: it read back clean. A transition then goes on to its completion; the key that
TAMPER_CLEAR named meanwhile is loaded now (log 84). -/
def State.wipeDone (s : State) (ok : Bool) : State :=
  if !s.atl.wiping then s
  else
    let s := { s with atl := { s.atl with wiping := false, verifyOk := ok } }
    let s := { s with cmp := { s.cmp with mgmt := { s.cmp.mgmt with key := none } } }
    let s := if ok then s
      else ((s.setCrt { s.crt with suspect := true, stage := .invalid }).notify .wipeVerifyFailed .ok none s.atl.cause 0).moduleFail causeTamper
    match s.crt.changing with
    | none => if s.tampered then s else s.loadKey
    | some (old, new) =>
      let s := (s.setCrt { s.crt with changing := none }).lcActions new
      (s.progress 0x0114 0 (if ok then .ok else .tampered)).notify .lcChanged .ok none (lcCode new) (lcCode old)

def execSecureWipeDone (ok : Bool) (s : State) : Host.Outcome State Fault Refusal := .next (s.wipeDone ok)

/-! ### Tamper (R499, R500) -/

/-- A source 0 to 5 trips. The record holds LATCHED and the readings, 16 bits each (log 69). -/
def State.tamperTrip (s : State) (source : Nat) (readings : List Nat) : State :=
  if 6 ≤ source || s.pwr.state = .off then s
  else
    let set := fun (m : Nat) => if m.testBit source then m else m + 2 ^ source
    let s := s.setCrt { s.crt with latched := set s.crt.latched, live := set s.crt.live, tampers := min 65535 (s.crt.tampers + 1), stage := .invalid }
    let s := s.wipe 1
    let bytes := leBytes 8 s.crt.latched ++ readings.flatMap (leBytes 2)
    let s := s.itinEvent 0x0007 none .ok (padTo 32 0 (bytes.take 32)) (pieces 32 (min 7 (ceilDiv (bytes.length - 32) 32)) (bytes.drop 32))
    let s := s.notify .tamper .tampered none source s.crt.latched
    (s.progress 0x0114 0 .tampered).moduleFail causeTamper

def execTamperTrip (source : Nat) (readings : List Nat) (s : State) : Host.Outcome State Fault Refusal := .next (s.tamperTrip source readings)

/-! ### Attestation (R501 to R503) -/

/-- Lower page and upper pages 00h to 02h of a port's module, 128 bytes each. -/
def Cmis.idPages (c : Cmis) : List Byte :=
  let p := fun (i : Nat) => padTo 256 0 (c.pages.lookD i [])
  (p 0).take 128 ++ (p 0).drop 128 ++ (p 1).drop 128 ++ (p 2).drop 128

/-- The four identity digests (R503). -/
def State.idDigests (s : State) : List Byte :=
  let cages := (s.fab.ports.filter (fun e => e.2.cmis.present)).flatMap (fun e => leBytes 1 e.1 ++ e.2.cmis.idPages)
  let fars := [0, 1].flatMap (fun p => match (s.farPort p).state, (s.farPort p).id with
    | .ready, some i => wordBytes (farIdWords i)
    | _, _ => [])
  shake256 (s.cmp.eeprom.readN 0 8192) ++ shake256 (s.cmp.coldPlate.readN 0 256) ++ shake256 cages ++ shake256 fars

/-- The entry of an image type in the report. -/
def State.imageEntry (s : State) (ty : Nat) : List Byte :=
  match s.crt.active.look ty with
  | some b => leBytes 1 ty ++ leBytes 1 (imgSvn b) ++ [0, 0] ++ padTo 4 0 (imgVersion b) ++ padTo 64 0 (imgMeasure b)
  | none => List.replicate 72 0

/-- Bytes 0x000 to 0x40F of the report. -/
def State.attestBody (s : State) (nonce : List Byte) : List Byte :=
  let i := s.crt.itin
  leBytes 4 1 ++
    leBytes 4 (flag 0 s.dtm.valid + flag 1 (s.cmp.ptp.state = .locked) + flag 2 s.cmp.gen5 + flag 3 s.crt.fallback + flag 4 s.crt.pendStart) ++
    padTo 32 0 nonce ++ padTo 16 0 s.serial ++ padTo 2 0 s.buildCode ++ leBytes 1 (lcCode s.crt.lc) ++ leBytes 1 s.crt.svn ++
    leBytes 2 s.crt.latched ++ leBytes 2 s.crt.tampers ++ leBytes 8 s.timebase ++ leBytes 8 s.ptpTime ++ leBytes 8 (i.next - 1) ++
    leBytes 4 s.dtm.epoch ++ leBytes 4 (i.ckptNext - 1) ++ padTo 64 0 i.chain ++ shake256 s.configRecord ++
    [1, 2, 3, 4, 5, 6].flatMap s.imageEntry ++ s.idDigests ++ s.dtm.drift.flatMap (leBytes 8)

def execAttest (k : Kci) (nonce : List Byte) (dest : Nat) (s : State) : Host.Outcome State Fault Refusal :=
  .next (kciRun 0x0C01 k s (fun s =>
    KRes.check s [(nonce.length ≠ 32, .badOperand), (s.tampered, .tampered), (s.crt.lc = .blank || s.crt.lc = .decommissioned, .lcState)] (fun _ =>
      match s.crt.loaded with
      | none => .fail s .lcState
      | some key =>
        let b := s.attestBody nonce
        { st := s.putHost k dest (b ++ padTo 114 0 (Config.ed448Sign key (ascii "PQ2480-ATTEST") b)) })) (records := false))

/-! ### Restarts of Compass (R486 to R489, R514, R516, R517) -/

def seconds (n : Nat) : Nat := n * 1875000000

/-- Restarts of the last 10 s. -/
def State.recentRestarts (s : State) : Nat := (s.cmp.restarts.filter (fun c => s.now < c + seconds 10)).length

/-- The new MGMT image fails within its first 60 s by restarts, or by 2 s without READY after its start, which is that of an update or a
boot (R516). -/
def State.mgmtFails (s : State) : Bool :=
  match s.crt.mgmtSince with
  | some t => (s.cmp.state = .restarting && 3 ≤ s.recentRestarts && s.now < t + seconds 60) ||
      ((s.cmp.state = .booting || (s.cmp.state = .restarting && s.crt.update)) && t + seconds 2 ≤ s.now)
  | none => false

def State.compassFail (s : State) : State := { s with cmp := { s.cmp with state := .failed } }.moduleFail causeCompass

/-- The Itinerary entry of a restart (R488): the outage so far and the commands run again. -/
def State.restartEntry (s : State) (outage rerun : Nat) : State :=
  s.itinEvent Notice.compassRestart.code none .ok (leBytes 8 0 ++ leBytes 8 (put 31 0 outage + put 63 32 rerun))

/-- The entry of a restart that does not reach READY (R488). -/
def State.restartCut (s : State) : State := s.restartEntry ((s.now - s.cmp.restartAt) / 1875) 0

/-- COMPASS_WATCHDOG: a restart that another one cuts short, or that leaves Compass FAILED, has its entry then (log 26). The third restart within 10 s leaves Compass FAILED, but for a new MGMT image, which falls back. -/
def State.watchdog (s : State) : State :=
  if s.cmp.state ≠ .ready && s.cmp.state ≠ .restarting then s
  else
    let s := if s.cmp.state = .restarting then s.restartCut else s
    let s : State := { s with cmp := { s.cmp with
      restarts := (s.now :: s.cmp.restarts).take 8, wdog := satInc s.cmp.wdog,
      restartAt := if s.cmp.state = .ready then s.now else s.cmp.restartAt, state := .restarting } }
    let s := s.tally 0x148
    if s.recentRestarts < 3 || s.mgmtFails then s else (s.restartEntry 0 0).compassFail

def execCompassWatchdog (cc : Nat) (s : State) : Host.Outcome State Fault Refusal := .next (s.at cc).watchdog

/-- MGMT_FALLBACK: the previous MGMT image starts, where its SVN allows it; otherwise Compass stays FAILED. -/
def State.mgmtFallback (s : State) : State :=
  if !s.mgmtFails then s
  else match s.crt.previous.look 2 with
    | some b =>
      if imgSvn b < s.crt.svn then s.restartCut.compassFail
      else
        let c := s.crt
        let s := s.setCrt { c with active := c.active.put 2 b, previous := c.previous.del 2, fallback := true, mgmtSince := none,
                                   update := false, stage := if c.stage = .activating then .invalid else c.stage }
        let s := { s with cmp := { s.cmp with restarts := [] } }
        (s.notifyRecorded .mgmtFallback .imageInvalid none 0 0).progress 0x0B04 0 .imageInvalid
    | none => s.restartCut.compassFail

def execMgmtFallback (cc : Nat) (s : State) : Host.Outcome State Fault Refusal := .next (s.at cc).mgmtFallback

/-- The digest of the module EEPROM matches (R485). -/
def State.eepromOk (s : State) : Bool := s.cmp.eeprom.readN 0x1FC0 64 = shake256 (s.cmp.eeprom.readN 0 0x1FC0)

/-- The operands that set a single setting of the device to its reset value; an object that a command makes has none (log 19). -/
def settingDefault (opcode : Nat) : Option (List Word) :=
  match opcode with
  | 0x0232 => some [0, 0]
  | 0x0407 => some [15000]
  | 0x0801 => some (List.replicate 179 0 |>.set 178 16 |>.concat 256)
  | 0x0904 => some [31, 0x10]
  | 0x0905 => some [0x20, 3, 1, 8]
  | 0x0A06 => some [0x14, 1]
  | 0x0F10 => some [1, 0x10]
  | _ => none

/-- Configuration commands that Compass applies one by one (R517). -/
def State.applyLater (s : State) (es : List ConfigEntry) : State := { s with cmp := { s.cmp with toApply := s.cmp.toApply ++ es } }

/-- The MGMT image starts: it applies the stored settings that are of its format (R517). -/
def State.startSettings (s : State) : State :=
  match s.crt.settings with
  | some (_, es) => s.applyLater (es.map (fun e => ⟨e.1, e.2⟩))
  | none => s

/-- The stored settings against the format that the MGMT image reads (R517): kept, or erased, each setting reset to its default, with a
notice and a record. -/
def State.checkSettings (s : State) : State :=
  match s.crt.settings with
  | none => s
  | some (fmt, es) =>
    if fmt = s.settingsFmt then s
    else
      let s := (s.setCrt { s.crt with settings := none }).applyLater (es.filterMap (fun e => (settingDefault e.1).map (fun ws => ⟨e.1, ws⟩)))
      (s.notify .settingsReset .ok none fmt s.settingsFmt).itinEvent 0x000A none .ok (leBytes 8 fmt ++ leBytes 8 s.settingsFmt)

/-- Stops that a FAILED module or a DOWN die still owes its partitions (R526). -/
def State.owedStops (s : State) : State :=
  if s.flt.cause ≠ 0 then s.partStopAll s.partList
  else s.partStopAll (s.partList.filter (fun p => s.flt.downDies.any (fun d => s.partOnDie d p)))

/-- Compass is READY after a restart (R487, R489). -/
def State.restartDone (s : State) : State :=
  let rerun := (s.cmp.inflight.filter (fun r => r.stage = .waiting)).length
  let outage := (s.now - s.cmp.restartAt) / 1875
  let held := s.cmp.upHeld
  let update := s.crt.update
  let owed := s.cmp.inflight.map (fun r => { r with old := decide (r.stage = .waiting || r.stage = .done) })
  let s := { s with cmp := { s.cmp with state := .ready, upHeld := [], inflight := owed } }
  let ws := noticeWords .compassRestart .ok none 0 (put 31 0 outage + put 63 32 rerun) s.timebase
  let s := ((List.range 64).map (· + 1)).foldl (fun s v => if (s.fn v).rings then s.postNotice v ws else s) (s.deliver ws)
  let s := s.restartEntry outage rerun
  let s := [0, 1, 2, 3].foldl State.quadFlush (held.foldl State.deliver s)
  let s := if update then
      let s := s.imageActive (s.crt.active.lookD 2 [])
      (s.setCrt ({ s.crt with update := false }.unstage)).progress 0x0B04 0
    else s
  let s := if s.eepromOk then s
    else { s with cmp := { s.cmp with idFault := true } }.notifyRecorded .eepromDigest .ok none 0 0
  s.checkSettings.startSettings.owedStops

/-- The SYSTEM regions of R409, three a die. -/
def State.systemRegions (s : State) : State :=
  ((List.range 4).flatMap (fun d => [0, 1, 2].map (fun i => (d, i)))).foldl (fun (s : State) (e : Nat × Nat) =>
    s.systemRegion (s.trvDie e.1).spill e.1 e.2) s

/-- Compass is READY after a reset (R475, R517, R548, R558). -/
def State.bootDone (s : State) : State :=
  let s := { s with cmp := { s.cmp with state := .ready } }
  let s := s.systemRegions.checkSettings.startSettings
  let s := if s.pwr.emergency then
      { s with pwr := { s.pwr with emergency := false } }.notify .railFault .ok none s.pwr.lastOff 0
    else s
  s.owedStops

def execCompassReady (cc : Nat) (s : State) : Host.Outcome State Fault Refusal :=
  .next (let s := s.at cc
    match s.cmp.state with
    | .booting => if s.pwr.state = .on && !s.pwr.inReset && !s.mgmtFails then s.bootDone else s
    | .restarting => if s.mgmtFails then s else s.restartDone
    | _ => s)

end Sys2Proof.Machine
end

