-- ==== Sys2Proof/Machine/Reset.lean ====
section
/-! DEFINITION. The resets of the module and the end of a cold reset (R95, R421, R447, R448, R493, R509, R514, R525, R526, R552, R553, R558). -/

namespace Sys2Proof.Machine

/-! ### What a reset takes -/

/-- Every tile as a reset of its die leaves it: RESET, its banks zeroed; UNAVAILABLE tiles stay so. -/
def State.resetTiles (s : State) : SMap Tile :=
  (List.range 1024).map (fun t => (t, { state := if (s.tile t).state = .unavailable then .unavailable else .reset, resetAt := s.now + 64, cycle0 := s.now }))

/-- The repair state of stacked memory, which lies in the repair log (R418 to R421). -/
def Stk.repairs (x : Stk) : Stk :=
  { rows := x.rows, retired := x.retired, pprUsed := x.pprUsed, next := x.next,
    pchs := x.pchs.map (fun (e : Nat × Pch) => (e.1, { due := e.2.due, spares := e.2.spares })) }

/-- The quadrant dies: tiles, Meridian, Confluence, Gazetteer, Bearing, Traverse, Contour, Sheet, Plat, surveyors, quadrant-die
banks. A bridge keeps the lanes that failed; a cage keeps its module (log 71). -/
def State.quadReset (s : State) : State :=
  let ports := s.fab.ports.map (fun (e : Nat × PhysPort) => (e.1, { cmis := e.2.cmis }))
  let banks := s.atl.banks
  { s with
    grid := { s.grid with tiles := s.resetTiles, mesh := [] }, mer := {}, cfl := {}, gaz := {}, sht := {}, plt := {},
    lay := { bridges := s.lay.bridges.map (fun (e : Nat × Bridge) => (e.1, { e.2 with retries := 0 })) },
    fab := { ports := ports, slot0 := s.fab.slot0, next := s.fab.next, swaps := s.fab.swaps },
    atl := { banks := banks, fault := { s.atl.fault with valid := false }, wipes := s.atl.wipes, cause := s.atl.cause, wiping := s.atl.wiping, verifyOk := s.atl.verifyOk },
    flt := { s.flt with downDies := [], linkLoss := 0, uncorr := 0, teardowns := 0 } }

/-- Loses the Itinerary entries that are not durable: the next entry chains on from the last durable one (R509). -/
def State.itinLoss (s : State) : State :=
  let i := s.crt.itin
  if i.next ≤ i.durable then s
  else
    let es := i.entries.filter (fun e => e.seq < i.durable)
    let chain := match es with
      | e :: _ => e.chain
      | [] => shake256 (ascii "PQ2480-ITIN" ++ s.crt.pubKey)
    s.setCrt { s.crt with itin := { i with entries := es, next := i.durable, chain := chain, acked := min i.acked i.durable,
                                           since := (es.takeWhile (fun e => e.code ≠ 2)).length } }

/-- What a cold reset, or the loss of every rail but VSB, takes: all but flash, fuses, EEPROM, PWR_STATUS and the straps. A
FW_ACTIVATE of a MGMT image is undone, and its image stays pending (R514); one that copies has changed no slot. CRT_ITIN_CKPT.SINCE takes
its reset value (R520). -/
def State.volatileLoss (s : State) : State :=
  let s := s.quadReset
  let p := s.pwr
  let c := s.crt
  let c := if c.copying && c.stage = .activating then { c with stage := .verified } else c
  let c := if c.update then
      { c.unstage with
               pendStart := true
               pending := match c.active.look 2 with
                 | some b => c.pending.put 2 b
                 | none => c.pending
               active := match c.previous.look 2 with
                 | some b => c.active.put 2 b
                 | none => c.active.del 2
               previous := c.previous.del 2 }
    else c
  { s with
    fab := { s.fab with swaps := 0 },
    cmp := { eeprom := s.cmp.eeprom, coldPlate := s.cmp.coldPlate, idFault := s.cmp.idFault },
    dtm := { tbZero := s.dtm.tbZero }, far := {}, stk := s.stk.repairs,
    atl := { s.atl with fault := {}, wipes := 0, cause := 0, wiping := false, verifyOk := false },
    flt := { faultMap := s.flt.faultMap },
    crt := { c with loaded := none, arm := none, fallback := false, mgmtSince := none, copying := false, update := false,
                    itin := { c.itin with since := 0 } },
    pwr := { state := p.state, since := p.since, lastReset := p.lastReset, lastOff := p.lastOff, pwrEn := p.pwrEn, pwrGood := p.pwrGood,
             faultN := p.faultN, lowSince := p.lowSince, emergency := p.emergency, straps := p.straps, eepromBad := p.eepromBad,
             coldAt := p.coldAt, inReset := p.inReset, resetKind := p.resetKind } }

/-! ### Beginnings -/

/-- A cold reset begins: kind 1 by RESET_N, 2 by PWR_RESET. -/
def State.coldBegin (s : State) (kind : Nat) : State :=
  { s with pwr := { s.pwr with inReset := true, resetKind := kind, coldAt := none } }.itinLoss.volatileLoss

/-- A PWR_RESET COLD begins once its 10 ms are over (R553). -/
def State.coldDue (s : State) : State :=
  match s.pwr.coldAt with
  | some c => if c ≤ s.now && s.pwr.state = .on then s.coldBegin 2 else s
  | none => s

/-- 30 ms (R547). -/
def downTime : Nat := 56250000

/-- A normal power-down ends in STANDBY. -/
def State.pwrSettle (s : State) : State :=
  if s.pwr.state = .poweringDown && s.pwr.since + downTime ≤ s.now then
    { s with pwr := { s.pwr with state := .standby, since := s.now, inReset := false, coldAt := none } }.itinLoss.volatileLoss
  else s

/-! ### DEGRADED banks at a reset (R448, R525, R526) -/

/-- A pool without the buffers [lo, hi). -/
def State.poolShrink (s : State) (d p lo hi : Nat) : State :=
  let x := s.pool d p
  let lo := min lo (poolReset p).total
  let hi := min hi (poolReset p).total
  if hi ≤ lo then s else s.setPool d p { x with total := x.total - (hi - lo), ring := cutRange lo hi x.ring, bad := x.bad ++ [(lo, hi)] }

/-- Where the cells of each pool begin in the cell-buffer banks of a die, 1,024 cells a bank (log 72). -/
def cellPools : List (Nat × Nat) := [(0, 0), (1, 65536), (2, 196608), (3, 212992), (4, 229376), (5, 237568)]

/-- The consequences of one DEGRADED bank. -/
def State.bankDegraded (s : State) (b : Nat) : State :=
  let d := bankDie b
  let i := bankIndex b
  match bankKind b with
  | 1 => cellPools.foldl (fun (s : State) (e : Nat × Nat) => s.poolShrink d e.1 (1024 * i - e.2) (1024 * (i + 1) - e.2)) s
  | 2 => s.poolShrink d poolCollation (64 * i) (64 * (i + 1))
  | 4 => s.dieDown d
  | 5 => s.moduleFail causeHub
  | 6 => s.moduleFail causeHub
  | _ => s

def State.degradedBanks (s : State) : State := ((s.atl.banks.filter (fun e => e.2.degraded)).map (·.1)).foldl State.bankDegraded s

/-- A bridge or hub link that lost more lanes than it has spares. -/
def Bridge.broken (b : Bridge) : Bool := 4 < b.first.length || 4 < b.second.length

/-! ### Warm reset (R552, R553) -/

/-- What a warm reset leaves: contents and training of stacks, the whole DTM window, Compass, host link, hub banks, Itinerary.
Commands that waited for something in the quadrant dies end with ABORTED, but for tile resets (log 71). -/
def State.warmReset (s : State) : State :=
  let k := s.stk
  let p := s.pwr
  let s := s.quadReset
  let s := { s with
    stk := { k.repairs with trained := k.trained, channels := k.channels, mem := k.mem, bad := k.bad, soft := k.soft, oldBad := k.oldBad,
                            uses := k.uses, eccAddr := k.eccAddr, bringup := k.bringup },
    far := { s.far with poison := 0, lost := 0, downs := 0 },
    pwr := { p with lastReset := 3, latched := 0, railSel := 0, tempSel := 0, warnCount := 0 },
    cmp := { s.cmp with mgmtDrops := 0, wdog := 0, hostDrops := 0, toApply := s.configEntries,
                        fns := s.cmp.fns.map (fun (e : Nat × FnState) => (e.1, { e.2 with
                          cmdTail := 0, evtHead := 0, mboxCmd := List.replicate 8 0, merSel := 0, cflSel := 0, gazSel := 0 })),
                        dmaq := s.cmp.dmaq.map (fun (e : Nat × DmaQueue) => (e.1, { e.2 with tail := 0 })) } }
  let s := s.setInflight (s.cmp.inflight.map (fun r => match r.stage with
    | .running _ => if r.opcode = 0x0501 || r.opcode = 0x0114 || r.opcode = 0x0B04 then r else { r with stage := .done, status := .aborted }
    | _ => r))
  let s := [0, 1, 2, 3].foldl State.atlasReset s
  (s.systemRegions).degradedBanks

/-! ### The end of a cold reset (R514, R552, R558) -/

/-- The move of one pending image: it must still pass the checks of R513; otherwise the active image stays. -/
def State.moveImage (s : State) (e : Nat × List Byte) : State :=
  let c := s.crt
  let s := s.setCrt { c with pending := c.pending.del e.1 }
  if imgSvn e.2 < c.svn || !s.imgSigOk e.2 then
    s.notify .imageMoveFailed (if imgSvn e.2 < c.svn then .rollback else .sigInvalid) none e.1 (imgSvn e.2)
  else
    let c := s.crt
    let s := s.setCrt { c with active := c.active.put e.1 e.2,
                               previous := match e.1, c.active.look 2 with
                                 | 2, some a => c.previous.put 2 a
                                 | _, _ => c.previous,
                               mgmtSince := if e.1 = 2 then some s.now else c.mgmtSince }
    s.imageActive e.2

/-- A RESUME record (R506, R509; log 70): life-cycle state, last durable SEQ, LATCHED, and the six active versions. -/
def State.resume (s : State) : State :=
  let versions := [1, 2, 3, 4, 5, 6].flatMap (fun ty => padTo 4 0 (match s.crt.active.look ty with
    | some b => imgVersion b
    | none => []))
  s.itinEvent 0x0004 none .ok (leBytes 8 (lcCode s.crt.lc) ++ leBytes 8 (s.crt.itin.durable - 1) ++ leBytes 8 s.crt.latched) [padTo 32 0 versions]

/-- The identity key is loaded again, unless R493 or R500 keeps it out; a transition that was cut off is completed. -/
def State.loadAtStart (s : State) : State :=
  match s.crt.changing with
  | some (old, new) => ((s.setCrt { s.crt with changing := none }).lcActions new).notify .lcChanged .ok none (lcCode new) (lcCode old)
  | none => if s.tampered || s.crt.lc = .blank then s else s.loadKey

/-- COLD_RESET_END: the end of a cold reset or of the power-up sequence. `up`: power-up. -/
def State.coldEnd (s : State) (up : Bool) : State :=
  let kind := if up then 0 else s.pwr.resetKind
  let s := s.volatileLoss
  let s := { s with pwr := { s.pwr with state := .on, since := s.now, lastReset := kind, pwrGood := true, inReset := false, resetKind := 0, coldAt := none },
                    dtm := { s.dtm with tbZero := s.now }, fab := { s.fab with slot0 := s.now },
                    cmp := { s.cmp with idFault := !up && s.cmp.idFault } }
  let s := if s.crt.lc = .blank then s else s.resume
  let s := s.crt.pending.foldl State.moveImage s
  let s := (s.setCrt { s.crt with pendStart := false }).loadAtStart
  let s := (List.range 24).foldl State.stackReset s
  let s := (List.range 5).foldl State.atlasReset (if up then s.fusesLost else s)
  let s := (List.range 4).foldl (fun s d => s.applyShift d (s.startShift d)) s
  let s := s.degradedBanks
  let s := if s.lay.bridges.any (fun e => e.2.broken) then s.moduleFail causeBridge else s
  if s.crt.live = 0 then s else (s.notify .tamper .tampered none s.crt.live s.crt.latched).moduleFail causeTamper

/-- COLD_RESET_END has no effect unless a cold reset or the power-up sequence is in progress. -/
def execColdResetEnd (cc : Nat) (s : State) : Host.Outcome State Fault Refusal :=
  .next (let s := (s.at cc).pwrSettle.coldDue
    if s.pwr.state = .ramping then s.coldEnd true
    else if s.pwr.state = .on && s.pwr.inReset then s.coldEnd false
    else s)

end Sys2Proof.Machine
end

