-- ==== Sys2Proof/Machine/Power.lean ====
section
/-! DEFINITION. The power module: sequences, alarms, trips, commands, the BMC link (R484, R541, R543 to R548, R553, R555, R557 to R560). -/

namespace Sys2Proof.Machine

/-! ### Readings (R543, R555, R561) -/

/-- Nominal voltage of rail n in mV. -/
def railNominal (n : Nat) : Nat :=
  if n < 28 then nth [750, 800, 900, 1200, 1800, 1050, 700] (n % 7) 0 else nth [750, 1800, 3300] (n - 28) 0

def railOff (n mv : Nat) : Nat := if railNominal n ≤ mv then mv - railNominal n else railNominal n - mv

/-- The deviation of a rail is within, or at least, a percentage of nominal. -/
def railWithin (n mv percent : Nat) : Bool := 100 * railOff n mv ≤ percent * railNominal n

/-- The core and hub supplies that Cartouche watches (R499, R544). -/
def railWatched (n : Nat) : Bool := (n < 28 && n % 7 = 0) || n = 28

/-- PWR_RAIL_STATE of a rail. -/
def railWord (x : Rail) : Word := wd (put 15 0 x.mv + put 31 16 x.amps + flag 32 x.pgood + flag 33 x.warn)

/-- WARN and TRIP of a sensor in 0.125 °C: dies and hub die, then stacks. -/
def sensorWarn (i : Nat) : Int := if i < 34 then 800 else 760
def sensorTrip (i : Nat) : Int := if i < 34 then 920 else 840

/-- PWR_TEMP of a sensor. -/
def sensorWord (i : Nat) (x : Sensor) : Word := wd (unsign 16 x.temp + flag 16 (sensorWarn i ≤ x.temp))

def Power.rail (p : Power) (n : Nat) : Rail := p.rails.lookD n {}
def Power.sensor (p : Power) (i : Nat) : Sensor := p.temps.lookD i {}
def Power.inputWord (p : Power) : Word := wd (put 15 0 p.volt + put 31 16 p.curr + put 47 32 p.power)
def Power.alarmWord (p : Power) : Word := wd (put 15 0 p.live + put 31 16 p.latched)
def Power.coolantWord (p : Power) : Word :=
  wd (unsign 16 p.inlet + 2 ^ 16 * unsign 16 p.outlet + flag 32 p.leak + flag 33 (p.live.testBit 6))

def pwrCode : PwrState → Nat
  | .off => 0
  | .standby => 1
  | .ramping => 2
  | .on => 3
  | .poweringDown => 4

def Power.statusWord (p : Power) : Word := wd (pwrCode p.state + put 9 8 p.lastReset + put 15 12 p.lastOff)

/-- The 58 sensor readings, 16 bits each, for the TAMPER record (log 69). -/
def State.readings (s : State) : List Nat := (List.range 58).map (fun i => unsign 16 (s.pwr.sensor i).temp)

def State.setPwr (s : State) (p : Power) : State := { s with pwr := p }

/-! ### Alarms (R555, R560, R561) -/

def alarmInputLow : Nat := 0
def alarmInputHigh : Nat := 1
def alarmOverpower : Nat := 2
def alarmDie : Nat := 3
def alarmStack : Nat := 4
def alarmInlet : Nat := 5
def alarmLowFlow : Nat := 6
def alarmRail : Nat := 7

/-- A LIVE bit follows its condition; when it sets, LATCHED sets and POWER_ALARM is raised, COOLANT_ALARM for LOW_FLOW. -/
def State.alarm (s : State) (i : Nat) (on : Bool) : State :=
  let p := s.pwr
  if p.live.testBit i = on then s
  else if on then
    let s := s.setPwr { p with live := p.live + 2 ^ i, latched := if p.latched.testBit i then p.latched else p.latched + 2 ^ i }
    let s := s.w1cSet 0x1B010 (2 ^ (16 + i))
    s.notify (if i = alarmLowFlow then .coolantAlarm else .powerAlarm) .ok none i s.pwr.live
  else s.setPwr { p with live := p.live - 2 ^ i }

/-! ### Power-down (R547, R548) -/

/-- Steps 1 to 3 of a normal power-down by PWR_EN (1) or PWR_OFF (2). -/
def State.powerDown (s : State) (cause : Nat) : State :=
  let s := s.setPwr { s.pwr with pwrGood := false }
  let s := s.notify .powerDown .ok none cause 0
  let s := (s.partStopAll s.partList).fenceList s.fabricPorts
  let s := s.setCrt { s.crt with itin := { s.crt.itin with durable := s.crt.itin.next } }
  s.setPwr { s.pwr with state := .poweringDown, since := s.now, lastOff := cause, coldAt := none }

/-- The rails are on, or ramping. -/
def State.powered (s : State) : Bool := s.pwr.state = .on || s.pwr.state = .ramping || s.pwr.state = .poweringDown

/-- An emergency power-down: nothing is flushed, and FAULT_N goes low. -/
def State.emergency (s : State) (cause : Nat) : State :=
  if !s.powered then s
  else
    (s.setPwr { s.pwr with state := .standby, since := s.now, pwrGood := false, faultN := false, lastOff := cause, emergency := true,
                           inReset := false, coldAt := none }).itinLoss.volatileLoss

/-! ### Sequences (R545, R546) -/

/-- VSB_START: straps [0] BMC_BUS_SEL, [3:1] BMC_ADDR, [4] PCIE_SRIS (log 73); the lid switch; the EEPROM digest. -/
def State.vsbStart (s : State) (straps : Nat) (lidOpen : Bool) : State :=
  if s.pwr.state ≠ .off then s
  else
    let s := s.setPwr { state := .standby, since := s.now, pwrEn := s.pwr.pwrEn, pwrGood := false,
                        straps := { i3c := straps.testBit 0, addr := fld straps 3 1, sris := straps.testBit 4 }, eepromBad := !s.eepromOk }
    let s := s.setCrt { s.crt with live := 0 }
    if lidOpen then s.tamperTrip 0 s.readings else s

def execVsbStart (straps : Nat) (lidOpen : Bool) (cc : Nat) (s : State) : Host.Outcome State Fault Refusal :=
  .next ((s.at cc).vsbStart straps lidOpen)

/-- 100 ms (R548). -/
def lowTime : Nat := 187500000

/-- PWR_EN_RISE: ignored outside STANDBY, after a failed EEPROM digest, and after an emergency power-down unless PWR_EN was low
for 100 ms. -/
def State.pwrEnRise (s : State) : State :=
  let s := s.pwrSettle
  let p := { s.pwr with pwrEn := true, lowSince := none }
  let rested := match s.pwr.lowSince with
    | some c => decide (c + lowTime ≤ s.now)
    | none => false
  if p.state ≠ .standby || p.eepromBad || (!p.faultN && !rested) then s.setPwr p
  else s.setPwr { p with state := .ramping, since := s.now, faultN := true }

def execPwrEnRise (cc : Nat) (s : State) : Host.Outcome State Fault Refusal := .next (s.at cc).pwrEnRise

/-- PWR_EN_FALL: the normal power-down, from the step reached. -/
def State.pwrEnFall (s : State) : State :=
  let s := s.pwrSettle
  let s := s.setPwr { s.pwr with pwrEn := false, lowSince := some s.now }
  match s.pwr.state with
  | .on => s.powerDown 1
  | .ramping => s.setPwr { s.pwr with state := .poweringDown, since := s.now, lastOff := 1 }
  | _ => s

def execPwrEnFall (cc : Nat) (s : State) : Host.Outcome State Fault Refusal := .next (s.at cc).pwrEnFall

def execRailTimeout (rail cc : Nat) (s : State) : Host.Outcome State Fault Refusal :=
  .next (let s := s.at cc
    if s.pwr.state = .ramping && rail < 30 then s.emergency 6 else s)

/-! ### Excursions (R541, R544) -/

/-- A reading outside ±10 % of nominal (R499). -/
def railFar (rail mv : Nat) : Bool := 10 * railNominal rail < 100 * railOff rail mv

/-- A core or hub supply reads outside ±10 % of nominal now: the source VOLT (R499). -/
def State.voltOut (s : State) : Bool := s.pwr.rails.any (fun e => railWatched e.1 && railFar e.1 e.2.mv)

/-- RAIL_EXCURSION: the reading; `ev` says which of the times of R544 has passed. A tamper trip comes first. -/
def State.railExcursion (s : State) (rail mv amps : Nat) (ev : RailEvent) : State :=
  if 31 ≤ rail then s
  else
    let s := s.setPwr { s.pwr with rails := s.pwr.rails.put rail { mv := mv, amps := amps, pgood := railWithin rail mv 5, warn := !railWithin rail mv 3 } }
    let s := s.alarm alarmRail (s.pwr.rails.any (fun e => e.2.warn))
    let s := if s.voltOut then s else s.setCrt { s.crt with live := s.crt.live - flag 2 (s.crt.live.testBit 2) }
    let s := if ev ≠ .warn && railWatched rail && railFar rail mv && !s.crt.live.testBit 2 then s.tamperTrip 2 s.readings else s
    if ev = .fault && !railWithin rail mv 5 then s.emergency 6 else s

def execRailExcursion (rail mv amps : Nat) (ev : RailEvent) (s : State) : Host.Outcome State Fault Refusal :=
  .next (s.railExcursion rail mv amps ev)

/-- INPUT_EXCURSION: readings in 10 mV, 10 mA, W. A reading of 0 V after a low input is the loss of the input (log 73). -/
def State.inputExcursion (s : State) (ev : InputEvent) (volt curr power : Nat) : State :=
  let s := s.setPwr { s.pwr with volt := volt % 65536, curr := curr % 65536, power := power % 65536 }
  let s := s.alarm alarmInputLow (volt < 5000)
  let s := s.alarm alarmInputHigh (5950 < volt)
  let s := s.alarm alarmOverpower (3000 < power)
  match ev with
  | .lowOff =>
    let s := s.emergency 3
    if volt = 0 then s.setPwr { s.pwr with state := .off, since := s.now } else s
  | .highOff => s.emergency 4
  | .overpowerOff => s.emergency 5
  | _ => s

def execInputExcursion (ev : InputEvent) (volt curr power : Nat) (s : State) : Host.Outcome State Fault Refusal :=
  .next (s.inputExcursion ev volt curr power)

/-! ### Sensors (R499, R555) -/

/-- One sensor of a sample: a new episode counts and raises THERMAL_WARN; it ends 5 K below WARN. -/
def State.sensorTake (s : State) (e : Nat × Int) : State :=
  let x := s.pwr.sensor e.1
  let warn := if x.warn then decide (sensorWarn e.1 - 40 < e.2) else decide (sensorWarn e.1 ≤ e.2)
  let p := s.pwr
  let s := s.setPwr { p with
    temps := p.temps.put e.1 { temp := e.2, warn := warn, trips := if sensorTrip e.1 ≤ e.2 then min 3 (x.trips + 1) else 0 },
    warnCount := if warn && !x.warn then satInc p.warnCount else p.warnCount }
  if warn && !x.warn then (s.tally 0x1B040).notify .thermalWarn .ok none e.1 (unsign 16 e.2) else s

/-- The inlet: its WARN episode is the alarm bit; the sensor number in the notice is 58. -/
def State.inletTake (s : State) (t : Int) : State :=
  let p := s.pwr
  let was := p.live.testBit alarmInlet
  let warn := if was then decide (360 - 40 < t) else decide (360 ≤ t)
  let s := s.setPwr { p with inlet := t, inletTrips := if 440 ≤ t then min 3 (p.inletTrips + 1) else 0,
                             warnCount := if warn && !was then satInc p.warnCount else p.warnCount }
  let s := s.alarm alarmInlet warn
  if warn && !was then (s.tally 0x1B040).notify .thermalWarn .ok none 58 (unsign 16 t) else s

/-- LOW_FLOW: outlet minus inlet above power / 170 W/K for 1 s. -/
def State.flowTake (s : State) (outlet : Int) : State :=
  let p := s.pwr
  let hot : Bool := decide ((8 * p.power : Int) < 170 * (outlet - p.inlet))
  let since := if hot then some (p.flowSince.getD s.now) else none
  let s := s.setPwr { p with outlet := outlet, flowSince := since }
  s.alarm alarmLowFlow (match since with
    | some c => decide (c + 1875000000 ≤ s.now)
    | none => false)

/-- The temperature sources of R499 follow the die sensors, and VOLT a rail that reads out. No row tells that the lid, the mesh, the clock
or a supply without a reading is clear again: whether each still reads tripped at a sample is a free value (log 69). -/
def State.tamperTake (s : State) : State :=
  let dies := (List.range 34).map (fun i => (s.pwr.sensor i).temp)
  let high := dies.any (1000 < ·)
  let low := dies.any (· < -200)
  let was := s.crt.live
  let v := Config.freeNat s.free
  let s := { s with free := s.free + 1 }
  let still := fun (i : Nat) => flag i (was.testBit i && (v.testBit i || (i = 2 && s.voltOut)))
  let s := s.setCrt { s.crt with live := still 0 + still 1 + still 2 + still 3 + flag 4 (high && was.testBit 4) + flag 5 (low && was.testBit 5) }
  let s := if high && !was.testBit 4 then s.tamperTrip 4 s.readings else s
  if low && !was.testBit 5 then s.tamperTrip 5 s.readings else s

/-- SENSOR_SAMPLE. -/
def State.sensorSample (s : State) (temps : List Int) (inlet outlet : Int) (wet : Bool) : State :=
  let s := ((List.range 58).zip temps).foldl State.sensorTake s
  let warm := fun (s : State) (lo hi : Nat) => s.pwr.temps.any (fun e => lo ≤ e.1 && e.1 < hi && e.2.warn)
  let s := s.alarm alarmDie (warm s 0 34)
  let s := s.alarm alarmStack (warm s 34 58)
  let s := (s.inletTake inlet).flowTake outlet
  let s := s.setPwr { s.pwr with leak := wet, leakTrips := if wet then min 3 (s.pwr.leakTrips + 1) else 0 }
  let s := s.tamperTake
  if s.pwr.temps.any (fun e => 3 ≤ e.2.trips) || 3 ≤ s.pwr.inletTrips then s.emergency 7
  else if 3 ≤ s.pwr.leakTrips then s.emergency 8
  else s

def execSensorSample (temps : List Int) (inlet outlet : Int) (wet : Bool) (cc : Nat) (s : State) : Host.Outcome State Fault Refusal :=
  .next (let s := s.at cc
    if s.pwr.state = .off then s else s.sensorSample temps inlet outlet wet)

/-! ### Resets (R552) -/

/-- RESET_N_ASSERT: ignored until PWR_GOOD is asserted. -/
def execResetNAssert (cc : Nat) (s : State) : Host.Outcome State Fault Refusal :=
  .next (let s := s.at cc
    if s.pwr.pwrGood && s.pwr.state = .on then s.coldBegin 1 else s)

/-! ### Commands (R553, R559) -/

/-- 10 ms (R553). -/
def coldDelay : Nat := 18750000

/-- PWR_QUERY: PWR_INPUT, the rails, the sensors, PWR_COOLANT, PWR_ALARM, one word each. -/
def Power.report (p : Power) : List Word :=
  p.inputWord :: (List.range 31).map (fun n => railWord (p.rail n)) ++ (List.range 58).map (fun i => sensorWord i (p.sensor i)) ++
    [p.coolantWord, p.alarmWord]

def execPwrQuery (k : Kci) (dest : Nat) (s : State) : Host.Outcome State Fault Refusal :=
  .next (kciRun 0x0E02 k s (fun s => KRes.check s [k.denied] (fun _ => { st := s.putHost k dest (wordBytes s.pwr.report) })) (records := false))

/-- The Itinerary entry that PWR_RESET and PWR_OFF add before they act. -/
def State.powerRecord (s : State) (k : Kci) (opcode : Nat) : State := s.itinCommand opcode k.acts k.src.code .ok k.words []

def execPwrReset (k : Kci) (cold : Bool) (s : State) : Host.Outcome State Fault Refusal :=
  .next (kciRun 0x0E03 k s (fun s =>
    KRes.check s [k.denied, (!cold && s.anyPart, .partState), (s.itinFull, .noResources)] (fun _ =>
      let s := s.powerRecord k 0x0E03
      if cold then { st := s.setPwr { s.pwr with coldAt := some (s.pwr.coldAt.getD (s.now + coldDelay)) } }
      else { st := s.warmReset })) (records := false))

def execPwrOff (k : Kci) (s : State) : Host.Outcome State Fault Refusal :=
  .next (kciRun 0x0E04 k s (fun s =>
    KRes.check s [k.denied, (s.itinFull, .noResources)] (fun _ => { st := (s.powerRecord k 0x0E04).powerDown 2 })) (records := false))

/-! ### The BMC link (R484, R557) -/

def compassCode : CompassState → Nat
  | .booting => 0
  | .ready => 1
  | .restarting => 2
  | .failed => 3

/-- The answer to a command code; none: NACK. -/
def State.bmcAnswer (s : State) (code : Nat) : Option (List Byte) :=
  let p := s.pwr
  match code with
  | 1 => some (padTo 16 0 s.partNumber ++ padTo 2 0 s.buildCode ++ padTo 16 0 s.serial)
  | 2 => some (leBytes 1 (if p.state = .standby then 0 else compassCode s.cmp.state) ++ leBytes 1 (lcCode s.crt.lc) ++ leBytes 2 p.live ++
      leBytes 1 (flag 0 p.eepromBad) ++ [0, 0, 0])
  | 3 => some (wordBytes [p.inputWord])
  | 4 => some (wordBytes ((List.range 31).map (fun n => railWord (p.rail n))))
  | 5 => some ((List.range 58).flatMap (fun i => leBytes 2 (unsign 16 (p.sensor i).temp)))
  | 6 => some (wordBytes [p.coolantWord])
  | _ => none

/-- BMC_READ: without VSB nothing answers. -/
def execBmcRead (code : Nat) (s : State) : Host.Outcome State Fault Refusal :=
  .next (if s.pwr.state = .off then s else s.emit (.bmc (s.bmcAnswer code)))

end Sys2Proof.Machine
end

