-- ==== Sys2Proof/Machine/KciDecode.lean ====
section
/-! DEFINITION. Reading a KCI descriptor (R468, R562): the command that an opcode and its operand words spell. -/

namespace Sys2Proof.Machine

/-! ### Readers: the operand words still to come, and the host memory that addresses name -/

abbrev Rd := StateT (List Word) (ReaderT Memory Option)

/-- One operand word, little-endian already (R562). -/
def rdWord : Rd Word := do
  match ← get with
  | [] => failure
  | w :: r =>
    set r
    pure w

/-- A number, identifier, count, size, offset, index or address (R562). -/
def rdNum : Rd Nat := do pure (← rdWord).toNat

/-- A choice, by its position in the list in which the manual names the values (R562). -/
def rdChoice {α : Type} (l : List α) : Rd α := do
  match l[← rdNum]? with
  | some x => pure x
  | none => failure

/-- A flag: 0 or 1 (R562). -/
def rdFlag : Rd Bool := rdChoice [false, true]

/-- n consecutive words of an operand that has a layout of its own. -/
def rdWords : Nat → Rd (List Word)
  | 0 => pure []
  | n + 1 => do
    let w ← rdWord
    pure (w :: (← rdWords n))

/-- n operands of one kind. -/
def rdMany {α : Type} (x : Rd α) : Nat → Rd (List α)
  | 0 => pure []
  | n + 1 => do
    let a ← x
    pure (a :: (← rdMany x n))

/-- Reads n words at a host address with a reader that must use them all. -/
def rdAt {α : Type} (addr n : Nat) (x : Rd α) : Rd α := do
  let m ← read
  match (x.run (m.words addr n)).run m with
  | some (v, []) => pure v
  | _ => failure

/-- A list at an address, its elements of w words each and its count given. -/
def rdListN {α : Type} (w : Nat) (x : Rd α) (addr count : Nat) : Rd (List α) :=
  if 65536 < count then failure else rdAt addr (w * count) (rdMany x count)

/-- A list for which the command's table names no count: it begins with its count (log 74). -/
def rdList {α : Type} (w : Nat) (x : Rd α) : Rd (List α) := do
  let addr ← rdNum
  let m ← read
  rdListN w x (addr + 8) (m.word addr).toNat

/-- The tiles of a mask of 16 words, lowest first. -/
def maskTiles (ws : List Word) : List Nat := (List.range 1024).filter (fun n => bit (nth ws (n / 64) 0) (n % 64))

/-- A tile set: the address of a 1,024-bit mask (R562). -/
def rdTiles : Rd (List Nat) := do
  let addr ← rdNum
  let m ← read
  pure (maskTiles (m.words addr 16))

/-- A number of 16 bytes, in two words. -/
def rdWide : Rd Nat := do
  let lo ← rdNum
  let hi ← rdNum
  pure (lo + 2 ^ 64 * hi)

/-- A number of up to w words whose use an earlier word chooses: the words that are not used are zero (log 74). -/
def rdZeros (n : Nat) : Rd Unit := do
  if (← rdWords n).all (· = 0) then pure () else failure

/-- A number that an earlier choice may leave unused: then its word is zero (log 74). -/
def rdNumIf (used : Bool) : Rd Nat := do
  let v ← rdNum
  if used || v = 0 then pure v else failure

/-- A source or destination: host memory of the function, or the device-memory view (R154). -/
def rdDataAt : Rd DataAt := do
  let f ← rdChoice [DataAt.host, DataAt.device]
  pure (f (← rdNum))

def rdPart : Rd (Option Nat) := do
  let p ← rdNum
  pure (if p = 64 then none else some p)

/-- The per-sub-port operands of PORT_CONFIG in the order of its table (R327). -/
def rdSub : Rd SubConfig := do
  let mode ← rdChoice [PortMode.disabled, .switch, .endpoint, .ethernet]
  let unp ← rdFlag
  let pfc ← rdFlag
  let promisc ← rdFlag
  let part ← rdPart
  let mac ← rdNum
  let grid ← rdNum
  let expect ← rdNum
  let retx ← rdNum
  let rto ← rdNum
  let onchip ← rdNum
  let base ← rdNum
  let size ← rdNum
  if 2 ^ 48 ≤ mac then failure
  else pure { mode := mode, unpausable := unp, pfcEn := pfc, promisc := promisc, part := part, mac := BitVec.ofNat 48 mac,
              partnerGrid := grid, expectPrefix := expect, retxSize := retx, rtoLog2 := rto, onchipLimit := onchip,
              ringBase := base, ringSize := size }

/-- A member entry (R381): KIND, PREFIX, HOME_P 0 to 3, GRID. -/
def rdMember : Rd SheetMember := do
  let kind ← rdChoice [0, 1, 2]
  let pfx ← rdNumIf (kind = 1)
  let homes ← rdMany (rdNumIf (kind = 1)) 4
  let grid ← rdNumIf (kind = 2)
  pure (match kind with
    | 0 => .none
    | 1 => .pq pfx homes
    | _ => .endpoint grid)

def rdHosted : Rd (Nat × MemberKind) := do
  let rank ← rdNum
  let kind ← rdChoice [0, 1, 2]
  let v ← rdNumIf (kind ≠ 2)
  pure (rank, match kind with
    | 0 => .accel v
    | 1 => .host v
    | _ => .device)

/-- A region entry (R407); a reserved bit that is set is kept for the command's own check. -/
def rdRegion : Rd RegionDef := do
  let w0 ← rdWord
  let vbase ← rdNum
  let w2 ← rdWord
  let w3 ← rdWord
  pure { part := bits w0 5 0, system := bit w0 6, global := bit w0 7, die := bits w0 9 8, vbase := vbase % 2 ^ 48,
         firstBand := bits w2 17 0, bands := bits w2 49 32,
         reserved := bits w0 63 10 ≠ 0 || 2 ^ 48 ≤ vbase || bits w2 31 18 ≠ 0 || bits w2 63 50 ≠ 0 || w3 ≠ 0 }

/-- The owner word of a region: PART in [5:0], SYSTEM in [6] (R407). -/
def rdOwner : Rd RegionOwner := do
  let w ← rdWord
  if bits w 63 7 ≠ 0 then failure else pure (if bit w 6 then .system else .part (bits w 5 0))

def rdLc : Rd LcState := rdChoice [.blank, .provisioned, .deployed, .returned, .decommissioned]

/-! ### The commands -/

/-- What a command does: its meaning with its operands. -/
abbrev Run := State → Host.Outcome State Fault Refusal

/-- What one opcode's operands are: how many words, and the command they spell. -/
structure KciRow where
  opcode : Nat
  words  : Nat
  read   : Kci → Rd Run

def row0 (op : Nat) (f : Kci → Run) : KciRow := ⟨op, 0, fun k => pure (f k)⟩
def row1 (op : Nat) (f : Kci → Nat → Run) : KciRow := ⟨op, 1, fun k => return f k (← rdNum)⟩
def row2 (op : Nat) (f : Kci → Nat → Nat → Run) : KciRow :=
  ⟨op, 2, fun k => do
    let a ← rdNum
    let b ← rdNum
    pure (f k a b)⟩
def row3 (op : Nat) (f : Kci → Nat → Nat → Nat → Run) : KciRow :=
  ⟨op, 3, fun k => do
    let a ← rdNum
    let b ← rdNum
    let c ← rdNum
    pure (f k a b c)⟩
def row4 (op : Nat) (f : Kci → Nat → Nat → Nat → Nat → Run) : KciRow :=
  ⟨op, 4, fun k => do
    let a ← rdNum
    let b ← rdNum
    let c ← rdNum
    let d ← rdNum
    pure (f k a b c d)⟩
def row5 (op : Nat) (f : Kci → Nat → Nat → Nat → Nat → Nat → Run) : KciRow :=
  ⟨op, 5, fun k => do
    let a ← rdNum
    let b ← rdNum
    let c ← rdNum
    let d ← rdNum
    let e ← rdNum
    pure (f k a b c d e)⟩
def rowTiles (op : Nat) (f : Kci → List Nat → Run) : KciRow := ⟨op, 1, fun k => return f k (← rdTiles)⟩

/-- 0x01xx: identity and the life cycle (R485, R518). -/
def rows01 : List KciRow :=
  [row0 0x0101 execModuleIdentity, row4 0x0102 execIdmemRead, row0 0x0110 execLcQuery, row1 0x0111 execLcProvision,
   row2 0x0112 execLcCertInstall,
   ⟨0x0113, 1, fun k => return execLcTransitionArm k (← rdLc)⟩,
   ⟨0x0114, 3, fun k => do
      let target ← rdLc
      pure (execLcTransition k target (wordBytes (← rdWords 2)))⟩,
   row1 0x0115 execCertRead, row0 0x0116 execTamperQuery, row0 0x0117 execTamperClear]

/-- 0x02xx: rings, partitions, queues, Datum, Plat, the management port and time. -/
def rows02 : List KciRow :=
  [⟨0x0201, 3, fun k => do
      let a ← rdWord
      let b ← rdWord
      pure (execKciRingsSet k a b (← rdWord))⟩,
   ⟨0x0202, 2, fun k => do
      let p ← rdNum
      pure (execPartCreate k p (← rdChoice [false, true]))⟩,
   ⟨0x0203, 6, fun k => do
      let p ← rdNum
      let add ← rdChoice [true, false]
      let tiles ← rdTiles
      let subs ← rdList 1 rdNum
      let first ← rdNum
      pure (execPartAssign k p add ⟨tiles, subs, first, ← rdNum⟩)⟩,
   ⟨0x0204, 2, fun k => do
      let p ← rdNum
      pure (execPartModeSet k p (← rdChoice [false, true]))⟩,
   row1 0x0205 execPartStop, row1 0x0206 execPartDestroy, row1 0x0207 execPartQuery,
   ⟨0x0208, 5, fun k => do
      let q ← rdNum
      let base ← rdNum
      let log ← rdNum
      let v ← rdNum
      pure (execDmaqSet k q base log v (← rdFlag))⟩,
   ⟨0x0210, 2, fun k => do
      let p ← rdNum
      pure (execDatumSet k p (← rdChoice [true, false]))⟩,
   ⟨0x0211, 1, fun k => do
      let i ← rdNum
      match i with
      | 1 => pure (execDatumSyncCal k .standalone)
      | 2 => pure (execDatumSyncCal k .leader)
      | 3 => pure (execDatumSyncCal k .follower)
      | _ => failure⟩,
   row0 0x0212 execDatumStart, row2 0x0213 execDatumStartAt, row0 0x0214 execDriftSnapshot,
   ⟨0x0220, 7, fun k => do
      let die ← rdNum
      let pool ← rdNum
      let total ← rdNum
      let t1 ← rdNum
      let t2 ← rdNum
      let t3 ← rdNum
      pure (execPltPoolSet k die pool total t1 t2 t3 (← rdNum))⟩,
   ⟨0x0221, 4, fun k => do
      let die ← rdNum
      let pool ← rdNum
      let all ← rdChoice [false, true]
      let o ← rdNum
      if all && o ≠ 0 then failure else pure (execPltPoolQuery k die pool (if all then none else some o))⟩,
   ⟨0x0230, 9, fun k => do
      let addr ← rdWide
      let pfx ← rdNum
      let port ← rdNum
      let permitted ← rdList 2 rdWide
      let none_ ← rdChoice [false, true]
      let na ← rdWide
      let np ← rdNum
      if none_ && (na ≠ 0 || np ≠ 0) then failure
      pure (execMgmtPortSet k addr pfx port permitted (if none_ then none else some (na, np)))⟩,
   ⟨0x0231, 4, fun k => return execMgmtKeySet k (wordBytes (← rdWords 4))⟩,
   ⟨0x0232, 2, fun k => do
      let e ← rdFlag
      pure (execPtpSet k e (← rdNum))⟩,
   row0 0x0233 execTimeQuery]

/-- 0x03xx: ports (R327). The width and the lane rate take the codes of BRG_PORT_CFG; the table holds 8 / width entries. A
profile value outside R311 is handed on as a wire format that R311 does not list: FORMAT_INVALID is the command's own status. -/
def rows03 : List KciRow :=
  [⟨0x0301, 4, fun k => do
      let port ← rdNum
      let width ← rdChoice [8, 4, 2, 1]
      let rate ← rdChoice [0, 1, 2]
      let addr ← rdNum
      pure (execPortConfig k port width rate (← rdListN 13 rdSub addr (8 / width)))⟩,
   ⟨0x0302, 2, fun k => do
      let l ← rdNum
      pure (execPortLink k l (← rdChoice [.up, .down, .retrain]))⟩,
   row1 0x0303 execPortStatus, row1 0x0304 execPortPartner, row5 0x0305 execPortCmisRead,
   ⟨0x0306, 18, fun k => do
      let die ← rdNum
      let i ← rdNum
      pure (execPortSteerSet k die i (← rdWords 16))⟩,
   row2 0x0307 execPortSteerRead,
   ⟨0x0308, 8, fun k => do
      let port ← rdNum
      let conv ← rdNum
      let q ← rdNum
      let d ← rdNum
      let src ← rdNum
      let wire ← rdNum
      let mode ← rdNum
      let ok := q ≤ 1 && d ≤ 1 && (mode = 0 || mode = 2)
      pure (execPortConvSet k port conv ⟨q = 1, d = 1, src, if ok then wire else 16, mode = 2, ← rdNum⟩)⟩]

/-- 0x04xx: routing, queues and Contour (R358, R379). CTR_INVALID is the status of CTR_SHAPER_SET for a value out of range: an ENABLE that
is none is handed on as a RATE that is none. -/
def rows04 : List KciRow :=
  [row2 0x0401 execRouteSetPrefix,
   ⟨0x0402, 3, fun k => do
      let down ← rdChoice [false, true]
      let b ← rdNum
      let l ← rdList 1 rdNum
      if !down && b ≠ 0 then failure else pure (execRouteSetPortset k (if down then .down b else .up) l)⟩,
   ⟨0x0403, 4, fun k => do
      let p ← rdNum
      let kind ← rdChoice [0, 1, 2, 3, 4, 5]
      let a ← rdNumIf (kind ≠ 5)
      let row ← rdNumIf (kind ≠ 0 && kind ≠ 5)
      pure (execRouteLocalSet k p (match kind with
        | 0 => .subport a
        | 1 => .host a row
        | 2 => .device a row
        | 3 => .cfl a row
        | 4 => .sheet a row
        | _ => .none))⟩,
   row3 0x0404 execAliasLoad, row0 0x0405 execAliasSwap,
   ⟨0x0406, 2, fun k => do
      let i ← rdNum
      pure (execMcastSet k i (← rdList 2 (do
        let f ← rdChoice [McTarget.port, McTarget.loc]
        pure (f (← rdNum)))))⟩,
   row1 0x0407 execReorderCfg,
   ⟨0x0408, 7, fun k => do
      let die ← rdChoice [false, true]
      let d ← rdNum
      if die then
        let size ← rdNum
        let flush ← rdNum
        rdZeros 3
        pure (execTrvQueueCfg k (.die d size flush))
      else
        let port ← rdNum
        let cls ← rdNum
        let mark ← rdNum
        let onchip ← rdNum
        pure (execTrvQueueCfg k (.queue d port cls mark onchip (← rdNum)))⟩,
   row3 0x0409 (fun k src vc die => execFlowQuery k die src vc), row1 0x040A execRouteQuery, row3 0x040B execCtrClassCfg,
   ⟨0x040C, 5, fun k => do
      let l ← rdNum
      let w ← rdNum
      let en ← rdNum
      let rate ← rdNum
      pure (execCtrShaperSet k l (if w = 8 then .port else .cls w) (en = 1) (if en ≤ 1 then rate else 0) (← rdNum))⟩,
   ⟨0x040D, 4, fun k => do
      let l ← rdNum
      let en ← rdFlag
      let addr ← rdNum
      pure (execCtrGateSet k l en (← rdNum) addr)⟩,
   row2 0x040E execCtrGateRead, row1 0x040F execCtrStatus]

/-- 0x05xx: tiles (R105, R154). An IMEM_SWAP table address of 0 names no table (log 74). -/
def rows05 : List KciRow :=
  [⟨0x0501, 2, fun k => do
      let ts ← rdTiles
      pure (execTileReset k ts (← rdFlag))⟩,
   rowTiles 0x0502 execTileStart, rowTiles 0x0503 execTileHalt, rowTiles 0x0504 execTileResume, rowTiles 0x0505 execTileStatus,
   row2 0x0506 execColumnShift, row2 0x0507 execVtabRead,
   ⟨0x0508, 6, fun k => do
      let ts ← rdTiles
      let bank ← rdNum
      let src ← rdDataAt
      let off ← rdNum
      pure (execImemLoad k ts bank src off (← rdNum))⟩,
   ⟨0x0509, 3, fun k => do
      let ts ← rdTiles
      let arm ← rdChoice [true, false]
      let a ← rdNum
      pure (execImemSwap k ts arm (if a = 0 then none else some a))⟩,
   row5 0x050A execImemRead,
   ⟨0x050B, 5, fun k => do
      let ts ← rdTiles
      let a ← rdNum
      let src ← rdDataAt
      pure (execScratchWrite k ts a src (← rdNum))⟩,
   ⟨0x050C, 5, fun k => do
      let t ← rdNum
      let a ← rdNum
      let dest ← rdDataAt
      pure (execScratchRead k t a dest (← rdNum))⟩]

/-- 0x06xx: collectives (R213, R255). -/
def rows06 : List KciRow :=
  [⟨0x0601, 10, fun k => do
      let id ← rdNum
      let part ← rdNum
      let addr ← rdNum
      let n ← rdNum
      -- an n out of range is the command's own GROUP_INVALID (R213)
      let members ← if 65536 < n then pure [] else rdListN 1 rdNum addr n
      let hosted ← rdList 3 rdHosted
      let tiles ← rdList 1 rdNum
      let reserve ← rdNum
      let cls ← rdNum
      let prog ← rdNum
      pure (execCflGroupDefine k ⟨id, part, members, hosted, tiles, reserve, cls, prog, ← rdFlag⟩)⟩,
   row1 0x0602 execCflGroupOpen, row1 0x0603 execCflGroupClose, row1 0x0604 execCflGroupDelete,
   ⟨0x0605, 17, fun k => do
      let rank ← rdNum
      pure (execCflSubmit k rank (← rdWords 16))⟩,
   ⟨0x0606, 3, fun k => do
      let kind ← rdChoice [0, 1, 2]
      let a ← rdNum
      let b ← rdNum
      if kind ≠ 0 && b ≠ 0 then failure
      else pure (execCflAbort k (match kind with
        | 0 => .one a b
        | 1 => .all a
        | _ => .job a))⟩,
   row1 0x0607 execCflGroupQuery,
   ⟨0x0608, 17, fun k => do
      let g ← rdNum
      pure (execCflDigest k g (← rdWords 16))⟩]

/-- 0x07xx: tables (R258, R288). -/
def rows07 : List KciRow :=
  [⟨0x0701, 14, fun k => do
      let id ← rdNum
      let part ← rdNum
      let fmt ← rdNum
      let block ← rdNum
      let d ← rdNum
      let rb ← rdNum
      let pr ← rdNum
      let pd ← rdNum
      let po ← rdNum
      let sr ← rdNum
      let sb ← rdNum
      let fr ← rdNum
      let fp ← rdNum
      pure (execGazTableDefine k ⟨id, part, fmt, block, d, rb, pr, pd, po, sr, sb, fr, fp, ← rdNum⟩)⟩,
   row1 0x0702 execGazTableDelete, row1 0x0703 execGazTableQuery,
   row4 0x0704 (fun k die body reply len => execGazLookup k die body len reply), row4 0x0705 execGazLegendCheck]

/-- 0x08xx: Sheet (R402). The 16 member entries and the 64 traffic classes stand in the operand block itself. -/
def rows08 : List KciRow :=
  [⟨0x0801, 180, fun k => do
      let members ← rdMany rdMember 16
      let none_ ← rdChoice [false, true]
      let self ← rdNumIf !none_
      let classes ← rdMany rdNum 64
      let rto ← rdNum
      pure (execShtSheetSet k members (if none_ then none else some self) classes rto (← rdNum))⟩,
   row3 0x0802 execShtExport,
   ⟨0x0803, 5, fun k => do
      let f ← rdChoice [WinOwner.sub, WinOwner.part]
      let v ← rdNum
      let first ← rdNum
      let addr ← rdNum
      pure (execShtWindowSet k (f v) first addr (← rdNum))⟩,
   row1 0x0804 execShtJobTeardown,
   ⟨0x0805, 2, fun k => do
      let f ← rdChoice [WinOwner.part, WinOwner.sub]
      pure (execShtStatus k (f (← rdNum)))⟩]

/-- 0x09xx: stacked and far memory (R434). -/
def rows09 : List KciRow :=
  [⟨0x0901, 4, fun k => return execStkRegionSet k (← rdRegion)⟩,
   ⟨0x0902, 2, fun k => do
      let o ← rdOwner
      pure (execStkRegionClear k o (← rdNum))⟩,
   ⟨0x0903, 1, fun k => return execStkRegionQuery k (← rdOwner)⟩,
   row2 0x0904 execStkRetrainCfg, row4 0x0905 execStkPolicySet, row3 0x0906 execStkRepairLog,
   ⟨0x0907, 6, fun k => do
      let p ← rdNum
      let e ← rdNum
      let port ← rdNum
      let base ← rdNum
      let size ← rdNum
      pure (execFarWindowSet k p e port base size (← rdFlag))⟩,
   row1 0x0908 execFarIdentity,
   ⟨0x0909, 3, fun k => do
      let port ← rdNum
      let a ← rdChoice [FarAction.enable, .disable, .reset]
      pure (execFarPortCtrl k port a (← rdChoice [true, false]))⟩]

/-- 0x0Axx: Meridian (R211). -/
def rows0A : List KciRow :=
  [⟨0x0A01, 4, fun k => do
      let o ← rdNum
      let p ← rdNum
      let kind ← rdNum
      let v ← rdNum
      match kind with
      | 1 => pure (execMerAlloc k o p .count v)
      | 2 => pure (execMerAlloc k o p .event v)
      | 3 => pure (execMerAlloc k o p .barrier v)
      | _ => failure⟩,
   row1 0x0A02 execMerFree,
   ⟨0x0A03, 4, fun k => do
      let o ← rdNum
      let v ← rdNum
      let en ← rdFlag
      let g ← rdNumIf en
      pure (execMerSet k o v (if en then some g else none))⟩,
   ⟨0x0A04, 2, fun k => do
      let o ← rdNum
      pure (execMerSignal k o (← rdChoice [false, true]))⟩,
   row1 0x0A05 execMerRead,
   ⟨0x0A06, 2, fun k => do
      let w ← rdNum
      pure (execMerDlCfg k w (← rdFlag))⟩,
   row2 0x0A07 execMerDlSnapshot]

/-- 0x0Bxx to 0x0Exx: firmware, attestation, faults and power. -/
def rows0B : List KciRow :=
  [row1 0x0B01 execFwStageBegin, row3 0x0B02 execFwStageWrite, row0 0x0B03 execFwStageVerify, row0 0x0B04 execFwActivate,
   row0 0x0B05 execFwQuery, row1 0x0B06 execFwSvnCommit, row0 0x0B07 execSettingsSave, row0 0x0B08 execSettingsClear,
   ⟨0x0C01, 5, fun k => do
      let n ← rdWords 4
      pure (execAttest k (wordBytes n) (← rdNum))⟩,
   row2 0x0C02 execConfigExport, row3 0x0C03 execItinExport, row1 0x0C04 execItinExportAck, row0 0x0C05 execItinCheckpoint,
   row2 0x0C06 execItinCkptRead,
   ⟨0x0D01, 1, fun k => return execFencePort k (← rdList 1 rdNum)⟩,
   ⟨0x0D02, 1, fun k => return execUnfencePort k (← rdList 1 rdNum)⟩,
   row2 0x0D03 execIsolatePeer, row2 0x0D04 execReleasePeer, row1 0x0D05 execJobTeardown, row3 0x0D06 execFaultLogRead,
   ⟨0x0E01, 3, fun k => do
      let banks ← rdChoice [false, true]
      let st := rdChoice [BankPower.on, .retention, .off]
      if banks then
        let l ← rdList 1 rdNum
        pure (execAtlPower k (.banks l) (← st))
      else
        let l ← rdTiles
        pure (execAtlPower k (.tiles l) (← st))⟩,
   row1 0x0E02 execPwrQuery,
   ⟨0x0E03, 1, fun k => return execPwrReset k (← rdChoice [true, false])⟩,
   row0 0x0E04 execPwrOff]

/-- What built-in test finds is a free value (R535, log 75). -/
def freeFindings (free : Nat) (ts : List Nat) : List (Nat × FaultPart) :=
  ts.filterMap (fun t => (Config.builtInTest free t).map (fun p => (t, p)))

/-- 0x0Fxx: tests, Sounding and memory bring-up. -/
def rows0F (free : Nat) : List KciRow :=
  [rowTiles 0x0F01 (fun k ts => execTileTest k ts (freeFindings free ts)), row2 0x0F02 execFaultMapRead,
   ⟨0x0F10, 2, fun k => do
      let en ← rdFlag
      pure (execAtlSoundCfg k en (← rdNum))⟩,
   row1 0x0F11 execAtlBankQuery,
   ⟨0x0F20, 1, fun k => return execStkBringupSelect k (← rdChoice [.none, .margin, .repair])⟩,
   ⟨0x0F21, 3, fun k => do
      let st ← rdNum
      let ch ← rdNum
      pure (execStkMargin k st ch (← rdChoice [.dqDelay, .vref, .supply]))⟩,
   ⟨0x0F22, 4, fun k => do
      let st ← rdNum
      let apply ← rdChoice [false, true]
      let pch ← rdNum
      let row ← rdNum
      if !apply && (pch ≠ 0 || row ≠ 0) then failure else pure (execStkRepairAccess k st (if apply then some (pch, row) else none))⟩]

/-- Every opcode that R478 assigns. -/
def kciRows (free : Nat) : List KciRow :=
  rows01 ++ rows02 ++ rows03 ++ rows04 ++ rows05 ++ rows06 ++ rows07 ++ rows08 ++ rows09 ++ rows0A ++ rows0B ++ rows0F free

def kciRow (free opcode : Nat) : Option KciRow := (kciRows free).find? (·.opcode = opcode)

/-- The operand words of a descriptor: words 1 to 7, or the operand block that word 1 names (R562). None: a reserved word is set, or
the block is not 8-byte aligned. -/
def KciRow.operands (r : KciRow) (m : Memory) (words : List Word) : Option (List Word) :=
  let ws := padTo 7 0 words
  if r.words ≤ 7 then if (ws.drop r.words).all (· = 0) then some (ws.take r.words) else none
  else
    let a := (nth ws 0 0).toNat
    if a % 8 ≠ 0 || !(ws.drop 1).all (· = 0) then none else some (m.words a r.words)

/-- The command that a descriptor spells, with its operand words; none completes with BAD_OPERAND (R562). -/
def kciDecode (free opcode : Nat) (m : Memory) (k : Kci) : Option (Run × List Word) := do
  let r ← kciRow free opcode
  let ops ← r.operands m k.words
  let (i, rest) ← ((r.read { k with words := ops }).run ops).run m
  if rest.isEmpty then some (i, ops) else none

end Sys2Proof.Machine
end

