-- ==== Sys2Proof/Machine/Accept.lean ====
section
/-! DEFINITION. COMMAND_ACCEPT (R469, R470), and the running of accepted commands. -/

namespace Sys2Proof.Machine

/-- The sources in the order of the rotation (R469): 0 the PF, 1 to 64 the VFs, 65 the management port. -/
def turnSource (i : Nat) : Source := if i = 0 then .pf else if i = 65 then .mgmt else .vf i

/-- The next descriptor of a source, with whether it is the mailbox's, and the state without it: the mailbox first where a GO
waits, otherwise the ring in ring order, with at most 4,096 ring commands in flight (R469, R470). -/
def State.takeDescriptor (s : State) (src : Source) : Option (Bool × List Word × State) :=
  match src with
  | .mgmt =>
    match s.cmp.mgmtQueue with
    | [] => none
    | (_, d) :: r => some (false, d, { s with cmp := { s.cmp with mgmtQueue := r } })
  | _ =>
    let f := src.fnIdx
    let x := s.fn f
    if x.mboxGo then some (true, padTo 8 0 x.mboxCmd, s.setFn f { x with mboxGo := false })
    else if x.rings && x.busMaster && x.cmdHead ≠ x.cmdTail && ringUsed x.cmdTail x.cmdHead ≤ 2 ^ x.cmdLog && s.ringInflight src < 4096 then
      some (false, (s.hostMem f).words (x.cmdBase + 64 * (x.cmdHead % 2 ^ x.cmdLog)) 8,
        s.setFn f { x with cmdHead := (x.cmdHead + 1) % 2 ^ 17 })
    else none

/-- The first source from the turn on that has a descriptor. -/
def State.nextDescriptor (s : State) : Nat → Option (Nat × Bool × List Word × State)
  | 0 => none
  | k + 1 =>
    let i := (s.cmp.turn + 65 - k) % 66
    match s.takeDescriptor (turnSource i) with
    | some (m, d, s') => some (i, m, d, s')
    | none => s.nextDescriptor k

/-- Whether an opcode is assigned (R478). -/
def kciKnown (opcode : Nat) : Bool := (kciRow 0 opcode).isSome

/-- The record with which a descriptor enters flight (R468, R469): waiting, or done with the status of the check that failed. -/
def State.acceptRecord (s : State) (src : Source) (mbox : Bool) (d : List Word) : InFlight :=
  let w := nth d 0 0
  let tag := BitVec.ofNat 16 (bits w 31 16)
  let opcode := bits w 15 0
  let st := s.acceptCheck src tag opcode (kciKnown opcode) (bits w 63 39 ≠ 0)
  { src := src, mbox := mbox, tag := tag, opcode := opcode,
    part := match src with
      | .vf _ => none
      | _ => if bit w 38 then some (bits w 37 32) else none
    words := d.drop 1, accepted := s.timebase, zero := s.dtm.tbZero, stage := if st.isSome then .done else .waiting, status := st.getD .ok,
    dup := st = some .tagBusy, immediate := st.isSome }

/-- After a restart, commands accepted before it wait to be run again, or completions of committed ones to be posted; one that waits
for room in its event ring is not waited for (R487, log 26). -/
def State.owesRestart (s : State) : Bool :=
  s.cmp.inflight.any (fun r => r.old && (r.stage = .waiting || (r.stage = .done && (r.src = .mgmt || r.mbox || !(s.fn r.src.fnIdx).evtFull))))

/-- COMMAND_ACCEPT (R469): while Compass is READY and owes nothing from a restart, one descriptor from the first source of the rotation
that has one. -/
def State.commandAccept (s : State) : State :=
  if s.cmp.state ≠ .ready || s.owesRestart then s
  else match s.nextDescriptor 66 with
    | none => s
    | some (i, mbox, d, u) =>
      let u := { u with cmp := { u.cmp with turn := (i + 1) % 66 } }
      let seq := if i = 65 then ((s.cmp.mgmtQueue.head?.map (·.1)).getD 0) else 0
      u.setInflight (u.cmp.inflight ++ [{ u.acceptRecord (turnSource i) mbox d with seq := seq }])

def execCommandAccept (s : State) : Host.Outcome State Fault Refusal := .next s.commandAccept

/-! ### Running what was accepted -/

/-- What a meaning leaves, for one that answers a next state; otherwise the state before it. -/
def State.after (s : State) (f : Run) : State := match f s with
  | .next t => t
  | _ => s

/-- What a record carries beside its operands (R468). -/
def InFlight.kci (r : InFlight) : Kci := ⟨r.src, r.mbox, r.tag, r.part, r.words⟩

/-- Runs an accepted command that still waits (R471, R487): its operands are read (R562), and its meaning takes effect or
holds it. A descriptor that spells no command completes with BAD_OPERAND; a command that came by its own row stays waiting
where its words spell none. -/
def State.runRecord (s : State) (r : InFlight) : State :=
  let now := fun (x : InFlight) => x.isFor r.kci r.opcode
  if !s.cmp.inflight.any now then s
  else match kciDecode s.free r.opcode (s.hostMem r.src.fnIdx) r.kci with
    | some (f, ops) =>
      let t := s.after f
      { t.setInflight (adjFirst (fun (x : InFlight) => x.sameTag r.src r.tag && x.mbox = r.mbox && x.opcode = r.opcode && x.stage ≠ .waiting && x.words = r.words)
          (fun x => { x with words := ops }) t.cmp.inflight) with free := t.free + 1 }
    | none =>
      if r.direct then s
      else s.setInflight (adjFirst now (fun x => { x with stage := .done, status := .badOperand, immediate := true }) s.cmp.inflight)

/-- Runs the accepted commands that wait, in acceptance order, while Compass is READY; one that is held keeps those behind it waiting
(R471). -/
def State.runAccepted (s : State) : State :=
  if s.cmp.state ≠ .ready then s
  else (s.cmp.inflight.filter (fun r => r.stage = .waiting)).foldl State.runRecord s

/-- Applies the next entry of the stored settings (R517): the command of the entry runs with the PF's rights, its operands
taken as they stand; nothing completes to anyone. It waits behind accepted commands, and is applied later where a surveyor holds it. -/
def State.applyEntry (s : State) : State :=
  if s.cmp.inflight.any (fun r => r.stage = .waiting) then s
  else match s.cmp.state, s.cmp.toApply with
  | .ready, e :: rest =>
    let was := s
    let s := { s with cmp := { s.cmp with toApply := rest } }
    let tag := (List.range 65536).find? (fun n => !s.cmp.inflight.any (fun r => r.sameTag .mgmt (BitVec.ofNat 16 n)))
    match kciRow s.free e.opcode, tag with
    | some row, some n =>
      let k : Kci := ⟨.mgmt, false, BitVec.ofNat 16 n, none, e.words⟩
      match ((row.read k).run e.words).run (s.hostMem 0) with
      | some (f, _) =>
        let t := s.after f
        if t.cmp.inflight.any (fun r => r.sameTag k.src k.tag && r.stage = .waiting) then was
        else t.setInflight (t.cmp.inflight.filter (fun r => !r.sameTag k.src k.tag))
      | none => s
    | _, _ => s
  | _, _ => s

end Sys2Proof.Machine
end

