-- ==== Sys2Proof/Machine/Completion.lean ====
section
/-! DEFINITION. Completion of engine instructions: the record, the queue entry, the SIG_EN signal (R122, R123, R189, R192). -/

namespace Sys2Proof.Machine

/-- The completion record (R122). -/
def QEntry.record (q : QEntry) : Word := wd (q.status.code + flag 8 q.rerun + put 47 16 q.units)

/-- Writes the record of an instruction that asks for one. -/
def Tile.putRecord (x : Tile) (q : QEntry) : Tile :=
  if dCompl q.words then
    match x.store (dComplAddr q.words) (leBytes 8 q.record.toNat) with
    | .ok y => y
    | .error (_, y) => y
  else x

/-- The instruction at the head of an engine queue is finished but for its completion. -/
def QEntry.finished (q : QEntry) : Bool := q.ran && (q.decided || q.status ≠ .ok || bits (nth q.words 3 0) 12 12 = 0) && q.waits.isEmpty && !q.written

/-- Completes the head of an engine queue (R122, R123): record, then the signal; the entry and its regions are held until the
signal has taken one of the engine's 64 entries (R189). A halted tile lets its engines finish (R102). -/
def State.complete (s : State) (t e : Nat) : State :=
  let x := s.tile t
  match x.queue e with
  | [] => s
  | q :: r =>
    if !q.finished then s
    else
      let x := x.putRecord q
      let x := if q.rerun then { x with numPromote := x.count x.numPromote 1 } else x
      if !dSigEn q.words then s.setTile t { x with queues := x.queues.put e r }
      else
        let n := x.engSignals.lookD e 0
        if n < 64 then
          (s.setTile t { x with queues := x.queues.put e r, engSignals := x.engSignals.put e (n + 1) }).tileSignal t
            (dSigObj q.words) 0 (.engine e) false
        else s.setTile t { x with queues := x.queues.put e ({ q with written := true } :: r) }

/-- MATMUL_COMPLETE (R129). -/
def execMatmulComplete (t : Nat) (s : State) : Host.Outcome State Fault Refusal := .next (s.complete t 0)

/-- COPY_COMPLETE (R134). -/
def execCopyComplete (t : Nat) (s : State) : Host.Outcome State Fault Refusal := .next (s.complete t 2)

/-- INSTRUCTION_COMPLETE (R122) of the vector, message and sparse engines; the tensor and move engines have commands of their
own. -/
def execInstructionComplete (t engine : Nat) (s : State) : Host.Outcome State Fault Refusal :=
  .next (if engine = 1 || engine = 3 || engine = 4 then s.complete t engine else s)

end Sys2Proof.Machine
end

