-- ==== Sys2Proof/Machine/Message.lean ====
section
/-! DEFINITION. Messages: SEND, arrival in the receive ring, dispatch of strands (R83 to R91, R135 to R137). -/

namespace Sys2Proof.Machine

/-- The message a SEND descriptor names, from tile t (R135). -/
def sentMsg (x : Tile) (t : Nat) (h : Word) (user payload : List Byte) : MeshMsg :=
  ⟨header0 (bits h 9 0) (bit h 21) (coord t) false (bits h 27 22) (bits h 34 28) (x.part.getD 0) (bits h 63 48) :: leWords 7 user,
   payload⟩

/-- SEND (R135 to R137): reads the USER bytes and the payload now; its units are the flits sent. A message without payload lines
generates no payload address. -/
def State.send (s : State) (t : Nat) : State :=
  let x := s.tile t
  match x.head 3 with
  | some q =>
    if s.engineLive x && !q.ran then
      let h := nth q.words 4 0
      let w := nth q.words 5 0
      let n := bits h 34 28
      let rd : EngM (List Byte × List Byte) := do
        let u ← engRead ((bits w 20 0 : Nat) : Int) 56 8
        let p ← if n = 0 then pure [] else engRead ((bits w 41 21 : Nat) : Int) (64 * n) 64
        pure (u, p)
      match rd { x := x } with
      | .ok (u, p) y =>
        (s.engEnd t 3 q (.ok () { y with units := n + 1 })).toMesh (sentMsg x t h u p)
      | .error st y => s.engEnd t 3 q (.error st y)
    else s
  | none => s

def execSend (t : Nat) (s : State) : Host.Outcome State Fault Refusal := .next (s.send t)

/-- Lines of the ring that hold unreclaimed messages. -/
def Tile.ringUsed (x : Tile) : Nat := (x.rx.map (·.lines)).foldl (· + ·) 0

/-- Writes the lines of a message from ring position h on, wrapping (R85). -/
def Tile.writeLines (x : Tile) (h : Nat) : Nat → List (List Byte) → Tile
  | _, [] => x
  | k, l :: ls => Tile.writeLines (x.overwrite (x.ringAddr ((h + k) % x.rxSize)) l) h (k + 1) ls

/-- The lines of a message: the header, then the payload (R85). -/
def MeshMsg.lines (m : MeshMsg) : List (List Byte) := padTo 64 0 (wordBytes m.header) :: pieces 64 m.len m.payload

/-- Writes a message into the ring of a tile. -/
def Tile.receive (x : Tile) (m : MeshMsg) : Tile :=
  let n := m.len + 1
  let y := x.writeLines x.rxWrite 0 m.lines
  { y with rxWrite := (x.rxWrite + n) % x.rxSize, rx := y.rx ++ [{ line := x.rxWrite, lines := n, handler := m.handler }] }

/-- A tile's message port writes a message whose header it has taken, once the ring has room for all of it, whether or not the
tile halts before; a message without room stays at the port (R85, R86). One whose handler is at MAX_STRANDS lets a blocked partition
stay blocked (R208). -/
def State.portWrite (s : State) (t : Nat) (m : MeshMsg) : State :=
  let x := s.tile t
  if x.rxSize < x.ringUsed + m.len + 1 then s.setTile t { x with port := some m }
  else
    let y := { x with port := none, portWaits := [] }.receive m
    let s := s.setTile t y
    if y.ringReady then s.stir m.part else s

/-- The head of the next message of a source waits behind the message at the port. It counts MESH_FOREIGN once, when the two are
of different partitions (R175, R563). -/
def State.portBlocked (s : State) (t : Nat) (held : MeshMsg) (m : MeshMsg) : State :=
  let x := s.tile t
  let who := (m.src, m.srcGw)
  if m.part = held.part || x.portWaits.contains who then s
  else (s.setTile t { x with portWaits := who :: x.portWaits }).drift 9 [m.part]

/-- A header reaches the message port (R85, R86). Log 33 names the layout of the notice. -/
def State.portTake (s : State) (t : Nat) (m : MeshMsg) : State :=
  let x := s.tile t
  if x.state ≠ .running then s.setTile t { x with rxDrop := x.count x.rxDrop 1 }
  else if x.part ≠ some m.part then
    (s.setTile t { x with rxPartErr := x.count x.rxPartErr 1 }).notify .rxPartMismatch .ok x.part (coord t)
      (m.src + flag 10 m.srcGw + put 21 16 m.part) (.region (tileRegion t))
  else s.portWrite t m

/-- MESSAGE_RECEIVE (R85, R86): the message of that source at the port, or else its first one in the mesh. -/
def State.messageReceive (s : State) (t src : Nat) (srcGw : Bool) : State :=
  let mine := fun (m : MeshMsg) => !m.destGw && m.dest = coord t && m.src = (if srcGw then src else coord src) && m.srcGw = srcGw
  match (s.tile t).port, takeFirst mine s.grid.mesh with
  | some h, r =>
    if mine h then s.portWrite t h
    else match r with
      | some (m, _) => s.portBlocked t h m
      | none => s
  | none, some (m, rest) => { s with grid := { s.grid with mesh := rest } }.portTake t m
  | none, none => s

def execMessageReceive (t src : Nat) (srcGw : Bool) (s : State) : Host.Outcome State Fault Refusal :=
  .next (s.messageReceive t src srcGw)

/-- Strand 0 waits at a program-boundary fence: the dispatcher has stopped (R150). -/
def Tile.atBoundary (x : Tile) : Bool :=
  (x.strand 0).state = .waiting && (match (x.strand 0).wait with
    | .fence _ b => b
    | _ => false)

/-- Strands of the pool that run a handler (R87). -/
def Tile.running (x : Tile) (h : Nat) : Nat :=
  (x.strands.filter (fun e => e.1 ≠ 0 && e.2.state ≠ .free && e.2.handler = h)).length

/-- The lowest FREE strand of the pool (R87). -/
def Tile.freeStrand (x : Tile) : Option Nat :=
  (List.range 2047).findSome? (fun i => if (x.strand (i + 1)).state = .free then some (i + 1) else none)

/-- The header of the message at the head cannot be read: the message stays, and the tile halts at the handler's entry, where the
strand would have begun: DESIGN CHOICE (R76, log 83). -/
def State.dispatchLost (s : State) (t n entry w : Nat) : State :=
  (s.setEcc t (s.tile t) w).faultHalt t .uncorrectable entry n 0 w

/-- MESSAGE_DISPATCH (R87): the message at the head of the ring order. DETAIL of RX_NO_HANDLER, which the spec does not state, holds
HANDLER: DESIGN CHOICE (log 33). -/
def State.messageDispatch (s : State) (t : Nat) : State :=
  let x := s.tile t
  if x.state ≠ .running || x.atBoundary then s
  else match x.rx.find? (fun m => m.strand.isNone && !m.released) with
    | none => s
    | some m =>
      let h := x.handlers.lookD m.handler {}
      if !h.valid then
        (s.setTile t (({ x with rxDrop := x.count x.rxDrop 1 }).release (fun y => y.strand.isNone && y.line = m.line))).notify
          .rxNoHandler .ok x.part (coord t) m.handler (.region (tileRegion t))
      else if (if h.max = 0 then 2047 else h.max) ≤ x.running m.handler then s
      else match x.freeStrand with
        | none => s
        | some n =>
          let a := x.ringAddr m.line
          match x.load a 8 with
          | .error (w, y) => (s.setTile t y).dispatchLost t n h.entry w
          | .ok (bs, x) =>
            let d : Strand := { state := .runnable, pc := h.entry, handler := m.handler, g29 := wd a, g30 := wd (ofLe bs),
                                g31 := 0, wait := .none }
            let y := x.setStrand n d
            s.setTile t ({ y with rx := adjFirst (fun z => z.strand.isNone && z.line = m.line) (fun z => { z with strand := some n })
                                            y.rx }.saveCtx n)

def execMessageDispatch (t : Nat) (s : State) : Host.Outcome State Fault Refusal := .next (s.messageDispatch t)

end Sys2Proof.Machine
end

