-- ==== Sys2Proof/Machine/RegView.lean ====
section
/-! DEFINITION. What every register reads as, window by window (R6, R106, R180, R212, R257, R291, R328, R359, R360, R380, R403, R435, R436, R459, R460, R464 to R466, R480, R520, R536, R561). -/

namespace Sys2Proof.Machine

/-- The sum of a list. -/
def total (l : List Nat) : Nat := l.foldl (· + ·) 0

/-- A mask of the numbers below n that satisfy p. -/
def maskOf (n : Nat) (p : Nat → Bool) : Nat := total ((List.range n).map (fun i => flag i (p i)))

/-! ### CMP -/

def fnSource (f : Nat) : Source := if f = 0 then .pf else .vf f

/-- CMP_KCI_STATUS. -/
def State.kciStatus (s : State) (f : Nat) : Word :=
  let x := s.fn f
  let vf := decide (f ≠ 0)
  wd (put 1 0 (compassCode s.cmp.state) + flag 2 x.rings + flag 3 (vf && s.partExists (f - 1)) + put 14 8 f + (if vf then put 21 16 (f - 1) else 0) +
    flag 24 s.cmp.gen5 + put 44 32 (s.ringInflight (fnSource f)) + put 63 54 x.evtVector)

def ringWord (base log : Nat) : Word := wd (put 4 0 log + base / 4096 * 4096)

/-- Sub-ports in FENCED. -/
def State.fencedPorts (s : State) : List Nat := (s.fab.subs.keep (fun _ x => decide (x.state = .fenced))).keys

/-- CMP_FAULT_STATUS. -/
def State.faultStatus (s : State) : Word :=
  let dom := if s.flt.cause ≠ 0 then 2 else if s.flt.downDies.isEmpty then 0 else 1
  wd (dom + put 11 8 (maskOf 4 (fun d => s.flt.downDies.contains d)) + put 18 16 s.flt.cause + put 41 32 s.fencedPorts.length)

/-- The offsets that the PF alone has. -/
def State.cmpPf (s : State) (off : Nat) : Word :=
  let p := s.cmp.ptp
  if 0x280 ≤ off && off < 0x300 then
    let j := (off - 0x280) / 8
    let ports := s.fencedPorts
    wd (maskOf 64 (fun i => ports.contains (64 * j + i)))
  else match off with
    | 0x100 => wd s.ptpTime
    | 0x108 => wd (put 1 0 p.state.code + put 63 32 (unsign 32 p.offset))
    | 0x110 => wd p.pairTb
    | 0x118 => wd p.pairPtp
    | 0x140 => wd s.cmp.mgmtDrops
    | 0x148 => wd s.cmp.wdog
    | 0x150 => wd s.cmp.hostDrops
    | 0x200 => s.faultStatus
    | 0x208 => wd (put 6 0 s.flt.isolation.length)
    | 0x240 => wd s.flt.linkLoss
    | 0x248 => wd s.flt.uncorr
    | 0x250 => wd s.flt.teardowns
    | _ => 0

def State.cmpRead (s : State) (f off : Nat) : Word :=
  let x := s.fn f
  if 0x40 ≤ off && off < 0x80 then nth x.mboxCmd ((off - 0x40) / 8) 0
  else if 0x88 ≤ off && off < 0xA8 then nth x.mboxResp ((off - 0x88) / 8) 0
  else match off with
    | 0x00 => s.kciStatus f
    | 0x08 => ringWord x.cmdBase x.cmdLog
    | 0x10 => ringWord x.evtBase x.evtLog
    | 0x18 => wd (put 16 0 x.cmdTail)
    | 0x20 => wd (put 16 0 x.cmdHead)
    | 0x28 => wd (put 16 0 x.evtTail)
    | 0x30 => wd (put 16 0 x.evtHead)
    | 0x80 => wd (flag 1 x.mboxBusy)
    | _ => if f = 0 then s.cmpPf off else 0

/-! ### DTM -/

def roleCode : Option SyncRole → Nat
  | none => 0
  | some .standalone => 1
  | some .leader => 2
  | some .follower => 3

def syncCode : SyncState → Nat
  | .unsynced => 0
  | .calibrated => 1
  | .armed => 2
  | .running => 3
  | .syncLost => 4

/-- The registers of R180. The schedules are in force while a partition is in Datum mode (R164, R165). -/
def State.dtmRead (s : State) (off : Nat) : Word :=
  let d := s.dtm
  if 0x100 ≤ off && off < 0x300 then (s.partMode ((off - 0x100) / 8)).word
  else if 0x300 ≤ off && off < 0x380 then wd (nth d.drift ((off - 0x300) / 8) 0)
  else if 0x380 ≤ off && off < 0x400 then
    let j := 4 * ((off - 0x380) / 8)
    wd (total ((List.range 4).map (fun i => put 15 0 (d.masks.lookD (j + i) 0) * 2 ^ (16 * i))))
  else match off with
    | 0x00 => wd (roleCode d.role + flag 2 s.anyDatum + flag 3 s.anyDatum)
    | 0x08 => wd (syncCode d.state + flag 3 d.valid + put 31 16 d.epoch)
    | 0x10 => wd s.timebase
    | 0x18 => wd (put 3 0 d.phase + put 7 4 d.spread + flag 8 d.calOk + put 24 16 d.pulses)
    | 0x20 => wd (0x0314 + put 31 16 0x0EA6 + put 47 32 0x80 + put 55 48 0x40)
    | 0x28 => wd (put 5 0 d.period + put 31 16 0x0AFD)
    | _ => 0

/-! ### MER, CFL, GAZ -/

/-- The debug window of a function, and for the PF the rest (R206, R212). -/
def State.merRead (s : State) (f off : Nat) : Word :=
  let d := s.mer.dbg.lookD f {}
  if 0x100 ≤ off && off < 0x200 then nth d.waiters ((off - 0x100) / 8) 0
  else match off with
    | 0x40 => wd (put 13 0 (s.fn f).merSel)
    | 0x48 => wd (d.state.toNat - flag 2 (bit d.state 2) + flag 2 d.valid)
    | 0x50 => d.value
    | 0x58 => d.last
    | _ =>
      if f ≠ 0 then 0
      else match off with
        | 0x00 => wd (put 5 0 s.mer.window + flag 6 s.mer.enabled)
        | 0x08 => wd (put 13 0 (s.merPool 0) + put 29 16 (s.merPool 1) + put 45 32 (s.merPool 2) + put 61 48 (s.merPool 3))
        | 0x10 => wd (maskOf 64 (fun p => s.mer.dl.contains p))
        | 0x18 => wd s.mer.limit
        | 0x20 => wd s.mer.ovf
        | 0x28 => wd s.mer.reject
        | _ => 0

/-- Collectives of a group in flight, and held, here. -/
def State.cflInflight (s : State) (g : Nat) : Nat := (s.cflSeqs g).length
def State.cflHeld (s : State) (g : Nat) : Nat := (s.heldOf (fun r => r.group = g)).length

/-- The group that a function's CFL_GROUP_SEL names, as it may see it (R257). -/
def State.cflSelected (s : State) (f : Nat) : Option (Nat × CflGroup) :=
  let g := fld (s.fn f).cflSel 15 0
  match s.cflGroup g with
  | some x => if f = 0 || x.d.part + 1 = f then some (g, x) else none
  | none => none

def State.cflRead (s : State) (f off : Nat) : Word :=
  let sel := (s.fn f).cflSel
  match off with
  | 0x10 => wd (put 31 0 sel)
  | 0x18 => match s.cflSelected f with
    | some (g, x) => wd (x.phase.code + put 7 2 x.d.part + put 11 8 (x.d.tiles.length - 1) + put 13 12 x.die + put 31 16 x.d.hosted.length +
        put 47 32 (s.cflInflight g) + put 63 48 (s.cflHeld g))
    | none => 0
  | 0x20 => match s.cflSelected f with
    | some (_, x) => match x.d.hosted[fld sel 31 16]? with
      | some h => wd (put 15 0 h.1 + put 63 32 (x.nextSeq h.1))
      | none => 0
    | none => 0
  | _ =>
    if f ≠ 0 then 0
    else match off with
      | 0x00 =>
        let opens := s.cfl.groups.filter (fun e => e.2.isOpen)
        wd (put 10 0 opens.length + put 26 16 (total (opens.map (fun e => max 1 (s.cflInflight e.1)))) +
          put 47 32 (min 65535 s.heldForContext.length))
      | 0x08 => wd (total ((List.range 4).map (fun d => put 15 0 (s.pool d poolCollation).sumReserve * 2 ^ (16 * d))))
      | 0x28 =>
        let a := s.cfl.last
        wd (put 15 0 a.group + put 23 16 a.status + flag 24 a.raised + flag 25 a.valid + put 63 32 a.seq)
      | _ => if 0x40 ≤ off && off < 0x60 then wd (nth s.cfl.counts ((off - 0x40) / 8) 0) else 0

def State.gazSelected (s : State) (f : Nat) : Option GazTable :=
  match s.gaz.tables.look (fld (s.fn f).gazSel 11 0) with
  | some t => if f = 0 || t.d.part + 1 = f then some t else none
  | none => none

def State.gazRead (s : State) (f off : Nat) : Word :=
  match off with
  | 0x08 => wd (put 11 0 (s.fn f).gazSel)
  | 0x10 => match s.gazSelected f with
    | some t => wd ((if t.deleting then 2 else 1) + put 7 2 t.d.part + put 11 8 t.d.fmt + put 12 12 t.d.block + put 13 13 t.d.farPort +
        put 15 14 t.d.pinDie + put 25 16 t.d.d + put 43 32 t.d.rowBytes + put 63 44 t.d.pinRows)
    | none => 0
  | 0x18 => match s.gazSelected f with
    | some t => wd (put 31 0 t.d.stkRows + put 63 32 t.d.farRows)
    | none => 0
  | _ =>
    if f ≠ 0 then 0
    else match off with
      | 0x00 =>
        let n := fun (d : Nat) => (s.gaz.reqs.filter (fun r => r.die = d)).length
        wd (put 12 0 s.gaz.tables.length + put 27 16 (n 0) + put 39 28 (n 1) + put 51 40 (n 2) + put 63 52 (n 3))
      | _ => if 0x40 ≤ off && off < 0x68 then wd (nth s.gaz.counts ((off - 0x40) / 8) 0) else 0

/-! ### WPT, SHT, TRV, BRG, CTR -/

def State.wptRead (s : State) (off : Nat) : Word :=
  match off with
  | 0x00 => match s.fab.pfx with
    | some (p, l) => wd (put 39 0 p + put 42 40 l + 2 ^ 43)
    | none => 0
  | 0x08 => wd (put 0 0 s.fab.active + flag 1 s.fab.aliasNew.isSome + put 12 2 (s.fab.alias_.filter (fun e => e.1 / 1024 = s.fab.active && e.2.valid)).length + put 63 32 s.fab.swaps)
  | 0x10 => wd (put 19 0 s.fab.timeout)
  | 0x18 => wd (total ((List.range 4).map (fun d => put 14 0 (s.fab.ctxs.filter (fun c => c.die = d)).length * 2 ^ (16 * d))))
  | _ => if 0x40 ≤ off && off < 0x60 then wd (nth s.fab.wpt ((off - 0x40) / 8) 0) else 0

def State.shtRead (s : State) (off : Nat) : Word :=
  let x := s.sht
  match off with
  | 0x00 => wd (put 4 0 x.rto + put 20 8 x.mark + put 27 24 (x.self.getD 0) + flag 28 x.self.isSome)
  | 0x08 => wd (put 47 0 x.size + put 53 48 x.part)
  | 0x10 => wd (total ((List.range 4).map (fun d => put 12 0 (x.ops.filter (fun o => o.die = d)).length * 2 ^ (16 * d))))
  | 0x18 => wd (maskOf 16 (fun m => x.lost.contains m))
  | _ => if 0x40 ≤ off && off < 0x68 then wd (nth x.counts ((off - 0x40) / 8) 0) else 0

def State.poolBusy (s : State) (d p : Nat) : Nat := (s.pool d p).total - (s.pool d p).freeCount

/-- Cells in the transit store of a die: at its intermediates, at its output lines before release, and in the frame queues of its
gateways (R344, R348, R437). -/
def State.transitCells (s : State) (d : Nat) : Nat :=
  (s.fab.cells.filter (fun c => lineDie c.inter = d)).length + (s.fab.arrived.filter (fun c => lineDie c.outLine = d)).length +
    total ((s.fab.fq.filter (fun e => lineDie (e.1 / 520) = d)).flatMap (fun e => e.2.map (fun i =>
      if ((s.load i.load).bind (·.inPort)).isNone then i.cells - i.next else 0)))

def State.trvRead (s : State) (d off : Nat) : Word :=
  let x := s.trvDie d
  match off with
  | 0x00 => wd (put 9 0 x.flush + put 54 32 x.spill)
  | 0x08 => wd (put 18 0 (total ((List.range 6).map (s.poolBusy d)) + s.transitCells d) + put 54 32 (s.poolBusy d poolSpill))
  | 0x10 => wd (put 7 0 x.sel)
  | 0x18 =>
    let q := s.outQ (256 * d + 8 * fld x.sel 4 0 + fld x.sel 7 5)
    let sp := (q.cells.filter (·.spilled)).length
    wd (put 15 0 (q.cells.length - sp) + put 42 16 sp + flag 43 q.stop + put 55 44 q.mark)
  | _ => if 0x40 ≤ off && off < 0x70 then wd (nth x.counts ((off - 0x40) / 8) 0) else 0

def portModeCode : PortMode → Nat
  | .disabled => 0
  | .switch => 1
  | .endpoint => 2
  | .ethernet => 3

def widthCode (w : Nat) : Nat := if w = 8 then 0 else if w = 4 then 1 else if w = 2 then 2 else 3

/-- BRG_SUB_CFG. -/
def subCfgWord (c : SubConfig) : Word :=
  wd (portModeCode c.mode + flag 2 c.unpausable + flag 3 c.pfcEn + flag 4 c.promisc + put 10 5 (c.part.getD 0) + flag 11 c.part.isSome +
    put 16 12 c.rtoLog2)

/-- BRG_PARTNER. -/
def State.partnerWord (s : State) (l : Nat) : Word :=
  let x := s.sub l
  match x.partner with
  | some i => wd (put 39 0 i.pfx + put 49 40 i.lport + put 51 50 (i.role + 3) + flag 52 x.valid)
  | none => 0

/-- BRG_UNP_STATUS. -/
def State.unpStatus (s : State) (l : Nat) : Word :=
  let x := s.sub l
  wd (put 15 0 (total (x.unp.map (·.cells))) + put 47 16 x.ring.length + flag 48 (!x.ring.isEmpty) + flag 49 (s.dieTrained (lportDie l)))

/-- The sub-port that array member s of a port's registers belongs to (R328, R380); a member without one reads as a sub-port at reset. -/
def State.memberSub (s : State) (p i : Nat) : Nat := (s.subOf p i).getD 1024

def State.brgRead (s : State) (p off : Nat) : Word :=
  let l := s.memberSub p (off / 8 % 8)
  if off = 0x00 then wd (widthCode (s.port p).width + put 3 2 (s.port p).rate + put 11 8 (s.enabledSubs p).length)
  else if off = 0x08 then wd (s.port p).seed
  else if 0x40 ≤ off && off < 0x80 then subCfgWord (s.sub l).cfg
  else if 0x80 ≤ off && off < 0xC0 then s.linkStatus l
  else if 0xC0 ≤ off && off < 0x100 then s.partnerWord l
  else if 0x100 ≤ off && off < 0x140 then s.unpStatus l
  else if 0x140 ≤ off && off < 0x380 then wd (nth (s.sub l).counts ((off - 0x140) / 64) 0)
  else 0

def State.ctrRead (s : State) (p off : Nat) : Word :=
  let sel := s.fab.ctrSel.lookD p 0
  let l := s.memberSub p (fld sel 2 0)
  let c := fld sel 6 3
  let x := (s.sub (s.memberSub p (off / 8 % 8))).ctr
  if off = 0x00 then wd (put 6 0 sel)
  else if off = 0x08 then (if c < 8 then s.ctrClassState l c else 0)
  else if off = 0x10 then (if c < 9 then s.ctrShaperState l c else 0)
  else if off = 0x18 then s.ctrGateStatus l
  else if 0x40 ≤ off && off < 0x140 then wd (nth [x.shedIn, x.shedOut, x.gateHold, x.ctrlTx] ((off - 0x40) / 64) 0)
  else 0

/-! ### STK, FAR, ATL, PLT -/

def bringupCode : Bringup → Nat
  | .none => 0
  | .margin => 1
  | .repair => 2

def chCode : ChState → Nat
  | .untrained => 0
  | .training => 1
  | .ready => 2
  | .retraining => 3
  | .failed => 4

/-- Free spare rows and free reserve blocks of a pseudo-channel. -/
def State.spareRows (s : State) (q : Nat) : Nat := 64 - (s.pch q).spares.length
def State.reserveFree (s : State) (q : Nat) : Nat :=
  32 - (s.stk.retired.filter (fun e => e.1 / blocksPerPch = q && e.2.reserve.isSome)).length

def State.chWord (s : State) (ch : Nat) : Word :=
  let n := fun (q : Nat) => (s.stk.reqs.filter (fun r => r.queued && r.atPch q)).length
  wd (chCode (s.channel ch).state + put 17 8 (n (2 * ch)) + put 27 18 (n (2 * ch + 1)) + put 34 28 (s.spareRows (2 * ch)) +
    put 41 35 (s.spareRows (2 * ch + 1)) + put 47 42 (s.reserveFree (2 * ch)) + put 53 48 (s.reserveFree (2 * ch + 1)))

def State.stkReg (s : State) (off : Nat) : Word :=
  let k := s.stk
  match off with
  | 0x00 => wd (put 6 0 k.lat + put 11 8 k.wBulk + put 15 12 k.wSpill + put 23 16 k.ceThresh + put 31 24 k.rtThresh)
  | 0x08 => wd (maskOf 24 (fun i => k.trained.contains i) + put 25 24 (bringupCode k.bringup))
  | 0x10 => wd (put 9 0 k.chSel)
  | 0x18 => if k.chSel < 768 then s.chWord k.chSel else 0
  | 0x20 => wd (put 42 0 k.eccAddr + flag 63 k.eccValid)
  | 0x40 => wd k.corr
  | 0x48 => wd k.uncorr
  | 0x50 => wd k.remaps
  | 0x58 => wd k.retires
  | 0x60 => wd k.retrains
  | _ => 0

def farCode : FarState → Nat
  | .empty => 0
  | .training => 1
  | .enumerating => 2
  | .ready => 3
  | .down => 4
  | .failed => 5

/-- FAR_PORT_STATUS. -/
def farStatus (x : FarPort) : Word :=
  let mld := match x.id with
    | some i => i.mld
    | none => false
  let cap := match x.id with
    | some i => min i.capacity (2 ^ 42)
    | none => 0
  wd (farCode x.state + put 4 3 (flag 0 x.half) + put 9 5 x.width + flag 10 x.ide + flag 11 mld + put 63 32 (cap / 2 ^ 28))

def State.farRead (s : State) (off : Nat) : Word :=
  match off with
  | 0x00 => farStatus (s.farPort 0)
  | 0x08 => farStatus (s.farPort 1)
  | 0x40 => wd s.far.poison
  | 0x48 => wd s.far.lost
  | 0x50 => wd s.far.downs
  | _ => 0

/-- ATL_BANK_STATE. -/
def State.bankWord (s : State) (b : Nat) : Word :=
  if !bankReal b then 0
  else
    let x := s.bank b
    let p := s.bankPower b
    wd ((match p with
        | .on => 0
        | .retention => 1
        | .off => 2) + flag 2 (p = .retention && bankKind b = 0) + flag 3 x.degraded + flag 4 (s.faultPending b) + put 13 8 (s.bankSpares b) +
      put 21 16 x.region + put 23 22 x.phase.code + put 63 32 x.passes)

def State.atlRead (s : State) (off : Nat) : Word :=
  let a := s.atl
  match off with
  | 0x00 => wd (put 5 0 a.interval + flag 6 a.enabled)
  | 0x08 => wd (put 18 0 a.sel)
  | 0x10 => s.bankWord a.sel
  | 0x18 => wd (put 18 0 a.fault.bank + put 21 19 a.fault.sub + put 28 22 a.fault.column + flag 29 a.fault.hard + flag 63 a.fault.valid)
  | 0x20 => wd (put 7 0 a.wipes + put 9 8 a.cause + flag 10 a.wiping + flag 11 a.verifyOk)
  | 0x40 => wd a.passes
  | 0x48 => wd a.faults
  | 0x50 => wd a.corrected
  | _ => 0

def State.pltRead (s : State) (off : Nat) : Word :=
  let p := s.plt
  let x := s.pool (fld p.sel 1 0) (fld p.sel 4 2)
  let o := fld p.sel 31 16
  match off with
  | 0x00 => wd (put 4 0 p.sel + put 31 16 o)
  | 0x08 => wd (put 22 0 x.total + put 54 32 x.sumReserve)
  | 0x10 => wd (put 22 0 x.freeCount + put 46 24 x.sharedFree + put 48 47 x.level + flag 49 x.faulted)
  | 0x18 => wd (put 7 0 (nth x.thresh 0 0) + put 15 8 (nth x.thresh 1 0) + put 23 16 (nth x.thresh 2 0))
  | 0x20 => wd (put 22 0 (x.usedOf o) + put 46 24 (x.reserveOf o))
  | 0x28 => wd (put 1 0 p.last.die + put 4 2 p.last.pool + put 27 5 p.last.index + put 43 28 p.last.owner + flag 44 p.last.range +
      flag 45 p.last.notHeld + flag 63 p.last.valid)
  | 0x40 => wd p.doubles
  | 0x48 => wd p.holds
  | 0x50 => wd p.levels
  | _ => 0

/-! ### CRT, PWR, Graticule -/

def stageCode : StageState → Nat
  | .empty => 0
  | .writing => 1
  | .verified => 2
  | .activating => 3
  | .invalid => 4

def State.crtRead (s : State) (off : Nat) : Word :=
  let c := s.crt
  let i := c.itin
  let m := c.active.lookD 2 []
  match off with
  | 0x00 => wd (put 2 0 (lcCode c.lc) + flag 3 c.loaded.isSome + flag 4 c.certDone + flag 5 c.arm.isSome + put 15 8 c.svn)
  | 0x08 => wd (put 5 0 c.latched + put 13 8 c.live + put 31 16 c.tampers)
  | 0x10 => wd (stageCode c.stage + flag 3 c.pendStart + flag 4 c.fallback + put 15 8 (imgSvn m) + put 31 16 (imgSettingsFmt m) +
      put 63 32 (ofLe (imgVersion m)))
  | 0x18 => wd (i.next - 1)
  | 0x20 => wd (i.durable - 1)
  | 0x28 => wd i.acked
  | 0x30 => wd (put 31 0 (i.ckptNext - 1) + put 44 32 i.since)
  | 0x40 => wd i.lost
  | _ => 0

def State.pwrRead (s : State) (off : Nat) : Word :=
  let p := s.pwr
  match off with
  | 0x00 => p.statusWord
  | 0x08 => p.inputWord
  | 0x10 => p.alarmWord
  | 0x18 => wd (put 4 0 p.railSel)
  | 0x20 => if p.railSel < 31 then railWord (p.rail p.railSel) else 0
  | 0x28 => wd (put 5 0 p.tempSel)
  | 0x30 => if p.tempSel < 58 then sensorWord p.tempSel (p.sensor p.tempSel) else 0
  | 0x38 => p.coolantWord
  | 0x40 => wd p.warnCount
  | _ => 0

/-- The Graticule controls of a die (R97, R106). -/
def State.dieRead (s : State) (d off : Nat) : Word :=
  if off = 0x00 then wd (put 4 0 ((s.grid.shift.look d).getD 0x1F))
  else if 0x10 ≤ off && off < 0x30 then
    let j := (off - 0x10) / 8
    wd (maskOf 64 (fun i => decide ((s.tile (256 * d + 64 * j + i)).state = .unavailable)))
  else 0

/-- A descriptor queue (R480). -/
def State.dmaRead (s : State) (q off : Nat) : Word :=
  let x := s.cmp.dmaq.lookD q {}
  if off = 0 then wd (put 16 0 x.tail)
  else wd (put 16 0 x.head + (match x.state with
    | .disabled => 0
    | .idle => 1
    | .active => 2
    | .stopped => 3) * 2 ^ 17 + put 31 24 x.last + put 63 32 x.done)

/-- MSI-X table and pending bits of a function. -/
def State.pbaRead (s : State) (f off : Nat) : Word := wd (maskOf 64 (fun i => (s.fn f).msixWait.contains (8 * off + i)))

/-! ### The two views (R464, R465) -/

/-- A register in BAR0, by 64-bit offset. -/
def State.readPf (s : State) (a : Nat) : Word :=
  let off := a % 0x1000
  let n := a / 0x1000
  if a < 0x10000 then s.cmpRead 0 a
  else if n < 0x1C then
    (match n with
    | 0x10 => s.dtmRead off
    | 0x11 => s.merRead 0 off
    | 0x12 => s.cflRead 0 off
    | 0x13 => s.gazRead 0 off
    | 0x14 => s.wptRead off
    | 0x15 => s.shtRead off
    | 0x16 => s.stkReg off
    | 0x17 => s.farRead off
    | 0x18 => s.atlRead off
    | 0x19 => s.pltRead off
    | 0x1A => s.crtRead off
    | _ => s.pwrRead off)
  else if 0x20 ≤ n && n < 0x24 then s.trvRead (n - 0x20) off
  else if 0x100 ≤ n && n < 0x180 then s.brgRead (n - 0x100) off
  else if 0x180 ≤ n && n < 0x200 then s.ctrRead (n - 0x180) off
  else if 0x300000 ≤ a && a < 0x304000 then (s.fn 0).msixTab.lookD (a - 0x300000) 0
  else if 0x308000 ≤ a && a < 0x308080 then s.pbaRead 0 (a - 0x308000)
  else if 0x400000 ≤ a && a < 0x440000 then s.dmaRead ((a - 0x400000) / 16) (a % 16)
  else if 0x4000 ≤ n && n < 0x4400 then s.tileReg (n - 0x4000) off
  else if 0x4400 ≤ n && n < 0x4404 then s.dieRead (n - 0x4400) off
  else 0

/-- The counters of a tile window. -/
def tileCounter (off : Nat) : Bool := off = 0x58 || off = 0x60 || off = 0x68 || (0x810 ≤ off && off ≤ 0x838) || (0x910 ≤ off && off ≤ 0x938)

/-- A register in the BAR2 of VF v: what belongs to another partition reads as zero. -/
def State.readVf (s : State) (v a : Nat) : Word :=
  let off := a % 0x1000
  let n := a / 0x1000
  if a < 0xA8 then s.cmpRead v a
  else if n = 0x11 then (if 0x40 ≤ off then s.merRead v off else 0)
  else if n = 0x12 then s.cflRead v off
  else if n = 0x13 then s.gazRead v off
  else if 0x40000 ≤ a && a < 0x80000 then
    let q := (a - 0x40000) / 16
    if (s.cmp.dmaq.lookD q {}).part = some (v - 1) then s.dmaRead q (a % 16) else 0
  else if 0x800 ≤ n && n < 0xC00 then
    let t := n - 0x800
    if (s.tile t).part = some (v - 1) && (off = 0x08 || tileCounter off) then s.tileReg t off else 0
  else if 0xC00000 ≤ a && a < 0xC00100 then (s.fn v).msixTab.lookD (a - 0xC00000) 0
  else if 0xC01000 ≤ a && a < 0xC01008 then s.pbaRead v (a - 0xC01000)
  else 0

/-- What a 64-bit read of an aligned offset returns; an offset that maps no register reads as zero (R6). -/
def State.readReg (s : State) (f a : Nat) : Word := if a % 8 ≠ 0 then -1 else if f = 0 then s.readPf a else s.readVf f a

end Sys2Proof.Machine
end

