-- ==== Sys2Proof/Machine/Registers.lean ====
section
/-! DEFINITION. Host writes to registers, by field type, and accesses of the wrong width or alignment (R6 to R10, R107, R464, R465, R474). -/

namespace Sys2Proof.Machine

/-! ### Access types (R8 to R10) -/

/-- The access types of R8. -/
inductive Access where
  | rw | ro | wo | w1c | w1s | rws | rwl
deriving DecidableEq, Repr

structure RegField where
  hi  : Nat
  lo  : Nat
  acc : Access
deriving DecidableEq, Repr

/-- From DEPLOYED on, RWL fields keep their value (R8, R490). -/
def lcLocked : LcState → Bool
  | .blank => false
  | .provisioned => false
  | .deployed => true
  | .returned => true
  | .decommissioned => true

/-- The value of one field after a write of w to a register that held `old`; `held`: the W1C bits that the hardware set in the
cycle of the write (R8, R9). -/
def RegField.next (f : RegField) (locked : Bool) (old w : Nat) (held : Nat := 0) : Nat :=
  let o := fld old f.hi f.lo
  let n := fld w f.hi f.lo
  match f.acc with
  | .rw => n
  | .rws => n
  | .ro => o
  | .wo => 0
  | .w1c => (o &&& (2 ^ (f.hi + 1 - f.lo) - 1 - n)) ||| (o &&& fld held f.hi f.lo)
  | .w1s => o ||| n
  | .rwl => if locked then o else n

/-- A register after a write; bits outside its fields are reserved and read as zero (R7). -/
def regNext (fs : List RegField) (locked : Bool) (old w : Nat) (held : Nat := 0) : Nat :=
  total (fs.map (fun f => put f.hi f.lo (f.next locked old w held)))

/-- The write would change a locked field (R10). -/
def regRefused (fs : List RegField) (locked : Bool) (old w : Nat) : Bool :=
  locked && fs.any (fun f => f.acc = .rwl && fld w f.hi f.lo ≠ fld old f.hi f.lo)

/-! ### The writable registers of BAR0 -/

def whole : List RegField := [⟨63, 0, .rw⟩]
def bit63 : List RegField := [⟨42, 0, .ro⟩, ⟨63, 63, .w1c⟩]

/-- An offset of a counter among n counters at 0x40. -/
def counterAt (off n : Nat) : Bool := 0x40 ≤ off && off < 0x40 + 8 * n && off % 8 = 0

/-- Fields of the registers of the windows below 0x1C000 that take a write. -/
def windowFields (n off : Nat) : List RegField :=
  match n with
  | 0x11 => if off = 0x18 || off = 0x20 || off = 0x28 then whole else []
  | 0x12 => if off = 0x10 then [⟨15, 0, .rw⟩, ⟨31, 16, .rw⟩] else if off = 0x28 then [⟨24, 0, .ro⟩, ⟨25, 25, .w1c⟩, ⟨63, 32, .ro⟩] else if counterAt off 4 then whole else []
  | 0x13 => if off = 0x08 then [⟨11, 0, .rw⟩] else if counterAt off 5 then whole else []
  | 0x14 => if counterAt off 4 then whole else []
  | 0x15 => if counterAt off 5 then whole else []
  | 0x16 => if off = 0x10 then [⟨9, 0, .rw⟩] else if off = 0x20 then bit63 else if counterAt off 5 then whole else []
  | 0x17 => if counterAt off 3 then whole else []
  | 0x18 => if off = 0x08 then [⟨18, 0, .rw⟩] else if off = 0x18 then [⟨29, 0, .ro⟩, ⟨63, 63, .w1c⟩] else if counterAt off 3 then whole else []
  | 0x19 => if off = 0x00 then [⟨1, 0, .rw⟩, ⟨4, 2, .rw⟩, ⟨31, 16, .rw⟩] else if off = 0x28 then [⟨45, 0, .ro⟩, ⟨63, 63, .w1c⟩] else if counterAt off 3 then whole else []
  | 0x1B =>
    if off = 0x10 then [⟨15, 0, .ro⟩, ⟨31, 16, .w1c⟩] else if off = 0x18 then [⟨4, 0, .rw⟩] else if off = 0x28 then [⟨5, 0, .rw⟩]
    else if off = 0x40 then whole else []
  | _ => []

/-- Fields of a tile window that the host writes (R106). -/
def tileFields (off : Nat) : List RegField :=
  if off = 0x20 then [⟨20, 6, .rw⟩]
  else if off = 0x28 then [⟨14, 0, .rw⟩]
  else if off = 0x38 then [⟨20, 16, .rw⟩]
  else if off = 0x70 then [⟨20, 0, .ro⟩, ⟨63, 63, .w1c⟩]
  else if 0x400 ≤ off && off < 0x600 then [⟨12, 0, .rw⟩, ⟨13, 13, .rw⟩, ⟨26, 16, .rw⟩]
  else if off = 0x800 then [⟨31, 0, .rw⟩, ⟨32, 32, .rw⟩]
  else if tileCounter off then whole
  else []

/-- Fields of the register at a BAR0 offset; none: not mapped, or every field RO. -/
def pfFields (a : Nat) : List RegField :=
  let off := a % 0x1000
  let n := a / 0x1000
  if a < 0x10000 then
    (if (0x40 ≤ a && a < 0x80) || a = 0x140 || a = 0x148 || a = 0x150 || a = 0x240 || a = 0x248 || a = 0x250 then whole else [])
  else if n < 0x1C then windowFields n off
  else if 0x20 ≤ n && n < 0x24 then (if off = 0x10 then [⟨4, 0, .rw⟩, ⟨7, 5, .rw⟩] else if counterAt off 6 then whole else [])
  else if 0x100 ≤ n && n < 0x180 then (if 0x140 ≤ off && off < 0x380 then whole else [])
  else if 0x180 ≤ n && n < 0x200 then (if off = 0 then [⟨2, 0, .rw⟩, ⟨6, 3, .rw⟩] else if counterAt off 32 then whole else [])
  else if 0x300000 ≤ a && a < 0x304000 then whole
  else if 0x4000 ≤ n && n < 0x4400 then tileFields off
  else []

/-! ### Storing a value -/

/-- Stores into the windows below 0x1C000; v is the register's new value, with W1C bits as they remain. -/
def State.storeWindow (s : State) (n off v : Nat) : State :=
  let c := (off - 0x40) / 8
  match n with
  | 0x11 => { s with mer := { s.mer with limit := if off = 0x18 then v else s.mer.limit, ovf := if off = 0x20 then v else s.mer.ovf,
                                         reject := if off = 0x28 then v else s.mer.reject } }
  | 0x12 =>
    if off = 0x10 then s.setFn 0 { s.fn 0 with cflSel := v }
    else if off = 0x28 then { s with cfl := { s.cfl with last := { s.cfl.last with valid := v.testBit 25 } } }
    else { s with cfl := { s.cfl with counts := s.cfl.counts.set c v } }
  | 0x13 => if off = 0x08 then s.setFn 0 { s.fn 0 with gazSel := v } else { s with gaz := { s.gaz with counts := s.gaz.counts.set c v } }
  | 0x14 => { s with fab := { s.fab with wpt := s.fab.wpt.set c v } }
  | 0x15 => { s with sht := { s.sht with counts := s.sht.counts.set c v } }
  | 0x16 =>
    let k := s.stk
    { s with stk := (match off with
      | 0x10 => { k with chSel := v }
      | 0x20 => { k with eccValid := v.testBit 63 }
      | 0x40 => { k with corr := v }
      | 0x48 => { k with uncorr := v }
      | 0x50 => { k with remaps := v }
      | 0x58 => { k with retires := v }
      | _ => { k with retrains := v }) }
  | 0x17 =>
    { s with far := (match off with
      | 0x40 => { s.far with poison := v }
      | 0x48 => { s.far with lost := v }
      | _ => { s.far with downs := v }) }
  | 0x18 =>
    let a := s.atl
    { s with atl := (match off with
      | 0x08 => { a with sel := v }
      | 0x18 => { a with fault := { a.fault with valid := v.testBit 63 } }
      | 0x40 => { a with passes := v }
      | 0x48 => { a with faults := v }
      | _ => { a with corrected := v }) }
  | 0x19 =>
    let p := s.plt
    { s with plt := (match off with
      | 0x00 => { p with sel := v }
      | 0x28 => { p with last := { p.last with valid := v.testBit 63 } }
      | 0x40 => { p with doubles := v }
      | 0x48 => { p with holds := v }
      | _ => { p with levels := v }) }
  | _ =>
    let p := s.pwr
    { s with pwr := (match off with
      | 0x10 => { p with latched := fld v 31 16 }
      | 0x18 => { p with railSel := v }
      | 0x28 => { p with tempSel := v }
      | _ => { p with warnCount := v }) }

/-- Stores into a CMP register. -/
def State.storeCmp (s : State) (f a v : Nat) : State :=
  let c := s.cmp
  let x := s.flt
  match a with
  | 0x140 => { s with cmp := { c with mgmtDrops := v } }
  | 0x148 => { s with cmp := { c with wdog := v } }
  | 0x150 => { s with cmp := { c with hostDrops := v } }
  | 0x240 => { s with flt := { x with linkLoss := v } }
  | 0x248 => { s with flt := { x with uncorr := v } }
  | 0x250 => { s with flt := { x with teardowns := v } }
  | _ => s.setFn f { s.fn f with mboxCmd := (s.fn f).mboxCmd.set ((a - 0x40) / 8) (wd v) }

/-- Stores into a CTR register of a port. -/
def State.storeCtr (s : State) (p off v : Nat) : State :=
  if off = 0 then { s with fab := { s.fab with ctrSel := s.fab.ctrSel.put p v } }
  else
    match s.subOf p (off / 8 % 8) with
    | none => s
    | some l => s.onCtr l (fun c => match (off - 0x40) / 64 with
      | 0 => { c with shedIn := v }
      | 1 => { c with shedOut := v }
      | 2 => { c with gateHold := v }
      | _ => { c with ctrlTx := v })

/-- Stores into a tile window: configuration, counters, GRT_NUM_CTRL, VALID of GRT_ECC_ADDR. -/
def State.storeTile (s : State) (t off v : Nat) : State :=
  s.onTile t (fun x =>
    if hostConfigurable off then x.hostConfig off (wd v)
    else if off = 0x70 then { x with eccValid := v.testBit 63 }
    else x.writeReg off (wd v))

def State.storePf (s : State) (a v : Nat) : State :=
  let off := a % 0x1000
  let n := a / 0x1000
  if a < 0x10000 then s.storeCmp 0 a v
  else if n < 0x1C then s.storeWindow n off v
  else if n < 0x24 then
    let x := s.trvDie (n - 0x20)
    { s with fab := { s.fab with trv := s.fab.trv.put (n - 0x20) (if off = 0x10 then { x with sel := v } else { x with counts := x.counts.set ((off - 0x40) / 8) v }) } }
  else if n < 0x180 then (match s.subOf (n - 0x100) (off / 8 % 8) with
    | none => s
    | some l => s.onSub l (fun x => { x with counts := x.counts.set ((off - 0x140) / 64) v }))
  else if n < 0x200 then s.storeCtr (n - 0x180) off v
  else if n < 0x4000 then s.setFn 0 { s.fn 0 with msixTab := (s.fn 0).msixTab.put (a - 0x300000) (wd v) }
  else s.storeTile (n - 0x4000) off v

/-! ### Writes -/

/-- A write acts by the types of the register's fields; the increments that a counter has in the cycle add to the value; a refused RWL
change raises LOCKED_WRITE (R10). -/
def State.typedWrite (s : State) (a : Nat) (v : Word) : State :=
  let fs := pfFields a
  if fs.isEmpty then s
  else
    let old := (s.readPf a).toNat
    let locked := lcLocked s.crt.lc
    let s := if regRefused fs locked old v.toNat then s.notify .lockedWrite .ok none a 0 else s
    let w := regNext fs locked old v.toNat (s.w1cHeld a)
    s.storePf a (if fs = whole then min (w + s.w1cHeld a) (2 ^ 64 - 1) else w)

/-- A write to a mailbox word: ignored, with ACCESS_ERROR, while BUSY is set (R474). -/
def State.mboxWrite (s : State) (f a : Nat) (v : Word) : State :=
  if (s.fn f).mboxBusy then s.accessError a (fnPart f) else s.storeCmp f a v.toNat

/-- The registers of a function that both views hold and the host may write; none: not one of them. `base` is the place of the
descriptor queues, `own` whether a queue is the function's. -/
def State.fnWrite (s : State) (f a base : Nat) (own : Nat → Bool) (v : Word) : Option State :=
  if a = 0x18 then some (s.cmdDoorbell f v)
  else if a = 0x30 then some (s.evtHeadWrite f v)
  else if a = 0x80 then some (s.mboxGo f v)
  else if 0x40 ≤ a && a < 0x80 then some (s.mboxWrite f a v)
  else if a = 0x11040 then some (s.merCapture f v)
  else if base ≤ a && a < base + 0x40000 && a % 16 = 0 && own ((a - base) / 16) then some (s.dmaqDoorbell f ((a - base) / 16) v)
  else none

/-- A write in BAR0. Registers with a row of their own act as that row does. -/
def State.writePf (s : State) (a : Nat) (v : Word) : State :=
  let off := a % 0x1000
  let n := a / 0x1000
  match s.fnWrite 0 a 0x400000 (fun _ => true) v with
  | some s => s
  | none =>
    if 0x100 ≤ n && n < 0x180 && off = 0x08 then s.srReseed (n - 0x100) v.toNat
    else if 0x4000 ≤ n && n < 0x4400 then
      let t := n - 0x4000
      let x := s.tile t
      if off = 0 then s.tileCtrl t v
      else if off = 0x808 then s.onTile t (fun x => x.writeReg 0x808 v)
      else if off = 0x900 || off = 0x908 then s.gazHostWrite t off v
      else if hostConfigurable off && (x.state = .running || x.state = .halted) then s.accessError a x.part
      else s.typedWrite a v
    else s.typedWrite a v

/-- A write in the BAR2 of VF v: only the registers R465 names; every other write raises ACCESS_ERROR. -/
def State.writeVf (s : State) (f a : Nat) (v : Word) : State :=
  match s.fnWrite f a 0x40000 (fun q => (s.cmp.dmaq.lookD q {}).part = some (f - 1)) v with
  | some s => s
  | none =>
    if a = 0x12010 then s.setFn f { s.fn f with cflSel := bits v 31 0 }
    else if a = 0x13008 then s.setFn f { s.fn f with gazSel := bits v 11 0 }
    else if 0xC00000 ≤ a && a < 0xC00100 then s.setFn f { s.fn f with msixTab := (s.fn f).msixTab.put (a - 0xC00000) v }
    else s.accessError a (fnPart f)

/-- The MSI-X table and PBA of a function: R6 does not apply to them (R462). -/
def msixWindow (f a : Nat) : Bool :=
  if f = 0 then 0x300000 ≤ a && a < 0x309000 else 0xC00000 ≤ a && a < 0xC02000

/-- A 32-bit access to the MSI-X table or PBA: a read returns the half that it names, and a write of the table sets it. The row carries
no value: the half takes a free value (log 77). -/
def State.msixHalf (s : State) (f a : Nat) (write : Bool) : State :=
  let w := s.readReg f (a / 8 * 8)
  let hi := decide (a % 8 = 4)
  let base := if f = 0 then 0x300000 else 0xC00000
  if !write then s.emit (.read f a (wd (if hi then w.toNat / 2 ^ 32 else w.toNat % 2 ^ 32)))
  else if (if f = 0 then 0x4000 else 0x100) ≤ a - base then s
  else
    let v := Config.freeNat s.free % 2 ^ 32
    let w := if hi then w.toNat % 2 ^ 32 + 2 ^ 32 * v else w.toNat / 2 ^ 32 * 2 ^ 32 + v
    { s with free := s.free + 1 }.setFn f { s.fn f with msixTab := (s.fn f).msixTab.put (a / 8 * 8 - base) (wd w) }

/-- A narrow or misaligned access: a read returns all ones, a write is ignored; both raise ACCESS_ERROR (R6). -/
def State.badAccess (s : State) (f a : Nat) (write : Bool) : State :=
  let s := s.accessError a (fnPart f)
  if write then s else s.emit (.read f a (-1))

def execRegisterWrite (f a : Nat) (v : Word) (s : State) : Host.Outcome State Fault Refusal :=
  .next (if 64 < f then s else if a % 8 ≠ 0 then s.badAccess f a true else if f = 0 then s.writePf a v else s.writeVf f a v)

/-- An access of `width` bytes; a 32-bit access to the MSI-X table and PBA is none of the bad ones; a whole aligned read returns the register, a whole aligned write belongs to REGISTER_WRITE. -/
def execRegisterBadAccess (f a width : Nat) (write : Bool) (s : State) : Host.Outcome State Fault Refusal :=
  .next (if 64 < f then s
    else if width = 8 && a % 8 = 0 then (if write then s else s.emit (.read f a (s.readReg f a)))
    else if width = 4 && a % 4 = 0 && msixWindow f a then s.msixHalf f a write
    else s.badAccess f a write)

end Sys2Proof.Machine
end

