-- ==== Sys2Proof/Machine/Dispatch.lean ====
section
/-! DEFINITION. One arm per command. -/

namespace Sys2Proof.Machine

def exec (i : Instr) (s : State) : Host.Outcome State Fault Refusal :=
  match i with
  | .nop t => Sys2Proof.Machine.execNop t s
  | .end_ t => Sys2Proof.Machine.execEnd t s
  | .yield t => Sys2Proof.Machine.execYield t s
  | .rxrel t => Sys2Proof.Machine.execRxrel t s
  | .trap t imm => Sys2Proof.Machine.execTrap t imm s
  | .add t rd ra rb => Sys2Proof.Machine.execAdd t rd ra rb s
  | .sub t rd ra rb => Sys2Proof.Machine.execSub t rd ra rb s
  | .and t rd ra rb => Sys2Proof.Machine.execAnd t rd ra rb s
  | .or t rd ra rb => Sys2Proof.Machine.execOr t rd ra rb s
  | .xor t rd ra rb => Sys2Proof.Machine.execXor t rd ra rb s
  | .shl t rd ra rb => Sys2Proof.Machine.execShl t rd ra rb s
  | .shr t rd ra rb => Sys2Proof.Machine.execShr t rd ra rb s
  | .sar t rd ra rb => Sys2Proof.Machine.execSar t rd ra rb s
  | .mul t rd ra rb => Sys2Proof.Machine.execMul t rd ra rb s
  | .min t rd ra rb => Sys2Proof.Machine.execMin t rd ra rb s
  | .max t rd ra rb => Sys2Proof.Machine.execMax t rd ra rb s
  | .slt t rd ra rb => Sys2Proof.Machine.execSlt t rd ra rb s
  | .sltu t rd ra rb => Sys2Proof.Machine.execSltu t rd ra rb s
  | .addi t rd ra imm => Sys2Proof.Machine.execAddi t rd ra imm s
  | .andi t rd ra imm => Sys2Proof.Machine.execAndi t rd ra imm s
  | .ori t rd ra imm => Sys2Proof.Machine.execOri t rd ra imm s
  | .xori t rd ra imm => Sys2Proof.Machine.execXori t rd ra imm s
  | .shli t rd ra imm => Sys2Proof.Machine.execShli t rd ra imm s
  | .shri t rd ra imm => Sys2Proof.Machine.execShri t rd ra imm s
  | .sari t rd ra imm => Sys2Proof.Machine.execSari t rd ra imm s
  | .li t rd imm => Sys2Proof.Machine.execLi t rd imm s
  | .lui t rd imm => Sys2Proof.Machine.execLui t rd imm s
  | .ld t rd ra imm => Sys2Proof.Machine.execLd t rd ra imm s
  | .st t rb ra imm => Sys2Proof.Machine.execSt t rb ra imm s
  | .ldw t rd ra imm => Sys2Proof.Machine.execLdw t rd ra imm s
  | .stw t rb ra imm => Sys2Proof.Machine.execStw t rb ra imm s
  | .br t cond ra rb imm => Sys2Proof.Machine.execBr t cond ra rb imm s
  | .jmp t imm => Sys2Proof.Machine.execJmp t imm s
  | .jr t ra => Sys2Proof.Machine.execJr t ra s
  | .call t rd imm => Sys2Proof.Machine.execCall t rd imm s
  | .dbnz t ra imm => Sys2Proof.Machine.execDbnz t ra imm s
  | .loop t ra imm => Sys2Proof.Machine.execLoop t ra imm s
  | .lidx t rd imm => Sys2Proof.Machine.execLidx t rd imm s
  | .rdreg t rd imm => Sys2Proof.Machine.execRdreg t rd imm s
  | .wrreg t ra imm => Sys2Proof.Machine.execWrreg t ra imm s
  | .qfree t rd imm => Sys2Proof.Machine.execQfree t rd imm s
  | .defrgn t ra rb imm => Sys2Proof.Machine.execDefrgn t ra rb imm s
  | .fence t ra imm => Sys2Proof.Machine.execFence t ra imm s
  | .programBoundarySwap t => Sys2Proof.Machine.execProgramBoundarySwap t s
  | .tens t ra imm => Sys2Proof.Machine.execTens t ra imm s
  | .vec t ra imm => Sys2Proof.Machine.execVec t ra imm s
  | .move t ra imm => Sys2Proof.Machine.execMove t ra imm s
  | .msg t ra imm => Sys2Proof.Machine.execMsg t ra imm s
  | .sprs t ra imm => Sys2Proof.Machine.execSprs t ra imm s
  | .msignal t ra imm => Sys2Proof.Machine.execMsignal t ra imm s
  | .mwait t rd ra => Sys2Proof.Machine.execMwait t rd ra s
  | .mwaitto t rd ra imm => Sys2Proof.Machine.execMwaitto t rd ra imm s
  | .mread t rd ra imm => Sys2Proof.Machine.execMread t rd ra imm s
  | .strandSwitch t => Sys2Proof.Machine.execStrandSwitch t s
  | .strandWake t strand => Sys2Proof.Machine.execStrandWake t strand s
  | .matmul t => Sys2Proof.Machine.execMatmul t s
  | .promoteDecision t => Sys2Proof.Machine.execPromoteDecision t s
  | .matmulComplete t => Sys2Proof.Machine.execMatmulComplete t s
  | .vecAdd t => Sys2Proof.Machine.execVecAdd t s
  | .vecSub t => Sys2Proof.Machine.execVecSub t s
  | .vecMul t => Sys2Proof.Machine.execVecMul t s
  | .vecFma t => Sys2Proof.Machine.execVecFma t s
  | .vecMin t => Sys2Proof.Machine.execVecMin t s
  | .vecMax t => Sys2Proof.Machine.execVecMax t s
  | .vecAbs t => Sys2Proof.Machine.execVecAbs t s
  | .vecExp2 t => Sys2Proof.Machine.execVecExp2 t s
  | .vecLog2 t => Sys2Proof.Machine.execVecLog2 t s
  | .vecRecip t => Sys2Proof.Machine.execVecRecip t s
  | .vecRsqrt t => Sys2Proof.Machine.execVecRsqrt t s
  | .vecSigmoid t => Sys2Proof.Machine.execVecSigmoid t s
  | .vecTanh t => Sys2Proof.Machine.execVecTanh t s
  | .vecRsum t => Sys2Proof.Machine.execVecRsum t s
  | .vecRmax t => Sys2Proof.Machine.execVecRmax t s
  | .vecRmin t => Sys2Proof.Machine.execVecRmin t s
  | .vecCvt t => Sys2Proof.Machine.execVecCvt t s
  | .vecIadd t => Sys2Proof.Machine.execVecIadd t s
  | .vecIsub t => Sys2Proof.Machine.execVecIsub t s
  | .vecImul t => Sys2Proof.Machine.execVecImul t s
  | .vecImin t => Sys2Proof.Machine.execVecImin t s
  | .vecImax t => Sys2Proof.Machine.execVecImax t s
  | .vecIand t => Sys2Proof.Machine.execVecIand t s
  | .vecIor t => Sys2Proof.Machine.execVecIor t s
  | .vecIxor t => Sys2Proof.Machine.execVecIxor t s
  | .copy t => Sys2Proof.Machine.execCopy t s
  | .copyComplete t => Sys2Proof.Machine.execCopyComplete t s
  | .send t => Sys2Proof.Machine.execSend t s
  | .spmm t => Sys2Proof.Machine.execSpmm t s
  | .predict t => Sys2Proof.Machine.execPredict t s
  | .instructionComplete t engine => Sys2Proof.Machine.execInstructionComplete t engine s
  | .messageReceive t src srcGw => Sys2Proof.Machine.execMessageReceive t src srcGw s
  | .messageDispatch t => Sys2Proof.Machine.execMessageDispatch t s
  | .tileCtrlReset t value => Sys2Proof.Machine.execTileCtrlReset t value s
  | .tileCtrlHalt t value => Sys2Proof.Machine.execTileCtrlHalt t value s
  | .tileCtrlResume t value => Sys2Proof.Machine.execTileCtrlResume t value s
  | .tileCtrlStart t value => Sys2Proof.Machine.execTileCtrlStart t value s
  | .tileResetDone t cc => Sys2Proof.Machine.execTileResetDone t cc s
  | .srReseed t value => Sys2Proof.Machine.execSrReseed t value s
  | .tileReset k tiles clearScratch => Sys2Proof.Machine.execTileReset k tiles clearScratch s
  | .tileStart k tiles => Sys2Proof.Machine.execTileStart k tiles s
  | .tileHalt k tiles => Sys2Proof.Machine.execTileHalt k tiles s
  | .tileResume k tiles => Sys2Proof.Machine.execTileResume k tiles s
  | .tileStatus k tiles => Sys2Proof.Machine.execTileStatus k tiles s
  | .columnShift k die column => Sys2Proof.Machine.execColumnShift k die column s
  | .vtabRead k table dest => Sys2Proof.Machine.execVtabRead k table dest s
  | .imemLoad k tiles bank src offset len => Sys2Proof.Machine.execImemLoad k tiles bank src offset len s
  | .imemSwap k tiles arm table => Sys2Proof.Machine.execImemSwap k tiles arm table s
  | .imemRead k t bank dest offset len => Sys2Proof.Machine.execImemRead k t bank dest offset len s
  | .scratchWrite k tiles addr src len => Sys2Proof.Machine.execScratchWrite k tiles addr src len s
  | .scratchRead k t addr dest len => Sys2Proof.Machine.execScratchRead k t addr dest len s
  | .datumSet k part on => Sys2Proof.Machine.execDatumSet k part on s
  | .datumSyncCal k role => Sys2Proof.Machine.execDatumSyncCal k role s
  | .calPulseEmit cc => Sys2Proof.Machine.execCalPulseEmit cc s
  | .syncCalTimeout cc => Sys2Proof.Machine.execSyncCalTimeout cc s
  | .datumStart k => Sys2Proof.Machine.execDatumStart k s
  | .startPulseEmit cc => Sys2Proof.Machine.execStartPulseEmit cc s
  | .syncPulse cc => Sys2Proof.Machine.execSyncPulse cc s
  | .timebaseZero cc => Sys2Proof.Machine.execTimebaseZero cc s
  | .datumStartTimeout cc => Sys2Proof.Machine.execDatumStartTimeout cc s
  | .checkPulseEmit cc => Sys2Proof.Machine.execCheckPulseEmit cc s
  | .checkPulseMissing cc => Sys2Proof.Machine.execCheckPulseMissing cc s
  | .datumStartAt k part v => Sys2Proof.Machine.execDatumStartAt k part v s
  | .datumStartAtFire cc => Sys2Proof.Machine.execDatumStartAtFire cc s
  | .driftSnapshot k => Sys2Proof.Machine.execDriftSnapshot k s
  | .paddedCompletion id cc => Sys2Proof.Machine.execPaddedCompletion id cc s
  | .schedRefresh pch cc errs => Sys2Proof.Machine.execSchedRefresh pch cc errs s
  | .schedRetrain ch cc => Sys2Proof.Machine.execSchedRetrain ch cc s
  | .merHomeApply id parityOk => Sys2Proof.Machine.execMerHomeApply id parityOk s
  | .merRelease id cc => Sys2Proof.Machine.execMerRelease id cc s
  | .merSamplePoint obj cc => Sys2Proof.Machine.execMerSamplePoint obj cc s
  | .mwaittoExpiry t strand cc => Sys2Proof.Machine.execMwaittoExpiry t strand cc s
  | .deadlockDetect part cc => Sys2Proof.Machine.execDeadlockDetect part cc s
  | .merDbgCapture fn value => Sys2Proof.Machine.execMerDbgCapture fn value s
  | .merDbgCaptureDone fn => Sys2Proof.Machine.execMerDbgCaptureDone fn s
  | .merAlloc k obj part kind value => Sys2Proof.Machine.execMerAlloc k obj part kind value s
  | .merFree k obj => Sys2Proof.Machine.execMerFree k obj s
  | .merSet k obj value gen => Sys2Proof.Machine.execMerSet k obj value gen s
  | .merSignal k obj clear => Sys2Proof.Machine.execMerSignal k obj clear s
  | .merRead k obj => Sys2Proof.Machine.execMerRead k obj s
  | .merDlCfg k window enable => Sys2Proof.Machine.execMerDlCfg k window enable s
  | .merDlSnapshot k part dest => Sys2Proof.Machine.execMerDlSnapshot k part dest s
  | .cflGroupDefine k g => Sys2Proof.Machine.execCflGroupDefine k g s
  | .cflGroupOpen k group => Sys2Proof.Machine.execCflGroupOpen k group s
  | .cflGroupClose k group => Sys2Proof.Machine.execCflGroupClose k group s
  | .cflGroupDelete k group => Sys2Proof.Machine.execCflGroupDelete k group s
  | .cflSubmit k rank desc => Sys2Proof.Machine.execCflSubmit k rank desc s
  | .cflAbort k what => Sys2Proof.Machine.execCflAbort k what s
  | .cflGroupQuery k group => Sys2Proof.Machine.execCflGroupQuery k group s
  | .cflDigest k group desc => Sys2Proof.Machine.execCflDigest k group desc s
  | .cflTileSubmit t => Sys2Proof.Machine.execCflTileSubmit t s
  | .collSubmitPacket lport => Sys2Proof.Machine.execCollSubmitPacket lport s
  | .collectiveStart group rank => Sys2Proof.Machine.execCollectiveStart group rank s
  | .cflBlockReceive die => Sys2Proof.Machine.execCflBlockReceive die s
  | .cflCombine group rank seq tree segment block p1 => Sys2Proof.Machine.execCflCombine group rank seq tree segment block p1 s
  | .cflCreditReceive die => Sys2Proof.Machine.execCflCreditReceive die s
  | .digestUpReceive die => Sys2Proof.Machine.execDigestUpReceive die s
  | .confirmReceive die => Sys2Proof.Machine.execConfirmReceive die s
  | .scalarReceive die => Sys2Proof.Machine.execScalarReceive die s
  | .cflAbortReceive die => Sys2Proof.Machine.execCflAbortReceive die s
  | .cflProgTimeout group seq cc => Sys2Proof.Machine.execCflProgTimeout group seq cc s
  | .gazRequest die => Sys2Proof.Machine.execGazRequest die s
  | .gazRowComplete die id row => Sys2Proof.Machine.execGazRowComplete die id row s
  | .gazReply die id => Sys2Proof.Machine.execGazReply die id s
  | .gazTableDefine k d => Sys2Proof.Machine.execGazTableDefine k d s
  | .gazTableDelete k table => Sys2Proof.Machine.execGazTableDelete k table s
  | .gazTableQuery k table => Sys2Proof.Machine.execGazTableQuery k table s
  | .gazLookup k die body len reply => Sys2Proof.Machine.execGazLookup k die body len reply s
  | .gazLegendCheck k base rowBlocks colBlocks threshold => Sys2Proof.Machine.execGazLegendCheck k base rowBlocks colBlocks threshold s
  | .gazSparseCtrlWrite t value => Sys2Proof.Machine.execGazSparseCtrlWrite t value s
  | .gazPredThreshWrite t value => Sys2Proof.Machine.execGazPredThreshWrite t value s
  | .portConfig k port width rate subs => Sys2Proof.Machine.execPortConfig k port width rate subs s
  | .portLink k lport action => Sys2Proof.Machine.execPortLink k lport action s
  | .portStatus k lport => Sys2Proof.Machine.execPortStatus k lport s
  | .portPartner k lport => Sys2Proof.Machine.execPortPartner k lport s
  | .portCmisRead k port bank page offset len => Sys2Proof.Machine.execPortCmisRead k port bank page offset len s
  | .portSteerSet k die index entry => Sys2Proof.Machine.execPortSteerSet k die index entry s
  | .portSteerRead k die index => Sys2Proof.Machine.execPortSteerRead k die index s
  | .portConvSet k port conv profile => Sys2Proof.Machine.execPortConvSet k port conv profile s
  | .brgSrReseed port value => Sys2Proof.Machine.execBrgSrReseed port value s
  | .linkCtrlReceive lport bytes corr uncorr => Sys2Proof.Machine.execLinkCtrlReceive lport bytes corr uncorr s
  | .linkIdReceive lport u => Sys2Proof.Machine.execLinkIdReceive lport u s
  | .linkIdSend lport cc => Sys2Proof.Machine.execLinkIdSend lport cc s
  | .identTimeout lport cc => Sys2Proof.Machine.execIdentTimeout lport cc s
  | .sequencedUnitReceive lport u => Sys2Proof.Machine.execSequencedUnitReceive lport u s
  | .alignmentLoss lport cc => Sys2Proof.Machine.execAlignmentLoss lport cc s
  | .noGoodUnitTimeout lport cc => Sys2Proof.Machine.execNoGoodUnitTimeout lport cc s
  | .trainingComplete lport cc => Sys2Proof.Machine.execTrainingComplete lport cc s
  | .trainingTimeout lport cc => Sys2Proof.Machine.execTrainingTimeout lport cc s
  | .downHoldoffExpiry lport cc => Sys2Proof.Machine.execDownHoldoffExpiry lport cc s
  | .accelPacketIngress lport => Sys2Proof.Machine.execAccelPacketIngress lport s
  | .e2eRtoExpiry lport dest vc cc => Sys2Proof.Machine.execE2eRtoExpiry lport dest vc cc s
  | .e2ePacketReceive lport => Sys2Proof.Machine.execE2ePacketReceive lport s
  | .e2eAckTimer die src vc cc => Sys2Proof.Machine.execE2eAckTimer die src vc cc s
  | .sourceFlowRetire lport dest vc cc => Sys2Proof.Machine.execSourceFlowRetire lport dest vc cc s
  | .ethFrameReceive lport cc frame => Sys2Proof.Machine.execEthFrameReceive lport cc frame s
  | .pauseReceive lport cc frame => Sys2Proof.Machine.execPauseReceive lport cc frame s
  | .spillRingMove lport => Sys2Proof.Machine.execSpillRingMove lport s
  | .unpFrameInject lport cc => Sys2Proof.Machine.execUnpFrameInject lport cc s
  | .ingressDeadlineShed lport cc => Sys2Proof.Machine.execIngressDeadlineShed lport cc s
  | .portEgressRequest t => Sys2Proof.Machine.execPortEgressRequest t s
  | .cmisPresence port present ack pages cc => Sys2Proof.Machine.execCmisPresence port present ack pages cc s
  | .cmisPoll port ack page10 page11 cc => Sys2Proof.Machine.execCmisPoll port ack page10 page11 cc s
  | .cmisInterrupt port ack page10 page11 cc => Sys2Proof.Machine.execCmisInterrupt port ack page10 page11 cc s
  | .routeSetPrefix k pfx level => Sys2Proof.Machine.execRouteSetPrefix k pfx level s
  | .routeSetPortset k set members => Sys2Proof.Machine.execRouteSetPortset k set members s
  | .routeLocalSet k p target => Sys2Proof.Machine.execRouteLocalSet k p target s
  | .aliasLoad k first addr count => Sys2Proof.Machine.execAliasLoad k first addr count s
  | .aliasSwap k => Sys2Proof.Machine.execAliasSwap k s
  | .mcastSet k index targets => Sys2Proof.Machine.execMcastSet k index targets s
  | .reorderCfg k timeout => Sys2Proof.Machine.execReorderCfg k timeout s
  | .trvQueueCfg k cfg => Sys2Proof.Machine.execTrvQueueCfg k cfg s
  | .flowQuery k die src vc => Sys2Proof.Machine.execFlowQuery k die src vc s
  | .routeQuery k dest => Sys2Proof.Machine.execRouteQuery k dest s
  | .reorderArrival die => Sys2Proof.Machine.execReorderArrival die s
  | .reorderTimeout die src vc cc => Sys2Proof.Machine.execReorderTimeout die src vc cc s
  | .reorderCtxRetire die src vc cc => Sys2Proof.Machine.execReorderCtxRetire die src vc cc s
  | .frameLaunch line slot => Sys2Proof.Machine.execFrameLaunch line slot s
  | .cellRelease line slot => Sys2Proof.Machine.execCellRelease line slot s
  | .spillReturn queue => Sys2Proof.Machine.execSpillReturn queue s
  | .expressRingInject line slot => Sys2Proof.Machine.execExpressRingInject line slot s
  | .expressRingDeliver line slot => Sys2Proof.Machine.execExpressRingDeliver line slot s
  | .mcastCompletion id => Sys2Proof.Machine.execMcastCompletion id s
  | .txUnitSelect lport cc => Sys2Proof.Machine.execTxUnitSelect lport cc s
  | .shaperRefill lport cc => Sys2Proof.Machine.execShaperRefill lport cc s
  | .gateEntryChange lport cc => Sys2Proof.Machine.execGateEntryChange lport cc s
  | .gateListStart lport cc => Sys2Proof.Machine.execGateListStart lport cc s
  | .egressDeadlineShed lport cc => Sys2Proof.Machine.execEgressDeadlineShed lport cc s
  | .ctrClassCfg k lport cls quantum => Sys2Proof.Machine.execCtrClassCfg k lport cls quantum s
  | .ctrShaperSet k lport which enable rate burst => Sys2Proof.Machine.execCtrShaperSet k lport which enable rate burst s
  | .ctrGateSet k lport enable count addr => Sys2Proof.Machine.execCtrGateSet k lport enable count addr s
  | .ctrGateRead k lport dest => Sys2Proof.Machine.execCtrGateRead k lport dest s
  | .ctrStatus k lport => Sys2Proof.Machine.execCtrStatus k lport s
  | .sheetRequest t => Sys2Proof.Machine.execSheetRequest t s
  | .releaseStoreSend id => Sys2Proof.Machine.execReleaseStoreSend id s
  | .sheetCombine lport id => Sys2Proof.Machine.execSheetCombine lport id s
  | .sheetHomeReceive die => Sys2Proof.Machine.execSheetHomeReceive die s
  | .sheetLineApply die id => Sys2Proof.Machine.execSheetLineApply die id s
  | .sheetCompletionReceive die => Sys2Proof.Machine.execSheetCompletionReceive die s
  | .sheetRtoExpiry id cc => Sys2Proof.Machine.execSheetRtoExpiry id cc s
  | .shtSheetSet k members self classes rtoLog2 homeMark => Sys2Proof.Machine.execShtSheetSet k members self classes rtoLog2 homeMark s
  | .shtExport k part base size => Sys2Proof.Machine.execShtExport k part base size s
  | .shtWindowSet k owner first addr count => Sys2Proof.Machine.execShtWindowSet k owner first addr count s
  | .shtJobTeardown k job => Sys2Proof.Machine.execShtJobTeardown k job s
  | .shtStatus k owner => Sys2Proof.Machine.execShtStatus k owner s
  | .memSlotServe pch cc => Sys2Proof.Machine.execMemSlotServe pch cc s
  | .memoryResponse id cc errs => Sys2Proof.Machine.execMemoryResponse id cc errs s
  | .remapCopy pch => Sys2Proof.Machine.execRemapCopy pch s
  | .refresh pch cc errs => Sys2Proof.Machine.execRefresh pch cc errs s
  | .periodicRetrain ch cc => Sys2Proof.Machine.execPeriodicRetrain ch cc s
  | .errorRateRetrain ch errors cc => Sys2Proof.Machine.execErrorRateRetrain ch errors cc s
  | .retrainEnd ch cc ok => Sys2Proof.Machine.execRetrainEnd ch cc ok s
  | .adderWriteback die cc => Sys2Proof.Machine.execAdderWriteback die cc s
  | .stkRegionSet k region => Sys2Proof.Machine.execStkRegionSet k region s
  | .stkRegionClear k owner vbase => Sys2Proof.Machine.execStkRegionClear k owner vbase s
  | .stkRegionQuery k owner => Sys2Proof.Machine.execStkRegionQuery k owner s
  | .stkRetrainCfg k period rtThresh => Sys2Proof.Machine.execStkRetrainCfg k period rtThresh s
  | .stkPolicySet k latCap wBulk wSpill ceThresh => Sys2Proof.Machine.execStkPolicySet k latCap wBulk wSpill ceThresh s
  | .stkRepairLog k dest first count => Sys2Proof.Machine.execStkRepairLog k dest first count s
  | .farWindowSet k part entry port base size valid => Sys2Proof.Machine.execFarWindowSet k part entry port base size valid s
  | .farIdentity k port => Sys2Proof.Machine.execFarIdentity k port s
  | .farPortCtrl k port action ide => Sys2Proof.Machine.execFarPortCtrl k port action ide s
  | .stkBringupSelect k sel => Sys2Proof.Machine.execStkBringupSelect k sel s
  | .stkMargin k stack channels sweep => Sys2Proof.Machine.execStkMargin k stack channels sweep s
  | .stkRepairAccess k stack apply => Sys2Proof.Machine.execStkRepairAccess k stack apply s
  | .farDevicePresent port id half width cc => Sys2Proof.Machine.execFarDevicePresent port id half width cc s
  | .farReadyTimeout port cc => Sys2Proof.Machine.execFarReadyTimeout port cc s
  | .farResponse id poison bytes cc => Sys2Proof.Machine.execFarResponse id poison bytes cc s
  | .farLinkDown port cc removed => Sys2Proof.Machine.execFarLinkDown port cc removed s
  | .soundingRegionStart bank cc => Sys2Proof.Machine.execSoundingRegionStart bank cc s
  | .soundingPhase bank failing hard cc => Sys2Proof.Machine.execSoundingPhase bank failing hard cc s
  | .secureWipeDone ok => Sys2Proof.Machine.execSecureWipeDone ok s
  | .platAlloc die pool owner part metaBad => Sys2Proof.Machine.execPlatAlloc die pool owner part metaBad s
  | .platAllocGrant die pool => Sys2Proof.Machine.execPlatAllocGrant die pool s
  | .platFree die pool owner index metaBad => Sys2Proof.Machine.execPlatFree die pool owner index metaBad s
  | .pltPoolSet k die pool total t1 t2 t3 reserve => Sys2Proof.Machine.execPltPoolSet k die pool total t1 t2 t3 reserve s
  | .pltPoolQuery k die pool owner => Sys2Proof.Machine.execPltPoolQuery k die pool owner s
  | .atlPower k target state => Sys2Proof.Machine.execAtlPower k target state s
  | .atlPowerDone cc => Sys2Proof.Machine.execAtlPowerDone cc s
  | .atlSoundCfg k enable interval => Sys2Proof.Machine.execAtlSoundCfg k enable interval s
  | .atlBankQuery k bank => Sys2Proof.Machine.execAtlBankQuery k bank s
  | .moduleIdentity k => Sys2Proof.Machine.execModuleIdentity k s
  | .idmemRead k source offset len dest => Sys2Proof.Machine.execIdmemRead k source offset len dest s
  | .kciRingsSet k cmdRing evtRing vector => Sys2Proof.Machine.execKciRingsSet k cmdRing evtRing vector s
  | .partCreate k part train => Sys2Proof.Machine.execPartCreate k part train s
  | .partAssign k part add res => Sys2Proof.Machine.execPartAssign k part add res s
  | .partModeSet k part train => Sys2Proof.Machine.execPartModeSet k part train s
  | .partStop k part => Sys2Proof.Machine.execPartStop k part s
  | .partDestroy k part => Sys2Proof.Machine.execPartDestroy k part s
  | .partQuery k part => Sys2Proof.Machine.execPartQuery k part s
  | .dmaqSet k q base log vector enable => Sys2Proof.Machine.execDmaqSet k q base log vector enable s
  | .mgmtPortSet k addr pfxLen udpPort permitted notices => Sys2Proof.Machine.execMgmtPortSet k addr pfxLen udpPort permitted notices s
  | .mgmtKeySet k key => Sys2Proof.Machine.execMgmtKeySet k key s
  | .ptpSet k enable domain => Sys2Proof.Machine.execPtpSet k enable domain s
  | .timeQuery k => Sys2Proof.Machine.execTimeQuery k s
  | .cmdDoorbell fn value => Sys2Proof.Machine.execCmdDoorbell fn value s
  | .evtHeadWrite fn value => Sys2Proof.Machine.execEvtHeadWrite fn value s
  | .mboxGo fn value => Sys2Proof.Machine.execMboxGo fn value s
  | .dmaqDoorbell fn q value => Sys2Proof.Machine.execDmaqDoorbell fn q value s
  | .commandAccept => Sys2Proof.Machine.execCommandAccept s
  | .commandComplete src mbox tag => Sys2Proof.Machine.execCommandComplete src mbox tag s
  | .msixDeferred fn vector cc => Sys2Proof.Machine.execMsixDeferred fn vector cc s
  | .dmaqDescriptor q => Sys2Proof.Machine.execDmaqDescriptor q s
  | .hostWriteRequest t => Sys2Proof.Machine.execHostWriteRequest t s
  | .mgmtDatagram srcAddr srcPort bytes => Sys2Proof.Machine.execMgmtDatagram srcAddr srcPort bytes s
  | .ptpMessageReceive offset cc => Sys2Proof.Machine.execPtpMessageReceive offset cc s
  | .ptpSyncMissing cc => Sys2Proof.Machine.execPtpSyncMissing cc s
  | .ptpHoldoverTimeout cc => Sys2Proof.Machine.execPtpHoldoverTimeout cc s
  | .ptpSecondLatch cc => Sys2Proof.Machine.execPtpSecondLatch cc s
  | .bmcRead code => Sys2Proof.Machine.execBmcRead code s
  | .functionLevelReset fn => Sys2Proof.Machine.execFunctionLevelReset fn s
  | .hostLinkDown => Sys2Proof.Machine.execHostLinkDown s
  | .compassWatchdog cc => Sys2Proof.Machine.execCompassWatchdog cc s
  | .compassReady cc => Sys2Proof.Machine.execCompassReady cc s
  | .regionSurveyorRestart die region cc => Sys2Proof.Machine.execRegionSurveyorRestart die region cc s
  | .quadrantSurveyorRestart die cc => Sys2Proof.Machine.execQuadrantSurveyorRestart die cc s
  | .bridgeLaneFailure b fromSecond lane parts => Sys2Proof.Machine.execBridgeLaneFailure b fromSecond lane parts s
  | .registerWrite fn offset value => Sys2Proof.Machine.execRegisterWrite fn offset value s
  | .registerBadAccess fn offset width write => Sys2Proof.Machine.execRegisterBadAccess fn offset width write s
  | .lcQuery k => Sys2Proof.Machine.execLcQuery k s
  | .lcProvision k dest => Sys2Proof.Machine.execLcProvision k dest s
  | .lcCertInstall k addr len => Sys2Proof.Machine.execLcCertInstall k addr len s
  | .lcTransitionArm k target => Sys2Proof.Machine.execLcTransitionArm k target s
  | .lcTransition k target challenge => Sys2Proof.Machine.execLcTransition k target challenge s
  | .lcArmExpiry cc => Sys2Proof.Machine.execLcArmExpiry cc s
  | .certRead k dest => Sys2Proof.Machine.execCertRead k dest s
  | .tamperQuery k => Sys2Proof.Machine.execTamperQuery k s
  | .tamperClear k => Sys2Proof.Machine.execTamperClear k s
  | .tamperTrip source readings => Sys2Proof.Machine.execTamperTrip source readings s
  | .fwStageBegin k len => Sys2Proof.Machine.execFwStageBegin k len s
  | .fwStageWrite k offset src len => Sys2Proof.Machine.execFwStageWrite k offset src len s
  | .fwStageVerify k => Sys2Proof.Machine.execFwStageVerify k s
  | .fwActivate k => Sys2Proof.Machine.execFwActivate k s
  | .fwQuery k => Sys2Proof.Machine.execFwQuery k s
  | .fwSvnCommit k v => Sys2Proof.Machine.execFwSvnCommit k v s
  | .settingsSave k => Sys2Proof.Machine.execSettingsSave k s
  | .settingsClear k => Sys2Proof.Machine.execSettingsClear k s
  | .mgmtFallback cc => Sys2Proof.Machine.execMgmtFallback cc s
  | .attest k nonce dest => Sys2Proof.Machine.execAttest k nonce dest s
  | .configExport k dest maxLen => Sys2Proof.Machine.execConfigExport k dest maxLen s
  | .itinExport k seq count dest => Sys2Proof.Machine.execItinExport k seq count dest s
  | .itinExportAck k seq => Sys2Proof.Machine.execItinExportAck k seq s
  | .itinCheckpoint k => Sys2Proof.Machine.execItinCheckpoint k s
  | .itinCkptRead k number dest => Sys2Proof.Machine.execItinCkptRead k number dest s
  | .itinJournalWrite => Sys2Proof.Machine.execItinJournalWrite s
  | .fencePort k lports => Sys2Proof.Machine.execFencePort k lports s
  | .unfencePort k lports => Sys2Proof.Machine.execUnfencePort k lports s
  | .isolatePeer k tiers depth => Sys2Proof.Machine.execIsolatePeer k tiers depth s
  | .releasePeer k tiers depth => Sys2Proof.Machine.execReleasePeer k tiers depth s
  | .jobTeardown k job => Sys2Proof.Machine.execJobTeardown k job s
  | .faultLogRead k first count dest => Sys2Proof.Machine.execFaultLogRead k first count dest s
  | .tileTest k tiles failed => Sys2Proof.Machine.execTileTest k tiles failed s
  | .faultMapRead k die dest => Sys2Proof.Machine.execFaultMapRead k die dest s
  | .pwrQuery k dest => Sys2Proof.Machine.execPwrQuery k dest s
  | .pwrReset k cold => Sys2Proof.Machine.execPwrReset k cold s
  | .pwrOff k => Sys2Proof.Machine.execPwrOff k s
  | .vsbStart straps lidOpen cc => Sys2Proof.Machine.execVsbStart straps lidOpen cc s
  | .pwrEnRise cc => Sys2Proof.Machine.execPwrEnRise cc s
  | .pwrEnFall cc => Sys2Proof.Machine.execPwrEnFall cc s
  | .railTimeout rail cc => Sys2Proof.Machine.execRailTimeout rail cc s
  | .railExcursion rail mv amps ev => Sys2Proof.Machine.execRailExcursion rail mv amps ev s
  | .inputExcursion ev volt curr power => Sys2Proof.Machine.execInputExcursion ev volt curr power s
  | .resetNAssert cc => Sys2Proof.Machine.execResetNAssert cc s
  | .coldResetEnd cc => Sys2Proof.Machine.execColdResetEnd cc s
  | .sensorSample temps inlet outlet wet cc => Sys2Proof.Machine.execSensorSample temps inlet outlet wet cc s
  | .stackTrained stack => Sys2Proof.Machine.execStackTrained stack s
  | .surveyorRestartDone die region => Sys2Proof.Machine.execSurveyorRestartDone die region s
  | .hostLinkUp gen5 => Sys2Proof.Machine.execHostLinkUp gen5 s
  | .farPortReady port cc => Sys2Proof.Machine.execFarPortReady port cc s
  | .bridgeRetry b parts => Sys2Proof.Machine.execBridgeRetry b parts s
  | .stage2Slot inter slot => Sys2Proof.Machine.execStage2Slot inter slot s
  | .merSignalAck id => Sys2Proof.Machine.execMerSignalAck id s
  | .pauseTimerExpiry lport cls cc => Sys2Proof.Machine.execPauseTimerExpiry lport cls cc s

end Sys2Proof.Machine
end

