-- ==== Sys2Proof/Machine/Tarpeth.lean ====
section
/-! DEFINITION. The 64-bit words of Tarpeth instructions (R108 to R110, R188): decoder, encoder, and the fetch from a tile's instruction bank. -/

namespace Sys2Proof.Machine

/-- The fields of an instruction word (R108). -/
structure TFields where
  op  : BitVec 8
  rd  : Reg
  ra  : Reg
  rb  : Reg
  res : BitVec 9
  imm : Imm
deriving DecidableEq, Repr

/-- OP [7:0], RD [12:8], RA [17:13], RB [22:18], reserved [31:23], IMM [63:32]. -/
def TFields.ofWord (w : Word) : TFields :=
  ⟨w.extractLsb' 0 8, w.extractLsb' 8 5, w.extractLsb' 13 5, w.extractLsb' 18 5, w.extractLsb' 23 9, w.extractLsb' 32 32⟩

/-- The word of six fields, most significant first. -/
def TFields.word (f : TFields) : Word := f.imm ++ f.res ++ f.rb ++ f.ra ++ f.rd ++ f.op

/-- No field is used, but for those that a test lets through (R109): each unused field is zero. -/
def TFields.unused (f : TFields) (rd ra rb imm : Bool) : Bool :=
  f.res = 0 && (rd || f.rd = 0) && (ra || f.ra = 0) && (rb || f.rb = 0) && (imm || f.imm = 0)

/-- The instruction that the fields give on tile t, by the opcode table, with the fields RD, RA, RB, IMM that the opcode uses
(R110, R188). -/
def TFields.instr (t : Nat) (f : TFields) : Option (Bool × Bool × Bool × Bool × Instr) :=
  match f.op.toNat with
  | 0x00 => some (false, false, false, false, .nop t)
  | 0x01 => some (false, false, false, false, .end_ t)
  | 0x02 => some (false, false, false, false, .yield t)
  | 0x03 => some (false, false, false, false, .rxrel t)
  | 0x04 => some (false, false, false, true, .trap t f.imm)
  | 0x10 => some (true, true, true, false, .add t f.rd f.ra f.rb)
  | 0x11 => some (true, true, true, false, .sub t f.rd f.ra f.rb)
  | 0x12 => some (true, true, true, false, .and t f.rd f.ra f.rb)
  | 0x13 => some (true, true, true, false, .or t f.rd f.ra f.rb)
  | 0x14 => some (true, true, true, false, .xor t f.rd f.ra f.rb)
  | 0x15 => some (true, true, true, false, .shl t f.rd f.ra f.rb)
  | 0x16 => some (true, true, true, false, .shr t f.rd f.ra f.rb)
  | 0x17 => some (true, true, true, false, .sar t f.rd f.ra f.rb)
  | 0x18 => some (true, true, true, false, .mul t f.rd f.ra f.rb)
  | 0x19 => some (true, true, true, false, .min t f.rd f.ra f.rb)
  | 0x1A => some (true, true, true, false, .max t f.rd f.ra f.rb)
  | 0x1B => some (true, true, true, false, .slt t f.rd f.ra f.rb)
  | 0x1C => some (true, true, true, false, .sltu t f.rd f.ra f.rb)
  | 0x20 => some (true, true, false, true, .addi t f.rd f.ra f.imm)
  | 0x21 => some (true, true, false, true, .andi t f.rd f.ra f.imm)
  | 0x22 => some (true, true, false, true, .ori t f.rd f.ra f.imm)
  | 0x23 => some (true, true, false, true, .xori t f.rd f.ra f.imm)
  | 0x24 => some (true, true, false, true, .shli t f.rd f.ra f.imm)
  | 0x25 => some (true, true, false, true, .shri t f.rd f.ra f.imm)
  | 0x26 => some (true, true, false, true, .sari t f.rd f.ra f.imm)
  | 0x27 => some (true, false, false, true, .li t f.rd f.imm)
  | 0x28 => some (true, false, false, true, .lui t f.rd f.imm)
  | 0x30 => some (true, true, false, true, .ld t f.rd f.ra f.imm)
  | 0x31 => some (false, true, true, true, .st t f.rb f.ra f.imm)
  | 0x32 => some (true, true, false, true, .ldw t f.rd f.ra f.imm)
  | 0x33 => some (false, true, true, true, .stw t f.rb f.ra f.imm)
  | 0x40 => some (true, true, true, true, .br t f.rd f.ra f.rb f.imm)
  | 0x41 => some (false, false, false, true, .jmp t f.imm)
  | 0x42 => some (false, true, false, false, .jr t f.ra)
  | 0x43 => some (true, false, false, true, .call t f.rd f.imm)
  | 0x44 => some (false, true, false, true, .dbnz t f.ra f.imm)
  | 0x48 => some (false, true, false, true, .loop t f.ra f.imm)
  | 0x49 => some (true, false, false, true, .lidx t f.rd f.imm)
  | 0x50 => some (true, false, false, true, .rdreg t f.rd f.imm)
  | 0x51 => some (false, true, false, true, .wrreg t f.ra f.imm)
  | 0x52 => some (true, false, false, true, .qfree t f.rd f.imm)
  | 0x53 => some (false, true, true, true, .defrgn t f.ra f.rb f.imm)
  | 0x54 => some (false, true, false, true, .fence t f.ra f.imm)
  | 0x60 => some (false, true, false, true, .tens t f.ra f.imm)
  | 0x61 => some (false, true, false, true, .vec t f.ra f.imm)
  | 0x62 => some (false, true, false, true, .move t f.ra f.imm)
  | 0x63 => some (false, true, false, true, .msg t f.ra f.imm)
  | 0x64 => some (false, true, false, true, .sprs t f.ra f.imm)
  | 0x70 => some (false, true, false, true, .msignal t f.ra f.imm)
  | 0x71 => some (true, true, false, false, .mwait t f.rd f.ra)
  | 0x72 => some (true, true, false, true, .mwaitto t f.rd f.ra f.imm)
  | 0x73 => some (true, true, false, true, .mread t f.rd f.ra f.imm)
  | _ => none

/-- The instruction that a word spells on tile t; none faults with ILLEGAL_OP (R109). What an opcode asks of IMM or COND is
checked by its meaning, with the same fault. -/
def tarpethDecode (t : Nat) (w : Word) : Option Instr :=
  let f := TFields.ofWord w
  match f.instr t with
  | some (rd, ra, rb, imm, i) => if f.unused rd ra rb imm then some i else none
  | none => none

/-- The fields of a word (R110): opcode, RD, RA, RB, IMM. -/
def tword (op : Nat) (rd ra rb : Reg) (imm : Imm) : Word := (⟨BitVec.ofNat 8 op, rd, ra, rb, 0, imm⟩ : TFields).word

/-- The tile and the word of a Tarpeth instruction; none for every other command. -/
def tarpethEncode (i : Instr) : Option (Nat × Word) :=
  match i with
  | .nop t => some (t, tword 0x00 0 0 0 0)
  | .end_ t => some (t, tword 0x01 0 0 0 0)
  | .yield t => some (t, tword 0x02 0 0 0 0)
  | .rxrel t => some (t, tword 0x03 0 0 0 0)
  | .trap t imm => some (t, tword 0x04 0 0 0 imm)
  | .add t rd ra rb => some (t, tword 0x10 rd ra rb 0)
  | .sub t rd ra rb => some (t, tword 0x11 rd ra rb 0)
  | .and t rd ra rb => some (t, tword 0x12 rd ra rb 0)
  | .or t rd ra rb => some (t, tword 0x13 rd ra rb 0)
  | .xor t rd ra rb => some (t, tword 0x14 rd ra rb 0)
  | .shl t rd ra rb => some (t, tword 0x15 rd ra rb 0)
  | .shr t rd ra rb => some (t, tword 0x16 rd ra rb 0)
  | .sar t rd ra rb => some (t, tword 0x17 rd ra rb 0)
  | .mul t rd ra rb => some (t, tword 0x18 rd ra rb 0)
  | .min t rd ra rb => some (t, tword 0x19 rd ra rb 0)
  | .max t rd ra rb => some (t, tword 0x1A rd ra rb 0)
  | .slt t rd ra rb => some (t, tword 0x1B rd ra rb 0)
  | .sltu t rd ra rb => some (t, tword 0x1C rd ra rb 0)
  | .addi t rd ra imm => some (t, tword 0x20 rd ra 0 imm)
  | .andi t rd ra imm => some (t, tword 0x21 rd ra 0 imm)
  | .ori t rd ra imm => some (t, tword 0x22 rd ra 0 imm)
  | .xori t rd ra imm => some (t, tword 0x23 rd ra 0 imm)
  | .shli t rd ra imm => some (t, tword 0x24 rd ra 0 imm)
  | .shri t rd ra imm => some (t, tword 0x25 rd ra 0 imm)
  | .sari t rd ra imm => some (t, tword 0x26 rd ra 0 imm)
  | .li t rd imm => some (t, tword 0x27 rd 0 0 imm)
  | .lui t rd imm => some (t, tword 0x28 rd 0 0 imm)
  | .ld t rd ra imm => some (t, tword 0x30 rd ra 0 imm)
  | .st t rb ra imm => some (t, tword 0x31 0 ra rb imm)
  | .ldw t rd ra imm => some (t, tword 0x32 rd ra 0 imm)
  | .stw t rb ra imm => some (t, tword 0x33 0 ra rb imm)
  | .br t cond ra rb imm => some (t, tword 0x40 cond ra rb imm)
  | .jmp t imm => some (t, tword 0x41 0 0 0 imm)
  | .jr t ra => some (t, tword 0x42 0 ra 0 0)
  | .call t rd imm => some (t, tword 0x43 rd 0 0 imm)
  | .dbnz t ra imm => some (t, tword 0x44 0 ra 0 imm)
  | .loop t ra imm => some (t, tword 0x48 0 ra 0 imm)
  | .lidx t rd imm => some (t, tword 0x49 rd 0 0 imm)
  | .rdreg t rd imm => some (t, tword 0x50 rd 0 0 imm)
  | .wrreg t ra imm => some (t, tword 0x51 0 ra 0 imm)
  | .qfree t rd imm => some (t, tword 0x52 rd 0 0 imm)
  | .defrgn t ra rb imm => some (t, tword 0x53 0 ra rb imm)
  | .fence t ra imm => some (t, tword 0x54 0 ra 0 imm)
  | .tens t ra imm => some (t, tword 0x60 0 ra 0 imm)
  | .vec t ra imm => some (t, tword 0x61 0 ra 0 imm)
  | .move t ra imm => some (t, tword 0x62 0 ra 0 imm)
  | .msg t ra imm => some (t, tword 0x63 0 ra 0 imm)
  | .sprs t ra imm => some (t, tword 0x64 0 ra 0 imm)
  | .msignal t ra imm => some (t, tword 0x70 0 ra 0 imm)
  | .mwait t rd ra => some (t, tword 0x71 rd ra 0 0)
  | .mwaitto t rd ra imm => some (t, tword 0x72 rd ra 0 imm)
  | .mread t rd ra imm => some (t, tword 0x73 rd ra 0 imm)
  | _ => none

/-- The word at the program counter of the current strand: instruction i of bank b lies at 8192b + i. -/
def Tile.fetch (x : Tile) : Word := x.imem.lookD (8192 * x.bank + x.pc) 0

/-- The current strand of tile t meets a word that is no instruction (R109). -/
def State.illegal (s : State) (t : Nat) : State := seqRun t s (fun _ => .fault s .illegalOp 0 0)

end Sys2Proof.Machine
end

