-- ==== Sys2Proof/Machine/Tick.lean ====
section
/-! DEFINITION. What the module does of its own accord in one core cycle while no command waits (log 1). -/

namespace Sys2Proof.Machine

/-- Tile t issues the instruction at its program counter, while it is RUNNING and a strand runs (R81, R108). -/
def State.issueAt (s : State) (t : Nat) : State :=
  let x := s.tile t
  if !x.runs then s
  else match tarpethDecode t x.fetch with
    | none => s.illegal t
    | some i => s.after (exec i)

/-- One core cycle (log 1): power states that are due, the Gazetteer units, members lost since the last cycle, heads that no gate window fits, the far ports, memory requests that are complete, Compass, and one instruction of every tile that runs. -/
def State.tick (s : State) : State :=
  let s := { s with now := s.now + 1 }
  let s := s.pwrSettle.coldDue.imemSettle.flrEnds
  let s := s.gazTick.aliasSettle
  let s := if s.fab.lostDue then s.tellLost else s
  let s := (s.fab.subs.keep (fun _ x => x.ctr.gates.enable)).keys.foldl (fun s l => s.countHolds l) s
  let s := ((s.farAdvance 0).farAdvance 1).memReap.marginsDue.fwCopied
  let s := ((s.farServe 0).farServe 1).runAccepted.applyEntry.blockWatch
  (s.grid.tiles.keys).foldl State.issueAt s

end Sys2Proof.Machine
end

