-- ==== Sys2Proof/Safety.lean ====
section
/-! DEFINITION. What statements are made of: canonical memories, commands that go on, and commands of the KCI that are answered. -/

namespace Sys2Proof.Machine

/-- Every byte memory of the module and of the host has its canonical form. -/
def State.memoriesOk (s : State) : Bool :=
  s.host.all (fun e => e.2.wf) && s.grid.tiles.all (fun e => e.2.scratch.wf) && s.stk.mem.wf && s.atl.pinned.wf && s.crt.staging.wf && s.cmp.eeprom.wf &&
    s.cmp.coldPlate.wf

/-- The outcome is a next state. -/
def Goes (o : Host.Outcome State Fault Refusal) : Prop := ∃ t, o = .next t

/-- The command i, run on s, answers a next state, and P holds of that state. -/
def Yields (i : Instr) (s : State) (P : State → Prop) : Prop := ∃ u, exec i s = .next u ∧ P u

/-- A KCI command from the PF or the management port finds its way free: Compass is READY (R487), no surveyor restarts (R28), no
command of its source and TAG is in flight (R469), every command accepted before has taken its turn (R471), the Itinerary has room
(R511) and its ring is not full of entries that are not durable (R509). -/
structure State.Open (s : State) (k : Kci) : Prop where
  priv   : k.src.privileged = true
  ready  : s.cmp.state = .ready
  region : ∀ r, (s.lay.region.lookD r {}).restarting = false
  quad   : ∀ d, (s.lay.quad.lookD d {}).restarting = false
  tag    : s.cmp.inflight.any (fun r => r.sameTag k.src k.tag) = false
  room   : s.itinFull = false
  turn   : s.cmp.inflight.any (fun r => r.stage = .waiting) = false
  ring   : s.ringFull = false

/-- What the completion of a KCI command will carry: the command is done, with this status and these RESULT words (R472). -/
def State.Answered (s : State) (k : Kci) (opcode : Nat) (st : Status) (result : List Word) : Prop :=
  ∃ r ∈ s.cmp.inflight, r.src = k.src ∧ r.mbox = k.mbox ∧ r.tag = k.tag ∧ r.opcode = opcode ∧ r.stage = .done ∧
    r.status = st ∧ r.result = result

/-- A KCI command that is under way and completes when the items it waits for have come about (R470). -/
def State.Running (s : State) (k : Kci) (opcode : Nat) (keys : List Nat) : Prop :=
  ∃ r ∈ s.cmp.inflight, r.src = k.src ∧ r.mbox = k.mbox ∧ r.tag = k.tag ∧ r.opcode = opcode ∧ r.stage = .running keys ∧
    r.status = .ok

/-- One byte of tile t's scratchpad. -/
def State.scratchByte (s : State) (t a : Nat) : Byte := (s.tile t).scratch.read a

/-- One byte of the host memory of function f. -/
def State.hostByte (s : State) (f a : Nat) : Byte := (s.hostMem f).read a

/-- From s to u nothing changed but tile t. -/
structure OnlyTile (s u : State) (t : Nat) : Prop where
  rest  : u = { s with grid := { s.grid with tiles := u.grid.tiles } }
  tiles : ∀ v, v ≠ t → u.tile v = s.tile v

/-- From s to u tile t changed in nothing but the flow of its current strand (program counter, state, count of instructions, open
loops) and its registers. -/
def OnlyFlow (s u : State) (t : Nat) : Prop :=
  OnlyTile s u t ∧
    u.tile t = { s.tile t with g := (u.tile t).g, strands := (u.tile t).strands, loops := (u.tile t).loops, issued := (u.tile t).issued } ∧
    ∀ n, n ≠ (s.tile t).current → (u.tile t).strand n = (s.tile t).strand n

/-- The frame of an instruction that writes register rd of the current strand and nothing else. -/
def OnlyReg (s u : State) (t : Nat) (rd : Reg) : Prop :=
  OnlyFlow s u t ∧ ∀ r, r ≠ rd → (u.tile t).reg r = (s.tile t).reg r

/-- The frame of an instruction that writes no register. -/
def NoReg (s u : State) (t : Nat) : Prop := OnlyFlow s u t ∧ ∀ r, (u.tile t).reg r = (s.tile t).reg r

/-- Tile t runs an instruction that falls through to p, with the loop levels ls open after it (R113, R117); its register file has
its 29 shared registers (R78). -/
structure State.Falls (s : State) (t p : Nat) (ls : List Loop) : Prop where
  runs  : (s.tile t).runs = true
  regs  : (s.tile t).g.length = 29
  falls : (s.tile t).fallThrough (s.tile t).pc = (some p, ls)

/-- After an instruction the strand stands at p with the loop levels ls open. -/
def At (u : State) (t p : Nat) (ls : List Loop) : Prop := (u.tile t).pc = p ∧ (u.tile t).loops = ls

/-- The instruction writes v into register rd of tile t (g0 reads as zero, R78), the strand goes on to p, and nothing else
changes. -/
def Sets (i : Instr) (s : State) (t p : Nat) (ls : List Loop) (rd : Reg) (v : Word) : Prop :=
  Yields i s (fun u => (u.tile t).reg rd = (if rd = 0 then 0 else v) ∧ At u t p ls ∧ OnlyReg s u t rd)

/-- The instruction faults (R102): tile t is HALTED with this status and FAULT_PC for the strand that ran; no register of it, no
byte of its scratchpad and no other tile changes. Then the collectives whose blocks the tile held end (R229, R249), which is nothing
where no group names it as a runtime tile. -/
def FaultsAs (i : Instr) (s : State) (t : Nat) (st : Status) (pc : Nat) : Prop :=
  Yields i s (fun u => ∃ v : State, u = v.cflTileLost t st ∧ ((∀ e ∈ s.cfl.groups, t ∉ e.2.d.tiles) → u = v) ∧
    (v.tile t).state = .halted ∧ (v.tile t).cmdHalt = false ∧ (v.tile t).fault = st.code ∧
    (v.tile t).faultPc = pc % 8192 ∧ (v.tile t).faultStrand = (s.tile t).current ∧ (v.tile t).g = (s.tile t).g ∧
    (v.tile t).strands = (s.tile t).strands ∧ (v.tile t).scratch = (s.tile t).scratch ∧
    ∀ w, w ≠ t → v.tile w = s.tile w)

/-- The vector instruction q is at the head of tile t's vector queue, has not run, and names vector registers xr, yr and zr for
X, Y and Z, in the operation's own type, without conversion (R124, R130, R131). -/
structure InRegisters (s : State) (t : Nat) (q : QEntry) (xr yr zr : Nat) : Prop where
  head    : (s.tile t).head 1 = some q
  running : (s.tile t).state = .running
  fresh   : q.ran = false
  conv    : dConv q.words = 0
  x       : (agAt q.words 4).useVreg = true ∧ (agAt q.words 4).useImm = false ∧ (agAt q.words 4).vreg = xr
  y       : (agAt q.words 12).useVreg = true ∧ (agAt q.words 12).useImm = false ∧ (agAt q.words 12).vreg = yr
  z       : (agAt q.words 20).useVreg = true ∧ (agAt q.words 20).useImm = false ∧ (agAt q.words 20).vreg = zr
  count   : (agAt q.words 20).units = 64

/-- The instruction writes element n of vector register zr of tile t with f n, for each of the 64 elements, and nothing else but
its own queue entry. -/
def VectorWrites (i : Instr) (s : State) (t : Nat) (q : QEntry) (zr : Nat) (f : Nat → Nat) : Prop :=
  Yields i s (fun u => (∀ n, n < 64 → (u.tile t).vregs.lookD (64 * zr + n) 0 = f n) ∧
    (∀ j, j < 64 * zr ∨ 64 * zr + 64 ≤ j → (u.tile t).vregs.look j = (s.tile t).vregs.look j) ∧
    u.tile t = { (s.tile t).setHead 1 { q with ran := true, units := 64, nsat := 0 } with vregs := (u.tile t).vregs } ∧ OnlyTile s u t)

/-- From v to u nothing differs but Compass's commands in flight and its configuration record. -/
def State.Follows (u v : State) : Prop := u = { v with cmp := { v.cmp with inflight := u.cmp.inflight, config := u.cmp.config } }

/-- The transfer x is in flight to the allocated object o, and its home cell may take it next (R193). -/
def State.Takes (s : State) (x : MerXfer) (o : MerObj) : Prop :=
  s.mer.xfers.find? (fun y => y.id = x.id) = some x ∧ s.merBlocked x = false ∧ s.mer.objs.look x.obj = some o

/-- The first n units of a generator, of so many bytes each, lie in the scratchpad at their alignment (R125, R126). -/
def Ag.Within (g : Ag) (n bytes : Nat) : Prop :=
  ∀ i, i < n → 0 ≤ g.addr i ∧ g.addr i + (bytes : Int) ≤ 0x180000 ∧ (g.addr i).toNat % unitAlign bytes = 0

/-- The scale bytes and, with X, the escape words of n blocks of a generator lie in the scratchpad (R39, R45). -/
def Ag.Scales (g : Ag) (n : Nat) (block x : Bool) : Prop :=
  block = true → g.scale + n ≤ 0x180000 ∧ (x = true → g.esc + 4 * n ≤ 0x180000)

/-- An operand of w-bit elements, `per` to a unit, lies in the scratchpad with its scales. -/
def Ag.Readable (g : Ag) (w per : Nat) : Prop :=
  g.Within g.units (ceilDiv (w * per) 8) ∧ g.Scales (if per = 32 then g.units else ceilDiv g.units 32) g.fmt.block g.fmt.x

/-- Outputs in a format lie in the scratchpad with the scales that the conversion writes. -/
def Ag.Writable (g : Ag) (c : ConvCtl) (fmt : Nat) : Prop :=
  g.Within g.units (unitBytes fmt (perUnit fmt)) ∧ g.Scales (if perUnit fmt = 32 then g.units else ceilDiv g.units 32) c.block c.x

/-- The engine instruction q at the head of queue e of tile t completes when i runs: the entry has run, without a stop, with so
many units; no register of the tile changes, and nothing outside the tile (R122, R123). -/
def EngineDone (i : Instr) (s : State) (t e : Nat) (q : QEntry) (units : Nat) : Prop :=
  Yields i s (fun u => OnlyTile s u t ∧ (∀ r, (u.tile t).reg r = (s.tile t).reg r) ∧ (u.tile t).state = (s.tile t).state ∧
    ∃ p : QEntry, (u.tile t).head e = some p ∧ p.id = q.id ∧ p.words = q.words ∧ p.ran = true ∧ p.status = .ok ∧ p.units = units)

end Sys2Proof.Machine
end

