-- ==== Sys2Proof/Certificates/Slice0/Obligations.lean ====
section
/-! DEFINITION. The statements about the model, by the chapters of the spec. -/

open Sys2Proof Sys2Proof.Machine

/-! ### Scalar instructions of a tile (R78, R108 to R119) -/

/-- R110, R78, R111: the register to register operations, their result modulo 2^64, the next instruction, and their frame. -/
def Obligations.RegisterArithmetic : Prop :=
  ∀ (s : State) (t p : Nat) (ls : List Loop) (rd ra rb : Reg), s.Falls t p ls →
    let a := (s.tile t).reg ra
    let b := (s.tile t).reg rb
    Sets (.add t rd ra rb) s t p ls rd (a + b) ∧
    Sets (.sub t rd ra rb) s t p ls rd (a - b) ∧
    Sets (.and t rd ra rb) s t p ls rd (a &&& b) ∧
    Sets (.or t rd ra rb) s t p ls rd (a ||| b) ∧
    Sets (.xor t rd ra rb) s t p ls rd (a ^^^ b) ∧
    Sets (.shl t rd ra rb) s t p ls rd (a <<< (b.toNat % 64)) ∧
    Sets (.shr t rd ra rb) s t p ls rd (a >>> (b.toNat % 64)) ∧
    Sets (.sar t rd ra rb) s t p ls rd (a.sshiftRight (b.toNat % 64)) ∧
    Sets (.mul t rd ra rb) s t p ls rd (a * b) ∧
    Sets (.min t rd ra rb) s t p ls rd (if a.toInt ≤ b.toInt then a else b) ∧
    Sets (.max t rd ra rb) s t p ls rd (if a.toInt ≤ b.toInt then b else a) ∧
    Sets (.slt t rd ra rb) s t p ls rd (if a.toInt < b.toInt then 1 else 0) ∧
    Sets (.sltu t rd ra rb) s t p ls rd (if a.toNat < b.toNat then 1 else 0)

/-- R110, R78: the operations with an immediate; a shift amount has its upper bits zero, and LUI leaves bits [31:0]. -/
def Obligations.ImmediateArithmetic : Prop :=
  ∀ (s : State) (t p : Nat) (ls : List Loop) (rd ra : Reg) (imm : Imm), s.Falls t p ls →
    let a := (s.tile t).reg ra
    let c := imm.signExtend 64
    (Sets (.addi t rd ra imm) s t p ls rd (a + c) ∧
     Sets (.andi t rd ra imm) s t p ls rd (a &&& c) ∧
     Sets (.ori t rd ra imm) s t p ls rd (a ||| c) ∧
     Sets (.xori t rd ra imm) s t p ls rd (a ^^^ c) ∧
     Sets (.li t rd imm) s t p ls rd c ∧
     Sets (.lui t rd imm) s t p ls rd (imm ++ ((s.tile t).reg rd).extractLsb' 0 32)) ∧
    (imm.toNat < 64 →
      Sets (.shli t rd ra imm) s t p ls rd (a <<< imm.toNat) ∧
      Sets (.shri t rd ra imm) s t p ls rd (a >>> imm.toNat) ∧
      Sets (.sari t rd ra imm) s t p ls rd (a.sshiftRight imm.toNat))

/-- R110, R114, R119, R146: RDREG reads the tile's own window, QFREE counts free entries of a 32-entry queue, LIDX reads an open
level of strand 0 and zero elsewhere. -/
def Obligations.RegisterReads : Prop :=
  ∀ (s : State) (t p : Nat) (ls : List Loop) (rd : Reg) (imm : Imm), s.Falls t p ls →
    (imm.toNat % 8 = 0 → imm.toNat < 0x1000 → Sets (.rdreg t rd imm) s t p ls rd (s.tileReg t imm.toNat)) ∧
    (imm.toNat ≤ 4 → Sets (.qfree t rd imm) s t p ls rd (BitVec.ofNat 64 (32 - ((s.tile t).queue imm.toNat).length))) ∧
    (imm.toNat < 4 → Sets (.lidx t rd imm) s t p ls rd
      (if (s.tile t).current ≠ 0 then 0 else BitVec.ofNat 64 (((s.tile t).loops[imm.toNat]?.map (·.index)).getD 0)))

/-- R110 to R112, R76: loads of 8 and of 4 bytes, little-endian and zero-extended, at the exact sum of register and immediate; a
correctable word is corrected and counted, nothing else changes. -/
def Obligations.Loads : Prop :=
  ∀ (s : State) (t p a : Nat) (ls : List Loop) (rd ra : Reg) (imm : Imm), s.Falls t p ls →
    (s.tile t).addr ra imm = (a : Int) → a < 0x180000 → (a / 8 * 8) ∉ (s.tile t).bad →
    let loaded := fun (n : Nat) (u : State) =>
      (u.tile t).reg rd = (if rd = 0 then 0 else BitVec.ofNat 64 (ofLe ((List.range n).map (fun i => s.scratchByte t (a + i))))) ∧
      (∀ r, r ≠ rd → (u.tile t).reg r = (s.tile t).reg r) ∧ At u t p ls ∧ OnlyTile s u t ∧
      u.tile t = { s.tile t with g := (u.tile t).g, strands := (u.tile t).strands, loops := ls, issued := (u.tile t).issued,
                                 soft := (s.tile t).soft.filter (fun w => w ≠ a / 8 * 8),
                                 eccCorr := if (a / 8 * 8) ∈ (s.tile t).soft then (s.tile t).count (s.tile t).eccCorr 1
                                            else (s.tile t).eccCorr } ∧
      (∀ n, n ≠ (s.tile t).current → (u.tile t).strand n = (s.tile t).strand n)
    (a % 8 = 0 → Yields (.ld t rd ra imm) s (loaded 8)) ∧
    (a % 4 = 0 → Yields (.ldw t rd ra imm) s (loaded 4))

/-- R110 to R112, R76: stores of 8 and of 4 bytes: every byte of the scratchpad outside the stored ones reads as before, every
register and every other tile stays. A whole word stored ends an error of that word. -/
def Obligations.Stores : Prop :=
  ∀ (s : State) (t p a : Nat) (ls : List Loop) (rb ra : Reg) (imm : Imm), s.Falls t p ls →
    (s.tile t).addr ra imm = (a : Int) → a < 0x180000 → (s.tile t).scratch.wf = true →
    let stored := fun (n : Nat) (u : State) =>
      (∀ b, u.scratchByte t b = if a ≤ b ∧ b < a + n then ((s.tile t).reg rb).extractLsb' (8 * (b - a)) 8 else s.scratchByte t b) ∧
      (∀ r, (u.tile t).reg r = (s.tile t).reg r) ∧ At u t p ls ∧ OnlyTile s u t ∧
      u.tile t = { s.tile t with strands := (u.tile t).strands, loops := ls, issued := (u.tile t).issued,
                                 scratch := (u.tile t).scratch, bad := (u.tile t).bad, soft := (u.tile t).soft,
                                 eccCorr := (u.tile t).eccCorr } ∧
      (∀ n, n ≠ (s.tile t).current → (u.tile t).strand n = (s.tile t).strand n)
    (a % 8 = 0 → Yields (.st t rb ra imm) s (fun u => stored 8 u ∧ a ∉ (u.tile t).bad ∧ a ∉ (u.tile t).soft)) ∧
    (a % 4 = 0 → (a / 8 * 8) ∉ (s.tile t).bad → Yields (.stw t rb ra imm) s (stored 4))

/-- R112: the address is the exact sum of register and signed immediate. Outside 0x00_0000 to 0x17_FFFF the instruction faults with ADDR_RANGE; otherwise, if
it is not a multiple of the access width, with ADDR_ALIGN. -/
def Obligations.ScalarAddressFaults : Prop :=
  ∀ (s : State) (t : Nat) (ra rx : Reg) (imm : Imm), (s.tile t).runs = true →
    let a : Int := ((s.tile t).reg ra).toNat + imm.toInt
    ((a < 0 ∨ 0x17FFFF < a) →
      FaultsAs (.ld t rx ra imm) s t .addrRange (s.tile t).pc ∧ FaultsAs (.ldw t rx ra imm) s t .addrRange (s.tile t).pc ∧
      FaultsAs (.st t rx ra imm) s t .addrRange (s.tile t).pc ∧ FaultsAs (.stw t rx ra imm) s t .addrRange (s.tile t).pc) ∧
    (0 ≤ a → a ≤ 0x17FFFF →
      (a % 8 ≠ 0 → FaultsAs (.ld t rx ra imm) s t .addrAlign (s.tile t).pc ∧ FaultsAs (.st t rx ra imm) s t .addrAlign (s.tile t).pc) ∧
      (a % 4 ≠ 0 → FaultsAs (.ldw t rx ra imm) s t .addrAlign (s.tile t).pc ∧
        FaultsAs (.stw t rx ra imm) s t .addrAlign (s.tile t).pc))

/-- R113: JR to 8,192 or beyond faults with ILLEGAL_OP; and the strand that executes instruction 8,191 and neither branches nor
loops back faults with ILLEGAL_OP, FAULT_PC reading 0x1FFF (the instruction here is NOP, an ADD or a branch not taken). -/
def Obligations.EndOfProgramFaults : Prop :=
  ∀ (s : State) (t : Nat), (s.tile t).runs = true →
    (∀ ra : Reg, 8192 ≤ ((s.tile t).reg ra).toNat → FaultsAs (.jr t ra) s t .illegalOp (s.tile t).pc) ∧
    ((s.tile t).pc = 8191 → (∀ l ∈ (s.tile t).loops, l.last ≠ 8191) →
      (∀ (rd ra rb : Reg) (imm : Imm) (cond : BitVec 5), cond.toNat ≤ 5 → imm.toNat < 8192 →
        FaultsAs (.nop t) s t .illegalOp 0x1FFF ∧ FaultsAs (.add t 0 ra rb) s t .illegalOp 0x1FFF ∧
        (brHolds cond.toNat ((s.tile t).reg ra) ((s.tile t).reg rb) = false →
          FaultsAs (.br t cond ra rb imm) s t .illegalOp 0x1FFF)))

/-- R109, R110, R114: a COND above 5 and an immediate with bits that the instruction does not use fault with ILLEGAL_OP. -/
def Obligations.ReservedFieldFaults : Prop :=
  ∀ (s : State) (t : Nat) (rd ra rb : Reg) (imm : Imm) (cond : BitVec 5), (s.tile t).runs = true →
    (5 < cond.toNat → FaultsAs (.br t cond ra rb imm) s t .illegalOp (s.tile t).pc) ∧
    (8192 ≤ imm.toNat → FaultsAs (.br t cond ra rb imm) s t .illegalOp (s.tile t).pc ∧ FaultsAs (.jmp t imm) s t .illegalOp (s.tile t).pc ∧
      FaultsAs (.call t rd imm) s t .illegalOp (s.tile t).pc ∧ FaultsAs (.dbnz t ra imm) s t .illegalOp (s.tile t).pc ∧
      FaultsAs (.loop t ra imm) s t .illegalOp (s.tile t).pc) ∧
    (65536 ≤ imm.toNat → FaultsAs (.trap t imm) s t .illegalOp (s.tile t).pc) ∧
    (4 ≤ imm.toNat → FaultsAs (.lidx t rd imm) s t .illegalOp (s.tile t).pc) ∧
    (64 ≤ imm.toNat → FaultsAs (.shli t rd ra imm) s t .illegalOp (s.tile t).pc ∧ FaultsAs (.shri t rd ra imm) s t .illegalOp (s.tile t).pc ∧
      FaultsAs (.sari t rd ra imm) s t .illegalOp (s.tile t).pc ∧ FaultsAs (.defrgn t ra rb imm) s t .illegalOp (s.tile t).pc ∧
      FaultsAs (.fence t ra imm) s t .illegalOp (s.tile t).pc) ∧
    (4 < imm.toNat → FaultsAs (.qfree t rd imm) s t .illegalOp (s.tile t).pc) ∧
    (imm.toNat % 8 ≠ 0 ∨ 0x1000 ≤ imm.toNat →
      FaultsAs (.rdreg t rd imm) s t .illegalOp (s.tile t).pc ∧ FaultsAs (.wrreg t ra imm) s t .illegalOp (s.tile t).pc)

/-- R110, R113, R119: where the branches go, what CALL and DBNZ write, and their frame. A target outside the innermost open levels
of strand 0 closes them. -/
def Obligations.Branches : Prop :=
  ∀ (s : State) (t : Nat) (rd ra rb : Reg) (imm : Imm) (cond : BitVec 5), (s.tile t).runs = true → (s.tile t).g.length = 29 →
    let x := s.tile t
    let a := x.reg ra
    let b := x.reg rb
    let left := fun (v : Nat) => if x.current = 0 then x.loops.dropWhile (fun l => v < l.start || l.last < v) else x.loops
    let holds := (cond = 0 ∧ a = b) ∨ (cond = 1 ∧ a ≠ b) ∨ (cond = 2 ∧ a.toInt < b.toInt) ∨ (cond = 3 ∧ b.toInt ≤ a.toInt) ∨
      (cond = 4 ∧ a.toNat < b.toNat) ∨ (cond = 5 ∧ b.toNat ≤ a.toNat)
    (imm.toNat < 8192 →
      (holds → Yields (.br t cond ra rb imm) s (fun u => At u t imm.toNat (left imm.toNat) ∧ NoReg s u t)) ∧
      (∀ p ls, ¬ holds → cond.toNat ≤ 5 → x.fallThrough x.pc = (some p, ls) →
        Yields (.br t cond ra rb imm) s (fun u => At u t p ls ∧ NoReg s u t)) ∧
      Yields (.jmp t imm) s (fun u => At u t imm.toNat (left imm.toNat) ∧ NoReg s u t) ∧
      Yields (.call t rd imm) s (fun u => At u t imm.toNat (left imm.toNat) ∧
        (u.tile t).reg rd = (if rd = 0 then 0 else BitVec.ofNat 64 (x.pc + 1)) ∧ OnlyReg s u t rd) ∧
      (a ≠ 1 → Yields (.dbnz t ra imm) s (fun u => At u t imm.toNat (left imm.toNat) ∧
        (u.tile t).reg ra = (if ra = 0 then 0 else a - 1) ∧ OnlyReg s u t ra)) ∧
      (∀ p ls, a = 1 → x.fallThrough x.pc = (some p, ls) → Yields (.dbnz t ra imm) s (fun u => At u t p ls ∧
        (u.tile t).reg ra = 0 ∧ OnlyReg s u t ra))) ∧
    (a.toNat < 8192 → Yields (.jr t ra) s (fun u => At u t a.toNat (left a.toNat) ∧ NoReg s u t))

/-- R81, R88, R102, R110, R115: NOP, END, YIELD, RXREL, TRAP and a WRREG. -/
def Obligations.StrandInstructions : Prop :=
  ∀ (s : State) (t p : Nat) (ls : List Loop) (imm : Imm), s.Falls t p ls →
    let x := s.tile t
    Yields (.nop t) s (fun u => At u t p ls ∧ NoReg s u t) ∧
    Yields (.end_ t) s (fun u => ((u.tile t).strand x.current).state = .free ∧ (u.tile t).issued = 0 ∧
      (x.current = 0 → (u.tile t).loops = []) ∧ (∀ m ∈ (u.tile t).rx, m.strand = some x.current → m.released = true) ∧
      (∀ r, (u.tile t).reg r = x.reg r) ∧ (u.tile t).scratch = x.scratch ∧ OnlyTile s u t) ∧
    Yields (.yield t) s (fun u => At u t p ls ∧ (u.tile t).issued = 0 ∧ NoReg s u t ∧
      ((u.tile t).strand x.current).state = if x.othersRunnable then .runnable else .running) ∧
    Yields (.rxrel t) s (fun u => At u t p ls ∧ (∀ r, (u.tile t).reg r = x.reg r) ∧ (u.tile t).scratch = x.scratch ∧ OnlyTile s u t ∧
      ∀ m ∈ (u.tile t).rx, (x.rxBase + m.line) * 64 = (x.reg 29).toNat → m.released = true) ∧
    (imm.toNat < 65536 → FaultsAs (.trap t imm) s t .userTrap x.pc) ∧
    (∀ ra : Reg, Yields (.wrreg t ra 0x808) s (fun u => At u t p ls ∧ (u.tile t).sr = { seed := (x.reg ra).toNat } ∧
      (∀ r, (u.tile t).reg r = x.reg r) ∧ (u.tile t).scratch = x.scratch ∧ OnlyTile s u t))

/-- R116, R142, R148: LOOP opens a level over the body in strand 0 with a free level and a body that ends within the enclosing one;
DEFRGN defines a region that no instruction in flight uses; FENCE goes on when nothing that it names is in flight. -/
def Obligations.LoopsRegionsFences : Prop :=
  ∀ (s : State) (t p : Nat) (ls : List Loop) (ra rb : Reg) (imm : Imm), s.Falls t p ls →
    let x := s.tile t
    let n := (x.reg ra).toNat % 2 ^ 32
    let base := (x.reg ra).toNat
    let lines := (x.reg rb).toNat
    (imm.toNat < 8192 → x.current = 0 → x.pc + 1 ≤ imm.toNat → (∀ l ∈ x.loops.head?, imm.toNat ≤ l.last) → x.loops.length < 4 →
      x.pc < 8191 → n ≠ 0 →
      Yields (.loop t ra imm) s (fun u => At u t (x.pc + 1) (⟨x.pc + 1, imm.toNat, n, 0⟩ :: x.loops) ∧ NoReg s u t)) ∧
    (imm.toNat < 64 → base % 64 = 0 → 0 < lines → base + 64 * lines ≤ 0x180000 →
      (∀ q ∈ x.inFlight, (q.rdMask ||| q.wrMask).getLsbD imm.toNat = false) →
      Yields (.defrgn t ra rb imm) s (fun u => At u t p ls ∧ (u.tile t).regions.look imm.toNat = some ⟨base / 64, lines⟩ ∧
        (∀ r, r ≠ imm.toNat → (u.tile t).regions.look r = x.regions.look r) ∧
        (∀ r, (u.tile t).reg r = x.reg r) ∧ (u.tile t).scratch = x.scratch ∧ OnlyTile s u t)) ∧
    (imm.toNat < 32 → (∀ q ∈ x.inFlight, (q.rdMask ||| q.wrMask) &&& x.reg ra = 0) →
      (∀ e, e < 5 → imm.toNat.testBit e = true → x.queue e = []) →
      Yields (.fence t ra imm) s (fun u => At u t p ls ∧ NoReg s u t))

/-! ### Program boundary, strands, issue of long-running instructions (R81, R82, R120 to R150) -/

/-- R150: at the program boundary an armed swap changes the bank, closes the loops and starts strand 0 at instruction 0; with no
armed swap strand 0 goes on. R81: the next RUNNABLE strand is switched in with its saved context. R82, R144: a strand whose conflict
has cleared tries its instruction again, one whose FENCE is met goes on. -/
def Obligations.StrandScheduling : Prop :=
  ∀ (s : State) (t : Nat), (s.tile t).state = .running →
    let x := s.tile t
    (∀ ids, (x.strand 0).state = .waiting → (x.strand 0).wait = .fence ids true → x.inFlight = [] →
      (∀ e ∈ x.strands, e.1 = 0 ∨ e.2.state = .free) →
      (x.armed = true → x.loading = none → Yields (.programBoundarySwap t) s (fun u =>
        (u.tile t).bank = 1 - x.bank ∧ (u.tile t).armed = false ∧ (u.tile t).table = none ∧ (u.tile t).loops = [] ∧
        (x.table = none → (u.tile t).handlers = x.handlers) ∧
        ((u.tile t).strand 0).state = .runnable ∧ ((u.tile t).strand 0).pc = 0 ∧ (u.tile t).g = x.g ∧
        (u.tile t).scratch = x.scratch.writeN (x.area * 65536) ((u.tile t).strand 0).context ∧ ∀ v, v ≠ t → u.tile v = s.tile v)) ∧
      (∀ p ls, x.armed = false → x.fallThroughOf 0 (x.strand 0).pc = (some p, ls) → Yields (.programBoundarySwap t) s (fun u =>
        (u.tile t).bank = x.bank ∧ ((u.tile t).strand 0).state = .runnable ∧ ((u.tile t).strand 0).pc = p ∧
        (u.tile t).loops = ls ∧ (u.tile t).g = x.g ∧ OnlyTile s u t))) ∧
    (∀ n, (x.strand x.current).state ≠ .running → x.nextRunnable = some n → n ≠ x.current →
      (∀ w ∈ x.bad, w + 8 ≤ x.area * 65536 + 32 * n ∨ x.area * 65536 + 32 * n + 32 ≤ w) → Yields (.strandSwitch t) s (fun u =>
      (u.tile t).current = n ∧ (u.tile t).issued = 0 ∧ ((u.tile t).strand n).state = .running ∧
      (u.tile t).scratch = x.scratch.writeN (x.area * 65536 + 32 * x.current) (x.strand x.current).context ∧
      ((u.tile t).strand n).g29 = (u.tile t).scratch.word (x.area * 65536 + 32 * n + 8) ∧
      (u.tile t).g = x.g ∧ OnlyTile s u t)) ∧
    (∀ n ids, (x.strand n).state = .waiting → (∀ q ∈ x.inFlight, q.id ∉ ids) →
      ((x.strand n).wait = .insns ids → Yields (.strandWake t n) s (fun u =>
        (u.tile t).strand n = { x.strand n with state := .runnable, wait := .none } ∧ (u.tile t).g = x.g ∧ OnlyTile s u t)) ∧
      (∀ p ls, (x.strand n).wait = .fence ids false → x.fallThroughOf n (x.strand n).pc = (some p, ls) →
        Yields (.strandWake t n) s (fun u => ((u.tile t).strand n).state = .runnable ∧ ((u.tile t).strand n).pc = p ∧
          (u.tile t).loops = ls ∧ (u.tile t).g = x.g ∧ OnlyTile s u t)))

/-- R120, R139 to R147: TENS, VEC, MOVE, MSG and SPRS copy the 32 words of their descriptor at the exact sum of register and
immediate to the end of their engine's queue, when the checks of R139 pass, nothing in flight conflicts, and the queue has room; a full queue faults
with QUEUE_FULL (R146). -/
def Obligations.Issue : Prop :=
  ∀ (s : State) (t p a : Nat) (ls : List Loop) (ra : Reg) (imm : Imm), s.Falls t p ls →
    let x := s.tile t
    x.addr ra imm = (a : Int) → a % 256 = 0 → a + 256 ≤ 0x180000 → x.bad = [] → x.soft = [] →
    let ws := x.scratch.words a 32
    let issues := fun (e : Nat) (i : Instr) =>
      issueShape e ws = none → x.regionsOk ws = true → x.issueFormat e ws = none → x.conflicts ws = [] →
      (32 ≤ (x.queue e).length → FaultsAs i s t .queueFull x.pc) ∧
      ((x.queue e).length < 32 → Yields i s (fun u => At u t p ls ∧ (∀ r, (u.tile t).reg r = x.reg r) ∧ (u.tile t).scratch = x.scratch ∧ OnlyTile s u t ∧
        (∃ q : QEntry, (u.tile t).queue e = x.queue e ++ [q] ∧ q.words = ws ∧ q.strand = x.current ∧ q.pc = x.pc ∧
          q.thresh = x.threshold ∧ q.ran = false ∧ q.status = .ok) ∧
        (∀ e', e' ≠ e → (u.tile t).queue e' = x.queue e')))
    issues 0 (.tens t ra imm) ∧ issues 1 (.vec t ra imm) ∧ issues 2 (.move t ra imm) ∧ issues 3 (.msg t ra imm) ∧
    ((∀ v, x.part = some v → s.partTrain v = false) → issues 4 (.sprs t ra imm))

/-- R120, R139: a descriptor address that is no multiple of 256 faults at issue with ADDR_ALIGN, one whose 256 bytes are not
all below 0x18_0000 with ADDR_RANGE. -/
def Obligations.DescriptorAddressFaults : Prop :=
  ∀ (s : State) (t : Nat) (ra : Reg) (imm : Imm), (s.tile t).runs = true →
    let d := (s.tile t).addr ra imm
    let pc := (s.tile t).pc
    (d % 256 ≠ 0 →
      FaultsAs (.tens t ra imm) s t .addrAlign pc ∧ FaultsAs (.vec t ra imm) s t .addrAlign pc ∧
      FaultsAs (.move t ra imm) s t .addrAlign pc ∧ FaultsAs (.msg t ra imm) s t .addrAlign pc ∧
      FaultsAs (.sprs t ra imm) s t .addrAlign pc) ∧
    (d % 256 = 0 → d < 0 ∨ 0x17FFFF < d + 255 →
      FaultsAs (.tens t ra imm) s t .addrRange pc ∧ FaultsAs (.vec t ra imm) s t .addrRange pc ∧
      FaultsAs (.move t ra imm) s t .addrRange pc ∧ FaultsAs (.msg t ra imm) s t .addrRange pc ∧
      FaultsAs (.sprs t ra imm) s t .addrRange pc)

/-! ### Engines (R122 to R138, R277 to R287) -/

/-- R130, R131: a vector instruction whose operands and result are vector registers, in its own type: every element of the result
register, and that no other register changes. -/
def Obligations.VectorRegisterResults : Prop :=
  ∀ (s : State) (t xr yr zr : Nat) (q : QEntry), InRegisters s t q xr yr zr →
    let v := fun (r i : Nat) => (s.tile t).vregs.lookD (64 * r + i) 0
    let x := fun i => f32 (v xr i)
    let y := fun i => f32 (v yr i)
    let z := fun i => f32 (v zr i)
    let a := fun i => BitVec.ofNat 32 (v xr i)
    let b := fun i => BitVec.ofNat 32 (v yr i)
    let im := s.tileImage
    let gives := fun (op : Nat) (i : Instr) (f : Nat → Exact) => dOp q.words = op →
      VectorWrites i s t q zr (fun n => encodeElem 0 (rne32 (f n)))
    let givesInt := fun (op : Nat) (i : Instr) (f : Nat → BitVec 32) => dOp q.words = op →
      VectorWrites i s t q zr (fun n => (f n).toNat)
    gives 0x01 (.vecAdd t) (fun i => (x i).add (y i)) ∧
    gives 0x02 (.vecSub t) (fun i => (x i).sub (y i)) ∧
    gives 0x03 (.vecMul t) (fun i => (x i).mul (y i)) ∧
    gives 0x04 (.vecFma t) (fun i => ((x i).mul (y i)).add (z i)) ∧
    gives 0x05 (.vecMin t) (fun i => vmin (x i) (y i)) ∧
    gives 0x06 (.vecMax t) (fun i => vmax (x i) (y i)) ∧
    gives 0x07 (.vecAbs t) (fun i => (x i).abs) ∧
    gives 0x10 (.vecExp2 t) (fun i => vexp2 im (rne32 (x i))) ∧
    gives 0x11 (.vecLog2 t) (fun i => vlog2 im (rne32 (x i))) ∧
    gives 0x12 (.vecRecip t) (fun i => vrecip im (rne32 (x i))) ∧
    gives 0x13 (.vecRsqrt t) (fun i => vrsqrt im (rne32 (x i))) ∧
    gives 0x14 (.vecSigmoid t) (fun i => vsigmoid im (rne32 (x i))) ∧
    gives 0x15 (.vecTanh t) (fun i => vtanh im (rne32 (x i))) ∧
    gives 0x30 (.vecCvt t) (fun i => x i) ∧
    givesInt 0x40 (.vecIadd t) (fun i => a i + b i) ∧
    givesInt 0x41 (.vecIsub t) (fun i => a i - b i) ∧
    givesInt 0x42 (.vecImul t) (fun i => a i * b i) ∧
    givesInt 0x43 (.vecImin t) (fun i => if (a i).toInt ≤ (b i).toInt then a i else b i) ∧
    givesInt 0x44 (.vecImax t) (fun i => if (a i).toInt ≤ (b i).toInt then b i else a i) ∧
    givesInt 0x45 (.vecIand t) (fun i => a i &&& b i) ∧
    givesInt 0x46 (.vecIor t) (fun i => a i ||| b i) ∧
    givesInt 0x47 (.vecIxor t) (fun i => a i ^^^ b i)

/-- R127 to R129, R277 to R286: what a run of the tensor and of the sparse engine leaves is the tile of its program; the sparse engine first
sends the requests of the first entry of its Legend, in the LATENCY class, and once all that it needs is read it runs to its end, where every block
decodes and agrees in its format, and its operands and outputs lie in the scratchpad.
R123, R126 to R132: a vector or tensor instruction at the head of its queue, whose descriptor passes the checks of issue and whose operands
and outputs lie in the scratchpad, runs to its end: every output unit is written, and the entry has run.
R132: a reduction of the 64 elements of a vector register into one FP32 element in memory: sum, largest, smallest, combined lane by lane, i with i + 32,
then 16, 8, 4, 2 and 1. -/
def Obligations.EngineRuns : Prop :=
  (
  ∀ (s : State) (t : Nat) (q : QEntry), (s.tile t).state = .running → q.ran = false → q.status = .ok →
    let x := s.tile t
    let w := q.words
    (x.head 0 = some q → x.sparseFirst q = false → dOp w = 1 →
      let q' := { q with saved := x.sr, accs := if accInit w then mmEntries x w else [],
                         decided := accKeep w || !(convCtl (dConv w)).promote }
      ∀ y, mmRun w q'.accs { x := { x with srWrote := false } } = .ok () y →
        Yields (.matmul t) s (fun u => u = s.setTile t (y.x.setHead 0 { q' with ran := true, units := y.units, nsat := y.nsat }))) ∧
    (x.head 4 = some q → x.tensorBusy = false → x.tensorFirst q = false →
      let d := sprsOf w
      (∀ a n ps, q.fetch = none → q.waits = [] →
        gatherBlocks d.base d.cols ((x.sparseOrder q).flatMap (fun i => (List.range d.cols).map (fun j => (i, j)))) [] = ([], some (a, n)) →
        s.viewUnit (x.part.getD 64) a n = some ps → ps ≠ [] →
        let asks := fun (i : Instr) => Yields i s (fun u => u =
          (s.setTile t (x.setHead 4 { q with fetch := some { order := x.sparseOrder q, cur := (.ok, List.replicate n 0) } })).sparseSend t q.id ps)
        (dOp w = 1 → asks (.spmm t)) ∧ (dOp w = 2 → asks (.predict t))) ∧
      (∀ f blks, q.fetch = some f → q.waits = [] → f.blocks d = some blks → blks.map (·.1) = x.sparseOrder q → x.bad = [] →
        sparseShapeBad w = false → sparseFormat w q.theta = none → predAddr w = none →
        (agAt w 4).Readable (fmtBits (agAt w 4).fmt.fmt) 32 →
        (∀ e ∈ blks, ∀ b ∈ e.2, ∃ k : SparseBlk, b = .ok k) →
        let runs := fun (i : Instr) (y : EngSt) => y.units = d.z.units ∧ Yields i s (fun u =>
          u = s.setTile t (y.x.setHead 4 { q with fetch := none, ran := true, units := y.units, nsat := y.nsat }))
        (dOp w = 1 → (∀ e ∈ blks, ∀ k : SparseBlk, Except.ok k ∈ e.2 → k.leg.fmt = d.x.fmt.fmt) → d.x.fmt.split = 0 → d.z.Writable d.conv d.conv.fmt →
          ∃ y, spmmRun w q.sctrl blks { x := x } = .ok () y ∧ runs (.spmm t) y) ∧
        (dOp w = 2 → (∀ e ∈ blks, ∀ k : SparseBlk, Except.ok k ∈ e.2 → k.leg.fmt = 0xB ∧ k.leg.bscale = false) → d.z.Within d.z.units 8 →
          ∃ y, predictRun w q.sctrl q.theta blks { x := x } = .ok () y ∧ runs (.predict t) y)))) ∧ (
  (
  ∀ (s : State) (t : Nat) (q : QEntry), (s.tile t).state = .running → q.ran = false → q.status = .ok → (s.tile t).bad = [] →
    let x := s.tile t
    let w := q.words
    let c := convCtl (dConv w)
    let done := fun (i : Instr) => EngineDone i s t 1 q (agAt w 20).units
    (x.head 1 = some q → vecShapeBad w = false → vecFormat w = none →
      (∀ g ∈ vecOperands w, g.useVreg = false → g.useImm = false → g.Readable (fmtBits g.fmt.fmt) (perUnit g.fmt.fmt)) →
      ((agAt w 20).useVreg = false → (agAt w 20).Writable c (vecOutFmt w)) →
      (dOp w = 0x01 → done (.vecAdd t)) ∧ (dOp w = 0x02 → done (.vecSub t)) ∧ (dOp w = 0x03 → done (.vecMul t)) ∧
      (dOp w = 0x04 → done (.vecFma t)) ∧ (dOp w = 0x05 → done (.vecMin t)) ∧ (dOp w = 0x06 → done (.vecMax t)) ∧
      (dOp w = 0x07 → done (.vecAbs t)) ∧ (dOp w = 0x10 → done (.vecExp2 t)) ∧ (dOp w = 0x11 → done (.vecLog2 t)) ∧
      (dOp w = 0x12 → done (.vecRecip t)) ∧ (dOp w = 0x13 → done (.vecRsqrt t)) ∧ (dOp w = 0x14 → done (.vecSigmoid t)) ∧
      (dOp w = 0x15 → done (.vecTanh t)) ∧ (dOp w = 0x20 → done (.vecRsum t)) ∧ (dOp w = 0x21 → done (.vecRmax t)) ∧
      (dOp w = 0x22 → done (.vecRmin t)) ∧ (dOp w = 0x30 → done (.vecCvt t)) ∧ (dOp w = 0x40 → done (.vecIadd t)) ∧
      (dOp w = 0x41 → done (.vecIsub t)) ∧ (dOp w = 0x42 → done (.vecImul t)) ∧ (dOp w = 0x43 → done (.vecImin t)) ∧
      (dOp w = 0x44 → done (.vecImax t)) ∧ (dOp w = 0x45 → done (.vecIand t)) ∧ (dOp w = 0x46 → done (.vecIor t)) ∧
      (dOp w = 0x47 → done (.vecIxor t))) ∧
    (x.head 0 = some q → x.sparseFirst q = false → tensorShapeBad w = false → tensorFormat w = none →
      (agAt w 4).Readable (agAt w 4).fmt.elemBits 32 → (agAt w 12).Readable (agAt w 12).fmt.elemBits 32 →
      (accKeep w = true → EngineDone (.matmul t) s t 0 q (((agAt w 4).counts.drop 2).foldl (· * ·) 1 * (mmM w * mmN w))) ∧
      (accKeep w = false → (agAt w 20).Writable c c.fmt →
        (c.dqCol = true → bits (nth w 30 0) 20 0 + 4 * mmN w ≤ 0x180000) → (c.bias = true → bits (nth w 30 0) 41 21 + 4 * mmN w ≤ 0x180000) →
        EngineDone (.matmul t) s t 0 q (agAt w 20).units))) ∧ (
  ∀ (s : State) (t xr a : Nat) (q : QEntry), (s.tile t).state = .running → q.ran = false → (s.tile t).head 1 = some q → dConv q.words = 0 →
    (agAt q.words 4).useVreg = true → (agAt q.words 4).useImm = false → (agAt q.words 4).vreg = xr → (agAt q.words 4).counts = [64, 1, 1, 1, 1, 1] →
    (agAt q.words 20).useVreg = false → (agAt q.words 20).units = 1 → (agAt q.words 20).base = a → a % 4 = 0 → a + 4 ≤ 0x180000 →
    (s.tile t).bad = [] → (s.tile t).scratch.wf = true →
    let v := fun i => f32 ((s.tile t).vregs.lookD (64 * xr + i) 0)
    let tree := fun (f : Exact → Exact → Exact) (l : Nat → Exact) => ([32, 16, 8, 4, 2, 1].foldl (fun (l : Nat → Exact) n i => f (l i) (l (i + n))) l) 0
    let sum := fun (a b : Exact) => rne32 (a.add b)
    let gives := fun (i : Instr) (y : Exact) => Yields i s (fun u =>
      (∀ b, u.scratchByte t b = if a ≤ b ∧ b < a + 4 then (BitVec.ofNat 32 (encodeElem 0 (rne32 y))).extractLsb' (8 * (b - a)) 8 else s.scratchByte t b) ∧
      OnlyTile s u t ∧ (u.tile t).vregs = (s.tile t).vregs)
    (dOp q.words = 0x20 → gives (.vecRsum t) (tree sum (fun i => sum Exact.zero (v i)))) ∧
    (dOp q.words = 0x21 → gives (.vecRmax t) (tree vmax v)) ∧
    (dOp q.words = 0x22 → gives (.vecRmin t) (tree vmin v))))

/-- R68: an instruction whose saturations do not exceed the threshold latched at its issue keeps its outputs; one with more is run again from
the accumulator entries and generator states of its start. -/
def Obligations.PromoteDecision : Prop :=
  ∀ (s : State) (t : Nat) (q : QEntry), (s.tile t).head 0 = some q → q.ran = true → q.decided = false →
    (q.nsat ≤ q.thresh → Yields (.promoteDecision t) s (fun u => u = s.setTile t ((s.tile t).setHead 0 { q with decided := true }))) ∧
    (q.thresh < q.nsat → q.status = .ok → (s.tile t).srWrote = false → ∀ y, mmRerun q.words q.accs { x := { s.tile t with sr := q.saved } } = .ok () y →
      Yields (.promoteDecision t) s (fun u => u = s.setTile t
        (y.x.setHead 0 { q with decided := true, rerun := true, ran := true, units := y.units, nsat := y.nsat })))

/-- R133, R135: a COPY of one unit within the scratchpad moves its bytes and no others; SEND puts one message into the mesh, with SRC, SRC_GW and PART written by the tile. -/
def Obligations.MoveAndSend : Prop :=
  ∀ (s : State) (t : Nat) (q : QEntry), (s.tile t).state = .running → q.ran = false → q.status = .ok →
    (s.tile t).bad = [] → (s.tile t).soft = [] → (s.tile t).scratch.wf = true →
    let x := s.tile t
    (∀ a b n, x.head 2 = some q → s.stk.reqs = [] → (agAt q.words 4).units = 1 → (agAt q.words 4).space = 0 → (agAt q.words 12).space = 0 →
      3 ≤ bits (nth q.words 20 0) 3 0 → n = 2 ^ bits (nth q.words 20 0) 3 0 → (agAt q.words 4).base = a → (agAt q.words 12).base = b →
      a % 8 = 0 → b % 8 = 0 → a + n ≤ 0x180000 → b + n ≤ 0x180000 →
      Yields (.copy t) s (fun u => (∀ i, u.scratchByte t i = if b ≤ i ∧ i < b + n then s.scratchByte t (a + (i - b)) else s.scratchByte t i) ∧
        (u.tile t).head 2 = some { q with ran := true, decided := true, units := q.units + 1 } ∧ ∀ v, v ≠ t → u.tile v = s.tile v)) ∧
    (let h := nth q.words 4 0
     let w := nth q.words 5 0
     let n := bits h 34 28
     x.head 3 = some q → bits w 20 0 % 8 = 0 → bits w 41 21 % 64 = 0 → bits w 20 0 + 56 ≤ 0x180000 → bits w 41 21 + 64 * n ≤ 0x180000 →
      Yields (.send t) s (fun u => ∃ m : MeshMsg, u.grid.mesh = s.grid.mesh ++ [m] ∧ m.src = coord t ∧ m.srcGw = false ∧
        m.dest = bits h 9 0 ∧ m.handler = bits h 27 22 ∧ m.len = n ∧ m.tag = bits h 63 48 ∧ m.part = x.part.getD 0 % 64 ∧
        m.payload = x.scratch.readN (bits w 41 21) (64 * n) ∧
        (u.tile t).head 3 = some { q with ran := true, units := n + 1, nsat := 0 } ∧ ∀ v, v ≠ t → u.tile v = s.tile v))

/-- R122, R123, R189: an engine completes the finished instruction at the head of its queue: the record of status and units where asked,
the entry leaves the queue, and SIG_EN sends one signal from one of the engine's 64 entries. -/
def Obligations.Completion : Prop :=
  ∀ (s : State) (t e : Nat) (i : Instr) (q : QEntry) (r : List QEntry), (s.tile t).queue e = q :: r → q.finished = true →
    (e = 0 ∧ i = .matmulComplete t ∨ e = 2 ∧ i = .copyComplete t ∨ (e = 1 ∨ e = 3 ∨ e = 4) ∧ i = .instructionComplete t e) →
    let x := s.tile t
    (dSigEn q.words = false → Yields i s (fun u => (u.tile t).queue e = r ∧ (∀ e', e' ≠ e → (u.tile t).queue e' = x.queue e') ∧
      OnlyTile s u t ∧ (∀ r, (u.tile t).reg r = x.reg r) ∧ (dCompl q.words = false → (u.tile t).scratch = x.scratch) ∧
      (q.rerun = true → (u.tile t).numPromote = x.count x.numPromote 1) ∧
      (dCompl q.words = true → dComplAddr q.words % 8 = 0 → x.scratch.wf = true →
        (u.tile t).scratch.word (dComplAddr q.words) = BitVec.ofNat 64 (q.status.code + (if q.rerun then 256 else 0) + q.units % 2 ^ 32 * 65536)))) ∧
    (dSigEn q.words = true → x.engSignals.lookD e 0 < 64 → Yields i s (fun u => (u.tile t).queue e = r ∧
      (u.tile t).engSignals.lookD e 0 = x.engSignals.lookD e 0 + 1 ∧
      ∃ y : MerXfer, u.mer.xfers = s.mer.xfers ++ [y] ∧ y.obj = dSigObj q.words ∧ y.act = .signal false ∧ y.src = .engine e ∧ y.tile = t))

/-! ### Messages (R83 to R91) -/

/-- R85 to R88: a message at the head of its source's order enters the receive ring of a running tile of its partition; one for a
tile that does not run is dropped and counted; dispatch starts the lowest free strand at the handler's entry with the message's address
and first word in its own registers. -/
def Obligations.Messages : Prop :=
  ∀ (s : State) (t : Nat),
    let x := s.tile t
    (∀ src m rest, x.port = none → takeFirst (fun (m : MeshMsg) => !m.destGw && m.dest = coord t && m.src = coord src && m.srcGw = false) s.grid.mesh = some (m, rest) →
      (x.state ≠ .running → Yields (.messageReceive t src false) s (fun u => u.grid.mesh = rest ∧
        u.tile t = { x with rxDrop := x.count x.rxDrop 1 } ∧ ∀ v, v ≠ t → u.tile v = s.tile v)) ∧
      (x.state = .running → x.part = some m.part → x.ringUsed + m.len + 1 ≤ x.rxSize → Yields (.messageReceive t src false) s (fun u =>
        u.grid.mesh = rest ∧ (u.tile t).rx = x.rx ++ [{ line := x.rxWrite, lines := m.len + 1, handler := m.handler }] ∧
        (u.tile t).rxWrite = (x.rxWrite + (m.len + 1)) % x.rxSize ∧ ∀ v, v ≠ t → u.tile v = s.tile v)) ∧
      (x.state = .running → x.part = some m.part → x.rxSize < x.ringUsed + m.len + 1 → Yields (.messageReceive t src false) s (fun u =>
        u.grid.mesh = rest ∧ u.tile t = { x with port := some m } ∧ ∀ v, v ≠ t → u.tile v = s.tile v))) ∧
    (∀ src h, x.port = some h → h.destGw = false → h.dest = coord t → h.src = coord src → h.srcGw = false → x.ringUsed + h.len + 1 ≤ x.rxSize →
      Yields (.messageReceive t src false) s (fun u => u.grid.mesh = s.grid.mesh ∧ (u.tile t).port = none ∧
        (u.tile t).rx = x.rx ++ [{ line := x.rxWrite, lines := h.len + 1, handler := h.handler }] ∧
        (u.tile t).rxWrite = (x.rxWrite + (h.len + 1)) % x.rxSize ∧ ∀ v, v ≠ t → u.tile v = s.tile v)) ∧
    (∀ m n h, x.state = .running → x.atBoundary = false → x.rx.find? (fun m => m.strand.isNone && !m.released) = some m →
      x.handlers.lookD m.handler {} = h → h.valid = true → x.running m.handler < (if h.max = 0 then 2047 else h.max) → x.freeStrand = some n →
      (x.ringAddr m.line / 8 * 8) ∉ x.bad → Yields (.messageDispatch t) s (fun u => (u.tile t).strand n =
          { state := .runnable, pc := h.entry, handler := m.handler, g29 := BitVec.ofNat 64 (x.ringAddr m.line), g30 := x.scratch.word (x.ringAddr m.line), g31 := 0, wait := .none } ∧
        (u.tile t).g = x.g ∧ OnlyTile s u t))

/-! ### Meridian (R181 to R212) -/

/-- R188 to R190, R197: MSIGNAL sends one signal to the object that its register names and goes on; MWAIT, MWAITTO and MREAD send a registration or a
read, and their strand waits for the reply. The timer of MWAITTO runs from the issue. -/
def Obligations.MeridianInstructions : Prop :=
  ∀ (s : State) (t p : Nat) (ls : List Loop) (rd ra : Reg) (imm : Imm), s.Falls t p ls →
    let x := s.tile t
    let obj := (x.reg ra).toNat
    let sends := fun (u : State) (act : MerAct) => u.mer.xfers = s.mer.xfers ++
      [{ id := s.mer.next, obj := obj, act := act, src := .strand, tile := t, strand := x.current, part := x.part, stamp := s.timebase, reg := if act = .signal (imm.toNat = 1) then 0 else s.mer.next }]
    let waits := fun (u : State) (timeout : Option Nat) =>
      (u.tile t).strand x.current = { x.strand x.current with state := .waiting, wait := .meridian obj rd.toNat s.mer.next s.now timeout false } ∧
      (∀ r, (u.tile t).reg r = x.reg r) ∧ (u.tile t).scratch = x.scratch ∧ (∀ v, v ≠ t → u.tile v = s.tile v) ∧ u.mer.objs = s.mer.objs
    obj < 2 ^ 14 →
    (imm.toNat < 2 → x.signals < 64 → Yields (.msignal t ra imm) s (fun u => sends u (.signal (imm.toNat = 1)) ∧ At u t p ls ∧
      (u.tile t).signals = x.signals + 1 ∧ (∀ r, (u.tile t).reg r = x.reg r) ∧ (u.tile t).scratch = x.scratch ∧
      (∀ v, v ≠ t → u.tile v = s.tile v) ∧ u.mer.objs = s.mer.objs)) ∧
    Yields (.mwait t rd ra) s (fun u => sends u (.wait none) ∧ waits u none) ∧
    Yields (.mwaitto t rd ra imm) s (fun u => sends u (.wait (some (s.timebase + imm.toNat))) ∧ waits u (some (s.now + imm.toNat))) ∧
    (imm.toNat < 3 → Yields (.mread t rd ra imm) s (fun u => sends u (.read imm.toNat) ∧ waits u none))

/-- R186: a COUNT signal that finds VALUE = 0xFFFF_FFFF and no waiter leaves VALUE, counts once, and raises a notice that names the object. -/
def Obligations.CountOverflow : Prop :=
  ∀ (s : State) (x : MerXfer) (o : MerObj), s.Takes x o → x.mayName o = true → x.act = .signal false → x.src ≠ .kci → o.kind = .count →
    o.value = 0xFFFFFFFF → o.waiters = [] →
    Yields (.merHomeApply x.id true) s (fun u => (∃ o', u.mer.objs.look x.obj = some o' ∧ o'.value = 0xFFFFFFFF ∧ o'.waiters = []) ∧
      u.mer.ovf = satInc s.mer.ovf ∧ ∃ v : State, u = v.notify .countOverflow .ok (some o.part) x.obj 0 (.die (merDie x.obj)))

/-- R184, R195: a COUNT signal takes the earliest waiter, or raises VALUE by one; a wait takes a unit at once; an EVENT signal releases every waiter in
registration order and stays set until CLEAR.
R185: a BARRIER whose arrivals reach TARGET completes: every registered waiter is released, in registration order, with the current GEN; ARRIVALS is 0 and
GEN one more modulo 2^32. -/
def Obligations.HomeCell : Prop :=
  (
  ∀ (s : State) (x : MerXfer) (o : MerObj), s.Takes x o → x.mayName o = true → x.src ≠ .kci →
    let after := fun (u : State) (o' : MerObj) (rs : List (Nat × Word)) =>
      u.mer.objs.look x.obj = some o' ∧ (∀ b, b ≠ x.obj → u.mer.objs.look b = s.mer.objs.look b) ∧
      ∃ l : List MerReply, u.mer.replies = s.mer.replies ++ l ∧ l.map (fun r => (r.reg, r.result)) = rs
    (o.kind = .count → x.act = .signal false →
      (∀ w ws, o.waiters = w :: ws → Yields (.merHomeApply x.id true) s (fun u =>
        after u { o with waiters := ws, last := x.lastWord } [(w.reg, waitResult .arrived false 0)])) ∧
      (o.waiters = [] → o.value < 0xFFFFFFFF → Yields (.merHomeApply x.id true) s (fun u =>
        after u { o with value := o.value + 1, last := x.lastWord } []))) ∧
    (∀ e, o.kind = .count → x.act = .wait e → 0 < o.value → Yields (.merHomeApply x.id true) s (fun u =>
      after u { o with value := o.value - 1 } [(x.reg, waitResult .arrived true (o.value - 1))])) ∧
    (o.kind = .event → x.act = .signal false → Yields (.merHomeApply x.id true) s (fun u =>
      after u { o with value := 1, waiters := [], last := x.lastWord } (o.waiters.map (fun w => (w.reg, waitResult .arrived false 0))))) ∧
    (o.kind = .event → x.act = .signal true → Yields (.merHomeApply x.id true) s (fun u =>
      after u { o with value := 0, last := x.lastWord } []))) ∧ (
  ∀ (s : State) (x : MerXfer) (o : MerObj), s.Takes x o → x.mayName o = true → o.kind = .barrier → o.value + 1 = o.target →
    let released := fun (u : State) => u.mer.objs.look x.obj = some { o with value := 0, gen := (o.gen + 1) % 2 ^ 32, waiters := [], last := (u.mer.objs.lookD x.obj o).last } ∧
      ∃ rs : List MerReply, rs.map (fun r => (r.reg, r.tile, r.strand, r.result)) =
        o.waiters.map (fun w => (w.reg, w.tile, w.strand, waitResult .arrived false o.gen)) ∧
      ((∃ e, x.act = .wait e) → ∃ r : MerReply, u.mer.replies = s.mer.replies ++ rs ++ [r] ∧ r.result = waitResult .arrived true o.gen ∧ r.reg = x.reg) ∧
      (x.act = .signal false → u.mer.replies = s.mer.replies ++ rs)
    (x.act = .signal false → x.src ≠ .kci → Yields (.merHomeApply x.id true) s released) ∧
    (∀ e, x.act = .wait e → Yields (.merHomeApply x.id true) s released))

/-- R189, R190, R197, R202: a reply that needs no sample point, or whose sample point has come, writes RD and lets its strand run; an expired timer sends a
withdrawal and the strand stays WAITING; an acknowledgement frees a signal entry. -/
def Obligations.MeridianArrivals : Prop :=
  ∀ (s : State) (cc : Nat),
    (∀ (r : MerReply) (p obj rd i : Nat) (ls : List Loop) (wd : Bool), (s.tile r.tile).g.length = 29 → rd < 32 → r.expiry = none →
      ((s.tile r.tile).strand r.strand).state = .waiting → ((s.tile r.tile).strand r.strand).wait = .meridian obj rd r.reg i none wd →
      (s.tile r.tile).fallThroughOf r.strand ((s.tile r.tile).strand r.strand).pc = (some p, ls) →
      let wakes := fun (u : State) => (u.tile r.tile).regOf r.strand rd = (if rd = 0 then 0 else r.result) ∧
        ((u.tile r.tile).strand r.strand).state = .runnable ∧ ((u.tile r.tile).strand r.strand).pc = p ∧
        u.mer.replies = s.mer.replies.filter (fun q => q.id ≠ r.id) ∧ (∀ v, v ≠ r.tile → u.tile v = s.tile v)
      (s.mer.replies.find? (fun q => q.id = r.id) = some r → r.sample = none → r.dead = false → r.arrived = false →
        Yields (.merRelease r.id cc) s wakes) ∧
      (s.mer.replies.filter (fun q => q.obj = r.obj && q.arrived && (match q.sample with
          | some c => decide (c ≤ (s.at cc).timebase)
          | none => true)) = [r] →
        Yields (.merSamplePoint r.obj cc) s wakes)) ∧
    (∀ (t n obj rd reg i e : Nat), ((s.tile t).strand n).state = .waiting → ((s.tile t).strand n).wait = .meridian obj rd reg i (some e) false →
      e ≤ cc → (∀ r ∈ s.mer.replies, r.reg = reg → r.arrived = false) →
      Yields (.mwaittoExpiry t n cc) s (fun u => ((u.tile t).strand n).wait = .meridian obj rd reg i (some e) true ∧
        ((u.tile t).strand n).state = .waiting ∧ ∃ y : MerXfer, u.mer.xfers = s.mer.xfers ++ [y] ∧ y.obj = obj ∧ y.act = .withdraw reg false ∧ y.tile = t)) ∧
    (∀ a : MerAck, s.mer.acks.find? (fun b => b.id = a.id) = some a → a.engine = none → a.datum = false →
      Yields (.merSignalAck a.id) s (fun u => (u.tile a.tile).signals = (s.tile a.tile).signals - 1 ∧ (u.tile a.tile).g = (s.tile a.tile).g ∧
        u.mer.acks = s.mer.acks.filter (fun b => b.id ≠ a.id) ∧ ∀ v, v ≠ a.tile → u.tile v = s.tile v))

/-- R206, R207: a write to MER_DBG_SEL clears VALID until the capture of the object has completed; R208, R209: an unblocked partition
ends its episode, and one blocked for the whole window is reported once, with its snapshot. -/
def Obligations.MeridianDebug : Prop :=
  ∀ (s : State) (fn : Nat) (value : Word),
    Yields (.merDbgCapture fn value) s (fun u => (u.mer.dbg.lookD fn {}).valid = false ∧ (u.fn fn).merSel = value.toNat % 2 ^ 14 ∧
      (u.mer.dbg.lookD fn {}).busy = some (value.toNat % 2 ^ 14) ∧ (u.mer.dbg.lookD fn {}).value = (s.mer.dbg.lookD fn {}).value ∧
      u.mer.objs = s.mer.objs ∧ u.grid = s.grid) ∧
    (∀ obj o, (s.mer.dbg.lookD fn {}).busy = some obj → s.mer.objs.look obj = some o → fn = 0 ∨ o.part + 1 = fn →
      Yields (.merDbgCaptureDone fn) s (fun u => (u.mer.dbg.lookD fn {}).valid = true ∧ (u.mer.dbg.lookD fn {}).state = o.stateWord ∧
        (u.mer.dbg.lookD fn {}).value = o.valueWord ∧ (u.mer.dbg.lookD fn {}).last = o.last ∧
        (u.mer.dbg.lookD fn {}).waiters.take (min 32 o.waiters.length) = (o.waiters.take 32).map MerWaiter.word ∧ u.grid = s.grid)) ∧
    (∀ p cc, (s.blocked p = false → Yields (.deadlockDetect p cc) s (fun u => p ∉ u.mer.dl ∧ u.mer.objs = s.mer.objs ∧ u.grid = s.grid)) ∧
      (∀ c, s.blocked p = true → s.mer.since.look p = some c → s.mer.enabled = true → p ∉ s.mer.dl →
        (∀ e ∈ s.partTiles p, ∀ d ∈ e.2.strands, ∀ o r g i w b, d.2.wait = .meridian o r g i w b → i + 2 ^ s.mer.window ≤ cc) →
        c + 2 ^ s.mer.window ≤ cc → 2 ^ s.mer.window ≤ cc →
        Yields (.deadlockDetect p cc) s (fun u => p ∈ u.mer.dl ∧ u.mer.snaps.look p = some (s.dlSnapshot p) ∧ u.grid = s.grid)))

/-- R183, R184, R188, R192, R211, R212: the Meridian commands of the physical function and the management port. -/
def Obligations.MeridianCommands : Prop :=
  ∀ (s : State) (k : Kci), s.Open k → ∀ (obj part value : Nat) (kind : MerKind) (o : MerObj), obj < 16384 →
    (part < 64 → s.partExists part = true → s.mer.objs.look obj = none → merRange kind value = true →
      Yields (.merAlloc k obj part kind value) s (fun u => u.Follows (s.setObj obj
        { kind := kind, part := part, value := if kind = .barrier then 0 else value, target := if kind = .barrier then value else 0, gen := 0 }) ∧
        u.Answered k 0x0A01 .ok [])) ∧
    (s.mer.objs.look obj = some o → o.waiters = [] → Yields (.merFree k obj) s (fun u => u.mer = { s.mer with objs := s.mer.objs.del obj } ∧
      u.grid = s.grid ∧ u.Answered k 0x0A02 .ok [])) ∧
    (∀ gen : Option Nat, s.mer.objs.look obj = some o → o.waiters = [] → merRange o.kind value = true → gen.getD 0 < 2 ^ 32 →
      Yields (.merSet k obj value gen) s (fun u => u.Follows (s.setObj obj (if o.kind = .barrier then { o with value := 0, target := value, gen := gen.getD o.gen }
        else { o with value := value })) ∧ u.Answered k 0x0A03 .ok [])) ∧
    (∀ clear, Yields (.merSignal k obj clear) s (fun u => (∃ y : MerXfer, u.mer.xfers = s.mer.xfers ++ [y] ∧ y.id = s.mer.next ∧ y.obj = obj ∧
      y.act = .signal clear ∧ y.src = .kci) ∧ u.grid = s.grid ∧ u.Running k 0x0A04 [s.mer.next])) ∧
    (s.mer.objs.look obj = some o → Yields (.merRead k obj) s (fun u => u.Follows s ∧
      u.Answered k 0x0A05 .ok ([o.valueWord, o.stateWord, o.last] ++ o.waiters.map MerWaiter.word))) ∧
    (∀ window enable, 16 ≤ window → window ≤ 40 → Yields (.merDlCfg k window enable) s (fun u =>
      u.Follows (s.setMer { s.mer with window := window, enabled := enable }) ∧ u.Answered k 0x0A06 .ok [])) ∧
    (∀ dest d, part < 64 → s.mer.snaps.look part = some d → Yields (.merDlSnapshot k part dest) s (fun u =>
      (u.hostMem k.src.fnIdx) = (s.hostMem k.src.fnIdx).writeN dest d.bytes ∧ u.mer = s.mer ∧ u.grid = s.grid ∧ u.Answered k 0x0A07 .ok []))

/-- R205: MER_FREE and MER_SET complete with OBJ_BUSY, and change nothing, while the object has a registered waiter. -/
def Obligations.ObjectBusy : Prop :=
  ∀ (s : State) (k : Kci), s.Open k → ∀ (obj value : Nat) (gen : Option Nat) (o : MerObj), obj < 16384 → gen.getD 0 < 2 ^ 32 →
    s.mer.objs.look obj = some o → o.waiters ≠ [] →
    Yields (.merFree k obj) s (fun u => u.Answered k 0x0A02 .objBusy [] ∧ u.Follows s ∧ u.cmp.config = s.cmp.config) ∧
    Yields (.merSet k obj value gen) s (fun u => u.Answered k 0x0A03 .objBusy [] ∧ u.Follows s ∧ u.cmp.config = s.cmp.config)

/-! ### Tile states, loading, column shift (R93 to R107, R151 to R154) -/

/-- R79, R101 to R105: the tile commands act on every tile of the set, in states where they are valid. The tiles named are no runtime tiles of a group.
R101, R105: a tile command that is not valid in the state of one tile of its set touches none; a fault halt gives TILE_FAULTED. -/
def Obligations.TileCommands : Prop :=
  (
  ∀ (s : State) (k : Kci) (tiles : List Nat), s.Open k → (∀ t ∈ tiles, t < 1024) → (∀ e ∈ s.cfl.groups, ∀ t ∈ tiles, t ∉ e.2.d.tiles) →
    let others := fun (u : State) => ∀ v, v ∉ tiles → u.tile v = s.tile v
    (∀ clear, tiles ≠ [] → tiles.Nodup → (∀ t ∈ tiles, (s.tile t).state ≠ .off ∧ (s.tile t).state ≠ .unavailable) →
      Yields (.tileReset k tiles clear) s (fun u => (∀ t ∈ tiles, (u.tile t).state = .reset ∧ (u.tile t).clearing = (clear || (s.tile t).joining.isSome) ∧
        (u.tile t).resetAt = s.now + (if (s.tile t).power = .retention then 64 else 0) + (if (u.tile t).clearing then 1088 else 64) ∧ (u.tile t).part = (s.tile t).part ∧ (u.tile t).imem = (s.tile t).imem ∧
        (u.tile t).scratch = (s.tile t).scratch ∧ (u.tile t).queues = [] ∧ (u.tile t).fault = 0) ∧ others u ∧ u.Running k 0x0501 tiles)) ∧
    ((∀ t ∈ tiles, (s.tile t).startable = true) →
      Yields (.tileStart k tiles) s (fun u => (∀ t ∈ tiles, (u.tile t).state = .running ∧ (u.tile t).current = 0 ∧
        (u.tile t).strand 0 = { state := .runnable } ∧ (u.tile t).g = (s.tile t).g) ∧ others u ∧ u.Answered k 0x0502 .ok [])) ∧
    (tiles.Nodup → (∀ t ∈ tiles, (s.tile t).state = .running) →
      Yields (.tileHalt k tiles) s (fun u => (∀ t ∈ tiles, u.tile t = { s.tile t with state := .halted, cmdHalt := true, loops := [], haltLoops := (s.tile t).loops, haltAt := s.now }) ∧
        others u ∧ u.Answered k 0x0503 .ok [])) ∧
    ((∀ t ∈ tiles, (s.tile t).state = .halted ∧ (s.tile t).cmdHalt = true) →
      Yields (.tileResume k tiles) s (fun u => (∀ t ∈ tiles, u.tile t = { s.tile t with state := .running, cmdHalt := false, power := .on, goal := none }) ∧
        others u ∧ u.Answered k 0x0504 .ok [])) ∧
    Yields (.tileStatus k tiles) s (fun u => u.Follows s ∧ u.Answered k 0x0505 .ok (tiles.map (fun t => (s.tile t).statusWord)))) ∧ (
  ∀ (s : State) (k : Kci) (tiles : List Nat) (t : Nat), s.Open k → (∀ t ∈ tiles, t < 1024) → t ∈ tiles →
    let turned := fun (i : Instr) (op : Nat) (st : Status) => Yields i s (fun u => u.Follows s ∧ u.cmp.config = s.cmp.config ∧ u.Answered k op st [])
    (∀ clear, (s.tile t).state = .unavailable → turned (.tileReset k tiles clear) 0x0501 .tileState) ∧
    ((s.tile t).state ≠ .ready → turned (.tileStart k tiles) 0x0502 .tileState) ∧
    ((s.tile t).state ≠ .running → turned (.tileHalt k tiles) 0x0503 .tileState) ∧
    (tiles = [t] → (s.tile t).state = .halted → (s.tile t).cmdHalt = false → turned (.tileResume k tiles) 0x0504 .tileFaulted) ∧
    (tiles = [t] → (s.tile t).state ≠ .halted → turned (.tileResume k tiles) 0x0504 .tileState))

/-- R103 to R107, R67: writes to GRT_TILE_CTRL whose acting bit is RESET, HALT, RESUME or START; the end of a reset; the reseeding of the conversion lanes. -/
def Obligations.TileRegisterWrites : Prop :=
  ∀ (s : State) (t : Nat) (value : Word), (∀ e ∈ s.cfl.groups, t ∉ e.2.d.tiles) →
    let x := s.tile t
    let b := fun (i : Nat) => value.toNat.testBit i
    let others := fun (u : State) => ∀ v, v ≠ t → u.tile v = s.tile v
    (b 0 = true → x.state ≠ .off → x.state ≠ .unavailable → Yields (.tileCtrlReset t value) s (fun u => (u.tile t).state = .reset ∧
      (u.tile t).resetAt = s.now + (if x.power = .retention then 64 else 0) + (if (u.tile t).clearing then 1088 else 64) ∧
      (u.tile t).clearing = (b 1 || x.joining.isSome) ∧ others u)) ∧
    (b 0 = false → b 2 = true → x.state = .running → Yields (.tileCtrlHalt t value) s (fun u =>
      u.tile t = { x with state := .halted, cmdHalt := true, loops := [], haltLoops := x.loops, haltAt := s.now } ∧ others u)) ∧
    (b 0 = false → b 2 = false → b 3 = true → x.state = .halted → x.cmdHalt = true → Yields (.tileCtrlResume t value) s (fun u =>
      u.tile t = { x with state := .running, cmdHalt := false, power := .on, goal := none } ∧ others u)) ∧
    (b 0 = false → b 2 = false → b 3 = false → b 4 = true → x.startable = true → Yields (.tileCtrlStart t value) s (fun u =>
      (u.tile t).state = .running ∧ (u.tile t).strand 0 = { state := .runnable } ∧ (u.tile t).current = 0 ∧ (u.tile t).g = x.g ∧ others u)) ∧
    (∀ cc, x.state = .reset → x.resetAt ≤ cc → s.now ≤ cc → Yields (.tileResetDone t cc) s (fun u => (u.tile t).state = .ready ∧ (u.tile t).bank = x.bank ∧
      (u.tile t).cycle0 = cc ∧ (u.tile t).scratch = (if x.clearing then [] else x.scratch) ∧
      (u.tile t).part = (if x.joining.isSome then x.joining else x.part) ∧ others u)) ∧
    Yields (.srReseed t value) s (fun u => u.tile t = { x with sr := { seed := value.toNat }, srWrote := true } ∧ OnlyTile s u t)

/-- R99, R151 to R154: loading, swapping and reading instruction banks, writing and reading scratchpads, reading a coefficient table, and the column shift of a die
without partitions. -/
def Obligations.TileMemoryCommands : Prop :=
  ∀ (s : State) (k : Kci) (tiles : List Nat) (t addr len offset bank dest a : Nat), s.Open k → t < 1024 → (∀ t ∈ tiles, t < 1024) →
    let f := k.src.fnIdx
    let others := fun (u : State) => ∀ v, v ∉ tiles → u.tile v = s.tile v
    (bank < 2 → offset + len ≤ 65536 →
      (len % 8 = 0 → tiles ≠ [] → (∀ t ∈ tiles, (s.tile t).loadBad bank = none) → Yields (.imemLoad k tiles bank (.host a) offset len) s (fun u =>
        (∀ t ∈ tiles, (u.tile t).imemBytes bank offset len = s.hostRead f a len ∧ (u.tile t).loading = some bank ∧
          (∀ i, i < 8192 * bank + offset / 8 ∨ 8192 * bank + ceilDiv (offset + len) 8 ≤ i → (u.tile t).imem.lookD i 0 = (s.tile t).imem.lookD i 0) ∧
          (offset % 8 = 0 → ∀ i, i < len / 8 → (u.tile t).imem.lookD (8192 * bank + offset / 8 + i) 0 = (s.hostMem f).word (a + 8 * i))) ∧ others u ∧
          (∀ t, (u.tile t).scratch = (s.tile t).scratch) ∧ u.Running k 0x0508 tiles)) ∧
      Yields (.imemRead k t bank dest offset len) s (fun u => u.hostMem f = (s.hostMem f).writeN dest ((s.tile t).imemBytes bank offset len) ∧
        (offset % 8 = 0 → len % 8 = 0 → (s.tile t).imemBytes bank offset len = wordBytes ((List.range (len / 8)).map
          (fun i => (s.tile t).imem.lookD (8192 * bank + offset / 8 + i) 0))) ∧ u.grid = s.grid ∧ u.Answered k 0x050A .ok [])) ∧
    (tiles.Nodup → (∀ t ∈ tiles, (s.tile t).state = .running ∨ (s.tile t).state = .halted) → Yields (.imemSwap k tiles true none) s (fun u =>
      (∀ t ∈ tiles, u.tile t = { s.tile t with armed := true, table := none }) ∧ others u ∧ u.Answered k 0x0509 .ok [])) ∧
    (tiles.Nodup → (∀ t ∈ tiles, (s.tile t).state = .ready) → Yields (.imemSwap k tiles true none) s (fun u =>
      (∀ t ∈ tiles, (u.tile t).bank = 1 - (s.tile t).bank ∧ (u.tile t).armed = false) ∧ others u ∧ u.Answered k 0x0509 .ok [])) ∧
    (addr + len ≤ 0x180000 → (∀ t, (s.tile t).bad = []) →
      ((∀ t ∈ tiles, (s.tile t).scratch.wf = true) → (∀ t ∈ tiles, (s.tile t).state = .ready ∨ (s.tile t).state = .halted) → Yields (.scratchWrite k tiles addr (.host a) len) s (fun u =>
        (∀ t ∈ tiles, ∀ i, u.scratchByte t i = if addr ≤ i ∧ i < addr + len then s.hostByte f (a + (i - addr)) else s.scratchByte t i) ∧ others u ∧
          u.Answered k 0x050B .ok [])) ∧
      ((s.tile t).state = .ready ∨ (s.tile t).state = .halted → Yields (.scratchRead k t addr (.host dest) len) s (fun u =>
        u.hostMem f = (s.hostMem f).writeN dest ((s.tile t).scratch.readN addr len) ∧ (u.tile t).scratch = (s.tile t).scratch ∧
          u.Answered k 0x050C .ok []))) ∧
    (∀ table, table < 4 → Yields (.vtabRead k table dest) s (fun u => u.hostMem f = (s.hostMem f).writeN dest (vtabBytes s.tileImage table) ∧
      u.grid = s.grid ∧ u.Answered k 0x0507 .ok [])) ∧
    (∀ die column, die < 4 → column < 16 ∨ column = 31 → s.partList = [] → (∀ t, (s.tile t).state ≠ .running) →
      SMap.rising none s.grid.shift = true → Yields (.columnShift k die column) s (fun u =>
        u.grid.shift.look die = (if column < 16 then some column else none) ∧ ∀ d, d ≠ die → u.grid.shift.look d = s.grid.shift.look d))

/-! ### Datum mode (R157 to R180) -/

/-- R157, R170, R171, R174, R176: the Datum commands. -/
def Obligations.DatumCommands : Prop :=
  ∀ (s : State) (k : Kci), s.Open k → s.stk.bringup = .none →
    (∀ part on, s.partExists part = true → s.partBusy part = false → Yields (.datumSet k part on) s (fun u =>
      u.dtm.parts.lookD part {} = { s.partMode part with datum := on } ∧ (∀ q, q ≠ part → u.dtm.parts.look q = s.dtm.parts.look q) ∧
      (u.dtm.masks = if on && !(s.partMode part).datum then s.dtm.masks.del part else s.dtm.masks) ∧ u.dtm.drift = s.dtm.drift ∧ u.grid = s.grid ∧
      u.Answered k 0x0210 .ok [])) ∧
    (s.dtm.calib = none → Yields (.datumSyncCal k .standalone) s (fun u => u.dtm = { s.dtm with role := some .standalone, state := .calibrated, phase := 0, spread := 0, pulses := 0, calOk := false } ∧ u.Answered k 0x0211 .ok [])) ∧
    (∀ role, role ≠ .standalone → s.dtm.calib = none → Yields (.datumSyncCal k role) s (fun u => u.dtm.role = some role ∧ u.dtm.calOk = false ∧ u.dtm.pulses = 0 ∧
      (∃ c, u.dtm.calib = some c ∧ c.role = role ∧ c.phases = [] ∧ c.toEmit = (if role = .leader then 256 else 0)) ∧ u.Running k 0x0211 [0])) ∧
    (s.dtm.role = some .standalone ∨ (s.dtm.role ≠ none ∧ s.dtm.calOk = true) → s.datumBusy = false → s.dtm.start = none →
      Yields (.datumStart k) s (fun u => u.dtm.state = (if s.dtm.state = .syncLost then .syncLost else .armed) ∧ u.dtm.valid = s.dtm.valid ∧ u.dtm.epoch = s.dtm.epoch ∧ u.dtm.start ≠ none ∧
        u.Running k 0x0212 [0])) ∧
    (∀ part v, s.partExists part = true → s.dtm.valid = true → s.timebase + 64 ≤ v → Yields (.datumStartAt k part v) s (fun u =>
      u.dtm = { s.dtm with startAt := s.dtm.startAt ++ [(part, v)] } ∧ u.grid = s.grid ∧ u.Running k 0x0213 [startKey part v])) ∧
    Yields (.driftSnapshot k) s (fun u => u.dtm = s.dtm ∧ u.grid = s.grid ∧ u.Answered k 0x0214 .ok (s.dtm.drift.map wd ++ leWords 16 s.maskBytes))

/-- R170, R171, R173, R174: pulses on SYNC_IN and SYNC_OUT, the timeouts, the zero of the timebase, and the start of a partition at its cycle. -/
def Obligations.DatumEvents : Prop :=
  ∀ (s : State) (cc : Nat), s.now ≤ cc →
    let tb := (s.at cc).timebase
    (∀ c, s.dtm.calib = some c →
      (c.role = .leader → 0 < c.toEmit → c.nextAt ≤ cc → tb % 12 = 0 → Yields (.calPulseEmit cc) s (fun u =>
        u.dtm.calib = some { c with toEmit := c.toEmit - 1, nextAt := cc + 4104 } ∧ u.out = s.out ++ [.sync cc])) ∧
      (c.since + 1875000 ≤ cc → c.phases.length < 256 → Yields (.syncCalTimeout cc) s (fun u => u.dtm.calib = none ∧ u.dtm.calOk = false ∧
        u.dtm.state = s.dtm.state ∧ u.dtm.pulses = c.phases.length)) ∧
      (s.dtm.role = some .leader ∨ s.dtm.role = some .follower → c.phases.length < 255 → Yields (.syncPulse cc) s (fun u =>
        u.dtm.calib = some { c with phases := c.phases ++ [tb % 12] } ∧ u.dtm.pulses = c.phases.length + 1))) ∧
    (∀ a, s.dtm.start = some a →
      (∀ e, a.emitAt = some e → s.dtm.role = some .leader → e ≤ cc → tb % 12 = 0 → Yields (.startPulseEmit cc) s (fun u => u.dtm.start = some { a with emitAt := none } ∧
        u.out = s.out ++ [.sync cc])) ∧
      (s.dtm.role = some .leader ∨ s.dtm.role = some .follower → s.dtm.calib = none → a.emitAt = none → a.zeroAt = none → Yields (.syncPulse cc) s (fun u =>
        u.dtm.start = some { a with zeroAt := some (s.dtm.tbZero + (edgeOf tb s.dtm.phase + 1200).toNat) })) ∧
      (∀ z, a.zeroAt = some z → z ≤ cc → s.anyDatum = false → Yields (.timebaseZero cc) s (fun u => u.dtm.tbZero = z ∧ u.dtm.valid = true ∧
        u.dtm.epoch = (s.dtm.epoch + 1) % 65536 ∧ u.dtm.state = .running ∧ u.dtm.start = none ∧ u.dtm.startAt = [] ∧ u.timebase = (cc - z) % 2 ^ 64)) ∧
      (a.zeroAt = none → a.since + 3750000 ≤ cc → Yields (.datumStartTimeout cc) s (fun u => u.dtm = { s.dtm with start := none, state := a.prior }))) ∧
    (s.dtm.role = some .leader → s.dtm.valid = true → tb % 1048572 = 0 → s.dtm.lastEmit ≠ cc → Yields (.checkPulseEmit cc) s (fun u =>
      u.dtm = { s.dtm with lastEmit := cc } ∧ u.out = s.out ++ [.sync cc])) ∧
    (s.dtm.role = some .leader ∨ s.dtm.role = some .follower → s.dtm.valid = true → s.dtm.missed = false → s.dtm.lastSeen + 2097152 ≤ cc →
      Yields (.checkPulseMissing cc) s (fun u => u.dtm.state = .syncLost ∧ u.dtm.missed = true ∧ u.dtm.tbZero = s.dtm.tbZero ∧ u.grid = s.grid)) ∧
    (∀ p v, s.dtm.startAt = [(p, v)] → v ≤ tb → SMap.rising none s.grid.tiles = true → Yields (.datumStartAtFire cc) s (fun u => u.dtm.startAt = [] ∧
      (∀ t, (s.tile t).part = some p → (s.tile t).startable = true → (u.tile t).state = .running ∧ (u.tile t).strand 0 = { state := .runnable }) ∧
      (∀ t, (s.tile t).part ≠ some p → u.tile t = s.tile t)))

/-! ### Confluence (R213 to R256) -/

/-- R213 to R217, R222, R254, R255: defining, opening, closing, deleting and reading a group, and the digest of a descriptor. -/
def Obligations.ConfluenceGroups : Prop :=
  ∀ (s : State) (k : Kci), s.Open k → ∀ (d : GroupDef) (gid : Nat) (g : CflGroup) (desc : List Word),
    (s.partExists d.part = true → d.id < 65536 → d.cls < 8 → d.progTimeoutLog2 = 0 ∨ 20 ≤ d.progTimeoutLog2 → d.progTimeoutLog2 ≤ 40 → d.tiles ≠ [] → d.tiles.length ≤ 16 →
      (∀ t ∈ d.tiles, t < 1024 ∧ (s.tile t).state ≠ .unavailable ∧ (s.tile t).part = some d.part ∧ t / 256 = nth d.tiles 0 0 / 256) →
      d.hosted.map (·.1) = s.hostedRanks d.members → ascending d.members = true → d.members ≠ [] → d.members.length ≤ 65536 →
      (∀ m ∈ d.members, m < 2 ^ 48) → d.reserve % 4096 = 0 → 65536 * d.hosted.length ≤ d.reserve → d.reserve ≤ 1048576 →
      s.cflGroup d.id = none → s.cfl.groups.length < 4096 →
      Yields (.cflGroupDefine k d) s (fun u => u.Follows (s.setGroup d.id
        { d := { d with progTimeoutLog2 := if d.progTimeoutLog2 = 0 then 28 else d.progTimeoutLog2 }, md := memberDigest d.members, phase := .defined, next := [] }) ∧
        u.Answered k 0x0601 .ok [memberDigest d.members])) ∧
    (s.cflGroup gid = some g → g.d.id = gid →
      (∀ v, g.isOpen = false → s.cflOpen + s.cflShared < 1024 → (s.pool g.die poolCollation).level < 3 →
        (s.enter k 0x0602).platReserve g.die poolCollation gid (g.d.reserve / 4096) = some v →
        Yields (.cflGroupOpen k gid) s (fun u =>
          u.Follows ((v.setGroup gid { g with phase := .open_, next := g.d.hosted.map (fun e => (e.1, 0)) }).cflGrantAll
            { g with phase := .open_, next := g.d.hosted.map (fun e => (e.1, 0)) }))) ∧
      ((∀ r ∈ s.cfl.runs, r.group ≠ gid) → g.isOpen = true → Yields (.cflGroupClose k gid) s (fun u => u.cflGroup gid = some { g with phase := .defined, next := [] } ∧
        (∀ h, h ≠ gid → u.cflGroup h = s.cflGroup h) ∧ u.cfl.runs = s.cfl.runs)) ∧
      ((∀ r ∈ s.cfl.runs, r.group ≠ gid) → g.isOpen = false → SMap.rising none s.cfl.groups = true → Yields (.cflGroupDelete k gid) s (fun u => u.cflGroup gid = none ∧
        (∀ h, h ≠ gid → u.cflGroup h = s.cflGroup h) ∧ u.Answered k 0x0604 .ok [])) ∧
      Yields (.cflGroupQuery k gid) s (fun u => u.Follows s ∧ u.Answered k 0x0607 .ok ([wd g.phase.code] ++
        g.d.hosted.map (fun e => wd (e.1 % 65536 + g.nextSeq e.1 % 2 ^ 32 * 2 ^ 32)) ++
        [wd (max (if g.isOpen then 1 else 0) (s.cflSeqs gid).length), wd ((s.pool g.die poolCollation).usedOf gid)])) ∧
      ((cflDesc desc).check (padTo 16 0 desc) g.n = .ok → Yields (.cflDigest k gid desc) s (fun u => u.Follows s ∧
        u.Answered k 0x0608 .ok [cflDigest g.md desc])))

/-- R218 to R222, R252, R254, R308: a collective is submitted by a command, a tile or an accelerator: it waits at its rank without a sequence
number; it takes its number when it starts; an abort ends what it names. -/
def Obligations.ConfluenceSubmissions : Prop :=
  ∀ (s : State) (g : CflGroup) (rank : Nat) (desc : List Word),
    let d := cflDesc desc
    s.cflGroup d.group = some g → g.d.id = d.group → g.phase ≠ .failed → d.check (padTo 16 0 desc) g.n = .ok →
    let waits := fun (u : State) (via : CflVia) => ∃ r : CflRun, u.cfl.runs = s.cfl.runs ++ [r] ∧ r.group = d.group ∧ r.rank = rank ∧
      r.words = padTo 16 0 desc ∧ r.seq = none ∧ r.via = via ∧ r.digest = cflDigest g.md desc ∧ r.id = s.cfl.nextRun
    (∀ k, s.Open k → k.acts = none ∨ k.acts = some g.d.part → g.hostOrDevice rank = true → Yields (.cflSubmit k rank desc) s (fun u => waits u .kci ∧
      u.cfl.groups = s.cfl.groups ∧ u.grid = s.grid ∧ u.Running k 0x0605 [s.cfl.nextRun])) ∧
    (∀ t m rest, takeFirst (fun (m : MeshMsg) => !m.srcGw && m.destGw && m.dest = 3 && coord m.src = t) s.grid.mesh = some (m, rest) →
      m.len = 2 → bits (nth m.header 1 0) 63 22 = 0 → bits (nth m.header 1 0) 15 0 = rank → (∀ i, i < 6 → nth m.header (2 + i) 0 = 0) →
      leWords 16 m.payload = desc → g.d.part = m.part → g.kind rank = some .device → Yields (.cflTileSubmit t) s (fun u =>
        waits u (.tile t (bits (nth m.header 1 0) 21 16) m.tag) ∧ u.grid.mesh = rest ∧ u.grid.tiles = s.grid.tiles)) ∧
    (∀ l p ps, (s.sub l).ingress = p :: ps → (s.sub l).cfg.mode = .endpoint → p.ulp = ulpColl → leWords 16 p.payload = desc →
      g.d.hosted.find? (fun e => e.2 = .accel l) = some (rank, .accel l) → (s.sub l).cfg.part = some g.d.part →
      Yields (.collSubmitPacket l) s (fun u => u = (s.ingressPop l).cflSubmit g rank desc (.accel l p.reqId))) ∧
    (∀ r, s.cflHeadOf d.group rank = some r → s.cflAccepts g = true → s.cflContext g r = true →
      Yields (.collectiveStart d.group rank) s (fun u => u = s.cflBegin g r)) ∧
    (∀ k, s.Open k → Yields (.cflAbort k (.all d.group)) s (fun u => u.Follows ((s.enter k 0x0606).cflEndAll (fun r => r.group = d.group))) ∧
      (∀ tag, Yields (.cflAbort k (.job tag)) s (fun u => u.Follows ((s.enter k 0x0606).cflAbortJob tag none))) ∧
      (∀ q, s.cfl.runs.any (fun r => r.group = d.group && r.seq = some q) = true → Yields (.cflAbort k (.one d.group q)) s (fun u =>
        u.Follows ((s.enter k 0x0606).cflEndOne (d.group, q) .aborted))) ∧
      (∀ q, (∀ r ∈ s.cfl.runs, r.group ≠ d.group) → g.isOpen = false → Yields (.cflAbort k (.one d.group q)) s (fun u =>
        u.Follows s ∧ u.Answered k 0x0606 .ok [])))

/-- R228 to R231, R248 to R251: what reaches a die's runtime for an open group goes to the node of the rank it is addressed to. What comes for a collective
that has not started there is kept; what comes for one that is over is discarded; a block, digest, confirmation or scalar of a started one is taken in. Credits
add to their stream; an ABORT of a live collective ends it. A leaf of a tree sends its own block up; a collective without progress ends with TIMEOUT. -/
def Obligations.ConfluencePackets : Prop :=
  ∀ (s : State) (die rank n x : Nat) (p : Packet) (g : CflGroup) (rest : List (Nat × LocalTarget × Packet)),
    s.cflGroup p.cflGroup = some g → g.d.id = p.cflGroup → g.d.members.idxOf? p.dest = some rank → g.isOpen = true → g.hosts rank = true →
    s.fab.inbox = (n, .cfl die x, p) :: rest →
    let v := s.setFab { s.fab with inbox := rest }
    let kept := fun (i : Instr) => s.started g.d.id rank p.cflSeq = none → seqBefore p.cflSeq (g.nextSeq rank) = false → Yields i s (fun u =>
      (∃ b, u.cfl.early = s.cfl.early ++ [(rank, p, b)]) ∧ u.cfl.runs = s.cfl.runs ∧ u.cfl.groups = s.cfl.groups ∧ u.fab = v.fab)
    let control := fun (i : Instr) => kept i ∧
      (s.started g.d.id rank p.cflSeq = none → seqBefore p.cflSeq (g.nextSeq rank) = true → Yields i s (fun u => u = v)) ∧
      (∀ r, s.started g.d.id rank p.cflSeq = some r → Yields i s (fun u => u = (v.cflTake g r p none).cflStep r.id))
    (p.isData = true → kept (.cflBlockReceive die) ∧ (∀ r, s.started g.d.id rank p.cflSeq = some r →
      Yields (.cflBlockReceive die) s (fun u => u = v.cflArrive g rank p State.cflAfter))) ∧
    (p.isData = false → p.cflKind = 5 → control (.digestUpReceive die)) ∧
    (p.isData = false → p.cflKind = 6 → control (.confirmReceive die)) ∧
    (p.isData = false → p.cflKind = 9 ∨ p.cflKind = 10 ∨ p.cflKind = 2 ∨ p.cflKind = 3 → control (.scalarReceive die)) ∧
    (p.isData = false → p.cflKind = 8 → Yields (.cflCreditReceive die) s (fun u => u = v.cflCreditTake g rank p) ∧
      (s.cfl.outs = [] → (∀ r ∈ s.cfl.runs, r.group = g.d.id → r.rank = rank → r.seq = none) → Yields (.cflCreditReceive die) s (fun u =>
        let k := cflStream g.d.id rank p.cflSrc p.cflTree (parentRank p.cflTree rank g.n ≠ some p.cflSrc)
        u.cflCredit k = s.cflCredit k + p.cflCredits ∧ u.cfl.runs = s.cfl.runs ∧ u.fab = v.fab))) ∧
    (p.isData = false → p.cflKind = 7 →
      (s.cfl.runs.any (fun r => r.group = g.d.id && r.seq = some p.cflSeq) = true → Yields (.cflAbortReceive die) s (fun u =>
        u = v.cflAbort g p.cflSeq ((Status.ofCode p.cflStatus).getD .aborted) (if (p.word 4).getLsbD 16 then some ((p.word 4).toNat % 65536) else none)
          (some p.cflSrc) false)) ∧
      ((∀ r ∈ s.cfl.runs, r.group = g.d.id → r.seq ≠ some p.cflSeq) → (∀ e ∈ g.d.hosted, seqBefore p.cflSeq (g.nextSeq e.1) = true) →
        Yields (.cflAbortReceive die) s (fun u => u = v))) ∧
    (∀ seq tree seg block r up, s.started g.d.id rank seq = some r → s.cflRun r.id = some r → r.group = g.d.id →
      let d := r.d
      d.ctl = false → d.moves = false → d.selects = false → d.anchor = false → r.ins = [] → r.ready = true → (tree, false) ∈ d.lanes g.n r.rank →
      r.at_ tree false = (seg, block) → seg < d.segs → seg < r.base g.n + 4 → childRanks tree r.rank g.n = [] → parentRank tree r.rank g.n = some up →
      Yields (.cflCombine g.d.id rank seq tree seg block false) s (fun u =>
        let items := d.items tree seg
        let ends := fun (i : Nat) => (((items.take i).map d.itemBits).foldl (· + ·) 0)
        let part := items.take (((List.range items.length).filter (fun i => ends i < 32768 * (block + 1))).length)
        let own := blockSlice block (packWords (part.map (fun i => (d.itemBits i, r.own tree seg i))))
        let r' := { r with pos := r.pos.put (posKey d tree false) (seg, block + 1) }
        u = (((s.setRun r').cflBlock g r' up 0 tree seg block r.rank own none).cflDrainAll g r.rank).cflStep r.id)) ∧
    (∀ gid seq cc h r, s.cflGroup gid = some h → s.cfl.runs.find? (fun r => r.group = gid && r.seq = some seq && r.last + 2 ^ h.d.progTimeoutLog2 ≤ max s.now cc) = some r →
      Yields (.cflProgTimeout gid seq cc) s (fun u => u = (s.at cc).cflAbort h seq .timeout (some r.rank) none true))

/-! ### Gazetteer and sparse (R258 to R291) -/

/-- R258, R263, R288, R279: tables are defined, deleted and read; a lookup command enters its unit; a legend is checked. -/
def Obligations.GazetteerCommands : Prop :=
  ∀ (s : State) (k : Kci), s.Open k → ∀ (d : TableDef) (x : GazTable) (table : Nat),
    (s.partExists d.part = true → s.tableBad d = false → Yields (.gazTableDefine k d) s (fun u =>
      u.Follows ((s.pinOn d.pinDie d.pinOff (d.pinRows * d.rowBytes)).setGaz { s.gaz with tables := s.gaz.tables.put d.id { d := d } }) ∧ u.Answered k 0x0701 .ok [])) ∧
    (s.gazTable table = some x → x.deleting = false →
      ((∀ q ∈ s.gaz.reqs, ∀ b ∈ q.bags, b.1 ≠ table) → Yields (.gazTableDelete k table) s (fun u =>
        u.Follows (s.setGaz { s.gaz with tables := s.gaz.tables.del table }) ∧ u.Answered k 0x0702 .ok [])) ∧
      ((∃ q ∈ s.gaz.reqs, ∃ b ∈ q.bags, b.1 = table) → Yields (.gazTableDelete k table) s (fun u => u.gazTable table = some { x with deleting := true } ∧
        u.Running k 0x0702 [table])) ∧
      Yields (.gazTableQuery k table) s (fun u => u.Follows s ∧ ∃ n, u.Answered k 0x0703 .ok ([x.d.id, x.d.part, x.d.fmt, x.d.block, x.d.d, x.d.rowBytes,
        x.d.pinRows, x.d.pinDie, x.d.pinOff, x.d.stkRows, x.d.stkBase, x.d.farRows, x.d.farPort, x.d.farBase, n].map wd))) ∧
    (∀ die body len reply, die < 4 → len ≤ 64 →
      let head := nth (leWords 1 (s.hostRead k.src.fnIdx body 8)) 0 0
      let payload := s.hostRead k.src.fnIdx (body + 8) (64 * len)
      (1024 ≤ s.gazInFlight die ∨ (∃ q ∈ s.gaz.held, q.die = die) → Yields (.gazLookup k die body len reply) s (fun u =>
        u.gaz.held = s.gaz.held ++ [{ gazMake s.gaz.next die (.host k.src.fnIdx reply) (k.acts.getD 64) head payload with len := len, body := payload }] ∧
        u.gaz.next = s.gaz.next + 1 ∧ u.gaz.reqs = s.gaz.reqs ∧ u.Running k 0x0704 [s.gaz.next])) ∧
      (s.gazInFlight die < 1024 → (∀ q ∈ s.gaz.held, q.die ≠ die) → s.gazBad (k.acts.getD 64) len [head] payload = false → Yields (.gazLookup k die body len reply) s (fun u =>
        u.gaz.held = s.gaz.held ∧ u.gaz.next = s.gaz.next + 1 ∧ u.Running k 0x0704 [s.gaz.next] ∧ ∃ q : GazReq, u.gaz.reqs = s.gaz.reqs ++ [q] ∧
          q.id = s.gaz.next ∧ q.die = die ∧ q.src = .host k.src.fnIdx reply ∧ q.head = head ∧ q.bags = bagTable (head.toNat % 256) payload))) ∧
    (∀ p base rb cb th, k.acts = some p → s.partExists p = true → 1 ≤ rb → rb ≤ 64 → 1 ≤ cb → cb ≤ 64 → base % 16 = 0 → th < 32768 →
      Yields (.gazLegendCheck k base rb cb th) s (fun u => u = kciEnd 0x0705 k false false 1 ((s.enter k 0x0705).legendCheck p base rb cb th)))

/-- R264 to R273, R289, R290: a unit takes a tile's lookup request, its rows complete, and the whole request is pooled and answered once; a malformed request is
answered GAZ_INVALID; the host writes the sparse controls of a tile. -/
def Obligations.GazetteerRequests : Prop :=
  ∀ (s : State) (die : Nat),
    (∀ m rest, takeFirst (fun (m : MeshMsg) => !m.srcGw && m.destGw && m.dest = 2 && coord m.src / 256 = die) s.grid.mesh = some (m, rest) →
      (s.gazBad m.part m.len (m.header.drop 1) m.payload = true → s.gaz.counts.length = 5 → s.gazInFlight die < 1024 → Yields (.gazRequest die) s (fun u => ∃ reply : MeshMsg,
        u.grid.mesh = rest ++ [reply] ∧ reply.srcGw = true ∧ reply.src = 2 ∧ reply.dest = m.src ∧ reply.tag = m.tag ∧ reply.len = 0 ∧
        bits (nth reply.header 1 0) 7 0 = Status.gazInvalid.code ∧ u.gaz.reqs = s.gaz.reqs ∧ nth u.gaz.counts 3 0 = satInc (nth s.gaz.counts 3 0))) ∧
      (s.gazBad m.part m.len (m.header.drop 1) m.payload = false → s.gazInFlight die < 1024 → Yields (.gazRequest die) s (fun u =>
        u.grid.mesh = rest ∧ u.gaz.next = s.gaz.next + 1 ∧ ∃ r : GazReq, u.gaz.reqs = s.gaz.reqs ++ [r] ∧ r.id = s.gaz.next ∧ r.die = die ∧ r.part = m.part ∧
          r.head = nth m.header 1 0 ∧ r.bags = bagTable (bits (nth m.header 1 0) 7 0) m.payload))) ∧
    (∀ id row r x q, s.gazReq die id = some r → r.rows[row]? = some x → x.status = none → (∀ run, r.src ≠ .cfl run) →
      s.stk.reqs.filter (fun q => match q.user with
        | .gaz d i k _ => d = r.die && i = r.id && k = row
        | _ => false) = [q] → q.user = .gaz r.die r.id row 0 → q.stage = .complete .ok →
      Yields (.gazRowComplete die id row) s (fun u => u = (s.dropReq q.id).setGazReq
        { r with rows := r.rows.set row { x with status := some .ok, data := padTo q.len 0 q.data }, last := s.now })) ∧
    (∀ id row r x st data a v, s.gazReq die id = some r → r.rows[row]? = some x → x.status = none → s.gazRowDone r row = some (st, data, a, v) →
      st = .ok → (∀ run, r.src ≠ .cfl run) → Yields (.gazRowComplete die id row) s (fun u =>
        u = v.setGazReq { r with rows := r.rows.set row { x with status := some .ok, data := data }, last := v.now })) ∧
    (∀ id r, s.gazReq die id = some r → r.whole = true → (∀ run, r.src ≠ .cfl run) → s.partDatum r.part = false ∨ r.last + 24 ≤ s.now →
      Yields (.gazReply die id) s (fun u =>
      let out := gazEncode r.head ((List.range r.bags.length).flatMap (s.bagOut r))
      u = ((s.countGaz gazSats out.2).gazSend r.src r.part id r.replyUser out.1).gazEnd r)) ∧
    (∀ t value,
      Yields (.gazSparseCtrlWrite t value) s (fun u => u.tile t = { s.tile t with sparseCtrl := wd (value.toNat % 2 ^ 15 + (if value.toNat.testBit 16 then 2 ^ 16 else 0)) } ∧ ∀ v, v ≠ t → u.tile v = s.tile v) ∧
      Yields (.gazPredThreshWrite t value) s (fun u => u.tile t = { s.tile t with predThresh := wd (value.toNat % 2 ^ 32) } ∧ ∀ v, v ≠ t → u.tile v = s.tile v))

/-! ### Bearing (R292 to R328) -/

/-- R293, R304, R311, R314, R317, R322, R325, R327: the port commands, on a port whose sub-ports are all DISABLED for PORT_CONFIG and on a sub-port that trains for
PORT_LINK. -/
def Obligations.PortCommands : Prop :=
  ∀ (s : State) (k : Kci), s.Open k → ∀ (port width rate l : Nat) (subs : List SubConfig),
    (port < 128 → width = 8 ∨ width = 4 ∨ width = 2 ∨ width = 1 → rate < 3 → subs.length = 8 / width → (∀ c ∈ subs, subBad c = false) → limitSum subs ≤ 2048 →
      (∀ c ∈ subs, ∀ p, c.part = some p → s.partExists p = true) → (∀ i, i < 8 → (s.sub (8 * port + i)).state = .disabled) →
      (∀ c ∈ subs, c.unpausable = true → s.systemLocal (port / 32) c.ringBase c.ringSize = true) →
      s.groupOthers port + (subs.filter (fun c => c.mode ≠ .disabled)).length ≤ 16 →
      Yields (.portConfig k port width rate subs) s (fun u => (u.port port).width = width ∧ (u.port port).rate = rate ∧
        (∀ i c, subs[i]? = some c → (u.sub (8 * port + width * i)).cfg = c ∧ (u.sub (8 * port + width * i)).state = .disabled) ∧
        (∀ m, m / 8 ≠ port → u.sub m = s.sub m) ∧ u.Answered k 0x0301 .ok [])) ∧
    (s.subExists l = true → (s.sub l).cfg.mode ≠ .disabled → (s.sub l).state = .disabled → s.heldDown l = false → s.crt.lc ≠ .returned → s.crt.lc ≠ .decommissioned →
      Yields (.portLink k l .up) s (fun u => (u.sub l).state = .training ∧ (u.sub l).attempts = 0 ∧ (∀ m, m ≠ l → u.sub m = s.sub m) ∧ u.Running k 0x0302 [l])) ∧
    (s.subExists l = true → (s.sub l).cfg.mode ≠ .disabled → (s.sub l).state = .training →
      Yields (.portLink k l .down) s (fun u => (u.sub l).state = .down ∧ (u.sub l).cause = 7 ∧ (∀ m, m ≠ l → u.sub m = s.sub m) ∧ u.Answered k 0x0302 .ok [])) ∧
    (s.subExists l = true → Yields (.portStatus k l) s (fun u => u.Follows s ∧ u.Answered k 0x0303 .ok (s.portStatusWords l)) ∧
      ∀ id, (s.sub l).partner = some id → Yields (.portPartner k l) s (fun u => u.Follows s ∧ u.Answered k 0x0304 .ok (leWords 8 id.bytes))) ∧
    (∀ bank page offset len bs, port < 128 → 1 ≤ len → len ≤ 128 → offset + len ≤ 256 → (s.port port).cmis.present = true → (s.port port).cmis.ack = true →
      (s.port port).cmis.page bank page = some bs → Yields (.portCmisRead k port bank page offset len) s (fun u => u.Follows s ∧
        u.Answered k 0x0305 .ok (leWords (ceilDiv len 8) (padTo (8 * ceilDiv len 8) 0 ((bs.drop offset).take len))))) ∧
    (∀ die index entry, die < 4 → index < 256 →
      (bit (nth entry 0 0) 32 = true → steerFields entry = true) → s.steerInside die { words := entry } = true →
      Yields (.portSteerSet k die index entry) s (fun u => u.Follows (s.setFab { s.fab with steer := s.fab.steer.put (256 * die + index) { words := entry } }) ∧
        u.Answered k 0x0306 .ok [])) ∧
    (∀ die index x, die < 4 → index < 256 → s.fab.steer.look (256 * die + index) = some x →
      Yields (.portSteerRead k die index) s (fun u => u.Follows s ∧ u.Answered k 0x0307 .ok (x.words ++ [wd x.seq]))) ∧
    (∀ conv profile, port < 128 → 1 ≤ conv → conv < 8 → profileOk profile = true → Yields (.portConvSet k port conv profile) s (fun u =>
      (u.port port).profiles.look conv = some profile ∧ (∀ c, c ≠ conv → (u.port port).profiles.look c = (s.port port).profiles.look c) ∧
      u.fab.subs = s.fab.subs ∧ u.Answered k 0x0308 .ok [])) ∧
    (∀ value, port < 128 → Yields (.brgSrReseed port value) s (fun u => (u.port port).seed = value.toNat ∧ (u.port port).lanes = { seed := value.toNat } ∧
      u.fab.subs = s.fab.subs ∧ u.grid = s.grid))

/-- R303 to R307: training, its time limit, the hold-off in DOWN, identities and their time limit, and the loss of alignment or of good units. -/
def Obligations.LinkStates : Prop :=
  ∀ (s : State) (l cc : Nat) (q : LinkUnit) (w : WireUnit), s.now ≤ cc → parseUnit q.bytes = some w → w.kind = 2 →
    let x := s.sub l
    let id := linkIdOf w.body
    let others := fun (u : State) => ∀ m, m ≠ l → u.sub m = s.sub m
    (x.state = .training → x.cfg.mode ≠ .ethernet → Yields (.trainingComplete l cc) s (fun u => (u.sub l).state = .ident ∧ (u.sub l).fecLock = true ∧
      (u.sub l).lanes = 2 ^ (s.port (l / 8)).width - 1 ∧ (u.sub l).idsLeft = 3 ∧ (u.sub l).since = cc ∧ others u)) ∧
    (x.state = .training → x.since + trainLimit (s.port (l / 8)).rate ≤ cc → Yields (.trainingTimeout l cc) s (fun u => (u.sub l).state = .down ∧
      (u.sub l).cause = 3 ∧ (u.sub l).attempts = min 8 (x.attempts + 1) ∧ others u)) ∧
    (x.state = .down → x.attempts < 8 → s.heldDown l = false → x.since + 1875000 ≤ cc → Yields (.downHoldoffExpiry l cc) s (fun u =>
      (u.sub l).state = .training ∧ (u.sub l).attempts = x.attempts ∧ others u)) ∧
    (x.state = .ident → x.cfg.mode ≠ .ethernet → id.version = 1 →
      (miswired x id = false → Yields (.linkIdReceive l q) s (fun u => (u.sub l).partner = some id ∧ (u.sub l).valid = true ∧ (u.sub l).state = .ident ∧ others u)) ∧
      (miswired x id = true → Yields (.linkIdReceive l q) s (fun u => (u.sub l).partner = some id ∧ (u.sub l).state = .miswired ∧ (u.sub l).cause = 5 ∧
        others u ∧ ∃ v : State, u = v.notify .miswired .ok x.cfg.part l id.role (.region (lportRegion l))))) ∧
    (x.state = .ident → x.cfg.mode ≠ .ethernet → id.version ≠ 1 → Yields (.linkIdReceive l q) s (fun u => (u.sub l).state = .down ∧ (u.sub l).cause = 8 ∧ others u)) ∧
    (x.state = .ident → x.lastId = none ∨ (∃ c, x.lastId = some c ∧ c + 1875 ≤ cc) → x.valid = false → Yields (.linkIdSend l cc) s (fun u =>
      (u.sub l).lastId = some cc ∧ (u.sub l).state = .ident ∧ others u)) ∧
    (x.state = .ident → x.valid = false → x.since + 18750000 ≤ cc → Yields (.identTimeout l cc) s (fun u => (u.sub l).state = .down ∧ (u.sub l).cause = 4 ∧ others u)) ∧
    (x.state = .up → Yields (.alignmentLoss l cc) s (fun u => u = (s.at cc).loseLink l 1)) ∧
    (x.state = .up → x.cfg.mode ≠ .ethernet → x.lastGood + 1024 ≤ cc → Yields (.noGoodUnitTimeout l cc) s (fun u => u = (s.at cc).loseLink l 2))

/-- R299 to R302: LINK_CTRL frees what it acknowledges and carries credits; a unit out of order or with a bad CRC is answered with one NAK, one in order takes its
place. R309, R310, R338: the edges of endpoint mode: acknowledgements, resends and retirement of flows, and the packets of the accelerator. -/
def Obligations.LinkUnits : Prop :=
  ∀ (s : State) (l cc : Nat), s.now ≤ cc →
    let x := s.sub l
    (x.state = .up → x.cfg.mode ≠ .ethernet →
      (∀ (q : LinkUnit) (w : WireUnit), parseUnit q.bytes = some w → w.kind = 1 →
        let c := nth (leWords 1 w.body) 0 0
        let ack := (c.extractLsb' 0 12).toNat
        let vc := (c.extractLsb' 16 4).toNat
        let total := (c.extractLsb' 20 16).toNat
        vc < 9 → x.granted.length = 9 → x.totals.length = 9 → Yields (.linkCtrlReceive l q.bytes q.corr q.uncorr) s (fun u => (u.sub l).replay = ackedUpTo ack x.replay ∧
        (u.sub l).resend = (if c.getLsbD 12 then ackedUpTo ack x.replay else ackedUpTo ack x.resend) ∧ (u.sub l).lastGood = s.now ∧ nth (u.sub l).totals vc 0 = total ∧
        nth (u.sub l).granted vc 0 = nth x.granted vc 0 + (total + 65536 - nth x.totals vc 0) % 65536)) ∧
      (∀ q : LinkUnit, parseUnit q.bytes = none → Yields (.sequencedUnitReceive l q) s (fun u => (u.sub l).nakOut = true ∧ (u.sub l).nakDue = true ∧
        (u.sub l).rxNext = x.rxNext ∧ (u.sub l).ingress = x.ingress ∧ (u.sub l).rx = x.rx)) ∧
      (∀ (q : LinkUnit) (w : WireUnit), parseUnit q.bytes = some w → w.kind = 3 ∨ w.kind = 4 ∨ w.kind = 5 →
        let y := ((s.fecIn l q.corr q.uncorr).onSub l (fun x => { x with lastGood := s.now })).onSub l (fun x =>
          { x with rxNext := (x.rxNext + 1) % 4096, nakOut := false, ackDue := true })
        (w.lseq ≠ x.rxNext → Yields (.sequencedUnitReceive l q) s (fun u => (u.sub l).nakOut = true ∧ (x.nakOut = false → (u.sub l).nakDue = true) ∧
          (u.sub l).lastGood = s.now ∧ (u.sub l).rxNext = x.rxNext ∧ (u.sub l).ingress = x.ingress ∧ (u.sub l).rx = x.rx)) ∧
        (w.lseq = x.rxNext →
          (w.kind = 4 → Yields (.sequencedUnitReceive l q) s (fun u => u = y.takeHead l w.packet)) ∧
          (w.kind = 5 → Yields (.sequencedUnitReceive l q) s (fun u => u = y.takeData l w.vc w.body)) ∧
          (x.cfg.mode = .endpoint →
            let took := fun (u : State) => (u.sub l).rxNext = (x.rxNext + 1) % 4096 ∧ (u.sub l).ackDue = true ∧ (u.sub l).nakOut = false
            (w.kind = 3 → Yields (.sequencedUnitReceive l q) s (fun u => took u ∧ (u.sub l).ingress = x.ingress ++ [w.packet])) ∧
            (w.kind = 4 → x.rx = none → w.packet.bytes ≠ 0 → w.packet.bytes ≤ 4096 → w.packet.bytes ≤ 256 * w.packet.flits →
              Yields (.sequencedUnitReceive l q) s (fun u => took u ∧ ∃ d, (u.sub l).rx = some d ∧ d.pkt = w.packet ∧ d.got = 0 ∧
                (if s.heldWhole l w.packet then (u.sub l).ingress = x.ingress ∧ d.load = none ∧ d.keep = true ∧ d.edge = false
                 else (u.sub l).ingress = x.ingress ++ [w.packet] ∧ d.edge = true))) ∧
            (w.kind = 5 → ∀ d, x.rx = some d → d.copy = none → d.got + 1 = d.pkt.flits →
              let bytes := w.body.take (min 256 (d.pkt.bytes - 256 * d.got))
              (d.edge = false → d.load = none → d.keep = true → Yields (.sequencedUnitReceive l q) s (fun u => took u ∧ (u.sub l).rx = none ∧
                (u.sub l).ingress = x.ingress ++ [{ d.pkt with payload := d.pkt.payload ++ bytes }])) ∧
              (∀ ps p, d.edge = true → x.ingress = ps ++ [p] → p.isData = true → Yields (.sequencedUnitReceive l q) s (fun u => took u ∧ (u.sub l).rx = none ∧
                (u.sub l).ingress = ps ++ [{ p with payload := p.payload ++ bytes }]))))))) ∧
    (∀ p ps, x.ingress = p :: ps → x.cfg.mode = .endpoint → x.state ≠ .fenced → p.ulp ≠ ulpColl → Yields (.accelPacketIngress l) s (fun u => u = s.edgeTake l p)) ∧
    (∀ p ps, x.e2eIn = p :: ps → Yields (.e2ePacketReceive l) s (fun u => u = (s.onSub l (fun x => { x with e2eIn := ps })).e2eTake l p)) ∧
    (∀ dest vc f, s.srcFlow l dest vc = some f →
      (f.unacked ≠ [] → f.timer + 2 ^ x.cfg.rtoLog2 ≤ cc → Yields (.e2eRtoExpiry l dest vc cc) s (fun u => u = (s.at cc).flowResend f)) ∧
      (f.pkts = [] → f.last + 65625 ≤ cc → Yields (.sourceFlowRetire l dest vc cc) s (fun u => u.fab.flows = s.fab.flows.filter (fun g => !g.is f.src f.dest f.vc) ∧
        u.fab.subs = s.fab.subs))) ∧
    (∀ die src vc c t, s.roCtx die src vc = some c → c.firstUnack = some t → 0 < c.unack → t + 3750 ≤ cc →
      Yields (.e2eAckTimer die src vc cc) s (fun u => u = (s.at cc).roAck c))

/-- R315 to R324: a frame that an entry of its die steers becomes one message, or is dropped under its cause; PAUSE and PFC hold classes until their time; unpausable
frames move from the ring, enter the mesh in order, and are shed when late; a tile's frame is queued for egress. -/
def Obligations.EthernetFrames : Prop :=
  ∀ (s : State) (l cc : Nat), s.now ≤ cc →
    let x := s.sub l
    (∀ frame bs, x.cfg.mode = .ethernet → x.state = .up → frameBody frame = some bs →
      (macAccepts x.cfg bs = false → Yields (.ethFrameReceive l cc frame) s (fun u =>
        (u.sub l).drops.lookD 2 0 = satInc (x.drops.lookD 2 0) ∧ u.grid = s.grid)) ∧
      (∀ key e rest, macAccepts x.cfg bs = true → bit (e.word 0) 50 = true → bs.length ≤ 4096 → x.cfg.unpausable = false →
        s.fab.steer.keep (fun k e => k / 256 = lportDie l && e.hits (lportPhys l) bs (parseFrame bs)) = (key, e) :: rest →
        Yields (.ethFrameReceive l cc frame) s (fun u =>
          u.grid.mesh = s.grid.mesh ++ [(steerMsg e l false bs (parseFrame bs) (s.at cc).timebase).msg] ∧ u.grid.tiles = s.grid.tiles ∧
          u.fab.steer.look key = some { e with seq := e.seq + 1 })) ∧
      (∀ q, beAt bs 12 2 = 0x8808 → beAt bs 14 2 = 0x0001 → beAt bs 16 2 = q → q ≠ 0 → Yields (.pauseReceive l cc frame) s (fun u =>
        ∀ c, c < 8 → (u.sub l).ctr.paused.look c = some (cc + pauseCc q (s.subRate l))))) ∧
    (∀ frame, x.cfg.mode = .ethernet → x.state = .up → frameBody frame = none → Yields (.ethFrameReceive l cc frame) s (fun u =>
      (u.sub l).drops.lookD dropLength 0 = satInc (x.drops.lookD dropLength 0) ∧ u.grid = s.grid)) ∧
    (∀ cls t, x.ctr.paused.look cls = some t → t ≤ cc → Yields (.pauseTimerExpiry l cls cc) s (fun u => (u.sub l).ctr.paused = x.ctr.paused.del cls)) ∧
    (∀ f fs, x.ring = f :: fs → x.unpRoom f = true → Yields (.spillRingMove l) s (fun u =>
      let size := x.cfg.ringSize
      let pos := (x.ringPut + size - 256 * framesCells x.ring % max 1 size) % max 1 size
      u = ((s.ringMem (lportDie l) x.cfg.ringBase size pos (256 * f.cells) none).onSub l (fun y => { y with ring := fs })).unpQueue l f)) ∧
    (∀ f fs, x.unp = f :: fs → x.popAt ≠ some cc →
      (f.late (s.at cc).timebase = false → Yields (.unpFrameInject l cc) s (fun u => u = ((s.at cc).unpPop l f).toMesh f.msg)) ∧
      (f.late (s.at cc).timebase = true → Yields (.ingressDeadlineShed l cc) s (fun u => u = ((s.at cc).unpPop l f).shedFrame l shedLate f.part) ∧
        Yields (.unpFrameInject l cc) s (fun u => u = ((s.at cc).unpPop l f).shedFrame l shedLate f.part))) ∧
    (∀ t m rest, takeFirst (fun (m : MeshMsg) => !m.srcGw && m.destGw && m.dest = 0 && coord m.src = t) s.grid.mesh = some (m, rest) →
      Yields (.portEgressRequest t) s (fun u => u = ({ s with grid := { s.grid with mesh := rest } } : State).egressTake t m))

/-- R325, R326: a change of presence reads the pages the module advertises and ends a hold; a poll after one second and an interrupt read pages 10h and 11h; silence holds the
port's sub-ports in DOWN. -/
def Obligations.ModuleManagement : Prop :=
  ∀ (s : State) (port cc : Nat) (p10 p11 : List Byte), port < 128 → s.now ≤ cc →
    let c := (s.port port).cmis
    let low := padTo 128 0 ((c.page 0 0).getD [])
    let reads := fun (u : State) => (u.port port).cmis = { c with polled := cc, pages := (c.pages.put 0x10 (low ++ padTo 128 0 p10)).put 0x11 (low ++ padTo 128 0 p11) } ∧
      u.fab.subs = s.fab.subs ∧ ∀ q, q ≠ port → u.port q = s.port q
    (∀ page bank bs, Yields (.cmisPresence port true true [(page, bank, bs)] cc) s (fun u => (u.port port).cmis =
      { present := true, pages := [(256 * bank + page, padTo 256 0 bs)], polled := cc, ack := true, held := false } ∧
      (∀ l ∈ s.enabledSubs port, (u.sub l).held = false) ∧ ∀ q, q ≠ port → u.port q = s.port q)) ∧
    (c.present = true → c.held = false →
      (c.polled + 1875000000 ≤ cc → Yields (.cmisPoll port true p10 p11 cc) s reads) ∧
      Yields (.cmisInterrupt port true p10 p11 cc) s reads ∧
      Yields (.cmisInterrupt port false p10 p11 cc) s (fun u => u = (s.at cc).cmisSilent port))

/-! ### Waypoint, Traverse and Contour (R329 to R380) -/

/-- R329 to R335, R340, R349, R350, R358: the routing commands. -/
def Obligations.RoutingCommands : Prop :=
  ∀ (s : State) (k : Kci), s.Open k → ∀ (a b c : Nat),
    (a < 2 ^ 40 → b ≤ 5 → a / 2 ^ 32 ≠ 0xFF → Yields (.routeSetPrefix k a b) s (fun u =>
      u.Follows (((s.enter k 0x0401).setFab { s.fab with pfx := some (a, b) }).reroute))) ∧
    (∀ members, a < 256 → members ≠ [] → members.length ≤ 64 → (∀ l ∈ members, s.isSwitch l = true) →
      Yields (.routeSetPortset k (.down a) members) s (fun u =>
        u.Follows (((s.enter k 0x0402).setFab { s.fab with sets := s.fab.sets.put a (sortPorts members) }).reroute)) ∧
      Yields (.routeSetPortset k .up members) s (fun u =>
        u.Follows (((s.enter k 0x0402).setFab { s.fab with sets := s.fab.sets.put 256 (sortPorts members) }).reroute))) ∧
    (∀ target, a < 256 → s.localOk target = true → Yields (.routeLocalSet k a target) s (fun u =>
      u.Follows (s.setFab { s.fab with table := s.fab.table.put a target }) ∧ u.Answered k 0x0403 .ok [])) ∧
    (1 ≤ c → a + c ≤ 1024 → s.fab.active < 2 →
      (∀ i, i < c → (aliasOf ((s.hostMem k.src.fnIdx).word (b + 16 * i)) ((s.hostMem k.src.fnIdx).word (b + 16 * i + 8))).isSome = true) →
      aliasClash (((List.range c).foldl (fun (m : SMap AliasEntry) i => m.put (1024 * (1 - s.fab.active) + a + i)
        ((aliasOf ((s.hostMem k.src.fnIdx).word (b + 16 * i)) ((s.hostMem k.src.fnIdx).word (b + 16 * i + 8))).getD ⟨0, 0, false, 0⟩))
        s.fab.alias_).keep (fun i _ => i / 1024 = 1 - s.fab.active)) = false → s.fab.aliasNew = none → Yields (.aliasLoad k a b c) s (fun u =>
      u.Running k 0x0404 [0] ∧ ∃ m, u.fab = { s.fab with aliasNew := some m } ∧
      (∀ i, i < c → m.look (1024 * (1 - s.fab.active) + a + i) =
        aliasOf ((s.hostMem k.src.fnIdx).word (b + 16 * i)) ((s.hostMem k.src.fnIdx).word (b + 16 * i + 8))) ∧
      (∀ j, j / 1024 = s.fab.active → m.look j = s.fab.alias_.look j))) ∧
    (s.fab.swapDue = false → (s.fab.aliasNew = none → Yields (.aliasSwap k) s (fun u =>
        u.Follows (((s.enter k 0x0405).setFab { s.fab with active := 1 - s.fab.active, swaps := (s.fab.swaps + 1) % 2 ^ 32 }).reroute))) ∧
      (s.fab.aliasNew ≠ none → Yields (.aliasSwap k) s (fun u => u.Follows (s.setFab { s.fab with swapDue := true }) ∧ u.Running k 0x0405 [0]))) ∧
    (∀ targets, a < 4096 → targets.length ≤ 64 →
      (∀ t ∈ targets, (∃ l, t = .port l ∧ (s.isSwitch l = true ∨ s.isEndpoint l = true)) ∨ (∃ p, t = .loc p ∧ p < 256)) →
      Yields (.mcastSet k a targets) s (fun u => u.Follows (s.setFab { s.fab with mcast := s.fab.mcast.put a targets }) ∧ u.Answered k 0x0406 .ok [])) ∧
    (1000 ≤ a → a ≤ 1000000 → Yields (.reorderCfg k a) s (fun u => u.Follows (s.setFab { s.fab with timeout := a }) ∧ u.Answered k 0x0407 .ok [])) ∧
    (∀ port cls mark onchip spill, a < 4 → port < 32 → cls < 8 → mark < 4096 →
      s.cellSum a poolOut + (s.chipShares a (8 * port + cls) + onchip) + rangeCount (s.pool a poolOut).bad ≤ cellBufferCells → s.spillShares a (8 * port + cls) + spill ≤ (s.trvDie a).spill →
      s.chipShares a (8 * port + cls) + onchip = (s.pool a poolOut).total ∨ (s.pool a poolOut).held = [] →
      Yields (.trvQueueCfg k (.queue a port cls mark onchip spill)) s (fun u => u.Answered k 0x0408 .ok [wd onchip, wd spill] ∧
        (u.outQ (256 * a + (8 * port + cls))).mark = mark ∧ (u.outQ (256 * a + (8 * port + cls))).onchip = onchip ∧
        (u.outQ (256 * a + (8 * port + cls))).spill = some spill)) ∧
    (∀ spill flush, a < 4 → spill ≤ 4194304 → 16 ≤ flush → flush ≤ 1023 → (s.setTrv a { s.trvDie a with spill := spill, flush := flush }).spillShares a 256 ≤ spill →
      spill = (s.pool a poolSpill).total ∨ (s.pool a poolSpill).held = [] →
      Yields (.trvQueueCfg k (.die a spill flush)) s (fun u => u.Answered k 0x0408 .ok [] ∧ (u.trvDie a).spill = spill ∧ (u.trvDie a).flush = flush ∧
        (u.pool a poolSpill).total = spill)) ∧
    (∀ src vc x, a < 4 → s.fab.ctxs.find? (fun c => c.die = a && c.src = src && c.vc = vc) = some x → Yields (.flowQuery k a src vc) s (fun u => u.Follows s ∧
      u.Answered k 0x0409 .ok [wd x.next, wd x.held.length, wd ((x.timer.map (fun t => s.now - t)).getD 0)])) ∧
    (a < 2 ^ 48 → Yields (.routeQuery k a) s (fun u => u.Follows s ∧ ∃ m, u.Answered k 0x040A .ok
      [wd (s.routeKey a), wd (s.route a).words.1, wd (s.route a).words.2, wd m]))

/-- R338 to R357: the reorder of the destination edge; frames of at most 64 cells leave a line with rising positions under one tag, over the intermediates in turn; an
intermediate sends one cell in a slot to the output whose turn it is; cells are released in order; spilled cells return; control flits enter and leave the express ring;
a multicast is completed once. -/
def Obligations.TraverseSlots : Prop :=
  ∀ (s : State) (n slot die cc : Nat), s.now ≤ cc →
    let v := s.atSlot slot
    (∀ id rest x p l, takeFirst (fun (e : Nat × Nat) => e.1 = die) s.fab.toRo = some ((die, id), rest) → s.load id = some x → x.pkt = some p → x.outs = [.sub l] →
      Yields (.reorderArrival die) s (fun u => u = ((s.setFab { s.fab with toRo := rest }).copyDone id 0 .ok).roTake die l p)) ∧
    (∀ src vc c t h, s.roCtx die src vc = some c → c.timer = some t → c.lowest = some h → t + s.fab.timeout ≤ cc →
      (∀ e ∈ s.fab.toRo, e.1 = die → ∃ y q, s.load e.2 = some y ∧ y.pkt = some q ∧ ¬ (q.src = c.src ∧ q.vc = c.vc ∧ q.fseq = c.next)) → h.pkt.ulp = ulpPlp ∨ h.pkt.ulp = ulpSheet →
      Yields (.reorderTimeout die src vc cc) s (fun u => u = ((((s.at cc).countWpt wptTimeout).drift 6 ((s.sub h.lport).cfg.part).toList).putCtx
        { c with timer := some cc }).sendE2e { c with lport := h.lport } true c.next)) ∧
    (∀ src vc c, s.roCtx die src vc = some c → c.held = [] → c.last + 32768 ≤ cc → Yields (.reorderCtxRetire die src vc cc) s (fun u =>
      u.fab.ctxs = s.fab.ctxs.filter (fun g => !g.is die src vc) ∧ u.fab.subs = s.fab.subs)) ∧
    (∀ r q, n < 64 → s.fab.fqFree.lookD n 0 ≤ slot → v.fqChoice n = some (r, q) → Yields (.frameLaunch n slot) s (fun u =>
      ∃ cells : List Cell, u.fab.cells = s.fab.cells ++ cells ∧ u.fab.fqFree.lookD n 0 = slot + cells.length ∧
        cells.length = (if r / 8 = 64 then (fqTake 64 q).1.filter (fun e => (s.load e.1).isSome) else (fqTake 64 q).1).length ∧
        (cells ≠ [] → u.fab.fqFrame.lookD (520 * n + r) 0 = (s.fab.fqFrame.lookD (520 * n + r) 0 + 1) % 256) ∧
        ∀ i c, cells[i]? = some c → c.inLine = n ∧ c.outLine = r / 8 ∧ c.cls = r % 8 ∧ c.pos = i ∧ c.frame = s.fab.fqFrame.lookD (520 * n + r) 0 ∧
          c.inter = (n + slot + i) % 64)) ∧
    (∀ x, n < 64 → v.stage2Cell n ((slot + 64 - n) % 64) slot = some x → x.left = [] → Yields (.stage2Slot n slot) s (fun u =>
      u.fab.arrived = s.fab.arrived ++ [{ x with outLine := (slot + 64 - n) % 64, at_ := slot + transit n ((slot + 64 - n) % 64), left := [] }] ∧
      u.fab.cells = s.fab.cells.erase x)) ∧
    Yields (.cellRelease n slot) s (fun u => u = State.releaseAll v.fab.arrived.length v n slot) ∧
    (n < 1024 → Yields (.spillReturn n) s (fun u => u = (State.spillBack (s.outQ n).cells.length s n).easeStop n)) ∧
    (n < 64 → slot % 64 = 0 → Yields (.expressRingInject n slot) s (fun u => ∀ q f rest, q < 3 → s.fab.ring.look (3 * n + q) = none →
      s.fab.ctrlSrc.lookD (3 * n + q) [] = f :: rest → u.fab.ring.look (3 * n + q) = some f)) ∧
    (∀ f, n < 64 → let pos := (n + 64 - slot % 64) % 64
      s.fab.ring.look (3 * pos) = some f → s.fab.ring.look (3 * pos + 1) = none → s.fab.ring.look (3 * pos + 2) = none → f.out.line = n → v.flitRoom f = true →
      Yields (.expressRingDeliver n slot) s (fun u => u = (v.setFab { v.fab with ring := v.fab.ring.del (3 * pos) }).flitIn f)) ∧
    (∀ o q w, s.fab.owed.find? (fun o => o.load = n && o.left = 0) = some o →
      (s.setFab { s.fab with owed := s.fab.owed.filter (fun x => x.load ≠ n) }).serviceSeq (256 * ((s.fab.pfx.map (·.1)).getD 0)) o.src o.cls = (q, w) →
      Yields (.mcastCompletion n) s (fun u => u = w.enterFabric { line := o.inLine }
        (dataPacket o.cls o.src ulpCompletion (256 * ((s.fab.pfx.map (·.1)).getD 0)) o.job q o.reqId 0 [] o.payload)))

/-- R366, R368, R371, R379, R380, R529: the Contour commands; those that set something are turned away at a FENCED sub-port.
R361 to R373: what happens at unit boundaries and in time: units to be replayed go first; shapers are refilled every 120 cc; a pending gate list starts at a multiple of its
cycle, and one without ENABLE at once; a head that does not fit its window is counted once; late heads are shed. -/
def Obligations.ContourCommands : Prop :=
  (
  ∀ (s : State) (k : Kci) (l : Nat), s.Open k → s.subExists l = true →
    let c := (s.sub l).ctr
    (∀ cls quantum, (s.sub l).state ≠ .fenced → cls < 8 → quantumFloor (s.sub l).cfg.mode ≤ quantum → quantum ≤ 65535 → Yields (.ctrClassCfg k l cls quantum) s (fun u =>
      u.Follows (s.onCtr l (fun c => { c with quantum := c.quantum.set cls quantum })) ∧ u.Answered k 0x040B .ok [])) ∧
    (∀ cls enable rate burst, (s.sub l).state ≠ .fenced → cls < 8 → 1 ≤ rate → rate ≤ 1600000 → 1 ≤ burst → burst ≤ 2 ^ 24 →
      Yields (.ctrShaperSet k l (.cls cls) enable rate burst) s (fun u => u.Follows (s.onCtr l (fun c =>
        { c with shapers := c.shapers.modify cls (fun x => { x with pending := some (rate, burst, enable), pendAt := min (s.dtm.tbZero + s.timebase) s.now }) })) ∧ u.Answered k 0x040C .ok []) ∧
      Yields (.ctrShaperSet k l .port enable rate burst) s (fun u => u.Follows (s.onCtr l (fun c =>
        { c with shapers := c.shapers.modify 8 (fun x => { x with pending := some (rate, burst, enable), pendAt := min (s.dtm.tbZero + s.timebase) s.now }) })) ∧ u.Answered k 0x040C .ok [])) ∧
    ((s.sub l).state = .fenced → ∀ cls which enable a b, cls < 8 →
      (a ≤ 65535 → Yields (.ctrClassCfg k l cls a) s (fun u => u.Follows s ∧ u.Answered k 0x040B .portState [])) ∧
      Yields (.ctrShaperSet k l which enable a b) s (fun u => u.Follows s ∧ u.Answered k 0x040C .portState []) ∧
      Yields (.ctrGateSet k l enable a b) s (fun u => u.Follows s ∧ u.Answered k 0x040D .portState [])) ∧
    (∀ enable count addr g, (s.sub l).state ≠ .fenced → 1 ≤ count → count ≤ 256 →
      ((leWords count (s.hostRead k.src.fnIdx addr (8 * count))).map gateOf).any Option.isNone = false →
      g = ((leWords count (s.hostRead k.src.fnIdx addr (8 * count))).map gateOf).filterMap id →
      (GateList.mk g enable).cycle ≤ 1875000000 → gateTooShort g (s.txCc l (maxCost (s.sub l).cfg.mode)) = false →
      Yields (.ctrGateSet k l enable count addr) s (fun u =>
        u.Follows (s.onCtr l (fun x => { x with pending := some ⟨g, enable⟩, pendAt := min (s.dtm.tbZero + s.timebase) s.now })) ∧ u.Answered k 0x040D .ok [])) ∧
    (∀ dest, Yields (.ctrGateRead k l dest) s (fun u => u.hostMem k.src.fnIdx = (s.hostMem k.src.fnIdx).writeN dest (gateBytes c.gates ++
      (match c.pending with
        | some g => gateBytes g
        | none => [])) ∧ u.fab = s.fab ∧ u.Answered k 0x040E .ok [])) ∧
    Yields (.ctrStatus k l) s (fun u => u.Follows s ∧ u.Answered k 0x040F .ok ((List.range 8).map (s.ctrClassState l) ++ (List.range 9).map (s.ctrShaperState l) ++
      (List.range 9).map (fun i => wd (c.shaper i).burst) ++ [c.shedIn, c.shedOut, c.gateHold, c.ctrlTx].map wd))) ∧ (
  ∀ (s : State) (l cc : Nat), s.now ≤ cc →
    let x := s.sub l
    let tb := (s.at cc).timebase
    (∀ n bs rest, x.state = .up → x.cfg.mode = .switch ∨ x.cfg.mode = .endpoint → x.resend = (n, bs) :: rest → Yields (.txUnitSelect l cc) s (fun u =>
      (u.sub l).resend = rest ∧ u.out = s.out ++ [.unit l bs] ∧ (u.sub l).sinceCtl = x.sinceCtl + 1)) ∧
    (x.cfg.mode = .switch ∨ x.cfg.mode = .endpoint → x.state = .ident ∨ x.state = .fenced → Yields (.txUnitSelect l cc) s (fun u =>
      u.out = s.out ++ [.unit l (WireUnit.bytes ⟨0, 0, 0, []⟩)] ∧ (u.sub l).replay = x.replay ∧ (u.sub l).txNext = x.txNext ∧ (u.sub l).resend = x.resend)) ∧
    (tb % 120 = 0 → x.ctr.refilled ≠ some cc → Yields (.shaperRefill l cc) s (fun u =>
      (u.sub l).ctr = { x.ctr with shapers := x.ctr.shapers.map (fun y => y.refill cc), refilled := some cc } ∧
      ∀ m, m ≠ l → u.sub m = s.sub m)) ∧
    (∀ c h, c < 8 → s.headLoad l c = some h → (∀ d, d ≠ c → s.headLoad l d = none) → (x.ctr.gates.openMask tb).testBit c = true →
      (s.at cc).gateFit l c h = false → x.ctr.held.look c ≠ some h.id → x.ctr.heads.look c = none → x.ctr.shedAt.look c ≠ some cc → x.ctr.seen ≤ cc →
      Yields (.gateEntryChange l cc) s (fun u => (u.sub l).ctr =
        { x.ctr with gateHold := satInc x.ctr.gateHold, held := x.ctr.held.put c h.id, heads := x.ctr.heads.put c (h.id, cc), seen := cc })) ∧
    (∀ g, x.ctr.pending = some g → x.ctr.pendAt < cc → g.enable = false ∨ tb % max 1 g.cycle = 0 → (∀ d, s.headLoad l d = none) →
      Yields (.gateListStart l cc) s (fun u => (u.sub l).ctr.gates = g ∧ (u.sub l).ctr.pending = none ∧ ∀ m, m ≠ l → u.sub m = s.sub m)) ∧
    Yields (.egressDeadlineShed l cc) s (fun u => u = (((s.at cc).countHoldsTo l (cc - 1)).shedHeads l).noteHeads l) ∧
    (∀ c h bs dl note, c < 8 → s.headLoad l c = some h → h.cargo = .eth bs dl note → dl ≠ 0 → dl < tb + s.txCc l (s.cost l h) → x.ctr.shedAt.look c ≠ some cc →
      (∀ d, d < 8 → d ≠ c → s.headLoad l d = none) → Yields (.egressDeadlineShed l cc) s (fun u => u = (((s.at cc).countHoldsTo l (cc - 1)).shedHead l c).noteHeads l ∧
        (u.sub l).ctr.shedOut = satInc x.ctr.shedOut ∧ (u.sub l).ctr.shedAt.look c = some cc)))

/-! ### Sheet (R381 to R403) -/

/-- R381, R387, R401, R402: the Sheet commands: the member table, the exported region, window entries read from host memory, the teardown of a job tag, and what is in
flight. -/
def Obligations.SheetCommands : Prop :=
  ∀ (s : State) (k : Kci), s.Open k →
    (∀ members m hp pfx classes rto mark, members.length = 16 → m < 16 → nth members m .none = .pq pfx hp →
      (∀ p ∈ hp, ∃ d row, s.fab.table.lookD p .none = .sheet d row) → classes.length = 64 → (∀ c ∈ classes, c < 8) → 15 ≤ rto → rto ≤ 31 → mark < 8192 →
      Yields (.shtSheetSet k members (some m) classes rto mark) s (fun u => (∃ c, u.Follows (s.setSht { s.sht with members := members, self := some m, rto := rto, mark := mark, lost := [], classes := c })) ∧
        (∀ i, i < 64 → u.sht.classes.lookD i 0 = nth classes i 0) ∧ u.Answered k 0x0801 .ok [])) ∧
    (∀ part base size, s.partExists part = true → size % 64 = 0 → s.viewCovers part (·.global) ((s.stkRegions part).length + 1) base size = true →
      Yields (.shtExport k part base size) s (fun u => u.Follows (s.setSht { s.sht with part := part, base := base, size := size }) ∧ u.Answered k 0x0802 .ok [])) ∧
    (∀ owner p first addr count (w : Nat → Window), s.winPart owner = some p → k.part = none ∨ k.part = some p → 1 ≤ count → first + count ≤ 64 →
      (∀ i, i < count → windowOf ((List.range 4).map (fun j => (s.hostMem k.src.fnIdx).word (addr + 32 * i + 8 * j))) = some (w i)) →
      Yields (.shtWindowSet k owner first addr count) s (fun u => u.Answered k 0x0803 .ok [] ∧ (∃ m, u.Follows (s.setSht { s.sht with windows := m })) ∧
        (∀ i, i < count → u.sht.windows.look (winKey owner + first + i) = some (w i)) ∧
        ∀ j, j < winKey owner + first ∨ winKey owner + first + count ≤ j → u.sht.windows.look j = s.sht.windows.look j)) ∧
    (∀ job, job < 65536 → Yields (.shtJobTeardown k job) s (fun u => u.Follows ((s.enter k 0x0804).shtTeardown job).2 ∧ u.Answered k 0x0804 .ok [])) ∧
    (∀ owner, (match owner with
        | .part p => s.partExists p
        | .sub l => s.subExists l) = true → Yields (.shtStatus k owner) s (fun u => u.Follows s ∧
      (let ops := s.sht.ops.filter (fun o => match owner with
        | .part p => o.part = some p
        | .sub l => o.source = .accel l)
      let flows := (ops.map (fun o => (s.shtSrc o, o.dest))).eraseDups
      ∃ lost : Nat, (∀ m, m < 16 → (lost.testBit m = true ↔ m ∈ s.sht.lost)) ∧
        u.Answered k 0x0805 .ok (([flows.length] ++ flows.flatMap (fun f => [f.1, f.2, (ops.filter (fun o => s.shtSrc o = f.1 && o.dest = f.2)).length]) ++
          [lost] ++ s.sht.counts).map wd))))

/-- R385 to R397: a tile's request is turned away with the first status of R386, R387 and R400 that fits, waits for room, or is taken in flight; a release store leaves when
nothing before it is in flight, or is aborted; a home applies the operations of a line in order, once the line is in
a slot, and answers each once; a completion goes to its source; an unordered operation
ends with TIMEOUT, and an ordered one is sent again at most six times before its member is lost; the parts of a combine record end with the
TIMEOUT of their merged packet. -/
def Obligations.SheetTraffic : Prop :=
  ∀ (s : State) (die cc : Nat), s.now ≤ cc →
    (∀ t m rest, takeFirst (fun (m : MeshMsg) => !m.srcGw && m.destGw && m.dest = 1 && coord m.src = t) s.grid.mesh = some (m, rest) →
      let o := s.tileOp t m
      let taken : State := { s with grid := { s.grid with mesh := rest } }
      let r := srec o.words
      let off := fun (v : State) => v.setSht { v.sht with waiting := v.sht.waiting.filter (fun w => w.source ≠ .tile t), failed := if v.sht.failed.contains (.tile t) then v.sht.failed else v.sht.failed ++ [.tile t] }
      ((r.invalid = true ∨ tileLenBad m = true) → Yields (.sheetRequest t) s (fun u =>
        u = (off taken).shtReply o (complWord .msgInvalid false false false r.reqId r.job) none)) ∧
      (r.invalid = false → tileLenBad m = false → s.member_ r.member = .none → Yields (.sheetRequest t) s (fun u =>
        u = (off taken).shtReply o (complWord .accessDenied false false false r.reqId r.job) none)) ∧
      (r.invalid = false → tileLenBad m = false → s.member_ r.member ≠ .none → s.winOk (.part m.part) r = false → Yields (.sheetRequest t) s (fun u =>
        u = ((off taken).countSht shtDenied).shtReply o (complWord .accessDenied false false false r.reqId r.job) none)) ∧
      (r.invalid = false → tileLenBad m = false → s.member_ r.member ≠ .none → s.winOk (.part m.part) r = true → s.sht.lost.contains r.member = true →
        Yields (.sheetRequest t) s (fun u => u = ((off taken).countSht shtLost).shtReply o (complWord .targetLost false false false r.reqId r.job) none)) ∧
      (r.invalid = false → tileLenBad m = false → s.member_ r.member ≠ .none → s.winOk (.part m.part) r = true → s.sht.lost.contains r.member = false →
        s.shtRoom (t / 256) (s.shtSrc o) o.dest r.ordered = true → Yields (.sheetRequest t) s (fun u => u = taken.shtAccept o)) ∧
      (r.invalid = false → tileLenBad m = false → s.member_ r.member ≠ .none → s.winOk (.part m.part) r = true → s.sht.lost.contains r.member = false →
        s.shtRoom (t / 256) (s.shtSrc o) o.dest r.ordered = false → Yields (.sheetRequest t) s (fun u => u = s.shtHold o ∧ u.grid = s.grid ∧ u.sht.ops = s.sht.ops))) ∧
    (∀ id o, s.sht.ops.find? (fun o => o.id = id && !o.sent && (srec o.words).release && o.after.isEmpty) = some o →
      (o.spoiled = true → Yields (.releaseStoreSend id) s (fun u => u = (s.shtEnd o .aborted).shtPump o.source)) ∧
      (o.spoiled = false → Yields (.releaseStoreSend id) s (fun u => u = s.shtPump o.source))) ∧
    (∀ l id, Yields (.sheetCombine l id) s (fun u => u = s.combine l id)) ∧
    (∀ p t i v, s.shtInbox die (fun p => !(p.isData && p.ulp = ulpCompletion)) = some (p, t) → p.isData = true → p.ulp = ulpSheet → (pktRec p).job ∉ t.sht.dead →
      s.homeTakes die = true → t.platTake die poolSheet { owner := t.sht.part, part := some t.sht.part } = some (i, v) →
      Yields (.sheetHomeReceive die) s (fun u => u = v.homeTake die p i)) ∧
    (∀ o id, (s.homeQueue die).find? (fun o => o.id = id) = some o → s.homeFirst die o = true →
      (s.lineReady die o.pkt = true → Yields (.sheetLineApply die id) s (fun u => u = s.homeApply die o)) ∧
      (∀ q b off, s.lineOf die o.pkt = .ok (q, b, off) → s.lineReady die o.pkt = false →
        Yields (.sheetLineApply die id) s (fun u => u = s.lineBring die (pchController q) (cellAddr q b off)))) ∧
    (∀ p v o, s.shtInbox die (fun p => p.isData && p.ulp = ulpCompletion) = some (p, v) → s.sht.records = [] →
      s.sht.ops.find? (fun o => o.die = die && o.answered p) = some o → (p.word 4).toNat % 2 ^ 11 = 0 → (srec o.words).returns = true →
      Yields (.sheetCompletionReceive die) s (fun u => u = v.shtFinish o .ok false false false (some (padTo 64 0 p.payload)))) ∧
    (∀ id o, s.sht.ops.find? (fun o => o.id = id && o.sent && o.sentAt + 2 ^ s.sht.rto ≤ cc) = some o →
      ((srec o.words).ordered = false → Yields (.sheetRtoExpiry id cc) s (fun u => u = (s.at cc).shtEnd o .timeout)) ∧
      ((srec o.words).ordered = true → 6 ≤ o.resends → Yields (.sheetRtoExpiry id cc) s (fun u => u = (s.at cc).shtLose o.member)) ∧
      ((srec o.words).ordered = true → o.resends < 6 → Yields (.sheetRtoExpiry id cc) s (fun u =>
        let o := { o with resends := o.resends + 1, sentAt := cc }
        let v := (((s.at cc).setSht { s.sht with ops := s.sht.ops.map (fun x => if x.id = id then o else x) }).countSht shtRetx).shtEmit o
        u = if v.fab.lostDue then v.tellLost else v))) ∧
    (∀ c n, s.sht.ops.find? (fun o => o.id = 2 ^ 32 + 8192 * die + n && o.sent && o.sentAt + 2 ^ s.sht.rto ≤ cc) = none →
      s.sht.records.find? (fun c => 2 ^ 32 + 8192 * c.die + c.id = 2 ^ 32 + 8192 * die + n && (match c.sentAt with
        | some t => t + 2 ^ s.sht.rto ≤ cc
        | none => false)) = some c →
      Yields (.sheetRtoExpiry (2 ^ 32 + 8192 * die + n) cc) s (fun u => u = (s.at cc).fanOut c (wd Status.timeout.code) []))

/-! ### Stacked memory and the far tier (R162 to R165, R404 to R436) -/

/-- R162, R413 to R424, R558: what the controllers of stacked memory do. A slot serves the oldest LATENCY request first while its share of 64 slots is not used up, and a channel
that is not READY or in a window of STK_MARGIN serves nothing, nor a pseudo-channel that maintenance occupies; a read is checked, and the repairs that it triggers are made; a padded
request completes at its cycle; a refresh takes the slot, one write-back and one scrub; a channel retrains by its schedule, or for its errors, and is READY or FAILED after it; due row copies run in the window; adders write back after 16 idle cycles; the channels of a stack that has trained are READY.
R428, R430 to R433: the life of a far port: the link of a device that appears trains, with CXL IDE waits DOWN for its keys, then the device is enumerated; it is READY or FAILED within two seconds, answers its requests, and when its link drops ends them. -/
def Obligations.MemoryEvents : Prop :=
  (
  ∀ (s : State) (q ch cc : Nat), s.now ≤ cc →
    let v := s.at cc
    ((s.channel (q / 2)).state ≠ .ready ∨ cc < (s.channel (q / 2)).window ∨ cc < (s.pch q).busy → Yields (.memSlotServe q cc) s (fun u => u = v)) ∧
    (∀ r, (s.channel (q / 2)).state = .ready → (s.channel (q / 2)).window ≤ cc → (s.pch q).busy ≤ cc → (s.pch q).slots = [] → (s.pch q).fixes = [] → 0 < s.stk.lat → oldestOf (s.eligible q) 0 = some r →
      Yields (.memSlotServe q cc) s (fun u => u = (((v.setPch q { s.pch q with slots := [0], last := cc }).setReq
        { r with queued := false, stage := if r.stage = .out then .served else r.stage }).dropReq r.id).memAdmitQ q)) ∧
    (∀ id r b off, s.req id = some r → r.stage = .served → r.target = .stk q b off → s.blockStatus q b = .ok →
      (r.badAt = [] → r.softAt = [] → Yields (.memoryResponse id cc []) s (fun u => u = (v.repairSlot q).arrive r .ok)) ∧
      (∀ w, r.softAt = [] → (pieceWords (cellAddr q b off) r.len).filter r.badAt.contains = [w] → Yields (.memoryResponse id cc []) s (fun u =>
        u = ((v.badWord w).repairSlot q).arrive r .uncorrectable))) ∧
    (∀ id r st p, s.req id = some r → r.stage = .held st → r.pad = some p →
      (p ≤ cc → Yields (.paddedCompletion id cc) s (fun u => u = (v.setReq { r with stage := .complete st }).memReap)) ∧
      (cc < p → Yields (.paddedCompletion id cc) s (fun u => u = v))) ∧
    (∀ errs, q < 1536 → (s.channel (q / 2)).state ≠ .untrained →
      (s.anyDatum = false → Yields (.refresh q cc errs) s (fun u => u = ((v.maintain q 660).writeBack q).scrub q errs)) ∧
      (s.anyDatum = true → v.timebase % 7296 = 19 * (q % 384) → Yields (.schedRefresh q cc errs) s (fun u => u = ((v.maintain q 0).writeBack q).scrub q errs))) ∧
    (ch < 768 → (s.channel ch).state = .ready →
      let goes := fun (unscheduled : Bool) (u : State) => u.channel ch = { s.channel ch with state := .retraining, unscheduled := unscheduled, began := cc } ∧
        (∀ c, c ≠ ch → u.channel c = s.channel c) ∧ u.stk.retrains = satInc s.stk.retrains ∧ u.stk.mem = s.stk.mem ∧ u.stk.reqs = s.stk.reqs
      (s.anyDatum = false → Yields (.periodicRetrain ch cc) s (goes false)) ∧
      (s.anyDatum = true → v.timebase % 2 ^ s.dtm.period = 4096 * ch % 2 ^ s.dtm.period → Yields (.schedRetrain ch cc) s (goes false)) ∧
      (∀ errors, s.stk.rtThresh < errors → Yields (.errorRateRetrain ch errors cc) s (goes true))) ∧
    ((s.channel ch).state = .retraining →
      ((s.channel ch).unscheduled = false → Yields (.retrainEnd ch cc true) s (fun u => u.channel ch = { s.channel ch with state := .ready } ∧
        (∀ c, c ≠ ch → u.channel c = s.channel c) ∧ u.stk.mem = s.stk.mem ∧ u.stk.reqs = s.stk.reqs)) ∧
      ((s.channel ch).unscheduled = true → Yields (.retrainEnd ch cc true) s (fun u => u.channel ch = { s.channel ch with state := .ready, unscheduled := false } ∧
        u.stk.mem = s.stk.mem ∧ u.stk.reqs = s.stk.reqs.map (fun r => if r.atChannel ch && r.stage = .out then { r with stalled := true } else r)))) ∧
    (((s.channel (q / 2)).state = .retraining ∧ (s.channel (q / 2)).unscheduled = false) ∨ s.anyDatum = false → Yields (.remapCopy q) s (fun u => u = s.repairDue q)) ∧
    (∀ die, Yields (.adderWriteback die cc) s (fun u => u = { v with stk := { s.stk with adders := u.stk.adders } } ∧
      ∀ c lines, s.stk.adders.look c = some lines → u.stk.adders.look c = some (if c / 24 = die then lines.filter (fun x => cc < x.touch + 16 || x.got = none ||
        (s.channel (pchChannel (x.addr / 4096 / blocksPerPch))).state = .retraining) else lines))) ∧
    (∀ stack, stack < 24 → stack ∉ s.stk.trained → Yields (.stackTrained stack) s (fun u => u.stk.trained = s.stk.trained ++ [stack] ∧
      (∀ h, h < 32 → u.channel (32 * stack + h) = { state := .ready }) ∧ (∀ c, c / 32 ≠ stack → u.channel c = s.channel c) ∧ u.stk.mem = s.stk.mem))) ∧ (
  ∀ (s : State) (p cc : Nat), s.now ≤ cc → p ≤ 1 →
    let x := s.farPort p
    let others := fun (u : State) => ∀ q, q ≠ p → u.farPort q = s.farPort q
    (∀ i half width, x.state = .empty ∨ x.state = .down ∨ x.state = .failed → x.keying = false → x.disabled = false → Yields (.farDevicePresent p i half width cc) s (fun u =>
      u.farPort p = { x with id := some i, half := half, width := width, state := .training, linkUp := cc, disabled := false, keying := false } ∧ others u ∧
      u.stk = s.stk)) ∧
    (x.state = .training → s.farAdvance p = s.setFarPort p (if x.ide then { x with state := .down, keying := true }
      else { x with state := .enumerating, keying := false, linkUp := s.now })) ∧
    (x.state = .down → x.keying = true → s.farAdvance p = s.setFarPort p { x with state := .enumerating, keying := false, linkUp := s.now }) ∧
    (x.state = .enumerating → cc ≤ x.linkUp + 3750000000 → Yields (.farPortReady p cc) s (fun u => u.farPort p = { x with state := .ready, slots := [] } ∧ others u ∧
      u.stk = s.stk)) ∧
    (x.state = .enumerating ∨ x.state = .training ∨ x.keying = true → x.linkUp + 3750000000 ≤ cc → Yields (.farReadyTimeout p cc) s (fun u =>
      u.farPort p = { x with state := .failed, keying := false } ∧ others u ∧ u.stk = s.stk)) ∧
    (∀ id r a bytes, s.req id = some r → r.target = .far p a → r.stage = .served → r.write = false → Yields (.farResponse id false bytes cc) s (fun u =>
      u = (s.at cc).arrive { r with data := padTo r.len 0 bytes } .ok)) ∧
    (∀ removed, x.state = .ready ∨ x.state = .enumerating ∨ x.state = .training ∨ x.state = .failed ∨ x.keying = true → Yields (.farLinkDown p cc removed) s (fun u =>
      (u.farPort p).state = .down ∧ (u.farPort p).ide = false ∧ (u.farPort p).keying = false ∧ (u.farPort p).id = (if removed then none else x.id) ∧ others u ∧
      u.far.downs = satInc s.far.downs ∧ u.far.windows = s.far.windows)))

/-- R407, R408, R413, R423, R425 to R427, R429, R430, R433, R434: the commands of stacked memory and the far tier. The counts of STK_MARGIN, how long its windows last, and the outcome of a post-package
repair are free values. R25: every band of a global interleave has bytes in each of the 32 regions of control. -/
def Obligations.MemoryCommands : Prop :=
  (∀ (g : StkRegion) (r : Nat), g.global = true → r < 32 → ∃ o, o < g.bandSize ∧ pchRegion (g.map o).1 = r) ∧
  ∀ (s : State) (k : Kci), s.Open k →
    (∀ r : RegionDef, r.system = true ∨ s.partExists r.part = true → r.outside = false → s.regionInvalid r = false →
      (s.stkRegions r.owner).length + (s.stk.zeroing.filter (fun z => z.def_.owner = r.owner)).length < regionLimit r.owner →
      ((∀ d, d < 4 → s.staleBands r d = []) → Yields (.stkRegionSet k r) s (fun u => u.Follows (s.addRegion r) ∧
        u.stkRegions r.owner = s.stkRegions r.owner ++ [r.toRegion] ∧ u.Answered k 0x0901 .ok [])) ∧
      (∀ q, q < 1536 → s.staleBands r (pchDie q) ≠ [] → s.chFailed q = false → Yields (.stkRegionSet k r) s (fun u =>
        u.stk.regions = s.stk.regions ∧ u.Running k 0x0901 [s.stk.next]))) ∧
    (∀ (o : RegionOwner) vbase g, (s.stkRegions o.idx).find? (fun g => g.vbase = vbase) = some g → (s.enter k 0x0902).regionBusy o.idx g = false →
      Yields (.stkRegionClear k o vbase) s (fun u => u.stkRegions o.idx = (s.stkRegions o.idx).filter (fun g => g.vbase ≠ vbase) ∧ u.stk.mem = s.stk.mem ∧
        u.Answered k 0x0902 .ok [])) ∧
    (∀ o : RegionOwner, o = .system ∨ (o.idx < 64 ∧ s.partExists o.idx = true) → Yields (.stkRegionQuery k o) s (fun u => u.Follows s ∧
      u.Answered k 0x0903 .ok ((s.stkRegions o.idx).flatMap (regionWords o.idx) ++
        (s.far.windows.filter (fun e => e.1 / 16 = o.idx)).flatMap (fun e => [wd (e.1 % 16), wd e.2.port, wd e.2.base, wd e.2.size])))) ∧
    (∀ period thresh, 22 ≤ period → period ≤ 34 → 1 ≤ thresh → thresh ≤ 255 → Yields (.stkRetrainCfg k period thresh) s (fun u =>
      u.Follows { s with dtm := { s.dtm with period := period }, stk := { s.stk with rtThresh := thresh } } ∧ u.Answered k 0x0904 .ok [])) ∧
    (∀ lat bulk spill ce, lat ≤ 64 → 1 ≤ bulk → bulk ≤ 15 → 1 ≤ spill → spill ≤ 15 → 1 ≤ ce → ce ≤ 255 → Yields (.stkPolicySet k lat bulk spill ce) s (fun u =>
      u.Follows { s with stk := { s.stk with lat := lat, wBulk := bulk, wSpill := spill, ceThresh := ce } } ∧ u.Answered k 0x0905 .ok [])) ∧
    (∀ dest first count, Yields (.stkRepairLog k dest first count) s (fun u => u.hostMem k.src.fnIdx = (s.hostMem k.src.fnIdx).writeN dest
      (((s.stk.rows.drop first).take count).flatMap (fun e => s.repairEntry e.1 e.2)) ∧ u.stk = s.stk ∧ u.Answered k 0x0906 .ok [])) ∧
    (∀ sel, sel = .none ∨ s.datumBusy = false → Yields (.stkBringupSelect k sel) s (fun u => u.Follows { s with stk := { s.stk with bringup := sel } } ∧ u.Answered k 0x0F20 .ok [])) ∧
    (∀ stack channels sweep, stack < 24 → 0 < channels → channels < 2 ^ 32 → s.stk.bringup = .margin → sweep ≠ .supply ∨ s.stackHeld stack = false →
      Yields (.stkMargin k stack channels sweep) s (fun u => ∃ (l : List Word) (due : Nat),
        l.length = ((List.range 32).filter channels.testBit).length * 64 * sweepSteps sweep ∧ s.now < due ∧ due ≤ s.now + 2813 * sweepSteps sweep ∧
        u.stk.margins = s.stk.margins ++ [⟨s.stk.next, due, l⟩] ∧ u.stk.mem = s.stk.mem ∧ u.Running k 0x0F21 [s.stk.next] ∧
        ∀ h, h < 32 → u.channel (32 * stack + h) = if channels.testBit h then { s.channel (32 * stack + h) with window := due } else s.channel (32 * stack + h))) ∧
    (∀ stack, stack < 24 → s.stk.bringup = .repair → Yields (.stkRepairAccess k stack none) s (fun u => u.Follows s ∧
      u.Answered k 0x0F22 .ok ((List.range Config.pprBanks).map (fun b => wd (Config.pprResources - s.stk.pprUsed.lookD (2 ^ 16 * stack + b) 0)))) ∧
      ∀ c row, c < 64 → row < 4 * blocksPerPch → s.stackHeld stack = false → Yields (.stkRepairAccess k stack (some (c, row))) s (fun u =>
        u.Follows ((s.enter k 0x0F22).pprRow (4 * blocksPerPch * (64 * stack + c) + row)) ∧ u.Answered k 0x0F22 .ok [])) ∧
    (∀ part entry port base size, s.partExists part = true → entry ≤ 15 →
      (s.windowBad part entry port base size = false → Yields (.farWindowSet k part entry port base size true) s (fun u =>
        u.Follows { s with far := { s.far with windows := s.far.windows.put (16 * part + entry) ⟨port, base, size⟩ } } ∧ u.Answered k 0x0907 .ok [])) ∧
      Yields (.farWindowSet k part entry port base size false) s (fun u =>
        u.Follows { s with far := { s.far with windows := s.far.windows.del (16 * part + entry) } } ∧ u.Answered k 0x0907 .ok [])) ∧
    (∀ port, port ≤ 1 →
      (∀ i, (s.farPort port).id = some i → Yields (.farIdentity k port) s (fun u => u.Follows s ∧
        u.Answered k 0x0908 .ok [wd i.vendor, wd i.device, wd i.serial, wd i.firmware, wd i.capacity])) ∧
      ((s.farPort port).id = none → Yields (.farIdentity k port) s (fun u => u.Follows s ∧ u.Answered k 0x0908 .notPresent [])) ∧
      (∀ ide, Yields (.farPortCtrl k port .disable ide) s (fun u => (u.farPort port).state = .down ∧ (u.farPort port).disabled = true ∧
        (∀ q, q ≠ port → u.farPort q = s.farPort q) ∧ u.Answered k 0x0909 .ok [])) ∧
      (∀ ide, (s.farPort port).id ≠ none → Yields (.farPortCtrl k port .reset ide) s (fun u =>
        u.farPort port = { s.farPort port with state := .training, linkUp := s.now, disabled := false, ide := ide, keying := false, slots := [] } ∧
        (∀ q, q ≠ port → u.farPort q = s.farPort q) ∧ u.Running k 0x0909 [port])) ∧
      (∀ ide, (s.farPort port).id = none → Yields (.farPortCtrl k port .enable ide) s (fun u =>
        u.farPort port = { s.farPort port with state := .empty, disabled := false, ide := false } ∧ u.stk = s.stk ∧ u.Answered k 0x0909 .ok [])) ∧
      (∀ ide, (s.farPort port).id ≠ none → ((s.farPort port).state = .down ∧ (s.farPort port).keying = false) ∨ (s.farPort port).state = .failed →
        Yields (.farPortCtrl k port .enable ide) s (fun u =>
        u.farPort port = { s.farPort port with state := .training, linkUp := s.now, disabled := false, ide := ide, keying := false } ∧ u.stk = s.stk ∧ u.Running k 0x0909 [port])))

/-! ### Plat pools and Atlas banks (R437 to R458) -/

/-- R450 to R458: an allocation gives the buffer that has been free longest and is charged to its owner, or waits; a free returns the buffer behind the others; a free of what is
not held is refused as DOUBLE_FREE and changes no account; damaged metadata makes the pool FAULTED; the pool commands. -/
def Obligations.PlatPools : Prop :=
  ∀ (s : State) (die p owner : Nat), die < 4 → p < 8 →
    let x := s.pool die p
    (∀ part a b r, x.grants p { owner := owner, part := part } = true → x.ring.filter (fun e => e.1 < e.2) = (a, b) :: r → Yields (.platAlloc die p owner part false) s (fun u =>
      u = s.putPool die p { x with ring := if a + 1 < b then (a + 1, b) :: r else r, held := x.held.put a owner, used := x.used.put owner (x.usedOf owner + 1) })) ∧
    (∀ part, x.grants p { owner := owner, part := part } = false → x.heldByLevel p { owner := owner, part := part } = false → Yields (.platAlloc die p owner part false) s (fun u =>
      u = s.setPool die p { x with waiting := platQueue x.waiting { owner := owner, part := part, since := s.now } })) ∧
    (∀ w i v, x.waiting.find? (x.grants p) = some w → s.platTake die p w = some (i, v) → Yields (.platAllocGrant die p) s (fun u =>
      u = v.setPool die p { v.pool die p with waiting := x.waiting.erase w })) ∧
    (∀ i, x.faulted = false →
      (x.outside i = false → x.held.look i ≠ none → x.usedOf owner ≠ 0 → Yields (.platFree die p owner i false) s (fun u =>
        u = s.putPool die p { x with ring := x.ring ++ [(i, i + 1)], held := x.held.del i, used := if x.usedOf owner = 1 then x.used.del owner else x.used.put owner (x.usedOf owner - 1) })) ∧
      (x.outside i = true ∨ x.held.look i = none ∨ x.usedOf owner = 0 → Yields (.platFree die p owner i false) s (fun u =>
        u.plt.pools = s.plt.pools ∧ u.plt.doubles = satInc s.plt.doubles ∧ u.plt.last = ⟨die, p, i % 2 ^ 23, owner % 2 ^ 16, x.outside i, x.usedOf owner = 0, true⟩)) ∧
      Yields (.platFree die p owner i true) s (fun u => u = (s.poolFault die p i).poolLost die p)) ∧
    (∀ k : Kci, s.Open k →
      (∀ t1 t2 t3 reserve, t3 < t2 → t2 < t1 → t1 ≤ 255 →
        let y := { x with thresh := [t1, t2, t3], dflt := reserve }
        (p = 2 → 2048 * 256 ≤ t3 * y.shared) → (p ≤ 5 → s.cellSum die p + x.total + rangeCount x.bad ≤ cellBufferCells) → y.sumReserve - x.sumReserve ≤ x.sharedFree → y.sumReserve ≤ x.total →
        Yields (.pltPoolSet k die p x.total t1 t2 t3 reserve) s (fun u => u.Follows ((s.enter k 0x0220).putPool die p y) ∧ u.Answered k 0x0220 .ok [])) ∧
      (∀ total t1 t2 t3 reserve, 2 ≤ p → p ≤ 5 → t3 < t2 → t2 < t1 → t1 ≤ 255 → total ≠ x.total → x.held = [] →
        let y := { x with total := total, ring := x.fresh total, thresh := [t1, t2, t3], dflt := reserve }
        (p = 2 → 2048 * 256 ≤ t3 * y.shared) → s.cellSum die p + total + rangeCount x.bad ≤ cellBufferCells → y.sumReserve ≤ total →
        Yields (.pltPoolSet k die p total t1 t2 t3 reserve) s (fun u => u.Follows ((s.enter k 0x0220).putPool die p y) ∧ u.Answered k 0x0220 .ok [])) ∧
      Yields (.pltPoolQuery k die p none) s (fun u => u.Follows s ∧ u.Answered k 0x0221 .ok
        ([x.total, x.freeCount, x.sharedFree, x.level, flag 0 x.faulted].map wd ++ x.ownerList.flatMap (fun o => [wd (x.reserveOf o), wd (x.usedOf o)]))) ∧
      Yields (.pltPoolQuery k die p (some owner)) s (fun u => u.Follows s ∧ u.Answered k 0x0221 .ok
        ([x.total, x.freeCount, x.sharedFree, x.level, flag 0 x.faulted, x.reserveOf owner, x.usedOf owner].map wd)))

/-- R437 to R449, R458: the power states of tiles and pinned-row banks and their times, Sounding, the secure bank, and the Atlas commands. -/
def Obligations.AtlasBanks : Prop :=
  ∀ (s : State) (cc b t : Nat), s.now ≤ cc →
    let x := s.bank b
    let others := fun (u : State) => ∀ c, c ≠ b → u.bank c = s.bank c
    (∀ k : Kci, s.Open k → t < 1024 →
      ((s.tile t).state = .ready → (s.tile t).power = .on → Yields (.atlPower k (.tiles [t]) .retention) s (fun u =>
        u.tile t = { s.tile t with power := .retention, goal := some (.retention, s.now + 16) } ∧ OnlyTile { s with cmp := u.cmp, atl := ((s.tileBanks t).foldl State.walkLeave s).atl } u t ∧
        u.Running k 0x0E01 [t])) ∧
      ((s.tile t).state = .ready → (s.tile t).power = .retention → Yields (.atlPower k (.tiles [t]) .on) s (fun u =>
        u.tile t = { s.tile t with power := .on, goal := some (.on, s.now + 64) } ∧ OnlyTile { s with cmp := u.cmp } u t ∧ u.Running k 0x0E01 [t])) ∧
      ((s.tile t).state = .ready ∨ (s.tile t).state = .halted → (s.tile t).power ≠ .off → Yields (.atlPower k (.tiles [t]) .off) s (fun u =>
        (u.tile t).state = .off ∧ (u.tile t).scratch = [] ∧ (u.tile t).power = .off ∧ (u.tile t).goal = some (.off, s.now + 16) ∧
        (∀ v, v ≠ t → u.tile v = s.tile v) ∧ u.Running k 0x0E01 [t])) ∧
      ((s.tile t).state = .off → (s.tile t).power = .off → Yields (.atlPower k (.tiles [t]) .on) s (fun u =>
        u.tile t = { s.tile t with state := .reset, resetAt := s.now + 1088, clearing := true, power := .on, goal := some (.on, s.now + 1088) } ∧
        OnlyTile { s with cmp := u.cmp } u t ∧ u.Running k 0x0E01 [t])) ∧
      ((s.tile t).state ≠ .ready → (s.tile t).state ≠ .halted → Yields (.atlPower k (.tiles [t]) .off) s (fun u => u.Follows s ∧ u.Answered k 0x0E01 .tileState [])) ∧
      (bankReal b = true → bankKind b = 3 → s.pinTouches b = false → x.power = .on → Yields (.atlPower k (.banks [b]) .off) s (fun u =>
        u.bank b = { (s.walkLeave b).bank b with power := .off, goal := some (.off, s.now + 16) } ∧ others u ∧ u.atl.pinned = (s.pinClear b).atl.pinned ∧
        u.grid = s.grid ∧ u.Running k 0x0E01 [2 ^ 20 + b])) ∧
      (bankReal b = true → bankKind b = 3 → x.power = .off → Yields (.atlPower k (.banks [b]) .on) s (fun u =>
        u.bank b = { x with power := .on, goal := some (.on, s.now + 4160) } ∧ others u ∧ u.atl.pinned = s.atl.pinned ∧ u.grid = s.grid ∧
        u.Running k 0x0E01 [2 ^ 20 + b])) ∧
      (∀ enable interval, 12 ≤ interval → interval ≤ 24 → Yields (.atlSoundCfg k enable interval) s (fun u =>
        u.Follows { s with atl := { s.atl with enabled := enable, interval := interval } } ∧ u.Answered k 0x0F10 .ok [])) ∧
      (bankReal b = true → Yields (.atlBankQuery k b) s (fun u => u.Follows s ∧ ∃ power rest, u.Answered k 0x0F11 .ok
        (power :: ((List.range (bankSubs b)).map (fun i => wd (x.spares i)) ++ rest ++ [wd x.region, wd x.phase.code]))))) ∧
    (SMap.rising none s.grid.tiles = true → Yields (.atlPowerDone cc) s (fun u => ∀ t, u.tile t =
      { s.tile t with goal := if goalDue cc (s.tile t).goal then none else (s.tile t).goal })) ∧
    (bankReal b = true → s.atl.enabled = true → x.phase = .idle → s.bankPower b = .on → (bankKind b = 5 → s.atl.wiping = false) → s.walkerRuns b = true →
      (∀ c, x.began = some c → c + 2 ^ s.atl.interval ≤ cc) → Yields (.soundingRegionStart b cc) s (fun u =>
      u.bank b = { x with phase := .save, began := some cc } ∧ others u)) ∧
    (∀ hard, (x.phase = .save → Yields (.soundingPhase b [] hard cc) s (fun u => u.bank b = { x with phase := .test } ∧ others u)) ∧
      (x.phase = .test → Yields (.soundingPhase b [] hard cc) s (fun u => u.bank b = { x with phase := .restore } ∧ others u)) ∧
      (∀ sub col, sub < bankSubs b → col < 72 → x.phase = .test → Yields (.soundingPhase b [(sub, col)] hard cc) s (fun u => (u.bank b).phase = .restore ∧
        u.atl.fault = ⟨b, sub, col, hard, true⟩ ∧ u.atl.faults = satInc s.atl.faults)) ∧
      (x.phase = .restore → x.region + 1 < bankRegions b → Yields (.soundingPhase b [] hard cc) s (fun u =>
        u.bank b = { x with phase := .idle, region := x.region + 1, passes := x.passes } ∧ others u)) ∧
      (x.phase = .restore → bankRegions b ≤ x.region + 1 → Yields (.soundingPhase b [] hard cc) s (fun u =>
        u.bank b = { x with phase := .idle, region := 0, passes := x.passes + 1 } ∧ others u ∧ u.atl.passes = satInc s.atl.passes))) ∧
    (s.atl.wiping = true → s.crt.changing = none →
      let v : State := { s with atl := { s.atl with wiping := false, verifyOk := true }, cmp := { s.cmp with mgmt := { s.cmp.mgmt with key := none } } }
      (s.tampered = true → Yields (.secureWipeDone true) s (fun u => u = v)) ∧
      (s.tampered = false → Yields (.secureWipeDone true) s (fun u => u = v.loadKey)))

/-! ### Compass (R2, R27, R28, R461 to R489) -/

/-- R475 to R483, R485: the commands of Compass: identity, rings, partitions, descriptor queues, the management port and time. R25: a partition takes a
tile and a sub-port whatever their regions of control. A digest of the EEPROM that failed is not in
force for MODULE_IDENTITY here. -/
def Obligations.CompassCommands : Prop :=
  ∀ (s : State) (k : Kci), s.Open k →
    let f := k.src.fnIdx
    (s.cmp.idFault = false → Yields (.moduleIdentity k) s (fun u => u.Follows s ∧ u.Answered k 0x0101 .ok (leWords 5 (padTo 40 0 (s.cmp.eeprom.readN 0 34))))) ∧
    (∀ offset len dest, 1 ≤ len → len ≤ 256 →
      (offset + len ≤ 8192 → Yields (.idmemRead k 0 offset len dest) s (fun u => u.hostMem f = (s.hostMem f).writeN dest (s.cmp.eeprom.readN offset len) ∧
        u.cmp.eeprom = s.cmp.eeprom ∧ u.Answered k 0x0102 .ok [])) ∧
      (offset + len ≤ 256 → Yields (.idmemRead k 1 offset len dest) s (fun u => u.hostMem f = (s.hostMem f).writeN dest (s.cmp.coldPlate.readN offset len) ∧
        u.cmp.coldPlate = s.cmp.coldPlate ∧ u.Answered k 0x0102 .ok [])) ∧
      (256 < offset + len → Yields (.idmemRead k 1 offset len dest) s (fun u => u.Follows s ∧ u.Answered k 0x0102 .addrRange []))) ∧
    (k.mbox = true → k.src = .pf → s.ringInflight .pf = 0 →
      (∀ cmd evt vec, ringLog cmd = 0 → Yields (.kciRingsSet k cmd evt vec) s (fun u => (u.fn 0).rings = false ∧ (u.fn 0).cmdBase = 0 ∧ (u.fn 0).evtBase = 0 ∧
        (u.fn 0).held = (s.fn 0).held ∧ (∀ g, g ≠ 0 → u.fn g = s.fn g) ∧ u.Answered k 0x0201 .ok [])) ∧
      (∀ cmd evt vec : Word, (s.fn 0).held = [] → (s.fn 0).lost = 0 → 6 ≤ ringLog cmd → ringLog cmd ≤ 16 → 7 ≤ ringLog evt → ringLog evt ≤ 16 →
        bits cmd 11 5 = 0 → bits evt 11 5 = 0 → bits vec 63 10 = 0 → Yields (.kciRingsSet k cmd evt vec) s (fun u => u.fn 0 = { s.fn 0 with rings := true, cmdBase := ringBase cmd, cmdLog := ringLog cmd, evtBase := ringBase evt, evtLog := ringLog evt, evtVector := bits vec 9 0, cmdTail := 0, cmdHead := 0, evtTail := 0, evtHead := 0 } ∧
          (∀ g, g ≠ 0 → u.fn g = s.fn g) ∧ u.Answered k 0x0201 .ok []))) ∧
    (∀ p train, p < 64 →
      (s.tampered = false → s.crt.lc = .provisioned ∨ s.crt.lc = .deployed → s.partExists p = false → Yields (.partCreate k p train) s (fun u =>
        u.partMode p = { s.partMode p with assigned := true, train := train } ∧ (∀ q, q ≠ p → u.partMode q = s.partMode q) ∧ u.grid = s.grid ∧ u.Answered k 0x0202 .ok [])) ∧
      (s.partExists p = true → Yields (.partCreate k p train) s (fun u => u.Follows s ∧ ∃ st, st ≠ Status.ok ∧ u.Answered k 0x0202 st [])) ∧
      (s.partExists p = true →
        ((s.enter k 0x0204).partBusy p = false → Yields (.partModeSet k p train) s (fun u => u.partMode p = { s.partMode p with train := train } ∧
          (∀ q, q ≠ p → u.partMode q = s.partMode q) ∧ u.Answered k 0x0204 .ok [])) ∧
        Yields (.partStop k p) s (fun u => u.Follows ((s.enter k 0x0205).partStop p) ∧ u.Answered k 0x0205 .ok []) ∧
        Yields (.partDestroy k p) s (fun u => u.Follows ((s.enter k 0x0206).partDestroy p).st) ∧
        Yields (.partQuery k p) s (fun u => u.Follows s ∧ u.Answered k 0x0207 .ok (s.partQuery p)) ∧
        (∀ t, t < 1024 → (s.tile t).state = .ready → (s.tile t).part = none → (s.tile t).joining = none → t / 256 ∉ s.flt.downDies →
          let res : PartRes := { tiles := [t], subs := [], firstQ := 0, numQ := 0 }
          ((s.tile t).lastPart = some p → Yields (.partAssign k p true res) s (fun u => u.tile t = { s.tile t with part := some p } ∧
            (∀ v, v ≠ t → u.tile v = s.tile v) ∧ u.Answered k 0x0203 .ok [])) ∧
          ((s.tile t).lastPart ≠ some p → (∀ e ∈ s.cfl.groups, t ∉ e.2.d.tiles) → Yields (.partAssign k p true res) s (fun u => (u.tile t).state = .reset ∧
            (u.tile t).clearing = true ∧ (u.tile t).joining = some p ∧ (∀ v, v ≠ t → u.tile v = s.tile v) ∧ u.Running k 0x0203 [t]))) ∧
        (∀ t l, t < 1024 → (s.tile t).state = .ready → (s.tile t).part = none → (s.tile t).joining = none → t / 256 ∉ s.flt.downDies → (s.tile t).lastPart = some p →
          s.subExists l = true → (s.sub l).state = .disabled → lportDie l ∉ s.flt.downDies →
          Yields (.partAssign k p true { tiles := [t], subs := [l], firstQ := 0, numQ := 0 }) s (fun u => (u.tile t).part = some p ∧ (u.sub l).cfg.part = some p ∧
            u.Answered k 0x0203 .ok [])) ∧
        (∀ t, t < 1024 → (s.tile t).part = some p → (s.tile t).state = .ready → Yields (.partAssign k p false { tiles := [t], subs := [], firstQ := 0, numQ := 0 }) s (fun u =>
          (u.tile t).part = none ∧ (u.tile t).scratch = (s.tile t).scratch ∧ (∀ v, v ≠ t → u.tile v = s.tile v) ∧ u.Answered k 0x0203 .ok [])))) ∧
    (∀ q base log vector p, q < 16384 → base % 4096 = 0 → 4 ≤ log → log ≤ 16 → vector ≤ 15 → k.part = some p → (s.queue q).part = some p → (s.queue q).state ≠ .stopped →
      Yields (.dmaqSet k q base log vector true) s (fun u => u.queue q = { s.queue q with head := 0, tail := 0, skip := [], fn := f, base := base, log := log, vector := vector, cur := none, waits := [], st := .ok, state := .idle } ∧
        (∀ r, r ≠ q → u.queue r = s.queue r) ∧ u.Answered k 0x0208 .ok [])) ∧
    (∀ addr len udp permitted notices, permitted.length ≤ 8 → len ≤ 128 → udp ≤ 65535 → Yields (.mgmtPortSet k addr len udp permitted notices) s (fun u =>
      u.cmp.mgmt = { s.cmp.mgmt with addr := addr, pfxLen := len, udpPort := udp, permitted := permitted, notices := notices, portSet := true } ∧ u.Answered k 0x0230 .ok [])) ∧
    (∀ key : List Byte, key.length = 32 → s.atl.wiping = false → Yields (.mgmtKeySet k key) s (fun u => u.cmp.mgmt = { s.cmp.mgmt with key := some key } ∧ u.Answered k 0x0231 .ok [])) ∧
    (∀ domain, domain ≤ 127 →
      (s.cmp.ptp.state = .disabled → Yields (.ptpSet k true domain) s (fun u => u.cmp.ptp.state = .acquiring ∧ u.cmp.ptp.domain = domain ∧ u.Answered k 0x0232 .ok [])) ∧
      Yields (.ptpSet k false domain) s (fun u => u.cmp.ptp.state = .disabled ∧ u.cmp.ptp.domain = domain ∧ u.Answered k 0x0232 .ok [])) ∧
    Yields (.timeQuery k) s (fun u => u.Follows s ∧ u.Answered k 0x0233 .ok [wd s.cmp.ptp.pairTb, wd s.cmp.ptp.pairPtp, wd s.cmp.ptp.state.code])

/-- R6, R20, R27, R175, R461 to R474, R480 to R489, R543: the events of Compass. A doorbell, the freeing of event slots and a mailbox GO act within their bounds and raise ACCESS_ERROR
outside them. One descriptor is accepted from the first source of the rotation that has one: a mailbox before a ring, a ring in its order. A completion waits for room in the event
ring and behind immediate ones of its source; it goes to the mailbox, the event ring, or the management requester. A deferred vector is sent after 1 µs; a descriptor queue whose turn
it is has its turn; the HOST service writes or discards a request; a management datagram is accepted, answered again, or dropped; PTP locks after 16 measurements in range, holds over,
acquires again, and latches its pair. A Function Level Reset, and the host link going down, tear rings and queues down. Compass restarts and is READY again; surveyors restart and
deliver. Host writes go to the register's owner, bad accesses raise ACCESS_ERROR, but for 32-bit ones to the MSI-X table, whose half takes a free value on a write (the model's choice,
log 77); bridges retry and remap lanes. -/
def Obligations.CompassEvents : Prop :=
  ∀ (s : State) (f cc : Nat) (v : Word), s.now ≤ cc →
    let x := s.fn f
    let w := s.at cc
    let only := fun (y : FnState) (u : State) => u.fn f = y ∧ (∀ g, g ≠ f → u.fn g = s.fn g) ∧ u = { s with cmp := { s.cmp with fns := u.cmp.fns } }
    (let used := ringUsed (bits v 16 0) x.cmdHead;
      (x.rings = true → used ≤ 2 ^ x.cmdLog → Yields (.cmdDoorbell f v) s (only { x with cmdTail := bits v 16 0 })) ∧
      (x.rings = false ∨ 2 ^ x.cmdLog < used → Yields (.cmdDoorbell f v) s (fun u => u = s.accessError 0x18 (fnPart f)))) ∧
    (let keeps := ringUsed x.evtTail (bits v 16 0) ≤ ringUsed x.evtTail x.evtHead;
      (x.rings = true → keeps → Yields (.evtHeadWrite f v) s (fun u => u = (s.setFn f { x with evtHead := bits v 16 0 }).flushNotices 257 f ∧
        (x.held = [] → x.lost = 0 → only { x with evtHead := bits v 16 0 } u))) ∧
      (x.rings = false ∨ ¬keeps → Yields (.evtHeadWrite f v) s (fun u => u = s.accessError 0x30 (fnPart f)))) ∧
    ((bit v 0 = false → Yields (.mboxGo f v) s (fun u => u = s)) ∧
      (bit v 0 = true → x.mboxBusy = false → Yields (.mboxGo f v) s (only { x with mboxGo := true, mboxBusy := true })) ∧
      (bit v 0 = true → x.mboxBusy = true → Yields (.mboxGo f v) s (fun u => u = s.accessError 0x80 (fnPart f)))) ∧
    (s.cmp.state = .ready → s.owesRestart = false →
      (s.nextDescriptor 66 = none → Yields .commandAccept s (fun u => u = s)) ∧
      (∀ i mbox d t, s.nextDescriptor 66 = some (i, mbox, d, t) → i < 66 ∧ s.takeDescriptor (turnSource i) = some (mbox, d, t) ∧
        Yields .commandAccept s (fun u => u.cmp.turn = (i + 1) % 66 ∧
          (∃ q, u.cmp.inflight = s.cmp.inflight ++ [{ s.acceptRecord (turnSource i) mbox d with seq := q }]) ∧
          u = { t with cmp := { t.cmp with turn := u.cmp.turn, inflight := u.cmp.inflight } })) ∧
      (f < 65 → x.mboxGo = true → s.takeDescriptor (turnSource f) = some (true, padTo 8 0 x.mboxCmd, s.setFn f { x with mboxGo := false })) ∧
      (f < 65 → x.mboxGo = false → x.rings = true → x.busMaster = true → x.cmdHead ≠ x.cmdTail → ringUsed x.cmdTail x.cmdHead ≤ 2 ^ x.cmdLog →
        s.ringInflight (turnSource f) < 4096 → s.takeDescriptor (turnSource f) = some (false,
          (s.hostMem f).words (x.cmdBase + 64 * (x.cmdHead % 2 ^ x.cmdLog)) 8, s.setFn f { x with cmdHead := (x.cmdHead + 1) % 2 ^ 17 })) ∧
      (∀ q d rest, s.cmp.mgmtQueue = (q, d) :: rest → s.takeDescriptor (turnSource 65) = some (false, d, { s with cmp := { s.cmp with mgmtQueue := rest } })) ∧
      (∀ k, k < 66 → s.takeDescriptor (turnSource ((s.cmp.turn + k) % 66)) ≠ none → (∀ j, j < k → s.takeDescriptor (turnSource ((s.cmp.turn + j) % 66)) = none) →
        ∃ mbox d t, s.nextDescriptor 66 = some ((s.cmp.turn + k) % 66, mbox, d, t))) ∧
    (∀ src mbox tag pre r post, s.cmp.state = .ready → s.cmp.inflight = pre ++ r :: post → (∀ q ∈ pre, InFlight.isDone src mbox tag q = false) →
      InFlight.isDone src mbox tag r = true →
      let y := s.fn src.fnIdx
      let passes := r.immediate = true → ∀ q ∈ pre, q.src = src → q.stage ≠ .waiting ∧ ¬(q.immediate = true ∧ q.stage = .done)
      let done := if r.owesItin then s.itinCommand r.opcode r.acts src.code r.status r.words (r.itin.getD []) else s
      let rest := done.setInflight (pre ++ post)
      (r.owesItin = true → s.ringFull = false) →
      (src ≠ .mgmt → mbox = true → passes → Yields (.commandComplete src mbox tag) s (fun u =>
        u = rest.setFn src.fnIdx { rest.fn src.fnIdx with mboxBusy := false, mboxResp := if r.discard then (rest.fn src.fnIdx).mboxResp else r.entry })) ∧
      (src ≠ .mgmt → mbox = false → passes → r.discard = false → y.rings = true → y.evtFull = false → r.owesItin = false →
        Yields (.commandComplete src mbox tag) s (fun u => u = rest.postEvent src.fnIdx r.entry)) ∧
      (src ≠ .mgmt → mbox = false → r.discard = false → y.rings = true → y.evtFull = true → Yields (.commandComplete src mbox tag) s (fun u => u = s)) ∧
      (src = .mgmt → passes → Yields (.commandComplete src mbox tag) s (fun u => u = rest.mgmtRespond r)) ∧
      (¬passes → Yields (.commandComplete src mbox tag) s (fun u => u = s))) ∧
    (∀ vector, vector ∈ x.msixWait →
      (x.lastMsix.lookD vector 0 + 1875 ≤ cc → Yields (.msixDeferred f vector cc) s (fun u => u.out = s.out ++ [.msix f vector] ∧
        u.fn f = { x with msixWait := x.msixWait.filter (· ≠ vector), lastMsix := x.lastMsix.put vector cc } ∧ (∀ g, g ≠ f → u.fn g = s.fn g) ∧
        u = { w with out := u.out, cmp := { s.cmp with fns := u.cmp.fns } })) ∧
      (cc < x.lastMsix.lookD vector 0 + 1875 → Yields (.msixDeferred f vector cc) s (fun u => u = w))) ∧
    (∀ q, (s.dmaNext ≠ some q → Yields (.dmaqDescriptor q) s (fun u => u = s)) ∧
      (s.dmaNext = some q → (s.queue q).part = none → (s.queue q).cur = none →
        let words := s.dmaWords (s.queue q) (s.queue q).head
        let turn : State := { s with cmp := { s.cmp with dmaTurn := q } }
        (dmaFields words = false → Yields (.dmaqDescriptor q) s (fun u => u = turn.dmaEnd q (dmaDesc words) .badOperand))) ∧
      (s.dmaNext = some q → Yields (.dmaqDescriptor q) s (fun u => u = ((s.queue q).part.toList.foldl State.stir s).dmaTurn q))) ∧
    (∀ q, let y := s.queue q
      let t := bits v 16 0
      let mine := f = 0 ∨ y.part = some (f - 1)
      (mine → y.state ≠ .disabled → ringUsed t y.head ≤ 2 ^ y.log → Yields (.dmaqDoorbell f q v) s (fun u =>
        u.queue q = { y with tail := t, state := if y.state = .idle ∧ t ≠ y.head then .active else y.state } ∧ (∀ r, r ≠ q → u.queue r = s.queue r) ∧
        u = { s with cmp := { s.cmp with dmaq := u.cmp.dmaq } })) ∧
      (¬mine ∨ y.state = .disabled ∨ 2 ^ y.log < ringUsed t y.head → Yields (.dmaqDoorbell f q v) s (fun u =>
        u = s.accessError ((if f = 0 then 0x400000 else 0x40000) + 16 * q) (fnPart f)))) ∧
    (∀ t m rest, takeFirst (fun (m : MeshMsg) => !m.srcGw && m.destGw && m.dest = 4 && coord m.src = t) s.grid.mesh = some (m, rest) →
      let u := fun i => nth m.header (i + 1) 0
      let t' : State := { s with grid := { s.grid with mesh := rest } }
      let written := t'.hostWrite (m.part + 1) (u 0).toNat (m.payload.take (bits (u 1) 12 0))
      (s.hostRefuses m = none → Yields (.hostWriteRequest t) s (fun y =>
        y = if bit (u 1) 13 then written.rawMsix (m.part + 1) (bits (u 1) 17 14) else written)) ∧
      (∀ c, s.hostRefuses m = some c → Yields (.hostWriteRequest t) s (fun y => y = t'.hostDrop t m.part c))) ∧
    (∀ a b bytes, let m := s.cmp.mgmt;
      (m.key = none → Yields (.mgmtDatagram a b bytes) s (fun u => u = s)) ∧
      ∀ key, m.key = some key → m.portSet = true → s.cmp.state ≠ .failed →
        let good := a ∈ m.permitted ∧ bytes.length = 88 ∧ kmac256 key (bytes.take 72) 16 "KCI-MGMT" = bytes.drop 72
        let seq := ofLe (bytes.take 8)
        let again := m.requests.find? (fun q => q.seq = seq && q.request = bytes)
        (¬good → Yields (.mgmtDatagram a b bytes) s (fun u => u = s.mgmtDrop a)) ∧
        (∀ q old, good → again = some q → q.response = some old → Yields (.mgmtDatagram a b bytes) s (fun u => u = s.emit (.mgmt a b old))) ∧
        (∀ l, good → again = none → m.lastSeq = some l → seq ≤ l → Yields (.mgmtDatagram a b bytes) s (fun u => u = s.mgmtDrop a)) ∧
        (good → again = none → (∀ l, m.lastSeq = some l → l < seq) → Yields (.mgmtDatagram a b bytes) s (fun u =>
          u.cmp.mgmtQueue = s.cmp.mgmtQueue ++ [(seq, leWords 8 ((bytes.drop 8).take 64))] ∧ u.cmp.mgmt.lastSeq = some seq ∧
          u = { s with cmp := { s.cmp with mgmt := { m with lastSeq := some seq, requests := u.cmp.mgmt.requests }, mgmtQueue := u.cmp.mgmtQueue } }))) ∧
    (let p := s.cmp.ptp;
      (p.state = .disabled → (∀ off, Yields (.ptpMessageReceive off cc) s (fun u => u = w)) ∧ Yields (.ptpSyncMissing cc) s (fun u => u = w)) ∧
      (p.state ≠ .disabled →
        (∀ off : Int, let y := { p with offset := off, good := if off.natAbs ≤ 1000 then p.good + 1 else 0, time := ((w.ptpTime : Int) - off).toNat, setAt := cc };
          (y.good < 16 → Yields (.ptpMessageReceive off cc) s (fun u => u.cmp.ptp = y ∧ u = { w with cmp := { w.cmp with ptp := u.cmp.ptp } })) ∧
          (16 ≤ y.good → Yields (.ptpMessageReceive off cc) s (fun u => u.cmp.ptp.state = .locked ∧ u.cmp.ptp.offset = off ∧ u.grid = s.grid))) ∧
        Yields (.ptpSyncMissing cc) s (fun u => u.cmp.ptp.state = .holdover ∧ u.grid = s.grid) ∧
        (p.state = .holdover → p.since + 60 * 1875000000 ≤ cc → Yields (.ptpHoldoverTimeout cc) s (fun u => u.cmp.ptp.state = .acquiring ∧ u.grid = s.grid)) ∧
        (w.ptpTime % 1000000000 = 0 → Yields (.ptpSecondLatch cc) s (fun u => u = { w with cmp := { w.cmp with ptp := { p with pairTb := w.timebase, pairPtp := w.ptpTime } } })))) ∧
    (∀ code, (s.pwr.state ≠ .off → Yields (.bmcRead code) s (fun u => u = { s with out := s.out ++ [.bmc (s.bmcAnswer code)] })) ∧
      (s.pwr.state = .off → Yields (.bmcRead code) s (fun u => u = s))) ∧
    Yields (.functionLevelReset f) s (fun u =>
      u.fn f = { x with
        rings := false, inFlr := true, cmdBase := 0, cmdLog := 0, evtBase := 0, evtLog := 0, evtVector := 0, cmdTail := 0, cmdHead := 0, evtTail := 0, evtHead := 0,
        held := (u.fn f).held, lost := (u.fn f).lost } ∧ (f ≠ 0 → (u.fn f).held = [] ∧ (u.fn f).lost = 0) ∧
      (∀ g, g ≠ f → u.fn g = s.fn g) ∧ (∀ r ∈ u.cmp.inflight, r.src ≠ .mgmt → r.src.fnIdx = f → r.discard = true) ∧
      (∀ e ∈ u.cmp.dmaq, e.2.part.isSome = true → e.2.fn = f → e.2.state = .disabled) ∧
      u = { s with cmp := { s.cmp with fns := u.cmp.fns, inflight := u.cmp.inflight, dmaq := u.cmp.dmaq } }) ∧
    Yields .hostLinkDown s (fun u => u.cmp.linkUp = false ∧ (∀ g, g < 65 → (u.fn g).rings = false ∧ (u.fn g).inFlr = true) ∧ u.grid = s.grid) ∧
    (∀ gen5, Yields (.hostLinkUp gen5) s (fun u => u = { s with cmp := { s.cmp with linkUp := true, gen5 := gen5 } })) ∧
    (s.cmp.state = .ready → (s.cmp.restarts.filter (fun c => cc < c + seconds 10)).length < 2 → Yields (.compassWatchdog cc) s (fun u => u.cmp.state = .restarting ∧
      u.cmp.restartAt = cc ∧ u.cmp.restarts = (cc :: s.cmp.restarts).take 8 ∧ u.cmp.wdog = satInc s.cmp.wdog ∧ u.cmp.inflight = s.cmp.inflight ∧ u.grid = s.grid)) ∧
    (w.mgmtFails = false →
      (s.cmp.state = .booting → s.pwr.state = .on → s.pwr.inReset = false → Yields (.compassReady cc) s (fun u => u = w.bootDone)) ∧
      (s.cmp.state = .restarting → Yields (.compassReady cc) s (fun u => u = w.restartDone))) ∧
    (∀ d r, let i := 8 * d + r
      let q := s.lay.region.lookD i {}
      (q.restarting = false → Yields (.regionSurveyorRestart d r cc) s (fun u => u.lay.region.lookD i {} = { q with restarting := true, since := cc } ∧
        (∀ j, j ≠ i → u.lay.region.look j = s.lay.region.look j) ∧ u.grid = s.grid)) ∧
      (q.restarting = true → q.held = [] → q.lost = 0 → Yields (.surveyorRestartDone d (some r)) s (fun u =>
        u = { s with lay := { s.lay with region := s.lay.region.put i {} } }))) ∧
    (∀ d, let q := s.lay.quad.lookD d {};
      (q.restarting = false → Yields (.quadrantSurveyorRestart d cc) s (fun u => (u.lay.quad.lookD d {}).restarting = true ∧ (u.lay.quad.lookD d {}).since = cc ∧
        (∀ j, j ≠ d → u.lay.quad.look j = s.lay.quad.look j) ∧ u.grid = s.grid)) ∧
      (q.restarting = true → q.held = [] → q.lost = 0 → Yields (.surveyorRestartDone d none) s (fun u =>
        u = { s with lay := { s.lay with quad := s.lay.quad.put d { q with restarting := false, since := 0 } } }))) ∧
    (f ≤ 64 → ∀ a,
      (a % 8 = 0 → Yields (.registerWrite f a v) s (fun u => u = if f = 0 then s.writePf a v else s.writeVf f a v)) ∧
      (a % 8 ≠ 0 → Yields (.registerWrite f a v) s (fun u => u = s.accessError a (fnPart f))) ∧
      (∀ width, (width ≠ 8 ∨ a % 8 ≠ 0) → ¬(width = 4 ∧ a % 4 = 0 ∧ msixWindow f a = true) →
        Yields (.registerBadAccess f a width true) s (fun u => u = s.accessError a (fnPart f)) ∧
        Yields (.registerBadAccess f a width false) s (fun u => u = (s.accessError a (fnPart f)).emit (.read f a (-1)))) ∧
      (a % 4 = 0 → msixWindow f a = true →
        Yields (.registerBadAccess f a 4 false) s (fun u => u = s.emit (.read f a (wd ((s.readReg f (a / 8 * 8)).toNat / 2 ^ (8 * (a % 8)) % 2 ^ 32)))) ∧
        Yields (.registerBadAccess f a 4 true) s (fun u => (∀ g, g ≠ f → u.fn g = s.fn g) ∧ u.fn f = { x with msixTab := (u.fn f).msixTab } ∧ u.grid = s.grid))) ∧
    (∀ i, i < 8 → x.mboxBusy = false → f ≤ 64 → Yields (.registerWrite f (0x40 + 8 * i) v) s (only { x with mboxCmd := x.mboxCmd.set i v })) ∧
    (∀ b fromSecond lane parts, let y := s.lay.bridges.lookD (BridgeKey b) {}
      let lanes := if fromSecond then y.second else y.first
      Yields (.bridgeRetry b parts) s (fun u => u.lay.bridges.lookD (BridgeKey b) {} = { y with retries := satInc y.retries } ∧
        (∀ j, j ≠ BridgeKey b → u.lay.bridges.look j = s.lay.bridges.look j) ∧ u.grid = s.grid) ∧
      (lane ∈ lanes → Yields (.bridgeLaneFailure b fromSecond lane parts) s (fun u => u = s)) ∧
      (lane ∉ lanes → lanes.length < 4 → Yields (.bridgeLaneFailure b fromSecond lane parts) s (fun u =>
        u.lay.bridges.lookD (BridgeKey b) {} = (if fromSecond then { y with second := y.second ++ [lane] } else { y with first := y.first ++ [lane] }) ∧
        (∀ j, j ≠ BridgeKey b → u.lay.bridges.look j = s.lay.bridges.look j) ∧ u.flt.cause = s.flt.cause ∧ u.fab.subs = s.fab.subs ∧ u.grid = s.grid)))

/-! ### Cartouche (R449, R490 to R518) -/

/-- R490 to R518: life cycle, identity, tamper, firmware, settings, attestation, and the export of the Itinerary. What the random source gives and what the signature scheme computes are
not fixed (log 2, log 9).
R491, R499, R500, R509, R514, R516: the ten seconds of an armed transition, a tamper source that trips, the journal, the end of the copy that a FW_ACTIVATE began (whether it
verifies is a free value), and the fallback of a MGMT image. -/
def Obligations.CartoucheCommands : Prop :=
  (
  ∀ (s : State) (k : Kci), s.Open k →
    let f := k.src.fnIdx
    let c := s.crt
    let i := s.crt.itin
    Yields (.lcQuery k) s (fun u => u.Follows s ∧ u.Answered k 0x0110 .ok [wd (lcCode c.lc), wd (flag 0 c.loaded.isSome), wd (flag 0 c.certDone), wd c.svn]) ∧
    (∀ dest, (c.lc = .blank → s.atl.wiping = false → Yields (.lcProvision k dest) s (fun u => u.Follows ((s.enter k 0x0111).provision k dest) ∧ u.crt.lc = .provisioned ∧
        u.crt.loaded ≠ none ∧ u.crt.wrapped ≠ none ∧ u.Answered k 0x0111 .ok [])) ∧
      (c.lc ≠ .blank → Yields (.lcProvision k dest) s (fun u => u.Follows s ∧ u.Answered k 0x0111 .lcState []))) ∧
    (∀ addr len chain, chain = s.hostRead f addr len → c.lc = .provisioned → len ≤ 8192 →
      let short := Config.certCount chain < 2 ∨ 4 < Config.certCount chain
      let bad := Config.certKey chain ≠ c.pubKey ∨ Config.certSerial chain ≠ s.serial ∨ Config.certChainOk chain = false
      Yields (.lcCertInstall k addr len) s (fun u => u.Follows (if short ∨ bad then s else s.setCrt { c with certs := chain, certDone := true }) ∧
        u.Answered k 0x0112 (if short then .badOperand else if bad then .sigInvalid else .ok) [])) ∧
    (∀ target, Yields (.lcTransitionArm k target) s (fun u => ∃ ch : List Byte, ch.length = 16 ∧
        u.Follows { s with crt := { c with arm := some ⟨target, ch, s.now⟩ }, free := s.free + 1 } ∧ u.Answered k 0x0113 .ok (leWords 2 ch)) ∧
      ∀ ch a, s.tampered = false → lcNext c.lc target = true → s.lcReady target = true →
        (c.arm = some a → a.target = target → a.challenge = ch → s.now < a.at_ + 18750000000 → Yields (.lcTransition k target ch) s (fun u =>
          u.Follows ((s.enter k 0x0114).lcChange k target) ∧ u.crt.lc = target ∧ u.atl.wiping = true ∧ u.crt.loaded = none ∧ u.Running k 0x0114 [0])) ∧
        (c.arm = none → Yields (.lcTransition k target ch) s (fun u => u.Follows s ∧ u.Answered k 0x0114 .badOperand []))) ∧
    (∀ dest, c.certDone = true → Yields (.certRead k dest) s (fun u => u.hostMem f = (s.hostMem f).writeN dest c.certs ∧ u.crt = c ∧ u.Answered k 0x0115 .ok [])) ∧
    Yields (.tamperQuery k) s (fun u => u.Follows s ∧ u.Answered k 0x0116 .ok [wd c.latched, wd c.live, wd c.tampers]) ∧
    (k.src = .pf →
      (c.live = 0 → Yields (.tamperClear k) s (fun u => u.crt.latched = 0 ∧ u.crt.suspect = false ∧ u.crt.tampers = c.tampers ∧ u.Answered k 0x0117 .ok [])) ∧
      (c.live ≠ 0 → Yields (.tamperClear k) s (fun u => u.Follows s ∧ u.Answered k 0x0117 .tampered []))) ∧
    (s.tampered = false → c.stage ≠ .activating →
      (∀ len, len ≤ 33554432 → Yields (.fwStageBegin k len) s (fun u => u.Follows (s.setCrt { c with staging := [], stageLen := len, stage := .writing }) ∧ u.Answered k 0x0B01 .ok [])) ∧
      (∀ offset src len, c.stage = .writing → offset % 4096 = 0 → len ≤ 1048576 → offset + len ≤ c.stageLen → Yields (.fwStageWrite k offset src len) s (fun u =>
        u.Follows (s.setCrt { c with staging := c.staging.writeN offset (s.hostRead f src len) }) ∧ u.Answered k 0x0B02 .ok [])) ∧
      (c.stage = .writing → let st := if c.stageLen = 0 then Status.imageInvalid else s.checkPackage 6 [] s.stagedBytes
        Yields (.fwStageVerify k) s (fun u => u.Follows (s.setCrt { c with stage := if st = .ok then .verified else .invalid }) ∧ u.Answered k 0x0B03 st [])) ∧
      (c.stage = .verified → Yields (.fwActivate k) s (fun u => u.Follows (s.setCrt { c with stage := .activating, copying := true }) ∧ u.Running k 0x0B04 [0])) ∧
      (c.stage = .empty → Yields (.fwActivate k) s (fun u => u.Follows s ∧ u.Answered k 0x0B04 .imageInvalid [])) ∧
      Yields (.fwQuery k) s (fun u => u.Follows s ∧ u.Answered k 0x0B05 .ok
        (((packageImages 6 s.stagedBytes ++ c.pending.vals ++ c.active.vals ++ c.previous.vals).map (padTo 512 0)).flatMap (fun h => leWords 64 h))) ∧
      (∀ v, v ≤ 128 → (∀ b ∈ c.active.vals ++ c.pending.vals, v ≤ imgSvn b) → Yields (.fwSvnCommit k v) s (fun u =>
        u.Follows (s.setCrt { c with svn := max c.svn v, previous := c.previous.keep (fun _ b => v ≤ imgSvn b) }) ∧ u.Answered k 0x0B06 .ok []))) ∧
    (s.tampered = false →
      Yields (.settingsSave k) s (fun u => u.Follows (s.setCrt { c with settings := some (s.settingsFmt, s.configEntries.map (fun e => (e.opcode, e.words))) }) ∧ u.Answered k 0x0B07 .ok []) ∧
      Yields (.settingsClear k) s (fun u => u.Follows (s.setCrt { c with settings := none }) ∧ u.Answered k 0x0B08 .ok []) ∧
      (∀ nonce dest key, nonce.length = 32 → c.lc = .deployed → c.loaded = some key → Yields (.attest k nonce dest) s (fun u => u.crt = c ∧
        u.hostMem f = (s.hostMem f).writeN dest (s.attestBody nonce ++ padTo 114 0 (Config.ed448Sign key (ascii "PQ2480-ATTEST") (s.attestBody nonce))) ∧ u.Answered k 0x0C01 .ok []))) ∧
    (∀ dest maxLen, s.configRecord.length ≤ maxLen → Yields (.configExport k dest maxLen) s (fun u => u.hostMem f = (s.hostMem f).writeN dest s.configRecord ∧ u.crt = c ∧
      u.Answered k 0x0C02 .ok [wd s.configRecord.length])) ∧
    (∀ seq count dest es, count ≤ 65536 → s.itinHolds seq = true → es = (i.entries.filter (fun e => seq ≤ e.seq && e.seq < seq + count)).reverse →
      Yields (.itinExport k seq count dest) s (fun u => u.hostMem f = (s.hostMem f).writeN dest (es.flatMap (·.bytes)) ∧ u.crt = c ∧ u.Answered k 0x0C03 .ok [wd es.length])) ∧
    (∀ seq, seq < i.next → Yields (.itinExportAck k seq) s (fun u => u.crt.itin.acked = max i.acked seq ∧ u.crt.itin.entries = i.entries ∧ u.crt.itin.next = i.next ∧
      u.Answered k 0x0C04 .ok [])) ∧
    Yields (.itinCheckpoint k) s (fun u => u.Follows (s.enter k 0x0C05).checkpoint ∧ u.crt.itin.ckptNext = i.ckptNext + 1 ∧ u.crt.itin.since = 0 ∧ u.Answered k 0x0C05 .ok [wd i.ckptNext]) ∧
    (∀ number dest p, i.ckpts.find? (fun p => p.number = number) = some p → Yields (.itinCkptRead k number dest) s (fun u => u.hostMem f = (s.hostMem f).writeN dest p.bytes ∧
      u.crt = c ∧ u.Answered k 0x0C06 .ok []))) ∧ (
  ∀ (s : State) (cc : Nat), s.now ≤ cc →
    let c := s.crt
    (∀ a, c.arm = some a →
      (a.at_ + 18750000000 ≤ cc → Yields (.lcArmExpiry cc) s (fun u => u = (s.at cc).setCrt { c with arm := none })) ∧
      (cc < a.at_ + 18750000000 → Yields (.lcArmExpiry cc) s (fun u => u = s.at cc))) ∧
    (∀ source readings, source < 6 → s.pwr.state ≠ .off → Yields (.tamperTrip source readings) s (fun u =>
      u.crt.latched = (if c.latched.testBit source then c.latched else c.latched + 2 ^ source) ∧ u.crt.tampers = min 65535 (c.tampers + 1) ∧ u.crt.loaded = none ∧
      u.crt.stage = .invalid ∧ u.atl.wiping = true ∧ u.cmp.mgmt.key = none ∧ u.flt.cause ≠ 0)) ∧
    Yields .itinJournalWrite s (fun u => u = s.setCrt { c with itin := { c.itin with durable := min c.itin.next (c.itin.durable + 32) } }) ∧
    (c.copying = true → s.cmp.state = .ready →
      let t := { s with free := s.free + 1 }.setCrt { c with copying := false }
      s.fwCopied = t.fwMove ∨ (s.fwCopied.crt = { c with copying := false, stage := if c.stage = .activating then .verified else c.stage } ∧ s.fwCopied.grid = s.grid)) ∧
    (∀ b, (s.at cc).mgmtFails = true → c.previous.look 2 = some b → c.svn ≤ imgSvn b → Yields (.mgmtFallback cc) s (fun u => u.crt.active.look 2 = some b ∧
      u.crt.fallback = true ∧ u.crt.mgmtSince = none ∧ u.cmp.restarts = [] ∧ u.grid = s.grid)))

/-! ### Faults and recovery, power (R521 to R561) -/

/-- R523, R527 to R535: fencing and unfencing, isolation, the teardown of a job, the fault log and map, the tile test. -/
def Obligations.FaultCommands : Prop :=
  ∀ (s : State) (k : Kci), s.Open k →
    let f := k.src.fnIdx
    (∀ ls, ls ≠ [] → ls.length ≤ 64 → (∀ l ∈ ls, s.subExists l = true) →
      ((∀ l ∈ ls, (s.sub l).state ≠ .disabled) → Yields (.fencePort k ls) s (fun u => u.Follows ((s.enter k 0x0D01).fenceList ls) ∧ u.Answered k 0x0D01 .ok [])) ∧
      ((∀ l ∈ ls, (s.sub l).state = .fenced ∧ s.heldDown l = false) → s.crt.lc ≠ .returned → s.crt.lc ≠ .decommissioned → s.flt.cause = 0 → (∀ l ∈ ls, lportDie l ∉ s.flt.downDies) → Yields (.unfencePort k ls) s (fun u =>
        (∀ l ∈ ls, (u.sub l).state = .training ∧ (u.sub l).attempts = 0) ∧ (∀ m, m ∉ ls → u.sub m = s.sub m) ∧ u.Answered k 0x0D02 .ok []))) ∧
    (∀ tiers depth, 1 ≤ depth → depth ≤ 5 → tiers < 2 ^ 40 → s.flt.isolation = [] → Yields (.isolatePeer k tiers depth) s (fun u => u.flt.isolation = [(tiers, depth)] ∧
      u.Answered k 0x0D03 .ok [])) ∧
    (∀ tiers depth, (∃ e ∈ s.flt.isolation, e.2 = depth ∧ tiersMatch depth (256 * e.1) (256 * tiers) = true) → Yields (.releasePeer k tiers depth) s (fun u =>
      (∀ e ∈ u.flt.isolation, e ∈ s.flt.isolation ∧ ¬(e.2 = depth ∧ tiersMatch depth (256 * e.1) (256 * tiers) = true)) ∧ u.Answered k 0x0D04 .ok [])) ∧
    (∀ job, job < 65536 → Yields (.jobTeardown k job) s (fun u => u.Follows ((s.enter k 0x0D05).jobTeardown job).st ∧
      u.Answered k 0x0D05 .ok ((s.enter k 0x0D05).jobTeardown job).result)) ∧
    (∀ first count dest es, es = (s.flt.log.drop first).take count → Yields (.faultLogRead k first count dest) s (fun u =>
      u.hostMem f = (s.hostMem f).writeN dest (es.flatMap FaultEntry.bytes) ∧ u.flt = s.flt ∧ u.Answered k 0x0D06 .ok [wd es.length])) ∧
    (∀ tiles : List Nat, (∀ t ∈ tiles, t < 1024 ∧ (s.tile t).state = .ready) → Yields (.tileTest k tiles []) s (fun u =>
      (∀ t ∈ tiles, u.tile t = { s.tile t with scratch := [], bad := [], soft := [] }) ∧ (∀ t, t ∉ tiles → u.tile t = s.tile t) ∧ u.flt = s.flt ∧
      u.Answered k 0x0F01 .ok (leWords 16 (tileMask [])))) ∧
    (∀ die dest, die < 5 → Yields (.faultMapRead k die dest) s (fun u => u.hostMem f = (s.hostMem f).writeN dest (wordBytes ((s.flt.faultMap.lookD die []).map MapEntry.word)) ∧
      u.flt = s.flt ∧ u.Answered k 0x0F02 .ok [wd (s.flt.faultMap.lookD die []).length]))

/-- R541 to R561: the power commands, the sequences, excursions, samples and resets of the module. -/
def Obligations.PowerModule : Prop :=
  ∀ (s : State) (cc : Nat), s.now ≤ cc →
    let p := s.pwr
    (∀ k : Kci, s.Open k →
      (∀ dest, Yields (.pwrQuery k dest) s (fun u => u.hostMem k.src.fnIdx = (s.hostMem k.src.fnIdx).writeN dest (wordBytes p.report) ∧ u.pwr = p ∧ u.Answered k 0x0E02 .ok [])) ∧
      (p.coldAt = none → Yields (.pwrReset k true) s (fun u => u.pwr = { p with coldAt := some (s.now + 18750000) } ∧ u.grid = s.grid ∧ u.Answered k 0x0E03 .ok [])) ∧
      (s.anyPart = false → Yields (.pwrReset k false) s (fun u => u.Follows ((s.enter k 0x0E03).powerRecord k 0x0E03).warmReset ∧ u.pwr.lastReset = 3 ∧ ((∀ x ∈ s.stk.uses, x.owner = 64) → u.stk.mem = s.stk.mem) ∧
        u.Answered k 0x0E03 .ok [])) ∧
      (s.anyPart = true → Yields (.pwrReset k false) s (fun u => u.Follows s ∧ u.Answered k 0x0E03 .partState [])) ∧
      Yields (.pwrOff k) s (fun u => u.Follows (((s.enter k 0x0E04).powerRecord k 0x0E04).powerDown 2) ∧ u.pwr.state = .poweringDown ∧ u.pwr.pwrGood = false)) ∧
    (∀ straps, p.state = .off → Yields (.vsbStart straps false cc) s (fun u => u.pwr.state = .standby ∧ u.pwr.since = cc ∧ u.pwr.pwrGood = false ∧
      u.pwr.straps = { i3c := straps.testBit 0, addr := fld straps 3 1, sris := straps.testBit 4 } ∧ u.crt.live = 0)) ∧
    (p.state = .standby → p.eepromBad = false → p.faultN = true → Yields (.pwrEnRise cc) s (fun u =>
      u.pwr = { p with pwrEn := true, lowSince := none, state := .ramping, since := cc, faultN := true })) ∧
    (p.state = .on → Yields (.pwrEnRise cc) s (fun u => u = { s.at cc with pwr := { p with pwrEn := true, lowSince := none } }) ∧
      Yields (.pwrEnFall cc) s (fun u => u.pwr.state = .poweringDown ∧ u.pwr.since = cc ∧ u.pwr.pwrEn = false ∧ u.pwr.pwrGood = false ∧ u.pwr.lastOff = 1)) ∧
    (∀ rail, p.state = .ramping → rail < 30 → Yields (.railTimeout rail cc) s (fun u => u.pwr.state = .standby ∧ u.pwr.faultN = false ∧ u.pwr.lastOff = 6)) ∧
    (∀ rail mv amps, rail < 31 → Yields (.railExcursion rail mv amps .warn) s (fun u => u.pwr.rail rail =
        { mv := mv, amps := amps, pgood := railWithin rail mv 5, warn := !railWithin rail mv 3 } ∧ u.pwr.state = p.state ∧ u.grid = s.grid) ∧
      (p.state = .on → railWithin rail mv 5 = false → railWatched rail = false → Yields (.railExcursion rail mv amps .fault) s (fun u =>
        u.pwr.state = .standby ∧ u.pwr.lastOff = 6 ∧ u.pwr.faultN = false ∧ u.pwr.pwrGood = false))) ∧
    (∀ volt curr power, p.state = .on → Yields (.inputExcursion .lowOff volt curr power) s (fun u => u.pwr.state = (if volt = 0 then .off else .standby) ∧ u.pwr.lastOff = 3) ∧
      Yields (.inputExcursion .highOff volt curr power) s (fun u => u.pwr.state = .standby ∧ u.pwr.lastOff = 4) ∧
      Yields (.inputExcursion .overpowerOff volt curr power) s (fun u => u.pwr.state = .standby ∧ u.pwr.lastOff = 5)) ∧
    (p.state = .on → p.pwrGood = true → Yields (.resetNAssert cc) s (fun u => u = (s.at cc).coldBegin 1 ∧ u.pwr.inReset = true ∧ u.pwr.resetKind = 1)) ∧
    (p.state = .ramping → p.coldAt = none → Yields (.coldResetEnd cc) s (fun u => u = (s.at cc).coldEnd true)) ∧
    (p.state = .on → p.inReset = true → p.coldAt = none → Yields (.coldResetEnd cc) s (fun u => u = (s.at cc).coldEnd false)) ∧
    (∀ temps inlet outlet wet, p.state = .off → Yields (.sensorSample temps inlet outlet wet cc) s (fun u => u = s.at cc)) ∧
    (∀ temps inlet outlet wet, p.state ≠ .off → Yields (.sensorSample temps inlet outlet wet cc) s (fun u => u = (s.at cc).sensorSample temps inlet outlet wet))

/-! ### The block as a whole -/

/-- A step takes the command at the front of the queue and runs it on the state with the queue's rest; on an empty queue the block runs on by one tick (log 1). -/
def Obligations.FrontCommand : Prop :=
  (∀ (c : Instr) (rest : List Instr) (s : State), step { s with pending := c :: rest } = exec c { s with pending := rest }) ∧
  ∀ s : State, s.pending = [] → step s = .next s.tick

/-- The state after reset: no command waits, every memory is in canonical form, Compass starts, no partition exists, every tile is in RESET with a scratchpad that reads as zero, Sheet has no
member, the classes of stacked memory and the interval of Sounding have the values of R413, R418, R423 and R446. That the scratchpads read as zero is the model's choice (log 4). -/
def Obligations.ResetState : Prop :=
  State.reset.pending = [] ∧ State.reset.memoriesOk = true ∧ State.reset.cmp.state = .booting ∧ State.reset.anyPart = false ∧
    (∀ t, (State.reset.tile t).state = .reset ∧ (State.reset.tile t).scratch = []) ∧ State.reset.stk.lat = 0x20 ∧ State.reset.stk.ceThresh = 8 ∧
    State.reset.stk.wBulk = 3 ∧ State.reset.stk.wSpill = 1 ∧ State.reset.stk.rtThresh = 0x10 ∧ State.reset.atl.interval = 0x10 ∧ State.reset.atl.enabled = true ∧
    State.reset.sht.members = List.replicate 16 .none ∧ State.reset.dtm.drift = List.replicate 16 0 ∧ State.reset.crt.latched = 0

/-- R108 to R111: the words of Tarpeth and the commands that stand for them agree: a word is read as an instruction on a tile exactly where that instruction has that word on that tile, so no bit
of a word is dropped and no operand is lost. -/
def Obligations.TarpethDecodeEncode : Prop :=
  ∀ (i : Instr) (t : Nat) (w : Word), tarpethDecode t w = some i ↔ tarpethEncode i = some (t, w)

/-- Every step, of a command or of the block's own, keeps the canonical form of every byte memory: host memories, scratchpads, stacked memory, pinned rows, staged firmware and the EEPROMs list their cells in rising order, and none
that holds what an unlisted byte reads as. The form is the model's own (log 4). -/
def Obligations.KeepsMemories : Prop :=
  ∀ s u : State, s.memoriesOk = true → step s = .next u → u.memoriesOk = true
end

