-- ==== Sys2Proof/Laws/Maps.lean ====
section
/-! SUPPORT. Laws of the sparse maps and of byte memories: a read after a write, and that the canonical form is kept. -/

namespace Sys2Proof.Machine

variable {α : Type}

@[simp] theorem SMap.look_put_same (m : SMap α) (a : Nat) (x : α) : (m.put a x).look a = some x := by
  induction m with
  | nil => simp [SMap.put, SMap.look]
  | cons e r ih =>
    obtain ⟨k, v⟩ := e
    simp only [SMap.put]
    split
    · simp [SMap.look]
    · split
      · simp [SMap.look]
      · rename_i h1 h2
        simp [SMap.look, ih, Ne.symm h2]

theorem SMap.look_put_other (m : SMap α) {a b : Nat} (h : b ≠ a) (x : α) : (m.put a x).look b = m.look b := by
  induction m with
  | nil => simp [SMap.put, SMap.look, h.symm]
  | cons e r ih =>
    obtain ⟨k, v⟩ := e
    simp only [SMap.put]
    split
    · simp [SMap.look, h.symm]
    · split
      · rename_i h1 h2; subst h2; simp [SMap.look, h.symm]
      · simp only [SMap.look, ih]

@[simp] theorem SMap.lookD_put_same (m : SMap α) (a : Nat) (x d : α) : (m.put a x).lookD a d = x := by
  simp [SMap.lookD]

theorem SMap.lookD_put_other (m : SMap α) {a b : Nat} (h : b ≠ a) (x d : α) : (m.put a x).lookD b d = m.lookD b d := by
  simp [SMap.lookD, SMap.look_put_other m h]

theorem SMap.lookD_put (m : SMap α) (a b : Nat) (x d : α) : (m.put a x).lookD b d = if b = a then x else m.lookD b d := by
  split
  · rename_i h; subst h; simp
  · rename_i h; exact SMap.lookD_put_other m h x d

/-! ### Keys strictly rising -/

theorem SMap.rising_none_of_some {b : Nat} {m : SMap α} (h : SMap.rising (some b) m = true) : SMap.rising none m = true := by
  cases m with
  | nil => simp [SMap.rising]
  | cons e r => obtain ⟨k, v⟩ := e; simp_all [SMap.rising]

theorem SMap.rising_mono {b c : Nat} {m : SMap α} (hbc : c ≤ b) (h : SMap.rising (some b) m = true) :
    SMap.rising (some c) m = true := by
  cases m with
  | nil => simp [SMap.rising]
  | cons e r => obtain ⟨k, v⟩ := e; simp_all [SMap.rising]; omega

theorem SMap.rising_put_some {b a : Nat} {m : SMap α} (x : α) (hb : b < a) (h : SMap.rising (some b) m = true) :
    SMap.rising (some b) (m.put a x) = true := by
  induction m generalizing b with
  | nil => simp [SMap.put, SMap.rising, hb]
  | cons e r ih =>
    obtain ⟨k, v⟩ := e
    simp only [SMap.rising, Bool.and_eq_true, decide_eq_true_eq] at h
    simp only [SMap.put]
    split
    · simp [SMap.rising, hb, *]
    · split
      · rename_i h1 h2; subst h2; simp [SMap.rising, h]
      · have : k < a := by omega
        simp [SMap.rising, h.1, ih this h.2]

theorem SMap.rising_put {a : Nat} {m : SMap α} (x : α) (h : SMap.rising none m = true) : SMap.rising none (m.put a x) = true := by
  cases m with
  | nil => simp [SMap.put, SMap.rising]
  | cons e r =>
    obtain ⟨k, v⟩ := e
    simp only [SMap.rising] at h
    simp only [SMap.put]
    split
    · simp [SMap.rising, *]
    · split
      · rename_i h1 h2; subst h2; simp [SMap.rising, h]
      · have : k < a := by omega
        simp [SMap.rising, SMap.rising_put_some x this h]

theorem SMap.rising_del_some {b a : Nat} {m : SMap α} (h : SMap.rising (some b) m = true) :
    SMap.rising (some b) (m.del a) = true := by
  induction m generalizing b with
  | nil => simp [SMap.del, SMap.rising]
  | cons e r ih =>
    obtain ⟨k, v⟩ := e
    simp only [SMap.rising, Bool.and_eq_true, decide_eq_true_eq] at h
    simp only [SMap.del]
    split
    · exact SMap.rising_mono (by omega) h.2
    · simp [SMap.rising, h.1, ih h.2]

theorem SMap.rising_del {a : Nat} {m : SMap α} (h : SMap.rising none m = true) : SMap.rising none (m.del a) = true := by
  cases m with
  | nil => simp [SMap.del, SMap.rising]
  | cons e r =>
    obtain ⟨k, v⟩ := e
    simp only [SMap.rising] at h
    simp only [SMap.del]
    split
    · exact SMap.rising_none_of_some h
    · simp [SMap.rising, SMap.rising_del_some h]

/-- A key below the bound of a rising map is not listed. -/
theorem SMap.look_below {b a : Nat} {m : SMap α} (h : SMap.rising (some b) m = true) (ha : a ≤ b) : m.look a = none := by
  induction m generalizing b with
  | nil => simp [SMap.look]
  | cons e r ih =>
    obtain ⟨k, v⟩ := e
    simp only [SMap.rising, Bool.and_eq_true, decide_eq_true_eq] at h
    have : k ≠ a := by omega
    simp [SMap.look, this, ih h.2 (by omega)]

theorem SMap.look_del_same {a : Nat} {m : SMap α} (h : SMap.rising none m = true) : (m.del a).look a = none := by
  cases m with
  | nil => simp [SMap.del, SMap.look]
  | cons e r =>
    obtain ⟨k, v⟩ := e
    simp only [SMap.rising] at h
    clear * - h
    induction r generalizing k v with
    | nil =>
      simp only [SMap.del]
      split
      · simp [SMap.look]
      · rename_i hk; simp [SMap.look, SMap.del, hk]
    | cons e r ih =>
      simp only [SMap.del]
      split
      · rename_i hk; subst hk; exact SMap.look_below h (Nat.le_refl _)
      · rename_i hk
        obtain ⟨k', v'⟩ := e
        simp only [SMap.rising, Bool.and_eq_true] at h
        have := ih k' v' h.2
        simp only [SMap.look, hk, if_false]
        exact this

theorem SMap.look_del_other {a b : Nat} (m : SMap α) (h : b ≠ a) : (m.del a).look b = m.look b := by
  induction m with
  | nil => simp [SMap.del]
  | cons e r ih =>
    obtain ⟨k, v⟩ := e
    simp only [SMap.del]
    split
    · rename_i hk; subst hk; simp [SMap.look, h.symm]
    · simp only [SMap.look, ih]

theorem SMap.mem_put {m : SMap α} {a : Nat} {x : α} {c : Nat × α} (h : c ∈ m.put a x) : c = (a, x) ∨ c ∈ m := by
  induction m with
  | nil => simp_all [SMap.put]
  | cons e r ih =>
    obtain ⟨k, v⟩ := e
    simp only [SMap.put] at h
    split at h
    · simp_all
    · split at h
      · simp_all; tauto
      · simp only [List.mem_cons] at h ⊢
        rcases h with h | h
        · tauto
        · rcases ih h with h | h <;> tauto

theorem SMap.mem_del {m : SMap α} {a : Nat} {c : Nat × α} (h : c ∈ m.del a) : c ∈ m := by
  induction m with
  | nil => simp_all [SMap.del]
  | cons e r ih =>
    obtain ⟨k, v⟩ := e
    simp only [SMap.del] at h
    split at h
    · simp_all
    · simp only [List.mem_cons] at h ⊢
      rcases h with h | h
      · tauto
      · exact .inr (ih h)

/-! ### Byte memories -/

theorem Memory.wf_iff (m : Memory) : m.wf = true ↔ SMap.rising none m = true ∧ ∀ c ∈ m, c.2 ≠ Memory.fill := by
  simp [Memory.wf, List.all_eq_true]

@[simp] theorem Memory.wf_nil : Memory.wf [] = true := by simp [Memory.wf, SMap.rising]

/-- A write keeps the canonical form. -/
theorem Memory.write_wf {m : Memory} (a : Nat) (b : Byte) (h : m.wf = true) : (m.write a b).wf = true := by
  rw [Memory.wf_iff] at h ⊢
  simp only [Memory.write]
  split
  · exact ⟨SMap.rising_del h.1, fun c hc => h.2 c (SMap.mem_del hc)⟩
  · rename_i hb
    refine ⟨SMap.rising_put b h.1, fun c hc => ?_⟩
    rcases SMap.mem_put hc with rfl | hc
    · exact hb
    · exact h.2 c hc

theorem Memory.writeN_wf {m : Memory} (a : Nat) (bs : List Byte) (h : m.wf = true) : (m.writeN a bs).wf = true := by
  induction bs generalizing m a with
  | nil => simpa [Memory.writeN] using h
  | cons b bs ih => simp only [Memory.writeN]; exact ih _ (Memory.write_wf a b h)

theorem Memory.writeLe_wf {m : Memory} (a n v : Nat) (h : m.wf = true) : (m.writeLe a n v).wf = true := Memory.writeN_wf a _ h

theorem SMap.rising_filter_some {b : Nat} {m : SMap α} (p : Nat × α → Bool) (h : SMap.rising (some b) m = true) :
    SMap.rising (some b) (m.filter p) = true := by
  induction m generalizing b with
  | nil => simp [SMap.rising]
  | cons e r ih =>
    obtain ⟨k, v⟩ := e
    simp only [SMap.rising, Bool.and_eq_true, decide_eq_true_eq] at h
    simp only [List.filter_cons]
    split
    · simp [SMap.rising, h.1, ih h.2]
    · exact SMap.rising_mono (by omega) (ih h.2)

theorem SMap.rising_filter {m : SMap α} (p : Nat × α → Bool) (h : SMap.rising none m = true) :
    SMap.rising none (m.filter p) = true := by
  cases m with
  | nil => simp [SMap.rising]
  | cons e r =>
    obtain ⟨k, v⟩ := e
    simp only [SMap.rising] at h
    simp only [List.filter_cons]
    split
    · simp [SMap.rising, SMap.rising_filter_some p h]
    · exact SMap.rising_none_of_some (SMap.rising_filter_some p h)

theorem Memory.clear_wf {m : Memory} (a n : Nat) (h : m.wf = true) : (m.clear a n).wf = true := by
  rw [Memory.wf_iff] at h ⊢
  exact ⟨SMap.rising_filter _ h.1, fun c hc => h.2 c (List.mem_of_mem_filter hc)⟩

/-- A read of another address is unchanged. -/
theorem Memory.read_write_other (m : Memory) {a b : Nat} (v : Byte) (h : b ≠ a) : (m.write a v).read b = m.read b := by
  simp only [Memory.write, Memory.read, SMap.lookD]
  split
  · rw [SMap.look_del_other m h]
  · rw [SMap.look_put_other m h]

/-- A read after a write to the same address gives the byte written. -/
theorem Memory.read_write_same {m : Memory} (a : Nat) (v : Byte) (h : m.wf = true) : (m.write a v).read a = v := by
  rw [Memory.wf_iff] at h
  simp only [Memory.write, Memory.read, SMap.lookD]
  split
  · rename_i hv; simp [SMap.look_del_same h.1, hv]
  · simp

/-- Bytes outside what writeN writes are unchanged. -/
theorem Memory.read_writeN_other (m : Memory) (a : Nat) (bs : List Byte) {b : Nat} (h : b < a ∨ a + bs.length ≤ b) :
    (m.writeN a bs).read b = m.read b := by
  induction bs generalizing m a with
  | nil => simp [Memory.writeN]
  | cons c bs ih =>
    simp only [Memory.writeN, List.length_cons] at h ⊢
    rw [ih _ _ (by omega), Memory.read_write_other _ _ (by omega)]

/-- The bytes that writeN writes. -/
theorem Memory.read_writeN_same {m : Memory} (a : Nat) (bs : List Byte) (h : m.wf = true) (i : Nat) (hi : i < bs.length) :
    (m.writeN a bs).read (a + i) = bs[i] := by
  induction bs generalizing m a i with
  | nil => simp at hi
  | cons c bs ih =>
    simp only [Memory.writeN]
    cases i with
    | zero =>
      rw [Memory.read_writeN_other _ _ _ (by omega)]
      simpa using Memory.read_write_same a c h
    | succ i =>
      have := ih (m := m.write a c) (a + 1) (Memory.write_wf a c h) i (by simpa using hi)
      simpa [Nat.add_assoc, Nat.add_comm 1 i] using this

@[simp] theorem Memory.readN_length (m : Memory) (a n : Nat) : (m.readN a n).length = n := by
  induction n generalizing a with
  | zero => simp [Memory.readN]
  | succ n ih => simp [Memory.readN, ih]

/-- A read of what was written. -/
theorem Memory.readN_writeN {m : Memory} (a : Nat) (bs : List Byte) (h : m.wf = true) : (m.writeN a bs).readN a bs.length = bs := by
  apply List.ext_getElem
  · simp
  · intro i h1 h2
    have key : ∀ (m : Memory) (a n i : Nat) (hi : i < (m.readN a n).length), (m.readN a n)[i] = m.read (a + i) := by
      intro m a n
      induction n generalizing a with
      | zero => intro i hi; simp [Memory.readN] at hi
      | succ n ih =>
        intro i hi
        cases i with
        | zero => simp [Memory.readN]
        | succ i =>
          simp only [Memory.readN, List.getElem_cons_succ]
          rw [ih]
          congr 1; omega
    rw [key, Memory.read_writeN_same a bs h i h2]

end Sys2Proof.Machine
end

