-- ==== Sys2Proof/Laws/State.lean ====
section
/-! SUPPORT. What each update of State leaves alone, one lemma per field, and what it sets. -/

namespace Sys2Proof.Machine

/-! ### State.setTile -/

@[simp] theorem State.setTile_pending (s : State) (t : Nat) (x : Tile) : (s.setTile t x).pending = s.pending := rfl
@[simp] theorem State.setTile_now (s : State) (t : Nat) (x : Tile) : (s.setTile t x).now = s.now := rfl
@[simp] theorem State.setTile_free (s : State) (t : Nat) (x : Tile) : (s.setTile t x).free = s.free := rfl
@[simp] theorem State.setTile_cmp (s : State) (t : Nat) (x : Tile) : (s.setTile t x).cmp = s.cmp := rfl
@[simp] theorem State.setTile_dtm (s : State) (t : Nat) (x : Tile) : (s.setTile t x).dtm = s.dtm := rfl
@[simp] theorem State.setTile_lay (s : State) (t : Nat) (x : Tile) : (s.setTile t x).lay = s.lay := rfl
@[simp] theorem State.setTile_flt (s : State) (t : Nat) (x : Tile) : (s.setTile t x).flt = s.flt := rfl
@[simp] theorem State.setTile_crt (s : State) (t : Nat) (x : Tile) : (s.setTile t x).crt = s.crt := rfl
@[simp] theorem State.setTile_pwr (s : State) (t : Nat) (x : Tile) : (s.setTile t x).pwr = s.pwr := rfl
@[simp] theorem State.setTile_host (s : State) (t : Nat) (x : Tile) : (s.setTile t x).host = s.host := rfl
@[simp] theorem State.setTile_mer (s : State) (t : Nat) (x : Tile) : (s.setTile t x).mer = s.mer := rfl
@[simp] theorem State.setTile_stk (s : State) (t : Nat) (x : Tile) : (s.setTile t x).stk = s.stk := rfl
@[simp] theorem State.setTile_far (s : State) (t : Nat) (x : Tile) : (s.setTile t x).far = s.far := rfl
@[simp] theorem State.setTile_plt (s : State) (t : Nat) (x : Tile) : (s.setTile t x).plt = s.plt := rfl
@[simp] theorem State.setTile_gaz (s : State) (t : Nat) (x : Tile) : (s.setTile t x).gaz = s.gaz := rfl
@[simp] theorem State.setTile_cfl (s : State) (t : Nat) (x : Tile) : (s.setTile t x).cfl = s.cfl := rfl
@[simp] theorem State.setTile_fab (s : State) (t : Nat) (x : Tile) : (s.setTile t x).fab = s.fab := rfl
@[simp] theorem State.setTile_sht (s : State) (t : Nat) (x : Tile) : (s.setTile t x).sht = s.sht := rfl
@[simp] theorem State.setTile_atl (s : State) (t : Nat) (x : Tile) : (s.setTile t x).atl = s.atl := rfl
@[simp] theorem State.setTile_out (s : State) (t : Nat) (x : Tile) : (s.setTile t x).out = s.out := rfl
@[simp] theorem State.setTile_w1c (s : State) (t : Nat) (x : Tile) : (s.setTile t x).w1c = s.w1c := rfl

/-! ### State.onTile -/

@[simp] theorem State.onTile_pending (s : State) (t : Nat) (f : Tile → Tile) : (s.onTile t f).pending = s.pending := rfl
@[simp] theorem State.onTile_now (s : State) (t : Nat) (f : Tile → Tile) : (s.onTile t f).now = s.now := rfl
@[simp] theorem State.onTile_free (s : State) (t : Nat) (f : Tile → Tile) : (s.onTile t f).free = s.free := rfl
@[simp] theorem State.onTile_cmp (s : State) (t : Nat) (f : Tile → Tile) : (s.onTile t f).cmp = s.cmp := rfl
@[simp] theorem State.onTile_dtm (s : State) (t : Nat) (f : Tile → Tile) : (s.onTile t f).dtm = s.dtm := rfl
@[simp] theorem State.onTile_lay (s : State) (t : Nat) (f : Tile → Tile) : (s.onTile t f).lay = s.lay := rfl
@[simp] theorem State.onTile_flt (s : State) (t : Nat) (f : Tile → Tile) : (s.onTile t f).flt = s.flt := rfl
@[simp] theorem State.onTile_crt (s : State) (t : Nat) (f : Tile → Tile) : (s.onTile t f).crt = s.crt := rfl
@[simp] theorem State.onTile_pwr (s : State) (t : Nat) (f : Tile → Tile) : (s.onTile t f).pwr = s.pwr := rfl
@[simp] theorem State.onTile_host (s : State) (t : Nat) (f : Tile → Tile) : (s.onTile t f).host = s.host := rfl
@[simp] theorem State.onTile_mer (s : State) (t : Nat) (f : Tile → Tile) : (s.onTile t f).mer = s.mer := rfl
@[simp] theorem State.onTile_stk (s : State) (t : Nat) (f : Tile → Tile) : (s.onTile t f).stk = s.stk := rfl
@[simp] theorem State.onTile_far (s : State) (t : Nat) (f : Tile → Tile) : (s.onTile t f).far = s.far := rfl
@[simp] theorem State.onTile_plt (s : State) (t : Nat) (f : Tile → Tile) : (s.onTile t f).plt = s.plt := rfl
@[simp] theorem State.onTile_gaz (s : State) (t : Nat) (f : Tile → Tile) : (s.onTile t f).gaz = s.gaz := rfl
@[simp] theorem State.onTile_cfl (s : State) (t : Nat) (f : Tile → Tile) : (s.onTile t f).cfl = s.cfl := rfl
@[simp] theorem State.onTile_fab (s : State) (t : Nat) (f : Tile → Tile) : (s.onTile t f).fab = s.fab := rfl
@[simp] theorem State.onTile_sht (s : State) (t : Nat) (f : Tile → Tile) : (s.onTile t f).sht = s.sht := rfl
@[simp] theorem State.onTile_atl (s : State) (t : Nat) (f : Tile → Tile) : (s.onTile t f).atl = s.atl := rfl
@[simp] theorem State.onTile_out (s : State) (t : Nat) (f : Tile → Tile) : (s.onTile t f).out = s.out := rfl
@[simp] theorem State.onTile_w1c (s : State) (t : Nat) (f : Tile → Tile) : (s.onTile t f).w1c = s.w1c := rfl

/-! ### State.setMer -/

@[simp] theorem State.setMer_pending (s : State) (m : Meridian) : (s.setMer m).pending = s.pending := rfl
@[simp] theorem State.setMer_now (s : State) (m : Meridian) : (s.setMer m).now = s.now := rfl
@[simp] theorem State.setMer_free (s : State) (m : Meridian) : (s.setMer m).free = s.free := rfl
@[simp] theorem State.setMer_cmp (s : State) (m : Meridian) : (s.setMer m).cmp = s.cmp := rfl
@[simp] theorem State.setMer_dtm (s : State) (m : Meridian) : (s.setMer m).dtm = s.dtm := rfl
@[simp] theorem State.setMer_lay (s : State) (m : Meridian) : (s.setMer m).lay = s.lay := rfl
@[simp] theorem State.setMer_grid (s : State) (m : Meridian) : (s.setMer m).grid = s.grid := rfl
@[simp] theorem State.setMer_flt (s : State) (m : Meridian) : (s.setMer m).flt = s.flt := rfl
@[simp] theorem State.setMer_crt (s : State) (m : Meridian) : (s.setMer m).crt = s.crt := rfl
@[simp] theorem State.setMer_pwr (s : State) (m : Meridian) : (s.setMer m).pwr = s.pwr := rfl
@[simp] theorem State.setMer_host (s : State) (m : Meridian) : (s.setMer m).host = s.host := rfl
@[simp] theorem State.setMer_stk (s : State) (m : Meridian) : (s.setMer m).stk = s.stk := rfl
@[simp] theorem State.setMer_far (s : State) (m : Meridian) : (s.setMer m).far = s.far := rfl
@[simp] theorem State.setMer_plt (s : State) (m : Meridian) : (s.setMer m).plt = s.plt := rfl
@[simp] theorem State.setMer_gaz (s : State) (m : Meridian) : (s.setMer m).gaz = s.gaz := rfl
@[simp] theorem State.setMer_cfl (s : State) (m : Meridian) : (s.setMer m).cfl = s.cfl := rfl
@[simp] theorem State.setMer_fab (s : State) (m : Meridian) : (s.setMer m).fab = s.fab := rfl
@[simp] theorem State.setMer_sht (s : State) (m : Meridian) : (s.setMer m).sht = s.sht := rfl
@[simp] theorem State.setMer_atl (s : State) (m : Meridian) : (s.setMer m).atl = s.atl := rfl
@[simp] theorem State.setMer_out (s : State) (m : Meridian) : (s.setMer m).out = s.out := rfl
@[simp] theorem State.setMer_w1c (s : State) (m : Meridian) : (s.setMer m).w1c = s.w1c := rfl

/-! ### State.setFn -/

@[simp] theorem State.setFn_pending (s : State) (f : Nat) (x : FnState) : (s.setFn f x).pending = s.pending := rfl
@[simp] theorem State.setFn_now (s : State) (f : Nat) (x : FnState) : (s.setFn f x).now = s.now := rfl
@[simp] theorem State.setFn_free (s : State) (f : Nat) (x : FnState) : (s.setFn f x).free = s.free := rfl
@[simp] theorem State.setFn_dtm (s : State) (f : Nat) (x : FnState) : (s.setFn f x).dtm = s.dtm := rfl
@[simp] theorem State.setFn_lay (s : State) (f : Nat) (x : FnState) : (s.setFn f x).lay = s.lay := rfl
@[simp] theorem State.setFn_grid (s : State) (f : Nat) (x : FnState) : (s.setFn f x).grid = s.grid := rfl
@[simp] theorem State.setFn_flt (s : State) (f : Nat) (x : FnState) : (s.setFn f x).flt = s.flt := rfl
@[simp] theorem State.setFn_crt (s : State) (f : Nat) (x : FnState) : (s.setFn f x).crt = s.crt := rfl
@[simp] theorem State.setFn_pwr (s : State) (f : Nat) (x : FnState) : (s.setFn f x).pwr = s.pwr := rfl
@[simp] theorem State.setFn_host (s : State) (f : Nat) (x : FnState) : (s.setFn f x).host = s.host := rfl
@[simp] theorem State.setFn_mer (s : State) (f : Nat) (x : FnState) : (s.setFn f x).mer = s.mer := rfl
@[simp] theorem State.setFn_stk (s : State) (f : Nat) (x : FnState) : (s.setFn f x).stk = s.stk := rfl
@[simp] theorem State.setFn_far (s : State) (f : Nat) (x : FnState) : (s.setFn f x).far = s.far := rfl
@[simp] theorem State.setFn_plt (s : State) (f : Nat) (x : FnState) : (s.setFn f x).plt = s.plt := rfl
@[simp] theorem State.setFn_gaz (s : State) (f : Nat) (x : FnState) : (s.setFn f x).gaz = s.gaz := rfl
@[simp] theorem State.setFn_cfl (s : State) (f : Nat) (x : FnState) : (s.setFn f x).cfl = s.cfl := rfl
@[simp] theorem State.setFn_fab (s : State) (f : Nat) (x : FnState) : (s.setFn f x).fab = s.fab := rfl
@[simp] theorem State.setFn_sht (s : State) (f : Nat) (x : FnState) : (s.setFn f x).sht = s.sht := rfl
@[simp] theorem State.setFn_atl (s : State) (f : Nat) (x : FnState) : (s.setFn f x).atl = s.atl := rfl
@[simp] theorem State.setFn_out (s : State) (f : Nat) (x : FnState) : (s.setFn f x).out = s.out := rfl
@[simp] theorem State.setFn_w1c (s : State) (f : Nat) (x : FnState) : (s.setFn f x).w1c = s.w1c := rfl

/-! ### State.setInflight -/

@[simp] theorem State.setInflight_pending (s : State) (l : List InFlight) : (s.setInflight l).pending = s.pending := rfl
@[simp] theorem State.setInflight_now (s : State) (l : List InFlight) : (s.setInflight l).now = s.now := rfl
@[simp] theorem State.setInflight_free (s : State) (l : List InFlight) : (s.setInflight l).free = s.free := rfl
@[simp] theorem State.setInflight_dtm (s : State) (l : List InFlight) : (s.setInflight l).dtm = s.dtm := rfl
@[simp] theorem State.setInflight_lay (s : State) (l : List InFlight) : (s.setInflight l).lay = s.lay := rfl
@[simp] theorem State.setInflight_grid (s : State) (l : List InFlight) : (s.setInflight l).grid = s.grid := rfl
@[simp] theorem State.setInflight_flt (s : State) (l : List InFlight) : (s.setInflight l).flt = s.flt := rfl
@[simp] theorem State.setInflight_crt (s : State) (l : List InFlight) : (s.setInflight l).crt = s.crt := rfl
@[simp] theorem State.setInflight_pwr (s : State) (l : List InFlight) : (s.setInflight l).pwr = s.pwr := rfl
@[simp] theorem State.setInflight_host (s : State) (l : List InFlight) : (s.setInflight l).host = s.host := rfl
@[simp] theorem State.setInflight_mer (s : State) (l : List InFlight) : (s.setInflight l).mer = s.mer := rfl
@[simp] theorem State.setInflight_stk (s : State) (l : List InFlight) : (s.setInflight l).stk = s.stk := rfl
@[simp] theorem State.setInflight_far (s : State) (l : List InFlight) : (s.setInflight l).far = s.far := rfl
@[simp] theorem State.setInflight_plt (s : State) (l : List InFlight) : (s.setInflight l).plt = s.plt := rfl
@[simp] theorem State.setInflight_gaz (s : State) (l : List InFlight) : (s.setInflight l).gaz = s.gaz := rfl
@[simp] theorem State.setInflight_cfl (s : State) (l : List InFlight) : (s.setInflight l).cfl = s.cfl := rfl
@[simp] theorem State.setInflight_fab (s : State) (l : List InFlight) : (s.setInflight l).fab = s.fab := rfl
@[simp] theorem State.setInflight_sht (s : State) (l : List InFlight) : (s.setInflight l).sht = s.sht := rfl
@[simp] theorem State.setInflight_atl (s : State) (l : List InFlight) : (s.setInflight l).atl = s.atl := rfl
@[simp] theorem State.setInflight_out (s : State) (l : List InFlight) : (s.setInflight l).out = s.out := rfl
@[simp] theorem State.setInflight_w1c (s : State) (l : List InFlight) : (s.setInflight l).w1c = s.w1c := rfl

/-! ### State.hostWrite -/

@[simp] theorem State.hostWrite_pending (s : State) (f a : Nat) (bs : List Byte) : (s.hostWrite f a bs).pending = s.pending := rfl
@[simp] theorem State.hostWrite_now (s : State) (f a : Nat) (bs : List Byte) : (s.hostWrite f a bs).now = s.now := rfl
@[simp] theorem State.hostWrite_free (s : State) (f a : Nat) (bs : List Byte) : (s.hostWrite f a bs).free = s.free := rfl
@[simp] theorem State.hostWrite_cmp (s : State) (f a : Nat) (bs : List Byte) : (s.hostWrite f a bs).cmp = s.cmp := rfl
@[simp] theorem State.hostWrite_dtm (s : State) (f a : Nat) (bs : List Byte) : (s.hostWrite f a bs).dtm = s.dtm := rfl
@[simp] theorem State.hostWrite_lay (s : State) (f a : Nat) (bs : List Byte) : (s.hostWrite f a bs).lay = s.lay := rfl
@[simp] theorem State.hostWrite_grid (s : State) (f a : Nat) (bs : List Byte) : (s.hostWrite f a bs).grid = s.grid := rfl
@[simp] theorem State.hostWrite_flt (s : State) (f a : Nat) (bs : List Byte) : (s.hostWrite f a bs).flt = s.flt := rfl
@[simp] theorem State.hostWrite_crt (s : State) (f a : Nat) (bs : List Byte) : (s.hostWrite f a bs).crt = s.crt := rfl
@[simp] theorem State.hostWrite_pwr (s : State) (f a : Nat) (bs : List Byte) : (s.hostWrite f a bs).pwr = s.pwr := rfl
@[simp] theorem State.hostWrite_mer (s : State) (f a : Nat) (bs : List Byte) : (s.hostWrite f a bs).mer = s.mer := rfl
@[simp] theorem State.hostWrite_stk (s : State) (f a : Nat) (bs : List Byte) : (s.hostWrite f a bs).stk = s.stk := rfl
@[simp] theorem State.hostWrite_far (s : State) (f a : Nat) (bs : List Byte) : (s.hostWrite f a bs).far = s.far := rfl
@[simp] theorem State.hostWrite_plt (s : State) (f a : Nat) (bs : List Byte) : (s.hostWrite f a bs).plt = s.plt := rfl
@[simp] theorem State.hostWrite_gaz (s : State) (f a : Nat) (bs : List Byte) : (s.hostWrite f a bs).gaz = s.gaz := rfl
@[simp] theorem State.hostWrite_cfl (s : State) (f a : Nat) (bs : List Byte) : (s.hostWrite f a bs).cfl = s.cfl := rfl
@[simp] theorem State.hostWrite_fab (s : State) (f a : Nat) (bs : List Byte) : (s.hostWrite f a bs).fab = s.fab := rfl
@[simp] theorem State.hostWrite_sht (s : State) (f a : Nat) (bs : List Byte) : (s.hostWrite f a bs).sht = s.sht := rfl
@[simp] theorem State.hostWrite_atl (s : State) (f a : Nat) (bs : List Byte) : (s.hostWrite f a bs).atl = s.atl := rfl
@[simp] theorem State.hostWrite_out (s : State) (f a : Nat) (bs : List Byte) : (s.hostWrite f a bs).out = s.out := rfl
@[simp] theorem State.hostWrite_w1c (s : State) (f a : Nat) (bs : List Byte) : (s.hostWrite f a bs).w1c = s.w1c := rfl

/-! ### State.emit -/

@[simp] theorem State.emit_pending (s : State) (o : Out) : (s.emit o).pending = s.pending := rfl
@[simp] theorem State.emit_now (s : State) (o : Out) : (s.emit o).now = s.now := rfl
@[simp] theorem State.emit_free (s : State) (o : Out) : (s.emit o).free = s.free := rfl
@[simp] theorem State.emit_cmp (s : State) (o : Out) : (s.emit o).cmp = s.cmp := rfl
@[simp] theorem State.emit_dtm (s : State) (o : Out) : (s.emit o).dtm = s.dtm := rfl
@[simp] theorem State.emit_lay (s : State) (o : Out) : (s.emit o).lay = s.lay := rfl
@[simp] theorem State.emit_grid (s : State) (o : Out) : (s.emit o).grid = s.grid := rfl
@[simp] theorem State.emit_flt (s : State) (o : Out) : (s.emit o).flt = s.flt := rfl
@[simp] theorem State.emit_crt (s : State) (o : Out) : (s.emit o).crt = s.crt := rfl
@[simp] theorem State.emit_pwr (s : State) (o : Out) : (s.emit o).pwr = s.pwr := rfl
@[simp] theorem State.emit_host (s : State) (o : Out) : (s.emit o).host = s.host := rfl
@[simp] theorem State.emit_mer (s : State) (o : Out) : (s.emit o).mer = s.mer := rfl
@[simp] theorem State.emit_stk (s : State) (o : Out) : (s.emit o).stk = s.stk := rfl
@[simp] theorem State.emit_far (s : State) (o : Out) : (s.emit o).far = s.far := rfl
@[simp] theorem State.emit_plt (s : State) (o : Out) : (s.emit o).plt = s.plt := rfl
@[simp] theorem State.emit_gaz (s : State) (o : Out) : (s.emit o).gaz = s.gaz := rfl
@[simp] theorem State.emit_cfl (s : State) (o : Out) : (s.emit o).cfl = s.cfl := rfl
@[simp] theorem State.emit_fab (s : State) (o : Out) : (s.emit o).fab = s.fab := rfl
@[simp] theorem State.emit_sht (s : State) (o : Out) : (s.emit o).sht = s.sht := rfl
@[simp] theorem State.emit_atl (s : State) (o : Out) : (s.emit o).atl = s.atl := rfl
@[simp] theorem State.emit_w1c (s : State) (o : Out) : (s.emit o).w1c = s.w1c := rfl

/-! ### State.at -/

@[simp] theorem State.at_pending (s : State) (cc : Nat) : (s.at cc).pending = s.pending := rfl
@[simp] theorem State.at_free (s : State) (cc : Nat) : (s.at cc).free = s.free := rfl
@[simp] theorem State.at_cmp (s : State) (cc : Nat) : (s.at cc).cmp = s.cmp := rfl
@[simp] theorem State.at_dtm (s : State) (cc : Nat) : (s.at cc).dtm = s.dtm := rfl
@[simp] theorem State.at_lay (s : State) (cc : Nat) : (s.at cc).lay = s.lay := rfl
@[simp] theorem State.at_grid (s : State) (cc : Nat) : (s.at cc).grid = s.grid := rfl
@[simp] theorem State.at_flt (s : State) (cc : Nat) : (s.at cc).flt = s.flt := rfl
@[simp] theorem State.at_crt (s : State) (cc : Nat) : (s.at cc).crt = s.crt := rfl
@[simp] theorem State.at_pwr (s : State) (cc : Nat) : (s.at cc).pwr = s.pwr := rfl
@[simp] theorem State.at_host (s : State) (cc : Nat) : (s.at cc).host = s.host := rfl
@[simp] theorem State.at_mer (s : State) (cc : Nat) : (s.at cc).mer = s.mer := rfl
@[simp] theorem State.at_stk (s : State) (cc : Nat) : (s.at cc).stk = s.stk := rfl
@[simp] theorem State.at_far (s : State) (cc : Nat) : (s.at cc).far = s.far := rfl
@[simp] theorem State.at_plt (s : State) (cc : Nat) : (s.at cc).plt = s.plt := rfl
@[simp] theorem State.at_gaz (s : State) (cc : Nat) : (s.at cc).gaz = s.gaz := rfl
@[simp] theorem State.at_cfl (s : State) (cc : Nat) : (s.at cc).cfl = s.cfl := rfl
@[simp] theorem State.at_fab (s : State) (cc : Nat) : (s.at cc).fab = s.fab := rfl
@[simp] theorem State.at_sht (s : State) (cc : Nat) : (s.at cc).sht = s.sht := rfl
@[simp] theorem State.at_atl (s : State) (cc : Nat) : (s.at cc).atl = s.atl := rfl
@[simp] theorem State.at_out (s : State) (cc : Nat) : (s.at cc).out = s.out := rfl
@[simp] theorem State.at_w1c (s : State) (cc : Nat) : (s.at cc).w1c = s.w1c := rfl

/-! ### State.config -/

@[simp] theorem State.config_pending (s : State) (op : Nat) (ws : List Word) (n : Nat) : (s.config op ws n).pending = s.pending := rfl
@[simp] theorem State.config_now (s : State) (op : Nat) (ws : List Word) (n : Nat) : (s.config op ws n).now = s.now := rfl
@[simp] theorem State.config_free (s : State) (op : Nat) (ws : List Word) (n : Nat) : (s.config op ws n).free = s.free := rfl
@[simp] theorem State.config_dtm (s : State) (op : Nat) (ws : List Word) (n : Nat) : (s.config op ws n).dtm = s.dtm := rfl
@[simp] theorem State.config_lay (s : State) (op : Nat) (ws : List Word) (n : Nat) : (s.config op ws n).lay = s.lay := rfl
@[simp] theorem State.config_grid (s : State) (op : Nat) (ws : List Word) (n : Nat) : (s.config op ws n).grid = s.grid := rfl
@[simp] theorem State.config_flt (s : State) (op : Nat) (ws : List Word) (n : Nat) : (s.config op ws n).flt = s.flt := rfl
@[simp] theorem State.config_crt (s : State) (op : Nat) (ws : List Word) (n : Nat) : (s.config op ws n).crt = s.crt := rfl
@[simp] theorem State.config_pwr (s : State) (op : Nat) (ws : List Word) (n : Nat) : (s.config op ws n).pwr = s.pwr := rfl
@[simp] theorem State.config_host (s : State) (op : Nat) (ws : List Word) (n : Nat) : (s.config op ws n).host = s.host := rfl
@[simp] theorem State.config_mer (s : State) (op : Nat) (ws : List Word) (n : Nat) : (s.config op ws n).mer = s.mer := rfl
@[simp] theorem State.config_stk (s : State) (op : Nat) (ws : List Word) (n : Nat) : (s.config op ws n).stk = s.stk := rfl
@[simp] theorem State.config_far (s : State) (op : Nat) (ws : List Word) (n : Nat) : (s.config op ws n).far = s.far := rfl
@[simp] theorem State.config_plt (s : State) (op : Nat) (ws : List Word) (n : Nat) : (s.config op ws n).plt = s.plt := rfl
@[simp] theorem State.config_gaz (s : State) (op : Nat) (ws : List Word) (n : Nat) : (s.config op ws n).gaz = s.gaz := rfl
@[simp] theorem State.config_cfl (s : State) (op : Nat) (ws : List Word) (n : Nat) : (s.config op ws n).cfl = s.cfl := rfl
@[simp] theorem State.config_fab (s : State) (op : Nat) (ws : List Word) (n : Nat) : (s.config op ws n).fab = s.fab := rfl
@[simp] theorem State.config_sht (s : State) (op : Nat) (ws : List Word) (n : Nat) : (s.config op ws n).sht = s.sht := rfl
@[simp] theorem State.config_atl (s : State) (op : Nat) (ws : List Word) (n : Nat) : (s.config op ws n).atl = s.atl := rfl
@[simp] theorem State.config_out (s : State) (op : Nat) (ws : List Word) (n : Nat) : (s.config op ws n).out = s.out := rfl
@[simp] theorem State.config_w1c (s : State) (op : Nat) (ws : List Word) (n : Nat) : (s.config op ws n).w1c = s.w1c := rfl

/-! ### State.unconfig -/

@[simp] theorem State.unconfig_pending (s : State) (p : ConfigEntry → Bool) : (s.unconfig p).pending = s.pending := rfl
@[simp] theorem State.unconfig_now (s : State) (p : ConfigEntry → Bool) : (s.unconfig p).now = s.now := rfl
@[simp] theorem State.unconfig_free (s : State) (p : ConfigEntry → Bool) : (s.unconfig p).free = s.free := rfl
@[simp] theorem State.unconfig_dtm (s : State) (p : ConfigEntry → Bool) : (s.unconfig p).dtm = s.dtm := rfl
@[simp] theorem State.unconfig_lay (s : State) (p : ConfigEntry → Bool) : (s.unconfig p).lay = s.lay := rfl
@[simp] theorem State.unconfig_grid (s : State) (p : ConfigEntry → Bool) : (s.unconfig p).grid = s.grid := rfl
@[simp] theorem State.unconfig_flt (s : State) (p : ConfigEntry → Bool) : (s.unconfig p).flt = s.flt := rfl
@[simp] theorem State.unconfig_crt (s : State) (p : ConfigEntry → Bool) : (s.unconfig p).crt = s.crt := rfl
@[simp] theorem State.unconfig_pwr (s : State) (p : ConfigEntry → Bool) : (s.unconfig p).pwr = s.pwr := rfl
@[simp] theorem State.unconfig_host (s : State) (p : ConfigEntry → Bool) : (s.unconfig p).host = s.host := rfl
@[simp] theorem State.unconfig_mer (s : State) (p : ConfigEntry → Bool) : (s.unconfig p).mer = s.mer := rfl
@[simp] theorem State.unconfig_stk (s : State) (p : ConfigEntry → Bool) : (s.unconfig p).stk = s.stk := rfl
@[simp] theorem State.unconfig_far (s : State) (p : ConfigEntry → Bool) : (s.unconfig p).far = s.far := rfl
@[simp] theorem State.unconfig_plt (s : State) (p : ConfigEntry → Bool) : (s.unconfig p).plt = s.plt := rfl
@[simp] theorem State.unconfig_gaz (s : State) (p : ConfigEntry → Bool) : (s.unconfig p).gaz = s.gaz := rfl
@[simp] theorem State.unconfig_cfl (s : State) (p : ConfigEntry → Bool) : (s.unconfig p).cfl = s.cfl := rfl
@[simp] theorem State.unconfig_fab (s : State) (p : ConfigEntry → Bool) : (s.unconfig p).fab = s.fab := rfl
@[simp] theorem State.unconfig_sht (s : State) (p : ConfigEntry → Bool) : (s.unconfig p).sht = s.sht := rfl
@[simp] theorem State.unconfig_atl (s : State) (p : ConfigEntry → Bool) : (s.unconfig p).atl = s.atl := rfl
@[simp] theorem State.unconfig_out (s : State) (p : ConfigEntry → Bool) : (s.unconfig p).out = s.out := rfl
@[simp] theorem State.unconfig_w1c (s : State) (p : ConfigEntry → Bool) : (s.unconfig p).w1c = s.w1c := rfl

/-! ### State.faultLog -/

@[simp] theorem State.faultLog_pending (s : State) (e : FaultEntry) : (s.faultLog e).pending = s.pending := by simp only [State.faultLog]
@[simp] theorem State.faultLog_now (s : State) (e : FaultEntry) : (s.faultLog e).now = s.now := by simp only [State.faultLog]
@[simp] theorem State.faultLog_free (s : State) (e : FaultEntry) : (s.faultLog e).free = s.free := by simp only [State.faultLog]
@[simp] theorem State.faultLog_cmp (s : State) (e : FaultEntry) : (s.faultLog e).cmp = s.cmp := by simp only [State.faultLog]
@[simp] theorem State.faultLog_dtm (s : State) (e : FaultEntry) : (s.faultLog e).dtm = s.dtm := by simp only [State.faultLog]
@[simp] theorem State.faultLog_lay (s : State) (e : FaultEntry) : (s.faultLog e).lay = s.lay := by simp only [State.faultLog]
@[simp] theorem State.faultLog_grid (s : State) (e : FaultEntry) : (s.faultLog e).grid = s.grid := by simp only [State.faultLog]
@[simp] theorem State.faultLog_crt (s : State) (e : FaultEntry) : (s.faultLog e).crt = s.crt := by simp only [State.faultLog]
@[simp] theorem State.faultLog_pwr (s : State) (e : FaultEntry) : (s.faultLog e).pwr = s.pwr := by simp only [State.faultLog]
@[simp] theorem State.faultLog_host (s : State) (e : FaultEntry) : (s.faultLog e).host = s.host := by simp only [State.faultLog]
@[simp] theorem State.faultLog_mer (s : State) (e : FaultEntry) : (s.faultLog e).mer = s.mer := by simp only [State.faultLog]
@[simp] theorem State.faultLog_stk (s : State) (e : FaultEntry) : (s.faultLog e).stk = s.stk := by simp only [State.faultLog]
@[simp] theorem State.faultLog_far (s : State) (e : FaultEntry) : (s.faultLog e).far = s.far := by simp only [State.faultLog]
@[simp] theorem State.faultLog_plt (s : State) (e : FaultEntry) : (s.faultLog e).plt = s.plt := by simp only [State.faultLog]
@[simp] theorem State.faultLog_gaz (s : State) (e : FaultEntry) : (s.faultLog e).gaz = s.gaz := by simp only [State.faultLog]
@[simp] theorem State.faultLog_cfl (s : State) (e : FaultEntry) : (s.faultLog e).cfl = s.cfl := by simp only [State.faultLog]
@[simp] theorem State.faultLog_fab (s : State) (e : FaultEntry) : (s.faultLog e).fab = s.fab := by simp only [State.faultLog]
@[simp] theorem State.faultLog_sht (s : State) (e : FaultEntry) : (s.faultLog e).sht = s.sht := by simp only [State.faultLog]
@[simp] theorem State.faultLog_atl (s : State) (e : FaultEntry) : (s.faultLog e).atl = s.atl := by simp only [State.faultLog]
@[simp] theorem State.faultLog_out (s : State) (e : FaultEntry) : (s.faultLog e).out = s.out := by simp only [State.faultLog]

/-! ### State.setDtm -/

@[simp] theorem State.setDtm_pending (s : State) (d : Datum) : (s.setDtm d).pending = s.pending := rfl
@[simp] theorem State.setDtm_now (s : State) (d : Datum) : (s.setDtm d).now = s.now := rfl
@[simp] theorem State.setDtm_free (s : State) (d : Datum) : (s.setDtm d).free = s.free := rfl
@[simp] theorem State.setDtm_cmp (s : State) (d : Datum) : (s.setDtm d).cmp = s.cmp := rfl
@[simp] theorem State.setDtm_lay (s : State) (d : Datum) : (s.setDtm d).lay = s.lay := rfl
@[simp] theorem State.setDtm_grid (s : State) (d : Datum) : (s.setDtm d).grid = s.grid := rfl
@[simp] theorem State.setDtm_flt (s : State) (d : Datum) : (s.setDtm d).flt = s.flt := rfl
@[simp] theorem State.setDtm_crt (s : State) (d : Datum) : (s.setDtm d).crt = s.crt := rfl
@[simp] theorem State.setDtm_pwr (s : State) (d : Datum) : (s.setDtm d).pwr = s.pwr := rfl
@[simp] theorem State.setDtm_host (s : State) (d : Datum) : (s.setDtm d).host = s.host := rfl
@[simp] theorem State.setDtm_mer (s : State) (d : Datum) : (s.setDtm d).mer = s.mer := rfl
@[simp] theorem State.setDtm_stk (s : State) (d : Datum) : (s.setDtm d).stk = s.stk := rfl
@[simp] theorem State.setDtm_far (s : State) (d : Datum) : (s.setDtm d).far = s.far := rfl
@[simp] theorem State.setDtm_plt (s : State) (d : Datum) : (s.setDtm d).plt = s.plt := rfl
@[simp] theorem State.setDtm_gaz (s : State) (d : Datum) : (s.setDtm d).gaz = s.gaz := rfl
@[simp] theorem State.setDtm_cfl (s : State) (d : Datum) : (s.setDtm d).cfl = s.cfl := rfl
@[simp] theorem State.setDtm_fab (s : State) (d : Datum) : (s.setDtm d).fab = s.fab := rfl
@[simp] theorem State.setDtm_sht (s : State) (d : Datum) : (s.setDtm d).sht = s.sht := rfl
@[simp] theorem State.setDtm_atl (s : State) (d : Datum) : (s.setDtm d).atl = s.atl := rfl
@[simp] theorem State.setDtm_out (s : State) (d : Datum) : (s.setDtm d).out = s.out := rfl
@[simp] theorem State.setDtm_w1c (s : State) (d : Datum) : (s.setDtm d).w1c = s.w1c := rfl

/-! ### State.setPart -/

@[simp] theorem State.setPart_pending (s : State) (p : Nat) (m : PartMode) : (s.setPart p m).pending = s.pending := rfl
@[simp] theorem State.setPart_now (s : State) (p : Nat) (m : PartMode) : (s.setPart p m).now = s.now := rfl
@[simp] theorem State.setPart_free (s : State) (p : Nat) (m : PartMode) : (s.setPart p m).free = s.free := rfl
@[simp] theorem State.setPart_cmp (s : State) (p : Nat) (m : PartMode) : (s.setPart p m).cmp = s.cmp := rfl
@[simp] theorem State.setPart_lay (s : State) (p : Nat) (m : PartMode) : (s.setPart p m).lay = s.lay := rfl
@[simp] theorem State.setPart_grid (s : State) (p : Nat) (m : PartMode) : (s.setPart p m).grid = s.grid := rfl
@[simp] theorem State.setPart_flt (s : State) (p : Nat) (m : PartMode) : (s.setPart p m).flt = s.flt := rfl
@[simp] theorem State.setPart_crt (s : State) (p : Nat) (m : PartMode) : (s.setPart p m).crt = s.crt := rfl
@[simp] theorem State.setPart_pwr (s : State) (p : Nat) (m : PartMode) : (s.setPart p m).pwr = s.pwr := rfl
@[simp] theorem State.setPart_host (s : State) (p : Nat) (m : PartMode) : (s.setPart p m).host = s.host := rfl
@[simp] theorem State.setPart_mer (s : State) (p : Nat) (m : PartMode) : (s.setPart p m).mer = s.mer := rfl
@[simp] theorem State.setPart_stk (s : State) (p : Nat) (m : PartMode) : (s.setPart p m).stk = s.stk := rfl
@[simp] theorem State.setPart_far (s : State) (p : Nat) (m : PartMode) : (s.setPart p m).far = s.far := rfl
@[simp] theorem State.setPart_plt (s : State) (p : Nat) (m : PartMode) : (s.setPart p m).plt = s.plt := rfl
@[simp] theorem State.setPart_gaz (s : State) (p : Nat) (m : PartMode) : (s.setPart p m).gaz = s.gaz := rfl
@[simp] theorem State.setPart_cfl (s : State) (p : Nat) (m : PartMode) : (s.setPart p m).cfl = s.cfl := rfl
@[simp] theorem State.setPart_fab (s : State) (p : Nat) (m : PartMode) : (s.setPart p m).fab = s.fab := rfl
@[simp] theorem State.setPart_sht (s : State) (p : Nat) (m : PartMode) : (s.setPart p m).sht = s.sht := rfl
@[simp] theorem State.setPart_atl (s : State) (p : Nat) (m : PartMode) : (s.setPart p m).atl = s.atl := rfl
@[simp] theorem State.setPart_out (s : State) (p : Nat) (m : PartMode) : (s.setPart p m).out = s.out := rfl
@[simp] theorem State.setPart_w1c (s : State) (p : Nat) (m : PartMode) : (s.setPart p m).w1c = s.w1c := rfl

/-! ### State.setCfl -/

@[simp] theorem State.setCfl_pending (s : State) (c : Cfl) : (s.setCfl c).pending = s.pending := rfl
@[simp] theorem State.setCfl_now (s : State) (c : Cfl) : (s.setCfl c).now = s.now := rfl
@[simp] theorem State.setCfl_free (s : State) (c : Cfl) : (s.setCfl c).free = s.free := rfl
@[simp] theorem State.setCfl_cmp (s : State) (c : Cfl) : (s.setCfl c).cmp = s.cmp := rfl
@[simp] theorem State.setCfl_dtm (s : State) (c : Cfl) : (s.setCfl c).dtm = s.dtm := rfl
@[simp] theorem State.setCfl_lay (s : State) (c : Cfl) : (s.setCfl c).lay = s.lay := rfl
@[simp] theorem State.setCfl_grid (s : State) (c : Cfl) : (s.setCfl c).grid = s.grid := rfl
@[simp] theorem State.setCfl_flt (s : State) (c : Cfl) : (s.setCfl c).flt = s.flt := rfl
@[simp] theorem State.setCfl_crt (s : State) (c : Cfl) : (s.setCfl c).crt = s.crt := rfl
@[simp] theorem State.setCfl_pwr (s : State) (c : Cfl) : (s.setCfl c).pwr = s.pwr := rfl
@[simp] theorem State.setCfl_host (s : State) (c : Cfl) : (s.setCfl c).host = s.host := rfl
@[simp] theorem State.setCfl_mer (s : State) (c : Cfl) : (s.setCfl c).mer = s.mer := rfl
@[simp] theorem State.setCfl_stk (s : State) (c : Cfl) : (s.setCfl c).stk = s.stk := rfl
@[simp] theorem State.setCfl_far (s : State) (c : Cfl) : (s.setCfl c).far = s.far := rfl
@[simp] theorem State.setCfl_plt (s : State) (c : Cfl) : (s.setCfl c).plt = s.plt := rfl
@[simp] theorem State.setCfl_gaz (s : State) (c : Cfl) : (s.setCfl c).gaz = s.gaz := rfl
@[simp] theorem State.setCfl_fab (s : State) (c : Cfl) : (s.setCfl c).fab = s.fab := rfl
@[simp] theorem State.setCfl_sht (s : State) (c : Cfl) : (s.setCfl c).sht = s.sht := rfl
@[simp] theorem State.setCfl_atl (s : State) (c : Cfl) : (s.setCfl c).atl = s.atl := rfl
@[simp] theorem State.setCfl_out (s : State) (c : Cfl) : (s.setCfl c).out = s.out := rfl
@[simp] theorem State.setCfl_w1c (s : State) (c : Cfl) : (s.setCfl c).w1c = s.w1c := rfl

/-! ### State.setGroup -/

@[simp] theorem State.setGroup_pending (s : State) (g : Nat) (x : CflGroup) : (s.setGroup g x).pending = s.pending := rfl
@[simp] theorem State.setGroup_now (s : State) (g : Nat) (x : CflGroup) : (s.setGroup g x).now = s.now := rfl
@[simp] theorem State.setGroup_free (s : State) (g : Nat) (x : CflGroup) : (s.setGroup g x).free = s.free := rfl
@[simp] theorem State.setGroup_cmp (s : State) (g : Nat) (x : CflGroup) : (s.setGroup g x).cmp = s.cmp := rfl
@[simp] theorem State.setGroup_dtm (s : State) (g : Nat) (x : CflGroup) : (s.setGroup g x).dtm = s.dtm := rfl
@[simp] theorem State.setGroup_lay (s : State) (g : Nat) (x : CflGroup) : (s.setGroup g x).lay = s.lay := rfl
@[simp] theorem State.setGroup_grid (s : State) (g : Nat) (x : CflGroup) : (s.setGroup g x).grid = s.grid := rfl
@[simp] theorem State.setGroup_flt (s : State) (g : Nat) (x : CflGroup) : (s.setGroup g x).flt = s.flt := rfl
@[simp] theorem State.setGroup_crt (s : State) (g : Nat) (x : CflGroup) : (s.setGroup g x).crt = s.crt := rfl
@[simp] theorem State.setGroup_pwr (s : State) (g : Nat) (x : CflGroup) : (s.setGroup g x).pwr = s.pwr := rfl
@[simp] theorem State.setGroup_host (s : State) (g : Nat) (x : CflGroup) : (s.setGroup g x).host = s.host := rfl
@[simp] theorem State.setGroup_mer (s : State) (g : Nat) (x : CflGroup) : (s.setGroup g x).mer = s.mer := rfl
@[simp] theorem State.setGroup_stk (s : State) (g : Nat) (x : CflGroup) : (s.setGroup g x).stk = s.stk := rfl
@[simp] theorem State.setGroup_far (s : State) (g : Nat) (x : CflGroup) : (s.setGroup g x).far = s.far := rfl
@[simp] theorem State.setGroup_plt (s : State) (g : Nat) (x : CflGroup) : (s.setGroup g x).plt = s.plt := rfl
@[simp] theorem State.setGroup_gaz (s : State) (g : Nat) (x : CflGroup) : (s.setGroup g x).gaz = s.gaz := rfl
@[simp] theorem State.setGroup_fab (s : State) (g : Nat) (x : CflGroup) : (s.setGroup g x).fab = s.fab := rfl
@[simp] theorem State.setGroup_sht (s : State) (g : Nat) (x : CflGroup) : (s.setGroup g x).sht = s.sht := rfl
@[simp] theorem State.setGroup_atl (s : State) (g : Nat) (x : CflGroup) : (s.setGroup g x).atl = s.atl := rfl
@[simp] theorem State.setGroup_out (s : State) (g : Nat) (x : CflGroup) : (s.setGroup g x).out = s.out := rfl
@[simp] theorem State.setGroup_w1c (s : State) (g : Nat) (x : CflGroup) : (s.setGroup g x).w1c = s.w1c := rfl

/-! ### State.setGaz -/

@[simp] theorem State.setGaz_pending (s : State) (g : Gaz) : (s.setGaz g).pending = s.pending := rfl
@[simp] theorem State.setGaz_now (s : State) (g : Gaz) : (s.setGaz g).now = s.now := rfl
@[simp] theorem State.setGaz_free (s : State) (g : Gaz) : (s.setGaz g).free = s.free := rfl
@[simp] theorem State.setGaz_cmp (s : State) (g : Gaz) : (s.setGaz g).cmp = s.cmp := rfl
@[simp] theorem State.setGaz_dtm (s : State) (g : Gaz) : (s.setGaz g).dtm = s.dtm := rfl
@[simp] theorem State.setGaz_lay (s : State) (g : Gaz) : (s.setGaz g).lay = s.lay := rfl
@[simp] theorem State.setGaz_grid (s : State) (g : Gaz) : (s.setGaz g).grid = s.grid := rfl
@[simp] theorem State.setGaz_flt (s : State) (g : Gaz) : (s.setGaz g).flt = s.flt := rfl
@[simp] theorem State.setGaz_crt (s : State) (g : Gaz) : (s.setGaz g).crt = s.crt := rfl
@[simp] theorem State.setGaz_pwr (s : State) (g : Gaz) : (s.setGaz g).pwr = s.pwr := rfl
@[simp] theorem State.setGaz_host (s : State) (g : Gaz) : (s.setGaz g).host = s.host := rfl
@[simp] theorem State.setGaz_mer (s : State) (g : Gaz) : (s.setGaz g).mer = s.mer := rfl
@[simp] theorem State.setGaz_stk (s : State) (g : Gaz) : (s.setGaz g).stk = s.stk := rfl
@[simp] theorem State.setGaz_far (s : State) (g : Gaz) : (s.setGaz g).far = s.far := rfl
@[simp] theorem State.setGaz_plt (s : State) (g : Gaz) : (s.setGaz g).plt = s.plt := rfl
@[simp] theorem State.setGaz_cfl (s : State) (g : Gaz) : (s.setGaz g).cfl = s.cfl := rfl
@[simp] theorem State.setGaz_fab (s : State) (g : Gaz) : (s.setGaz g).fab = s.fab := rfl
@[simp] theorem State.setGaz_sht (s : State) (g : Gaz) : (s.setGaz g).sht = s.sht := rfl
@[simp] theorem State.setGaz_atl (s : State) (g : Gaz) : (s.setGaz g).atl = s.atl := rfl
@[simp] theorem State.setGaz_out (s : State) (g : Gaz) : (s.setGaz g).out = s.out := rfl
@[simp] theorem State.setGaz_w1c (s : State) (g : Gaz) : (s.setGaz g).w1c = s.w1c := rfl

/-! ### State.setFab -/

@[simp] theorem State.setFab_pending (s : State) (f : Fabric) : (s.setFab f).pending = s.pending := rfl
@[simp] theorem State.setFab_now (s : State) (f : Fabric) : (s.setFab f).now = s.now := rfl
@[simp] theorem State.setFab_free (s : State) (f : Fabric) : (s.setFab f).free = s.free := rfl
@[simp] theorem State.setFab_cmp (s : State) (f : Fabric) : (s.setFab f).cmp = s.cmp := rfl
@[simp] theorem State.setFab_dtm (s : State) (f : Fabric) : (s.setFab f).dtm = s.dtm := rfl
@[simp] theorem State.setFab_lay (s : State) (f : Fabric) : (s.setFab f).lay = s.lay := rfl
@[simp] theorem State.setFab_grid (s : State) (f : Fabric) : (s.setFab f).grid = s.grid := rfl
@[simp] theorem State.setFab_flt (s : State) (f : Fabric) : (s.setFab f).flt = s.flt := rfl
@[simp] theorem State.setFab_crt (s : State) (f : Fabric) : (s.setFab f).crt = s.crt := rfl
@[simp] theorem State.setFab_pwr (s : State) (f : Fabric) : (s.setFab f).pwr = s.pwr := rfl
@[simp] theorem State.setFab_host (s : State) (f : Fabric) : (s.setFab f).host = s.host := rfl
@[simp] theorem State.setFab_mer (s : State) (f : Fabric) : (s.setFab f).mer = s.mer := rfl
@[simp] theorem State.setFab_stk (s : State) (f : Fabric) : (s.setFab f).stk = s.stk := rfl
@[simp] theorem State.setFab_far (s : State) (f : Fabric) : (s.setFab f).far = s.far := rfl
@[simp] theorem State.setFab_plt (s : State) (f : Fabric) : (s.setFab f).plt = s.plt := rfl
@[simp] theorem State.setFab_gaz (s : State) (f : Fabric) : (s.setFab f).gaz = s.gaz := rfl
@[simp] theorem State.setFab_cfl (s : State) (f : Fabric) : (s.setFab f).cfl = s.cfl := rfl
@[simp] theorem State.setFab_sht (s : State) (f : Fabric) : (s.setFab f).sht = s.sht := rfl
@[simp] theorem State.setFab_atl (s : State) (f : Fabric) : (s.setFab f).atl = s.atl := rfl
@[simp] theorem State.setFab_out (s : State) (f : Fabric) : (s.setFab f).out = s.out := rfl
@[simp] theorem State.setFab_w1c (s : State) (f : Fabric) : (s.setFab f).w1c = s.w1c := rfl

/-! ### State.setPort -/

@[simp] theorem State.setPort_pending (s : State) (p : Nat) (x : PhysPort) : (s.setPort p x).pending = s.pending := rfl
@[simp] theorem State.setPort_now (s : State) (p : Nat) (x : PhysPort) : (s.setPort p x).now = s.now := rfl
@[simp] theorem State.setPort_free (s : State) (p : Nat) (x : PhysPort) : (s.setPort p x).free = s.free := rfl
@[simp] theorem State.setPort_cmp (s : State) (p : Nat) (x : PhysPort) : (s.setPort p x).cmp = s.cmp := rfl
@[simp] theorem State.setPort_dtm (s : State) (p : Nat) (x : PhysPort) : (s.setPort p x).dtm = s.dtm := rfl
@[simp] theorem State.setPort_lay (s : State) (p : Nat) (x : PhysPort) : (s.setPort p x).lay = s.lay := rfl
@[simp] theorem State.setPort_grid (s : State) (p : Nat) (x : PhysPort) : (s.setPort p x).grid = s.grid := rfl
@[simp] theorem State.setPort_flt (s : State) (p : Nat) (x : PhysPort) : (s.setPort p x).flt = s.flt := rfl
@[simp] theorem State.setPort_crt (s : State) (p : Nat) (x : PhysPort) : (s.setPort p x).crt = s.crt := rfl
@[simp] theorem State.setPort_pwr (s : State) (p : Nat) (x : PhysPort) : (s.setPort p x).pwr = s.pwr := rfl
@[simp] theorem State.setPort_host (s : State) (p : Nat) (x : PhysPort) : (s.setPort p x).host = s.host := rfl
@[simp] theorem State.setPort_mer (s : State) (p : Nat) (x : PhysPort) : (s.setPort p x).mer = s.mer := rfl
@[simp] theorem State.setPort_stk (s : State) (p : Nat) (x : PhysPort) : (s.setPort p x).stk = s.stk := rfl
@[simp] theorem State.setPort_far (s : State) (p : Nat) (x : PhysPort) : (s.setPort p x).far = s.far := rfl
@[simp] theorem State.setPort_plt (s : State) (p : Nat) (x : PhysPort) : (s.setPort p x).plt = s.plt := rfl
@[simp] theorem State.setPort_gaz (s : State) (p : Nat) (x : PhysPort) : (s.setPort p x).gaz = s.gaz := rfl
@[simp] theorem State.setPort_cfl (s : State) (p : Nat) (x : PhysPort) : (s.setPort p x).cfl = s.cfl := rfl
@[simp] theorem State.setPort_sht (s : State) (p : Nat) (x : PhysPort) : (s.setPort p x).sht = s.sht := rfl
@[simp] theorem State.setPort_atl (s : State) (p : Nat) (x : PhysPort) : (s.setPort p x).atl = s.atl := rfl
@[simp] theorem State.setPort_out (s : State) (p : Nat) (x : PhysPort) : (s.setPort p x).out = s.out := rfl
@[simp] theorem State.setPort_w1c (s : State) (p : Nat) (x : PhysPort) : (s.setPort p x).w1c = s.w1c := rfl

/-! ### State.setSub -/

@[simp] theorem State.setSub_pending (s : State) (l : Nat) (x : SubPort) : (s.setSub l x).pending = s.pending := rfl
@[simp] theorem State.setSub_now (s : State) (l : Nat) (x : SubPort) : (s.setSub l x).now = s.now := rfl
@[simp] theorem State.setSub_free (s : State) (l : Nat) (x : SubPort) : (s.setSub l x).free = s.free := rfl
@[simp] theorem State.setSub_cmp (s : State) (l : Nat) (x : SubPort) : (s.setSub l x).cmp = s.cmp := rfl
@[simp] theorem State.setSub_dtm (s : State) (l : Nat) (x : SubPort) : (s.setSub l x).dtm = s.dtm := rfl
@[simp] theorem State.setSub_lay (s : State) (l : Nat) (x : SubPort) : (s.setSub l x).lay = s.lay := rfl
@[simp] theorem State.setSub_grid (s : State) (l : Nat) (x : SubPort) : (s.setSub l x).grid = s.grid := rfl
@[simp] theorem State.setSub_flt (s : State) (l : Nat) (x : SubPort) : (s.setSub l x).flt = s.flt := rfl
@[simp] theorem State.setSub_crt (s : State) (l : Nat) (x : SubPort) : (s.setSub l x).crt = s.crt := rfl
@[simp] theorem State.setSub_pwr (s : State) (l : Nat) (x : SubPort) : (s.setSub l x).pwr = s.pwr := rfl
@[simp] theorem State.setSub_host (s : State) (l : Nat) (x : SubPort) : (s.setSub l x).host = s.host := rfl
@[simp] theorem State.setSub_mer (s : State) (l : Nat) (x : SubPort) : (s.setSub l x).mer = s.mer := rfl
@[simp] theorem State.setSub_stk (s : State) (l : Nat) (x : SubPort) : (s.setSub l x).stk = s.stk := rfl
@[simp] theorem State.setSub_far (s : State) (l : Nat) (x : SubPort) : (s.setSub l x).far = s.far := rfl
@[simp] theorem State.setSub_plt (s : State) (l : Nat) (x : SubPort) : (s.setSub l x).plt = s.plt := rfl
@[simp] theorem State.setSub_gaz (s : State) (l : Nat) (x : SubPort) : (s.setSub l x).gaz = s.gaz := rfl
@[simp] theorem State.setSub_cfl (s : State) (l : Nat) (x : SubPort) : (s.setSub l x).cfl = s.cfl := rfl
@[simp] theorem State.setSub_sht (s : State) (l : Nat) (x : SubPort) : (s.setSub l x).sht = s.sht := rfl
@[simp] theorem State.setSub_atl (s : State) (l : Nat) (x : SubPort) : (s.setSub l x).atl = s.atl := rfl
@[simp] theorem State.setSub_out (s : State) (l : Nat) (x : SubPort) : (s.setSub l x).out = s.out := rfl
@[simp] theorem State.setSub_w1c (s : State) (l : Nat) (x : SubPort) : (s.setSub l x).w1c = s.w1c := rfl

/-! ### State.setTrv -/

@[simp] theorem State.setTrv_pending (s : State) (d : Nat) (x : TrvDie) : (s.setTrv d x).pending = s.pending := rfl
@[simp] theorem State.setTrv_now (s : State) (d : Nat) (x : TrvDie) : (s.setTrv d x).now = s.now := rfl
@[simp] theorem State.setTrv_free (s : State) (d : Nat) (x : TrvDie) : (s.setTrv d x).free = s.free := rfl
@[simp] theorem State.setTrv_cmp (s : State) (d : Nat) (x : TrvDie) : (s.setTrv d x).cmp = s.cmp := rfl
@[simp] theorem State.setTrv_dtm (s : State) (d : Nat) (x : TrvDie) : (s.setTrv d x).dtm = s.dtm := rfl
@[simp] theorem State.setTrv_lay (s : State) (d : Nat) (x : TrvDie) : (s.setTrv d x).lay = s.lay := rfl
@[simp] theorem State.setTrv_grid (s : State) (d : Nat) (x : TrvDie) : (s.setTrv d x).grid = s.grid := rfl
@[simp] theorem State.setTrv_flt (s : State) (d : Nat) (x : TrvDie) : (s.setTrv d x).flt = s.flt := rfl
@[simp] theorem State.setTrv_crt (s : State) (d : Nat) (x : TrvDie) : (s.setTrv d x).crt = s.crt := rfl
@[simp] theorem State.setTrv_pwr (s : State) (d : Nat) (x : TrvDie) : (s.setTrv d x).pwr = s.pwr := rfl
@[simp] theorem State.setTrv_host (s : State) (d : Nat) (x : TrvDie) : (s.setTrv d x).host = s.host := rfl
@[simp] theorem State.setTrv_mer (s : State) (d : Nat) (x : TrvDie) : (s.setTrv d x).mer = s.mer := rfl
@[simp] theorem State.setTrv_stk (s : State) (d : Nat) (x : TrvDie) : (s.setTrv d x).stk = s.stk := rfl
@[simp] theorem State.setTrv_far (s : State) (d : Nat) (x : TrvDie) : (s.setTrv d x).far = s.far := rfl
@[simp] theorem State.setTrv_plt (s : State) (d : Nat) (x : TrvDie) : (s.setTrv d x).plt = s.plt := rfl
@[simp] theorem State.setTrv_gaz (s : State) (d : Nat) (x : TrvDie) : (s.setTrv d x).gaz = s.gaz := rfl
@[simp] theorem State.setTrv_cfl (s : State) (d : Nat) (x : TrvDie) : (s.setTrv d x).cfl = s.cfl := rfl
@[simp] theorem State.setTrv_sht (s : State) (d : Nat) (x : TrvDie) : (s.setTrv d x).sht = s.sht := rfl
@[simp] theorem State.setTrv_atl (s : State) (d : Nat) (x : TrvDie) : (s.setTrv d x).atl = s.atl := rfl
@[simp] theorem State.setTrv_out (s : State) (d : Nat) (x : TrvDie) : (s.setTrv d x).out = s.out := rfl
@[simp] theorem State.setTrv_w1c (s : State) (d : Nat) (x : TrvDie) : (s.setTrv d x).w1c = s.w1c := rfl

/-! ### State.setSht -/

@[simp] theorem State.setSht_pending (s : State) (x : Sheet) : (s.setSht x).pending = s.pending := rfl
@[simp] theorem State.setSht_now (s : State) (x : Sheet) : (s.setSht x).now = s.now := rfl
@[simp] theorem State.setSht_free (s : State) (x : Sheet) : (s.setSht x).free = s.free := rfl
@[simp] theorem State.setSht_cmp (s : State) (x : Sheet) : (s.setSht x).cmp = s.cmp := rfl
@[simp] theorem State.setSht_dtm (s : State) (x : Sheet) : (s.setSht x).dtm = s.dtm := rfl
@[simp] theorem State.setSht_lay (s : State) (x : Sheet) : (s.setSht x).lay = s.lay := rfl
@[simp] theorem State.setSht_grid (s : State) (x : Sheet) : (s.setSht x).grid = s.grid := rfl
@[simp] theorem State.setSht_flt (s : State) (x : Sheet) : (s.setSht x).flt = s.flt := rfl
@[simp] theorem State.setSht_crt (s : State) (x : Sheet) : (s.setSht x).crt = s.crt := rfl
@[simp] theorem State.setSht_pwr (s : State) (x : Sheet) : (s.setSht x).pwr = s.pwr := rfl
@[simp] theorem State.setSht_host (s : State) (x : Sheet) : (s.setSht x).host = s.host := rfl
@[simp] theorem State.setSht_mer (s : State) (x : Sheet) : (s.setSht x).mer = s.mer := rfl
@[simp] theorem State.setSht_stk (s : State) (x : Sheet) : (s.setSht x).stk = s.stk := rfl
@[simp] theorem State.setSht_far (s : State) (x : Sheet) : (s.setSht x).far = s.far := rfl
@[simp] theorem State.setSht_plt (s : State) (x : Sheet) : (s.setSht x).plt = s.plt := rfl
@[simp] theorem State.setSht_gaz (s : State) (x : Sheet) : (s.setSht x).gaz = s.gaz := rfl
@[simp] theorem State.setSht_cfl (s : State) (x : Sheet) : (s.setSht x).cfl = s.cfl := rfl
@[simp] theorem State.setSht_fab (s : State) (x : Sheet) : (s.setSht x).fab = s.fab := rfl
@[simp] theorem State.setSht_atl (s : State) (x : Sheet) : (s.setSht x).atl = s.atl := rfl
@[simp] theorem State.setSht_out (s : State) (x : Sheet) : (s.setSht x).out = s.out := rfl
@[simp] theorem State.setSht_w1c (s : State) (x : Sheet) : (s.setSht x).w1c = s.w1c := rfl

/-! ### State.setReqs -/

@[simp] theorem State.setReqs_pending (s : State) (l : List MemReq) : (s.setReqs l).pending = s.pending := rfl
@[simp] theorem State.setReqs_now (s : State) (l : List MemReq) : (s.setReqs l).now = s.now := rfl
@[simp] theorem State.setReqs_free (s : State) (l : List MemReq) : (s.setReqs l).free = s.free := rfl
@[simp] theorem State.setReqs_cmp (s : State) (l : List MemReq) : (s.setReqs l).cmp = s.cmp := rfl
@[simp] theorem State.setReqs_dtm (s : State) (l : List MemReq) : (s.setReqs l).dtm = s.dtm := rfl
@[simp] theorem State.setReqs_lay (s : State) (l : List MemReq) : (s.setReqs l).lay = s.lay := rfl
@[simp] theorem State.setReqs_grid (s : State) (l : List MemReq) : (s.setReqs l).grid = s.grid := rfl
@[simp] theorem State.setReqs_flt (s : State) (l : List MemReq) : (s.setReqs l).flt = s.flt := rfl
@[simp] theorem State.setReqs_crt (s : State) (l : List MemReq) : (s.setReqs l).crt = s.crt := rfl
@[simp] theorem State.setReqs_pwr (s : State) (l : List MemReq) : (s.setReqs l).pwr = s.pwr := rfl
@[simp] theorem State.setReqs_host (s : State) (l : List MemReq) : (s.setReqs l).host = s.host := rfl
@[simp] theorem State.setReqs_mer (s : State) (l : List MemReq) : (s.setReqs l).mer = s.mer := rfl
@[simp] theorem State.setReqs_far (s : State) (l : List MemReq) : (s.setReqs l).far = s.far := rfl
@[simp] theorem State.setReqs_plt (s : State) (l : List MemReq) : (s.setReqs l).plt = s.plt := rfl
@[simp] theorem State.setReqs_gaz (s : State) (l : List MemReq) : (s.setReqs l).gaz = s.gaz := rfl
@[simp] theorem State.setReqs_cfl (s : State) (l : List MemReq) : (s.setReqs l).cfl = s.cfl := rfl
@[simp] theorem State.setReqs_fab (s : State) (l : List MemReq) : (s.setReqs l).fab = s.fab := rfl
@[simp] theorem State.setReqs_sht (s : State) (l : List MemReq) : (s.setReqs l).sht = s.sht := rfl
@[simp] theorem State.setReqs_atl (s : State) (l : List MemReq) : (s.setReqs l).atl = s.atl := rfl
@[simp] theorem State.setReqs_out (s : State) (l : List MemReq) : (s.setReqs l).out = s.out := rfl
@[simp] theorem State.setReqs_w1c (s : State) (l : List MemReq) : (s.setReqs l).w1c = s.w1c := rfl

/-! ### State.setPch -/

@[simp] theorem State.setPch_pending (s : State) (q : Nat) (x : Pch) : (s.setPch q x).pending = s.pending := rfl
@[simp] theorem State.setPch_now (s : State) (q : Nat) (x : Pch) : (s.setPch q x).now = s.now := rfl
@[simp] theorem State.setPch_free (s : State) (q : Nat) (x : Pch) : (s.setPch q x).free = s.free := rfl
@[simp] theorem State.setPch_cmp (s : State) (q : Nat) (x : Pch) : (s.setPch q x).cmp = s.cmp := rfl
@[simp] theorem State.setPch_dtm (s : State) (q : Nat) (x : Pch) : (s.setPch q x).dtm = s.dtm := rfl
@[simp] theorem State.setPch_lay (s : State) (q : Nat) (x : Pch) : (s.setPch q x).lay = s.lay := rfl
@[simp] theorem State.setPch_grid (s : State) (q : Nat) (x : Pch) : (s.setPch q x).grid = s.grid := rfl
@[simp] theorem State.setPch_flt (s : State) (q : Nat) (x : Pch) : (s.setPch q x).flt = s.flt := rfl
@[simp] theorem State.setPch_crt (s : State) (q : Nat) (x : Pch) : (s.setPch q x).crt = s.crt := rfl
@[simp] theorem State.setPch_pwr (s : State) (q : Nat) (x : Pch) : (s.setPch q x).pwr = s.pwr := rfl
@[simp] theorem State.setPch_host (s : State) (q : Nat) (x : Pch) : (s.setPch q x).host = s.host := rfl
@[simp] theorem State.setPch_mer (s : State) (q : Nat) (x : Pch) : (s.setPch q x).mer = s.mer := rfl
@[simp] theorem State.setPch_far (s : State) (q : Nat) (x : Pch) : (s.setPch q x).far = s.far := rfl
@[simp] theorem State.setPch_plt (s : State) (q : Nat) (x : Pch) : (s.setPch q x).plt = s.plt := rfl
@[simp] theorem State.setPch_gaz (s : State) (q : Nat) (x : Pch) : (s.setPch q x).gaz = s.gaz := rfl
@[simp] theorem State.setPch_cfl (s : State) (q : Nat) (x : Pch) : (s.setPch q x).cfl = s.cfl := rfl
@[simp] theorem State.setPch_fab (s : State) (q : Nat) (x : Pch) : (s.setPch q x).fab = s.fab := rfl
@[simp] theorem State.setPch_sht (s : State) (q : Nat) (x : Pch) : (s.setPch q x).sht = s.sht := rfl
@[simp] theorem State.setPch_atl (s : State) (q : Nat) (x : Pch) : (s.setPch q x).atl = s.atl := rfl
@[simp] theorem State.setPch_out (s : State) (q : Nat) (x : Pch) : (s.setPch q x).out = s.out := rfl
@[simp] theorem State.setPch_w1c (s : State) (q : Nat) (x : Pch) : (s.setPch q x).w1c = s.w1c := rfl

/-! ### State.setChannel -/

@[simp] theorem State.setChannel_pending (s : State) (c : Nat) (x : Channel) : (s.setChannel c x).pending = s.pending := rfl
@[simp] theorem State.setChannel_now (s : State) (c : Nat) (x : Channel) : (s.setChannel c x).now = s.now := rfl
@[simp] theorem State.setChannel_free (s : State) (c : Nat) (x : Channel) : (s.setChannel c x).free = s.free := rfl
@[simp] theorem State.setChannel_cmp (s : State) (c : Nat) (x : Channel) : (s.setChannel c x).cmp = s.cmp := rfl
@[simp] theorem State.setChannel_dtm (s : State) (c : Nat) (x : Channel) : (s.setChannel c x).dtm = s.dtm := rfl
@[simp] theorem State.setChannel_lay (s : State) (c : Nat) (x : Channel) : (s.setChannel c x).lay = s.lay := rfl
@[simp] theorem State.setChannel_grid (s : State) (c : Nat) (x : Channel) : (s.setChannel c x).grid = s.grid := rfl
@[simp] theorem State.setChannel_flt (s : State) (c : Nat) (x : Channel) : (s.setChannel c x).flt = s.flt := rfl
@[simp] theorem State.setChannel_crt (s : State) (c : Nat) (x : Channel) : (s.setChannel c x).crt = s.crt := rfl
@[simp] theorem State.setChannel_pwr (s : State) (c : Nat) (x : Channel) : (s.setChannel c x).pwr = s.pwr := rfl
@[simp] theorem State.setChannel_host (s : State) (c : Nat) (x : Channel) : (s.setChannel c x).host = s.host := rfl
@[simp] theorem State.setChannel_mer (s : State) (c : Nat) (x : Channel) : (s.setChannel c x).mer = s.mer := rfl
@[simp] theorem State.setChannel_far (s : State) (c : Nat) (x : Channel) : (s.setChannel c x).far = s.far := rfl
@[simp] theorem State.setChannel_plt (s : State) (c : Nat) (x : Channel) : (s.setChannel c x).plt = s.plt := rfl
@[simp] theorem State.setChannel_gaz (s : State) (c : Nat) (x : Channel) : (s.setChannel c x).gaz = s.gaz := rfl
@[simp] theorem State.setChannel_cfl (s : State) (c : Nat) (x : Channel) : (s.setChannel c x).cfl = s.cfl := rfl
@[simp] theorem State.setChannel_fab (s : State) (c : Nat) (x : Channel) : (s.setChannel c x).fab = s.fab := rfl
@[simp] theorem State.setChannel_sht (s : State) (c : Nat) (x : Channel) : (s.setChannel c x).sht = s.sht := rfl
@[simp] theorem State.setChannel_atl (s : State) (c : Nat) (x : Channel) : (s.setChannel c x).atl = s.atl := rfl
@[simp] theorem State.setChannel_out (s : State) (c : Nat) (x : Channel) : (s.setChannel c x).out = s.out := rfl
@[simp] theorem State.setChannel_w1c (s : State) (c : Nat) (x : Channel) : (s.setChannel c x).w1c = s.w1c := rfl

/-! ### State.setFarPort -/

@[simp] theorem State.setFarPort_pending (s : State) (p : Nat) (x : FarPort) : (s.setFarPort p x).pending = s.pending := rfl
@[simp] theorem State.setFarPort_now (s : State) (p : Nat) (x : FarPort) : (s.setFarPort p x).now = s.now := rfl
@[simp] theorem State.setFarPort_free (s : State) (p : Nat) (x : FarPort) : (s.setFarPort p x).free = s.free := rfl
@[simp] theorem State.setFarPort_cmp (s : State) (p : Nat) (x : FarPort) : (s.setFarPort p x).cmp = s.cmp := rfl
@[simp] theorem State.setFarPort_dtm (s : State) (p : Nat) (x : FarPort) : (s.setFarPort p x).dtm = s.dtm := rfl
@[simp] theorem State.setFarPort_lay (s : State) (p : Nat) (x : FarPort) : (s.setFarPort p x).lay = s.lay := rfl
@[simp] theorem State.setFarPort_grid (s : State) (p : Nat) (x : FarPort) : (s.setFarPort p x).grid = s.grid := rfl
@[simp] theorem State.setFarPort_flt (s : State) (p : Nat) (x : FarPort) : (s.setFarPort p x).flt = s.flt := rfl
@[simp] theorem State.setFarPort_crt (s : State) (p : Nat) (x : FarPort) : (s.setFarPort p x).crt = s.crt := rfl
@[simp] theorem State.setFarPort_pwr (s : State) (p : Nat) (x : FarPort) : (s.setFarPort p x).pwr = s.pwr := rfl
@[simp] theorem State.setFarPort_host (s : State) (p : Nat) (x : FarPort) : (s.setFarPort p x).host = s.host := rfl
@[simp] theorem State.setFarPort_mer (s : State) (p : Nat) (x : FarPort) : (s.setFarPort p x).mer = s.mer := rfl
@[simp] theorem State.setFarPort_stk (s : State) (p : Nat) (x : FarPort) : (s.setFarPort p x).stk = s.stk := rfl
@[simp] theorem State.setFarPort_plt (s : State) (p : Nat) (x : FarPort) : (s.setFarPort p x).plt = s.plt := rfl
@[simp] theorem State.setFarPort_gaz (s : State) (p : Nat) (x : FarPort) : (s.setFarPort p x).gaz = s.gaz := rfl
@[simp] theorem State.setFarPort_cfl (s : State) (p : Nat) (x : FarPort) : (s.setFarPort p x).cfl = s.cfl := rfl
@[simp] theorem State.setFarPort_fab (s : State) (p : Nat) (x : FarPort) : (s.setFarPort p x).fab = s.fab := rfl
@[simp] theorem State.setFarPort_sht (s : State) (p : Nat) (x : FarPort) : (s.setFarPort p x).sht = s.sht := rfl
@[simp] theorem State.setFarPort_atl (s : State) (p : Nat) (x : FarPort) : (s.setFarPort p x).atl = s.atl := rfl
@[simp] theorem State.setFarPort_out (s : State) (p : Nat) (x : FarPort) : (s.setFarPort p x).out = s.out := rfl
@[simp] theorem State.setFarPort_w1c (s : State) (p : Nat) (x : FarPort) : (s.setFarPort p x).w1c = s.w1c := rfl

/-! ### State.setPool -/

@[simp] theorem State.setPool_pending (s : State) (d p : Nat) (x : Pool) : (s.setPool d p x).pending = s.pending := rfl
@[simp] theorem State.setPool_now (s : State) (d p : Nat) (x : Pool) : (s.setPool d p x).now = s.now := rfl
@[simp] theorem State.setPool_free (s : State) (d p : Nat) (x : Pool) : (s.setPool d p x).free = s.free := rfl
@[simp] theorem State.setPool_cmp (s : State) (d p : Nat) (x : Pool) : (s.setPool d p x).cmp = s.cmp := rfl
@[simp] theorem State.setPool_dtm (s : State) (d p : Nat) (x : Pool) : (s.setPool d p x).dtm = s.dtm := rfl
@[simp] theorem State.setPool_lay (s : State) (d p : Nat) (x : Pool) : (s.setPool d p x).lay = s.lay := rfl
@[simp] theorem State.setPool_grid (s : State) (d p : Nat) (x : Pool) : (s.setPool d p x).grid = s.grid := rfl
@[simp] theorem State.setPool_flt (s : State) (d p : Nat) (x : Pool) : (s.setPool d p x).flt = s.flt := rfl
@[simp] theorem State.setPool_crt (s : State) (d p : Nat) (x : Pool) : (s.setPool d p x).crt = s.crt := rfl
@[simp] theorem State.setPool_pwr (s : State) (d p : Nat) (x : Pool) : (s.setPool d p x).pwr = s.pwr := rfl
@[simp] theorem State.setPool_host (s : State) (d p : Nat) (x : Pool) : (s.setPool d p x).host = s.host := rfl
@[simp] theorem State.setPool_mer (s : State) (d p : Nat) (x : Pool) : (s.setPool d p x).mer = s.mer := rfl
@[simp] theorem State.setPool_stk (s : State) (d p : Nat) (x : Pool) : (s.setPool d p x).stk = s.stk := rfl
@[simp] theorem State.setPool_far (s : State) (d p : Nat) (x : Pool) : (s.setPool d p x).far = s.far := rfl
@[simp] theorem State.setPool_gaz (s : State) (d p : Nat) (x : Pool) : (s.setPool d p x).gaz = s.gaz := rfl
@[simp] theorem State.setPool_cfl (s : State) (d p : Nat) (x : Pool) : (s.setPool d p x).cfl = s.cfl := rfl
@[simp] theorem State.setPool_fab (s : State) (d p : Nat) (x : Pool) : (s.setPool d p x).fab = s.fab := rfl
@[simp] theorem State.setPool_sht (s : State) (d p : Nat) (x : Pool) : (s.setPool d p x).sht = s.sht := rfl
@[simp] theorem State.setPool_atl (s : State) (d p : Nat) (x : Pool) : (s.setPool d p x).atl = s.atl := rfl
@[simp] theorem State.setPool_out (s : State) (d p : Nat) (x : Pool) : (s.setPool d p x).out = s.out := rfl
@[simp] theorem State.setPool_w1c (s : State) (d p : Nat) (x : Pool) : (s.setPool d p x).w1c = s.w1c := rfl

/-! ### State.setBank -/

@[simp] theorem State.setBank_pending (s : State) (b : Nat) (x : Bank) : (s.setBank b x).pending = s.pending := rfl
@[simp] theorem State.setBank_now (s : State) (b : Nat) (x : Bank) : (s.setBank b x).now = s.now := rfl
@[simp] theorem State.setBank_free (s : State) (b : Nat) (x : Bank) : (s.setBank b x).free = s.free := rfl
@[simp] theorem State.setBank_cmp (s : State) (b : Nat) (x : Bank) : (s.setBank b x).cmp = s.cmp := rfl
@[simp] theorem State.setBank_dtm (s : State) (b : Nat) (x : Bank) : (s.setBank b x).dtm = s.dtm := rfl
@[simp] theorem State.setBank_lay (s : State) (b : Nat) (x : Bank) : (s.setBank b x).lay = s.lay := rfl
@[simp] theorem State.setBank_grid (s : State) (b : Nat) (x : Bank) : (s.setBank b x).grid = s.grid := rfl
@[simp] theorem State.setBank_flt (s : State) (b : Nat) (x : Bank) : (s.setBank b x).flt = s.flt := rfl
@[simp] theorem State.setBank_crt (s : State) (b : Nat) (x : Bank) : (s.setBank b x).crt = s.crt := rfl
@[simp] theorem State.setBank_pwr (s : State) (b : Nat) (x : Bank) : (s.setBank b x).pwr = s.pwr := rfl
@[simp] theorem State.setBank_host (s : State) (b : Nat) (x : Bank) : (s.setBank b x).host = s.host := rfl
@[simp] theorem State.setBank_mer (s : State) (b : Nat) (x : Bank) : (s.setBank b x).mer = s.mer := rfl
@[simp] theorem State.setBank_stk (s : State) (b : Nat) (x : Bank) : (s.setBank b x).stk = s.stk := rfl
@[simp] theorem State.setBank_far (s : State) (b : Nat) (x : Bank) : (s.setBank b x).far = s.far := rfl
@[simp] theorem State.setBank_plt (s : State) (b : Nat) (x : Bank) : (s.setBank b x).plt = s.plt := rfl
@[simp] theorem State.setBank_gaz (s : State) (b : Nat) (x : Bank) : (s.setBank b x).gaz = s.gaz := rfl
@[simp] theorem State.setBank_cfl (s : State) (b : Nat) (x : Bank) : (s.setBank b x).cfl = s.cfl := rfl
@[simp] theorem State.setBank_fab (s : State) (b : Nat) (x : Bank) : (s.setBank b x).fab = s.fab := rfl
@[simp] theorem State.setBank_sht (s : State) (b : Nat) (x : Bank) : (s.setBank b x).sht = s.sht := rfl
@[simp] theorem State.setBank_out (s : State) (b : Nat) (x : Bank) : (s.setBank b x).out = s.out := rfl
@[simp] theorem State.setBank_w1c (s : State) (b : Nat) (x : Bank) : (s.setBank b x).w1c = s.w1c := rfl

/-! ### State.setPwr -/

@[simp] theorem State.setPwr_pending (s : State) (p : Power) : (s.setPwr p).pending = s.pending := rfl
@[simp] theorem State.setPwr_now (s : State) (p : Power) : (s.setPwr p).now = s.now := rfl
@[simp] theorem State.setPwr_free (s : State) (p : Power) : (s.setPwr p).free = s.free := rfl
@[simp] theorem State.setPwr_cmp (s : State) (p : Power) : (s.setPwr p).cmp = s.cmp := rfl
@[simp] theorem State.setPwr_dtm (s : State) (p : Power) : (s.setPwr p).dtm = s.dtm := rfl
@[simp] theorem State.setPwr_lay (s : State) (p : Power) : (s.setPwr p).lay = s.lay := rfl
@[simp] theorem State.setPwr_grid (s : State) (p : Power) : (s.setPwr p).grid = s.grid := rfl
@[simp] theorem State.setPwr_flt (s : State) (p : Power) : (s.setPwr p).flt = s.flt := rfl
@[simp] theorem State.setPwr_crt (s : State) (p : Power) : (s.setPwr p).crt = s.crt := rfl
@[simp] theorem State.setPwr_host (s : State) (p : Power) : (s.setPwr p).host = s.host := rfl
@[simp] theorem State.setPwr_mer (s : State) (p : Power) : (s.setPwr p).mer = s.mer := rfl
@[simp] theorem State.setPwr_stk (s : State) (p : Power) : (s.setPwr p).stk = s.stk := rfl
@[simp] theorem State.setPwr_far (s : State) (p : Power) : (s.setPwr p).far = s.far := rfl
@[simp] theorem State.setPwr_plt (s : State) (p : Power) : (s.setPwr p).plt = s.plt := rfl
@[simp] theorem State.setPwr_gaz (s : State) (p : Power) : (s.setPwr p).gaz = s.gaz := rfl
@[simp] theorem State.setPwr_cfl (s : State) (p : Power) : (s.setPwr p).cfl = s.cfl := rfl
@[simp] theorem State.setPwr_fab (s : State) (p : Power) : (s.setPwr p).fab = s.fab := rfl
@[simp] theorem State.setPwr_sht (s : State) (p : Power) : (s.setPwr p).sht = s.sht := rfl
@[simp] theorem State.setPwr_atl (s : State) (p : Power) : (s.setPwr p).atl = s.atl := rfl
@[simp] theorem State.setPwr_out (s : State) (p : Power) : (s.setPwr p).out = s.out := rfl
@[simp] theorem State.setPwr_w1c (s : State) (p : Power) : (s.setPwr p).w1c = s.w1c := rfl

/-! ### State.setCrt -/

@[simp] theorem State.setCrt_pending (s : State) (c : Cartouche) : (s.setCrt c).pending = s.pending := rfl
@[simp] theorem State.setCrt_now (s : State) (c : Cartouche) : (s.setCrt c).now = s.now := rfl
@[simp] theorem State.setCrt_free (s : State) (c : Cartouche) : (s.setCrt c).free = s.free := rfl
@[simp] theorem State.setCrt_cmp (s : State) (c : Cartouche) : (s.setCrt c).cmp = s.cmp := rfl
@[simp] theorem State.setCrt_dtm (s : State) (c : Cartouche) : (s.setCrt c).dtm = s.dtm := rfl
@[simp] theorem State.setCrt_lay (s : State) (c : Cartouche) : (s.setCrt c).lay = s.lay := rfl
@[simp] theorem State.setCrt_grid (s : State) (c : Cartouche) : (s.setCrt c).grid = s.grid := rfl
@[simp] theorem State.setCrt_flt (s : State) (c : Cartouche) : (s.setCrt c).flt = s.flt := rfl
@[simp] theorem State.setCrt_pwr (s : State) (c : Cartouche) : (s.setCrt c).pwr = s.pwr := rfl
@[simp] theorem State.setCrt_host (s : State) (c : Cartouche) : (s.setCrt c).host = s.host := rfl
@[simp] theorem State.setCrt_mer (s : State) (c : Cartouche) : (s.setCrt c).mer = s.mer := rfl
@[simp] theorem State.setCrt_stk (s : State) (c : Cartouche) : (s.setCrt c).stk = s.stk := rfl
@[simp] theorem State.setCrt_far (s : State) (c : Cartouche) : (s.setCrt c).far = s.far := rfl
@[simp] theorem State.setCrt_plt (s : State) (c : Cartouche) : (s.setCrt c).plt = s.plt := rfl
@[simp] theorem State.setCrt_gaz (s : State) (c : Cartouche) : (s.setCrt c).gaz = s.gaz := rfl
@[simp] theorem State.setCrt_cfl (s : State) (c : Cartouche) : (s.setCrt c).cfl = s.cfl := rfl
@[simp] theorem State.setCrt_fab (s : State) (c : Cartouche) : (s.setCrt c).fab = s.fab := rfl
@[simp] theorem State.setCrt_sht (s : State) (c : Cartouche) : (s.setCrt c).sht = s.sht := rfl
@[simp] theorem State.setCrt_atl (s : State) (c : Cartouche) : (s.setCrt c).atl = s.atl := rfl
@[simp] theorem State.setCrt_out (s : State) (c : Cartouche) : (s.setCrt c).out = s.out := rfl
@[simp] theorem State.setCrt_w1c (s : State) (c : Cartouche) : (s.setCrt c).w1c = s.w1c := rfl

/-! ### State.setQueue -/

@[simp] theorem State.setQueue_pending (s : State) (q : Nat) (x : DmaQueue) : (s.setQueue q x).pending = s.pending := rfl
@[simp] theorem State.setQueue_now (s : State) (q : Nat) (x : DmaQueue) : (s.setQueue q x).now = s.now := rfl
@[simp] theorem State.setQueue_free (s : State) (q : Nat) (x : DmaQueue) : (s.setQueue q x).free = s.free := rfl
@[simp] theorem State.setQueue_dtm (s : State) (q : Nat) (x : DmaQueue) : (s.setQueue q x).dtm = s.dtm := rfl
@[simp] theorem State.setQueue_lay (s : State) (q : Nat) (x : DmaQueue) : (s.setQueue q x).lay = s.lay := rfl
@[simp] theorem State.setQueue_grid (s : State) (q : Nat) (x : DmaQueue) : (s.setQueue q x).grid = s.grid := rfl
@[simp] theorem State.setQueue_flt (s : State) (q : Nat) (x : DmaQueue) : (s.setQueue q x).flt = s.flt := rfl
@[simp] theorem State.setQueue_crt (s : State) (q : Nat) (x : DmaQueue) : (s.setQueue q x).crt = s.crt := rfl
@[simp] theorem State.setQueue_pwr (s : State) (q : Nat) (x : DmaQueue) : (s.setQueue q x).pwr = s.pwr := rfl
@[simp] theorem State.setQueue_host (s : State) (q : Nat) (x : DmaQueue) : (s.setQueue q x).host = s.host := rfl
@[simp] theorem State.setQueue_mer (s : State) (q : Nat) (x : DmaQueue) : (s.setQueue q x).mer = s.mer := rfl
@[simp] theorem State.setQueue_stk (s : State) (q : Nat) (x : DmaQueue) : (s.setQueue q x).stk = s.stk := rfl
@[simp] theorem State.setQueue_far (s : State) (q : Nat) (x : DmaQueue) : (s.setQueue q x).far = s.far := rfl
@[simp] theorem State.setQueue_plt (s : State) (q : Nat) (x : DmaQueue) : (s.setQueue q x).plt = s.plt := rfl
@[simp] theorem State.setQueue_gaz (s : State) (q : Nat) (x : DmaQueue) : (s.setQueue q x).gaz = s.gaz := rfl
@[simp] theorem State.setQueue_cfl (s : State) (q : Nat) (x : DmaQueue) : (s.setQueue q x).cfl = s.cfl := rfl
@[simp] theorem State.setQueue_fab (s : State) (q : Nat) (x : DmaQueue) : (s.setQueue q x).fab = s.fab := rfl
@[simp] theorem State.setQueue_sht (s : State) (q : Nat) (x : DmaQueue) : (s.setQueue q x).sht = s.sht := rfl
@[simp] theorem State.setQueue_atl (s : State) (q : Nat) (x : DmaQueue) : (s.setQueue q x).atl = s.atl := rfl
@[simp] theorem State.setQueue_out (s : State) (q : Nat) (x : DmaQueue) : (s.setQueue q x).out = s.out := rfl
@[simp] theorem State.setQueue_w1c (s : State) (q : Nat) (x : DmaQueue) : (s.setQueue q x).w1c = s.w1c := rfl

/-! ### State.w1cSet -/

@[simp] theorem State.w1cSet_pending (s : State) (a m : Nat) : (s.w1cSet a m).pending = s.pending := rfl
@[simp] theorem State.w1cSet_now (s : State) (a m : Nat) : (s.w1cSet a m).now = s.now := rfl
@[simp] theorem State.w1cSet_free (s : State) (a m : Nat) : (s.w1cSet a m).free = s.free := rfl
@[simp] theorem State.w1cSet_cmp (s : State) (a m : Nat) : (s.w1cSet a m).cmp = s.cmp := rfl
@[simp] theorem State.w1cSet_dtm (s : State) (a m : Nat) : (s.w1cSet a m).dtm = s.dtm := rfl
@[simp] theorem State.w1cSet_lay (s : State) (a m : Nat) : (s.w1cSet a m).lay = s.lay := rfl
@[simp] theorem State.w1cSet_grid (s : State) (a m : Nat) : (s.w1cSet a m).grid = s.grid := rfl
@[simp] theorem State.w1cSet_flt (s : State) (a m : Nat) : (s.w1cSet a m).flt = s.flt := rfl
@[simp] theorem State.w1cSet_crt (s : State) (a m : Nat) : (s.w1cSet a m).crt = s.crt := rfl
@[simp] theorem State.w1cSet_pwr (s : State) (a m : Nat) : (s.w1cSet a m).pwr = s.pwr := rfl
@[simp] theorem State.w1cSet_host (s : State) (a m : Nat) : (s.w1cSet a m).host = s.host := rfl
@[simp] theorem State.w1cSet_mer (s : State) (a m : Nat) : (s.w1cSet a m).mer = s.mer := rfl
@[simp] theorem State.w1cSet_stk (s : State) (a m : Nat) : (s.w1cSet a m).stk = s.stk := rfl
@[simp] theorem State.w1cSet_far (s : State) (a m : Nat) : (s.w1cSet a m).far = s.far := rfl
@[simp] theorem State.w1cSet_plt (s : State) (a m : Nat) : (s.w1cSet a m).plt = s.plt := rfl
@[simp] theorem State.w1cSet_gaz (s : State) (a m : Nat) : (s.w1cSet a m).gaz = s.gaz := rfl
@[simp] theorem State.w1cSet_cfl (s : State) (a m : Nat) : (s.w1cSet a m).cfl = s.cfl := rfl
@[simp] theorem State.w1cSet_fab (s : State) (a m : Nat) : (s.w1cSet a m).fab = s.fab := rfl
@[simp] theorem State.w1cSet_sht (s : State) (a m : Nat) : (s.w1cSet a m).sht = s.sht := rfl
@[simp] theorem State.w1cSet_atl (s : State) (a m : Nat) : (s.w1cSet a m).atl = s.atl := rfl
@[simp] theorem State.w1cSet_out (s : State) (a m : Nat) : (s.w1cSet a m).out = s.out := rfl

/-! ### State.tally -/

@[simp] theorem State.tally_pending (s : State) (a n : Nat) : (s.tally a n).pending = s.pending := rfl
@[simp] theorem State.tally_now (s : State) (a n : Nat) : (s.tally a n).now = s.now := rfl
@[simp] theorem State.tally_free (s : State) (a n : Nat) : (s.tally a n).free = s.free := rfl
@[simp] theorem State.tally_cmp (s : State) (a n : Nat) : (s.tally a n).cmp = s.cmp := rfl
@[simp] theorem State.tally_dtm (s : State) (a n : Nat) : (s.tally a n).dtm = s.dtm := rfl
@[simp] theorem State.tally_lay (s : State) (a n : Nat) : (s.tally a n).lay = s.lay := rfl
@[simp] theorem State.tally_grid (s : State) (a n : Nat) : (s.tally a n).grid = s.grid := rfl
@[simp] theorem State.tally_flt (s : State) (a n : Nat) : (s.tally a n).flt = s.flt := rfl
@[simp] theorem State.tally_crt (s : State) (a n : Nat) : (s.tally a n).crt = s.crt := rfl
@[simp] theorem State.tally_pwr (s : State) (a n : Nat) : (s.tally a n).pwr = s.pwr := rfl
@[simp] theorem State.tally_host (s : State) (a n : Nat) : (s.tally a n).host = s.host := rfl
@[simp] theorem State.tally_mer (s : State) (a n : Nat) : (s.tally a n).mer = s.mer := rfl
@[simp] theorem State.tally_stk (s : State) (a n : Nat) : (s.tally a n).stk = s.stk := rfl
@[simp] theorem State.tally_far (s : State) (a n : Nat) : (s.tally a n).far = s.far := rfl
@[simp] theorem State.tally_plt (s : State) (a n : Nat) : (s.tally a n).plt = s.plt := rfl
@[simp] theorem State.tally_gaz (s : State) (a n : Nat) : (s.tally a n).gaz = s.gaz := rfl
@[simp] theorem State.tally_cfl (s : State) (a n : Nat) : (s.tally a n).cfl = s.cfl := rfl
@[simp] theorem State.tally_fab (s : State) (a n : Nat) : (s.tally a n).fab = s.fab := rfl
@[simp] theorem State.tally_sht (s : State) (a n : Nat) : (s.tally a n).sht = s.sht := rfl
@[simp] theorem State.tally_atl (s : State) (a n : Nat) : (s.tally a n).atl = s.atl := rfl
@[simp] theorem State.tally_out (s : State) (a n : Nat) : (s.tally a n).out = s.out := rfl

/-! ### What is read back -/

@[simp] theorem State.tile_setTile (s : State) (t : Nat) (x : Tile) : (s.setTile t x).tile t = x := by
  simp [State.setTile, State.tile]

theorem State.tile_setTile_other (s : State) {t u : Nat} (h : u ≠ t) (x : Tile) : (s.setTile t x).tile u = s.tile u := by
  simp [State.setTile, State.tile, SMap.lookD_put_other _ h]

@[simp] theorem State.tile_onTile (s : State) (t : Nat) (f : Tile → Tile) : (s.onTile t f).tile t = f (s.tile t) := by
  simp [State.onTile]

theorem State.tile_onTile_other (s : State) {t u : Nat} (h : u ≠ t) (f : Tile → Tile) : (s.onTile t f).tile u = s.tile u := by
  simp [State.onTile, State.tile_setTile_other _ h]

@[simp] theorem State.mesh_setTile (s : State) (t : Nat) (x : Tile) : (s.setTile t x).grid.mesh = s.grid.mesh := rfl
@[simp] theorem State.shift_setTile (s : State) (t : Nat) (x : Tile) : (s.setTile t x).grid.shift = s.grid.shift := rfl

@[simp] theorem State.fn_setFn (s : State) (f : Nat) (x : FnState) : (s.setFn f x).fn f = x := by simp [State.setFn, State.fn]
theorem State.fn_setFn_other (s : State) {f g : Nat} (h : g ≠ f) (x : FnState) : (s.setFn f x).fn g = s.fn g := by
  simp [State.setFn, State.fn, SMap.lookD_put_other _ h]

@[simp] theorem State.inflight_setInflight (s : State) (l : List InFlight) : (s.setInflight l).cmp.inflight = l := rfl
@[simp] theorem State.dtm_setDtm (s : State) (d : Datum) : (s.setDtm d).dtm = d := rfl
@[simp] theorem State.mer_setMer (s : State) (m : Meridian) : (s.setMer m).mer = m := rfl
@[simp] theorem State.cfl_setCfl (s : State) (c : Cfl) : (s.setCfl c).cfl = c := rfl
@[simp] theorem State.gaz_setGaz (s : State) (g : Gaz) : (s.setGaz g).gaz = g := rfl
@[simp] theorem State.fab_setFab (s : State) (f : Fabric) : (s.setFab f).fab = f := rfl
@[simp] theorem State.sht_setSht (s : State) (x : Sheet) : (s.setSht x).sht = x := rfl
@[simp] theorem State.pwr_setPwr (s : State) (p : Power) : (s.setPwr p).pwr = p := rfl
@[simp] theorem State.crt_setCrt (s : State) (c : Cartouche) : (s.setCrt c).crt = c := rfl
@[simp] theorem State.now_at (s : State) (cc : Nat) : (s.at cc).now = Nat.max s.now cc := rfl
@[simp] theorem State.partMode_setPart (s : State) (p : Nat) (m : PartMode) : (s.setPart p m).partMode p = m := by
  simp [State.setPart, State.partMode]
@[simp] theorem State.sub_setSub (s : State) (l : Nat) (x : SubPort) : (s.setSub l x).sub l = x := by
  simp [State.setSub, State.sub]
@[simp] theorem State.port_setPort (s : State) (p : Nat) (x : PhysPort) : (s.setPort p x).port p = x := by
  simp [State.setPort, State.port]
@[simp] theorem State.farPort_setFarPort (s : State) (p : Nat) (x : FarPort) : (s.setFarPort p x).farPort p = x := by
  simp [State.setFarPort, State.farPort]
@[simp] theorem State.queue_setQueue (s : State) (q : Nat) (x : DmaQueue) : (s.setQueue q x).queue q = x := by
  simp [State.setQueue, State.queue]
@[simp] theorem State.pool_setPool (s : State) (d p : Nat) (x : Pool) : (s.setPool d p x).pool d p = x := by
  simp [State.setPool, State.pool]
@[simp] theorem State.bank_setBank (s : State) (b : Nat) (x : Bank) : (s.setBank b x).bank b = x := by
  simp [State.setBank, State.bank]
@[simp] theorem State.channel_setChannel (s : State) (c : Nat) (x : Channel) : (s.setChannel c x).channel c = x := by
  simp [State.setChannel, State.channel]
@[simp] theorem State.pch_setPch (s : State) (q : Nat) (x : Pch) : (s.setPch q x).pch q = x := by
  simp [State.setPch, State.pch]
@[simp] theorem State.hostMem_hostWrite (s : State) (f a : Nat) (bs : List Byte) :
    (s.hostWrite f a bs).hostMem f = (s.hostMem f).writeN a bs := by
  simp [State.hostWrite, State.hostMem]
theorem State.hostMem_hostWrite_other (s : State) {f g : Nat} (h : g ≠ f) (a : Nat) (bs : List Byte) :
    (s.hostWrite f a bs).hostMem g = s.hostMem g := by
  simp [State.hostWrite, State.hostMem, SMap.lookD_put_other _ h]

end Sys2Proof.Machine
end

