-- ==== Sys2Proof/Laws/Kci.lean ====
section
/-! SUPPORT. What running a KCI command comes to when its way is free, and what it leaves. -/

namespace Sys2Proof.Machine

/-- The record under which a free command enters flight. -/
def entryOf (k : Kci) (opcode : Nat) (s : State) : InFlight :=
  { src := k.src, mbox := k.mbox, tag := k.tag, opcode := opcode, part := k.part, words := k.words, accepted := s.timebase,
    zero := s.dtm.tbZero, direct := true, stage := .waiting, status := .ok, dup := false, immediate := false }

theorem entryOf_isFor (k : Kci) (opcode : Nat) (s : State) : (entryOf k opcode s).isFor k opcode = true := by
  simp [entryOf, InFlight.isFor, InFlight.sameTag]

theorem acceptCheck_open {s : State} {k : Kci} (opcode : Nat) (h : s.Open k) :
    s.acceptCheck k.src k.tag opcode true false = none := by
  have ht := h.tag
  have hp := h.priv
  simp only [State.acceptCheck, ht]
  cases hk : k.src <;> simp_all [Source.privileged]

/-- A free command enters flight as WAITING. -/
theorem enter_open {s : State} {k : Kci} (opcode : Nat) (h : s.Open k) :
    s.enter k opcode = s.setInflight (s.cmp.inflight ++ [entryOf k opcode s]) := by
  simp [State.enter, acceptCheck_open opcode h, entryOf]

/-- No record of a free command is in flight before it. -/
theorem no_record {s : State} {k : Kci} (opcode : Nat) (h : s.Open k) :
    s.cmp.inflight.any (fun r => r.isFor k opcode) = false := by
  have ht := h.tag
  simp only [List.any_eq_false] at ht ⊢
  intro r hr
  have := ht r hr
  simp_all [InFlight.isFor]

/-- The state in which the body of a free command runs. -/
def State.entered (s : State) (k : Kci) (opcode : Nat) : State := s.setInflight (s.cmp.inflight ++ [entryOf k opcode s])

/-- A command whose way is free takes effect at once, as one commit (R469 to R472). -/
theorem kciRun_open {s : State} {k : Kci} (h : s.Open k) (opcode : Nat) (body : State → KRes) (records conf : Bool) (key : Nat)
    (regions dies : List Nat) :
    kciRun opcode k s body records conf key regions dies = kciEnd opcode k records conf key (body (s.entered k opcode)) := by
  have hr := no_record opcode h
  have hheld : (s.setInflight (s.cmp.inflight ++ [entryOf k opcode s])).kciHeld regions dies = false := by
    have h1 : ∀ r, ((s.setInflight (s.cmp.inflight ++ [entryOf k opcode s])).lay.region.lookD r {}).restarting = false := h.region
    have h2 : ∀ d, ((s.setInflight (s.cmp.inflight ++ [entryOf k opcode s])).lay.quad.lookD d {}).restarting = false := h.quad
    have h3 : (s.setInflight (s.cmp.inflight ++ [entryOf k opcode s])).cmp.state = .ready := h.ready
    simp only [State.kciHeld, h1, h2, h3]; simp
  have hj : (s.setInflight (s.cmp.inflight ++ [entryOf k opcode s])).journalStops opcode records = false := by
    have : (s.setInflight (s.cmp.inflight ++ [entryOf k opcode s])).itinFull = false := h.room
    simp [State.journalStops, this]
  have hb : (s.setInflight (s.cmp.inflight ++ [entryOf k opcode s])).kciBehind k opcode = false := by
    have ht := h.turn
    have hnone : ∀ x ∈ s.cmp.inflight, (!x.isFor k opcode) = true := fun x hx => by
      simpa using (List.any_eq_false.mp hr) x hx
    simp only [State.kciBehind, State.inflight_setInflight, List.takeWhile_append_of_pos hnone]
    simp [entryOf_isFor, ht]
  have hring : (s.setInflight (s.cmp.inflight ++ [entryOf k opcode s])).ringFull = false := h.ring
  have hin : (s.setInflight (s.cmp.inflight ++ [entryOf k opcode s])).cmp.inflight.any (fun r => r.isFor k opcode) = true := by
    simp [entryOf_isFor]
  simp only [kciRun, hr, Bool.false_eq_true, if_false, enter_open opcode h, hheld, hb, hring, Bool.and_false, Bool.or_false, hin, if_true, hj, Bool.false_and, State.entered]

/-! ### What a command that ended leaves -/

theorem adjFirst_any {α : Type} (p : α → Bool) (f : α → α) (l : List α) (h : l.any p = true) :
    ∃ x, p x = true ∧ x ∈ l ∧ f x ∈ adjFirst p f l := by
  induction l with
  | nil => simp at h
  | cons a l ih =>
    by_cases ha : p a = true
    · exact ⟨a, ha, by simp, by simp [adjFirst, ha]⟩
    · simp only [List.any_cons, ha, Bool.false_or] at h
      obtain ⟨x, hx, hm, hf⟩ := ih h
      exact ⟨x, hx, by simp [hm], by simp [adjFirst, ha, hf]⟩

theorem kciEnd_inflight (opcode : Nat) (k : Kci) (conf : Bool) (key : Nat) (r : KRes) :
    (if conf && (decide (r.status = .ok) || r.record) then r.st.config opcode k.words key else r.st).cmp.inflight = r.st.cmp.inflight := by
  split <;> simp [State.config]

/-- A command that waits for nothing is answered with the status and the result of its body. -/
theorem kciEnd_answered {k : Kci} {opcode : Nat} {records conf : Bool} {key : Nat} {r : KRes}
    (hin : r.st.cmp.inflight.any (fun x => x.isFor k opcode) = true) (hk : r.keys = []) :
    (kciEnd opcode k records conf key r).Answered k opcode r.status r.result := by
  obtain ⟨x, hx, hm, hf⟩ := adjFirst_any (fun x => x.isFor k opcode)
    (fun x => { x with stage := if r.keys.isEmpty then .done else .running r.keys, status := r.status, result := r.result,
                       immediate := r.keys.isEmpty, old := false,
                       itin := if records && (decide (r.status = .ok) || r.record) then
                         some ((if recordsOperands opcode then operandConts k.words else []) ++ r.cont) else none }) r.st.cmp.inflight hin
  refine ⟨_, by
    simp only [kciEnd, State.inflight_setInflight]
    rw [kciEnd_inflight opcode k conf key r]; exact hf, ?_⟩
  simp only [InFlight.isFor, InFlight.sameTag, Bool.and_eq_true, decide_eq_true_eq] at hx
  simp [hx, hk]

/-- A command that waits for items is under way. -/
theorem kciEnd_running {k : Kci} {opcode : Nat} {records conf : Bool} {key : Nat} {r : KRes}
    (hin : r.st.cmp.inflight.any (fun x => x.isFor k opcode) = true) (hk : r.keys ≠ []) (hs : r.status = .ok) :
    (kciEnd opcode k records conf key r).Running k opcode r.keys := by
  obtain ⟨x, hx, hm, hf⟩ := adjFirst_any (fun x => x.isFor k opcode)
    (fun x => { x with stage := if r.keys.isEmpty then .done else .running r.keys, status := r.status, result := r.result,
                       immediate := r.keys.isEmpty, old := false,
                       itin := if records && (decide (r.status = .ok) || r.record) then
                         some ((if recordsOperands opcode then operandConts k.words else []) ++ r.cont) else none }) r.st.cmp.inflight hin
  refine ⟨_, by
    simp only [kciEnd, State.inflight_setInflight]
    rw [kciEnd_inflight opcode k conf key r]; exact hf, ?_⟩
  simp only [InFlight.isFor, InFlight.sameTag, Bool.and_eq_true, decide_eq_true_eq] at hx
  simp [hx, hk, hs]

@[simp] theorem entered_has (s : State) (k : Kci) (opcode : Nat) :
    (s.entered k opcode).cmp.inflight.any (fun x => x.isFor k opcode) = true := by
  simp [State.entered, entryOf_isFor]

/-- The frame of kciEnd: everything but Compass is as the body left it. -/
theorem kciEnd_frame (opcode : Nat) (k : Kci) (records conf : Bool) (key : Nat) (r : KRes) :
    ∃ c, kciEnd opcode k records conf key r = { r.st with cmp := c } ∧ ∃ cf l, c = { r.st.cmp with config := cf, inflight := l } := by
  simp only [kciEnd]
  split
  · exact ⟨_, rfl, _, _, rfl⟩
  · exact ⟨_, rfl, _, _, rfl⟩

@[simp] theorem kciEnd_pending (o : Nat) (k : Kci) (a b : Bool) (n : Nat) (r : KRes) : (kciEnd o k a b n r).pending = r.st.pending := by
  simp only [kciEnd]; split <;> rfl
@[simp] theorem kciEnd_now (o : Nat) (k : Kci) (a b : Bool) (n : Nat) (r : KRes) : (kciEnd o k a b n r).now = r.st.now := by
  simp only [kciEnd]; split <;> rfl
@[simp] theorem kciEnd_free (o : Nat) (k : Kci) (a b : Bool) (n : Nat) (r : KRes) : (kciEnd o k a b n r).free = r.st.free := by
  simp only [kciEnd]; split <;> rfl
@[simp] theorem kciEnd_dtm (o : Nat) (k : Kci) (a b : Bool) (n : Nat) (r : KRes) : (kciEnd o k a b n r).dtm = r.st.dtm := by
  simp only [kciEnd]; split <;> rfl
@[simp] theorem kciEnd_lay (o : Nat) (k : Kci) (a b : Bool) (n : Nat) (r : KRes) : (kciEnd o k a b n r).lay = r.st.lay := by
  simp only [kciEnd]; split <;> rfl
@[simp] theorem kciEnd_grid (o : Nat) (k : Kci) (a b : Bool) (n : Nat) (r : KRes) : (kciEnd o k a b n r).grid = r.st.grid := by
  simp only [kciEnd]; split <;> rfl
@[simp] theorem kciEnd_flt (o : Nat) (k : Kci) (a b : Bool) (n : Nat) (r : KRes) : (kciEnd o k a b n r).flt = r.st.flt := by
  simp only [kciEnd]; split <;> rfl
@[simp] theorem kciEnd_crt (o : Nat) (k : Kci) (a b : Bool) (n : Nat) (r : KRes) : (kciEnd o k a b n r).crt = r.st.crt := by
  simp only [kciEnd]; split <;> rfl
@[simp] theorem kciEnd_pwr (o : Nat) (k : Kci) (a b : Bool) (n : Nat) (r : KRes) : (kciEnd o k a b n r).pwr = r.st.pwr := by
  simp only [kciEnd]; split <;> rfl
@[simp] theorem kciEnd_host (o : Nat) (k : Kci) (a b : Bool) (n : Nat) (r : KRes) : (kciEnd o k a b n r).host = r.st.host := by
  simp only [kciEnd]; split <;> rfl
@[simp] theorem kciEnd_mer (o : Nat) (k : Kci) (a b : Bool) (n : Nat) (r : KRes) : (kciEnd o k a b n r).mer = r.st.mer := by
  simp only [kciEnd]; split <;> rfl
@[simp] theorem kciEnd_stk (o : Nat) (k : Kci) (a b : Bool) (n : Nat) (r : KRes) : (kciEnd o k a b n r).stk = r.st.stk := by
  simp only [kciEnd]; split <;> rfl
@[simp] theorem kciEnd_far (o : Nat) (k : Kci) (a b : Bool) (n : Nat) (r : KRes) : (kciEnd o k a b n r).far = r.st.far := by
  simp only [kciEnd]; split <;> rfl
@[simp] theorem kciEnd_plt (o : Nat) (k : Kci) (a b : Bool) (n : Nat) (r : KRes) : (kciEnd o k a b n r).plt = r.st.plt := by
  simp only [kciEnd]; split <;> rfl
@[simp] theorem kciEnd_gaz (o : Nat) (k : Kci) (a b : Bool) (n : Nat) (r : KRes) : (kciEnd o k a b n r).gaz = r.st.gaz := by
  simp only [kciEnd]; split <;> rfl
@[simp] theorem kciEnd_cfl (o : Nat) (k : Kci) (a b : Bool) (n : Nat) (r : KRes) : (kciEnd o k a b n r).cfl = r.st.cfl := by
  simp only [kciEnd]; split <;> rfl
@[simp] theorem kciEnd_fab (o : Nat) (k : Kci) (a b : Bool) (n : Nat) (r : KRes) : (kciEnd o k a b n r).fab = r.st.fab := by
  simp only [kciEnd]; split <;> rfl
@[simp] theorem kciEnd_sht (o : Nat) (k : Kci) (a b : Bool) (n : Nat) (r : KRes) : (kciEnd o k a b n r).sht = r.st.sht := by
  simp only [kciEnd]; split <;> rfl
@[simp] theorem kciEnd_atl (o : Nat) (k : Kci) (a b : Bool) (n : Nat) (r : KRes) : (kciEnd o k a b n r).atl = r.st.atl := by
  simp only [kciEnd]; split <;> rfl
@[simp] theorem kciEnd_out (o : Nat) (k : Kci) (a b : Bool) (n : Nat) (r : KRes) : (kciEnd o k a b n r).out = r.st.out := by
  simp only [kciEnd]; split <;> rfl
@[simp] theorem kciEnd_w1c (o : Nat) (k : Kci) (a b : Bool) (n : Nat) (r : KRes) : (kciEnd o k a b n r).w1c = r.st.w1c := by
  simp only [kciEnd]; split <;> rfl
@[simp] theorem entered_pending (s : State) (k : Kci) (o : Nat) : (s.entered k o).pending = s.pending := rfl
@[simp] theorem entered_now (s : State) (k : Kci) (o : Nat) : (s.entered k o).now = s.now := rfl
@[simp] theorem entered_free (s : State) (k : Kci) (o : Nat) : (s.entered k o).free = s.free := rfl
@[simp] theorem entered_dtm (s : State) (k : Kci) (o : Nat) : (s.entered k o).dtm = s.dtm := rfl
@[simp] theorem entered_lay (s : State) (k : Kci) (o : Nat) : (s.entered k o).lay = s.lay := rfl
@[simp] theorem entered_grid (s : State) (k : Kci) (o : Nat) : (s.entered k o).grid = s.grid := rfl
@[simp] theorem entered_flt (s : State) (k : Kci) (o : Nat) : (s.entered k o).flt = s.flt := rfl
@[simp] theorem entered_crt (s : State) (k : Kci) (o : Nat) : (s.entered k o).crt = s.crt := rfl
@[simp] theorem entered_pwr (s : State) (k : Kci) (o : Nat) : (s.entered k o).pwr = s.pwr := rfl
@[simp] theorem entered_host (s : State) (k : Kci) (o : Nat) : (s.entered k o).host = s.host := rfl
@[simp] theorem entered_mer (s : State) (k : Kci) (o : Nat) : (s.entered k o).mer = s.mer := rfl
@[simp] theorem entered_stk (s : State) (k : Kci) (o : Nat) : (s.entered k o).stk = s.stk := rfl
@[simp] theorem entered_far (s : State) (k : Kci) (o : Nat) : (s.entered k o).far = s.far := rfl
@[simp] theorem entered_plt (s : State) (k : Kci) (o : Nat) : (s.entered k o).plt = s.plt := rfl
@[simp] theorem entered_gaz (s : State) (k : Kci) (o : Nat) : (s.entered k o).gaz = s.gaz := rfl
@[simp] theorem entered_cfl (s : State) (k : Kci) (o : Nat) : (s.entered k o).cfl = s.cfl := rfl
@[simp] theorem entered_fab (s : State) (k : Kci) (o : Nat) : (s.entered k o).fab = s.fab := rfl
@[simp] theorem entered_sht (s : State) (k : Kci) (o : Nat) : (s.entered k o).sht = s.sht := rfl
@[simp] theorem entered_atl (s : State) (k : Kci) (o : Nat) : (s.entered k o).atl = s.atl := rfl
@[simp] theorem entered_w1c (s : State) (k : Kci) (o : Nat) : (s.entered k o).w1c = s.w1c := rfl
@[simp] theorem entered_out (s : State) (k : Kci) (o : Nat) : (s.entered k o).out = s.out := rfl

@[simp] theorem entered_state (s : State) (k : Kci) (o : Nat) : (s.entered k o).cmp.state = s.cmp.state := rfl
@[simp] theorem entered_tile (s : State) (k : Kci) (o t : Nat) : (s.entered k o).tile t = s.tile t := rfl
@[simp] theorem entered_partMode (s : State) (k : Kci) (o p : Nat) : (s.entered k o).partMode p = s.partMode p := rfl
@[simp] theorem entered_partExists (s : State) (k : Kci) (o p : Nat) : (s.entered k o).partExists p = s.partExists p := rfl

end Sys2Proof.Machine
end

