-- ==== Sys2Proof/Laws/Notice.lean ====
section
/-! SUPPORT. What raising a notice, a drift count and an Itinerary record can change. -/

namespace Sys2Proof.Machine

/-- From s to u nothing changed but what notices and records are made of: the functions' rings and held notices, the surveyors' queues,
the fault log and its counts, the drift masks, the Itinerary, host memory, what was sent. -/
structure Noted (s u : State) : Prop where
  cmp : u.cmp = { s.cmp with fns := u.cmp.fns, upHeld := u.cmp.upHeld, mgmt := { s.cmp.mgmt with noticeSeq := u.cmp.mgmt.noticeSeq } }
  lay : u.lay = { s.lay with region := u.lay.region, quad := u.lay.quad }
  flt : u.flt = { s.flt with log := u.flt.log, uncorr := u.flt.uncorr }
  dtm : u.dtm = { s.dtm with drift := u.dtm.drift, masks := u.dtm.masks }
  crt : u.crt = { s.crt with itin := u.crt.itin }
  all : u = { s with cmp := u.cmp, lay := u.lay, flt := u.flt, dtm := u.dtm, crt := u.crt, host := u.host, out := u.out, w1c := u.w1c }
  fn  : ∀ g, u.fn g = { s.fn g with evtTail := (u.fn g).evtTail, held := (u.fn g).held, lost := (u.fn g).lost, lastMsix := (u.fn g).lastMsix,
                                    msixWait := (u.fn g).msixWait }

theorem Noted.refl (s : State) : Noted s s := ⟨rfl, rfl, rfl, rfl, rfl, rfl, fun _ => rfl⟩

theorem Noted.trans {s t u : State} (h : Noted s t) (k : Noted t u) : Noted s u := by
  obtain ⟨a1, a2, a3, a4, a5, a6, a7⟩ := h
  obtain ⟨b1, b2, b3, b4, b5, b6, b7⟩ := k
  refine ⟨?_, ?_, ?_, ?_, ?_, ?_, fun g => ?_⟩
  · rw [b1, a1]
  · rw [b2, a2]
  · rw [b3, a3]
  · rw [b4, a4]
  · rw [b5, a5]
  · rw [b6, a6]
  · have := b7 g
    rw [a7 g] at this
    exact this

/-- What no notice changes. -/
theorem Noted.grid {s u : State} (h : Noted s u) : u.grid = s.grid := by rw [h.all]
theorem Noted.fab {s u : State} (h : Noted s u) : u.fab = s.fab := by rw [h.all]
theorem Noted.stk {s u : State} (h : Noted s u) : u.stk = s.stk := by rw [h.all]
theorem Noted.now {s u : State} (h : Noted s u) : u.now = s.now := by rw [h.all]
theorem Noted.pwr {s u : State} (h : Noted s u) : u.pwr = s.pwr := by rw [h.all]
theorem Noted.pending {s u : State} (h : Noted s u) : u.pending = s.pending := by rw [h.all]
theorem Noted.inflight {s u : State} (h : Noted s u) : u.cmp.inflight = s.cmp.inflight := by rw [h.cmp]
theorem Noted.ptp {s u : State} (h : Noted s u) : u.cmp.ptp = s.cmp.ptp := by rw [h.cmp]
theorem Noted.compass {s u : State} (h : Noted s u) : u.cmp.state = s.cmp.state := by rw [h.cmp]
theorem Noted.bridges {s u : State} (h : Noted s u) : u.lay.bridges = s.lay.bridges := by rw [h.lay]
theorem Noted.cause {s u : State} (h : Noted s u) : u.flt.cause = s.flt.cause := by rw [h.flt]

theorem setFn_noted (s : State) (f : Nat) (tail : Nat) (held : List EventWords) (lost : Nat) (last : SMap Nat) (wait : List Nat) :
    Noted s (s.setFn f { s.fn f with evtTail := tail, held := held, lost := lost, lastMsix := last, msixWait := wait }) := by
  refine ⟨rfl, rfl, rfl, rfl, rfl, rfl, fun g => ?_⟩
  by_cases h : g = f
  · subst h
    rw [State.fn_setFn]
  · rw [State.fn_setFn_other _ h]
theorem emit_noted (s : State) (o : Out) : Noted s (s.emit o) := ⟨rfl, rfl, rfl, rfl, rfl, rfl, fun _ => rfl⟩
theorem tally_noted (s : State) (a n : Nat) : Noted s (s.tally a n) := by
  exact ⟨rfl, rfl, rfl, rfl, rfl, rfl, fun _ => rfl⟩

theorem hostWrite_noted (s : State) (f a : Nat) (bs : List Byte) : Noted s (s.hostWrite f a bs) := ⟨rfl, rfl, rfl, rfl, rfl, rfl, fun _ => rfl⟩

theorem sendMsix_noted (s : State) (f v : Nat) : Noted s (s.sendMsix f v) := by
  unfold State.sendMsix
  dsimp only
  repeat' split
  all_goals first | exact Noted.refl _ | exact (setFn_noted s f _ _ _ _ _).trans (emit_noted _ _) | exact setFn_noted s f _ _ _ _ _

theorem postEvent_noted (s : State) (f : Nat) (ws : EventWords) : Noted s (s.postEvent f ws) :=
  ((hostWrite_noted _ _ _ _).trans (setFn_noted (s.hostWrite f _ _) f _ _ _ _ _)).trans (sendMsix_noted _ _ _)

theorem postNotice_noted (s : State) (f : Nat) (ws : EventWords) : Noted s (s.postNotice f ws) := by
  unfold State.postNotice
  dsimp only
  split
  · exact postEvent_noted _ _ _
  · exact setFn_noted s f _ _ _ _ _

theorem flushNotices_noted (n : Nat) (s : State) (f : Nat) : Noted s (State.flushNotices n s f) := by
  induction n generalizing s with
  | zero => exact Noted.refl _
  | succ n ih =>
    simp only [State.flushNotices]
    split
    · split
      · exact ((setFn_noted s f _ _ _ _ _).trans (postEvent_noted _ _ _)).trans (ih _)
      · split
        · exact Noted.refl _
        · exact ((setFn_noted s f _ _ _ _ _).trans (postEvent_noted _ _ _)).trans (ih _)
    · exact Noted.refl _

/-- The notice number of the management port goes up. -/
def State.countNotice (s : State) : State := { s with cmp := { s.cmp with mgmt := { s.cmp.mgmt with noticeSeq := s.cmp.mgmt.noticeSeq + 1 } } }

theorem countNotice_noted (s : State) : Noted s s.countNotice := ⟨rfl, rfl, rfl, rfl, rfl, rfl, fun _ => rfl⟩

theorem deliver_noted (s : State) (ws : EventWords) : Noted s (s.deliver ws) := by
  have step : ∀ t : State, Noted t (match t.cmp.mgmt.notices, t.cmp.mgmt.key with
      | some (a, p), some key => t.countNotice.emit (.mgmt a p (mgmtDatagram key t.cmp.mgmt.noticeSeq (wordBytes ws)))
      | _, _ => t) := by
    intro t
    split
    · exact (countNotice_noted _).trans (emit_noted _ _)
    · exact Noted.refl _
  have part : ∀ t : State, Noted t (if bit (nth ws 0 0) 38 then
      (if (t.fn (bits (nth ws 0 0) 37 32 + 1)).rings then t.postNotice (bits (nth ws 0 0) 37 32 + 1) ws else t) else t) := by
    intro t
    split
    · split
      · exact postNotice_noted _ _ _
      · exact Noted.refl _
    · exact Noted.refl _
  exact ((postNotice_noted s 0 ws).trans (part _)).trans (step _)

theorem sendUp_noted (s : State) (o : Origin) (ws : EventWords) : Noted s (s.sendUp o ws) := by
  have hub : ∀ t : State, Noted t (if t.compassDeaf then { t with cmp := { t.cmp with upHeld := t.cmp.upHeld ++ [ws] } } else t.deliver ws) := by
    intro t
    split
    · exact ⟨rfl, rfl, rfl, rfl, rfl, rfl, fun _ => rfl⟩
    · exact deliver_noted _ _
  have die : ∀ d, Noted s (s.sendUp (.die d) ws) := by
    intro d
    unfold State.sendUp
    dsimp only
    split
    · exact ⟨rfl, rfl, rfl, rfl, rfl, rfl, fun _ => rfl⟩
    · exact hub s
  cases o with
  | hub => exact hub s
  | die d => exact die d
  | region r =>
    unfold State.sendUp
    dsimp only
    split
    · exact ⟨rfl, rfl, rfl, rfl, rfl, rfl, fun _ => rfl⟩
    · exact die (r / 8)

theorem log_noted (s : State) (l : List FaultEntry) : Noted s { s with flt := { s.flt with log := l } } := ⟨rfl, rfl, rfl, rfl, rfl, rfl, fun _ => rfl⟩

theorem faultLog_noted (s : State) (e : FaultEntry) : Noted s (s.faultLog e) := log_noted _ _

theorem notify_noted (s : State) (n : Notice) (st : Status) (part : Option Nat) (subject detail : Nat) (o : Origin) (addr job : Nat) :
    Noted s (s.notify n st part subject detail o addr job) := by
  unfold State.notify
  refine Noted.trans (t := if logsFault n st then s.faultLog ⟨s.timebase, n.code, st.code, part, subject % 2 ^ 32, addr, job⟩ else s) ?_ ?_
  · split
    · exact faultLog_noted _ _
    · exact Noted.refl _
  · generalize (if logsFault n st then s.faultLog ⟨s.timebase, n.code, st.code, part, subject % 2 ^ 32, addr, job⟩ else s) = t
    dsimp only
    refine Noted.trans (t := if st = .uncorrectable then { t with flt := { t.flt with uncorr := satInc t.flt.uncorr } }.tally 0x248 else t) ?_
      (sendUp_noted _ _ _)
    split <;> exact ⟨rfl, rfl, rfl, rfl, rfl, rfl, fun _ => rfl⟩

theorem driftMask_noted (k : Nat) (s : State) (p : Nat) : Noted s (s.driftMask k p) := by
  unfold State.driftMask
  dsimp only
  split
  · exact Noted.refl _
  · exact Noted.trans (t := { s with dtm := { s.dtm with masks := s.dtm.masks.put p (s.dtm.masks.lookD p 0 + 2 ^ k) } })
      ⟨rfl, rfl, rfl, rfl, rfl, rfl, fun _ => rfl⟩ (notify_noted _ _ _ _ _ _ _ _ _)

theorem foldl_noted {α : Type} (f : State → α → State) (h : ∀ s a, Noted s (f s a)) (l : List α) (s : State) : Noted s (l.foldl f s) := by
  induction l generalizing s with
  | nil => exact Noted.refl _
  | cons a l ih => exact (h s a).trans (ih _)

theorem drift_noted (s : State) (k : Nat) (ps : List Nat) : Noted s (s.drift k ps) := by
  unfold State.drift
  split
  · exact Noted.refl _
  · exact Noted.trans (t := { s with dtm := { s.dtm with drift := s.dtm.drift.modify k (fun c => satInc c) } })
      ⟨rfl, rfl, rfl, rfl, rfl, rfl, fun _ => rfl⟩ (foldl_noted _ (fun s p => driftMask_noted k s p) _ _)

theorem itinEntry_noted (s : State) (code n : Nat) (part : Option Nat) (src : Nat) (st : Status) (b : List Byte) :
    Noted s (s.itinEntry code n part src st b) := ⟨rfl, rfl, rfl, rfl, rfl, rfl, fun _ => rfl⟩

theorem itinCont_noted (part : Option Nat) (src : Nat) (st : Status) (l : List (List Byte)) (s : State) :
    Noted s (State.itinCont part src st s l) := by
  induction l generalizing s with
  | nil => exact Noted.refl _
  | cons b l ih => exact (itinEntry_noted _ _ _ _ _ _ _).trans (ih _)

theorem itinRecord_noted (s : State) (code : Nat) (part : Option Nat) (src : Nat) (st : Status) (b : List Byte) (l : List (List Byte)) :
    Noted s (s.itinRecord code part src st b l) := by
  unfold State.itinRecord
  split
  · exact Noted.refl _
  · exact (itinEntry_noted _ _ _ _ _ _ _).trans (itinCont_noted _ _ _ _ _)

theorem itinGap_noted (s : State) : Noted s s.itinGap := by
  unfold State.itinGap
  dsimp only
  split
  · refine (itinRecord_noted s 0x0005 none 66 .ok (leBytes 8 s.crt.itin.gap) []).trans (Noted.trans ?_ (notify_noted _ _ _ _ _ _ _ _ _))
    exact ⟨rfl, rfl, rfl, rfl, rfl, rfl, fun _ => rfl⟩
  · exact Noted.refl _

theorem itinHigh_noted (s : State) : Noted s s.itinHigh := by
  unfold State.itinHigh
  split
  · refine Noted.trans ?_ (notify_noted _ _ _ _ _ _ _ _ _)
    exact ⟨rfl, rfl, rfl, rfl, rfl, rfl, fun _ => rfl⟩
  · exact Noted.refl _

theorem driftRecord_noted (s : State) : Noted s s.driftRecord := by
  unfold State.driftRecord
  split
  · exact Noted.refl _
  · exact itinRecord_noted _ _ _ _ _ _ _

theorem checkpoint_noted (s : State) : Noted s s.checkpoint := by
  unfold State.checkpoint
  refine ((itinGap_noted s).trans (driftRecord_noted _)).trans ?_
  generalize s.itinGap.driftRecord = t
  dsimp only
  refine (itinRecord_noted t 0x0002 none 66 .ok (leBytes 8 t.crt.itin.ckptNext ++ leBytes 8 t.crt.itin.next) []).trans (Noted.trans ?_ (itinHigh_noted _))
  exact ⟨rfl, rfl, rfl, rfl, rfl, rfl, fun _ => rfl⟩

theorem itinAfter_noted (s : State) : Noted s s.itinAfter := by
  unfold State.itinAfter
  dsimp only
  split
  · exact (itinHigh_noted s).trans (checkpoint_noted _)
  · exact itinHigh_noted s

theorem itinAppend_noted (s : State) (code : Nat) (part : Option Nat) (src : Nat) (st : Status) (b : List Byte) (l : List (List Byte)) :
    Noted s (s.itinAppend code part src st b l) := by
  unfold State.itinAppend
  split
  · exact ((itinGap_noted s).trans (itinRecord_noted _ _ _ _ _ _ _)).trans (itinAfter_noted _)
  · exact ⟨rfl, rfl, rfl, rfl, rfl, rfl, fun _ => rfl⟩

theorem itinEvent_noted (s : State) (code : Nat) (part : Option Nat) (st : Status) (b : List Byte) (l : List (List Byte)) :
    Noted s (s.itinEvent code part st b l) := itinAppend_noted _ _ _ _ _ _ _

theorem notifyRecorded_noted (s : State) (n : Notice) (st : Status) (part : Option Nat) (subject detail : Nat) (o : Origin) (addr : Nat) :
    Noted s (s.notifyRecorded n st part subject detail o addr) := (notify_noted _ _ _ _ _ _ _ _ _).trans (itinEvent_noted _ _ _ _ _ _)

/-! ### Surveyors: what reaches Compass at once leaves their queues alone -/

theorem sendMsix_lay (s : State) (f v : Nat) : (s.sendMsix f v).lay = s.lay := by
  unfold State.sendMsix
  dsimp only
  repeat' split
  all_goals rfl

theorem postEvent_lay (s : State) (f : Nat) (ws : EventWords) : (s.postEvent f ws).lay = s.lay := sendMsix_lay _ _ _

theorem postNotice_lay (s : State) (f : Nat) (ws : EventWords) : (s.postNotice f ws).lay = s.lay := by
  unfold State.postNotice
  dsimp only
  split
  · exact postEvent_lay _ _ _
  · rfl

theorem deliver_lay (s : State) (ws : EventWords) : (s.deliver ws).lay = s.lay := by
  have step : ∀ t : State, (match t.cmp.mgmt.notices, t.cmp.mgmt.key with
      | some (a, p), some key => t.countNotice.emit (.mgmt a p (mgmtDatagram key t.cmp.mgmt.noticeSeq (wordBytes ws)))
      | _, _ => t).lay = t.lay := by
    intro t
    split <;> rfl
  have part : ∀ t : State, (if bit (nth ws 0 0) 38 then
      (if (t.fn (bits (nth ws 0 0) 37 32 + 1)).rings then t.postNotice (bits (nth ws 0 0) 37 32 + 1) ws else t) else t).lay = t.lay := by
    intro t
    split
    · split
      · exact postNotice_lay _ _ _
      · rfl
    · rfl
  exact ((step _).trans (part _)).trans (postNotice_lay s 0 ws)

theorem sendUp_hub_lay (s : State) (ws : EventWords) : (s.sendUp .hub ws).lay = s.lay := by
  unfold State.sendUp
  dsimp only
  split
  · rfl
  · exact deliver_lay _ _

theorem sendUp_die_region (s : State) (d : Nat) (ws : EventWords) : (s.sendUp (.die d) ws).lay.region = s.lay.region := by
  unfold State.sendUp
  dsimp only
  split
  · rfl
  · split
    · rfl
    · rw [deliver_lay]

/-- Before a notice leaves, the fault log and its count may change. -/
theorem notify_sendUp (s : State) (n : Notice) (st : Status) (part : Option Nat) (subject detail : Nat) (o : Origin) (addr job : Nat) :
    ∃ (t : State) (ws : EventWords), s.notify n st part subject detail o addr job = t.sendUp o ws ∧ t.lay = s.lay := by
  unfold State.notify
  dsimp only
  refine ⟨_, _, rfl, ?_⟩
  split <;> split <;> simp [State.faultLog, State.tally]

theorem notify_hub_lay (s : State) (n : Notice) (st : Status) (part : Option Nat) (subject detail addr job : Nat) :
    (s.notify n st part subject detail .hub addr job).lay = s.lay := by
  obtain ⟨t, ws, e, h⟩ := notify_sendUp s n st part subject detail .hub addr job
  rw [e, sendUp_hub_lay, h]

theorem notify_die_region (s : State) (n : Notice) (st : Status) (part : Option Nat) (subject detail d addr job : Nat) :
    (s.notify n st part subject detail (.die d) addr job).lay.region = s.lay.region := by
  obtain ⟨t, ws, e, h⟩ := notify_sendUp s n st part subject detail (.die d) addr job
  rw [e, sendUp_die_region, h]

theorem itinCont_lay (part : Option Nat) (src : Nat) (st : Status) (l : List (List Byte)) (s : State) :
    (State.itinCont part src st s l).lay = s.lay := by
  induction l generalizing s with
  | nil => rfl
  | cons b l ih => exact ih _

theorem itinRecord_lay (s : State) (code : Nat) (part : Option Nat) (src : Nat) (st : Status) (b : List Byte) (l : List (List Byte)) :
    (s.itinRecord code part src st b l).lay = s.lay := by
  unfold State.itinRecord
  split
  · rfl
  · exact itinCont_lay _ _ _ _ _

theorem itinGap_lay (s : State) : s.itinGap.lay = s.lay := by
  unfold State.itinGap
  dsimp only
  split
  · rw [notify_hub_lay]
    exact itinRecord_lay s 0x0005 none 66 .ok (leBytes 8 s.crt.itin.gap) []
  · rfl

theorem itinHigh_lay (s : State) : s.itinHigh.lay = s.lay := by
  unfold State.itinHigh
  split
  · rw [notify_hub_lay]
  · rfl

theorem driftRecord_lay (s : State) : s.driftRecord.lay = s.lay := by
  unfold State.driftRecord
  split
  · rfl
  · exact itinRecord_lay _ _ _ _ _ _ _

theorem checkpoint_lay (s : State) : s.checkpoint.lay = s.lay := by
  unfold State.checkpoint
  refine Eq.trans ?_ ((driftRecord_lay s.itinGap).trans (itinGap_lay s))
  generalize s.itinGap.driftRecord = t
  dsimp only
  rw [itinHigh_lay]
  exact itinRecord_lay t 0x0002 none 66 .ok (leBytes 8 t.crt.itin.ckptNext ++ leBytes 8 t.crt.itin.next) []

theorem itinAfter_lay (s : State) : s.itinAfter.lay = s.lay := by
  unfold State.itinAfter
  dsimp only
  split
  · rw [checkpoint_lay, itinHigh_lay]
  · exact itinHigh_lay s

theorem itinEvent_lay (s : State) (code : Nat) (part : Option Nat) (st : Status) (b : List Byte) (l : List (List Byte)) :
    (s.itinEvent code part st b l).lay = s.lay := by
  unfold State.itinEvent State.itinAppend
  split
  · rw [itinAfter_lay, itinRecord_lay, itinGap_lay]
  · rfl

theorem notifyRecorded_hub_lay (s : State) (n : Notice) (st : Status) (part : Option Nat) (subject detail addr : Nat) :
    (s.notifyRecorded n st part subject detail .hub addr).lay = s.lay := by
  unfold State.notifyRecorded
  rw [itinEvent_lay, notify_hub_lay]

theorem notifyRecorded_die_region (s : State) (n : Notice) (st : Status) (part : Option Nat) (subject detail d addr : Nat) :
    (s.notifyRecorded n st part subject detail (.die d) addr).lay.region = s.lay.region := by
  unfold State.notifyRecorded
  rw [itinEvent_lay, notify_die_region]

end Sys2Proof.Machine
end

