-- ==== Sys2Proof/Laws/Tile.lean ====
section
/-! SUPPORT. What a scalar instruction does to its tile: registers, flow, scratchpad. -/

namespace Sys2Proof.Machine

@[simp] theorem Tile.strand_setStrand (x : Tile) (n : Nat) (d : Strand) : (x.setStrand n d).strand n = d := by
  simp [Tile.setStrand, Tile.strand]

theorem Tile.strand_setStrand_other (x : Tile) {n m : Nat} (h : m ≠ n) (d : Strand) : (x.setStrand n d).strand m = x.strand m := by
  simp [Tile.setStrand, Tile.strand, SMap.lookD_put_other _ h]

/-- Writing a register reads back, but for g0, which reads zero (R78). -/
theorem Tile.reg_setReg_same {x : Tile} (h : x.g.length = 29) (r : Reg) (v : Word) :
    (x.setReg r v).reg r = if r = 0 then 0 else v := by
  have hr : r.toNat < 32 := r.isLt
  have h0 : r = 0 ↔ r.toNat = 0 := by
    constructor
    · rintro rfl; rfl
    · intro h; exact BitVec.eq_of_toNat_eq (by simpa using h)
  by_cases z : r.toNat = 0
  · simp [Tile.setReg, Tile.setRegOf, Tile.reg, Tile.regOf, z, h0.2 z]
  · simp only [Tile.setReg, Tile.setRegOf, Tile.reg, Tile.regOf, z, if_false, h0]
    by_cases z1 : r.toNat < 29
    · simp [z1, nth, h]
    · simp only [z1, if_false]
      by_cases z2 : r.toNat = 29
      · simp [z2, Tile.setStrand, Tile.strand]
      · by_cases z3 : r.toNat = 30
        · simp [z3, Tile.setStrand, Tile.strand]
        · simp [z2, z3, Tile.setStrand, Tile.strand]

theorem Tile.reg_setReg_other {x : Tile} {r q : Reg} (hq : q ≠ r) (v : Word) : (x.setReg r v).reg q = x.reg q := by
  have hne : q.toNat ≠ r.toNat := fun h => hq (BitVec.eq_of_toNat_eq h)
  have hr : r.toNat < 32 := r.isLt
  have hq2 : q.toNat < 32 := q.isLt
  have cases5 : ∀ n : Nat, n < 32 → n = 0 ∨ (n ≠ 0 ∧ n < 29) ∨ n = 29 ∨ n = 30 ∨ n = 31 := by intro n hn; omega
  simp only [Tile.setReg, Tile.setRegOf, Tile.reg, Tile.regOf]
  rcases cases5 _ hr with h | ⟨h, h'⟩ | h | h | h <;> rcases cases5 _ hq2 with g | ⟨g, g'⟩ | g | g | g <;>
    simp_all [nth, Tile.setStrand, Tile.strand, List.getElem?_set, Ne.symm hne]

/-- What setReg leaves of the tile. -/
theorem Tile.setReg_shape (x : Tile) (r : Reg) (v : Word) :
    x.setReg r v = { x with g := (x.setReg r v).g, strands := (x.setReg r v).strands } := by
  simp only [Tile.setReg, Tile.setRegOf, Tile.setStrand]
  split
  · rfl
  · split
    · rfl
    · split
      · rfl
      · split <;> rfl

theorem Tile.setReg_strand_other (x : Tile) (r : Reg) (v : Word) {n : Nat} (h : n ≠ x.current) :
    (x.setReg r v).strand n = x.strand n := by
  simp only [Tile.setReg, Tile.setRegOf]
  split
  · rfl
  · split
    · rfl
    · split
      · exact Tile.strand_setStrand_other x h _
      · split <;> exact Tile.strand_setStrand_other x h _

theorem Tile.setReg_pc (x : Tile) (r : Reg) (v : Word) : (x.setReg r v).pc = x.pc := by
  simp only [Tile.setReg, Tile.setRegOf, Tile.pc]
  split
  · rfl
  · split
    · rfl
    · split
      · simp [Tile.setStrand, Tile.strand]
      · split <;> simp [Tile.setStrand, Tile.strand]

theorem Tile.setReg_current (x : Tile) (r : Reg) (v : Word) : (x.setReg r v).current = x.current := by rw [Tile.setReg_shape]
theorem Tile.setReg_loops (x : Tile) (r : Reg) (v : Word) : (x.setReg r v).loops = x.loops := by rw [Tile.setReg_shape]

theorem Tile.setReg_fallThrough (x : Tile) (r : Reg) (v : Word) (a : Nat) : (x.setReg r v).fallThrough a = x.fallThrough a := by
  simp only [Tile.fallThrough, Tile.fallThroughOf, Tile.setReg_current, Tile.setReg_loops]

/-! ### Flow -/

/-- What goTo does: the current strand's program counter, perhaps its state, and the count of instructions. -/
theorem Tile.goTo_cases (x : Tile) (p : Nat) :
    ∃ st n, x.goTo p = { x.setStrand x.current { x.strand x.current with pc := p, state := st } with issued := n } := by
  simp only [Tile.goTo]
  split
  · exact ⟨_, _, rfl⟩
  · split
    · exact ⟨_, _, rfl⟩
    · exact ⟨_, _, rfl⟩

theorem Tile.goTo_pc (x : Tile) (p : Nat) : (x.goTo p).pc = p := by
  obtain ⟨st, n, h⟩ := x.goTo_cases p
  rw [h]; simp [Tile.pc, Tile.setStrand, Tile.strand]

theorem Tile.goTo_shape (x : Tile) (p : Nat) :
    x.goTo p = { x with strands := (x.goTo p).strands, issued := (x.goTo p).issued } := by
  obtain ⟨st, n, h⟩ := x.goTo_cases p
  rw [h]; rfl

theorem Tile.goTo_reg (x : Tile) (p : Nat) (r : Reg) : (x.goTo p).reg r = x.reg r := by
  obtain ⟨st, n, h⟩ := x.goTo_cases p
  rw [h]
  simp only [Tile.reg, Tile.regOf, Tile.setStrand, Tile.strand, SMap.lookD_put_same]

theorem Tile.goTo_strand_other (x : Tile) (p : Nat) {n : Nat} (h : n ≠ x.current) : (x.goTo p).strand n = x.strand n := by
  obtain ⟨st, m, hm⟩ := x.goTo_cases p
  rw [hm]
  exact Tile.strand_setStrand_other x h _

/-- An instruction that ends in a state whose tile differs in registers only falls through. -/
theorem seqNext_falls {s : State} {t p : Nat} {ls : List Loop} (h : (s.tile t).fallThrough (s.tile t).pc = (some p, ls)) :
    s.seqNext t = s.setTile t { (s.tile t).goTo p with loops := ls } := by
  simp [State.seqNext, h]

theorem onlyTile_setTile (s : State) (t : Nat) (x : Tile) : OnlyTile s (s.setTile t x) t :=
  ⟨rfl, fun _ h => State.tile_setTile_other s h x⟩

theorem OnlyTile.refl (s : State) (t : Nat) : OnlyTile s s t := ⟨rfl, fun _ _ => rfl⟩

theorem setTile_setTile (s : State) (t : Nat) (x y : Tile) : OnlyTile s ((s.setTile t x).setTile t y) t :=
  ⟨rfl, fun v h => by rw [State.tile_setTile_other _ h, State.tile_setTile_other _ h]⟩

/-- An instruction that writes one register: its value, where the strand stands, and the frame. -/
theorem aluRun_spec {s : State} {t p : Nat} {ls : List Loop} (h : s.Falls t p ls) (rd : Reg) (v : Tile → Word) :
    ∃ u, aluRun t rd v s = .next u ∧ (u.tile t).reg rd = (if rd = 0 then 0 else v (s.tile t)) ∧ At u t p ls ∧ OnlyReg s u t rd := by
  obtain ⟨hr, hg, hf⟩ := h
  let x := s.tile t
  let y := x.setReg rd (v x)
  have hy : ((s.setTile t y).tile t).fallThrough ((s.setTile t y).tile t).pc = (some p, ls) := by
    rw [State.tile_setTile, Tile.setReg_fallThrough, Tile.setReg_pc]; exact hf
  have e : aluRun t rd v s = .next ((s.setTile t y).setTile t { y.goTo p with loops := ls }) := by
    have : seqRun t s (fun x => .next (s.setTile t (x.setReg rd (v x)))) = (s.setTile t y).seqNext t := by
      simp [seqRun, hr, y, x]
    simp only [aluRun, this, seqNext_falls hy, State.tile_setTile]
  refine ⟨_, e, ?_, ⟨?_, ?_⟩, ⟨⟨setTile_setTile _ _ _ _, ?_, ?_⟩, ?_⟩⟩
  · simp only [State.tile_setTile]
    have : ({ y.goTo p with loops := ls } : Tile).reg rd = (y.goTo p).reg rd := rfl
    rw [this, Tile.goTo_reg]
    exact Tile.reg_setReg_same hg rd (v x)
  · simp only [State.tile_setTile]; exact Tile.goTo_pc y p
  · simp only [State.tile_setTile]
  · simp only [State.tile_setTile]
    rw [Tile.goTo_shape]
    show ({ x.setReg rd (v x) with strands := _, issued := _, loops := ls } : Tile) = _
    rw [Tile.setReg_shape]
  · intro n hn
    simp only [State.tile_setTile]
    have h1 : n ≠ y.current := by
      show n ≠ (x.setReg rd (v x)).current
      rw [Tile.setReg_current]; exact hn
    show (y.goTo p).strand n = x.strand n
    rw [Tile.goTo_strand_other y p h1]
    exact Tile.setReg_strand_other x rd (v x) hn
  · intro r hrne
    simp only [State.tile_setTile]
    show (y.goTo p).reg r = x.reg r
    rw [Tile.goTo_reg]
    exact Tile.reg_setReg_other hrne (v x)

theorem aluRunIf_true (t : Nat) (rd : Reg) (v : Tile → Word) (s : State) : aluRunIf true t rd v s = aluRun t rd v s := by
  simp [aluRunIf, aluRun]

end Sys2Proof.Machine
end

