-- ==== Sys2Proof/Laws/Wire.lean ====
section
/-! SUPPORT. A link unit that is sent reads back as it was (R295, R296). -/

namespace Sys2Proof.Machine

@[simp] theorem leBytes_length (k n : Nat) : (leBytes k n).length = k := by
  induction k generalizing n with
  | zero => rfl
  | succ k ih => simp [leBytes, ih]

theorem ofLe_leBytes (k n : Nat) : ofLe (leBytes k n) = n % 256 ^ k := by
  induction k generalizing n with
  | zero => simp [leBytes, ofLe, Nat.mod_one]
  | succ k ih => simp [leBytes, ofLe, ih, pow_succ', Nat.mod_mul]

theorem crcStep_lt {x : Nat} (h : x < 2 ^ 32) : crcStep x < 2 ^ 32 := by
  unfold crcStep
  split
  · exact Nat.xor_lt_two_pow (by omega) (by decide)
  · omega

theorem crcByte_lt {c : Nat} (h : c < 2 ^ 32) (b : Byte) : crcByte c b < 2 ^ 32 := by
  have start : c ^^^ b.toNat < 2 ^ 32 := Nat.xor_lt_two_pow h (lt_trans b.isLt (by decide))
  unfold crcByte
  generalize c ^^^ b.toNat = x at start
  generalize List.range 8 = l
  induction l generalizing x with
  | nil => exact start
  | cons _ _ ih => exact ih _ (crcStep_lt start)

theorem crc32_lt (bs : List Byte) : crc32 bs < 2 ^ 32 := by
  refine Nat.xor_lt_two_pow ?_ (by decide)
  suffices h : ∀ c, c < 2 ^ 32 → bs.foldl crcByte c < 2 ^ 32 from h _ (by decide)
  induction bs with
  | nil => exact fun c h => h
  | cons b _ ih => exact fun c h => ih _ (crcByte_lt h b)

theorem fld_tag {k v l : Nat} (hk : k < 16) (hv : v < 16) (hl : l < 4096) :
    let tag := put 3 0 k + put 7 4 v + put 19 8 l
    tag < 256 ^ 4 ∧ fld tag 3 0 = k ∧ fld tag 7 4 = v ∧ fld tag 19 8 = l := by
  simp only [put, fld]; omega

/-- R295, R296: a unit of a KIND that is defined, as long as its KIND says, reads back as it was sent. -/
theorem parseUnit_bytes {u : WireUnit} (hk : unitSize u.kind = some (u.body.length + 8)) (hv : u.vc < 16) (hl : u.lseq < 4096) : parseUnit u.bytes = some u := by
  have hk' : u.kind < 16 := by
    by_contra h
    obtain ⟨n, e⟩ : ∃ n, u.kind = n + 16 := ⟨u.kind - 16, by omega⟩
    simp [e, unitSize] at hk
  obtain ⟨ht, k, v, l⟩ := fld_tag hk' hv hl
  unfold parseUnit WireUnit.bytes
  generalize put 3 0 u.kind + put 7 4 u.vc + put 19 8 u.lseq = tag at ht k v l ⊢
  have tagged : (leBytes 4 tag ++ u.body).length = u.body.length + 4 := by simp [Nat.add_comm]
  have crc := Nat.mod_eq_of_lt (crc32_lt (leBytes 4 tag ++ u.body))
  have head : ofLe ((withCrc (leBytes 4 tag ++ u.body)).take 4) = tag := by
    simpa [withCrc, List.append_assoc, ofLe_leBytes] using ht
  have size : (withCrc (leBytes 4 tag ++ u.body)).length = u.body.length + 8 := by simp only [withCrc, List.length_append, leBytes_length]; omega
  have body : ((withCrc (leBytes 4 tag ++ u.body)).drop 4).take u.body.length = u.body := by simp [withCrc, List.append_assoc]
  have cut : (withCrc (leBytes 4 tag ++ u.body)).take (u.body.length + 4) = leBytes 4 tag ++ u.body := by
    rw [withCrc, List.take_append_of_le_length (by omega), List.take_of_length_le (by omega)]
  have tail : ofLe ((withCrc (leBytes 4 tag ++ u.body)).drop (u.body.length + 4)) = crc32 (leBytes 4 tag ++ u.body) := by
    rw [withCrc, ← tagged, List.drop_left, ofLe_leBytes]; exact crc
  simp [size, head, k, v, l, hk, body, cut, tail]

end Sys2Proof.Machine
end

