-- ==== Sys2Proof/WellFormed.lean ====
section
/-! DEFINITION. Which commands are well formed: the numbers that say where a command acts lie in their ranges (R16, R17, R72, R468, R469).
Operands of a KCI command outside their ranges are no ill-formed command: they complete with BAD_OPERAND (R562). -/

namespace Sys2Proof

/-- VF 1 to 64 (R469). -/
def Source.wellFormed : Source → Bool
  | .pf => true
  | .vf v => decide (1 ≤ v ∧ v ≤ 64)
  | .mgmt => true

/-- A source that exists, a partition below 64, at most seven operand words, and no mailbox of the management port (R468, R474). -/
def Kci.wellFormed (k : Kci) : Bool :=
  k.src.wellFormed && (match k.part with
    | some p => decide (p < 64)
    | none => true) && decide (k.words.length ≤ 7) && !(k.mbox && decide (k.src = .mgmt))

/-- A die bridge joins two different dies; a hub link belongs to one (R20). -/
def BridgeId.wellFormed : BridgeId → Bool
  | .die a b => decide (a < 4 ∧ b < 4 ∧ a ≠ b)
  | .hub d => decide (d < 4)

/-- A command is well formed. -/
def Instr.wellFormed : Instr → Bool
  | .nop t => decide (t < 1024)
  | .end_ t => decide (t < 1024)
  | .yield t => decide (t < 1024)
  | .rxrel t => decide (t < 1024)
  | .trap t _ => decide (t < 1024)
  | .add t _ _ _ => decide (t < 1024)
  | .sub t _ _ _ => decide (t < 1024)
  | .and t _ _ _ => decide (t < 1024)
  | .or t _ _ _ => decide (t < 1024)
  | .xor t _ _ _ => decide (t < 1024)
  | .shl t _ _ _ => decide (t < 1024)
  | .shr t _ _ _ => decide (t < 1024)
  | .sar t _ _ _ => decide (t < 1024)
  | .mul t _ _ _ => decide (t < 1024)
  | .min t _ _ _ => decide (t < 1024)
  | .max t _ _ _ => decide (t < 1024)
  | .slt t _ _ _ => decide (t < 1024)
  | .sltu t _ _ _ => decide (t < 1024)
  | .addi t _ _ _ => decide (t < 1024)
  | .andi t _ _ _ => decide (t < 1024)
  | .ori t _ _ _ => decide (t < 1024)
  | .xori t _ _ _ => decide (t < 1024)
  | .shli t _ _ _ => decide (t < 1024)
  | .shri t _ _ _ => decide (t < 1024)
  | .sari t _ _ _ => decide (t < 1024)
  | .li t _ _ => decide (t < 1024)
  | .lui t _ _ => decide (t < 1024)
  | .ld t _ _ _ => decide (t < 1024)
  | .st t _ _ _ => decide (t < 1024)
  | .ldw t _ _ _ => decide (t < 1024)
  | .stw t _ _ _ => decide (t < 1024)
  | .br t _ _ _ _ => decide (t < 1024)
  | .jmp t _ => decide (t < 1024)
  | .jr t _ => decide (t < 1024)
  | .call t _ _ => decide (t < 1024)
  | .dbnz t _ _ => decide (t < 1024)
  | .loop t _ _ => decide (t < 1024)
  | .lidx t _ _ => decide (t < 1024)
  | .rdreg t _ _ => decide (t < 1024)
  | .wrreg t _ _ => decide (t < 1024)
  | .qfree t _ _ => decide (t < 1024)
  | .defrgn t _ _ _ => decide (t < 1024)
  | .fence t _ _ => decide (t < 1024)
  | .programBoundarySwap t => decide (t < 1024)
  | .tens t _ _ => decide (t < 1024)
  | .vec t _ _ => decide (t < 1024)
  | .move t _ _ => decide (t < 1024)
  | .msg t _ _ => decide (t < 1024)
  | .sprs t _ _ => decide (t < 1024)
  | .msignal t _ _ => decide (t < 1024)
  | .mwait t _ _ => decide (t < 1024)
  | .mwaitto t _ _ _ => decide (t < 1024)
  | .mread t _ _ _ => decide (t < 1024)
  | .strandSwitch t => decide (t < 1024)
  | .strandWake t _ => decide (t < 1024)
  | .matmul t => decide (t < 1024)
  | .promoteDecision t => decide (t < 1024)
  | .matmulComplete t => decide (t < 1024)
  | .vecAdd t => decide (t < 1024)
  | .vecSub t => decide (t < 1024)
  | .vecMul t => decide (t < 1024)
  | .vecFma t => decide (t < 1024)
  | .vecMin t => decide (t < 1024)
  | .vecMax t => decide (t < 1024)
  | .vecAbs t => decide (t < 1024)
  | .vecExp2 t => decide (t < 1024)
  | .vecLog2 t => decide (t < 1024)
  | .vecRecip t => decide (t < 1024)
  | .vecRsqrt t => decide (t < 1024)
  | .vecSigmoid t => decide (t < 1024)
  | .vecTanh t => decide (t < 1024)
  | .vecRsum t => decide (t < 1024)
  | .vecRmax t => decide (t < 1024)
  | .vecRmin t => decide (t < 1024)
  | .vecCvt t => decide (t < 1024)
  | .vecIadd t => decide (t < 1024)
  | .vecIsub t => decide (t < 1024)
  | .vecImul t => decide (t < 1024)
  | .vecImin t => decide (t < 1024)
  | .vecImax t => decide (t < 1024)
  | .vecIand t => decide (t < 1024)
  | .vecIor t => decide (t < 1024)
  | .vecIxor t => decide (t < 1024)
  | .copy t => decide (t < 1024)
  | .copyComplete t => decide (t < 1024)
  | .send t => decide (t < 1024)
  | .spmm t => decide (t < 1024)
  | .predict t => decide (t < 1024)
  | .instructionComplete t engine => decide (t < 1024) && decide (engine < 5)
  | .messageReceive t _ _ => decide (t < 1024)
  | .messageDispatch t => decide (t < 1024)
  | .tileCtrlReset t _ => decide (t < 1024)
  | .tileCtrlHalt t _ => decide (t < 1024)
  | .tileCtrlResume t _ => decide (t < 1024)
  | .tileCtrlStart t _ => decide (t < 1024)
  | .tileResetDone t _ => decide (t < 1024)
  | .srReseed t _ => decide (t < 1024)
  | .tileReset k _ _ => k.wellFormed
  | .tileStart k _ => k.wellFormed
  | .tileHalt k _ => k.wellFormed
  | .tileResume k _ => k.wellFormed
  | .tileStatus k _ => k.wellFormed
  | .columnShift k _ _ => k.wellFormed
  | .vtabRead k _ _ => k.wellFormed
  | .imemLoad k _ _ _ _ _ => k.wellFormed
  | .imemSwap k _ _ _ => k.wellFormed
  | .imemRead k _ _ _ _ _ => k.wellFormed
  | .scratchWrite k _ _ _ _ => k.wellFormed
  | .scratchRead k _ _ _ _ => k.wellFormed
  | .datumSet k _ _ => k.wellFormed
  | .datumSyncCal k _ => k.wellFormed
  | .calPulseEmit _ => true
  | .syncCalTimeout _ => true
  | .datumStart k => k.wellFormed
  | .startPulseEmit _ => true
  | .syncPulse _ => true
  | .timebaseZero _ => true
  | .datumStartTimeout _ => true
  | .checkPulseEmit _ => true
  | .checkPulseMissing _ => true
  | .datumStartAt k _ _ => k.wellFormed
  | .datumStartAtFire _ => true
  | .driftSnapshot k => k.wellFormed
  | .paddedCompletion _ _ => true
  | .schedRefresh _ _ _ => true
  | .schedRetrain _ _ => true
  | .merHomeApply _ _ => true
  | .merRelease _ _ => true
  | .merSamplePoint _ _ => true
  | .mwaittoExpiry t _ _ => decide (t < 1024)
  | .deadlockDetect _ _ => true
  | .merDbgCapture fn _ => decide (fn < 65)
  | .merDbgCaptureDone fn => decide (fn < 65)
  | .merAlloc k _ _ _ _ => k.wellFormed
  | .merFree k _ => k.wellFormed
  | .merSet k _ _ _ => k.wellFormed
  | .merSignal k _ _ => k.wellFormed
  | .merRead k _ => k.wellFormed
  | .merDlCfg k _ _ => k.wellFormed
  | .merDlSnapshot k _ _ => k.wellFormed
  | .cflGroupDefine k _ => k.wellFormed
  | .cflGroupOpen k _ => k.wellFormed
  | .cflGroupClose k _ => k.wellFormed
  | .cflGroupDelete k _ => k.wellFormed
  | .cflSubmit k _ _ => k.wellFormed
  | .cflAbort k _ => k.wellFormed
  | .cflGroupQuery k _ => k.wellFormed
  | .cflDigest k _ _ => k.wellFormed
  | .cflTileSubmit t => decide (t < 1024)
  | .collSubmitPacket lport => decide (lport < 1024)
  | .collectiveStart _ _ => true
  | .cflBlockReceive die => decide (die < 4)
  | .cflCombine _ _ _ _ _ _ _ => true
  | .cflCreditReceive die => decide (die < 4)
  | .digestUpReceive die => decide (die < 4)
  | .confirmReceive die => decide (die < 4)
  | .scalarReceive die => decide (die < 4)
  | .cflAbortReceive die => decide (die < 4)
  | .cflProgTimeout _ _ _ => true
  | .gazRequest die => decide (die < 4)
  | .gazRowComplete die _ _ => decide (die < 4)
  | .gazReply die _ => decide (die < 4)
  | .gazTableDefine k _ => k.wellFormed
  | .gazTableDelete k _ => k.wellFormed
  | .gazTableQuery k _ => k.wellFormed
  | .gazLookup k _ _ _ _ => k.wellFormed
  | .gazLegendCheck k _ _ _ _ => k.wellFormed
  | .gazSparseCtrlWrite t _ => decide (t < 1024)
  | .gazPredThreshWrite t _ => decide (t < 1024)
  | .portConfig k _ _ _ _ => k.wellFormed
  | .portLink k _ _ => k.wellFormed
  | .portStatus k _ => k.wellFormed
  | .portPartner k _ => k.wellFormed
  | .portCmisRead k _ _ _ _ _ => k.wellFormed
  | .portSteerSet k _ _ _ => k.wellFormed
  | .portSteerRead k _ _ => k.wellFormed
  | .portConvSet k _ _ _ => k.wellFormed
  | .brgSrReseed _ _ => true
  | .linkCtrlReceive lport _ _ _ => decide (lport < 1024)
  | .linkIdReceive lport _ => decide (lport < 1024)
  | .linkIdSend lport _ => decide (lport < 1024)
  | .identTimeout lport _ => decide (lport < 1024)
  | .sequencedUnitReceive lport _ => decide (lport < 1024)
  | .alignmentLoss lport _ => decide (lport < 1024)
  | .noGoodUnitTimeout lport _ => decide (lport < 1024)
  | .trainingComplete lport _ => decide (lport < 1024)
  | .trainingTimeout lport _ => decide (lport < 1024)
  | .downHoldoffExpiry lport _ => decide (lport < 1024)
  | .accelPacketIngress lport => decide (lport < 1024)
  | .e2eRtoExpiry lport _ _ _ => decide (lport < 1024)
  | .e2ePacketReceive lport => decide (lport < 1024)
  | .e2eAckTimer die _ _ _ => decide (die < 4)
  | .sourceFlowRetire lport _ _ _ => decide (lport < 1024)
  | .ethFrameReceive lport _ _ => decide (lport < 1024)
  | .pauseReceive lport _ _ => decide (lport < 1024)
  | .spillRingMove lport => decide (lport < 1024)
  | .unpFrameInject lport _ => decide (lport < 1024)
  | .ingressDeadlineShed lport _ => decide (lport < 1024)
  | .portEgressRequest t => decide (t < 1024)
  | .cmisPresence _ _ _ _ _ => true
  | .cmisPoll _ _ _ _ _ => true
  | .cmisInterrupt _ _ _ _ _ => true
  | .routeSetPrefix k _ _ => k.wellFormed
  | .routeSetPortset k _ _ => k.wellFormed
  | .routeLocalSet k _ _ => k.wellFormed
  | .aliasLoad k _ _ _ => k.wellFormed
  | .aliasSwap k => k.wellFormed
  | .mcastSet k _ _ => k.wellFormed
  | .reorderCfg k _ => k.wellFormed
  | .trvQueueCfg k _ => k.wellFormed
  | .flowQuery k _ _ _ => k.wellFormed
  | .routeQuery k _ => k.wellFormed
  | .reorderArrival die => decide (die < 4)
  | .reorderTimeout die _ _ _ => decide (die < 4)
  | .reorderCtxRetire die _ _ _ => decide (die < 4)
  | .frameLaunch _ _ => true
  | .cellRelease _ _ => true
  | .spillReturn _ => true
  | .expressRingInject _ _ => true
  | .expressRingDeliver _ _ => true
  | .mcastCompletion _ => true
  | .txUnitSelect lport _ => decide (lport < 1024)
  | .shaperRefill lport _ => decide (lport < 1024)
  | .gateEntryChange lport _ => decide (lport < 1024)
  | .gateListStart lport _ => decide (lport < 1024)
  | .egressDeadlineShed lport _ => decide (lport < 1024)
  | .ctrClassCfg k _ _ _ => k.wellFormed
  | .ctrShaperSet k _ _ _ _ _ => k.wellFormed
  | .ctrGateSet k _ _ _ _ => k.wellFormed
  | .ctrGateRead k _ _ => k.wellFormed
  | .ctrStatus k _ => k.wellFormed
  | .sheetRequest t => decide (t < 1024)
  | .releaseStoreSend _ => true
  | .sheetCombine lport _ => decide (lport < 1024)
  | .sheetHomeReceive die => decide (die < 4)
  | .sheetLineApply die _ => decide (die < 4)
  | .sheetCompletionReceive die => decide (die < 4)
  | .sheetRtoExpiry _ _ => true
  | .shtSheetSet k _ _ _ _ _ => k.wellFormed
  | .shtExport k _ _ _ => k.wellFormed
  | .shtWindowSet k _ _ _ _ => k.wellFormed
  | .shtJobTeardown k _ => k.wellFormed
  | .shtStatus k _ => k.wellFormed
  | .memSlotServe _ _ => true
  | .memoryResponse _ _ _ => true
  | .remapCopy _ => true
  | .refresh _ _ _ => true
  | .periodicRetrain _ _ => true
  | .errorRateRetrain _ _ _ => true
  | .retrainEnd _ _ _ => true
  | .adderWriteback die _ => decide (die < 4)
  | .stkRegionSet k _ => k.wellFormed
  | .stkRegionClear k _ _ => k.wellFormed
  | .stkRegionQuery k _ => k.wellFormed
  | .stkRetrainCfg k _ _ => k.wellFormed
  | .stkPolicySet k _ _ _ _ => k.wellFormed
  | .stkRepairLog k _ _ _ => k.wellFormed
  | .farWindowSet k _ _ _ _ _ _ => k.wellFormed
  | .farIdentity k _ => k.wellFormed
  | .farPortCtrl k _ _ _ => k.wellFormed
  | .stkBringupSelect k _ => k.wellFormed
  | .stkMargin k _ _ _ => k.wellFormed
  | .stkRepairAccess k _ _ => k.wellFormed
  | .farDevicePresent _ _ _ _ _ => true
  | .farReadyTimeout _ _ => true
  | .farResponse _ _ _ _ => true
  | .farLinkDown _ _ _ => true
  | .soundingRegionStart _ _ => true
  | .soundingPhase _ _ _ _ => true
  | .secureWipeDone _ => true
  | .platAlloc die _ _ _ _ => decide (die < 4)
  | .platAllocGrant die _ => decide (die < 4)
  | .platFree die _ _ _ _ => decide (die < 4)
  | .pltPoolSet k _ _ _ _ _ _ _ => k.wellFormed
  | .pltPoolQuery k _ _ _ => k.wellFormed
  | .atlPower k _ _ => k.wellFormed
  | .atlPowerDone _ => true
  | .atlSoundCfg k _ _ => k.wellFormed
  | .atlBankQuery k _ => k.wellFormed
  | .moduleIdentity k => k.wellFormed
  | .idmemRead k _ _ _ _ => k.wellFormed
  | .kciRingsSet k _ _ _ => k.wellFormed
  | .partCreate k _ _ => k.wellFormed
  | .partAssign k _ _ _ => k.wellFormed
  | .partModeSet k _ _ => k.wellFormed
  | .partStop k _ => k.wellFormed
  | .partDestroy k _ => k.wellFormed
  | .partQuery k _ => k.wellFormed
  | .dmaqSet k _ _ _ _ _ => k.wellFormed
  | .mgmtPortSet k _ _ _ _ _ => k.wellFormed
  | .mgmtKeySet k _ => k.wellFormed
  | .ptpSet k _ _ => k.wellFormed
  | .timeQuery k => k.wellFormed
  | .cmdDoorbell fn _ => decide (fn < 65)
  | .evtHeadWrite fn _ => decide (fn < 65)
  | .mboxGo fn _ => decide (fn < 65)
  | .dmaqDoorbell fn _ _ => decide (fn < 65)
  | .commandAccept => true
  | .commandComplete src _ _ => src.wellFormed
  | .msixDeferred fn _ _ => decide (fn < 65)
  | .dmaqDescriptor _ => true
  | .hostWriteRequest t => decide (t < 1024)
  | .mgmtDatagram _ _ _ => true
  | .ptpMessageReceive _ _ => true
  | .ptpSyncMissing _ => true
  | .ptpHoldoverTimeout _ => true
  | .ptpSecondLatch _ => true
  | .bmcRead _ => true
  | .functionLevelReset fn => decide (fn < 65)
  | .hostLinkDown => true
  | .compassWatchdog _ => true
  | .compassReady _ => true
  | .regionSurveyorRestart die _ _ => decide (die < 4)
  | .quadrantSurveyorRestart die _ => decide (die < 4)
  | .bridgeLaneFailure b _ _ _ => b.wellFormed
  | .registerWrite fn _ _ => decide (fn < 65)
  | .registerBadAccess fn _ _ _ => decide (fn < 65)
  | .lcQuery k => k.wellFormed
  | .lcProvision k _ => k.wellFormed
  | .lcCertInstall k _ _ => k.wellFormed
  | .lcTransitionArm k _ => k.wellFormed
  | .lcTransition k _ _ => k.wellFormed
  | .lcArmExpiry _ => true
  | .certRead k _ => k.wellFormed
  | .tamperQuery k => k.wellFormed
  | .tamperClear k => k.wellFormed
  | .tamperTrip _ _ => true
  | .fwStageBegin k _ => k.wellFormed
  | .fwStageWrite k _ _ _ => k.wellFormed
  | .fwStageVerify k => k.wellFormed
  | .fwActivate k => k.wellFormed
  | .fwQuery k => k.wellFormed
  | .fwSvnCommit k _ => k.wellFormed
  | .settingsSave k => k.wellFormed
  | .settingsClear k => k.wellFormed
  | .mgmtFallback _ => true
  | .attest k _ _ => k.wellFormed
  | .configExport k _ _ => k.wellFormed
  | .itinExport k _ _ _ => k.wellFormed
  | .itinExportAck k _ => k.wellFormed
  | .itinCheckpoint k => k.wellFormed
  | .itinCkptRead k _ _ => k.wellFormed
  | .itinJournalWrite => true
  | .fencePort k _ => k.wellFormed
  | .unfencePort k _ => k.wellFormed
  | .isolatePeer k _ _ => k.wellFormed
  | .releasePeer k _ _ => k.wellFormed
  | .jobTeardown k _ => k.wellFormed
  | .faultLogRead k _ _ _ => k.wellFormed
  | .tileTest k _ _ => k.wellFormed
  | .faultMapRead k _ _ => k.wellFormed
  | .pwrQuery k _ => k.wellFormed
  | .pwrReset k _ => k.wellFormed
  | .pwrOff k => k.wellFormed
  | .vsbStart _ _ _ => true
  | .pwrEnRise _ => true
  | .pwrEnFall _ => true
  | .railTimeout _ _ => true
  | .railExcursion _ _ _ _ => true
  | .inputExcursion _ _ _ _ => true
  | .resetNAssert _ => true
  | .coldResetEnd _ => true
  | .sensorSample _ _ _ _ _ => true
  | .stackTrained _ => true
  | .surveyorRestartDone die _ => decide (die < 4)
  | .hostLinkUp _ => true
  | .farPortReady _ _ => true
  | .bridgeRetry b _ => b.wellFormed
  | .stage2Slot _ _ => true
  | .merSignalAck _ => true
  | .pauseTimerExpiry lport _ _ => decide (lport < 1024)

end Sys2Proof
end

