-- ==== Sys2Proof/Tests/Slice0.lean ====
section
/-! SUPPORT. Our own tests: well-formedness, words of Tarpeth, single steps, and a witness for the hypotheses of each statement. -/

set_option Elab.async false

namespace Sys2Proof.Machine

/-! ### Well-formed commands: one that each check refuses, and the last one that it lets through -/

/-- A command of the physical function, from the ring. -/
def tk : Kci := ⟨.pf, false, 7, none, []⟩

theorem test_tile_refused : (Instr.add 1024 1 2 3).wellFormed = false ∧ (Instr.add 1023 1 2 3).wellFormed = true := by decide

theorem test_engine_refused : (Instr.instructionComplete 0 5).wellFormed = false ∧ (Instr.instructionComplete 0 4).wellFormed = true := by decide

theorem test_function_refused : (Source.vf 0).wellFormed = false ∧ (Source.vf 65).wellFormed = false ∧ (Source.vf 64).wellFormed = true := by decide

theorem test_partition_refused : ({ tk with part := some 64 } : Kci).wellFormed = false ∧ ({ tk with part := some 63 } : Kci).wellFormed = true := by decide

theorem test_words_refused : ({ tk with words := List.replicate 8 0 } : Kci).wellFormed = false ∧
    ({ tk with words := List.replicate 7 0 } : Kci).wellFormed = true := by decide

theorem test_mailbox_refused : ({ tk with src := .mgmt, mbox := true } : Kci).wellFormed = false ∧
    ({ tk with src := .pf, mbox := true } : Kci).wellFormed = true := by decide

theorem test_command_refused : (Instr.merFree { tk with src := .vf 65 } 0).wellFormed = false ∧ (Instr.merFree tk 0).wellFormed = true := by decide

theorem test_bridge_refused : (BridgeId.die 2 2).wellFormed = false ∧ (BridgeId.die 0 4).wellFormed = false ∧ (BridgeId.hub 4).wellFormed = false ∧
    (BridgeId.die 0 3).wellFormed = true ∧ (BridgeId.hub 3).wellFormed = true := by decide

theorem test_window_refused : (Instr.mboxGo 65 1).wellFormed = false ∧ (Instr.mboxGo 64 1).wellFormed = true := by decide

theorem test_port_refused : (Instr.linkIdSend 1024 0).wellFormed = false ∧ (Instr.linkIdSend 1023 0).wellFormed = true := by decide

theorem test_die_refused : (Instr.gazRequest 4).wellFormed = false ∧ (Instr.gazRequest 3).wellFormed = true := by decide

/-! ### Words of Tarpeth, written out from R108 and R110: IMM [63:32], reserved [31:23], RB [22:18], RA [17:13], RD [12:8], OP [7:0] -/

/-- ADD g3, g1, g2. -/
theorem test_word_add : tarpethDecode 5 0b00000000000000000000000000000000_000000000_00010_00001_00011_00010000 = some (.add 5 3 1 2) := by decide

/-- ADDI g3, g1, -1. -/
theorem test_word_addi : tarpethDecode 5 0b11111111111111111111111111111111_000000000_00000_00001_00011_00100000 = some (.addi 5 3 1 (-1)) := by decide

/-- STW of g2 at g1 + 4. -/
theorem test_word_stw : tarpethDecode 5 0b00000000000000000000000000000100_000000000_00010_00001_00000_00110011 = some (.stw 5 2 1 4) := by decide

/-- BR with COND 5 (GEU), g1, g2, to 16. -/
theorem test_word_br : tarpethDecode 5 0b00000000000000000000000000010000_000000000_00010_00001_00101_01000000 = some (.br 5 5 1 2 16) := by decide

/-- LOOP over g1, to 8. -/
theorem test_word_loop : tarpethDecode 5 0b00000000000000000000000000001000_000000000_00000_00001_00000_01001000 = some (.loop 5 1 8) := by decide

/-- SPRS of the descriptor at g4 + 256. -/
theorem test_word_sprs : tarpethDecode 5 0b00000000000000000000000100000000_000000000_00000_00100_00000_01100100 = some (.sprs 5 4 256) := by decide

/-- MWAITTO g6, g5, 1000. -/
theorem test_word_mwaitto : tarpethDecode 5 0b00000000000000000000001111101000_000000000_00000_00101_00110_01110010 = some (.mwaitto 5 6 5 1000) := by decide

/-- An opcode outside the table, a field that ADD does not use, and a reserved bit. -/
theorem test_word_refused : tarpethDecode 5 0x05 = none ∧ tarpethDecode 5 0x1_0000_0010 = none ∧ tarpethDecode 5 0x80_0010 = none := by decide

/-- The table gives its rows no bits (log 79). -/
theorem test_table_word (n w : Nat) : Sys2Proof.decodeTableWord n w = none := rfl
/-! ### States in which the hypotheses of the statements hold -/

/-- Compass is READY. -/
def tReady : State := { State.reset with cmp := { State.reset.cmp with state := .ready } }

/-- A tile that runs. -/
def tRun : Tile := { state := .running, strands := [(0, { state := .running })] }

/-- A state with the tile x as tile 0. -/
def tTile (x : Tile) : State := { tReady with grid := { tiles := [(0, x)] } }

/-- A tile that runs, with g1 = v. -/
def tReg (v : Word) : Tile := { tRun with g := (List.replicate 29 0).set 1 v }

/-- The last instruction of the bank. -/
def tLast : Tile := { tReg 5 with strands := [(0, { state := .running, pc := 8191 })] }

theorem witness_falls (v : Word) : (tTile (tReg v)).Falls 0 1 [] := ⟨rfl, rfl, rfl⟩

theorem witness_open : tReady.Open tk := ⟨rfl, rfl, fun _ => rfl, fun _ => rfl, rfl, rfl, rfl, rfl⟩

theorem witness_openTile (x : Tile) : (tTile x).Open tk := ⟨rfl, rfl, fun _ => rfl, fun _ => rfl, rfl, rfl, rfl, rfl⟩

/-! ### Scalar instructions -/

theorem witness_RegisterArithmetic : (tTile tRun).Falls 0 1 [] := ⟨rfl, rfl, rfl⟩

theorem witness_ImmediateArithmetic : (tTile (tReg 1)).Falls 0 1 [] ∧ (63 : Imm).toNat < 64 := ⟨witness_falls 1, by decide⟩

theorem witness_RegisterReads : (tTile (tReg 1)).Falls 0 1 [] ∧ ((0xFF8 : Imm).toNat % 8 = 0 ∧ (0xFF8 : Imm).toNat < 0x1000) ∧
    (4 : Imm).toNat ≤ 4 ∧ (3 : Imm).toNat < 4 := ⟨witness_falls 1, by decide⟩

/-- The last word and the last half word of the scratchpad. -/
theorem witness_Loads : (tTile (tReg 0x17FFF8)).Falls 0 1 [] ∧ ((tTile (tReg 0x17FFF8)).tile 0).addr 1 0 = ((0x17FFF8 : Nat) : Int) ∧
    ((tTile (tReg 0x17FFF8)).tile 0).addr 1 4 = ((0x17FFFC : Nat) : Int) ∧ 0x17FFFC < 0x180000 ∧ 0x17FFF8 % 8 = 0 ∧ 0x17FFFC % 4 = 0 ∧
    (0x17FFFC / 8 * 8) ∉ ((tTile (tReg 0x17FFF8)).tile 0).bad := ⟨witness_falls _, by decide⟩

theorem witness_Stores : (tTile (tReg 0x17FFF8)).Falls 0 1 [] ∧ ((tTile (tReg 0x17FFF8)).tile 0).addr 1 0 = ((0x17FFF8 : Nat) : Int) ∧
    ((tTile (tReg 0x17FFF8)).tile 0).addr 1 4 = ((0x17FFFC : Nat) : Int) ∧ ((tTile (tReg 0x17FFF8)).tile 0).scratch.wf = true ∧
    0x17FFF8 % 8 = 0 ∧ 0x17FFFC % 4 = 0 ∧ (0x17FFFC / 8 * 8) ∉ ((tTile (tReg 0x17FFF8)).tile 0).bad := ⟨witness_falls _, by decide⟩

/-- The addresses -1 and 0x180000; 0x17FFFC for the words, 0x17FFFE for the half words. -/
theorem witness_ScalarAddressFaults : ((tTile tRun).tile 0).runs = true ∧
    ((((tTile tRun).tile 0).reg 0).toNat + (-1 : Imm).toInt < 0) ∧
    (0x17FFFF : Int) < (((tTile tRun).tile 0).reg 0).toNat + (0x180000 : Imm).toInt ∧
    ((((tTile tRun).tile 0).reg 0).toNat + (0x17FFFC : Imm).toInt) % 8 ≠ 0 ∧
    ((((tTile tRun).tile 0).reg 0).toNat + (0x17FFFE : Imm).toInt) % 4 ≠ 0 := by decide

theorem witness_EndOfProgramFaults : ((tTile tLast).tile 0).runs = true ∧ 8192 ≤ (((tTile (tReg 8192)).tile 0).reg 1).toNat ∧
    ((tTile tLast).tile 0).pc = 8191 ∧ (∀ l ∈ ((tTile tLast).tile 0).loops, l.last ≠ 8191) ∧ (0 : BitVec 5).toNat ≤ 5 ∧ (8191 : Imm).toNat < 8192 ∧
    brHolds 0 (((tTile tLast).tile 0).reg 1) (((tTile tLast).tile 0).reg 2) = false := by decide

theorem witness_ReservedFieldFaults : ((tTile tRun).tile 0).runs = true ∧ 5 < (6 : BitVec 5).toNat ∧ 8192 ≤ (8192 : Imm).toNat ∧
    65536 ≤ (65536 : Imm).toNat ∧ 4 ≤ (4 : Imm).toNat ∧ 64 ≤ (64 : Imm).toNat ∧ 4 < (5 : Imm).toNat ∧
    ((4 : Imm).toNat % 8 ≠ 0 ∨ 0x1000 ≤ (4 : Imm).toNat) ∧ ((0x1000 : Imm).toNat % 8 ≠ 0 ∨ 0x1000 ≤ (0x1000 : Imm).toNat) := by decide

theorem witness_Branches : ((tTile (tReg 1)).tile 0).runs = true ∧ ((tTile (tReg 1)).tile 0).g.length = 29 ∧ (8191 : Imm).toNat < 8192 ∧
    ((0 : BitVec 5) = 0 ∧ ((tTile (tReg 1)).tile 0).reg 2 = ((tTile (tReg 1)).tile 0).reg 3) ∧
    ((tTile (tReg 1)).tile 0).fallThrough ((tTile (tReg 1)).tile 0).pc = (some 1, []) ∧
    ((tTile (tReg 1)).tile 0).reg 1 = 1 ∧ ((tTile (tReg 1)).tile 0).reg 2 ≠ 1 ∧ (((tTile (tReg 8191)).tile 0).reg 1).toNat < 8192 := by decide

theorem witness_StrandInstructions : (tTile (tReg 5)).Falls 0 1 [] ∧ (65535 : Imm).toNat < 65536 := ⟨witness_falls 5, by decide⟩

/-- A loop to the last instruction, a region of all the scratchpad, a fence on every engine. -/
theorem witness_LoopsRegionsFences : (tTile { tReg 0 with g := (List.replicate 29 0).set 2 24576 }).Falls 0 1 [] ∧
    ((tTile (tReg 7)).Falls 0 1 [] ∧ (8191 : Imm).toNat < 8192 ∧ ((tTile (tReg 7)).tile 0).current = 0 ∧ (((tTile (tReg 7)).tile 0).reg 1).toNat % 2 ^ 32 ≠ 0 ∧
      (∀ l ∈ ((tTile (tReg 7)).tile 0).loops.head?, (8191 : Imm).toNat ≤ l.last) ∧ ((tTile (tReg 7)).tile 0).loops.length < 4) ∧
    ((63 : Imm).toNat < 64 ∧ 0 % 64 = 0 ∧ (((tTile { tReg 0 with g := (List.replicate 29 0).set 2 24576 }).tile 0).reg 2).toNat = 24576 ∧ 0 + 64 * 24576 ≤ 0x180000 ∧
      ((tTile (tReg 0)).tile 0).inFlight = []) ∧
    (31 : Imm).toNat < 32 ∧ (∀ e, e < 5 → ((tTile (tReg 0)).tile 0).queue e = []) :=
  ⟨⟨rfl, rfl, rfl⟩, ⟨witness_falls 7, by decide⟩, by decide, by decide, by decide⟩

/-! ### Outcomes as values -/

/-- The command answers a next state of which p is true. -/
def tTo (i : Instr) (s : State) (p : State → Bool) : Bool :=
  match exec i s with
  | .next u => p u
  | _ => false

/-- State.Follows as a value. -/
def tFol (u v : State) : Bool := decide (u = { v with cmp := { v.cmp with inflight := u.cmp.inflight, config := u.cmp.config } })

/-- State.Answered as a value, for a command of tk's source and tag. -/
def tAns (u : State) (opcode : Nat) (st : Status) (result : List Word) : Bool :=
  u.cmp.inflight.any (fun r => r.src = tk.src && r.mbox = tk.mbox && r.tag = tk.tag && r.opcode = opcode && r.stage = .done && r.status = st && r.result = result)

/-- State.Running as a value, for a command of tk's source and tag. -/
def tBusy (u : State) (opcode : Nat) (keys : List Nat) : Bool :=
  u.cmp.inflight.any (fun r => r.src = tk.src && r.mbox = tk.mbox && r.tag = tk.tag && r.opcode = opcode && r.stage = .running keys && r.status = .ok)
/-! ### Strands, issue and engines -/

/-- Strand 0 at the program boundary, with a swap armed or not. -/
def tBoundary (armed : Bool) : Tile :=
  { tRun with strands := [(0, { state := .waiting, wait := .fence [] true })], armed := armed }

/-- Strand 0 has ended; strand 5 can run; strand 6 waits for instruction 3, strand 7 in a fence for it. -/
def tStrands : Tile :=
  { tRun with strands := [(0, { state := .free }), (5, { state := .runnable, pc := 9 }), (6, { state := .waiting, wait := .insns [3] }),
                          (7, { state := .waiting, pc := 8190, wait := .fence [3] false })] }

theorem witness_StrandScheduling : ((tTile (tBoundary true)).tile 0).state = .running ∧
    (∀ b, (((tTile (tBoundary b)).tile 0).strand 0).wait = .fence [] true ∧ ((tTile (tBoundary b)).tile 0).inFlight = [] ∧
      (∀ e ∈ ((tTile (tBoundary b)).tile 0).strands, e.1 = 0 ∨ e.2.state = .free)) ∧
    ((tTile (tBoundary true)).tile 0).armed = true ∧ ((tTile (tBoundary true)).tile 0).loading = none ∧
    ((tTile (tBoundary false)).tile 0).armed = false ∧ ((tTile (tBoundary false)).tile 0).fallThroughOf 0 0 = (some 1, []) ∧
    (((tTile tStrands).tile 0).strand 0).state ≠ .running ∧ ((tTile tStrands).tile 0).nextRunnable = some 5 ∧
    (((tTile tStrands).tile 0).strand 6).wait = .insns [3] ∧ (((tTile tStrands).tile 0).strand 7).wait = .fence [3] false ∧
    (∀ q ∈ ((tTile tStrands).tile 0).inFlight, q.id ∉ [3]) ∧ ((tTile tStrands).tile 0).fallThroughOf 7 8190 = (some 8191, []) := by decide

/-- A descriptor with these words set. -/
def tWords (l : List (Nat × Word)) : List Word := l.foldl (fun ws e => ws.set e.1 e.2) (List.replicate 32 0)

/-- A 32 by 32 by 32 product of E4M3 into the accumulators, kept there. -/
def tTens : List Word := tWords [(2, 1), (11, 3), (19, 3), (31, 2 ^ 33)]

/-- Z = X + Y, each a vector register. -/
def tVec (op : Word) : List Word := tWords [(2, op), (5, 63), (11, 2 ^ 58), (13, 63), (19, 2 ^ 58 + 2 ^ 59), (21, 63), (27, 2 ^ 58 + 2 ^ 60)]

/-- A copy of one unit of 4 KiB within the scratchpad. -/
def tMove : List Word := tWords [(2, 1), (12, 0x17F000), (20, 12)]

/-- A message of no lines to tile 1. -/
def tMsg : List Word := tWords [(2, 1), (4, 1), (5, 0x100)]

/-- SPMM of one block row and one block column. -/
def tSprs : List Word := tWords [(2, 1), (5, 3), (11, 7), (13, 127), (21, 0x10001)]

/-- A tile with a descriptor at 0x17FF00, whose address is in g1, and with n instructions in every engine's queue. -/
def tIssue (ws : List Word) (n : Nat) : Tile :=
  { tReg 0x17FF00 with scratch := Memory.writeN [] 0x17FF00 (wordBytes ws),
                       queues := [0, 1, 2, 3, 4].map (fun e => (e, List.replicate n { id := 0, words := [], strand := 0, pc := 0 })) }

/-- The checks of R139 let a descriptor of an engine pass. -/
def tIssues (e : Nat) (ws : List Word) : Bool :=
  let x := tIssue ws 31
  issueShape e ws = none && x.regionsOk ws && x.issueFormat e ws = none && (x.conflicts ws).isEmpty

theorem witness_IssueFalls (ws : List Word) (n : Nat) : (tTile (tIssue ws n)).Falls 0 1 [] := ⟨rfl, rfl, rfl⟩

/-- The last place for a descriptor; a queue with one free entry, and a full one. -/
theorem witness_Issue : ((tTile (tIssue tTens 31)).tile 0).addr 1 0 = ((0x17FF00 : Nat) : Int) ∧ 0x17FF00 % 256 = 0 ∧ 0x17FF00 + 256 ≤ 0x180000 ∧
    ((tIssue tTens 31).scratch.words 0x17FF00 32 = tTens ∧ (tIssue (tVec 1) 31).scratch.words 0x17FF00 32 = tVec 1 ∧
      (tIssue tMove 31).scratch.words 0x17FF00 32 = tMove ∧ (tIssue tMsg 31).scratch.words 0x17FF00 32 = tMsg ∧
      (tIssue tSprs 31).scratch.words 0x17FF00 32 = tSprs) ∧
    tIssues 0 tTens = true ∧ tIssues 1 (tVec 1) = true ∧ tIssues 2 tMove = true ∧ tIssues 3 tMsg = true ∧ tIssues 4 tSprs = true ∧
    (tIssue tTens 31).bad = [] ∧ (tIssue tTens 31).soft = [] ∧ (tIssue tTens 31).part = none ∧
    (∀ e, e < 5 → ((tIssue tTens 31).queue e).length < 32 ∧ 32 ≤ ((tIssue tTens 32).queue e).length) := by decide +kernel

theorem witness_DescriptorAddressFaults : ((tTile tRun).tile 0).runs = true ∧ ((tTile tRun).tile 0).addr 0 255 % 256 ≠ 0 ∧
    (((tTile tRun).tile 0).addr 0 (-256) % 256 = 0 ∧ ((tTile tRun).tile 0).addr 0 (-256) < 0) ∧
    (((tTile tRun).tile 0).addr 0 0x180000 % 256 = 0 ∧ 0x17FFFF < ((tTile tRun).tile 0).addr 0 0x180000 + 255) := by decide

/-- A tile that runs with one instruction, of these words, in an engine's queue. -/
def tEngine (e : Nat) (q : QEntry) : Tile := { tRun with part := some 0, queues := [(e, [q])] }

def tEntry (ws : List Word) : QEntry := { id := 0, words := ws, strand := 0, pc := 0 }

theorem witness_VectorRegisterResults : InRegisters (tTile (tEngine 1 (tEntry (tVec 4)))) 0 (tEntry (tVec 4)) 0 1 2 :=
  ⟨rfl, rfl, rfl, rfl, ⟨rfl, rfl, rfl⟩, ⟨rfl, rfl, rfl⟩, ⟨rfl, rfl, rfl⟩, rfl⟩

theorem witness_VectorRegisterResults_ops : ∀ op ∈ ([1, 2, 3, 4, 5, 6, 7, 0x10, 0x11, 0x12, 0x13, 0x14, 0x15, 0x30, 0x40, 0x41, 0x42, 0x43, 0x44, 0x45, 0x46, 0x47] : List Nat),
      dOp (tEntry (tVec (BitVec.ofNat 64 op))).words = op ∧ dConv (tVec (BitVec.ofNat 64 op)) = 0 ∧
        (agAt (tVec (BitVec.ofNat 64 op)) 20).units = 64 := by decide +kernel

/-- The result of a run is no stop. -/
def tFine (r : EStateM.Result Stop EngSt Unit) : Bool :=
  match r with
  | .ok _ _ => true
  | .error _ _ => false

/-- A reduction of 64 elements of register 0 to one FP32 word in the scratchpad. -/
def tRed (op : Word) : List Word := tWords [(2, op), (5, 63), (11, 2 ^ 58), (20, 0x17FFF8)]

/-- The fetch of one block row whose Legend entry, of E4M3 or of ternary weights, has no nonzero weight; the blocks that it gives. -/
def tFetch (fmt : Byte) : SparseFetch := { order := [0], got := [(.ok, fmt :: List.replicate 15 0)] }

def tBlocks (fmt : Byte) (ws : List Word) : List (Nat × List (Except Status SparseBlk)) := ((tFetch fmt).blocks (sprsOf ws)).getD []

/-- SPMM and PREDICT of one block row on activations of E4M3. -/
def tSparseRuns (ws : List Word) : Tile := tEngine 4 (tEntry ws)

def tPredict : List Word := tWords [(2, 2), (5, 3), (11, 7), (13, 1), (21, 0x10001)]

theorem witness_EngineRuns : (∀ e, e < 5 → (tTile (tEngine e (tEntry tTens))).tile 0 = tEngine e (tEntry tTens) ∧
      (tEngine e (tEntry tTens)).state = .running ∧ (tEngine e (tEntry tTens)).head e = some (tEntry tTens)) ∧ (tEntry tTens).ran = false ∧
    (dOp (tRed 0x20) = 0x20 ∧ tFine (vecProgram (.reduce (fun a b => rne32 (a.add b)) true) (tEntry (tRed 0x20)) { x := tEngine 1 (tEntry (tRed 0x20)) }) = true) ∧
    (dOp (tRed 0x21) = 0x21 ∧ tFine (vecProgram (.reduce vmax false) (tEntry (tRed 0x21)) { x := tEngine 1 (tEntry (tRed 0x21)) }) = true) ∧
    (dOp (tRed 0x22) = 0x22 ∧ tFine (vecProgram (.reduce vmin false) (tEntry (tRed 0x22)) { x := tEngine 1 (tEntry (tRed 0x22)) }) = true) ∧
    (dOp tTens = 1 ∧ (tEntry tTens).status = .ok ∧ tFine (mmRun tTens [] { x := tEngine 0 (tEntry tTens) }) = true) := by decide +kernel

theorem witness_EngineRuns_sparse : (tEngine 4 (tEntry tSprs)).tensorBusy = false ∧ (sprsOf tSprs).base = 0 ∧ (sprsOf tSprs).cols = 1 ∧
    (tSparseRuns tSprs).sparseOrder (tEntry tSprs) = [0] ∧ dOp tSprs = 1 ∧
    tFine (spmmRun tSprs 0 (tBlocks 7 tSprs) { x := tSparseRuns tSprs }) = true ∧
    dOp tPredict = 2 ∧ (tSparseRuns tPredict).sparseOrder (tEntry tPredict) = [0] ∧
    tFine (predictRun tPredict 0 0 (tBlocks 0xB tPredict) { x := tSparseRuns tPredict }) = true := by decide +kernel

/-- The engine asks for the Legend entry first. -/
theorem witness_EngineRuns_asks : gatherBlocks (sprsOf tSprs).base (sprsOf tSprs).cols ([0].flatMap (fun i => (List.range (sprsOf tSprs).cols).map (fun j => (i, j)))) [] =
      ([], some (0, 16)) ∧
    (({ tTile (tSparseRuns tSprs) with stk := { (tTile (tSparseRuns tSprs)).stk with regions := [(0, [⟨false, 0, 0, 0, 1⟩])] } } : State).viewUnit 0 0 16).map (fun ps => ps.isEmpty) =
      some false := by decide +kernel

theorem witness_PromoteDecision : ((tTile (tEngine 0 { tEntry tTens with ran := true, thresh := 16, nsat := 16 })).tile 0).head 0 =
      some { tEntry tTens with ran := true, thresh := 16, nsat := 16 } ∧
    tFine (mmRerun tTens [] { x := { tEngine 0 { tEntry tTens with ran := true, thresh := 16, nsat := 17 } with sr := {} } }) = true := by decide +kernel

/-- A copy of 4 KiB from 0 to the last 4 KiB of the scratchpad, and a message. -/
theorem witness_MoveAndSend : ((tTile (tEngine 2 (tEntry tMove))).tile 0).state = .running ∧ (tEntry tMove).ran = false ∧ (tEntry tMove).status = .ok ∧
    ((tTile (tEngine 2 (tEntry tMove))).tile 0).head 2 = some (tEntry tMove) ∧ (tTile (tEngine 2 (tEntry tMove))).stk.reqs = [] ∧
    (agAt tMove 4).units = 1 ∧ (agAt tMove 4).space = 0 ∧ (agAt tMove 12).space = 0 ∧ bits (nth tMove 20 0) 3 0 = 12 ∧
    (agAt tMove 4).base = 0 ∧ (agAt tMove 12).base = 0x17F000 ∧ 0x17F000 + 2 ^ 12 ≤ 0x180000 ∧
    ((tTile (tEngine 3 (tEntry tMsg))).tile 0).head 3 = some (tEntry tMsg) ∧ bits (nth tMsg 5 0) 20 0 = 0x100 ∧
    bits (nth tMsg 4 0) 34 28 = 0 ∧ ((tTile (tEngine 3 (tEntry tMsg))).tile 0).scratch.wf = true := by decide +kernel

/-- An instruction that has run, without a record and a signal, with a record in the last word of the scratchpad, and with a signal. -/
theorem witness_Completion : ((tTile (tEngine 0 { tEntry tTens with ran := true, decided := true })).tile 0).queue 0 =
      [{ tEntry tTens with ran := true, decided := true }] ∧ ({ tEntry tTens with ran := true, decided := true } : QEntry).finished = true ∧
    dSigEn tTens = false ∧ dCompl tTens = false ∧
    (dCompl (tWords [(2, 1 + 2 ^ 8 + 0x17FFF8 * 2 ^ 24)]) = true ∧ dComplAddr (tWords [(2, 1 + 2 ^ 8 + 0x17FFF8 * 2 ^ 24)]) = 0x17FFF8 ∧ 0x17FFF8 % 8 = 0) ∧
    dSigEn (tWords [(2, 1 + 2 ^ 9)]) = true ∧ ({ tRun with engSignals := [(0, 63)] } : Tile).engSignals.lookD 0 0 < 64 := by decide +kernel

/-! ### Messages -/

/-- A message of one line from tile 1 to tile 0 in partition 0, and a state with it in the mesh. -/
def tMail : MeshMsg := { header := [BitVec.ofNat 64 (put 19 10 16 + put 34 28 1)], payload := List.replicate 64 0 }

def tMesh (x : Tile) : State := { tTile x with grid := { (tTile x).grid with mesh := [tMail] } }

/-- A tile with a waiting message for handler 63. -/
def tRx : Tile := { tRun with part := some 0, rxSize := 2, rx := [{ line := 0, lines := 1, handler := 63 }], handlers := [(63, { entry := 8191, valid := true, max := 1 })] }

theorem witness_Messages : takeFirst (fun (m : MeshMsg) => !m.destGw && m.dest = coord 0 && m.src = coord 1 && m.srcGw = false) (tMesh tRun).grid.mesh = some (tMail, []) ∧
    (tTile {}).grid.tiles = [(0, {})] ∧ ({} : Tile).state ≠ .running ∧ tRx.state = .running ∧ tRx.part = some tMail.part ∧
    (tMail.len = 1 ∧ ({ tRx with rx := [] } : Tile).ringUsed + tMail.len + 1 = 2 ∧ tRx.rxSize = 2) ∧ tRx.atBoundary = false ∧
    tRx.rx.find? (fun m => m.strand.isNone && !m.released) = some { line := 0, lines := 1, handler := 63 } ∧
    tRx.handlers.lookD 63 {} = { entry := 8191, valid := true, max := 1 } ∧ tRx.running 63 < 1 ∧ tRx.freeStrand = some 1 := by decide +kernel
/-! ### Meridian -/

/-- Object 16383 in g1. -/
def tObj : State := tTile { tReg 16383 with signals := 63 }

theorem witness_MeridianInstructions : tObj.Falls 0 1 [] ∧ ((tObj.tile 0).reg 1).toNat < 2 ^ 14 ∧ (1 : Imm).toNat < 2 ∧ (tObj.tile 0).signals < 64 ∧ (2 : Imm).toNat < 3 :=
  ⟨⟨rfl, rfl, rfl⟩, by decide⟩

/-- An object with one waiter. -/
def tObject (kind : MerKind) (value : Nat) (waits : Bool) : MerObj :=
  { kind := kind, part := 0, value := value, target := 2, gen := 2 ^ 32 - 1, waiters := if waits then [⟨0, 3, 0, none, 0⟩] else [] }

/-- A transfer of the strand of tile 1. -/
def tXfer (act : MerAct) : MerXfer := ⟨5, 9, act, .strand, 1, 0, some 0, 0, 5⟩

def tMer (o : MerObj) (act : MerAct) : State := { tReady with mer := { objs := [(9, o)], xfers := [tXfer act], next := 6 } }

theorem witness_takes (o : MerObj) (act : MerAct) : (tMer o act).Takes (tXfer act) o := by
  refine ⟨rfl, ?_, rfl⟩
  cases act <;> rfl

theorem witness_CountOverflow : (tXfer (.signal false)).mayName (tObject .count 0xFFFFFFFF false) = true ∧ (tXfer (.signal false)).src ≠ .kci ∧
    (tObject .count 0xFFFFFFFF false).kind = .count ∧ (tObject .count 0xFFFFFFFF false).value = 0xFFFFFFFF ∧ (tObject .count 0xFFFFFFFF false).waiters = [] := by decide

/-- Every clause with the object that it asks for; the last arrival of a BARRIER whose GEN wraps. -/
theorem witness_HomeCell : (∀ b, (tXfer (.signal b)).mayName (tObject .count 0 true) = true) ∧ (tXfer (.wait none)).mayName (tObject .barrier 1 true) = true ∧
    (tXfer (.signal false)).src ≠ .kci ∧
    (tObject .count 0 true).waiters = ⟨0, 3, 0, none, 0⟩ :: [] ∧ ((tObject .count 0xFFFFFFFE false).waiters = [] ∧ (tObject .count 0xFFFFFFFE false).value < 0xFFFFFFFF) ∧
    0 < (tObject .count 1 false).value ∧ (tObject .event 0 true).kind = .event ∧
    (tObject .barrier 1 true).kind = .barrier ∧ (tObject .barrier 1 true).value + 1 = (tObject .barrier 1 true).target := by decide

/-- A strand of tile 0 that waits for a reply into g1, by a timed wait or not. -/
def tWait (timeout : Option Nat) : Tile := { tRun with strands := [(0, { state := .waiting, wait := .meridian 9 1 5 0 timeout false })] }

def tReply (arrived : Bool) : MerReply := { id := 7, reg := 5, tile := 0, strand := 0, obj := 9, result := 1, expiry := none, decided := none, sample := none, sig := 5, arrived := arrived }

def tReplied (arrived : Bool) : State := { tTile (tWait none) with mer := { replies := [tReply arrived], acks := [⟨8, 0, none, 0, false⟩] } }

theorem witness_MeridianArrivals : ((tReplied false).tile 0).g.length = 29 ∧ (tReply false).expiry = none ∧ ((tReplied false).tile 0).strand 0 = { state := .waiting, wait := .meridian 9 1 5 0 none false } ∧
    ((tReplied false).tile 0).fallThroughOf 0 0 = (some 1, []) ∧ (tReplied false).mer.replies.find? (fun q => q.id = 7) = some (tReply false) ∧
    (tReply false).sample = none ∧ (tReply false).dead = false ∧
    (tReplied true).mer.replies.filter (fun q => q.obj = 9 && q.arrived && (match q.sample with
      | some c => decide (c ≤ ((tReplied true).at 0).timebase)
      | none => true)) = [tReply true] ∧
    (((tTile (tWait (some 10))).tile 0).strand 0).wait = .meridian 9 1 5 0 (some 10) false ∧ 10 ≤ 10 ∧
    (∀ r ∈ (tTile (tWait (some 10))).mer.replies, r.reg = 5 → r.arrived = false) ∧
    (tReplied false).mer.acks.find? (fun b => b.id = 8) = some ⟨8, 0, none, 0, false⟩ := by decide

/-- A capture that is under way; a partition whose only strand has waited since cycle 0, seen blocked at cycle 0. -/
def tCapture : State := { tMer (tObject .count 1 true) (.wait none) with mer := { objs := [(9, tObject .count 1 true)], dbg := [(1, { busy := some 9 })] } }

def tBlocked : State := { tTile { tWait none with part := some 0 } with mer := { window := 16, since := [(0, 0)] } }

theorem witness_MeridianDebug : (tCapture.mer.dbg.lookD 1 {}).busy = some 9 ∧ tCapture.mer.objs.look 9 = some (tObject .count 1 true) ∧ (tObject .count 1 true).part + 1 = 1 ∧
    tReady.blocked 0 = false ∧ tBlocked.blocked 0 = true ∧ tBlocked.mer.since.look 0 = some 0 ∧ tBlocked.mer.enabled = true ∧ 0 ∉ tBlocked.mer.dl ∧
    (∀ e ∈ tBlocked.partTiles 0, ∀ d ∈ e.2.strands, d.2.wait = .meridian 9 1 5 0 none false) ∧ 0 + 2 ^ tBlocked.mer.window ≤ 65536 := by decide

/-- A state with partition 63. -/
def tPart : State := { tReady with dtm := { parts := [(63, { assigned := true })] } }

theorem witness_MeridianCommands : 16383 < 16384 ∧ tPart.partExists 63 = true ∧ tPart.mer.objs.look 16383 = none ∧
    merRange .count (2 ^ 32 - 1) = true ∧ merRange .event 1 = true ∧ merRange .barrier 65535 = true ∧ merRange .barrier 1 = true ∧
    (tMer (tObject .count 1 false) (.wait none)).mer.objs.look 9 = some (tObject .count 1 false) ∧ (tObject .count 1 false).waiters = [] ∧
    (some (2 ^ 32 - 1) : Option Nat).getD 0 < 2 ^ 32 ∧
    ({ tPart with mer := { snaps := [(63, ⟨[], [], 0, 0⟩)] } } : State).mer.snaps.look 63 = some ⟨[], [], 0, 0⟩ := by decide

theorem witness_openMer (o : MerObj) (act : MerAct) : (tMer o act).Open tk := ⟨rfl, rfl, fun _ => rfl, fun _ => rfl, rfl, rfl, rfl, rfl⟩

theorem witness_openPart : tPart.Open tk := ⟨rfl, rfl, fun _ => rfl, fun _ => rfl, rfl, rfl, rfl, rfl⟩

theorem witness_ObjectBusy : 9 < 16384 ∧ (none : Option Nat).getD 0 < 2 ^ 32 ∧ (tMer (tObject .count 1 true) (.wait none)).mer.objs.look 9 = some (tObject .count 1 true) ∧
    (tObject .count 1 true).waiters ≠ [] := by decide
/-! ### Tiles by command, Datum -/

theorem witness_TileCommands : (∀ t ∈ [0], t < 1024) ∧ (∀ e ∈ (tTile tRun).cfl.groups, ∀ t ∈ [0], t ∉ e.2.d.tiles) ∧
    ((tTile tRun).tile 0).state ≠ .off ∧ ((tTile tRun).tile 0).state ≠ .unavailable ∧
    ((tTile { state := .ready, part := some 0, rxSize := 65, area := 0x17 }).tile 0).startable = true ∧ [0].Nodup ∧ ((tTile tRun).tile 0).state = .running ∧
    (((tTile { state := .halted, cmdHalt := true }).tile 0).state = .halted ∧ ((tTile { state := .halted, cmdHalt := true }).tile 0).cmdHalt = true) ∧
    ((tTile { state := .unavailable }).tile 0).state = .unavailable ∧ ((tTile tRun).tile 0).state ≠ .ready ∧ ((tTile {}).tile 0).state ≠ .running ∧
    ((tTile { state := .halted }).tile 0).cmdHalt = false ∧ ((tTile tRun).tile 0).state ≠ .halted := by decide

theorem witness_TileRegisterWrites : (∀ e ∈ (tTile tRun).cfl.groups, 0 ∉ e.2.d.tiles) ∧ (3 : Word).toNat.testBit 0 = true ∧
    ((4 : Word).toNat.testBit 0 = false ∧ (4 : Word).toNat.testBit 2 = true) ∧
    ((8 : Word).toNat.testBit 0 = false ∧ (8 : Word).toNat.testBit 2 = false ∧ (8 : Word).toNat.testBit 3 = true) ∧
    ((16 : Word).toNat.testBit 0 = false ∧ (16 : Word).toNat.testBit 2 = false ∧ (16 : Word).toNat.testBit 3 = false ∧ (16 : Word).toNat.testBit 4 = true) ∧
    (((tTile {}).tile 0).state = .reset ∧ ((tTile {}).tile 0).resetAt ≤ 64 ∧ (tTile {}).now ≤ 64) := by decide

/-- The last word of a bank; a scratchpad to its end; a halted tile; a state with no partition and no tile that runs. -/
theorem witness_TileMemoryCommands : 1023 < 1024 ∧ 1 < 2 ∧ 8 % 8 = 0 ∧ 65528 % 8 = 0 ∧ 65528 + 8 ≤ 65536 ∧
    ((tTile { state := .ready }).tile 0).loadBad 1 = none ∧ ((tTile tRun).tile 0).state = .running ∧ ((tTile { state := .ready }).tile 0).state = .ready ∧
    0x17FFFF + 1 ≤ 0x180000 ∧ ((tTile { state := .halted }).tile 0).state = .halted ∧ ((tTile { state := .halted }).tile 0).scratch.wf = true ∧ 3 < 4 ∧
    (15 < 16 ∨ 15 = 31) ∧ (31 < 16 ∨ 31 = 31) ∧ tReady.partList = [] ∧ SMap.rising none tReady.grid.shift = true := by decide

theorem witness_TileMemoryCommands_all : (∀ t, ((tTile { state := .halted }).tile t).bad = []) ∧ ∀ t, (tReady.tile t).state ≠ .running := by
  constructor
  · intro t
    by_cases h : t = 0
    · subst h; rfl
    · simp [tTile, State.tile, SMap.lookD, SMap.look, Ne.symm h]
  · intro t
    simp [tReady, State.tile, SMap.lookD, State.reset, SMap.look]

/-- A partition, and a timebase that has been set. -/
def tTimed : State := { tPart with dtm := { tPart.dtm with valid := true, role := some .leader, calOk := true } }

theorem witness_DatumCommands : tPart.stk.bringup = .none ∧ tPart.partExists 63 = true ∧ tPart.partBusy 63 = false ∧ tPart.dtm.calib = none ∧ SyncRole.leader ≠ .standalone ∧
    SyncRole.follower ≠ .standalone ∧ (tTimed.dtm.role ≠ none ∧ tTimed.dtm.calOk = true) ∧ tTimed.datumBusy = false ∧ tTimed.dtm.start = none ∧ tTimed.dtm.valid = true ∧
    tTimed.timebase + 64 ≤ 64 := by decide

def tCalib (role : SyncRole) : State := { tTimed with dtm := { tTimed.dtm with calib := some ⟨role, 0, 1, 12, List.replicate 254 0⟩ } }

def tArm (emit zero : Option Nat) : State := { tTimed with dtm := { tTimed.dtm with start := some ⟨0, emit, zero, .calibrated⟩ } }

/-- Edges of the reference are multiples of 12; a check pulse falls at 1,048,572. -/
theorem witness_DatumEvents : ((tCalib .leader).now ≤ 12 ∧ ((tCalib .leader).at 12).timebase % 12 = 0 ∧ 0 < 1 ∧ 12 ≤ 12) ∧ (0 + 1875000 ≤ 1875000 ∧ (List.replicate 254 0).length < 255) ∧
    (tCalib .follower).dtm.role = some .leader ∧ (tArm (some 12) none).dtm.start = some ⟨0, some 12, none, .calibrated⟩ ∧
    ((tArm none none).dtm.calib = none ∧ (tArm none none).dtm.start = some ⟨0, none, none, .calibrated⟩ ∧ 0 + 3750000 ≤ 3750000) ∧
    ((tArm none (some 5)).dtm.start = some ⟨0, none, some 5, .calibrated⟩ ∧ 5 ≤ 5 ∧ (tArm none (some 5)).anyDatum = false) ∧
    (tTimed.dtm.valid = true ∧ (tTimed.at 1048572).timebase % 1048572 = 0 ∧ tTimed.dtm.lastEmit ≠ 1048572) ∧
    (tTimed.dtm.state ≠ .syncLost ∧ tTimed.dtm.lastSeen + 2097152 ≤ 2097152) ∧
    (({ tTimed with dtm := { tTimed.dtm with startAt := [(63, 12)] } } : State).dtm.startAt = [(63, 12)] ∧ 12 ≤ (tTimed.at 12).timebase ∧
      SMap.rising none tTimed.grid.tiles = true) := by decide +kernel

/-! ### Confluence -/

/-- A group of two members that this module hosts, on tile 0 of partition 63. -/
def tGroupDef : GroupDef :=
  { id := 65535, part := 63, members := [256, 257], hosted := [(0, .device), (1, .accel 5)], tiles := [0], reserve := 131072, cls := 7, progTimeoutLog2 := 40, audit := false }

def tHosted : State :=
  { tPart with grid := { tiles := [(0, { state := .ready, part := some 63 })] }, fab := { tPart.fab with pfx := some (1, 5) } }

/-- A barrier of the group. -/
def tBarrier : List Word := padTo 16 0 [BitVec.ofNat 64 (65535 + 7 * 65536)]

def tGroup (phase : CflPhase) : CflGroup := { d := tGroupDef, md := 0, phase := phase, next := [(0, 0), (1, 0)] }

def tGrouped (phase : CflPhase) : State := { tHosted with cfl := { groups := [(65535, tGroup phase)] } }

theorem witness_ConfluenceGroups : tHosted.partExists tGroupDef.part = true ∧ tGroupDef.id < 65536 ∧ tGroupDef.cls < 8 ∧ 20 ≤ tGroupDef.progTimeoutLog2 ∧ tGroupDef.progTimeoutLog2 ≤ 40 ∧
    tGroupDef.tiles ≠ [] ∧ tGroupDef.tiles.length ≤ 16 ∧
    (∀ t ∈ tGroupDef.tiles, t < 1024 ∧ (tHosted.tile t).state ≠ .unavailable ∧ (tHosted.tile t).part = some tGroupDef.part ∧ t / 256 = nth tGroupDef.tiles 0 0 / 256) ∧
    tGroupDef.hosted.map (·.1) = tHosted.hostedRanks tGroupDef.members ∧ ascending tGroupDef.members = true ∧ tGroupDef.members ≠ [] ∧ (∀ m ∈ tGroupDef.members, m < 2 ^ 48) ∧
    tGroupDef.reserve % 4096 = 0 ∧ 65536 * tGroupDef.hosted.length ≤ tGroupDef.reserve ∧ tGroupDef.reserve ≤ 1048576 ∧ tHosted.cflGroup 65535 = none ∧ tHosted.cfl.groups.length < 4096 := by decide

theorem witness_ConfluenceGroups_open : (tGrouped .defined).cflGroup 65535 = some (tGroup .defined) ∧ (tGroup .defined).d.id = 65535 ∧ (tGroup .defined).isOpen = false ∧
    (tGrouped .defined).cflOpen + (tGrouped .defined).cflShared < 1024 ∧ ((tGrouped .defined).pool (tGroup .defined).die poolCollation).level < 3 ∧
    (((tGrouped .defined).enter tk 0x0602).platReserve (tGroup .defined).die poolCollation 65535 32).isSome = true ∧ (∀ r ∈ (tGrouped .open_).cfl.runs, r.group ≠ 65535) ∧
    (tGroup .open_).isOpen = true ∧ SMap.rising none (tGrouped .defined).cfl.groups = true ∧ (cflDesc tBarrier).check (padTo 16 0 tBarrier) (tGroup .open_).n = .ok := by decide +kernel

theorem witness_openGrouped (p : CflPhase) : (tGrouped p).Open tk := ⟨rfl, rfl, fun _ => rfl, fun _ => rfl, rfl, rfl, rfl, rfl⟩

/-- A tile's submission: header, USER word 0 with the rank and the reply handler, two lines of descriptor. -/
def tSubmit (rank : Nat) : MeshMsg :=
  { header := padTo 8 0 [BitVec.ofNat 64 (put 9 0 3 + 2 ^ 21 + put 34 28 2 + put 40 35 63), BitVec.ofNat 64 (put 15 0 rank + put 21 16 63)],
    payload := wordBytes tBarrier }

/-- The packet of an accelerator that submits the same. -/
def tAccelSubmit : Packet := dataPacket 0 0 ulpColl 0 0 0 7 0 [] (wordBytes tBarrier)

def tPort5 : SubPort :=
  { cfg := { ({} : SubPort).cfg with mode := .endpoint, part := some 63 }, ingress := [tAccelSubmit] }

/-- A submission that waits at rank 0. -/
def tWaiting : CflRun := { id := 0, group := 65535, rank := 0, words := tBarrier, via := .kci, digest := 0 }

def tRuntime : State :=
  { tGrouped .open_ with grid := { tiles := [(0, { tRun with part := some 63 })] }, cfl := { (tGrouped .open_).cfl with runs := [tWaiting], nextRun := 1 } }

theorem witness_ConfluenceSubmissions : (cflDesc tBarrier).group = 65535 ∧ (tGrouped .open_).cflGroup 65535 = some (tGroup .open_) ∧ (tGroup .open_).d.id = 65535 ∧
    (tGroup .open_).phase ≠ .failed ∧ tk.acts = none ∧ (tGroup .open_).hostOrDevice 0 = true ∧
    takeFirst (fun (m : MeshMsg) => !m.srcGw && m.destGw && m.dest = 3 && coord m.src = 0) [tSubmit 0] = some (tSubmit 0, []) ∧
    (tSubmit 0).len = 2 ∧ bits (nth (tSubmit 0).header 1 0) 63 22 = 0 ∧ bits (nth (tSubmit 0).header 1 0) 15 0 = 0 ∧ (∀ i, i < 6 → nth (tSubmit 0).header (2 + i) 0 = 0) ∧
    leWords 16 (tSubmit 0).payload = tBarrier ∧ (tGroup .open_).d.part = (tSubmit 0).part ∧ (tGroup .open_).kind 0 = some .device ∧
    tPort5.cfg.mode = .endpoint ∧ tAccelSubmit.ulp = ulpColl ∧ leWords 16 tAccelSubmit.payload = tBarrier ∧
    (tGroup .open_).d.hosted.find? (fun e => e.2 = .accel 5) = some (1, .accel 5) ∧ tPort5.cfg.part = some (tGroup .open_).d.part ∧
    tRuntime.cflHeadOf 65535 0 = some tWaiting ∧ tRuntime.cflAccepts (tGroup .open_) = true ∧ tRuntime.cflContext (tGroup .open_) tWaiting = true := by decide +kernel

/-- A Confluence packet of a kind for rank 0 of the group, and a state with it at the runtime of die 0. -/
def tBlock (kind : Nat) : Packet :=
  { isData := kind = 0, vc := 8, dest := 256, ulp := ulpCfl, hops := 32,
    flit := (if kind = 0 then List.replicate 4 0 else []) ++ cflHead 65535 kind 0 0 0 0 1 0 0 0 1, payload := [] }

def tInbox (kind : Nat) : State := { tRuntime with fab := { tRuntime.fab with inbox := [(0, .cfl 0 0, tBlock kind)] } }

theorem witness_ConfluencePackets : (∀ kind ∈ [0, 5, 6, 7, 8, 9, 10, 2, 3], (tBlock kind).cflGroup = 65535 ∧ (tBlock kind).cflKind = kind ∧ (tBlock kind).isData = decide (kind = 0) ∧
      (tGroup .open_).d.members.idxOf? (tBlock kind).dest = some 0 ∧ (tInbox kind).fab.inbox = (0, .cfl 0 0, tBlock kind) :: [] ∧
      (tInbox kind).cflGroup 65535 = some (tGroup .open_)) ∧
    (tGroup .open_).d.id = 65535 ∧ (tGroup .open_).isOpen = true ∧ (tGroup .open_).hosts 0 = true ∧ (tInbox 0).started 65535 0 0 = none ∧
    seqBefore 0 ((tGroup .open_).nextSeq 0) = false ∧ seqBefore (2 ^ 32 - 1) ((tGroup .open_).nextSeq 0) = true := by decide +kernel

/-- A reduction of one FP32 element, started at rank 0 with its contribution. -/
def tReduce : CflRun :=
  { tWaiting with words := padTo 16 0 [BitVec.ofNat 64 (65535 + 65536), 1], seq := some 0, source := [0, 0, 0x80, 0x3F], ready := true, confirmed := true }

def tReducing : State := { tRuntime with cfl := { tRuntime.cfl with runs := [tReduce] } }

theorem witness_ConfluencePackets_combine : tReducing.started 65535 0 0 = some tReduce ∧ tReducing.cflRun tReduce.id = some tReduce ∧ tReduce.group = 65535 ∧
    tReduce.d.ctl = false ∧ tReduce.d.moves = false ∧ tReduce.d.selects = false ∧ tReduce.d.anchor = false ∧ tReduce.ins = [] ∧ tReduce.ready = true ∧
    (0, false) ∈ tReduce.d.lanes 2 0 ∧ tReduce.at_ 0 false = (0, 0) ∧ 0 < tReduce.d.segs ∧ 0 < tReduce.base 2 + 4 ∧ childRanks 0 0 2 = [] ∧ parentRank 0 0 2 = some 1 ∧
    (tGroup .open_).n = 2 ∧
    tReducing.cfl.runs.find? (fun r => r.group = 65535 && r.seq = some 0 && r.last + 2 ^ 40 ≤ max tReducing.now (2 ^ 40)) = some tReduce := by decide +kernel

/-- Packets for a collective that has not started are kept; those of one that started go to it; the node combines its own element and sends it up. -/
theorem test_ConfluencePackets : tTo (.cflBlockReceive 0) (tInbox 0) (fun u => decide (u.cfl.early.map (fun e => (e.1, e.2.1)) = [(0, tBlock 0)]) && decide (u.fab.inbox = [])) = true ∧
    tTo (.confirmReceive 0) (tInbox 6) (fun u => decide (u.cfl.early.map (fun e => (e.1, e.2.1)) = [(0, tBlock 6)]) && decide (u.fab.inbox = [])) = true ∧
    tTo (.cflCombine 65535 0 0 0 0 0 false) tReducing (fun u => u.cfl.runs.all (fun r => r.at_ 0 false = (1, 0))) = true := by decide +kernel

/-! ### Gazetteer -/

/-- A table of 32 rows of 32 E4M3 elements in the pinned rows, for partition 63. -/
def tTable : TableDef := ⟨4095, 63, 3, 0, 32, 128, 32, 3, 0, 0, 0, 0, 0, 0⟩

/-- A request for one row, the last, of that table. -/
def tBag (e : Word) : List Byte := padTo 64 0 (leBytes 4 (4095 + 2 ^ 16) ++ leBytes 4 0 ++ leBytes 4 e.toNat)

def tGazHead : Word := BitVec.ofNat 64 (1 + 256 + put 21 18 0)

def tGazReq : GazReq := { id := 3, die := 0, src := .tile 0 0 0, part := 63, head := tGazHead, bags := [(4095, 0, 1)], rows := [⟨0, 4095, 31, 0x3F800000, [], none⟩] }

def tGazState (reqs : List GazReq) (del : Bool) : State := { tPart with gaz := { tables := [(4095, { d := tTable, deleting := del })], reqs := reqs, next := 4 } }

/-- A lookup of partition 63 that finds its unit full, with the request in host memory of the PF. -/
def tKGaz : Kci := { tk with part := some 63 }

def tFull : State :=
  { tGazState (List.replicate 1024 { tGazReq with bags := [] }) false with host := [(0, (Memory.writeN [] 64 (leBytes 8 tGazHead.toNat ++ tBag 31)))] }

theorem witness_GazetteerCommands : tPart.partExists tTable.part = true ∧ tPart.tableBad tTable = false ∧
    (tGazState [tGazReq] false).gazTable 4095 = some { d := tTable } ∧ (∀ q ∈ (tGazState [] false).gaz.reqs ++ (tGazState [] false).gaz.held, ∀ b ∈ q.bags, b.1 ≠ 4095) ∧
    (∃ q ∈ (tGazState [tGazReq] false).gaz.reqs, ∃ b ∈ q.bags, b.1 = 4095) ∧
    1024 ≤ tFull.gazInFlight 0 ∧ tFull.gazBad (tKGaz.acts.getD 64) 1 [nth (leWords 1 (tFull.hostRead tKGaz.src.fnIdx 64 8)) 0 0] (tFull.hostRead tKGaz.src.fnIdx (64 + 8) (64 * 1)) = false ∧
    tKGaz.acts = some 63 ∧ tPart.partExists 63 = true ∧ 16 % 16 = 0 ∧ 32767 < 32768 := by decide +kernel

/-- A tile's request, and the reads of the row of a request, complete. -/
def tGazMail (f : Nat) : MeshMsg :=
  { header := padTo 8 0 [BitVec.ofNat 64 (put 9 0 2 + 2 ^ 21 + put 34 28 1 + put 40 35 63), BitVec.ofNat 64 (1 + 256 + put 21 18 f)], payload := tBag 31 }

def tRowRead : MemReq :=
  { id := 1, user := .gaz 0 3 0 0, write := false, target := .pinned 0 992, len := 32, data := List.replicate 32 0x38, cls := 0, part := some 63, die := 0, port := 256, stage := .complete .ok }

def tReading : State := { tGazState [tGazReq] false with stk := { tPart.stk with reqs := [tRowRead] } }

def tGazWhole : GazReq := { tGazReq with rows := [⟨0, 4095, 31, 0x3F800000, List.replicate 32 0x38, some .ok⟩] }

theorem witness_GazetteerRequests : (∀ f ∈ [0, 15], takeFirst (fun (m : MeshMsg) => !m.srcGw && m.destGw && m.dest = 2 && coord m.src / 256 = 0) [tGazMail f] = some (tGazMail f, [])) ∧
    (tGazState [] false).gazBad (tGazMail 15).part (tGazMail 15).len ((tGazMail 15).header.drop 1) (tGazMail 15).payload = true ∧ (tGazState [] false).gaz.counts.length = 5 ∧
    (tGazState [] false).gazBad (tGazMail 0).part (tGazMail 0).len ((tGazMail 0).header.drop 1) (tGazMail 0).payload = false ∧ (tGazState [] false).gazInFlight 0 < 1024 ∧
    tReading.gazReq 0 3 = some tGazReq ∧ tGazReq.rows[0]?.map (·.status) = some none ∧ (tReading.gazRowDone tGazReq 0).map (·.1) = some .ok ∧
    (tGazState [tGazWhole] false).gazReq 0 3 = some tGazWhole ∧ tGazWhole.whole = true ∧ tGazWhole.src = .tile 0 0 0 := by decide +kernel

theorem test_GazetteerCommands : tTo (.gazTableDefine tk tTable) tPart (fun u => tFol u ((tPart.pinOn tTable.pinDie tTable.pinOff (tTable.pinRows * tTable.rowBytes)).setGaz { tPart.gaz with tables := tPart.gaz.tables.put 4095 { d := tTable } }) && tAns u 0x0701 .ok []) = true ∧
    tTo (.gazTableDelete tk 4095) (tGazState [] false) (fun u => tFol u (tPart.setGaz { (tGazState [] false).gaz with tables := [] }) && tAns u 0x0702 .ok []) = true ∧
    tTo (.gazTableDelete tk 4095) (tGazState [tGazReq] false) (fun u => u.gazTable 4095 = some { d := tTable, deleting := true } && tBusy u 0x0702 [4095]) = true ∧
    tTo (.gazLookup tKGaz 0 64 1 128) tFull (fun u => u.gaz.held = tFull.gaz.held ++ [{ gazMake 4 0 (.host 0 128) 63 tGazHead (tBag 31) with len := 1, body := tBag 31 }] && u.gaz.next = 5 && tBusy u 0x0704 [4]) = true := by decide +kernel

theorem test_GazetteerRequests : tTo (.gazRequest 0) { tGazState [] false with grid := { tPart.grid with mesh := [tGazMail 15] } } (fun u =>
      decide (u.grid.mesh.map (fun r => (r.srcGw, r.src, r.dest, r.tag, r.len, bits (nth r.header 1 0) 7 0)) = [(true, 2, 0, 0, 0, Status.gazInvalid.code)]) && nth u.gaz.counts 3 0 = 1) = true ∧
    tTo (.gazRequest 0) { tGazState [] false with grid := { tPart.grid with mesh := [tGazMail 0] } } (fun u => u.grid.mesh = [] && u.gaz.next = 5 &&
      u.gaz.reqs.map (·.id) = [4] && u.gaz.reqs.all (fun r => r.die = 0 && r.part = 63 && r.bags = [(4095, 0, 1)])) = true ∧
    tTo (.gazRowComplete 0 3 0) tReading (fun u => u.gaz.reqs = [tGazWhole] && u.stk.reqs = []) = true ∧
    tTo (.gazReply 0 3) (tGazState [tGazWhole] false) (fun u => u.gaz.reqs = [] && u.grid.mesh.length = 1) = true := by decide +kernel
/-! ### Bearing -/

/-- A state with one sub-port and one physical port, the last ones. -/
def tSub (x : SubPort) : State := { tPart with fab := { tPart.fab with subs := [(1016, x)] } }

def tCfg (m : PortMode) : SubConfig := { ({} : SubPort).cfg with mode := m, part := some 63, retxSize := 2 ^ 22 }

def tLinkId (role version : Nat) : LinkId := ⟨List.replicate 16 0, [0, 0], role, version, 5, 0, List.replicate 9 16, List.replicate 16 0⟩

/-- A unit of a link. -/
def tUnit (kind vc lseq : Nat) (body : List Byte) : WireUnit := ⟨kind, vc, lseq, body⟩

/-- A LINK_ID unit as it comes in. -/
def tIdUnit (role version : Nat) : LinkUnit := ⟨(tUnit 2 0 0 (tLinkId role version).bytes).bytes, 0, 0⟩

def tPage : List Byte := List.replicate 255 0 ++ [9]

def tCage (c : Cmis) : State := { tPart with fab := { tPart.fab with ports := [(127, { cmis := c })] } }

/-- A valid steering entry: port 31 of die 3, EtherType 0x88B5, tile 0 of partition 63. -/
def tSteer : List Word := padTo 16 0 [BitVec.ofNat 64 (2 ^ 31 + 2 ^ 32 + 2 ^ 33 + put 49 34 0x88B5 + 2 ^ 50 + put 56 51 63), BitVec.ofNat 64 (put 13 7 1)]

def tProfile : ConvProfile := ⟨true, true, 0, 3, false, 0⟩

def tSteerState : State := { tSub { cfg := tCfg .ethernet } with grid := { tiles := [(0, { state := .ready, part := some 63 })] } }

theorem witness_PortCommands : (127 < 128 ∧ [tCfg .endpoint].length = 8 / 8 ∧ (∀ c ∈ [tCfg .endpoint], subBad c = false) ∧ limitSum [tCfg .endpoint] ≤ 2048 ∧
      (∀ c ∈ [tCfg .endpoint], ∀ p ∈ c.part, tPart.partExists p = true) ∧ (∀ i, i < 8 → (tPart.sub (8 * 127 + i)).state = .disabled) ∧
      tPart.groupOthers 127 + ([tCfg .endpoint].filter (fun c => c.mode ≠ .disabled)).length ≤ 16) ∧
    (∀ st ∈ [LinkState.disabled, .training], (tSub { cfg := tCfg .switch, state := st }).subExists 1016 = true ∧ ((tSub { cfg := tCfg .switch, state := st }).sub 1016).state = st ∧
      ((tSub { cfg := tCfg .switch, state := st }).sub 1016).cfg.mode ≠ .disabled ∧ ((tSub { cfg := tCfg .switch, state := st }).sub 1016).held = false) ∧
    ((tSub { partner := some (tLinkId 1 1) }).sub 1016).partner = some (tLinkId 1 1) ∧
    (128 + 128 ≤ 256 ∧ ((tCage { present := true, pages := [(0, tPage)] }).port 127).cmis.present = true ∧ ((tCage { present := true, pages := [(0, tPage)] }).port 127).cmis.ack = true ∧
      ((tCage { present := true, pages := [(0, tPage)] }).port 127).cmis.page 0 0 = some tPage) ∧
    (bit (nth tSteer 0 0) 32 = true ∧ steerFields tSteer = true ∧ tSteerState.steerInside 3 { words := tSteer } = true) ∧
    ({ tPart with fab := { tPart.fab with steer := [(1023, { words := tSteer })] } } : State).fab.steer.look (256 * 3 + 255) = some { words := tSteer } ∧
    7 < 8 ∧ profileOk tProfile = true := by decide +kernel

theorem test_PortCommands : tTo (.portConfig tk 127 8 2 [tCfg .endpoint]) tPart (fun u => (u.port 127).width = 8 && (u.port 127).rate = 2 && (u.sub 1016).cfg = tCfg .endpoint &&
      (u.sub 1016).state = .disabled && tAns u 0x0301 .ok []) = true ∧
    tTo (.portLink tk 1016 .up) (tSub { cfg := tCfg .switch, attempts := 8 }) (fun u => (u.sub 1016).state = .training && (u.sub 1016).attempts = 0 && tBusy u 0x0302 [1016]) = true ∧
    tTo (.portLink tk 1016 .down) (tSub { cfg := tCfg .switch, state := .training }) (fun u => (u.sub 1016).state = .down && (u.sub 1016).cause = 7 && tAns u 0x0302 .ok []) = true ∧
    tTo (.portPartner tk 1016) (tSub { partner := some (tLinkId 1 1) }) (fun u => tFol u (tSub { partner := some (tLinkId 1 1) }) && tAns u 0x0304 .ok (leWords 8 (tLinkId 1 1).bytes)) = true ∧
    tTo (.portCmisRead tk 127 0 0 128 128) (tCage { present := true, pages := [(0, tPage)] }) (fun u => tFol u (tCage { present := true, pages := [(0, tPage)] }) &&
      tAns u 0x0305 .ok (List.replicate 15 0 ++ [0x0900000000000000])) = true ∧
    tTo (.portSteerSet tk 3 255 tSteer) tSteerState (fun u => tFol u (tSteerState.setFab { tSteerState.fab with steer := [(1023, { words := tSteer })] }) && tAns u 0x0306 .ok []) = true ∧
    tTo (.portConvSet tk 127 7 tProfile) tPart (fun u => decide ((u.port 127).profiles = [(7, tProfile)]) && tAns u 0x0308 .ok []) = true ∧
    tTo (.brgSrReseed 127 5) tPart (fun u => (u.port 127).seed = 5 && (u.port 127).lanes = { seed := 5 }) = true := by decide +kernel

/-- The states and times of each edge of a link. -/
theorem witness_LinkStates : ((tSub { cfg := tCfg .switch, state := .training }).sub 1016).state = .training ∧
    ((tSub { cfg := tCfg .switch, state := .training }).sub 1016).since + trainLimit ((tSub { cfg := tCfg .switch, state := .training }).port (1016 / 8)).rate ≤ trainLimit 0 ∧
    (((tSub { cfg := tCfg .switch, state := .down, attempts := 7 }).sub 1016).attempts < 8 ∧ 0 + 1875000 ≤ 1875000) ∧
    (∀ v ∈ [tLinkId 1 1, tLinkId 2 1, tLinkId 1 0], parseUnit (tUnit 2 0 0 v.bytes).bytes = some (tUnit 2 0 0 v.bytes) ∧ linkIdOf (tUnit 2 0 0 v.bytes).body = v) ∧
    (miswired { cfg := tCfg .switch, state := .ident } (tLinkId 1 1) = false ∧ miswired { cfg := tCfg .switch, state := .ident } (tLinkId 2 1) = true ∧ (tLinkId 1 0).version ≠ 1) ∧
    (((tSub { cfg := tCfg .switch, state := .ident, lastId := some 0 }).sub 1016).lastId = some 0 ∧ 0 + 1875 ≤ 1875) ∧ 0 + 18750000 ≤ 18750000 ∧
    (((tSub { cfg := tCfg .switch, state := .up }).sub 1016).state = .up ∧ ((tSub { cfg := tCfg .switch, state := .up }).sub 1016).lastGood + 1024 ≤ 1024) ∧
    (tSub { cfg := tCfg .switch, state := .up }).now ≤ 1024 := by decide +kernel

theorem test_LinkStates : tTo (.trainingComplete 1016 9) (tSub { cfg := tCfg .switch, state := .training }) (fun u => (u.sub 1016).state = .ident && (u.sub 1016).fecLock &&
      (u.sub 1016).lanes = 255 && (u.sub 1016).idsLeft = 3 && (u.sub 1016).since = 9) = true ∧
    tTo (.trainingTimeout 1016 (trainLimit 0)) (tSub { cfg := tCfg .switch, state := .training, attempts := 8 }) (fun u => (u.sub 1016).state = .down && (u.sub 1016).cause = 3 && (u.sub 1016).attempts = 8) = true ∧
    tTo (.downHoldoffExpiry 1016 1875000) (tSub { cfg := tCfg .switch, state := .down, attempts := 7 }) (fun u => (u.sub 1016).state = .training && (u.sub 1016).attempts = 7) = true ∧
    tTo (.linkIdReceive 1016 (tIdUnit 1 1)) (tSub { cfg := tCfg .switch, state := .ident }) (fun u => (u.sub 1016).partner = some (tLinkId 1 1) && (u.sub 1016).valid && (u.sub 1016).state = .ident) = true ∧
    tTo (.linkIdReceive 1016 (tIdUnit 2 1)) (tSub { cfg := tCfg .switch, state := .ident }) (fun u => (u.sub 1016).state = .miswired && (u.sub 1016).cause = 5) = true ∧
    tTo (.linkIdReceive 1016 (tIdUnit 1 0)) (tSub { cfg := tCfg .switch, state := .ident }) (fun u => (u.sub 1016).state = .down && (u.sub 1016).cause = 8) = true ∧
    tTo (.linkIdSend 1016 1875) (tSub { cfg := tCfg .switch, state := .ident, lastId := some 0 }) (fun u => (u.sub 1016).lastId = some 1875 && (u.sub 1016).state = .ident) = true ∧
    tTo (.identTimeout 1016 18750000) (tSub { cfg := tCfg .switch, state := .ident }) (fun u => (u.sub 1016).state = .down && (u.sub 1016).cause = 4) = true ∧
    tTo (.alignmentLoss 1016 9) (tSub { cfg := tCfg .switch, state := .up }) (fun u => (u.sub 1016).state = .down && (u.sub 1016).cause = 1) = true ∧
    tTo (.noGoodUnitTimeout 1016 1024) (tSub { cfg := tCfg .switch, state := .up }) (fun u => (u.sub 1016).state = .down && (u.sub 1016).cause = 2) = true := by decide +kernel

/-- A packet of an accelerator, a flow with one packet, a context that owes an acknowledgement. -/
def tPlp : Packet := dataPacket 7 256 ulpPlp 0 3 0 0 0 [] (List.replicate 64 1)

def tCtrl : Packet := { tPlp with isData := false, vc := 8, payload := [] }

/-- The packet whose HEAD is in, its HEAD and its DATA unit. -/
def tHeadOnly : Packet := { tPlp with payload := [] }

def tUnits : List WireUnit :=
  [tUnit 1 0 0 (leBytes 8 (5 + put 19 16 8 + put 35 20 65535)), tUnit 3 8 4095 (unitBody tCtrl), tUnit 4 7 4095 (unitBody tPlp), tUnit 5 7 4095 (List.replicate 256 1)]

def tUp (m : PortMode) : SubPort := { cfg := tCfg m, state := .up, replay := [(5, [1]), (6, [2])], rxNext := 4095 }

def tRxHead : RxCur := { pkt := tHeadOnly, edge := true }

def tFlow (pkts : List FlowPkt) : SrcFlow := { src := 1016, dest := 256, vc := 7, pkts := pkts }

def tFlows (pkts : List FlowPkt) : State := { tSub (tUp .endpoint) with fab := { (tSub (tUp .endpoint)).fab with flows := [tFlow pkts] } }

def tAckCtx : RoCtx := { die := 3, src := 256, vc := 7, lport := 1016, unack := 1, firstUnack := some 0 }

theorem tUnits_shape : ∀ w ∈ tUnits, unitSize w.kind = some (w.body.length + 8) ∧ w.vc < 16 ∧ w.lseq < 4096 := by decide +kernel

/-- The units read back as they are sent, by the law of the wire. -/
theorem witness_units : ∀ w ∈ tUnits, parseUnit w.bytes = some w := fun w h => parseUnit_bytes (tUnits_shape w h).1 (tUnits_shape w h).2.1 (tUnits_shape w h).2.2

theorem witness_LinkUnits : ((tSub (tUp .endpoint)).sub 1016).state = .up ∧ 8 < 9 ∧ ((tSub (tUp .endpoint)).sub 1016).granted.length = 9 ∧ ((tSub (tUp .endpoint)).sub 1016).totals.length = 9 ∧
    parseUnit [] = none ∧
    (∀ w ∈ tUnits.drop 1, w.lseq = ((tSub (tUp .endpoint)).sub 1016).rxNext) ∧
    (((tSub (tUp .endpoint)).sub 1016).rx = none ∧ (nth tUnits 2 (tUnit 0 0 0 [])).packet = tHeadOnly ∧ tHeadOnly.bytes = 64 ∧ tHeadOnly.flits = 1) ∧
    (∀ q ∈ [tRxHead, { pkt := tHeadOnly, keep := true }], ((tSub { tUp .endpoint with rx := some q }).sub 1016).rx = some q ∧ q.copy = none ∧ q.got + 1 = q.pkt.flits) ∧ ([tHeadOnly] = [] ++ [tHeadOnly] ∧ tHeadOnly.isData = true) ∧
    ((tSub (tUp .endpoint)).heldWhole 1016 tHeadOnly = false) ∧
    (((tSub { tUp .endpoint with ingress := [tPlp] }).sub 1016).ingress = tPlp :: [] ∧ tPlp.ulp ≠ ulpColl) ∧ ((tSub { tUp .endpoint with e2eIn := [tCtrl] }).sub 1016).e2eIn = tCtrl :: [] ∧
    (tFlows [{ fseq := 0, pkt := tPlp }]).srcFlow 1016 256 7 = some (tFlow [{ fseq := 0, pkt := tPlp }]) ∧ 0 + 2 ^ ((tSub (tUp .endpoint)).sub 1016).cfg.rtoLog2 ≤ 65536 ∧
    (tFlows []).srcFlow 1016 256 7 = some (tFlow []) ∧ 0 + 65625 ≤ 65625 ∧
    ({ tPart with fab := { tPart.fab with ctxs := [tAckCtx] } } : State).roCtx 3 256 7 = some tAckCtx ∧ tAckCtx.firstUnack = some 0 ∧ 0 < tAckCtx.unack ∧ 0 + 3750 ≤ 3750 := by decide +kernel

theorem test_LinkUnits : tTo (.linkCtrlReceive 1016 (nth tUnits 0 (tUnit 0 0 0 [])).bytes 0 0) (tSub (tUp .endpoint)) (fun u => decide ((u.sub 1016).replay = [(6, [2])]) &&
      nth (u.sub 1016).totals 8 0 = 65535 && nth (u.sub 1016).granted 8 0 = 65535) = true ∧
    tTo (.sequencedUnitReceive 1016 ⟨[], 0, 0⟩) (tSub (tUp .endpoint)) (fun u => (u.sub 1016).nakOut && (u.sub 1016).nakDue && (u.sub 1016).rxNext = 4095) = true ∧
    tTo (.sequencedUnitReceive 1016 ⟨(nth tUnits 1 (tUnit 0 0 0 [])).bytes, 0, 0⟩) (tSub (tUp .endpoint)) (fun u => (u.sub 1016).rxNext = 0 && (u.sub 1016).ackDue &&
      decide ((u.sub 1016).ingress = [tCtrl])) = true ∧
    tTo (.sequencedUnitReceive 1016 ⟨(nth tUnits 2 (tUnit 0 0 0 [])).bytes, 0, 0⟩) (tSub (tUp .endpoint)) (fun u => (u.sub 1016).rxNext = 0 &&
      decide ((u.sub 1016).rx = some tRxHead ∧ (u.sub 1016).ingress = [tHeadOnly])) = true ∧
    (((tSub { tUp .endpoint with rx := some tRxHead, ingress := [tHeadOnly] }).takeData 1016 7 (List.replicate 256 1)).sub 1016).ingress = [tPlp] ∧
    tTo (.sourceFlowRetire 1016 256 7 65625) (tFlows []) (fun u => decide (u.fab.flows = [])) = true ∧
    tTo (.e2eRtoExpiry 1016 256 7 65536) (tFlows [{ fseq := 0, pkt := tPlp }]) (fun u => u.fab.flows.all (fun f => f.pkts.all (fun p => p.resends = 1))) = true ∧
    tTo (.accelPacketIngress 1016) (tSub { tUp .endpoint with ingress := [tPlp] }) (fun u => decide ((u.sub 1016).ingress = [])) = true ∧
    tTo (.e2ePacketReceive 1016) (tSub { tUp .endpoint with e2eIn := [tCtrl] }) (fun u => decide ((u.sub 1016).e2eIn = [])) = true ∧
    tTo (.e2eAckTimer 3 256 7 3750) { tPart with fab := { tPart.fab with ctxs := [tAckCtx] } } (fun u => u.fab.ctxs.all (fun c => c.unack = 0 && c.firstUnack = none)) = true := by decide +kernel
/-! ### Ethernet and modules -/

/-- A frame of 60 bytes with these bytes from offset 12 on, and a sub-port that takes frames to every address. -/
def tBody (l : List Byte) : List Byte := padTo 60 0 (List.replicate 12 0 ++ l)

def tFrame (l : List Byte) : Frame := ⟨withCrc (tBody l), 0, 0⟩

def tEth (promisc : Bool) : SubPort := { cfg := { tCfg .ethernet with promisc := promisc, mac := 1, onchipLimit := 16 }, state := .up }

def tSteered : State :=
  { tSub (tEth true) with grid := { tiles := [(0, { state := .ready, part := some 63 })] }, fab := { (tSub (tEth true)).fab with steer := [(1023, { words := tSteer })] } }

/-- A frame of an unpausable sub-port that is late from timebase 100 on. -/
def tUnp : UnpFrame := { msg := tMail, deadline := 100, cells := 16, part := 63 }

/-- A tile's request to send a frame, with an LPORT in USER word 0 that does not exist. -/
def tEgress : MeshMsg := { header := [BitVec.ofNat 64 (2 ^ 21 + put 34 28 1 + put 40 35 63)], payload := List.replicate 64 0 }

theorem witness_EthernetFrames : ((tSub (tEth false)).sub 1016).cfg.mode = .ethernet ∧ ((tSub (tEth false)).sub 1016).state = .up ∧ frameBody (tFrame [0x88, 0xB5]) = some (tBody [0x88, 0xB5]) ∧ frameBody ⟨tBody [0x88, 0xB5], 0, 0⟩ = none ∧
    frameBody (tFrame [0x88, 0x08, 0, 1, 0xFF, 0xFF]) = some (tBody [0x88, 0x08, 0, 1, 0xFF, 0xFF]) ∧ macAccepts (tEth false).cfg (tBody [0x88, 0xB5]) = false ∧
    macAccepts (tEth true).cfg (tBody [0x88, 0xB5]) = true ∧ bit (({ words := tSteer } : Steer).word 0) 50 = true ∧ (tBody [0x88, 0xB5]).length ≤ 4096 ∧
    (tEth true).cfg.unpausable = false ∧
    tSteered.fab.steer.keep (fun k e => k / 256 = lportDie 1016 && e.hits (lportPhys 1016) (tBody [0x88, 0xB5]) (parseFrame (tBody [0x88, 0xB5]))) = (1023, { words := tSteer }) :: [] ∧
    (beAt (tBody [0x88, 0x08, 0, 1, 0xFF, 0xFF]) 12 2 = 0x8808 ∧ beAt (tBody [0x88, 0x08, 0, 1, 0xFF, 0xFF]) 14 2 = 0x0001 ∧
      beAt (tBody [0x88, 0x08, 0, 1, 0xFF, 0xFF]) 16 2 = 65535) ∧
    ({ tEth true with ctr := { paused := [(7, 9)] } } : SubPort).ctr.paused.look 7 = some 9 ∧ ({ tEth true with ring := [tUnp] } : SubPort).unpRoom tUnp = true ∧
    tUnp.late ((tSub { tEth true with unp := [tUnp] }).at 9).timebase = false ∧ tUnp.late ((tSub { tEth true with unp := [tUnp] }).at 100).timebase = true ∧
    takeFirst (fun (m : MeshMsg) => !m.srcGw && m.destGw && m.dest = 0 && coord m.src = 0) [tEgress] = some (tEgress, []) := by decide +kernel

theorem test_EthernetFrames : tTo (.ethFrameReceive 1016 9 (tFrame [0x88, 0xB5])) (tSub (tEth false)) (fun u => decide ((u.sub 1016).drops = [(2, 1)]) && u.grid = tPart.grid) = true ∧
    tTo (.ethFrameReceive 1016 9 (tFrame [0x88, 0xB5])) tSteered (fun u => u.grid.mesh.map (fun m => (m.dest, m.part, m.srcGw)) = [(0, 63, true)] && decide (u.fab.steer = [(1023, { words := tSteer, seq := 1 })])) = true ∧
    tTo (.pauseReceive 1016 9 (tFrame [0x88, 0x08, 0, 1, 0xFF, 0xFF])) (tSub (tEth true)) (fun u => (List.range 8).all (fun c => decide ((u.sub 1016).ctr.paused.look c = some (9 + pauseCc 65535 (tPart.subRate 1016))))) = true ∧
    tTo (.pauseTimerExpiry 1016 7 9) (tSub { tEth true with ctr := { paused := [(7, 9)] } }) (fun u => decide ((u.sub 1016).ctr.paused = [])) = true ∧
    tTo (.spillRingMove 1016) (tSub { tEth true with ring := [tUnp] }) (fun u => decide ((u.sub 1016).ring = []) && (u.sub 1016).unp.length = 1) = true ∧
    tTo (.unpFrameInject 1016 9) (tSub { tEth true with unp := [tUnp] }) (fun u => decide ((u.sub 1016).unp = [] ∧ u.grid.mesh = [tMail])) = true ∧
    tTo (.ingressDeadlineShed 1016 100) (tSub { tEth true with unp := [tUnp] }) (fun u => decide ((u.sub 1016).unp = [] ∧ (u.sub 1016).sheds = [0, 0, 1])) = true := by decide +kernel

theorem witness_ModuleManagement : 127 < 128 ∧ ((tCage { present := true, pages := [(0, tPage)] }).port 127).cmis.present = true ∧
    ((tCage { present := true, pages := [(0, tPage)] }).port 127).cmis.held = false ∧ ((tCage { present := true, pages := [(0, tPage)] }).port 127).cmis.polled + 1875000000 ≤ 1875000000 := by decide

theorem test_ModuleManagement : tTo (.cmisPresence 127 true true [(1, 2, [7])] 9) (tCage {}) (fun u => decide ((u.port 127).cmis = { present := true, pages := [(513, padTo 256 0 [7])], polled := 9 })) = true ∧
    tTo (.cmisPoll 127 true [1] [2] 1875000000) (tCage { present := true, pages := [(0, tPage)] }) (fun u => (u.port 127).cmis.polled = 1875000000 &&
      decide ((u.port 127).cmis.pages.look 0x10 = some (padTo 128 0 tPage ++ padTo 128 0 [1]))) = true ∧
    tTo (.cmisInterrupt 127 false [] [] 9) (tCage { present := true, pages := [(0, tPage)] }) (fun u => (u.port 127).cmis.held) = true := by decide +kernel
/-! ### Waypoint and Traverse -/

/-- A switch port, and host memory of the PF that holds one alias entry of depth 5. -/
def tSwitch : State :=
  { tSub { cfg := { tCfg .switch with part := none }, state := .up } with
    host := [(0, Memory.writeN [] 64 (leBytes 8 (7 + put 42 40 5 + 2 ^ 43) ++ leBytes 8 9))] }

theorem witness_RoutingCommands : (0xFEFFFFFFFF < 2 ^ 40 ∧ 0xFEFFFFFFFF / 2 ^ 32 ≠ 0xFF) ∧ (∀ l ∈ [1016], tSwitch.isSwitch l = true) ∧ tSwitch.localOk (.cfl 3 15) = true ∧
    (1023 + 1 ≤ 1024 ∧ tSwitch.fab.active < 2 ∧ (∀ i < 1, aliasOf ((tSwitch.hostMem tk.src.fnIdx).word (64 + 16 * i)) ((tSwitch.hostMem tk.src.fnIdx).word (64 + 16 * i + 8)) =
        some ⟨7, 5, true, 9⟩) ∧
      aliasClash ((tSwitch.fab.alias_.put 2047 ⟨7, 5, true, 9⟩).keep (fun i _ => i / 1024 = 1)) = false ∧ tSwitch.fab.aliasNew = none ∧ tSwitch.fab.swapDue = false) ∧
    ((∃ l, McTarget.port 1016 = .port l ∧ (tSwitch.isSwitch l = true ∨ tSwitch.isEndpoint l = true)) ∧ (∃ p, McTarget.loc 255 = .loc p ∧ p < 256)) ∧
    (tSwitch.cellSum 3 poolOut + (tSwitch.chipShares 3 (8 * 31 + 7) + 512) ≤ cellBufferCells ∧ tSwitch.spillShares 3 (8 * 31 + 7) + 4096 ≤ (tSwitch.trvDie 3).spill ∧
      (tSwitch.pool 3 poolOut).held = []) ∧
    ((tSwitch.setTrv 3 { tSwitch.trvDie 3 with spill := 4194304, flush := 1023 }).spillShares 3 256 ≤ 4194304 ∧ (tSwitch.pool 3 poolSpill).held = []) ∧
    ({ tPart with fab := { tPart.fab with ctxs := [tAckCtx] } } : State).fab.ctxs.find? (fun c => c.die = 3 && c.src = 256 && c.vc = 7) = some tAckCtx :=
  ⟨by decide, by decide, by decide, by decide +kernel, ⟨⟨1016, rfl, by decide⟩, ⟨255, rfl, by decide⟩⟩, by decide +kernel, by decide +kernel, by decide⟩

theorem test_RoutingCommands : tTo (.routeSetPortset tk (.down 255) [1016]) tSwitch (fun u => decide (u.fab.sets.look 255 = some [1016])) = true ∧
    tTo (.routeLocalSet tk 255 (.cfl 3 15)) tSwitch (fun u => tFol u (tSwitch.setFab { tSwitch.fab with table := [(255, .cfl 3 15)] }) && tAns u 0x0403 .ok []) = true ∧
    tTo (.aliasLoad tk 1023 64 1) tSwitch (fun u => tBusy u 0x0404 [0] && decide (u.fab.aliasNew = some [(2047, ⟨7, 5, true, 9⟩)]) && decide (u.fab.alias_ = [])) = true ∧
    tTo (.aliasSwap tk) tSwitch (fun u => u.fab.active = 1 && u.fab.swaps = 1) = true ∧
    tTo (.aliasSwap tk) (tSwitch.setFab { tSwitch.fab with aliasNew := some [] }) (fun u => tBusy u 0x0405 [0] && u.fab.active = 0 && u.fab.swapDue) = true ∧
    tTo (.mcastSet tk 4095 [.port 1016, .loc 255]) tSwitch (fun u => tFol u (tSwitch.setFab { tSwitch.fab with mcast := [(4095, [.port 1016, .loc 255])] }) && tAns u 0x0406 .ok []) = true ∧
    tTo (.reorderCfg tk 1000) tSwitch (fun u => tFol u (tSwitch.setFab { tSwitch.fab with timeout := 1000 }) && tAns u 0x0407 .ok []) = true ∧
    tTo (.trvQueueCfg tk (.queue 3 31 7 4095 512 4096)) tSwitch (fun u => tAns u 0x0408 .ok [512, 4096] && (u.outQ 1023).mark = 4095 && (u.outQ 1023).spill = some 4096) = true ∧
    tTo (.trvQueueCfg tk (.die 3 0 1023)) tSwitch (fun u => tAns u 0x0408 .ok [] && (u.trvDie 3).spill = 0 && (u.trvDie 3).flush = 1023) = true ∧
    tTo (.flowQuery tk 3 256 7) { tPart with fab := { tPart.fab with ctxs := [tAckCtx] } } (fun u => tAns u 0x0409 .ok [0, 0, 0]) = true ∧
    tTo (.routeQuery tk 5) tSwitch (fun u => u.cmp.inflight.all (fun r => r.stage = .done && r.status = .ok && r.result.length = 4)) = true := by decide +kernel

/-- A packet of one cell for a sub-port, its load, its places on the way. -/
def tLoad : Load := { id := 4, cargo := .plp tPlp, inLine := 63, inPort := none, cls := 7, cells := 1, part := some 63, outs := [.sub 1016], rel := [0] }

def tCell (at_ : Nat) : Cell := ⟨4, 0, 63, 63, false, 7, 0, 0, true, 63, at_, []⟩

def tFab (f : Fabric → Fabric) : State :=
  { tSub { cfg := tCfg .endpoint, state := .up } with fab := f { (tSub { cfg := tCfg .endpoint, state := .up }).fab with loads := [(4, tLoad)], next := 5 } }

def tRoCtx : RoCtx := { die := 3, src := 256, vc := 7, lport := 1016, next := 0, held := [⟨1, 1016, tPlp, []⟩], timer := some 0 }

/-- A control flit for sub-port 1016, which lies on line 63. -/
def tFlit : Flit := { pkt := tCtrl, out := .sub 1016 }

def tOwed : McOwed := { load := 4, src := 256, reqId := 9, job := 3, cls := 7, inLine := 63, left := 0, done := [(1016, some 0)] }

theorem witness_TraverseSlots : (takeFirst (fun (e : Nat × Nat) => e.1 = 3) (tFab (fun f => { f with toRo := [(3, 4)] })).fab.toRo = some ((3, 4), []) ∧
      (tFab (fun f => { f with toRo := [(3, 4)] })).load 4 = some tLoad ∧ tLoad.pkt = some tPlp ∧ tLoad.outs = [.sub 1016]) ∧
    ((tFab (fun f => { f with ctxs := [tRoCtx] })).roCtx 3 256 7 = some tRoCtx ∧ tRoCtx.timer = some 0 ∧ tRoCtx.lowest = some ⟨1, 1016, tPlp, []⟩ ∧ 0 + (tFab id).fab.timeout ≤ 15000 ∧ tPlp.ulp = ulpPlp) ∧
    ((tFab (fun f => { f with ctxs := [{ tRoCtx with held := [] }] })).roCtx 3 256 7 = some { tRoCtx with held := [] } ∧ 0 + 32768 ≤ 32768) ∧
    ((tFab (fun f => { f with fq := [(520 * 63 + 511, [⟨4, 0, 1, 0⟩])] })).fab.fqFree.lookD 63 0 ≤ 200 ∧
      ((tFab (fun f => { f with fq := [(520 * 63 + 511, [⟨4, 0, 1, 0⟩])] })).atSlot 200).fqChoice 63 = some (511, [⟨4, 0, 1, 0⟩])) ∧
    ((tFab (fun f => { f with cells := [tCell 0] })).atSlot 62).stage2Cell 63 ((62 + 64 - 63) % 64) 62 = some (tCell 0) ∧
    (128 % 64 = 0 ∧ (tFab (fun f => { f with ctrlSrc := [(191, [tFlit])] })).fab.ring.look (3 * 63 + 2) = none ∧
      (tFab (fun f => { f with ctrlSrc := [(191, [tFlit])] })).fab.ctrlSrc.lookD (3 * 63 + 2) [] = tFlit :: []) ∧
    ((tFab (fun f => { f with ring := [(0, tFlit)] })).fab.ring.look (3 * ((63 + 64 - 63 % 64) % 64)) = some tFlit ∧ tFlit.out.line = 63 ∧
      (tFab (fun f => { f with ring := [(0, tFlit)] })).fab.ring.look 1 = none ∧ (tFab (fun f => { f with ring := [(0, tFlit)] })).fab.ring.look 2 = none ∧
      ((tFab (fun f => { f with ring := [(0, tFlit)] })).atSlot 63).flitRoom tFlit = true) ∧
    (tFab (fun f => { f with owed := [tOwed] })).fab.owed.find? (fun o => o.load = 4 && o.left = 0) = some tOwed := by decide +kernel

theorem test_TraverseSlots : tTo (.reorderArrival 3) (tFab (fun f => { f with toRo := [(3, 4)] })) (fun u => decide (u.fab.toRo = []) && u.fab.ctxs.length = 1) = true ∧
    tTo (.reorderTimeout 3 256 7 15000) (tFab (fun f => { f with ctxs := [tRoCtx] })) (fun u => nth u.fab.wpt 0 0 = 1) = true ∧
    tTo (.reorderCtxRetire 3 256 7 32768) (tFab (fun f => { f with ctxs := [{ tRoCtx with held := [] }] })) (fun u => u.fab.ctxs.length = 0) = true ∧
    tTo (.frameLaunch 63 200) (tFab (fun f => { f with fq := [(520 * 63 + 511, [⟨4, 0, 1, 0⟩])] })) (fun u => decide (u.fab.cells.map (fun c => (c.inLine, c.outLine, c.cls, c.inter, c.pos)) = [(63, 63, 7, 7, 0)]) &&
      u.fab.fqFree.lookD 63 0 = 201 && u.fab.fqFrame.lookD (520 * 63 + 511) 0 = 1) = true ∧
    tTo (.stage2Slot 63 62) (tFab (fun f => { f with cells := [tCell 0] })) (fun u => decide (u.fab.cells = [] ∧ u.fab.arrived = [tCell 66])) = true ∧
    tTo (.cellRelease 63 66) (tFab (fun f => { f with arrived := [tCell 66] })) (fun u => decide (u.fab.arrived = [] ∧ u.fab.toRo = [(3, 4)])) = true ∧
    tTo (.expressRingInject 63 128) (tFab (fun f => { f with ctrlSrc := [(191, [tFlit])] })) (fun u => decide (u.fab.ring = [(191, tFlit)] ∧ u.fab.ctrlSrc = [])) = true ∧
    tTo (.expressRingDeliver 63 63) (tFab (fun f => { f with ring := [(0, tFlit)] })) (fun u => decide (u.fab.ring = [] ∧ (u.sub 1016).ctrlQ = [tCtrl])) = true ∧
    tTo (.mcastCompletion 4) (tFab (fun f => { f with owed := [tOwed] })) (fun u => u.fab.owed.length = 0) = true := by decide +kernel
/-! ### Contour and Sheet -/

/-- A sub-port whose class 7 has a packet at its head. -/
def tQueued (c : Contour) : State :=
  { tSub { cfg := tCfg .switch, state := .up, ctr := c } with
    fab := { (tSub { cfg := tCfg .switch, state := .up, ctr := c }).fab with loads := [(4, tLoad)], outq := [(1023, { cells := [{ load := 4, idx := 0, lport := 1016, tgt := 0 }] })] } }

/-- The same with an Ethernet frame whose deadline, timebase 1, is past. -/
def tLate : State := { tQueued {} with fab := { (tQueued {}).fab with loads := [(4, { tLoad with cargo := .eth (List.replicate 64 0) 1 none })] } }

/-- Class 7 is open for one cycle in a hundred thousand. -/
def tGates : GateList := ⟨[⟨1, 0x80⟩, ⟨99999, 0⟩], true⟩

/-- Host memory of the PF with the same list. -/
def tGateHost : State :=
  { tSub { cfg := tCfg .switch } with host := [(0, Memory.writeN [] 64 (leBytes 8 (100000 + put 39 32 0xFF)))] }

theorem witness_ContourCommands : tGateHost.subExists 1016 = true ∧ (tGateHost.sub 1016).state ≠ .fenced ∧ ((tSub { cfg := tCfg .switch, state := .fenced }).sub 1016).state = .fenced ∧ quantumFloor (tGateHost.sub 1016).cfg.mode ≤ 68 ∧
    ((leWords 1 (tGateHost.hostRead tk.src.fnIdx 64 8)).map gateOf).any Option.isNone = false ∧
    ((leWords 1 (tGateHost.hostRead tk.src.fnIdx 64 8)).map gateOf).filterMap id = [⟨100000, 0xFF⟩] ∧ (GateList.mk [⟨100000, 0xFF⟩] true).cycle ≤ 1875000000 ∧
    gateTooShort [⟨100000, 0xFF⟩] (tGateHost.txCc 1016 (maxCost (tGateHost.sub 1016).cfg.mode)) = false ∧
    ({ tUp .switch with resend := [(5, [1])] } : SubPort).resend = (5, [1]) :: [] ∧ ((tSub {}).at 120).timebase % 120 = 0 ∧
    ((tQueued { gates := tGates }).headLoad 1016 7 = some tLoad ∧ (∀ d, d < 7 → (tQueued { gates := tGates }).headLoad 1016 d = none) ∧
      (((tQueued { gates := tGates }).sub 1016).ctr.gates.openMask 0).testBit 7 = true ∧ ((tQueued { gates := tGates }).at 0).gateFit 1016 7 tLoad = false ∧
      ((tQueued { gates := tGates }).sub 1016).ctr.held.look 7 ≠ some 4) ∧
    (((tSub { cfg := tCfg .switch, ctr := { pending := some tGates } }).sub 1016).ctr.pending = some tGates ∧ 0 < 100000 ∧
      ((tSub { cfg := tCfg .switch, ctr := { pending := some tGates } }).at 100000).timebase % max 1 tGates.cycle = 0) := by decide +kernel

/-- The lists of all other classes are empty there. -/
theorem witness_ContourEvents_idle : ((tSub { tUp .switch with state := .fenced }).sub 1016).state = .fenced ∧
    ((tSub { ctr := {} }).sub 1016).ctr.refilled ≠ some 120 ∧ tLate.headLoad 1016 7 = some { tLoad with cargo := .eth (List.replicate 64 0) 1 none } ∧
    1 < (tLate.at 9).timebase + tLate.txCc 1016 (tLate.cost 1016 { tLoad with cargo := .eth (List.replicate 64 0) 1 none }) ∧ ((tLate.sub 1016).ctr.shedAt.look 7 ≠ some 9) ∧
    (∀ d, d < 8 → d ≠ 7 → tLate.headLoad 1016 d = none) := by decide +kernel

theorem witness_ContourCommands_heads (c : Contour) (d : Nat) : (d ≠ 7 → (tQueued c).headLoad 1016 d = none) ∧ (tSub { cfg := tCfg .switch, ctr := c }).headLoad 1016 d = none := by
  refine ⟨fun h => ?_, rfl⟩
  have : ¬1023 = 1016 + d := by omega
  have empty : (tQueued c).listCells 1016 d = [] := by
    simp [State.listCells, State.outQ, SMap.lookD, SMap.look, outKey, lportPhys, tQueued, this]
  simp only [State.headLoad, State.headCell, empty, List.find?_nil, Option.bind_none]

theorem test_ContourCommands : tTo (.ctrClassCfg tk 1016 7 68) (tSub { cfg := tCfg .switch, state := .fenced }) (fun u => tAns u 0x040B .portState []) = true ∧
    tTo (.ctrClassCfg tk 1016 7 68) tGateHost (fun u => (u.sub 1016).ctr.quantum = [145, 145, 145, 145, 145, 145, 145, 68] && tAns u 0x040B .ok []) = true ∧
    tTo (.ctrShaperSet tk 1016 .port true 1600000 (2 ^ 24)) tGateHost (fun u => decide (((u.sub 1016).ctr.shaper 8).pending = some (1600000, 2 ^ 24, true)) && tAns u 0x040C .ok []) = true ∧
    tTo (.ctrGateSet tk 1016 true 1 64) tGateHost (fun u => decide ((u.sub 1016).ctr.pending = some ⟨[⟨100000, 0xFF⟩], true⟩) && tAns u 0x040D .ok []) = true ∧
    tTo (.ctrGateRead tk 1016 0) (tSub { cfg := tCfg .switch, ctr := { gates := tGates } }) (fun u => decide (u.hostMem 0 = Memory.writeN [] 0 (gateBytes tGates)) && tAns u 0x040E .ok []) = true ∧
    tTo (.txUnitSelect 1016 9) (tSub { tUp .switch with resend := [(5, [1])] }) (fun u => decide ((u.sub 1016).resend = []) && (u.sub 1016).sinceCtl = 1 && decide (u.out = [.unit 1016 [1]])) = true ∧
    tTo (.shaperRefill 1016 120) (tSub { ctr := { shapers := List.replicate 9 { rate := 5, burst := 1, enable := true, tokens := 122 } } }) (fun u => ((u.sub 1016).ctr.shaper 8).tokens = 125 && (u.sub 1016).ctr.refilled = some 120) = true ∧
    tTo (.txUnitSelect 1016 9) (tSub { tUp .switch with state := .fenced }) (fun u => decide (u.out.map (fun o => match o with
      | .unit l bs => (l, bs.take 4)
      | _ => (0, [])) = [(1016, [0, 0, 0, 0])]) && (u.sub 1016).replay.length = 2) = true ∧
    tTo (.egressDeadlineShed 1016 9) tLate (fun u => (u.sub 1016).ctr.shedOut = 1 && (u.sub 1016).ctr.shedAt.look 7 = some 9) = true ∧
    tTo (.gateEntryChange 1016 0) (tQueued { gates := tGates }) (fun u => (u.sub 1016).ctr.gateHold = 1 && decide ((u.sub 1016).ctr.held = [(7, 4)])) = true ∧
    tTo (.gateListStart 1016 100000) (tSub { cfg := tCfg .switch, ctr := { pending := some tGates } }) (fun u => (u.sub 1016).ctr.gates = tGates && (u.sub 1016).ctr.pending = none) = true := by decide +kernel

/-- A sheet whose member 15 is this device: HOME_P 252 to 255 are SHEET targets. -/
def tMembers : List SheetMember := List.replicate 15 .none ++ [.pq 1 [252, 253, 254, 255]]

def tSheetFab : State :=
  { tPart with fab := { tPart.fab with pfx := some (1, 5), table := [(252, .sheet 0 0), (253, .sheet 1 0), (254, .sheet 2 0), (255, .sheet 3 0)] } }

def tSheet (f : Sheet → Sheet) : State := { tSheetFab with sht := f { tPart.sht with members := tMembers, self := some 15, part := 63 } }

/-- A window of every access to the first 128 bytes of member 15, and its four words. -/
def tWindow : Window := ⟨true, false, true, true, true, true, 15, 0, 0, 128, 0⟩

def tWindowWords : List Byte := leBytes 8 (0x3D + put 9 6 15) ++ leBytes 8 0 ++ leBytes 8 128 ++ leBytes 8 0

def tWindowHost : State := { tSheet id with host := [(0, Memory.writeN [] 64 tWindowWords)] }

theorem witness_SheetCommands : tMembers.length = 16 ∧ nth tMembers 15 .none = .pq 1 [252, 253, 254, 255] ∧
    ((∃ d row, tSheetFab.fab.table.lookD 252 .none = .sheet d row) ∧ (∃ d row, tSheetFab.fab.table.lookD 253 .none = .sheet d row) ∧
      (∃ d row, tSheetFab.fab.table.lookD 254 .none = .sheet d row) ∧ (∃ d row, tSheetFab.fab.table.lookD 255 .none = .sheet d row)) ∧
    (tSheet id).partExists 63 = true ∧ (tWindowHost.winPart (.part 63) = some 63 ∧ tKGaz.part = some 63 ∧ 63 + 1 ≤ 64 ∧
      windowOf ((List.range 4).map (fun j => (tWindowHost.hostMem tKGaz.src.fnIdx).word (64 + 32 * 0 + 8 * j))) = some tWindow) ∧ (tSheet id).sht.ops = [] :=
  ⟨rfl, rfl, ⟨⟨0, 0, rfl⟩, ⟨1, 0, rfl⟩, ⟨2, 0, rfl⟩, ⟨3, 0, rfl⟩⟩, by decide +kernel⟩

/-- An atomic addition of element 0 as a tile sends it, a record with a mask of no bytes, and one of an operation in flight. -/
def tAddWords (mask : Nat) : List Word := [wd (put 51 48 15 + put 55 52 opAdd), wd mask, wd 3, 0]

def tSheetMail (mask : Nat) : MeshMsg :=
  { header := padTo 8 0 (wd (put 9 0 1 + 2 ^ 21 + put 34 28 1 + put 40 35 63) :: tAddWords mask), payload := List.replicate 64 1 }

def tAsked (mask : Nat) (f : Sheet → Sheet) : State := { tSheet f with grid := { tPart.grid with mesh := [tSheetMail mask] } }

def tOpened (x : Sheet) : Sheet := { x with windows := [(64 * 63, tWindow)] }

/-- A load or a store with RELEASE, sent or not. -/
def tOp (op : Nat) (release sent : Bool) (resends : Nat) : ShtOp :=
  { id := 2, source := .tile 0, die := 0, part := some 63, member := 15, words := [wd (put 51 48 15 + put 55 52 op + flag 61 release), 15, 3, 0], data := [], dest := 256 + 252, cls := 7,
    sent := sent, resends := resends, wire := 9 }

/-- A request that arrives at its home, and the completion of one. -/
def tRequest : Packet := { isData := true, vc := 7, dest := 256 + 252, ulp := ulpSheet, hops := 32, flit := [0, 0, 64, 0, wd (put 51 48 15 + put 55 52 opAdd), 15, 3, 2 ^ 32], payload := List.replicate 64 1 }

def tCompletion : Packet := dataPacket 7 256 ulpCompletion (256 + 252) 3 0 9 0 [wd (put 47 32 3)] (List.replicate 64 5)

def tHome (p : Packet) (f : Sheet → Sheet) : State := { tSheet f with fab := { tSheetFab.fab with inbox := [(0, .sheet 0 0, p)] } }

theorem witness_SheetTraffic : (∀ mask ∈ [0, 15], takeFirst (fun (m : MeshMsg) => !m.srcGw && m.destGw && m.dest = 1 && coord m.src = 0) [tSheetMail mask] = some (tSheetMail mask, [])) ∧
    (srec ((tSheet id).tileOp 0 (tSheetMail 0)).words).invalid = true ∧ (srec ((tSheet id).tileOp 0 (tSheetMail 15)).words).invalid = false ∧ tileLenBad (tSheetMail 15) = false ∧
    (tSheet id).member_ (srec (tAddWords 15)).member ≠ .none ∧ (tSheet id).winOk (.part (tSheetMail 15).part) (srec (tAddWords 15)) = false ∧
    (tSheet tOpened).winOk (.part (tSheetMail 15).part) (srec (tAddWords 15)) = true ∧ (tSheet (fun x => { tOpened x with lost := [15] })).sht.lost.contains 15 = true ∧
    (tSheet tOpened).sht.lost.contains 15 = false ∧ (tSheet tOpened).shtRoom 0 ((tSheet tOpened).shtSrc ((tSheet tOpened).tileOp 0 (tSheetMail 15))) ((tSheet tOpened).tileOp 0 (tSheetMail 15)).dest false = true ∧
    (∀ b, [{ tOp opStore true false 0 with spoiled := b }].find? (fun o => o.id = 2 && !o.sent && (srec o.words).release && o.after.isEmpty) = some { tOp opStore true false 0 with spoiled := b }) ∧
    (((tHome tRequest id).shtInbox 0 (fun p => !(p.isData && p.ulp = ulpCompletion))).map (·.1) = some tRequest ∧ tRequest.isData = true ∧ tRequest.ulp = ulpSheet ∧ (pktRec tRequest).job = 3 ∧
      (tHome tRequest id).homeTakes 0 = true ∧ ((tHome tRequest id).platTake 0 poolSheet { owner := 63, part := some 63 }).isSome = true) ∧
    ((tSheet (fun x => { x with queue := [(0, [{ id := 1, pkt := tRequest }])] })).homeQueue 0 = { id := 1, pkt := tRequest } :: [] ∧ (pktRec tRequest).unord = true) ∧
    (((tHome tCompletion (fun x => { x with ops := [tOp opLoad false true 0] })).shtInbox 0 (fun p => p.isData && p.ulp = ulpCompletion)).map (·.1) = some tCompletion ∧
      [tOp opLoad false true 0].find? (fun o => o.die = 0 && o.answered tCompletion) = some (tOp opLoad false true 0) ∧ (tCompletion.word 4).toNat % 2 ^ 11 = 0 ∧ (tHome tCompletion (fun x => { x with ops := [tOp opLoad false true 0] })).sht.records = [] ∧
      (srec (tOp opLoad false true 0).words).returns = true) ∧
    (∀ op ∈ [opLoad, opAdd], [tOp op false true 6].find? (fun o => o.id = 2 && o.sent && o.sentAt + 2 ^ (tSheet id).sht.rto ≤ 65536) = some (tOp op false true 6)) ∧
    (srec (tOp opAdd false true 6).words).ordered = false ∧ (srec (tOp opLoad false true 6).words).ordered = true ∧ (srec (tOp opLoad false true 0).words).ordered = true := by decide +kernel

theorem test_SheetCommands : tTo (.shtSheetSet tk tMembers (some 15) (List.replicate 64 7) 31 8191) tSheetFab (fun u => u.sht.members = tMembers && u.sht.self = some 15 && u.sht.rto = 31 &&
      u.sht.mark = 8191 && u.sht.classes.lookD 63 0 = 7 && tAns u 0x0801 .ok []) = true ∧
    tTo (.shtExport tk 63 64 0) (tSheet id) (fun u => tFol u (tSheet (fun x => { x with part := 63, base := 64, size := 0 })) && tAns u 0x0802 .ok []) = true ∧
    tTo (.shtWindowSet tKGaz (.part 63) 63 64 1) tWindowHost (fun u => decide (u.sht.windows = [(4095, tWindow)]) && tAns u 0x0803 .ok []) = true ∧
    tTo (.shtJobTeardown tk 65535) (tSheet id) (fun u => tAns u 0x0804 .ok []) = true ∧
    tTo (.shtStatus tk (.part 63)) (tSheet id) (fun u => tFol u (tSheet id) && tAns u 0x0805 .ok [0, 0, 0, 0, 0, 0, 0]) = true := by decide +kernel

theorem test_SheetTraffic : tTo (.sheetRequest 0) (tAsked 0 id) (fun u => u.grid.mesh.map (fun m => bits (nth m.header 1 0) 7 0) = [Status.msgInvalid.code]) = true ∧
    tTo (.sheetRequest 0) (tAsked 15 id) (fun u => u.grid.mesh.map (fun m => bits (nth m.header 1 0) 7 0) = [Status.accessDenied.code] && nth u.sht.counts shtDenied 0 = 1) = true ∧
    tTo (.sheetRequest 0) (tAsked 15 (fun x => { tOpened x with lost := [15] })) (fun u => u.grid.mesh.map (fun m => bits (nth m.header 1 0) 7 0) = [Status.targetLost.code]) = true ∧
    tTo (.sheetRequest 0) (tAsked 15 tOpened) (fun u => decide (u.grid.mesh = []) && u.sht.ops.map (·.member) = [15]) = true ∧
    tTo (.releaseStoreSend 2) (tSheet (fun x => { x with ops := [{ tOp opStore true false 0 with spoiled := true }] })) (fun u => decide (u.sht.ops = []) && u.grid.mesh.map (fun m => bits (nth m.header 1 0) 7 0) = [Status.aborted.code]) = true ∧
    tTo (.sheetHomeReceive 0) (tHome tRequest id) (fun u => decide (u.fab.inbox = []) && (u.homeQueue 0).length = 1) = true ∧
    tTo (.sheetCompletionReceive 0) (tHome tCompletion (fun x => { x with ops := [tOp opLoad false true 0] })) (fun u => decide (u.sht.ops = []) && u.grid.mesh.map (fun m => m.payload) = [List.replicate 64 5]) = true ∧
    tTo (.sheetRtoExpiry 2 65536) (tSheet (fun x => { x with ops := [tOp opAdd false true 6] })) (fun u => decide (u.sht.ops = []) && u.grid.mesh.map (fun m => bits (nth m.header 1 0) 7 0) = [Status.timeout.code]) = true ∧
    tTo (.sheetRtoExpiry 2 65536) (tSheet (fun x => { x with ops := [tOp opLoad false true 6] })) (fun u => u.sht.lost = [15] && decide (u.sht.ops = [])) = true ∧
    tTo (.sheetRtoExpiry 2 65536) (tSheet (fun x => { x with ops := [tOp opLoad false true 0] })) (fun u => u.sht.ops.map (·.resends) = [1] && nth u.sht.counts shtRetx 0 = 1) = true := by decide +kernel
/-! ### Stacked memory and the far tier -/

/-- A state with the last channel in a state, and stacked memory so changed. -/
def tStk (c : ChState) (f : Stk → Stk) : State := { tPart with stk := f { tPart.stk with channels := [(767, { state := c })] } }

/-- A read of a row at the last block of the last pseudo-channel. -/
def tRead (stage : MemStage) (pad : Option Nat) : MemReq :=
  { id := 1, user := .gaz 0 3 0 0, write := false, target := .stk 1535 183104 0, len := 32, data := List.replicate 32 7, cls := 0, part := some 63, die := 3, port := 256, queued := true, stage := stage, pad := pad }

def tWordAt : Nat := cellAddr 1535 183104 0

/-- A far port with a device of 1 TiB, in a state. -/
def tFarId : FarId := ⟨1, 2, 3, 4, 2 ^ 40, false⟩

def tFar (st : FarState) (f : FarPort → FarPort) : State := { tPart with far := { tPart.far with ports := [(1, f { state := st, id := some tFarId })] } }

theorem witness_MemoryEvents : ((tStk .untrained id).channel (1535 / 2)).state ≠ .ready ∧
    (((tStk .ready (fun x => { x with reqs := [tRead .out none] })).channel (1535 / 2)).state = .ready ∧ ((tStk .ready id).channel (1535 / 2)).window ≤ 0 ∧ ((tStk .ready id).pch 1535).busy ≤ 0 ∧ ((tStk .ready id).pch 1535).slots = [] ∧ ((tStk .ready id).pch 1535).fixes = [] ∧
      0 < (tStk .ready id).stk.lat ∧ oldestOf ((tStk .ready (fun x => { x with reqs := [tRead .out none] })).eligible 1535) 0 = some (tRead .out none)) ∧
    ((tStk .ready (fun x => { x with reqs := [tRead .served none] })).req 1 = some (tRead .served none) ∧ (tStk .ready id).blockStatus 1535 183104 = .ok ∧ (tRead .served none).badAt = [] ∧ (tRead .served none).softAt = [] ∧
      (pieceWords (cellAddr 1535 183104 0) 32).filter [tWordAt].contains = [tWordAt]) ∧
    ((tStk .ready (fun x => { x with reqs := [tRead (.held .ok) (some 9)] })).req 1 = some (tRead (.held .ok) (some 9)) ∧ 9 ≤ 9 ∧ 8 < 9) ∧
    (1535 < 1536 ∧ ((tStk .ready id).channel (1535 / 2)).state ≠ .untrained ∧ (tStk .ready id).anyDatum = false) ∧
    (∃ s : State, s = { tStk .ready id with dtm := { parts := [(63, { assigned := true, datum := true })] } } ∧ s.anyDatum = true ∧
      (s.at (19 * (1535 % 384))).timebase % 7296 = 19 * (1535 % 384) ∧ (s.at (4096 * 767)).timebase % 2 ^ s.dtm.period = 4096 * 767 % 2 ^ s.dtm.period) ∧
    (767 < 768 ∧ (tStk .ready id).stk.rtThresh < 17) ∧ ((tStk .retraining id).channel 767).state = .retraining ∧ ((tStk .retraining id).channel 767).unscheduled = false ∧
    (∃ s : State, s = { tPart with stk := { tPart.stk with channels := [(767, { state := .retraining, unscheduled := true })] } } ∧ (s.channel 767).state = .retraining ∧
      (s.channel 767).unscheduled = true) ∧
    (23 < 24 ∧ 23 ∉ (tStk .ready id).stk.trained) :=
  ⟨by decide +kernel, by decide +kernel, by decide +kernel, by decide +kernel, by decide +kernel, ⟨_, rfl, by decide +kernel⟩, by decide +kernel, by decide +kernel, by decide +kernel, ⟨_, rfl, by decide +kernel⟩, by decide +kernel⟩

theorem witness_MemoryEvents_far : (((tFar .down id).farPort 1).state = .down ∧ ((tFar .down id).farPort 1).disabled = false ∧ ((tFar .down id).farPort 1).keying = false) ∧
    ((tFar .training id).farPort 1).state = .training ∧ ((tFar .down (fun x => { x with ide := true, keying := true })).farPort 1).keying = true ∧ ((tFar .enumerating id).farPort 1).state = .enumerating ∧
    0 ≤ ((tFar .enumerating id).farPort 1).linkUp + 3750000000 ∧ ((tFar .enumerating id).farPort 1).linkUp + 3750000000 ≤ 3750000000 ∧ ((tFar .ready id).farPort 1).state = .ready ∧
    ({ tRead .served none with target := .far 1 64 } : MemReq).write = false := by decide +kernel

theorem test_MemoryEvents : tTo (.memSlotServe 1535 9) (tStk .ready (fun x => { x with reqs := [tRead .out none] })) (fun u => u.stk.reqs.map (fun r => (r.queued, r.stage)) = [(false, .served)] &&
      (u.pch 1535).slots = [0] && (u.pch 1535).last = 9) = true ∧
    tTo (.memoryResponse 1 9 []) (tStk .ready (fun x => { x with reqs := [tRead .served none] })) (fun u => u.stk.reqs.map (·.stage) = [.complete .ok]) = true ∧
    tTo (.memoryResponse 1 9 []) (tStk .ready (fun x => { x with reqs := [{ tRead .served none with badAt := [tWordAt] }], bad := [tWordAt] })) (fun u => u.stk.reqs.map (·.stage) = [.complete .uncorrectable] && u.stk.uncorr = 1) = true ∧
    tTo (.paddedCompletion 1 9) (tStk .ready (fun x => { x with reqs := [tRead (.held .ok) (some 9)] })) (fun u => u.stk.reqs.map (·.stage) = [.complete .ok]) = true ∧
    tTo (.refresh 1535 9 []) (tStk .ready id) (fun u => (u.pch 1535).scrub = 1) = true ∧
    tTo (.periodicRetrain 767 9) (tStk .ready id) (fun u => (u.channel 767).state = .retraining && (u.channel 767).began = 9 && u.stk.retrains = 1) = true ∧
    tTo (.errorRateRetrain 767 17 9) (tStk .ready id) (fun u => (u.channel 767).unscheduled && u.stk.retrains = 1) = true ∧
    tTo (.retrainEnd 767 9 true) (tStk .retraining id) (fun u => (u.channel 767).state = .ready) = true ∧
    tTo (.adderWriteback 3 16) (tStk .ready (fun x => { x with adders := [(95, [{ addr := tWordAt, touch := 0 }])] })) (fun u => decide (u.stk.adders = [(95, [])])) = true ∧
    tTo (.stackTrained 23) (tStk .untrained id) (fun u => u.stk.trained = [23] && (u.channel 767).state = .ready && (u.channel 736).state = .ready) = true ∧
    tTo (.farDevicePresent 1 tFarId true 4 9) (tFar .down (fun x => { x with id := none })) (fun u => (u.farPort 1) = { state := .training, id := some tFarId, half := true, width := 4, linkUp := 9 }) = true ∧
    (((tFar .training id).farAdvance 1).farPort 1).state = .enumerating ∧ (((tFar .training (fun x => { x with ide := true })).farAdvance 1).farPort 1).keying = true ∧
    tTo (.farPortReady 1 9) (tFar .enumerating id) (fun u => (u.farPort 1).state = .ready) = true ∧
    tTo (.farReadyTimeout 1 3750000000) (tFar .enumerating id) (fun u => (u.farPort 1).state = .failed) = true ∧
    tTo (.farLinkDown 1 9 true) (tFar .ready (fun x => { x with ide := true })) (fun u => (u.farPort 1).state = .down && !(u.farPort 1).ide && (u.farPort 1).id = none && u.far.downs = 1) = true ∧
    tTo (.farResponse 1 false [5] 9) { tFar .ready id with stk := { tPart.stk with reqs := [{ tRead .served none with target := .far 1 64 }] } } (fun u => u.stk.reqs.map (fun r => (r.data, r.stage)) = [(padTo 32 0 [5], .complete .ok)]) = true := by decide +kernel

/-- The last band of a local region of die 3. -/
def tRegionDef : RegionDef := ⟨63, false, false, 3, 2 ^ 47, 183104, 1, false⟩

def tRegioned : State := { tPart with stk := { tPart.stk with regions := [(63, [tRegionDef.toRegion])] } }

/-- Partition 5 had the band of that region last. -/
def tUsed : State := { tPart with stk := { tPart.stk with uses := [⟨5, false, 3, 183104, 1⟩] } }

theorem witness_MemoryCommands : (tPart.partExists tRegionDef.part = true ∧ tRegionDef.outside = false ∧ tPart.regionInvalid tRegionDef = false ∧ tPart.stk.zeroing = [] ∧
      (∀ d, d < 4 → tPart.staleBands tRegionDef d = []) ∧ (pchDie 1535 = 3 ∧ tUsed.staleBands tRegionDef 3 ≠ [] ∧ tUsed.chFailed 1535 = false) ∧ (tPart.stkRegions tRegionDef.owner).length < regionLimit tRegionDef.owner) ∧
    ((tRegioned.stkRegions (RegionOwner.part 63).idx).find? (fun g => g.vbase = 2 ^ 47) = some tRegionDef.toRegion ∧ (tRegioned.enter tk 0x0902).regionBusy (RegionOwner.part 63).idx tRegionDef.toRegion = false) ∧
    ((RegionOwner.part 63).idx < 64 ∧ tPart.partExists (RegionOwner.part 63).idx = true) ∧ tPart.datumBusy = false ∧
    (({ tPart with stk := { tPart.stk with bringup := .margin } } : State).stk.bringup = .margin ∧ 23 < 24 ∧ 2 ^ 31 < 2 ^ 32 ∧ tPart.stackHeld 23 = false) ∧
    (63 < 64 ∧ 4 * blocksPerPch - 1 < 4 * blocksPerPch) ∧ (tFar .ready id).windowBad 63 15 1 4096 (2 ^ 40 - 4096) = false ∧ 15 ≤ 15 ∧
    ((tFar .down id).farPort 1).id = some tFarId ∧ ((tFar .down (fun x => { x with id := none })).farPort 1).id = none ∧ ((tFar .down id).farPort 1).state = .down ∧ ((tFar .down id).farPort 1).keying = false := by decide +kernel

theorem test_MemoryCommands : tTo (.stkRegionSet tk tRegionDef) tPart (fun u => u.stkRegions 63 = [tRegionDef.toRegion] && tAns u 0x0901 .ok []) = true ∧
    tTo (.stkRegionClear tk (.part 63) (2 ^ 47)) tRegioned (fun u => u.stkRegions 63 = [] && tAns u 0x0902 .ok []) = true ∧
    tTo (.stkRegionQuery tk (.part 63)) tRegioned (fun u => tFol u tRegioned && u.cmp.inflight.all (fun r => r.result.length = 3 || r.result.length = 4)) = true ∧
    tTo (.stkRetrainCfg tk 34 255) tPart (fun u => u.dtm.period = 34 && u.stk.rtThresh = 255 && tAns u 0x0904 .ok []) = true ∧
    tTo (.stkPolicySet tk 64 15 15 255) tPart (fun u => u.stk.lat = 64 && u.stk.wBulk = 15 && u.stk.wSpill = 15 && u.stk.ceThresh = 255 && tAns u 0x0905 .ok []) = true ∧
    tTo (.stkBringupSelect tk .margin) tPart (fun u => u.stk.bringup = .margin && tAns u 0x0F20 .ok []) = true ∧
    tTo (.stkMargin tk 23 (2 ^ 31) .supply) { tPart with stk := { tPart.stk with bringup := .margin } } (fun u => u.stk.margins.map (fun m => m.counts.length) = [1344] && tBusy u 0x0F21 [tPart.stk.next] && (u.channel 766).window = 0) = true ∧
    tTo (.farWindowSet tk 63 15 1 4096 (2 ^ 40 - 4096) true) (tFar .ready id) (fun u => decide (u.far.windows = [(1023, ⟨1, 4096, 2 ^ 40 - 4096⟩)]) && tAns u 0x0907 .ok []) = true ∧
    tTo (.farIdentity tk 1) (tFar .ready id) (fun u => tFol u (tFar .ready id) && tAns u 0x0908 .ok [1, 2, 3, 4, 2 ^ 40]) = true ∧
    tTo (.farPortCtrl tk 1 .disable false) (tFar .ready id) (fun u => (u.farPort 1).state = .down && (u.farPort 1).disabled && tAns u 0x0909 .ok []) = true ∧
    tTo (.farPortCtrl tk 1 .enable true) (tFar .down id) (fun u => (u.farPort 1).state = .training && (u.farPort 1).ide && tBusy u 0x0909 [1]) = true := by decide +kernel
/-! ### Pools and banks -/

/-- Pool REORDER of die 3 in a state, with buffer 5 held by owner 63. -/
def tPool (f : Pool → Pool) : State :=
  tPart.setPool 3 3 (f { poolReset 3 with ring := [(0, 5), (6, 16384)], held := [(5, 63)], used := [(63, 1)] })

theorem witness_PlatPools : (((tPool id).pool 3 3).grants 3 { owner := 63, part := some 63 } = true ∧ ((tPool id).pool 3 3).ring.filter (fun e => e.1 < e.2) = (0, 5) :: [(6, 16384)]) ∧
    (((tPool (fun x => { x with ring := [] })).pool 3 3).grants 3 { owner := 63, part := some 63 } = false ∧ ((tPool (fun x => { x with ring := [] })).pool 3 3).heldByLevel 3 { owner := 63, part := some 63 } = false) ∧
    (((tPool (fun x => { x with waiting := [{ owner := 63, part := some 63 }] })).pool 3 3).waiting.find? (((tPool (fun x => { x with waiting := [{ owner := 63, part := some 63 }] })).pool 3 3).grants 3) = some { owner := 63, part := some 63 } ∧
      ((tPool (fun x => { x with waiting := [{ owner := 63, part := some 63 }] })).platTake 3 3 { owner := 63, part := some 63 }).isSome = true) ∧
    (((tPool id).pool 3 3).faulted = false ∧ 5 < ((tPool id).pool 3 3).total ∧ ((tPool id).pool 3 3).held.look 5 ≠ none ∧ ((tPool id).pool 3 3).usedOf 63 ≠ 0) ∧
    ((tPool id).pool 3 3).total ≤ 16384 ∧ ((tPool id).pool 3 3).held.look 0 = none ∧ ((tPool id).pool 3 3).usedOf 0 = 0 ∧
    (3 < 4 ∧ (tPool id).cellSum 3 3 + ((tPool id).pool 3 3).total ≤ 245760 ∧
      ({ (tPool id).pool 3 3 with thresh := [255, 128, 64], dflt := 64 } : Pool).sumReserve - ((tPool id).pool 3 3).sumReserve ≤ ((tPool id).pool 3 3).sharedFree ∧
      ({ (tPool id).pool 3 3 with thresh := [255, 128, 64], dflt := 64 } : Pool).sumReserve ≤ ((tPool id).pool 3 3).total) := by decide +kernel

theorem test_PlatPools : tTo (.platAlloc 3 3 63 (some 63) false) (tPool id) (fun u => (u.pool 3 3).ring = [(1, 5), (6, 16384)] && (u.pool 3 3).held.look 0 = some 63 && (u.pool 3 3).usedOf 63 = 2) = true ∧
    tTo (.platAlloc 3 3 63 (some 63) false) (tPool (fun x => { x with ring := [] })) (fun u => (u.pool 3 3).waiting = [{ owner := 63, part := some 63 }]) = true ∧
    tTo (.platAllocGrant 3 3) (tPool (fun x => { x with waiting := [{ owner := 63, part := some 63 }] })) (fun u => (u.pool 3 3).waiting = [] && (u.pool 3 3).usedOf 63 = 2) = true ∧
    tTo (.platFree 3 3 63 5 false) (tPool id) (fun u => (u.pool 3 3).ring = [(0, 5), (6, 16384), (5, 6)] && decide ((u.pool 3 3).held = [] ∧ (u.pool 3 3).used = [])) = true ∧
    tTo (.platFree 3 3 63 16384 false) (tPool id) (fun u => u.plt.pools = (tPool id).plt.pools && u.plt.doubles = 1 && u.plt.last = ⟨3, 3, 16384, 63, true, false, true⟩) = true ∧
    tTo (.platFree 3 3 63 5 true) (tPool id) (fun u => (u.pool 3 3).faulted) = true ∧
    tTo (.pltPoolSet tk 3 3 16384 255 128 64 64) (tPool id) (fun u => (u.pool 3 3).thresh = [255, 128, 64] && tAns u 0x0220 .ok []) = true ∧
    tTo (.pltPoolQuery tk 3 3 (some 63)) (tPool id) (fun u => tFol u (tPool id) && tAns u 0x0221 .ok ([16384, 16383, ((tPool id).pool 3 3).sharedFree, 0, 0, 64, 1].map wd)) = true := by decide +kernel

/-- A state with tile 1023, and one with the last pinned-row bank of die 3. -/
def tTile9 (x : Tile) : State := { tReady with grid := { tiles := [(1023, x)] } }

def tBankId : Nat := bankId 3 3 63

def tBank (x : Bank) : State := { tReady with atl := { tReady.atl with banks := [(tBankId, x)] } }

theorem witness_AtlasBanks : (((tTile9 { state := .ready }).tile 1023).state = .ready ∧ ((tTile9 { state := .ready }).tile 1023).power = .on) ∧
    (((tTile9 { state := .off, power := .off }).tile 1023).state = .off ∧ ((tTile9 { state := .off, power := .off }).tile 1023).power = .off) ∧
    (((tTile9 tRun).tile 1023).state ≠ .ready ∧ ((tTile9 tRun).tile 1023).state ≠ .halted) ∧
    (bankReal tBankId = true ∧ bankKind tBankId = 3 ∧ tReady.pinTouches tBankId = false ∧ (tReady.bank tBankId).power = .on ∧ (tReady.bank tBankId).phase = .idle ∧
      tReady.bankPower tBankId = .on ∧ bankKind tBankId ≠ 5 ∧ (tReady.bank tBankId).began = none ∧ tReady.atl.enabled = true) ∧ 24 ≤ 24 ∧
    (SMap.rising none (tTile9 {}).grid.tiles = true) ∧ (∀ p ∈ [SoundPhase.save, .test, .restore], ((tBank { phase := p }).bank tBankId).phase = p) ∧ (7 < bankSubs tBankId ∧ 71 < 72) ∧
    ((tBank { phase := .restore, region := 62 }).bank tBankId).region + 1 < bankRegions tBankId ∧ bankRegions tBankId ≤ ((tBank { phase := .restore, region := 63 }).bank tBankId).region + 1 ∧
    (({ tReady with atl := { tReady.atl with wiping := true } } : State).atl.wiping = true ∧ tReady.crt.changing = none ∧ tReady.tampered = false ∧
      ({ tReady with crt := { tReady.crt with latched := 1 } } : State).tampered = true) := by decide +kernel

theorem test_AtlasBanks : tTo (.atlPower tk (.tiles [1023]) .retention) (tTile9 { state := .ready }) (fun u => (u.tile 1023).power = .retention && (u.tile 1023).goal = some (.retention, 16) && tBusy u 0x0E01 [1023]) = true ∧
    tTo (.atlPower tk (.tiles [1023]) .on) (tTile9 { state := .off, power := .off }) (fun u => (u.tile 1023).state = .reset && (u.tile 1023).resetAt = 1088 && tBusy u 0x0E01 [1023]) = true ∧
    tTo (.atlPower tk (.tiles [1023]) .off) (tTile9 tRun) (fun u => tFol u (tTile9 tRun) && tAns u 0x0E01 .tileState []) = true ∧
    tTo (.atlPower tk (.banks [tBankId]) .off) tReady (fun u => (u.bank tBankId).power = .off && (u.bank tBankId).goal = some (.off, 16) && tBusy u 0x0E01 [2 ^ 20 + tBankId]) = true ∧
    tTo (.atlSoundCfg tk false 24) tReady (fun u => !u.atl.enabled && u.atl.interval = 24 && tAns u 0x0F10 .ok []) = true ∧
    tTo (.atlPowerDone 16) (tTile9 { power := .retention, goal := some (.retention, 16) }) (fun u => (u.tile 1023).goal = none && (u.tile 1023).power = .retention) = true ∧
    tTo (.soundingRegionStart tBankId 9) tReady (fun u => (u.bank tBankId).phase = .save && (u.bank tBankId).began = some 9) = true ∧
    tTo (.soundingPhase tBankId [(7, 71)] true 9) (tBank { phase := .test }) (fun u => (u.bank tBankId).phase = .restore && u.atl.fault = ⟨tBankId, 7, 71, true, true⟩ && u.atl.faults = 1) = true ∧
    tTo (.soundingPhase tBankId [] true 9) (tBank { phase := .restore, region := 62 }) (fun u => (u.bank tBankId).phase = .idle && (u.bank tBankId).region = 63) = true ∧
    tTo (.soundingPhase tBankId [] true 9) (tBank { phase := .restore, region := 63 }) (fun u => (u.bank tBankId).region = 0 && (u.bank tBankId).passes = 1 && u.atl.passes = 1) = true ∧
    tTo (.secureWipeDone true) { tReady with atl := { tReady.atl with wiping := true } } (fun u => u.atl = { tReady.atl with verifyOk := true }) = true ∧
    tTo (.secureWipeDone true) { tReady with atl := { tReady.atl with wiping := true }, crt := { tReady.crt with latched := 1, keyGone := true } } (fun u => u.crt.latched = 1 && u.crt.loaded = none) = true := by decide +kernel
/-! ### Compass -/

/-- The same command from a mailbox. -/
def tBox : Kci := { tk with mbox := true }

def tAnsBox (u : State) (opcode : Nat) (st : Status) (result : List Word) : Bool :=
  u.cmp.inflight.any (fun r => r.src = .pf && r.mbox && r.tag = tk.tag && r.opcode = opcode && r.stage = .done && r.status = st && r.result = result)

def tProvisioned : State := { tReady with crt := { tReady.crt with lc := .deployed } }

/-- Partition 63 and tile 1023 in a state, and queue 16383 of that partition. -/
def tParted (x : Tile) : State := { tPart with grid := { tiles := [(1023, x)] }, cmp := { tPart.cmp with dmaq := [(16383, { part := some 63 })] } }

theorem witness_openBox : tReady.Open tBox := ⟨rfl, rfl, fun _ => rfl, fun _ => rfl, rfl, rfl, rfl, rfl⟩

theorem witness_CompassCommands : tReady.cmp.idFault = false ∧ 7936 + 256 ≤ 8192 ∧ 256 < 1 + 256 ∧ (tBox.mbox = true ∧ tBox.src = .pf ∧ tReady.ringInflight .pf = 0) ∧ ringLog (0 : Word) = 0 ∧
    ((tReady.fn 0).held = [] ∧ (tReady.fn 0).lost = 0 ∧ ringLog (0x7010 : Word) = 16 ∧ bits (0x7010 : Word) 11 5 = 0 ∧ bits (1023 : Word) 63 10 = 0) ∧
    (tProvisioned.tampered = false ∧ tProvisioned.crt.lc = .deployed ∧ tProvisioned.partExists 63 = false) ∧ ((tPart.partExists 63 = true) ∧ (tPart.enter tk 0x0204).partBusy 63 = false) ∧
    (1023 < 1024 ∧ ((tParted { state := .ready, lastPart := some 63 }).tile 1023).state = .ready ∧ ((tParted { state := .ready, lastPart := some 63 }).tile 1023).part = none ∧
      ((tParted { state := .ready, lastPart := some 63 }).tile 1023).joining = none ∧ 1023 / 256 ∉ (tParted { state := .ready }).flt.downDies ∧
      ((tParted { state := .ready, lastPart := some 63 }).tile 1023).lastPart = some 63 ∧ ((tParted { state := .ready }).tile 1023).lastPart ≠ some 63 ∧
      (∀ e ∈ (tParted { state := .ready }).cfl.groups, 1023 ∉ e.2.d.tiles)) ∧
    (((tParted { state := .ready, part := some 63 }).tile 1023).part = some 63 ∧ ((tParted { state := .ready, part := some 63 }).tile 1023).state = .ready) ∧
    (16383 < 16384 ∧ 4096 % 4096 = 0 ∧ tKGaz.part = some 63 ∧ ((tParted {}).queue 16383).part = some 63 ∧ ((tParted {}).queue 16383).state ≠ .stopped) ∧
    (List.replicate 32 (0 : Byte)).length = 32 ∧ tReady.cmp.ptp.state = .disabled := by decide +kernel

theorem test_CompassCommands : tTo (.moduleIdentity tk) tReady (fun u => tFol u tReady && tAns u 0x0101 .ok [0x2D303834322D5150, 0x4C, 0x3030303030303041, 0x3030303030303030, 0x3030]) = true ∧
    tTo (.idmemRead tk 0 7936 256 64) { tReady with cmp := { tReady.cmp with eeprom := [(8191, 9)] } } (fun u => (u.hostMem 0).read 319 = 9 && tAns u 0x0102 .ok []) = true ∧
    tTo (.idmemRead tk 1 1 256 64) tReady (fun u => tFol u tReady && tAns u 0x0102 .addrRange []) = true ∧
    tTo (.kciRingsSet tBox 0x7010 0x9010 1023) tReady (fun u => (u.fn 0).rings && (u.fn 0).cmdBase = 0x7000 && (u.fn 0).cmdLog = 16 && (u.fn 0).evtBase = 0x9000 && (u.fn 0).evtVector = 1023 && tAnsBox u 0x0201 .ok []) = true ∧
    tTo (.partCreate tk 63 true) tProvisioned (fun u => u.partMode 63 = { tProvisioned.partMode 63 with assigned := true, train := true } && tAns u 0x0202 .ok []) = true ∧
    tTo (.partModeSet tk 63 true) tPart (fun u => (u.partMode 63).train && tAns u 0x0204 .ok []) = true ∧
    tTo (.partAssign tk 63 true { tiles := [1023], subs := [], firstQ := 0, numQ := 0 }) (tParted { state := .ready, lastPart := some 63 }) (fun u => (u.tile 1023).part = some 63 && tAns u 0x0203 .ok []) = true ∧
    tTo (.partAssign tk 63 true { tiles := [1023], subs := [], firstQ := 0, numQ := 0 }) (tParted { state := .ready }) (fun u => (u.tile 1023).state = .reset && (u.tile 1023).joining = some 63 && tBusy u 0x0203 [1023]) = true ∧
    tTo (.partAssign tk 63 false { tiles := [1023], subs := [], firstQ := 0, numQ := 0 }) (tParted { state := .ready, part := some 63 }) (fun u => (u.tile 1023).part = none && tAns u 0x0203 .ok []) = true ∧
    tTo (.dmaqSet tKGaz 16383 4096 16 15 true) (tParted {}) (fun u => (u.queue 16383).state = .idle && (u.queue 16383).log = 16 && (u.queue 16383).base = 4096 && tAns u 0x0208 .ok []) = true ∧
    tTo (.mgmtPortSet tk 5 64 65535 [7] none) tReady (fun u => u.cmp.mgmt.portSet && u.cmp.mgmt.permitted = [7] && tAns u 0x0230 .ok []) = true ∧
    tTo (.mgmtKeySet tk (List.replicate 32 9)) tReady (fun u => u.cmp.mgmt.key = some (List.replicate 32 9) && tAns u 0x0231 .ok []) = true ∧
    tTo (.ptpSet tk true 127) tReady (fun u => u.cmp.ptp.state = .acquiring && u.cmp.ptp.domain = 127 && tAns u 0x0232 .ok []) = true ∧
    tTo (.timeQuery tk) tReady (fun u => tFol u tReady && tAns u 0x0233 .ok [0, 0, 0]) = true := by decide +kernel
/-- The physical function with its rings set, in a state. -/
def tFn (x : FnState) : State := { tPart with cmp := { tPart.cmp with fns := [(0, x)] } }

def tRinged : FnState := { rings := true, cmdLog := 1, evtLog := 4, evtTail := 2 ^ 17 - 1, evtHead := 2 ^ 17 - 3 }

/-- A command of the mailbox that has its answer. -/
def tDone : InFlight := { src := .pf, mbox := true, tag := 7, opcode := 0x101, part := none, words := [], accepted := 0, stage := .done, result := [5] }

/-- The last queue of partition 63, active, and one that idles. -/
def tDma (st : DmaState) : State := { tPart with cmp := { tPart.cmp with dmaq := [(16383, { part := some 63, state := st, log := 16 })] } }

/-- A HOST request of tile 0 in partition 63 for 8 bytes at 4096, as it should be and with a reserved bit. -/
def tHostMail (w : Nat) : MeshMsg :=
  { header := [wd (put 9 0 4 + 2 ^ 21 + put 34 28 1 + put 40 35 63), 4096, wd (8 + w), 0, 0, 0, 0, 0], payload := List.replicate 64 3 }

def tHosting (w : Nat) : State := { tPart with grid := { tPart.grid with mesh := [tHostMail w] }, cmp := { tPart.cmp with linkUp := true, fns := [(64, { enabled := true, busMaster := true })] } }

/-- The datagram with sequence number 5 of a sender that is permitted, under a key of 32 bytes 9. -/
def tDatagram : List Byte :=
  let d := leBytes 8 5 ++ List.replicate 64 1
  d ++ kmac256 (List.replicate 32 9) d 16 "KCI-MGMT"

def tManaged : State := { tReady with cmp := { tReady.cmp with mgmt := { key := some (List.replicate 32 9), portSet := true, permitted := [7] } } }

def tPtp (st : PtpState) : State := { tReady with cmp := { tReady.cmp with ptp := { state := st } } }

theorem witness_CompassEvents : (tFn tRinged).fn 0 = tRinged ∧ ringUsed (bits (2 : Word) 16 0) tRinged.cmdHead ≤ 2 ^ tRinged.cmdLog ∧ 2 ^ tRinged.cmdLog < ringUsed (bits (3 : Word) 16 0) tRinged.cmdHead ∧
    ringUsed tRinged.evtTail (bits (0x1FFFF : Word) 16 0) ≤ ringUsed tRinged.evtTail tRinged.evtHead ∧ tRinged.held = [] ∧ tRinged.lost = 0 ∧
    (bit (1 : Word) 0 = true ∧ tRinged.mboxBusy = false ∧ tPart.cmp.state = .ready ∧ tPart.cmp.turn = 0) ∧
    (1875 ∈ [1875] ∧ ({ tRinged with lastMsix := [(1023, 0)], msixWait := [1023] } : FnState).lastMsix.look 1023 = some 0) ∧
    ((tDma .active).dmaNext = some 16383 ∧ (tDma .active).dmaNext ≠ some 0) ∧
    (((tDma .idle).queue 16383).part = some 63 ∧ ((tDma .idle).queue 16383).state = .idle ∧ bits (0x10000 : Word) 16 0 ≠ ((tDma .idle).queue 16383).head ∧
      ringUsed (bits (0x10000 : Word) 16 0) ((tDma .idle).queue 16383).head ≤ 2 ^ ((tDma .idle).queue 16383).log) ∧
    (∀ w ∈ [0, 2 ^ 18], takeFirst (fun (m : MeshMsg) => !m.srcGw && m.destGw && m.dest = 4 && coord m.src = 0) (tHosting w).grid.mesh = some (tHostMail w, [])) ∧
    ((tHosting 0).hostRefuses (tHostMail 0) = none ∧ bit (nth (tHostMail 0).header 2 0) 13 = false ∧ (tHosting (2 ^ 18)).hostRefuses (tHostMail (2 ^ 18)) = some 0) ∧
    ((tPtp .locked).cmp.ptp.state ≠ .disabled ∧ 1000 < (1001 : Int).natAbs ∧ 1000 < (-1001 : Int).natAbs ∧ (tPtp .holdover).cmp.ptp.state = .holdover ∧ 0 + 60 * 1875000000 ≤ 112500000000 ∧
      ((tPtp .locked).at 0).ptpTime % 1000000000 = 0) ∧ (tReady.pwr.state ≠ .off ∧ tReady.cmp.restarts = [] ∧ tReady.crt.mgmtSince = none) ∧
    (State.reset.cmp.state = .booting ∧ State.reset.pwr.state = .on ∧ State.reset.pwr.inReset = false) ∧
    ((tReady.lay.region.lookD 31 {}).restarting = false ∧ (tReady.lay.quad.lookD 3 {}).restarting = false ∧ 0x44 % 8 ≠ 0 ∧
      3 ∉ (tReady.lay.bridges.lookD (BridgeKey (.hub 3)) {}).first ∧ (tReady.lay.bridges.lookD (BridgeKey (.hub 3)) {}).first.length < 4) := by decide +kernel

/-- R482: the last datagram that the port takes, and its code. -/
theorem witness_datagram : tDatagram.length = 88 ∧ kmac256 (List.replicate 32 9) (tDatagram.take 72) 16 "KCI-MGMT" = tDatagram.drop 72 ∧ tManaged.cmp.mgmt.requests = [] ∧
    tManaged.cmp.mgmt.lastSeq = none ∧ 7 ∈ tManaged.cmp.mgmt.permitted := by decide +kernel

theorem test_CompassEvents : tTo (.cmdDoorbell 0 2) (tFn tRinged) (fun u => (u.fn 0).cmdTail = 2) = true ∧
    tTo (.evtHeadWrite 0 0x1FFFF) (tFn tRinged) (fun u => (u.fn 0).evtHead = 0x1FFFF) = true ∧
    tTo (.mboxGo 0 1) (tFn {}) (fun u => (u.fn 0).mboxGo && (u.fn 0).mboxBusy) = true ∧
    tTo (.commandAccept) (tFn { mboxGo := true, mboxBusy := true, mboxCmd := 0x70101 :: List.replicate 7 0 }) (fun u => u.cmp.turn = 1 && !(u.fn 0).mboxGo && u.cmp.inflight.map (fun r => (r.mbox, r.opcode, r.tag.toNat)) = [(true, 0x0101, 7)]) = true ∧
    tTo (.commandComplete .pf true 7) { tFn { mboxBusy := true } with cmp := { (tFn { mboxBusy := true }).cmp with inflight := [tDone] } } (fun u => decide (u.cmp.inflight = []) && !(u.fn 0).mboxBusy &&
      nth (u.fn 0).mboxResp 1 0 = 5) = true ∧
    tTo (.msixDeferred 0 1023 1875) (tFn { lastMsix := [(1023, 0)], msixWait := [1023] }) (fun u => decide (u.out = [.msix 0 1023] ∧ (u.fn 0).msixWait = [])) = true ∧
    tTo (.dmaqDoorbell 64 16383 0x10000) (tDma .idle) (fun u => (u.queue 16383).tail = 0x10000 && (u.queue 16383).state = .active) = true ∧
    tTo (.hostWriteRequest 0) (tHosting 0) (fun u => (u.hostMem 64).word 4096 = 0x0303030303030303 && decide (u.grid.mesh = [])) = true ∧
    tTo (.hostWriteRequest 0) (tHosting (2 ^ 18)) (fun u => u.cmp.hostDrops = 1 && decide (u.host = [])) = true ∧
    tTo (.ptpMessageReceive 1001 0) (tPtp .locked) (fun u => u.cmp.ptp.offset = 1001 && u.cmp.ptp.good = 0) = true ∧
    tTo (.ptpHoldoverTimeout 112500000000) (tPtp .holdover) (fun u => u.cmp.ptp.state = .acquiring) = true := by decide +kernel

theorem test_CompassResets : tTo (.functionLevelReset 0) (tFn tRinged) (fun u => !(u.fn 0).rings && (u.fn 0).evtTail = 0) = true ∧
    tTo (.hostLinkUp true) tReady (fun u => u.cmp.linkUp && u.cmp.gen5) = true ∧ tTo .hostLinkDown tReady (fun u => !u.cmp.linkUp) = true ∧
    tTo (.compassWatchdog 9) tReady (fun u => u.cmp.state = .restarting && u.cmp.restarts = [9] && u.cmp.wdog = 1) = true ∧
    tTo (.regionSurveyorRestart 3 7 9) tReady (fun u => (u.lay.region.lookD 31 {}).restarting) = true ∧
    tTo (.quadrantSurveyorRestart 3 9) tReady (fun u => (u.lay.quad.lookD 3 {}).restarting) = true ∧
    tTo (.registerWrite 0 0x78 9) tReady (fun u => (u.fn 0).mboxCmd = [0, 0, 0, 0, 0, 0, 0, 9]) = true ∧
    tTo (.registerBadAccess 0 0 4 false) tReady (fun u => decide (u.out.contains (.read 0 0 (-1)))) = true ∧
    tTo (.bridgeRetry (.hub 3) []) tReady (fun u => (u.lay.bridges.lookD (BridgeKey (.hub 3)) {}).retries = 1) = true ∧
    tTo (.bridgeLaneFailure (.hub 3) false 3 []) tReady (fun u => (u.lay.bridges.lookD (BridgeKey (.hub 3)) {}).first = [3]) = true := by decide +kernel

theorem test_mgmtDatagram : tTo (.mgmtDatagram 7 64 tDatagram) tManaged (fun u => u.cmp.mgmtQueue = [(5, List.replicate 8 0x0101010101010101)] && u.cmp.mgmt.lastSeq = some 5) = true := by decide +kernel

/-- A command with its answer, from a source and way. -/
def tEnded (src : Source) (mbox : Bool) : InFlight := { tDone with src := src, mbox := mbox, immediate := true }

/-- An answered request of the management port for the same datagram. -/
def tAgain : State := { tManaged with cmp := { tManaged.cmp with mgmt := { tManaged.cmp.mgmt with
  lastSeq := some 5, requests := [{ seq := 5, request := tDatagram, tag := 7, dest := (7, 64), response := some [1] }] } } }

/-- A full event ring; a queue without a partition whose descriptor is all zeros; a surveyor that restarts. -/
def tFullRing : FnState := { tRinged with evtTail := 16, evtHead := 0 }

def tLoose : State := { tPart with cmp := { tPart.cmp with dmaq := [(16383, { state := .active, tail := 1, log := 16 })] } }

theorem witness_CompassEvents_accept : (tFn tRinged).owesRestart = false ∧ ((tFn {}).nextDescriptor 66).isNone = true ∧
    ((tFn { mboxGo := true }).nextDescriptor 66).map (fun r => (r.1, r.2.1)) = some (0, true) ∧ ({ mboxGo := true } : FnState).mboxGo = true ∧
    (let x : FnState := { tRinged with cmdTail := 2, busMaster := true };
      x.mboxGo = false ∧ x.rings = true ∧ x.cmdHead ≠ x.cmdTail ∧ ringUsed x.cmdTail x.cmdHead ≤ 2 ^ x.cmdLog ∧ (tFn x).ringInflight (turnSource 0) < 4096 ∧
        ((tFn x).takeDescriptor (turnSource 0)).isSome = true) ∧
    (({ tReady with cmp := { tReady.cmp with mgmtQueue := [(5, [])], turn := 65 } } : State).nextDescriptor 66).map (fun r => (r.1, r.2.1)) = some (65, false) := by decide +kernel

theorem witness_CompassEvents_complete : (InFlight.isDone .pf true 7 (tEnded .pf true) = true ∧ InFlight.isDone .pf false 7 (tEnded .pf false) = true ∧ InFlight.isDone .mgmt false 7 (tEnded .mgmt false) = true) ∧
    (tEnded .pf false).owesItin = false ∧ (tEnded .pf false).discard = false ∧ tRinged.evtFull = false ∧ tFullRing.evtFull = true ∧
    (∀ r ∈ [{ tEnded .pf true with stage := .waiting, tag := 6 }, { tEnded .pf true with tag := 6 }], InFlight.isDone .pf true 7 r = false ∧ r.src = Source.pf ∧
      (r.stage = .waiting ∨ (r.immediate = true ∧ r.stage = .done))) ∧
    ({ tEnded .pf false with itin := some [] } : InFlight).owesItin = true ∧ (tFn tRinged).ringFull = false := by decide +kernel

theorem witness_CompassEvents_bounds : (tFn {}).fn 0 = {} ∧ ({} : FnState).rings = false ∧ ¬ringUsed tRinged.evtTail (bits (0x1FFFC : Word) 16 0) ≤ ringUsed tRinged.evtTail tRinged.evtHead ∧
    (bit (1 : Word) 0 = true ∧ ({ mboxBusy := true } : FnState).mboxBusy = true ∧ bit (2 : Word) 0 = false) ∧ 1874 < ({ lastMsix := [(1023, 0)] } : FnState).lastMsix.lookD 1023 0 + 1875 ∧
    (tLoose.dmaNext = some 16383 ∧ (tLoose.queue 16383).part = none ∧ (tLoose.queue 16383).cur = none ∧ dmaFields (tLoose.dmaWords (tLoose.queue 16383) 0) = false) ∧
    (¬(5 = 0 ∨ ((tDma .idle).queue 16383).part = some (5 - 1)) ∧ ((tDma .disabled).queue 16383).state = .disabled ∧ 2 ^ 16 < ringUsed (bits (0x10001 : Word) 16 0) ((tDma .idle).queue 16383).head) ∧
    ((tPtp .disabled).cmp.ptp.state = .disabled ∧ (if (1000 : Int).natAbs ≤ 1000 then 15 + 1 else 0) = 16) ∧ ({ tReady with pwr := { tReady.pwr with state := .off } } : State).pwr.state = .off ∧
    ((State.reset.at 0).mgmtFails = false ∧ ({ tReady with cmp := { tReady.cmp with state := .restarting } } : State).cmp.state = .restarting) ∧
    (∃ s : State, s = { tReady with lay := { tReady.lay with region := [(31, { restarting := true, since := 9 })], quad := [(3, { restarting := true, since := 9 })] } } ∧
      (s.lay.region.lookD 31 {}).restarting = true ∧ (s.lay.region.lookD 31 {}).held = [] ∧ (s.lay.region.lookD 31 {}).lost = 0 ∧
      (s.lay.quad.lookD 3 {}).restarting = true ∧ (s.lay.quad.lookD 3 {}).held = [] ∧ (s.lay.quad.lookD 3 {}).lost = 0) ∧
    (msixWindow 0 0x308FFC = true ∧ msixWindow 64 0xC01FFC = true ∧ msixWindow 0 0x309000 = false ∧ 0x308FFC % 4 = 0 ∧ ({} : FnState).mboxBusy = false) ∧
    3 ∈ ({ first := [3] } : Bridge).first :=
  ⟨by decide +kernel, by decide, by decide, by decide, by decide, by decide +kernel, by decide +kernel, by decide +kernel, by decide, by decide +kernel, ⟨_, rfl, by decide +kernel⟩, by decide, by decide⟩

theorem witness_CompassEvents_datagram : tAgain.cmp.mgmt.key = some (List.replicate 32 9) ∧ tAgain.cmp.mgmt.portSet = true ∧ tAgain.cmp.state ≠ .failed ∧ 8 ∉ tAgain.cmp.mgmt.permitted ∧
    (tAgain.cmp.mgmt.requests.find? (fun q => q.seq = 5 && q.request = tDatagram)).map (·.response) = some (some [1]) ∧ tReady.cmp.mgmt.key = none := by decide +kernel
/-! ### Cartouche, faults and the power module -/

/-- A state whose Cartouche is so changed. -/
def tCrt (f : Cartouche → Cartouche) : State := { tReady with crt := f tReady.crt }

def tArmOf : Arm := ⟨.deployed, List.replicate 16 7, 0⟩

/-- A device that may be deployed, and an image as module flash holds one. -/
def tArmed : State := tCrt (fun c => { c with lc := .provisioned, certDone := true, arm := some tArmOf })

def tImage : List Byte := List.replicate 512 0

/-- The newest Itinerary entry and the newest checkpoint. -/
def tItin : ItinEntry := ⟨5, 0, 0, 0x0002, 0, 255, 66, 0, [], []⟩

def tLogged : State := tCrt (fun c => { c with itin := { c.itin with entries := [tItin], next := 6, ckpts := [⟨3, List.replicate 256 9⟩], ckptNext := 4 } })

def tFallback : State :=
  { tCrt (fun c => { c with mgmtSince := some 0, update := true, stage := .activating, previous := [(2, tImage)], active := [(2, tImage)] }) with cmp := { tReady.cmp with state := .restarting } }

theorem witness_CartoucheCommands : (tCrt id).crt.lc = .blank ∧ (tCrt id).atl.wiping = false ∧ (tCrt (fun c => { c with stage := .activating, copying := true })).crt.copying = true ∧
    (tCrt (fun c => { c with copying := true })).cmp.state = .ready ∧ tArmed.crt.lc ≠ .blank ∧ tArmed.crt.lc = .provisioned ∧ 8192 ≤ 8192 ∧
    (tArmed.tampered = false ∧ lcNext tArmed.crt.lc .deployed = true ∧ tArmed.lcReady .deployed = true ∧ tArmed.crt.arm = some tArmOf ∧ tArmOf.target = .deployed ∧ tArmed.now < tArmOf.at_ + 18750000000) ∧
    ((tCrt (fun c => { c with lc := .provisioned })).crt.arm = none ∧ lcNext .provisioned .decommissioned = true ∧ (tCrt id).lcReady .decommissioned = true) ∧
    (tArmed.crt.certDone = true ∧ tk.src = .pf ∧ (tCrt id).crt.live = 0 ∧ (tCrt (fun c => { c with live := 1 })).crt.live ≠ 0) ∧
    ((tCrt id).tampered = false ∧ (tCrt id).crt.stage ≠ .activating ∧ 33554432 ≤ 33554432 ∧ (tCrt (fun c => { c with stage := .writing, stageLen := 4608 })).crt.stage = .writing ∧ 4096 % 4096 = 0 ∧
      4096 + 512 ≤ (tCrt (fun c => { c with stage := .writing, stageLen := 4608 })).crt.stageLen ∧ (tCrt (fun c => { c with stage := .verified })).crt.stage = .verified ∧ (tCrt id).crt.stage = .empty ∧
      (∀ b ∈ (tCrt id).crt.active.vals ++ (tCrt id).crt.pending.vals, 128 ≤ imgSvn b)) ∧
    ((List.replicate 32 (0 : Byte)).length = 32 ∧ (tCrt (fun c => { c with lc := .deployed, loaded := some [1] })).crt.loaded = some [1]) ∧
    (tLogged.itinHolds 5 = true ∧ (tLogged.crt.itin.entries.filter (fun e => 5 ≤ e.seq && e.seq < 5 + 65536)).reverse = [tItin] ∧ 5 < tLogged.crt.itin.next) ∧
    tLogged.crt.itin.ckpts.find? (fun p => p.number = 3) = some ⟨3, List.replicate 256 9⟩ ∧
    (0 + 18750000000 ≤ 18750000000 ∧ 18749999999 < tArmOf.at_ + 18750000000 ∧ 5 < 6 ∧ (tCrt id).pwr.state ≠ .off) ∧
    ((tFallback.at 3750000000).mgmtFails = true ∧ tFallback.crt.previous.look 2 = some tImage ∧ tFallback.crt.svn ≤ imgSvn tImage) ∧ (tCrt id).configRecord.length ≤ 0 := by decide +kernel

theorem test_CartoucheCommands : tTo (.lcQuery tk) tArmed (fun u => tFol u tArmed && tAns u 0x0110 .ok [1, 0, 1, 0]) = true ∧
    tTo (.lcProvision tk 64) tArmed (fun u => tFol u tArmed && tAns u 0x0111 .lcState []) = true ∧
    tTo (.lcTransition tk .deployed (List.replicate 16 7)) (tCrt (fun c => { c with lc := .provisioned, certDone := true })) (fun u => tAns u 0x0114 .badOperand [] && u.crt.lc = .provisioned) = true ∧
    tTo (.certRead tk 64) (tCrt (fun c => { c with certDone := true, certs := [9] })) (fun u => (u.hostMem 0).read 64 = 9 && tAns u 0x0115 .ok []) = true ∧
    tTo (.tamperQuery tk) (tCrt (fun c => { c with latched := 33, tampers := 2 })) (fun u => tAns u 0x0116 .ok [33, 0, 2]) = true ∧
    tTo (.tamperClear tk) (tCrt (fun c => { c with live := 1, latched := 1 })) (fun u => tAns u 0x0117 .tampered [] && u.crt.latched = 1) = true ∧
    tTo (.fwStageBegin tk 33554432) (tCrt id) (fun u => u.crt.stage = .writing && u.crt.stageLen = 33554432 && tAns u 0x0B01 .ok []) = true ∧
    tTo (.fwStageWrite tk 4096 64 512) (tCrt (fun c => { c with stage := .writing, stageLen := 4608 })) (fun u => decide (u.crt.staging = []) && tAns u 0x0B02 .ok []) = true ∧
    tTo (.fwStageVerify tk) (tCrt (fun c => { c with stage := .writing })) (fun u => u.crt.stage = .invalid && tAns u 0x0B03 .imageInvalid []) = true ∧
    tTo (.fwActivate tk) (tCrt (fun c => { c with stage := .verified })) (fun u => tBusy u 0x0B04 [0] && u.crt.copying && u.crt.stage = .activating) = true ∧
    tTo (.fwActivate tk) (tCrt id) (fun u => tFol u (tCrt id) && tAns u 0x0B04 .imageInvalid []) = true ∧
    tTo (.fwSvnCommit tk 128) (tCrt id) (fun u => u.crt.svn = 128 && tAns u 0x0B06 .ok []) = true ∧
    tTo (.settingsClear tk) (tCrt (fun c => { c with settings := some (1, []) })) (fun u => u.crt.settings.isNone && tAns u 0x0B08 .ok []) = true ∧
    tTo (.itinExport tk 5 65536 64) tLogged (fun u => (u.hostMem 0).read 64 = 5 && tAns u 0x0C03 .ok [1]) = true ∧
    tTo (.itinExportAck tk 5) tLogged (fun u => u.crt.itin.acked = 5 && tAns u 0x0C04 .ok []) = true ∧
    tTo (.itinCkptRead tk 3 64) tLogged (fun u => (u.hostMem 0).read 319 = 9 && tAns u 0x0C06 .ok []) = true := by decide +kernel

theorem test_CartoucheEvents : tTo (.lcArmExpiry 18750000000) tArmed (fun u => u.crt.arm.isNone) = true ∧ tTo (.lcArmExpiry 18749999999) tArmed (fun u => u.crt.arm = some tArmOf) = true ∧
    tTo (.tamperTrip 5 [9]) (tCrt (fun c => { c with loaded := some [1], stage := .writing })) (fun u => u.crt.latched = 32 && u.crt.tampers = 1 && u.crt.loaded.isNone && u.crt.stage = .invalid && u.atl.wiping) = true ∧
    tTo .itinJournalWrite tLogged (fun u => u.crt.itin.durable = 6) = true := by decide +kernel

/-- Sub-port 1016 in a link state. -/
def tLink (st : LinkState) : State := tSub { cfg := tCfg .switch, state := st, attempts := 3 }

/-- The module in a power state. -/
def tPwr (f : Power → Power) : State := { tReady with pwr := f tReady.pwr }

def tMapped : State := { tReady with flt := { tReady.flt with log := [⟨9, 0x44, 0, none, 5, 0, 0⟩], faultMap := [(4, [.column 3 2 1])], isolation := [(0x0102030405, 5)] } }

theorem witness_FaultCommands : ((∀ l ∈ [1016], (tLink .up).subExists l = true) ∧ (∀ l ∈ [1016], ((tLink .up).sub l).state ≠ .disabled) ∧ (∀ l ∈ [1016], ((tLink .fenced).sub l).state = .fenced ∧ (tLink .fenced).heldDown l = false) ∧
      (tLink .fenced).crt.lc ≠ .returned ∧ (tLink .fenced).crt.lc ≠ .decommissioned ∧
      (tLink .fenced).flt.cause = 0 ∧ (∀ l ∈ [1016], lportDie l ∉ (tLink .fenced).flt.downDies)) ∧
    (0x0102030405 < 2 ^ 40 ∧ tReady.flt.isolation = [] ∧ (∃ e ∈ tMapped.flt.isolation, e.2 = 5 ∧ tiersMatch 5 (256 * e.1) (256 * 0x0102030405) = true)) ∧ 65535 < 65536 ∧
    (tMapped.flt.log.drop 0).take 1 = [⟨9, 0x44, 0, none, 5, 0, 0⟩] ∧ (∀ t ∈ [1023], t < 1024 ∧ ((tTile9 { state := .ready }).tile t).state = .ready) ∧ 4 < 5 := by decide +kernel

theorem test_FaultCommands : tTo (.fencePort tk [1016]) (tLink .up) (fun u => (u.sub 1016).state = .fenced && tAns u 0x0D01 .ok []) = true ∧
    tTo (.unfencePort tk [1016]) (tLink .fenced) (fun u => (u.sub 1016).state = .training && (u.sub 1016).attempts = 0 && tAns u 0x0D02 .ok []) = true ∧
    tTo (.isolatePeer tk 0x0102030405 5) tReady (fun u => u.flt.isolation = [(0x0102030405, 5)] && tAns u 0x0D03 .ok []) = true ∧
    tTo (.releasePeer tk 0x0102030405 5) tMapped (fun u => decide (u.flt.isolation = []) && tAns u 0x0D04 .ok []) = true ∧
    tTo (.faultLogRead tk 0 1 64) tMapped (fun u => (u.hostMem 0).read 64 = 9 && tAns u 0x0D06 .ok [1]) = true ∧
    tTo (.tileTest tk [1023] []) (tTile9 { state := .ready, scratch := [(5, 9)], bad := [8] }) (fun u => u.tile 1023 = { state := .ready } && tAns u 0x0F01 .ok (leWords 16 (tileMask []))) = true ∧
    tTo (.faultMapRead tk 4 64) tMapped (fun u => u.cmp.inflight.all (fun r => r.result = [1])) = true := by decide +kernel

theorem witness_PowerModule : (tPwr id).pwr.coldAt = none ∧ tReady.anyPart = false ∧ tPart.anyPart = true ∧ (∀ x ∈ tReady.stk.uses, x.owner = 64) ∧ (tPwr (fun p => { p with state := .off })).pwr.state = .off ∧
    ((tPwr (fun p => { p with state := .standby })).pwr.state = .standby ∧ (tPwr id).pwr.eepromBad = false ∧ (tPwr id).pwr.faultN = true) ∧ ((tPwr id).pwr.state = .on ∧ (tPwr id).pwr.pwrGood = true) ∧
    ((tPwr (fun p => { p with state := .ramping })).pwr.state = .ramping ∧ 29 < 30) ∧ (30 < 31 ∧ railWithin 30 0 5 = false ∧ railWatched 30 = false) ∧
    ((tPwr (fun p => { p with inReset := true })).pwr.inReset = true ∧ (tPwr (fun p => { p with inReset := true })).pwr.state = .on) := by decide +kernel

theorem test_PowerCommands : tTo (.pwrReset tk true) tReady (fun u => u.pwr.coldAt = some 18750000 && tAns u 0x0E03 .ok []) = true ∧
    tTo (.pwrReset tk false) tPart (fun u => tFol u tPart && tAns u 0x0E03 .partState []) = true ∧
    tTo (.pwrOff tk) tReady (fun u => u.pwr.state = .poweringDown && !u.pwr.pwrGood && u.pwr.lastOff = 2) = true ∧
    tTo (.vsbStart 0x1F false 9) (tPwr (fun p => { p with state := .off })) (fun u => u.pwr.state = .standby && decide (u.pwr.straps = ⟨true, 7, true⟩)) = true ∧
    tTo (.pwrEnRise 9) (tPwr (fun p => { p with state := .standby })) (fun u => u.pwr.state = .ramping && u.pwr.since = 9) = true ∧
    tTo (.pwrEnFall 9) tReady (fun u => u.pwr.state = .poweringDown && u.pwr.lastOff = 1) = true ∧
    tTo (.railTimeout 29 9) (tPwr (fun p => { p with state := .ramping })) (fun u => u.pwr.state = .standby && u.pwr.lastOff = 6 && !u.pwr.faultN) = true ∧
    tTo (.railExcursion 30 0 0 .fault) tReady (fun u => u.pwr.state = .standby && u.pwr.lastOff = 6) = true ∧
    tTo (.inputExcursion .highOff 61000 0 0) tReady (fun u => u.pwr.state = .standby && u.pwr.lastOff = 4) = true ∧
    tTo (.resetNAssert 9) tReady (fun u => u.pwr.inReset && u.pwr.resetKind = 1) = true ∧
    tTo (.sensorSample [] 0 0 false 9) (tPwr (fun p => { p with state := .off })) (fun u => u.now = 9 && decide (u.pwr.temps = [])) = true := by decide +kernel
/-! ### Engines, in full -/

/-- A vector instruction that reads 64 FP32 elements of the scratchpad, 64 of register 0, and writes the end of the scratchpad, and a product whose output does. -/
def tVecMem : List Word := tWords [(2, 1), (4, 0x17FE00), (5, 63), (11, 0), (13, 63), (19, 2 ^ 58 + 2 ^ 59), (20, 0x17FF00), (21, 63), (27, 0)]

def tTensOut : List Word := tWords [(2, 1), (11, 3), (19, 3), (20, 0x17FFFC)]

/-- The states of the engine e with the instruction of these words at the head of its queue. -/
def tRuns (e : Nat) (ws : List Word) : State := tTile (tEngine e (tEntry ws))

theorem witness_EnginesComplete : (∀ ws ∈ [tVec 1, tVecMem, tRed 0x20], ((tRuns 1 ws).tile 0).state = .running ∧ ((tRuns 1 ws).tile 0).bad = [] ∧ ((tRuns 1 ws).tile 0).head 1 = some (tEntry ws) ∧
      vecShapeBad ws = false ∧ vecFormat ws = none) ∧ (tEntry tVecMem).status = .ok ∧ (vecOperands tVecMem).any (fun g => !g.useVreg) = true := by decide +kernel

theorem witness_EnginesComplete_operands : ∀ ws ∈ [tVec 1, tVecMem, tRed 0x20], ∀ g ∈ vecOperands ws, g.useVreg = false → g.useImm = false →
    g.Readable (fmtBits g.fmt.fmt) (perUnit g.fmt.fmt) := by
  simp only [Ag.Readable, Ag.Within, Ag.Scales]; decide +kernel

theorem witness_EnginesComplete_result : ∀ ws ∈ [tVec 1, tVecMem, tRed 0x20], (agAt ws 20).useVreg = false → (agAt ws 20).Writable (convCtl (dConv ws)) (vecOutFmt ws) := by
  simp only [Ag.Writable, Ag.Within, Ag.Scales]; decide +kernel

theorem witness_EnginesComplete_tensor : ((tRuns 0 tTens).tile 0).head 0 = some (tEntry tTens) ∧ ((tRuns 0 tTens).tile 0).sparseFirst (tEntry tTens) = false ∧ tensorShapeBad tTens = false ∧
    tensorFormat tTens = none ∧ (agAt tTens 4).Readable (agAt tTens 4).fmt.elemBits 32 ∧ (agAt tTens 12).Readable (agAt tTens 12).fmt.elemBits 32 ∧ accKeep tTens = true := by
  simp only [Ag.Readable, Ag.Within, Ag.Scales]; decide +kernel

theorem witness_EnginesComplete_output : tensorShapeBad tTensOut = false ∧ tensorFormat tTensOut = none ∧ accKeep tTensOut = false ∧
    (agAt tTensOut 20).Writable (convCtl (dConv tTensOut)) (convCtl (dConv tTensOut)).fmt ∧ (convCtl (dConv tTensOut)).dqCol = false ∧ (convCtl (dConv tTensOut)).bias = false := by
  simp only [Ag.Writable, Ag.Within, Ag.Scales]; decide +kernel

theorem witness_Reductions : dConv (tRed 0x20) = 0 ∧ (agAt (tRed 0x20) 4).useVreg = true ∧ (agAt (tRed 0x20) 4).useImm = false ∧ (agAt (tRed 0x20) 4).vreg = 0 ∧
    (agAt (tRed 0x20) 4).counts = [64, 1, 1, 1, 1, 1] ∧ (agAt (tRed 0x20) 20).useVreg = false ∧ (agAt (tRed 0x20) 20).units = 1 ∧ (agAt (tRed 0x20) 20).base = 0x17FFF8 ∧
    0x17FFF8 % 4 = 0 ∧ 0x17FFF8 + 4 ≤ 0x180000 ∧ ((tRuns 1 (tRed 0x20)).tile 0).scratch.wf = true := by decide +kernel

/-- A block that could be read, of a format. -/
def tReads (fmt : Nat) (b : Except Status SparseBlk) : Bool :=
  match b with
  | .ok k => k.leg.fmt = fmt && !k.leg.bscale
  | .error _ => false

/-- The hypotheses of SPMM and PREDICT on one block row: E4M3 against E4M3, and ternary weights with no nonzero. -/
theorem witness_EngineRuns_blocks : (∀ e ∈ [(tSprs, (7 : Byte), 7), (tPredict, (0xB : Byte), 0xB)],
      ((tTile (tSparseRuns e.1)).tile 0).head 4 = some (tEntry e.1) ∧ ((tTile (tSparseRuns e.1)).tile 0).tensorBusy = false ∧
      ((tTile (tSparseRuns e.1)).tile 0).tensorFirst (tEntry e.1) = false ∧ (tEntry e.1).waits = [] ∧
      sparseShapeBad e.1 = false ∧ sparseFormat e.1 0 = none ∧ predAddr e.1 = none ∧ (agAt e.1 4).Readable (fmtBits (agAt e.1 4).fmt.fmt) 32 ∧
      ((tTile (tSparseRuns e.1)).tile 0).sparseOrder (tEntry e.1) = [0] ∧
      ((tFetch e.2.1).blocks (sprsOf e.1)).isSome = true ∧ (tBlocks e.2.1 e.1).map (·.1) = [0] ∧
      (tBlocks e.2.1 e.1).all (fun x => x.2.all (tReads e.2.2)) = true) ∧
    (sprsOf tSprs).x.fmt.fmt = 7 ∧ (sprsOf tSprs).x.fmt.split = 0 ∧ (sprsOf tSprs).z.Writable (sprsOf tSprs).conv (sprsOf tSprs).conv.fmt ∧
    (sprsOf tPredict).z.Within (sprsOf tPredict).z.units 8 := by
  simp only [Ag.Readable, Ag.Writable, Ag.Within, Ag.Scales]; decide +kernel
/-! ### Further clauses -/

/-- A tile whose input port holds the message, and one whose ring has no room for it. -/
theorem witness_Messages_port : (({ tRx with port := some tMail } : Tile).port = some tMail ∧ tMail.destGw = false ∧ tMail.dest = coord 0 ∧ tMail.src = coord 1 ∧ tMail.srcGw = false ∧
      ({ tRx with rx := [] } : Tile).ringUsed + tMail.len + 1 ≤ tRx.rxSize) ∧
    (({ tRx with rxSize := 1, rx := [] } : Tile).port = none ∧ 1 < ({ tRx with rxSize := 1, rx := [] } : Tile).ringUsed + tMail.len + 1) ∧ tRx.bad = [] := by decide +kernel

theorem test_Messages_port : tTo (.messageReceive 0 1 false) (tMesh { tRx with rxSize := 1, rx := [] }) (fun u => decide (u.grid.mesh = []) && decide ((u.tile 0).port = some tMail)) = true ∧
    tTo (.messageReceive 0 1 false) (tTile { tRx with rx := [], port := some tMail }) (fun u => decide ((u.tile 0).port = none) && (u.tile 0).rx.length = 1 && (u.tile 0).rxWrite = 0) = true := by decide +kernel

/-- A load as a tile sends it, and a state in which its flow has 256 ordered operations in flight. -/
def tLoadMail (member : Nat) : MeshMsg :=
  { header := padTo 8 0 [wd (put 9 0 1 + 2 ^ 21 + put 40 35 63), wd (put 51 48 member + put 55 52 opLoad), 15, 3, 0], payload := [] }

def tCrowd : State :=
  { tSheet (fun x => { tOpened x with ops := List.replicate 256 ((tSheet id).tileOp 0 (tLoadMail 15)) }) with grid := { tPart.grid with mesh := [tLoadMail 15] } }

/-- The combine record 8191 of die 3, whose packet left at cycle 0. -/
def tCombine : Combine := ⟨3, 8191, 4, [tRequest], some 0⟩

theorem witness_SheetTraffic_more :
    (tLoadMail 15).header.length = 8 ∧ (srec (tCrowd.tileOp 0 (tLoadMail 15)).words).invalid = false ∧ tileLenBad (tLoadMail 15) = false ∧ tCrowd.member_ 15 ≠ .none ∧
    tCrowd.winOk (.part 63) (srec (tCrowd.tileOp 0 (tLoadMail 15)).words) = true ∧
    tCrowd.shtRoom 0 (tCrowd.shtSrc (tCrowd.tileOp 0 (tLoadMail 15))) (tCrowd.tileOp 0 (tLoadMail 15)).dest (srec (tCrowd.tileOp 0 (tLoadMail 15)).words).ordered = false ∧
    (tSheet id).member_ 14 = .none ∧ (srec ((tSheet id).tileOp 0 (tLoadMail 14)).words).invalid = false ∧ tileLenBad (tLoadMail 14) = false ∧
    (tSheet (fun x => { x with queue := [(0, [{ id := 1, pkt := tRequest }])] })).homeFirst 0 { id := 1, pkt := tRequest } = true ∧
    ([tCombine].find? (fun c => 2 ^ 32 + 8192 * c.die + c.id = 2 ^ 32 + 8192 * 3 + 8191 && (match c.sentAt with
      | some t => t + 2 ^ 15 ≤ 32768
      | none => false)) = some tCombine) := by decide +kernel

theorem test_SheetTraffic_more : tTo (.sheetRequest 0) tCrowd (fun u => u.grid.mesh.length = 1 && u.sht.ops.length = 256) = true ∧
    tTo (.sheetRequest 0) { tSheet id with grid := { tPart.grid with mesh := [tLoadMail 14] } } (fun u => u.grid.mesh.map (fun m => bits (nth m.header 1 0) 7 0) = [Status.accessDenied.code]) = true ∧
    tTo (.sheetRtoExpiry (2 ^ 32 + 8192 * 3 + 8191) 32768) (tSheet (fun x => { x with rto := 15, records := [tCombine] })) (fun u => decide (u.sht.records = [])) = true := by decide +kernel

/-- R381, R25: the export of all of a region of one band, whose bands reach the last region of control; a partition takes a tile of region 31 with a sub-port of region 0. -/
theorem witness_SheetCommands_export : ({ tPart with stk := { tPart.stk with regions := [(63, [⟨true, 0, 2 ^ 47, 0, 1⟩])] } } : State).viewCovers 63 (·.global) 2 (2 ^ 47) 64 = true ∧
    ((⟨true, 0, 0, 0, 1⟩ : StkRegion).global = true ∧ 31 < 32) ∧
    (((tParted { state := .ready, lastPart := some 63 }).subExists 0 = true) ∧ ((tParted { state := .ready, lastPart := some 63 }).sub 0).state = .disabled ∧
      lportDie 0 ∉ (tParted { state := .ready }).flt.downDies) := by decide +kernel

theorem test_regions : tTo (.partAssign tk 63 true { tiles := [1023], subs := [0], firstQ := 0, numQ := 0 }) (tParted { state := .ready, lastPart := some 63 }) (fun u => (u.tile 1023).part = some 63 &&
      (u.sub 0).cfg.part = some 63 && tAns u 0x0203 .ok []) = true ∧
    (List.range 32).all (fun r => (List.range 1536).any (fun i => pchRegion ((⟨true, 0, 0, 0, 1⟩ : StkRegion).map (256 * i)).1 = r)) = true := by decide +kernel

theorem witness_MemoryCommands_more : ((tFar .ready id).farPort 1).id ≠ none ∧ ((tFar .down (fun x => { x with id := none })).farPort 1).id = none ∧
    (({ tPart with stk := { tPart.stk with bringup := .repair } } : State).stk.bringup = .repair ∧ tPart.stackHeld 23 = false) := by decide +kernel

theorem test_MemoryCommands_more : tTo (.farPortCtrl tk 1 .reset true) (tFar .ready id) (fun u => (u.farPort 1).state = .training && (u.farPort 1).ide && tBusy u 0x0909 [1]) = true ∧
    tTo (.farPortCtrl tk 1 .enable true) (tFar .down (fun x => { x with id := none })) (fun u => (u.farPort 1).state = .empty && !(u.farPort 1).ide && tAns u 0x0909 .ok []) = true := by decide +kernel

/-- A pool to resize: nothing of REORDER of die 3 is held. -/
theorem witness_PlatPools_resize : (tPart.pool 3 3).held = [] ∧ 4096 ≠ (tPart.pool 3 3).total ∧ tPart.cellSum 3 3 + 4096 ≤ cellBufferCells ∧
    ({ tPart.pool 3 3 with total := 4096, ring := [(0, 4096)], thresh := [255, 128, 64], dflt := 0 } : Pool).sumReserve ≤ 4096 := by decide +kernel

theorem test_PlatPools_resize : tTo (.pltPoolSet tk 3 3 4096 255 128 64 0) tPart (fun u => (u.pool 3 3).total = 4096 && (u.pool 3 3).ring = [(0, 4096)] && tAns u 0x0220 .ok []) = true ∧
    tTo (.pltPoolQuery tk 3 3 none) tPart (fun u => tFol u tPart) = true := by decide +kernel

theorem witness_AtlasBanks_more : (((tTile9 { state := .ready, power := .retention }).tile 1023).power = .retention ∧ ((tTile9 { state := .halted }).tile 1023).power ≠ .off) ∧
    ((tBank { power := .off }).bank tBankId).power = .off ∧ tReady.walkerRuns tBankId = true ∧ (∀ c ∈ (tReady.bank tBankId).began, c + 2 ^ tReady.atl.interval ≤ 0) := by decide +kernel

theorem test_AtlasBanks_more : tTo (.atlPower tk (.tiles [1023]) .on) (tTile9 { state := .ready, power := .retention }) (fun u => (u.tile 1023).power = .on && (u.tile 1023).goal = some (.on, 64) && tBusy u 0x0E01 [1023]) = true ∧
    tTo (.atlPower tk (.tiles [1023]) .off) (tTile9 { state := .halted, scratch := [(5, 9)] }) (fun u => (u.tile 1023).state = .off && (u.tile 1023).scratch.length = 0 && (u.tile 1023).goal = some (.off, 16)) = true ∧
    tTo (.atlPower tk (.banks [tBankId]) .on) (tBank { power := .off }) (fun u => (u.bank tBankId).power = .on && (u.bank tBankId).goal = some (.on, 4160) && tBusy u 0x0E01 [2 ^ 20 + tBankId]) = true := by decide +kernel

theorem test_idmem_coldPlate : tTo (.idmemRead tk 1 255 1 64) { tReady with cmp := { tReady.cmp with coldPlate := [(255, 9)] } } (fun u => (u.hostMem 0).read 64 = 9 && tAns u 0x0102 .ok []) = true := by decide +kernel

/-! ### The block as a whole -/

theorem witness_FrontCommand : State.reset.pending = [] := rfl

/-- On the empty queue after reset a step is a tick, and the state is one in which every memory has its form. -/
theorem witness_KeepsMemories : State.reset.memoriesOk = true ∧ step State.reset = .next State.reset.tick := ⟨by decide +kernel, rfl⟩

theorem witness_step_command : step { tReady with pending := [.timeQuery tk] } = exec (.timeQuery tk) tReady := rfl

theorem witness_TileCommandRefused : ((tTile { state := .unavailable }).tile 0).state = .unavailable ∧ ((tTile { state := .halted }).tile 0).cmdHalt = false ∧
    ((tTile {}).tile 0).state ≠ .ready ∧ ((tTile {}).tile 0).state ≠ .halted := by decide

end Sys2Proof.Machine
end

section
namespace Sys2Proof.Machine

/-! ## The canonical form, piece by piece

The invariant of a state, and of the pieces that an instruction works on. `exact h` closes a goal about a record update that leaves the
memories alone: both sides unfold to the same tests. -/

/-- The byte memories of a state have their canonical form. -/
def State.Ok (s : State) : Prop := s.memoriesOk = true

/-- The scratchpad of a tile has its canonical form. -/
def Tile.Ok (x : Tile) : Prop := x.scratch.wf = true

/-- What a KCI command leaves is a state in canonical form. -/
def KRes.Ok (r : KRes) : Prop := r.st.Ok

/-- A next state, where the outcome is one, is in canonical form. -/
def NextOk (o : Host.Outcome State Fault Refusal) : Prop := ∀ u, o = .next u → u.Ok

/-- The state that the sequencer goes on with is in canonical form. -/
def SeqOut.Ok : SeqOut → Prop
  | .next s => s.Ok
  | .jump s _ => s.Ok
  | .fault s _ _ _ => s.Ok
  | .past s => s.Ok
  | .wait s _ => s.Ok
  | .yield s => s.Ok
  | .finish s => s.Ok

theorem State.ok_iff (s : State) : s.Ok ↔ (∀ e ∈ s.host, e.2.wf = true) ∧ (∀ e ∈ s.grid.tiles, e.2.Ok) ∧ s.stk.mem.wf = true ∧
    s.atl.pinned.wf = true ∧ s.crt.staging.wf = true ∧ s.cmp.eeprom.wf = true ∧ s.cmp.coldPlate.wf = true := by
  simp only [State.Ok, State.memoriesOk, Tile.Ok, Bool.and_eq_true, List.all_eq_true]
  tauto

section
variable {s u : State}

theorem State.Ok.host (h : s.Ok) : ∀ e ∈ s.host, e.2.wf = true := ((State.ok_iff s).1 h).1

theorem State.Ok.tiles (h : s.Ok) : ∀ e ∈ s.grid.tiles, e.2.Ok := ((State.ok_iff s).1 h).2.1

theorem State.Ok.mem (h : s.Ok) : s.stk.mem.wf = true := ((State.ok_iff s).1 h).2.2.1

theorem State.Ok.pinned (h : s.Ok) : s.atl.pinned.wf = true := ((State.ok_iff s).1 h).2.2.2.1

theorem State.Ok.staging (h : s.Ok) : s.crt.staging.wf = true := ((State.ok_iff s).1 h).2.2.2.2.1

theorem State.Ok.eeprom (h : s.Ok) : s.cmp.eeprom.wf = true := ((State.ok_iff s).1 h).2.2.2.2.2.1

theorem State.Ok.coldPlate (h : s.Ok) : s.cmp.coldPlate.wf = true := ((State.ok_iff s).1 h).2.2.2.2.2.2

/-! ### Lookups and updates -/

theorem SMap.lookD_of {α : Type} {P : α → Prop} {m : SMap α} (hm : ∀ e ∈ m, P e.2) {d : α} (hd : P d) (a : Nat) : P (m.lookD a d) := by
  induction m with
  | nil => exact hd
  | cons e r ih =>
    have ih := ih (fun e he => hm e (.tail _ he))
    simp only [SMap.lookD, SMap.look] at ih ⊢
    split
    · exact hm e (.head _)
    · exact ih

theorem State.Ok.tile {t} (h : s.Ok) : (s.tile t).Ok := by
  have hd : ({} : Tile).Ok := Memory.wf_nil
  exact SMap.lookD_of h.tiles hd t

theorem State.Ok.hostMem {f} (h : s.Ok) : (s.hostMem f).wf = true := SMap.lookD_of (P := fun m => Memory.wf m = true) h.host Memory.wf_nil f

theorem State.Ok.setTile {t x} (h : s.Ok) (hx : x.Ok) : (s.setTile t x).Ok := by
  refine (State.ok_iff _).2 ⟨h.host, fun e he => ?_, h.mem, h.pinned, h.staging, h.eeprom, h.coldPlate⟩
  rcases SMap.mem_put he with rfl | he
  · exact hx
  · exact h.tiles e he

theorem State.Ok.keepTile {t x} (h : s.Ok) (hx : x.scratch = (s.tile t).scratch) : (s.setTile t x).Ok :=
  h.setTile (by unfold Tile.Ok; rw [hx]; exact h.tile)

theorem State.Ok.onTile {t f} (h : s.Ok) (hf : ∀ x, x.Ok → (f x).Ok) : (s.onTile t f).Ok := h.setTile (hf _ h.tile)

theorem State.Ok.hostWrite {f a bs} (h : s.Ok) : (s.hostWrite f a bs).Ok := by
  refine (State.ok_iff _).2 ⟨fun e he => ?_, h.tiles, h.mem, h.pinned, h.staging, h.eeprom, h.coldPlate⟩
  rcases SMap.mem_put he with rfl | he
  · exact Memory.writeN_wf _ _ h.hostMem
  · exact h.host e he

/-! ### Record updates

A field that holds no memory may take any value; a part that holds one keeps it. -/

theorem State.Ok.withPending {a} (h : s.Ok) : State.Ok { s with pending := a } := h

theorem State.Ok.withNow {a} (h : s.Ok) : State.Ok { s with now := a } := h

theorem State.Ok.withFree {a} (h : s.Ok) : State.Ok { s with free := a } := h

theorem State.Ok.withDtm {a} (h : s.Ok) : State.Ok { s with dtm := a } := h

theorem State.Ok.withLay {a} (h : s.Ok) : State.Ok { s with lay := a } := h

theorem State.Ok.withFlt {a} (h : s.Ok) : State.Ok { s with flt := a } := h

theorem State.Ok.withPwr {a} (h : s.Ok) : State.Ok { s with pwr := a } := h

theorem State.Ok.withMer {a} (h : s.Ok) : State.Ok { s with mer := a } := h

theorem State.Ok.withFar {a} (h : s.Ok) : State.Ok { s with far := a } := h

theorem State.Ok.withPlt {a} (h : s.Ok) : State.Ok { s with plt := a } := h

theorem State.Ok.withGaz {a} (h : s.Ok) : State.Ok { s with gaz := a } := h

theorem State.Ok.withCfl {a} (h : s.Ok) : State.Ok { s with cfl := a } := h

theorem State.Ok.withFab {a} (h : s.Ok) : State.Ok { s with fab := a } := h

theorem State.Ok.withSht {a} (h : s.Ok) : State.Ok { s with sht := a } := h

theorem State.Ok.withOut {a} (h : s.Ok) : State.Ok { s with out := a } := h

theorem State.Ok.withW1c {a} (h : s.Ok) : State.Ok { s with w1c := a } := h

theorem State.Ok.putCmp {a} (h : s.Ok) (heeprom : a.eeprom.wf = true) (hcoldPlate : a.coldPlate.wf = true) : State.Ok { s with cmp := a } :=
  (State.ok_iff _).2 ⟨h.host, h.tiles, h.mem, h.pinned, h.staging, heeprom, hcoldPlate⟩

theorem State.Ok.putCrt {a} (h : s.Ok) (hstaging : a.staging.wf = true) : State.Ok { s with crt := a } :=
  (State.ok_iff _).2 ⟨h.host, h.tiles, h.mem, h.pinned, hstaging, h.eeprom, h.coldPlate⟩

theorem State.Ok.putAtl {a} (h : s.Ok) (hpinned : a.pinned.wf = true) : State.Ok { s with atl := a } :=
  (State.ok_iff _).2 ⟨h.host, h.tiles, h.mem, hpinned, h.staging, h.eeprom, h.coldPlate⟩

theorem State.Ok.putStk {a} (h : s.Ok) (hmem : a.mem.wf = true) : State.Ok { s with stk := a } :=
  (State.ok_iff _).2 ⟨h.host, h.tiles, hmem, h.pinned, h.staging, h.eeprom, h.coldPlate⟩

theorem State.Ok.putGrid {a} (h : s.Ok) (htiles : ∀ e ∈ a.tiles, e.2.Ok) : State.Ok { s with grid := a } :=
  (State.ok_iff _).2 ⟨h.host, htiles, h.mem, h.pinned, h.staging, h.eeprom, h.coldPlate⟩

theorem State.Ok.withCmp {a} (h : s.Ok) (heeprom : a.eeprom = s.cmp.eeprom) (hcoldPlate : a.coldPlate = s.cmp.coldPlate) :
    State.Ok { s with cmp := a } :=
  h.putCmp (heeprom ▸ h.eeprom) (hcoldPlate ▸ h.coldPlate)

theorem State.Ok.withCrt {a} (h : s.Ok) (hstaging : a.staging = s.crt.staging) :
    State.Ok { s with crt := a } := h.putCrt (hstaging ▸ h.staging)

theorem State.Ok.withAtl {a} (h : s.Ok) (hpinned : a.pinned = s.atl.pinned) : State.Ok { s with atl := a } := h.putAtl (hpinned ▸ h.pinned)

theorem State.Ok.withStk {a} (h : s.Ok) (hmem : a.mem = s.stk.mem) : State.Ok { s with stk := a } := h.putStk (hmem ▸ h.mem)

theorem State.Ok.withGrid {a} (h : s.Ok) (htiles : a.tiles = s.grid.tiles) : State.Ok { s with grid := a } := h.putGrid (htiles ▸ h.tiles)

theorem KRes.Ok.mk {status result keys cont record} (h : s.Ok) : KRes.Ok ⟨s, status, result, keys, cont, record⟩ := h

theorem KRes.Ok.st {r : KRes} (h : r.Ok) : r.st.Ok := h

/-! ### Branches and folds -/

theorem State.Ok.ite {c : Prop} [Decidable c] (h : s.Ok) (h' : u.Ok) : (if c then s else u).Ok := by
  split <;> assumption

theorem State.Ok.getD {o : Option State} (h : s.Ok) (ho : ∀ u, o = some u → u.Ok) : (o.getD s).Ok := by
  cases o
  · exact h
  · exact ho _ rfl

theorem State.Ok.getDSnd {α : Type} {o : Option (α × State)} {a} (h : s.Ok) (ho : ∀ b u, o = some (b, u) → u.Ok) :
    (o.getD (a, s)).2.Ok := by
  cases o
  · exact h
  · exact ho _ _ rfl

theorem State.Ok.ofSnd {α : Type} {p : α × State} {a u} (hp : p = (a, u)) (h : p.2.Ok) : u.Ok := by
  subst hp
  exact h

theorem State.Ok.ofSndSnd {α β : Type} {p : α × β × State} {a b u} (hp : p = (a, b, u)) (h : p.2.2.Ok) : u.Ok := by
  subst hp
  exact h

theorem State.Ok.ofSndSndSnd {α β γ : Type} {p : α × β × γ × State} {a b c u} (hp : p = (a, b, c, u)) (h : p.2.2.2.Ok) : u.Ok := by
  subst hp
  exact h

theorem Tile.Ok.ite {c : Prop} [Decidable c] {x y : Tile} (h : x.Ok) (h' : y.Ok) : (if c then x else y).Ok := by
  split <;> assumption

theorem KRes.Ok.ite {c : Prop} [Decidable c] {x y : KRes} (h : x.Ok) (h' : y.Ok) : (if c then x else y).Ok := by
  split <;> assumption

theorem SeqOut.Ok.ite {c : Prop} [Decidable c] {x y : SeqOut} (h : x.Ok) (h' : y.Ok) : (if c then x else y).Ok := by
  split <;> assumption

theorem State.Ok.iteSnd {α : Type} {c : Prop} [Decidable c] {x y : α × State} (h : x.2.Ok) (h' : y.2.Ok) : (if c then x else y).2.Ok := by
  split <;> assumption

theorem State.Ok.iteSndSnd {α β : Type} {c : Prop} [Decidable c] {x y : α × β × State} (h : x.2.2.Ok) (h' : y.2.2.Ok) :
    (if c then x else y).2.2.Ok := by
  split <;> assumption

theorem State.Ok.foldl {α : Type} {f : State → α → State} {l : List α} (h : s.Ok) (hf : ∀ s a, s.Ok → (f s a).Ok) : (l.foldl f s).Ok :=
  List.foldlRecOn l f h fun s hs a _ => hf s a hs

theorem State.Ok.foldlSnd {α β : Type} {f : β × State → α → β × State} {l : List α} {b : β × State} (h : b.2.Ok)
    (hf : ∀ b a, State.Ok b.2 → (f b a).2.Ok) : (l.foldl f b).2.Ok :=
  List.foldlRecOn l f (motive := fun b => b.2.Ok) h fun b hb a _ => hf b a hb

theorem State.Ok.foldlSndSnd {α β γ : Type} {f : β × γ × State → α → β × γ × State} {l : List α} {b : β × γ × State} (h : b.2.2.Ok)
    (hf : ∀ b a, State.Ok b.2.2 → (f b a).2.2.Ok) : (l.foldl f b).2.2.Ok :=
  List.foldlRecOn l f (motive := fun b => b.2.2.Ok) h fun b hb a _ => hf b a hb

/-! ### Memories written byte by byte -/

theorem Memory.wf_foldl {α : Type} {f : Memory → α → Memory} {l : List α} {m : Memory} (h : m.wf = true)
    (hf : ∀ m a, Memory.wf m = true → (f m a).wf = true) : (l.foldl f m).wf = true :=
  List.foldlRecOn l f (motive := fun m => Memory.wf m = true) h fun m hm a _ => hf m a hm

theorem Memory.wf_ite {c : Prop} [Decidable c] {m n : Memory} (h : m.wf = true) (h' : n.wf = true) :
    (if c then m else n : Memory).wf = true := by
  split <;> assumption

theorem Memory.wf_filter {p : Host.Cell → Bool} {m : Memory} (h : m.wf = true) : Memory.wf (List.filter p m) = true := by
  rw [Memory.wf_iff] at h ⊢
  exact ⟨SMap.rising_filter _ h.1, fun c hc => h.2 c (List.mem_of_mem_filter hc)⟩

/-! ### Outcomes -/

theorem NextOk.next (h : s.Ok) : NextOk (.next s) := by
  rintro _ ⟨⟩
  exact h

end

section
variable {s : State} {x : Tile}

/-! ### Ops.lean -/

theorem State.Ok.at {cc} (h : s.Ok) : (s.at cc).Ok := h.withNow

theorem State.Ok.fresh (h : s.Ok) : s.fresh.2.Ok := h.withFree

theorem State.Ok.freshBytes {n} (h : s.Ok) : (s.freshBytes n).2.Ok := h.withFree

theorem State.Ok.emit {o} (h : s.Ok) : (s.emit o).Ok := h.withOut

theorem State.Ok.w1cSet {a m} (h : s.Ok) : (s.w1cSet a m).Ok := h.withW1c

theorem State.Ok.tally {a n} (h : s.Ok) : (s.tally a n).Ok := h.withW1c

theorem State.Ok.setFn {f x} (h : s.Ok) : (s.setFn f x).Ok := h.withCmp rfl rfl

theorem State.Ok.putHost {k a bs} (h : s.Ok) : (s.putHost k a bs).Ok := h.hostWrite

theorem State.Ok.sendMsix {f v} (h : s.Ok) : (s.sendMsix f v).Ok := by
  dsimp only [State.sendMsix]
  split
  · exact h.setFn.ite h.setFn.emit
  · exact h.setFn.emit

theorem State.Ok.postEvent {f ws} (h : s.Ok) : (s.postEvent f ws).Ok := h.hostWrite.setFn.sendMsix

theorem State.Ok.postNotice {f ws} (h : s.Ok) : (s.postNotice f ws).Ok := h.postEvent.ite h.setFn

theorem State.Ok.flushNotices {f} : ∀ {n s}, State.Ok s → (State.flushNotices n s f).Ok
  | 0, _, h => h
  | n + 1, s, h => by
    dsimp only [State.flushNotices]
    refine .ite (.ite h.setFn.postEvent.flushNotices ?_) h
    split
    · exact h
    · exact h.setFn.postEvent.flushNotices

theorem State.Ok.deliver {ws} (h : s.Ok) : (s.deliver ws).Ok := by
  dsimp only [State.deliver]
  split
  · exact .emit (.withCmp ((h.postNotice.postNotice.ite h.postNotice).ite h.postNotice) rfl rfl)
  · exact (h.postNotice.postNotice.ite h.postNotice).ite h.postNotice

theorem State.Ok.faultLog {e} (h : s.Ok) : (s.faultLog e).Ok := h.withFlt

theorem State.Ok.sendUp {o ws} (h : s.Ok) : (s.sendUp o ws).Ok := by
  dsimp only [State.sendUp]
  split
  · exact .ite (h.withCmp rfl rfl) h.deliver
  · exact .ite h.withLay (.ite (h.withCmp rfl rfl) h.deliver)
  · exact .ite h.withLay (.ite h.withLay (.ite (h.withCmp rfl rfl) h.deliver))

theorem State.Ok.notify {n st part subject detail o addr job} (h : s.Ok) : (s.notify n st part subject detail o addr job).Ok :=
  .sendUp (.ite (.tally (.withFlt (h.faultLog.ite h))) (h.faultLog.ite h))

theorem State.Ok.accessError {offset part} (h : s.Ok) : (s.accessError offset part).Ok := h.notify

theorem State.Ok.itinEntry {code contLeft part source status subject} (h : s.Ok) :
    (s.itinEntry code contLeft part source status subject).Ok :=
  h.withCrt rfl

theorem State.Ok.itinCont {part source status} : ∀ {l s}, State.Ok s → (State.itinCont part source status s l).Ok
  | [], _, h => h
  | _ :: _, _, h => h.itinEntry.itinCont

theorem State.Ok.itinRecord {code part source status subject conts} (h : s.Ok) : (s.itinRecord code part source status subject conts).Ok :=
  h.ite h.itinEntry.itinCont

theorem State.Ok.driftRecord (h : s.Ok) : s.driftRecord.Ok := by
  unfold State.driftRecord
  split
  · exact h
  · exact h.itinRecord

theorem State.Ok.itinGap (h : s.Ok) : s.itinGap.Ok := .ite (.notify (.withCrt h.itinRecord rfl)) h

theorem State.Ok.itinHigh (h : s.Ok) : s.itinHigh.Ok := .ite (.notify (h.withCrt rfl)) h

theorem State.Ok.checkpoint (h : s.Ok) : s.checkpoint.Ok := .itinHigh (.withCrt h.itinGap.driftRecord.itinRecord rfl)

theorem State.Ok.itinAfter (h : s.Ok) : s.itinAfter.Ok := h.itinHigh.checkpoint.ite h.itinHigh

theorem State.Ok.itinAppend {code part source status subject conts} (h : s.Ok) : (s.itinAppend code part source status subject conts).Ok :=
  h.itinGap.itinRecord.itinAfter.ite (h.withCrt rfl)

theorem State.Ok.itinCommand {code part source status words conts} (h : s.Ok) : (s.itinCommand code part source status words conts).Ok :=
  h.itinAppend

theorem State.Ok.itinEvent {code part status subject conts} (h : s.Ok) : (s.itinEvent code part status subject conts).Ok := h.itinAppend

theorem State.Ok.notifyRecorded {n st part subject detail o addr} (h : s.Ok) : (s.notifyRecorded n st part subject detail o addr).Ok :=
  h.notify.itinEvent

theorem State.Ok.driftEvent (h : s.Ok) : s.driftEvent.Ok := by
  unfold State.driftEvent
  split
  · exact h
  · exact h.itinEvent

theorem State.Ok.driftMask {k p} (h : s.Ok) : (State.driftMask k s p).Ok := h.ite (.notify h.withDtm)

theorem State.Ok.drift {k concerned} (h : s.Ok) : (s.drift k concerned).Ok := by
  dsimp only [State.drift]
  split
  · exact h
  · exact .foldl h.withDtm fun _ _ h => h.driftMask

theorem State.Ok.fail {st} (h : s.Ok) : (KRes.fail s st).Ok := h

theorem State.Ok.check {checks} {go : Unit → KRes} (h : s.Ok) (hgo : (go ()).Ok) : (KRes.check s checks go).Ok := by
  unfold KRes.check
  split
  · exact h
  · exact hgo

theorem State.Ok.setInflight {l} (h : s.Ok) : (s.setInflight l).Ok := h.withCmp rfl rfl

theorem State.Ok.enter {k opcode} (h : s.Ok) : (s.enter k opcode).Ok := h.setInflight

theorem State.Ok.config {opcode words n} (h : s.Ok) : (s.config opcode words n).Ok := h.withCmp rfl rfl

theorem State.Ok.unconfig {p} (h : s.Ok) : (s.unconfig p).Ok := h.withCmp rfl rfl

theorem KRes.Ok.kciEnd {opcode k records conf key} {r : KRes} (hr : r.Ok) : (kciEnd opcode k records conf key r).Ok :=
  (hr.st.config.ite hr.st).setInflight

theorem State.Ok.kciRun {opcode k} {body : State → KRes} {records conf key regions dies} (h : s.Ok) (hbody : ∀ s, s.Ok → (body s).Ok) :
    (kciRun opcode k s body records conf key regions dies).Ok :=
  (h.ite h.enter).ite (((h.ite h.enter).fail.ite (hbody _ (h.ite h.enter))).kciEnd.ite (h.ite h.enter))

theorem State.Ok.progress {opcode key st result} (h : s.Ok) : (s.progress opcode key st result).Ok := h.setInflight

/-! ### PlatCore.lean -/

theorem State.Ok.setPool {d p x} (h : s.Ok) : (s.setPool d p x).Ok := h.withPlt

theorem State.Ok.putPool {d p x} (h : s.Ok) : (s.putPool d p x).Ok := by
  unfold State.putPool
  extract_lets _ s1 _ s2
  have h1 : s1.Ok := h.setPool
  have h2 : s2.Ok := .ite (.notify (.tally (.withPlt h1))) h1
  exact h2.notify.ite h2

theorem State.Ok.platTake {d p w i u} (h : s.Ok) (hu : s.platTake d p w = some (i, u)) : u.Ok := by
  dsimp only [State.platTake] at hu
  split at hu
  · obtain ⟨r, -, hr⟩ := Option.map_eq_some_iff.1 hu
    obtain ⟨-, rfl⟩ := Prod.mk.inj hr
    exact h.putPool
  · cases hu

theorem State.Ok.platHold {d p w} (h : s.Ok) : (s.platHold d p w).Ok := .ite (.drift (.tally h.withPlt)) h

theorem State.Ok.platAlloc {d p w} (h : s.Ok) : (s.platAlloc d p w).Ok := by
  dsimp only [State.platAlloc]
  split
  · rename_i hu
    exact h.platTake hu
  · exact h.platHold.setPool

theorem State.Ok.platGrant {d p} (h : s.Ok) : (s.platGrant d p).Ok := by
  dsimp only [State.platGrant]
  split
  · exact h
  · split
    · rename_i hu
      exact (h.platTake hu).setPool
    · exact h

theorem State.Ok.platFree {d p o i} (h : s.Ok) : (s.platFree d p o i).2.Ok := by
  dsimp only [State.platFree]
  exact .iteSnd h (.iteSnd (.notify (.w1cSet (.tally h.withPlt))) h.putPool)

theorem State.Ok.platFreeAll {d p o is} (h : s.Ok) : (s.platFreeAll d p o is).Ok := h.foldl fun _ _ h => h.platFree

theorem State.Ok.platTakeN {d p w} : ∀ {n s is u}, State.Ok s → s.platTakeN d p w n = some (is, u) → u.Ok
  | 0, s, _, _, h, hu => by
    obtain ⟨-, rfl⟩ := Prod.mk.inj (Option.some.inj hu)
    exact h
  | n + 1, s, _, _, h, hu => by
    unfold State.platTakeN at hu
    split at hu
    · cases hu
    · rename_i ht
      obtain ⟨r, hr, he⟩ := Option.map_eq_some_iff.1 hu
      obtain ⟨-, rfl⟩ := Prod.mk.inj he
      exact (h.platTake ht).platTakeN hr

theorem State.Ok.platReserve {d p o r u} (h : s.Ok) (hu : s.platReserve d p o r = some u) : u.Ok := by
  dsimp only [State.platReserve] at hu
  split at hu
  · cases hu
  · cases hu
    exact h.putPool

/-! ### StkCore.lean -/

theorem State.Ok.setPch {q x} (h : s.Ok) : (s.setPch q x).Ok := h.withStk rfl

theorem State.Ok.setChannel {ch x} (h : s.Ok) : (s.setChannel ch x).Ok := h.withStk rfl

theorem State.Ok.setRowLog {r x} (h : s.Ok) : (s.setRowLog r x).Ok := h.withStk rfl

theorem State.Ok.retireBlock {r} (h : s.Ok) : (s.retireBlock r).Ok := .notifyRecorded (.tally (h.withStk rfl))

theorem State.Ok.repairRow {r} (h : s.Ok) : (s.repairRow r).Ok := by
  dsimp only [State.repairRow]
  split
  · exact h.retireBlock
  · exact h.retireBlock.ite (.notifyRecorded (.tally (.withStk h.setPch.setRowLog rfl)))

theorem State.Ok.triggerRow {r} (h : s.Ok) : (s.triggerRow r).Ok := h.setRowLog.ite h.setRowLog.setPch

theorem State.Ok.maintain {q most} (h : s.Ok) : (s.maintain q most).Ok := .setPch h.withFree

theorem State.Ok.repairDue {q} (h : s.Ok) : (s.repairDue q).Ok := h.setPch.foldl fun _ _ h => h.repairRow

theorem State.Ok.repairSlot {q} (h : s.Ok) : (s.repairSlot q).Ok := h.ite h.repairDue.maintain

theorem State.Ok.countRow {r} (h : s.Ok) : (s.countRow r).Ok := .ite (.triggerRow (h.withStk rfl)) (h.withStk rfl)

theorem State.Ok.correctWord {w} (h : s.Ok) :
    (s.correctWord w).Ok := .countRow (.ite (.tally (h.withStk rfl)) (.setPch (.tally (h.withStk rfl))))

theorem State.Ok.badWord {w} (h : s.Ok) : (s.badWord w).Ok := .triggerRow (.notify (.w1cSet (.tally (h.withStk rfl))))

theorem State.Ok.newErrors {es} (h : s.Ok) : (s.newErrors es).Ok := h.withStk rfl

theorem State.Ok.checkWords {q bad soft} (h : s.Ok) : (s.checkWords q bad soft).2.Ok :=
  ((h.foldl fun _ _ h => h.correctWord).foldl fun _ _ h => h.badWord).repairSlot

theorem State.Ok.store {q b off bs} (h : s.Ok) : State.Ok { s with stk := s.stk.store q b off bs } :=
  h.putStk (Memory.wf_foldl h.mem fun _ _ hm => Memory.wf_ite hm (Memory.write_wf _ _ hm))

theorem State.Ok.stkRead {q b off n} (h : s.Ok) : (s.stkRead q b off n).2.2.Ok := by
  dsimp only [State.stkRead]
  split
  · exact h.checkWords
  · exact h

theorem State.Ok.stkWrite {q b off bs} (h : s.Ok) : (s.stkWrite q b off bs).2.Ok := by
  unfold State.stkWrite
  split
  · exact h.store
  · exact h

theorem State.Ok.viewRead {owner a n} (h : s.Ok) : (s.viewRead owner a n).2.2.Ok := by
  unfold State.viewRead
  split
  · exact h
  · refine .foldlSndSnd h fun _ _ h => ?_
    split
    · exact h.stkRead
    · exact h

theorem State.Ok.unitRead {owner a n} (h : s.Ok) : (s.unitRead owner a n).2.2.Ok := .iteSndSnd h h.viewRead

theorem State.Ok.viewWrite {owner a bs} (h : s.Ok) : (s.viewWrite owner a bs).2.Ok := by
  unfold State.viewWrite
  split
  · exact h
  · refine .foldlSnd h fun _ _ h => ?_
    split
    · exact h.stkWrite
    · exact h

theorem State.Ok.setReqs {l} (h : s.Ok) : (s.setReqs l).Ok := h.withStk rfl

theorem State.Ok.setReq {r} (h : s.Ok) : (s.setReq r).Ok := h.setReqs

theorem State.Ok.dropReq {id} (h : s.Ok) : (s.dropReq id).Ok := h.setReqs

theorem State.Ok.reach {r} (h : s.Ok) : (s.reach r).Ok := by
  dsimp only [State.reach]
  split
  · split
    · exact h.setReqs.store.setReq.ite (h.setReqs.setReq.ite h.setReqs.setReq)
    · exact h.setReqs.setReq
  · exact h.setReqs.setReq

theorem State.Ok.leave {id} (h : s.Ok) : (s.leave id).Ok := by
  dsimp only [State.leave]
  split
  · exact h
  · split
    · refine .ite (.reach ?_) h
      split
      · exact h.platFree
      · exact h
    · exact h.reach

theorem State.Ok.memCancel {p} (h : s.Ok) : (s.memCancel p).Ok := by
  dsimp only [State.memCancel]
  refine (h.foldl fun _ _ h => ?_).setReqs
  split
  · exact h.platFree
  · exact h

theorem State.Ok.memTake {r} (h : s.Ok) : (s.memTake r).Ok := by
  unfold State.memTake
  refine h.ite ?_
  split
  · rename_i hu
    exact (h.platTake hu).setReq
  · exact h

theorem State.Ok.portStop {r} (h : s.Ok) : (s.portStop r).Ok := .drift (.tally h.withPlt)

theorem State.Ok.portWait {id} (h : s.Ok) : (s.portWait id).Ok := by
  dsimp only [State.portWait]
  split
  · exact (h.drift.memTake.portStop.ite (h.drift.memTake.platHold.ite h.drift.memTake)).ite h
  · exact h

theorem State.Ok.setFarPort {p x} (h : s.Ok) : (s.setFarPort p x).Ok := h.withFar

theorem State.Ok.farLose {r} (h : s.Ok) : (s.farLose r).Ok := by
  dsimp only [State.farLose]
  refine .setReq ?_
  split
  · exact .ite (.drift (.tally h.withFar)) (.tally h.withFar)
  · exact .tally h.withFar

theorem State.Ok.memLost {r} (h : s.Ok) : (s.memLost r).Ok := by
  dsimp only [State.memLost]
  split
  · exact .farLose (h.withStk rfl)
  · exact .setReq (h.withStk rfl)

theorem State.Ok.farLeave {id} (h : s.Ok) : (s.farLeave id).Ok := by
  unfold State.farLeave
  split
  · exact h
  · split
    · exact h.farLose.ite (h.setReqs.setReq.ite h)
    · exact h

theorem State.Ok.pinLeave {id} (h : s.Ok) : (s.pinLeave id).Ok := by
  dsimp only [State.pinLeave]
  split
  · exact h
  · split
    · exact .ite (.setReq (.tally (h.putAtl (Memory.wf_foldl h.pinned fun _ _ hm => Memory.wf_ite hm (Memory.write_wf _ _ hm))))) h.setReq
    · exact h

theorem State.Ok.leaveOther {r} (h : s.Ok) : (s.leaveOther r).Ok := by
  unfold State.leaveOther
  refine h.ite ?_
  split
  · exact h
  · exact h.farLeave
  · exact h.pinLeave

theorem State.Ok.portResume {id} (h : s.Ok) : (s.portResume id).Ok := by
  dsimp only [State.portResume]
  split
  · exact h
  · split
    · split
      · exact h.leave.memTake.ite h.leave
      · exact h.leave
    · exact h.leaveOther

theorem State.Ok.portsResume (h : s.Ok) : s.portsResume.Ok := h.foldl fun _ _ h => h.portResume

theorem State.Ok.memSend {r} (h : s.Ok) : (s.memSend r).Ok := by
  dsimp only [State.memSend]
  split
  · exact .portWait (.leave (h.withStk rfl))
  · exact .ite (.portStop (h.withStk rfl)) (.leaveOther (h.withStk rfl))

theorem State.Ok.spillMem {die port a n data} (h : s.Ok) : (s.spillMem die port a n data).Ok := h.foldl fun _ _ h => h.memSend

theorem State.Ok.ringTouch {die write is} (h : s.Ok) : (s.ringTouch die write is).Ok := h.foldl fun _ _ h => h.foldl fun _ _ h => h.memSend

theorem State.Ok.ringMem {die base size pos n data} (h : s.Ok) :
    (s.ringMem die base size pos n data).Ok := h.spillMem.spillMem.ite h.spillMem

theorem State.Ok.setBank {b x} (h : s.Ok) : (s.setBank b x).Ok := h.withAtl rfl

theorem State.Ok.pinOn {die off n} (h : s.Ok) : (s.pinOn die off n).Ok := h.foldl fun _ _ h => h.ite h.setBank.progress

/-! ### Mesh.lean -/

theorem State.Ok.meshWaits {p} (h : s.Ok) : (s.meshWaits p).Ok := (h.fresh.foldl fun _ _ h => h.drift).ite h

theorem State.Ok.toMesh {m} (h : s.Ok) : (s.toMesh m).Ok := .foldl (h.withGrid rfl) fun _ _ h => h.meshWaits

theorem State.Ok.setMer {m} (h : s.Ok) : (s.setMer m).Ok := h.withMer

theorem State.Ok.stir {p} (h : s.Ok) : (s.stir p).Ok := h.setMer

theorem State.Ok.merSend {x} (h : s.Ok) : (s.merSend x).Ok := (h.foldl fun _ _ h => h.stir).setMer

theorem State.Ok.tileSignal {t obj strand src clear} (h : s.Ok) : (s.tileSignal t obj strand src clear).Ok := h.merSend

/-! ### GazCore.lean -/

theorem State.Ok.setGaz {g} (h : s.Ok) : (s.setGaz g).Ok := h.withGaz

theorem State.Ok.countGaz {i n} (h : s.Ok) : (s.countGaz i n).Ok := h.setGaz.tally

theorem State.Ok.gazRowIssue {r i row} (h : s.Ok) : (s.gazRowIssue r i row).2.Ok := by
  dsimp only [State.gazRowIssue]
  split
  · exact h
  · split
    · exact h
    · split
      · exact h.countGaz.memLost
      · exact h.countGaz.foldl fun _ _ h => h.memSend

theorem State.Ok.gazIssue : ∀ {n s r}, State.Ok s → (State.gazIssue n s r).2.Ok
  | 0, _, _, h => h
  | n + 1, s, r, h => by
    dsimp only [State.gazIssue]
    split
    · exact h
    · exact (h.gazRowIssue.countGaz.ite h.gazRowIssue).gazIssue

theorem State.Ok.gazAccept {r} (h : s.Ok) : (s.gazAccept r).Ok := .setGaz (.iteSnd h.countGaz h.countGaz.gazIssue)

theorem State.Ok.setGazReq {r} (h : s.Ok) : (s.setGazReq r).Ok := h.setGaz

theorem State.Ok.gazEnd {r} (h : s.Ok) : (s.gazEnd r).Ok := by
  dsimp only [State.gazEnd]
  refine h.setGaz.foldl fun _ _ h => ?_
  split
  · exact h.setGaz.progress.progress.ite h
  · exact h

theorem State.Ok.gazWait {die part} (h : s.Ok) : (s.gazWait die part).Ok := h.drift.ite h

theorem State.Ok.gazRowDone {r i st bs e u} (h : s.Ok) (hu : s.gazRowDone r i = some (st, bs, e, u)) : u.Ok := by
  dsimp only [State.gazRowDone] at hu
  split at hu
  · cases hu
  · cases hu
    exact h.foldl fun _ _ h => h.dropReq

/-! ### FabCore.lean -/

theorem State.Ok.setFab {f} (h : s.Ok) : (s.setFab f).Ok := h.withFab

theorem State.Ok.setPort {p x} (h : s.Ok) : (s.setPort p x).Ok := h.setFab

theorem State.Ok.setSub {l x} (h : s.Ok) : (s.setSub l x).Ok := h.setFab

theorem State.Ok.onSub {l f} (h : s.Ok) : (s.onSub l f).Ok := h.setSub

theorem State.Ok.onCtr {l f} (h : s.Ok) : (s.onCtr l f).Ok := h.onSub

theorem State.Ok.tallyCtr {l i} (h : s.Ok) : (s.tallyCtr l i).Ok := h.tally

theorem State.Ok.countSub {l i n} (h : s.Ok) : (s.countSub l i n).Ok := h.onSub.tally

theorem State.Ok.fecIn {l corr uncorr} (h : s.Ok) : (s.fecIn l corr uncorr).Ok := h.ite h.countSub.countSub

theorem State.Ok.drop {l cause n} (h : s.Ok) : (s.drop l cause n).Ok := h.ite h.countSub.onSub

theorem State.Ok.creditBack {from_ vc n} (h : s.Ok) : (s.creditBack from_ vc n).Ok := by
  unfold State.creditBack
  split
  · exact h.ite h.onSub
  · exact h

theorem State.Ok.ingressPop {l} (h : s.Ok) : (s.ingressPop l).Ok := by
  dsimp only [State.ingressPop]
  split
  · exact h.setSub.creditBack
  · exact h

theorem State.Ok.setTrv {d x} (h : s.Ok) : (s.setTrv d x).Ok := h.setFab

theorem State.Ok.countTrv {d i n} (h : s.Ok) : (s.countTrv d i n).Ok := h.setTrv.tally

theorem State.Ok.countWpt {i n} (h : s.Ok) : (s.countWpt i n).Ok := h.setFab.tally

theorem State.Ok.noteDead {die v dest} (h : s.Ok) : (s.noteDead die v dest).Ok := h.ite h.setFab.notify

theorem State.Ok.markDead {die v dest} (h : s.Ok) : (s.markDead die v dest).Ok := h.setFab.noteDead

theorem State.Ok.unmark (h : s.Ok) : s.unmark.Ok := h.setFab

theorem State.Ok.markLost {l} (h : s.Ok) : (s.markLost l).Ok := h.setFab

theorem State.Ok.setLoad {l} (h : s.Ok) : (s.setLoad l).Ok := h.setFab

theorem State.Ok.cellLaunched {id idx} (h : s.Ok) : (s.cellLaunched id idx).Ok := by
  dsimp only [State.cellLaunched]
  split
  · exact h
  · refine .setLoad (.creditBack ?_)
    split
    · exact h.platFreeAll
    · exact h

theorem State.Ok.endLoad {l} (h : s.Ok) : (s.endLoad l).Ok := by
  dsimp only [State.endLoad]
  refine .setFab (.creditBack ?_)
  split
  · exact h.platFreeAll
  · exact h

theorem State.Ok.copyDone {id tgt st} (h : s.Ok) : (s.copyDone id tgt st).Ok := by
  dsimp only [State.copyDone]
  split
  · exact h
  · exact h.setFab.endLoad.ite h.setFab.setLoad

theorem State.Ok.setOutQ {k q} (h : s.Ok) : (s.setOutQ k q).Ok := h.setFab

theorem State.Ok.easeStop {k} (h : s.Ok) : (s.easeStop k).Ok := h.setOutQ.ite h

theorem State.Ok.setStop {k} (h : s.Ok) : (s.setStop k).Ok := h.ite h.setOutQ.countTrv

theorem State.Ok.pushCell {k c} (h : s.Ok) : (s.pushCell k c).Ok := h.setOutQ

theorem State.Ok.headroomCell {k part c} (h : s.Ok) : (s.headroomCell k part c).Ok := by
  dsimp only [State.headroomCell]
  split
  · rename_i hu
    exact (h.setStop.platTake hu).pushCell
  · exact h.setStop.pushCell

theorem State.Ok.chipCell {k part c} (h : s.Ok) : (s.chipCell k part c).Ok := by
  dsimp only [State.chipCell]
  split
  · rename_i hu
    exact (h.platTake hu).pushCell.setStop.ite (h.platTake hu).pushCell
  · exact h.headroomCell

theorem State.Ok.spillCell {k part c} (h : s.Ok) : (s.spillCell k part c).Ok := by
  unfold State.spillCell
  extract_lets _ go
  have hgo : ∀ s, State.Ok s → (go s).Ok := by
    refine fun _ h => .ite (.setStop (.drift (.countTrv (.pushCell (.setOutQ ?_))))) (.drift (.countTrv (.pushCell (.setOutQ ?_))))
    · split
      · exact h.spillMem
      · exact h
    · split
      · exact h.spillMem
      · exact h
  refine (hgo _ h).ite (h.headroomCell.ite ?_)
  split
  · rename_i hu
    exact hgo _ (h.platTake hu).setOutQ.ringTouch
  · exact h.headroomCell

theorem State.Ok.queueCell {l idx tgt lport} (h : s.Ok) : (s.queueCell l idx tgt lport).Ok := by
  unfold State.queueCell
  extract_lets _ _ _ _ s1 _ s2 _ _ s3
  have h1 : s1.Ok := h.countTrv.ite h
  have h2 : s2.Ok := h1.drift.ite h1
  have h3 : s3.Ok := h2.onCtr.ite h2
  exact h3.headroomCell.ite (h3.spillCell.ite h3.chipCell)

theorem State.Ok.freeCell {k c} (h : s.Ok) : (s.freeCell k c).Ok := by
  unfold State.freeCell
  split
  · exact h.platFree
  · exact h

theorem State.Ok.spillFree {k is} (h : s.Ok) : (s.spillFree k is).Ok := h.platFreeAll.ringTouch

theorem State.Ok.takeCells {k p} (h : s.Ok) : (s.takeCells k p).Ok :=
  ((h.setOutQ.foldl fun _ _ h => h.freeCell).ite (h.setOutQ.foldl fun _ _ h => h.freeCell).spillFree.setOutQ).easeStop

theorem State.Ok.skipCopy {id tgt lport} (h : s.Ok) : (s.skipCopy id tgt lport).Ok := h.countTrv.copyDone

theorem State.Ok.fencedFlit {l p} (h : s.Ok) : (s.fencedFlit l p).Ok := h.countTrv.ite h.drop

theorem State.Ok.discardQueued {l cause} (h : s.Ok) : (s.discardQueued l cause).Ok := by
  unfold State.discardQueued
  extract_lets _ _ s1 gone s2 s3 s4
  have h1 : s1.Ok := h.foldl fun _ _ h => h.takeCells
  have hgone : ∀ s a1 a2, State.Ok s → (gone s a1 a2).Ok := by
    refine fun _ _ _ h => ?_
    dsimp only [gone]
    split
    · exact h.setLoad
    · exact h
  have h2 : s2.Ok := by
    refine h1.foldl fun _ _ h => (hgone _ _ _ h).copyDone.ite ?_
    split
    · exact (hgone _ _ _ h).skipCopy.ite (hgone _ _ _ h).drop.copyDone
    · exact hgone _ _ _ h
  have h3 : s3.Ok := by
    dsimp only [s3]
    clear_value *
    split
    · refine h2.ite ?_
      split
      · exact (hgone _ _ _ h2).copyDone
      · exact h2
    · exact h2
  have h4 : s4.Ok := h3.foldl fun _ _ h => h.fencedFlit
  exact h4.onSub

theorem State.Ok.ctrlSend {line inPort f} (h : s.Ok) : (s.ctrlSend line inPort f).Ok := h.setFab

theorem State.Ok.rxTake {l n} (h : s.Ok) : (s.rxTake l n).2.Ok := by
  unfold State.rxTake
  split
  · rcases hu : s.platTakeN _ _ _ n with _ | ⟨is, u⟩
    · exact h
    · exact h.platTakeN hu
  · exact h

theorem State.Ok.enqueue {l here} (h : s.Ok) : (s.enqueue l here).Ok := h.rxTake.setFab

theorem State.Ok.cellArrive {id n bytes} (h : s.Ok) : (s.cellArrive id n bytes).Ok := by
  dsimp only [State.cellArrive]
  split
  · exact h
  · split
    · exact h
    · exact h.rxTake.setLoad.setFab

theorem State.Ok.cutLoad {lport id} (h : s.Ok) : (s.cutLoad lport id).Ok := by
  unfold State.cutLoad
  split
  · exact h
  · extract_lets _ s1 s2
    have h1 : s1.Ok := h.setFab
    have h2 : s2.Ok := by
      refine h1.foldl fun _ _ h => ?_
      split
      · exact h.takeCells.onSub
      · exact h
    split
    · exact h2.endLoad.drop
    · exact h2

theorem State.Ok.unrouted {e p} (h : s.Ok) : (s.unrouted e p).Ok := h.countWpt.creditBack

theorem State.Ok.admitTo {e p outs mcast} (h : s.Ok) : (s.admitTo e p outs mcast).Ok := by
  unfold State.admitTo
  refine h.enqueue.ite ?_
  split
  · exact h
  · exact h.ctrlSend.foldl fun _ _ h => h.ctrlSend

theorem State.Ok.forward {e p} {go : State → Packet → State} (h : s.Ok) (hgo : ∀ s a1, s.Ok → (go s a1).Ok) : (s.forward e p go).Ok := by
  dsimp only [State.forward]
  refine (hgo _ _ h).ite (.ite (.creditBack (.notify ?_)) (hgo _ _ h))
  split
  · exact h.drop
  · exact h

theorem State.Ok.admitRaw {e p} (h : s.Ok) : (s.admitRaw e p).Ok := by
  unfold State.admitRaw
  split
  · exact h.admitTo
  · split
    · exact h.unrouted
    · extract_lets _ _ go
      have hgo : ∀ s a1, State.Ok s → (go s a1).Ok := fun _ _ h => h.admitTo.setFab.ite h.admitTo
      exact h.unrouted.ite ((h.forward fun _ _ h => hgo _ _ h).ite (hgo _ _ h))
    · refine h.forward fun _ _ h => h.setFab.noteDead.unrouted.ite ?_
      split
      · exact h.markDead.unrouted
      · extract_lets _ s1
        have h1 : s1.Ok := by
          dsimp only [s1]
          split
          · exact h.setFab
          · exact h
        exact h1.admitTo
    · refine h.unrouted.ite ?_
      split
      · exact h.unrouted
      · exact h.admitTo

theorem State.Ok.toAccel {lport p part} (h : s.Ok) : (s.toAccel lport p part).Ok := h.drop.ite (h.setFab.foldl fun _ _ h => h.queueCell)

theorem State.Ok.accelStatus {lport p st} (h : s.Ok) : (s.accelStatus lport p st).Ok := h.toAccel

theorem State.Ok.flowSeq {src dest vc} (h : s.Ok) : (s.flowSeq src dest vc).2.Ok := by
  dsimp only [State.flowSeq]
  split
  · exact h.setFab
  · exact h.setFab

theorem State.Ok.serviceSeq {src dest vc} (h : s.Ok) : (s.serviceSeq src dest vc).2.Ok := h.flowSeq

theorem State.Ok.storeBytes {l bytes} (h : s.Ok) : (s.storeBytes l bytes).Ok := h.ringMem.onSub

theorem State.Ok.storeWrite {l p} (h : s.Ok) : (s.storeWrite l p).Ok := h.storeBytes

theorem State.Ok.putFlow {f} (h : s.Ok) : (s.putFlow f).Ok := h.setFab

theorem State.Ok.copyData {l c bytes last} (h : s.Ok) : (s.copyData l c bytes last).Ok := by
  dsimp only [State.copyData]
  split
  · exact h
  · exact h.ite h.storeBytes.putFlow

theorem State.Ok.delFlow {f} (h : s.Ok) : (s.delFlow f).Ok := h.setFab

/-! ### CflCore.lean -/

theorem State.Ok.setCfl {c} (h : s.Ok) : (s.setCfl c).Ok := h.withCfl

theorem State.Ok.setGroup {g x} (h : s.Ok) : (s.setGroup g x).Ok := h.setCfl

theorem State.Ok.setRun {r} (h : s.Ok) : (s.setRun r).Ok := h.setCfl

theorem State.Ok.countCfl {i n} (h : s.Ok) : (s.countCfl i n).Ok := h.setCfl.tally

theorem State.Ok.cflCtl {g dst head payload} (h : s.Ok) : (s.cflCtl g dst head payload).Ok := h.admitRaw

theorem State.Ok.cflFree {g rank buf} (h : s.Ok) : (s.cflFree g rank buf).Ok := by
  unfold State.cflFree
  split
  · exact h
  · extract_lets _ s1
    have h1 : s1.Ok := h.platFree
    generalize hr : List.foldl _ _ _ = r
    have h2 : r.2.Ok := by
      rw [← hr]
      refine State.Ok.foldlSnd h1 fun _ _ h => ?_
      split
      · rename_i hu
        exact (h.platTake hu).setCfl
      · exact h
    refine h2.ite ?_
    clear_value *
    split
    · exact h2.toAccel
    · exact h2.cflCtl

theorem State.Ok.cflLaunch {g rank p} (h : s.Ok) : (s.cflLaunch g rank p).Ok := h.flowSeq.admitRaw

theorem State.Ok.cflDrain {g} : ∀ {n s k}, State.Ok s → (State.cflDrain g n s k).Ok
  | 0, _, _, h => h
  | n + 1, s, k, h => by
    unfold State.cflDrain
    split
    · exact h
    · exact .ite (h.ite h.setCfl.countCfl) h.setCfl.cflLaunch.cflFree.cflDrain

theorem State.Ok.cflBlock {g r dst kind tree seg blk src payload buf} (h : s.Ok) :
    (s.cflBlock g r dst kind tree seg blk src payload buf).Ok :=
  h.cflLaunch.cflFree.ite (h.setCfl.countCfl.ite h.setCfl).cflDrain

theorem State.Ok.cflDrainAll {g rank} (h : s.Ok) : (s.cflDrainAll g rank).Ok := h.foldl fun _ _ h => h.cflDrain

theorem State.Ok.cflSettle {n} (h : s.Ok) : (s.cflSettle n).2.Ok := h.setReqs

theorem State.Ok.cflSend {g run what data a n part} (h : s.Ok) : (s.cflSend g run what data a n part).2.Ok := by
  unfold State.cflSend
  split
  · exact h
  · exact (h.foldl fun _ _ h => h.memSend).cflSettle

theorem State.Ok.memberRead {g rank a n} (h : s.Ok) : (s.memberRead g rank a n).2.2.Ok := by
  unfold State.memberRead
  split
  · exact h
  · exact .iteSndSnd h h.viewRead
  · exact h

theorem State.Ok.memberWrite {g r what a bs part} (h : s.Ok) : (s.memberWrite g r what a bs part).2.Ok := by
  unfold State.memberWrite
  split
  · exact h.hostWrite
  · exact .iteSnd h h.cflSend
  · exact h.foldl fun _ _ h => h.toAccel
  · exact h

theorem State.Ok.cflWrite {g r p bytes} (h : s.Ok) : (s.cflWrite g r p bytes).2.Ok := by
  dsimp only [State.cflWrite]
  split
  · exact h
  · exact .memberWrite (.iteSnd h h.memberRead)

theorem State.Ok.cflDeliver {g r st ws} (h : s.Ok) : (s.cflDeliver g r st ws).Ok := by
  unfold State.cflDeliver
  extract_lets _ s1
  have h1 : s1.Ok := by
    dsimp only [s1]
    split
    · exact h.toAccel
    · exact h.memberWrite
  split
  · exact h1.progress
  · extract_lets s2
    have h2 : s2.Ok := h1.toMesh
    exact h2.merSend.ite h2
  · exact h1

theorem State.Ok.cflScramble {g r} (h : s.Ok) : (s.cflScramble g r).Ok := h.foldl fun _ _ h => .cflWrite h.withFree

theorem State.Ok.cflFarSats {g r} (h : s.Ok) : (s.cflFarSats g r).2.Ok := by
  dsimp only [State.cflFarSats]
  exact .iteSnd h.withFree h

theorem State.Ok.cflAbortDone {g seq} (h : s.Ok) : (s.cflAbortDone g seq).Ok := h.ite h.progress

theorem State.Ok.cflEnd {g r st by_} (h : s.Ok) : (s.cflEnd g r st by_).Ok := by
  unfold State.cflEnd
  extract_lets _ s1 _ _ _ s2 s3 s4 s5
  have h1 : s1.Ok := h.setCfl
  have h2 : s2.Ok := h1.setCfl
  have h3 : s3.Ok := h2.foldl fun _ _ h => h.cflFree
  have h4 : s4.Ok := h3.cflDrainAll
  have h5 : s5.Ok := h4.cflScramble.ite h4
  split
  · extract_lets s6
    have h6 : s6.Ok := by
      rename_i hu
      exact (State.Ok.ofSnd hu h5.cflFarSats).cflDeliver
    split
    · exact h6.cflAbortDone
    · exact h6

theorem State.Ok.cflAbort {g seq st by_ from_ raised here addr shown} (h : s.Ok) :
    (s.cflAbort g seq st by_ from_ raised here addr shown).Ok := by
  unfold State.cflAbort
  extract_lets _ _ _ _ _ _ s1 s2 s3 _ s4 _ s5 s6
  have h1 : s1.Ok := h.countCfl.setCfl
  have h2 : s2.Ok := h1.w1cSet
  have h3 : s3.Ok := h2.countCfl.ite h2
  have h4 : s4.Ok := h3.notify.itinEvent
  have h5 : s5.Ok := h4.foldl fun _ _ h => h.cflCtl
  have h6 : s6.Ok := h5.foldl fun _ _ h => h.cflEnd
  exact (h6.setCfl.ite h6.setGroup).ite h6

theorem State.Ok.cflConfirm {g r} (h : s.Ok) : (s.cflConfirm g r).Ok := h.setRun.foldl fun _ _ h => h.cflCtl

theorem State.Ok.cflRound {id} (h : s.Ok) : (s.cflRound id).Ok := by
  dsimp only [State.cflRound]
  split
  · exact h
  · split
    · exact h
    · refine h.ite ?_
      split
      · exact h.setRun.cflConfirm
      · exact h.setRun.cflCtl

theorem State.Ok.cflSat {r tree n} (h : s.Ok) : (s.cflSat r tree n).Ok := h.setCfl.countCfl

theorem State.Ok.cflCombine {id tree seg j p1 u} (h : s.Ok) (hu : s.cflCombine id tree seg j p1 = some u) : u.Ok := by
  unfold State.cflCombine at hu
  simp only [Option.bind_eq_bind, Option.bind_eq_some_iff] at hu
  obtain ⟨r, -, g, -, made, -, hu⟩ := hu
  split at hu
  · cases hu
    exact h.cflAbort
  · cases hu
    refine .cflDrainAll (.foldl ?_ fun _ _ h => h.cflFree)
    split
    · split
      · exact h.setRun.cflCtl.ite h.setRun.cflBlock
      · exact h.setRun
    · exact h.setRun.setRun.cflSat
    · exact h.setRun.setRun.ite h.setRun.cflBlock
    · exact h.setRun.cflAbort

/-! ### SheetCore.lean -/

theorem State.Ok.setSht {x} (h : s.Ok) : (s.setSht x).Ok := h.withSht

theorem State.Ok.countSht {i n} (h : s.Ok) : (s.countSht i n).Ok := h.setSht.tally

theorem State.Ok.shtReply {o w data} (h : s.Ok) : (s.shtReply o w data).Ok := by
  unfold State.shtReply
  split
  · exact h.toMesh
  · exact h.toAccel

theorem State.Ok.shtUnkeep {o} (h : s.Ok) : (s.shtUnkeep o).Ok := by
  unfold State.shtUnkeep
  split
  · split
    · exact h.putFlow
    · exact h
  · exact h

theorem State.Ok.setShtFlow {f} (h : s.Ok) : (s.setShtFlow f).Ok := h.setSht

theorem State.Ok.shtFinish {o st mark inter casFail data} (h : s.Ok) : (s.shtFinish o st mark inter casFail data).Ok :=
  (h.setSht.setShtFlow.ite h.setSht).shtUnkeep.shtReply

theorem State.Ok.shtEnd {o st} (h : s.Ok) : (s.shtEnd o st).Ok := h.shtFinish

theorem State.Ok.shtEmit {o} (h : s.Ok) : (s.shtEmit o).Ok := by
  dsimp only [State.shtEmit]
  split
  · exact h.setFab
  · exact h.admitRaw

theorem State.Ok.shtKeep {o} (h : s.Ok) : (s.shtKeep o).Ok := by
  dsimp only [State.shtKeep]
  split
  · exact h.storeWrite.putFlow
  · exact h

theorem State.Ok.shtSend {o} (h : s.Ok) : (s.shtSend o).Ok := (h.setSht.setShtFlow.ite h.setSht).shtKeep.shtEmit

theorem State.Ok.shtPump {src} (h : s.Ok) : (s.shtPump src).Ok := h.foldl fun _ _ h => h.shtSend

theorem State.Ok.shtRefused {o owner st plp} (h : s.Ok) : (s.shtRefused o owner st plp).Ok :=
  h.setSht.countSht.ite (h.setSht.countSht.ite (h.setSht.countSht.ite h.setSht))

theorem State.Ok.shtCrowd (h : s.Ok) : s.shtCrowd.Ok := h.setSht.foldl fun _ _ h => h.drift

theorem State.Ok.shtAccept {o} (h : s.Ok) : (s.shtAccept o).Ok := h.setSht.shtCrowd.shtPump

theorem State.Ok.shtHold {o} (h : s.Ok) : (s.shtHold o).Ok := h.shtCrowd.ite h.setSht.shtCrowd

theorem State.Ok.combineSent {load} (h : s.Ok) : (s.combineSent load).Ok := h.setSht

theorem State.Ok.shtAnswer {o p u} (h : s.Ok) (hu : s.shtAnswer o = some (p, u)) : u.Ok := by
  obtain ⟨r, -, hr⟩ := Option.map_eq_some_iff.1 hu
  obtain ⟨-, rfl⟩ := Prod.mk.inj hr
  exact h.setFab

theorem State.Ok.shtComplete {o p} (h : s.Ok) : (s.shtComplete o p).Ok := (h.drift.ite h).shtFinish

theorem State.Ok.shtPumpAll {ops} (h : s.Ok) : (s.shtPumpAll ops).Ok := h.foldl fun _ _ h => h.shtPump

theorem State.Ok.shtLose {m} (h : s.Ok) : (s.shtLose m).Ok := by
  unfold State.shtLose
  refine State.Ok.shtPumpAll (.ite (.notify ?_) (.foldl ?_ fun _ _ h => h.notify)) <;>
  · refine (h.foldl fun _ _ h => ?_).setSht.foldl fun _ _ h => h.countSht.shtEnd
    split
    · rename_i hu
      exact (h.shtAnswer hu).shtComplete
    · exact h

theorem State.Ok.shtScan (h : s.Ok) : s.shtScan.Ok := h.foldl fun _ _ h => h.shtLose.ite h

theorem State.Ok.shtRouteBack (h : s.Ok) : s.shtRouteBack.Ok := h.setSht

/-! ### CflFlow.lean -/

theorem State.Ok.cflPass {g r x j} (h : s.Ok) : (s.cflPass g r x j).Ok := by
  unfold State.cflPass
  extract_lets _ _ _ _ s1
  have h1 : s1.Ok := h.foldl fun _ _ h => h.foldl fun _ _ h => h.cflBlock
  refine h.ite ?_
  split
  · exact h.cflAbort
  · refine (h.foldl fun _ _ h => h.cflFree).ite ((h.foldl fun _ _ h => h.cflCtl).ite ?_)
    exact (h1.foldl fun _ _ h => h.cflFree).ite (h.foldl fun _ _ h => h.cflBlock)

theorem State.Ok.cflForward {id} (h : s.Ok) : (s.cflForward id).Ok := by
  dsimp only [State.cflForward]
  split
  · exact h
  · split
    · exact h
    · refine h.foldl fun _ _ h => ?_
      split
      · exact h
      · split
        · exact h
        · exact h.ite (h.setRun.foldl fun _ _ h => h.cflPass)

theorem State.Ok.cflStore {id} (h : s.Ok) : (s.cflStore id).Ok := by
  unfold State.cflStore
  split
  · exact h
  · split
    · exact h
    · refine h.ite (h.foldl fun _ _ h => ?_)
      split
      · exact h
      · refine h.ite ?_
        split
        · exact h
        · exact (h.setRun.cflWrite.ite h.setRun.cflWrite.setRun.cflAbort).ite h

theorem State.Ok.cflFinish {id} (h : s.Ok) : (s.cflFinish id).Ok := by
  unfold State.cflFinish
  split
  · exact h
  · split
    · exact h
    · exact h.cflEnd.ite h

theorem State.Ok.cflScalar : ∀ {n s id}, State.Ok s → (State.cflScalar n s id).Ok
  | 0, _, _, h => h
  | n + 1, s, id, h => by
    unfold State.cflScalar
    split
    · exact h
    · refine h.ite ?_
      split
      · rename_i hu
        obtain ⟨_, _, hc⟩ := List.exists_of_findSome?_eq_some hu
        exact (h.cflCombine hc).cflScalar
      · exact h

theorem State.Ok.cflStep {id} (h : s.Ok) : (s.cflStep id).Ok := by
  dsimp only [State.cflStep]
  split
  · exact h.cflRound.cflScalar.cflForward.cflStore
  · refine .foldl ?_ fun _ _ h => h.cflFinish
    split
    · exact h.cflRound.cflScalar.cflForward.cflStore.cflDrainAll
    · exact h.cflRound.cflScalar.cflForward.cflStore

theorem State.Ok.cflTake {g r p buf} (h : s.Ok) : (s.cflTake g r p buf).Ok := by
  unfold State.cflTake
  extract_lets _ _ _ _ _ _ s1
  have h1 : s1.Ok := h.setRun
  refine h1.cflFree.cflAbort.ite (h1.setRun.ite (h1.cflConfirm.ite (.ite ?_ (.ite ?_ (h1.setRun.cflFree.ite h1.setRun)))))
  · split
    · exact h1.cflFree.cflAbort
    · exact h1.setRun.cflFree
  · split
    · exact h1.setRun.cflBlock
    · exact h1.setRun

theorem State.Ok.cflArrive {g rank p} {after : State → ℕ → State} (h : s.Ok) (hafter : ∀ s a1, s.Ok → (after s a1).Ok) :
    (s.cflArrive g rank p after).Ok := by
  dsimp only [State.cflArrive]
  split
  · refine hafter _ _ (.cflTake ?_)
    split
    · exact h.setCfl
    · exact h
  · refine .ite (.setCfl ?_) (.cflFree ?_)
    · split
      · exact h.setCfl
      · exact h
    · split
      · exact h.setCfl
      · exact h

theorem State.Ok.cflRows {q run} (h : s.Ok) : (s.cflRows q run).Ok := by
  unfold State.cflRows
  split
  · exact h.gazEnd
  · split
    · exact h.gazEnd
    · split
      · exact h.gazEnd.cflAbort
      · exact h.setRun.gazEnd.cflStep.ite h

theorem State.Ok.cflPoolTaken {q run} (h : s.Ok) : (s.cflPoolTaken q run).Ok := by
  dsimp only [State.cflPoolTaken]
  split
  · exact h
  · split
    · exact h
    · refine h.cflAbort.ite ?_
      split
      · exact h.gazAccept.cflRows
      · exact h.gazAccept

theorem State.Ok.cflPool {g r} (h : s.Ok) : (s.cflPool g r).Ok := h.setGaz.setGaz.gazWait.ite h.setGaz.cflPoolTaken

theorem State.Ok.cflSource {g r} (h : s.Ok) : (s.cflSource g r).2.2.Ok := by
  dsimp only [State.cflSource]
  refine .iteSndSnd h (.iteSndSnd ?device (.iteSndSnd ?pool ?host))
  case device => exact .iteSndSnd h.cflSend h.cflSend.cflSend
  case pool => exact .iteSndSnd h.memberRead h.memberRead.memberRead
  case host => exact .iteSndSnd h.memberRead h.memberRead.memberRead

theorem State.Ok.cflAccelPool {id} (h : s.Ok) : (s.cflAccelPool id).Ok := by
  dsimp only [State.cflAccelPool]
  split
  · exact h
  · split
    · exact h
    · exact h.cflPool.ite h

theorem State.Ok.cflAudit {g r q} (h : s.Ok) : (s.cflAudit g r q).Ok := h.itinEvent.ite h

theorem State.Ok.cflEarly {g r q} (h : s.Ok) : (s.cflEarly g r q).1.Ok := h.setCfl

theorem State.Ok.cflDropEarly {g r q} (h : s.Ok) : (s.cflDropEarly g r q).Ok := h.cflEarly.foldl fun _ _ h => h.cflFree

theorem State.Ok.cflBegin {g r} (h : s.Ok) : (s.cflBegin g r).Ok := by
  unfold State.cflBegin
  extract_lets q _ g' s1
  have h1 : s1.Ok := h.cflAudit.setGroup
  clear_value s1
  split
  rename_i fr s2 hu
  have h2 : s2.Ok := State.Ok.ofSnd hu (.iteSnd h1.withFree h1)
  extract_lets r1 s3
  have h3 : s3.Ok := h2.setRun
  clear_value s3
  split
  · exact (h3.setCfl.ite h3).cflDropEarly.cflEnd
  · refine h3.cflDropEarly.cflAbort.ite ?_
    split
    rename_i st r2 u hu
    extract_lets s4
    have h4 : s4.Ok := (State.Ok.ofSndSnd hu h3.cflSource).setRun
    clear_value s4
    refine h4.cflDropEarly.cflAbort.ite ?_
    split
    rename_i s5 mine hu
    extract_lets s6 s7
    have h5 := h4.cflEarly (g := g') (r := r2) (q := q)
    rw [hu] at h5
    have h6 : s6.Ok := h5.foldl fun _ _ h => by
      split
      · exact h.cflTake
      · exact h.cflFree
    have h7 : s7.Ok := by
      dsimp only [s7]
      split
      · exact h6.cflPool.ite h6
      · exact h6
    exact h7.cflAccelPool.cflStep

theorem State.Ok.cflFetched {g r} (h : s.Ok) : (s.cflFetched g r).Ok :=
  h.setRun.cflStep.ite ((h.setRun.cflSend.ite h.setRun.cflSend.cflAbort).ite (h.ite h.cflPool))

theorem State.Ok.cflMemDone {q run what off st} (h : s.Ok) : (s.cflMemDone q run what off st).Ok := by
  unfold State.cflMemDone
  split
  · exact h
  · split
    · exact h
    · exact h.setRun.cflAbort.ite (h.setRun.cflStep.ite (h.setRun.ite h.setRun.cflFetched))

theorem State.Ok.cflStart {gid rank} (h : s.Ok) : (s.cflStart gid rank).Ok := by
  unfold State.cflStart
  split
  · exact h.cflBegin.ite h
  · exact h

theorem State.Ok.cflSubmit {g rank words via} (h : s.Ok) : (s.cflSubmit g rank words via).Ok := h.setCfl.cflEnd.ite h.setCfl

theorem State.Ok.cflCheck {id} (h : s.Ok) : (s.cflCheck id).Ok := by
  dsimp only [State.cflCheck]
  split
  · exact h
  · split
    · exact h.cflEnd.cflAbort.ite (h.cflAbort.ite h)
    · exact h

theorem State.Ok.cflScan (h : s.Ok) : s.cflScan.Ok := h.foldl fun _ _ h => h.cflCheck

theorem State.Ok.cflTileLost {t st} (h : s.Ok) : (s.cflTileLost t st).Ok := by
  dsimp only [State.cflTileLost]
  refine h.foldl fun _ _ h => ?_
  split
  · split
    · exact h.cflAbort
    · exact h
  · exact h

theorem State.Ok.scanLost (h : s.Ok) : s.scanLost.Ok := h.shtScan.cflScan

theorem State.Ok.tellLost (h : s.Ok) : s.tellLost.Ok := h.setFab.scanLost

theorem State.Ok.enterFabric {e p} (h : s.Ok) : (s.enterFabric e p).Ok := h.admitRaw.tellLost.ite h.admitRaw

/-! ### Operands.lean -/

theorem Tile.Ok.setStrand {n d} (hx : x.Ok) : (x.setStrand n d).Ok := hx

theorem Tile.Ok.setRegOf {n r v} (hx : x.Ok) : (x.setRegOf n r v).Ok := hx.ite (.ite hx (hx.setStrand.ite (hx.setStrand.ite hx.setStrand)))

theorem Tile.Ok.setReg {r v} (hx : x.Ok) : (x.setReg r v).Ok := hx.setRegOf

theorem Tile.Ok.countNum {e} (hx : x.Ok) : (x.countNum e).Ok := hx

theorem Tile.Ok.fixSoft {ws} (hx : x.Ok) : (x.fixSoft ws).Ok := .ite hx hx

theorem Tile.Ok.load {a n bs y} (hx : x.Ok) (hu : x.load a n = .ok (bs, y)) : y.Ok := by
  unfold Tile.load at hu
  split at hu
  · cases hu
  · cases hu
    exact hx.fixSoft

theorem Tile.Ok.loadError {a n w y} (hx : x.Ok) (hu : x.load a n = .error (w, y)) : y.Ok := by
  unfold Tile.load at hu
  split at hu
  · cases hu
    exact hx.fixSoft
  · cases hu

theorem Tile.Ok.store {a bs y} (hx : x.Ok) (hu : x.store a bs = .ok y) : y.Ok := by
  dsimp only [Tile.store] at hu
  split at hu
  · cases hu
  · cases hu
    exact Memory.writeN_wf _ _ hx

theorem Tile.Ok.storeError {a bs w y} (hx : x.Ok) (hu : x.store a bs = .error (w, y)) : y.Ok := by
  dsimp only [Tile.store] at hu
  split at hu
  · cases hu
    exact hx.fixSoft
  · cases hu

theorem Tile.Ok.overwrite {a bs} (hx : x.Ok) : (x.overwrite a bs).Ok := Memory.writeN_wf _ _ hx

theorem Tile.Ok.eccAt {w} (hx : x.Ok) : (x.eccAt w).Ok := hx

theorem State.Ok.setEcc {t w} (h : s.Ok) (hx : x.Ok) : (s.setEcc t x w).Ok := .w1cSet (.setTile h hx.eccAt)

theorem Tile.Ok.saveCtx {n} (hx : x.Ok) : (x.saveCtx n).Ok := hx.overwrite

theorem Tile.Ok.loadCtx {n y} (hx : x.Ok) (hu : x.loadCtx n = .ok y) : y.Ok := by
  unfold Tile.loadCtx at hu
  split at hu
  · cases hu
  · rename_i hl
    cases hu
    exact (hx.load hl).setStrand

theorem Tile.Ok.loadCtxError {n w y} (hx : x.Ok) (hu : x.loadCtx n = .error (w, y)) : y.Ok := by
  unfold Tile.loadCtx at hu
  split at hu
  · rename_i hl
    cases hu
    exact hx.loadError hl
  · cases hu

theorem State.Ok.faultHalt {t st pc strand extra addr by_} (h : s.Ok) : (s.faultHalt t st pc strand extra addr by_).Ok :=
  .ite (.cflTileLost (.notify (.ite (h.keepTile rfl) h))) h

theorem State.Ok.commandHalt {t} (h : s.Ok) : (s.commandHalt t).Ok := .ite (.cflTileLost (h.keepTile rfl)) h

/-! ### Flags.lean -/

theorem Tile.Ok.goTo {pc} (hx : x.Ok) : (x.goTo pc).Ok := .ite hx (.ite hx hx)

theorem State.Ok.seqNext {t} (h : s.Ok) : (s.seqNext t).Ok := by
  dsimp only [State.seqNext]
  split
  · exact .setTile h h.tile.goTo
  · exact h.faultHalt

theorem Tile.Ok.release {p} (hx : x.Ok) : (x.release p).Ok := hx

theorem State.Ok.seqRun {t} {f : Tile → SeqOut} (h : s.Ok) (hf : ∀ x, x.Ok → (f x).Ok) : (seqRun t s f).Ok := by
  have hx := hf (s.tile t) h.tile
  dsimp only [Machine.seqRun]
  generalize f (s.tile t) = o at hx ⊢
  refine .ite (.ite ?_ h) ?_
  · split
    · exact State.Ok.faultHalt hx
    · exact h.faultHalt
    · exact h.faultHalt.ite h
    · exact h.faultHalt.ite h
    · exact h
  · split
    · exact State.Ok.seqNext hx
    · exact State.Ok.setTile hx (State.Ok.tile hx).goTo
    · exact State.Ok.faultHalt hx
    · exact State.Ok.faultHalt hx
    · exact State.Ok.setTile hx (State.Ok.tile hx)
    · split
      · exact State.Ok.faultHalt hx
      · exact State.Ok.setTile hx (State.Ok.tile hx)
    · exact State.Ok.setTile hx (State.Ok.tile hx)

/-! ### TileRegs.lean -/

theorem Tile.Ok.writeReg {off v} (hx : x.Ok) : (x.writeReg off v).Ok := by
  unfold Tile.writeReg
  split
  · exact hx
  · exact hx
  · exact hx
  · exact hx
  · exact hx
  · exact hx
  · exact hx
  · exact hx
  · exact hx
  · exact hx
  · exact hx
  · exact hx
  · exact hx
  · exact .ite hx hx

theorem Tile.Ok.hostConfig {off v} (hx : x.Ok) : (x.hostConfig off v).Ok := by
  unfold Tile.hostConfig
  split
  · exact hx
  · exact hx
  · exact hx
  · exact .ite hx hx

/-! ### Scalar.lean -/

theorem State.Ok.aluRun {t rd v} (h : s.Ok) : NextOk (aluRun t rd v s) := .next (h.seqRun fun _ hx => .setTile h hx.setReg)

theorem State.Ok.aluRunIf {ok t rd v} (h : s.Ok) :
    NextOk (aluRunIf ok t rd v s) := .next (h.seqRun fun _ hx => .ite (.setTile h hx.setReg) h)

theorem State.Ok.execNop {t} (h : s.Ok) : NextOk (execNop t s) := .next (h.seqRun fun _ _ => h)

theorem State.Ok.execEnd {t} (h : s.Ok) : NextOk (execEnd t s) := .next (h.seqRun fun _ _ => h)

theorem State.Ok.execYield {t} (h : s.Ok) : NextOk (execYield t s) := .next (h.seqRun fun _ _ => h)

theorem State.Ok.execRxrel {t} (h : s.Ok) : NextOk (execRxrel t s) := .next (h.seqRun fun _ hx => .setTile h hx.release)

theorem State.Ok.execTrap {t imm} (h : s.Ok) : NextOk (execTrap t imm s) := .next (h.seqRun fun _ _ => .ite h h)

theorem State.Ok.execAdd {t rd ra rb} (h : s.Ok) : NextOk (execAdd t rd ra rb s) := h.aluRun

theorem State.Ok.execSub {t rd ra rb} (h : s.Ok) : NextOk (execSub t rd ra rb s) := h.aluRun

theorem State.Ok.execAnd {t rd ra rb} (h : s.Ok) : NextOk (execAnd t rd ra rb s) := h.aluRun

theorem State.Ok.execOr {t rd ra rb} (h : s.Ok) : NextOk (execOr t rd ra rb s) := h.aluRun

theorem State.Ok.execXor {t rd ra rb} (h : s.Ok) : NextOk (execXor t rd ra rb s) := h.aluRun

theorem State.Ok.execShl {t rd ra rb} (h : s.Ok) : NextOk (execShl t rd ra rb s) := h.aluRun

theorem State.Ok.execShr {t rd ra rb} (h : s.Ok) : NextOk (execShr t rd ra rb s) := h.aluRun

theorem State.Ok.execSar {t rd ra rb} (h : s.Ok) : NextOk (execSar t rd ra rb s) := h.aluRun

theorem State.Ok.execMul {t rd ra rb} (h : s.Ok) : NextOk (execMul t rd ra rb s) := h.aluRun

theorem State.Ok.execMin {t rd ra rb} (h : s.Ok) : NextOk (execMin t rd ra rb s) := h.aluRun

theorem State.Ok.execMax {t rd ra rb} (h : s.Ok) : NextOk (execMax t rd ra rb s) := h.aluRun

theorem State.Ok.execSlt {t rd ra rb} (h : s.Ok) : NextOk (execSlt t rd ra rb s) := h.aluRun

theorem State.Ok.execSltu {t rd ra rb} (h : s.Ok) : NextOk (execSltu t rd ra rb s) := h.aluRun

theorem State.Ok.execAddi {t rd ra imm} (h : s.Ok) : NextOk (execAddi t rd ra imm s) := h.aluRun

theorem State.Ok.execAndi {t rd ra imm} (h : s.Ok) : NextOk (execAndi t rd ra imm s) := h.aluRun

theorem State.Ok.execOri {t rd ra imm} (h : s.Ok) : NextOk (execOri t rd ra imm s) := h.aluRun

theorem State.Ok.execXori {t rd ra imm} (h : s.Ok) : NextOk (execXori t rd ra imm s) := h.aluRun

theorem State.Ok.execShli {t rd ra imm} (h : s.Ok) : NextOk (execShli t rd ra imm s) := h.aluRunIf

theorem State.Ok.execShri {t rd ra imm} (h : s.Ok) : NextOk (execShri t rd ra imm s) := h.aluRunIf

theorem State.Ok.execSari {t rd ra imm} (h : s.Ok) : NextOk (execSari t rd ra imm s) := h.aluRunIf

theorem State.Ok.execLi {t rd imm} (h : s.Ok) : NextOk (execLi t rd imm s) := h.aluRun

theorem State.Ok.execLui {t rd imm} (h : s.Ok) : NextOk (execLui t rd imm s) := h.aluRun

theorem State.Ok.loadRun {width t rd ra imm} (h : s.Ok) : (loadRun width t rd ra imm s).Ok := by
  unfold Machine.loadRun
  refine h.seqRun fun _ hx => ?_
  split
  · exact h
  · split
    · rename_i hu
      exact h.setEcc (hx.loadError hu)
    · rename_i hu
      exact .setTile h (hx.load hu).setReg

theorem State.Ok.storeRun {width t rb ra imm} (h : s.Ok) : (storeRun width t rb ra imm s).Ok := by
  unfold Machine.storeRun
  refine h.seqRun fun _ hx => ?_
  split
  · exact h
  · split
    · rename_i hu
      exact h.setEcc (hx.storeError hu)
    · rename_i hu
      exact .setTile h (hx.store hu)

theorem State.Ok.execLd {t rd ra imm} (h : s.Ok) : NextOk (execLd t rd ra imm s) := .next h.loadRun

theorem State.Ok.execLdw {t rd ra imm} (h : s.Ok) : NextOk (execLdw t rd ra imm s) := .next h.loadRun

theorem State.Ok.execSt {t rb ra imm} (h : s.Ok) : NextOk (execSt t rb ra imm s) := .next h.storeRun

theorem State.Ok.execStw {t rb ra imm} (h : s.Ok) : NextOk (execStw t rb ra imm s) := .next h.storeRun

theorem State.Ok.execBr {t cond ra rb imm} (h : s.Ok) : NextOk (execBr t cond ra rb imm s) := .next (h.seqRun fun _ _ => .ite h (.ite h h))

theorem State.Ok.execJmp {t imm} (h : s.Ok) : NextOk (execJmp t imm s) := .next (h.seqRun fun _ _ => .ite h h)

theorem State.Ok.execJr {t ra} (h : s.Ok) : NextOk (execJr t ra s) := .next (h.seqRun fun _ _ => .ite h h)

theorem State.Ok.execCall {t rd imm} (h : s.Ok) : NextOk (execCall t rd imm s) := .next (h.seqRun fun _ hx => .ite (.setTile h hx.setReg) h)

theorem State.Ok.execDbnz {t ra imm} (h : s.Ok) : NextOk (execDbnz t ra imm s) :=
  .next (h.seqRun fun _ hx => .ite h (.ite (.setTile h hx.setReg) (.setTile h hx.setReg)))

theorem State.Ok.execLoop {t ra imm} (h : s.Ok) : NextOk (execLoop t ra imm s) := by
  dsimp only [Machine.execLoop]
  refine .next (h.seqRun fun _ hx => .ite h (.ite h (.ite ?_ (.setTile h hx))))
  split
  · exact .setTile h hx
  · exact .ite h (.setTile h hx)

theorem State.Ok.execLidx {t rd imm} (h : s.Ok) : NextOk (execLidx t rd imm s) := h.aluRunIf

theorem State.Ok.execRdreg {t rd imm} (h : s.Ok) : NextOk (execRdreg t rd imm s) := h.aluRunIf

theorem State.Ok.execWrreg {t ra imm} (h : s.Ok) : NextOk (execWrreg t ra imm s) :=
  .next (h.seqRun fun _ hx => .ite h (.ite (.setTile h hx.writeReg) (.ite h.notify h)))

theorem State.Ok.execQfree {t rd imm} (h : s.Ok) : NextOk (execQfree t rd imm s) := h.aluRunIf

theorem State.Ok.execDefrgn {t ra rb imm} (h : s.Ok) : NextOk (execDefrgn t ra rb imm s) :=
  .next (h.seqRun fun _ hx => .ite h (.ite h (.ite (.setTile h hx) h)))

theorem State.Ok.execFence {t ra imm} (h : s.Ok) : NextOk (execFence t ra imm s) := .next (h.seqRun fun _ _ => .ite h (.ite h h))

theorem State.Ok.passFence {t n} (h : s.Ok) : (s.passFence t n).Ok := by
  dsimp only [State.passFence]
  split
  · exact .setTile h (.saveCtx h.tile)
  · exact h.faultHalt

theorem State.Ok.boundary {t} (h : s.Ok) : (s.boundary t).Ok := by
  dsimp only [State.boundary]
  refine .ite (.ite h.passFence (.ite h (.itinEvent (.setTile h (.saveCtx ?_))))) h
  exact h.tile

theorem State.Ok.execProgramBoundarySwap {t} (h : s.Ok) : NextOk (execProgramBoundarySwap t s) := .next h.boundary

theorem State.Ok.switchLost {t n w} (h : s.Ok) (hx : x.Ok) : (s.switchLost t x n w).Ok := .faultHalt (.setEcc h hx)

theorem State.Ok.strandSwitch {t} (h : s.Ok) : (s.strandSwitch t).Ok := by
  unfold State.strandSwitch
  extract_lets y
  refine .ite ?_ h
  split
  · exact h
  · rename_i z _ _ _
    have hx : z.Ok := h.tile.saveCtx
    clear_value z
    split
    · rename_i hl
      split at hl
      · cases hl
      · exact h.switchLost (hx.loadCtxError hl)
    · rename_i hl
      refine .setTile h ?_
      split at hl
      · cases hl
        exact hx
      · exact (hx.loadCtx hl :)

theorem State.Ok.execStrandSwitch {t} (h : s.Ok) : NextOk (execStrandSwitch t s) := .next h.strandSwitch

theorem State.Ok.strandWake {t n} (h : s.Ok) : (s.strandWake t n).Ok := by
  dsimp only [State.strandWake]
  refine h.ite ?_
  split
  · exact h.ite (.setTile h h.tile.setStrand)
  · exact h.ite h.passFence
  · exact .ite (.setTile h h.tile.setStrand) h
  · exact h

theorem State.Ok.execStrandWake {t n} (h : s.Ok) : NextOk (execStrandWake t n s) := .next h.strandWake

/-! ### MerCore.lean -/

theorem State.Ok.merReply {datum reg tile strand obj result expiry decided stamp sig unit} (h : s.Ok) :
    (s.merReply datum reg tile strand obj result expiry decided stamp sig unit).Ok :=
  h.setMer

theorem State.Ok.merRelease {datum obj w info decided sig unit} (h : s.Ok) :
    (s.merRelease datum obj w info decided sig unit).Ok := h.merReply

theorem State.Ok.setObj {obj o} (h : s.Ok) : (s.setObj obj o).Ok := h.setMer

theorem State.Ok.merUnit {obj o decided sig} (h : s.Ok) : (s.merUnit obj o decided sig).1.Ok := by
  dsimp only [State.merUnit]
  split
  · exact h.setObj.merRelease
  · split
    · exact h.setMer.tally.notify
    · exact h.setObj

theorem State.Ok.merComplete {obj o decided sig} (h : s.Ok) :
    (s.merComplete obj o decided sig).Ok := h.setObj.foldl fun _ _ h => h.merRelease

theorem State.Ok.merRefuse {x} (h : s.Ok) : (s.merRefuse x).Ok := by
  unfold State.merRefuse
  extract_lets _ s1
  have h1 : s1.Ok := h.setMer.tally.notify
  split
  · exact h1.merReply
  · exact h1.merReply
  · exact h1.progress.ite h1
  · exact h1

theorem State.Ok.merSignal {x o clear} (h : s.Ok) : (s.merSignal x o clear).Ok := by
  dsimp only [State.merSignal]
  split
  · exact h.setObj
  · exact (h.setObj.foldl fun _ _ h => h.merRelease).drift.ite (h.setObj.foldl fun _ _ h => h.merRelease)
  · exact h.setObj.merUnit.drift.ite h.setObj.merUnit
  · exact (h.merComplete.drift.ite h.merComplete).ite h.setObj

theorem State.Ok.merWait {x o expiry} (h : s.Ok) : (s.merWait x o expiry).Ok := by
  dsimp only [State.merWait]
  split
  · exact h.setObj.merReply.ite (h.setMer.tally.merReply.ite h.setObj)
  · exact h.merReply.ite (h.setMer.tally.merReply.ite h.setObj)
  · exact h.merComplete.merReply.ite (h.setMer.tally.merReply.ite h.setObj)

theorem State.Ok.merWithdraw {x o reg reset} (h : s.Ok) : (s.merWithdraw x o reg reset).Ok := by
  dsimp only [State.merWithdraw]
  split
  · exact h.setObj.ite h.setObj.merReply
  · refine .ite ?_ h
    split
    · exact h.setMer.merUnit.ite h.setMer
    · exact h

theorem State.Ok.merApply {x} (h : s.Ok) : (s.merApply x).Ok := by
  unfold State.merApply
  extract_lets _ s1 ackOf s2
  have h1 : s1.Ok := h.setMer
  have hackOf : ∀ s a1, State.Ok s → (ackOf s a1).Ok := fun _ _ h => h.setMer
  have h2 : s2.Ok := by
    dsimp only [s2]
    split
    · exact hackOf _ _ h1
    · exact hackOf _ _ h1
    · exact h1
  split
  · split
    · exact h2.setMer
    · exact h2
    · exact h2.merRefuse
  · refine .ite ?_ (h2.merRefuse.ite ?_)
    · split
      · exact h2.merWithdraw
      · exact h2
    · split
      · exact h2.merRefuse.ite (h2.merSignal.progress.ite h2.merSignal)
      · exact h2.merWait
      · exact h2.merReply
      · exact h2

theorem State.Ok.merDeliver {r} (h : s.Ok) : (s.merDeliver r).Ok := by
  dsimp only [State.merDeliver]
  split
  · exact .ite (.passFence (.setTile h.setMer h.setMer.tile.setRegOf)) h.setMer
  · exact h.setMer

theorem State.Ok.merArrive {r} (h : s.Ok) : (s.merArrive r).Ok := by
  dsimp only [State.merArrive]
  split
  · exact h.merDeliver
  · exact h.setMer.ite (h.ite h.setMer.drift).merDeliver

theorem State.Ok.merTileReset {t} (h : s.Ok) : (s.merTileReset t).Ok := h.setMer.foldl fun _ _ h => h.merSend

/-! ### Desc.lean -/

theorem State.Ok.issueRun {e t ra imm} (h : s.Ok) : (issueRun e t ra imm s).Ok := by
  unfold Machine.issueRun
  refine h.seqRun fun _ hx => .ite h (.ite h ?_)
  split
  · rename_i hu
    exact h.setEcc (hx.loadError hu)
  · extract_lets s1
    have h1 : s1.Ok := by
      rename_i hu _ _ _
      exact .setTile h (hx.load hu)
    split
    · exact h1
    · refine .ite h1 ?_
      split
      · exact h1
      · rename_i hu _ _ _ _ _ _ _
        exact .ite h1 (.ite h1 (.ite h1 (.setTile h1 (hx.load hu :))))

theorem State.Ok.execTens {t ra imm} (h : s.Ok) : NextOk (execTens t ra imm s) := .next h.issueRun

theorem State.Ok.execVec {t ra imm} (h : s.Ok) : NextOk (execVec t ra imm s) := .next h.issueRun

theorem State.Ok.execMove {t ra imm} (h : s.Ok) : NextOk (execMove t ra imm s) := .next h.issueRun

theorem State.Ok.execMsg {t ra imm} (h : s.Ok) : NextOk (execMsg t ra imm s) := .next h.issueRun

theorem State.Ok.execSprs {t ra imm} (h : s.Ok) : NextOk (execSprs t ra imm s) := .next h.issueRun

/-! ### Engine.lean -/

theorem Tile.Ok.setHead {e q} (hx : x.Ok) : (x.setHead e q).Ok := hx

/-! The engines run in a state and exception monad over a tile: an action that keeps the tile in canonical form keeps it however it ends. -/

/-- The tile that an engine leaves, with a value or a stop, is in canonical form. -/
def EngRes.Ok {α : Type} : EStateM.Result Stop EngSt α → Prop
  | .ok _ e => e.x.Ok
  | .error _ e => e.x.Ok

/-- An engine action keeps the canonical form of the tile that it works on. -/
def EngM.Ok {α : Type} (m : EngM α) : Prop := ∀ e : EngSt, e.x.Ok → EngRes.Ok (m e)

theorem EngM.Ok.pure {α : Type} (a : α) : EngM.Ok (Pure.pure a) := fun _ h => h

theorem EngM.Ok.engStop {α : Type} (st : Stop) : EngM.Ok (engStop st : EngM α) := fun _ h => h

theorem EngM.Ok.bind {α β : Type} {m : EngM α} {f : α → EngM β} (hm : EngM.Ok m) (hf : ∀ a, EngM.Ok (f a)) : EngM.Ok (m >>= f) := by
  intro e he
  have hr := hm e he
  change EngRes.Ok (EStateM.bind m f e)
  unfold EStateM.bind
  split
  · rename_i hm'
    rw [hm'] at hr
    exact hf _ _ hr
  · rename_i hm'
    rwa [hm'] at hr

theorem EngM.Ok.ite {α : Type} {c : Prop} [Decidable c] {m n : EngM α} (hm : EngM.Ok m) (hn : EngM.Ok n) :
    EngM.Ok (if c then m else n) := by
  split <;> assumption

theorem EngM.Ok.bindIte {α β : Type} {c : Prop} [Decidable c] {m n : EngM α} {f : α → EngM β} (hm : EngM.Ok m) (hn : EngM.Ok n)
    (hf : ∀ a, EngM.Ok (f a)) : EngM.Ok (if c then m >>= f else n >>= f) :=
  .ite (.bind hm hf) (.bind hn hf)

theorem EngM.Ok.engRead {a n align} : EngM.Ok (engRead a n align) := by
  intro e he
  unfold Machine.engRead
  split
  · exact he
  · split
    · rename_i hl
      exact Tile.Ok.loadError he hl
    · rename_i hl
      exact Tile.Ok.load he hl

theorem EngM.Ok.engWrite {a bs align} : EngM.Ok (engWrite a bs align) := by
  intro e he
  unfold Machine.engWrite
  split
  · exact he
  · split
    · exact he
    · split
      · rename_i hl
        exact Tile.Ok.storeError he hl
      · rename_i hl
        exact Tile.Ok.store he hl

theorem EngM.Ok.engCount {ev} : EngM.Ok (engCount ev) := fun _ h => Tile.Ok.countNum h

theorem EngM.Ok.engCountOther {ev} : EngM.Ok (engCountOther ev) := fun _ h => Tile.Ok.countNum h

theorem EngM.Ok.engUnit : EngM.Ok engUnit := by
  intro e he
  unfold Machine.engUnit
  split <;> exact he

theorem EngM.Ok.engEach {α : Type} {f : α → EngM Unit} (hf : ∀ a, EngM.Ok (f a)) : ∀ l, EngM.Ok (engEach f l)
  | [] => .pure ()
  | a :: l => .bind (hf a) fun _ => engEach hf l

theorem EngM.Ok.engMap {α β : Type} {f : α → EngM β} (hf : ∀ a, EngM.Ok (f a)) : ∀ l, EngM.Ok (engMap f l)
  | [] => .pure _
  | a :: l => .bind (hf a) fun _ => .bind (engMap hf l) fun _ => .pure _

theorem EngM.Ok.engCollect {β : Type} {f : Nat → EngM (List β)} (hf : ∀ n, EngM.Ok (f n)) : ∀ n k, EngM.Ok (engCollect f n k)
  | _, 0 => .pure _
  | n, k + 1 => by
    intro e he
    unfold Machine.engCollect
    have hr := hf n e he
    split
    · rename_i hm
      rwa [hm] at hr
    · rename_i e' hm
      rw [hm] at hr
      have hr' := engCollect hf (n + 1) k e' hr
      split
      · rename_i hm'
        rwa [hm'] at hr'
      · rename_i hm'
        rwa [hm'] at hr'

theorem EngM.Ok.readUnit {g w per n first} : EngM.Ok (readUnit g w per n first) :=
  .bind .engRead fun _ => .ite
    (.bind .engRead fun _ => .bindIte .engRead (.pure _) fun _ => .bind .engCountOther fun _ => .pure _)
    (.bind .engCountOther fun _ => .pure _)

theorem State.Ok.engEnd {t e q} {r : EStateM.Result Stop EngSt Unit} (h : s.Ok) (hr : EngRes.Ok r) : (s.engEnd t e q r).Ok := by
  unfold State.engEnd
  split
  · exact h.setTile hr
  · refine .faultHalt ?_
    split
    · exact h.setEcc hr
    · exact h.setTile hr

theorem State.Ok.engFinish {t e q f} (h : s.Ok) (hx : x.Ok) (hf : EngM.Ok f) : (s.engFinish t e q x f).Ok := by
  unfold State.engFinish
  have hr := hf { x := x } hx
  split
  · rename_i hl
    rw [hl] at hr
    exact h.engEnd hr
  · rename_i y _
    have hz := hf { x := x, cap := some (Config.freeNat s.free % (y.units + 1)) } hx
    refine State.Ok.engEnd h.withFree ?_
    split
    · rename_i hl
      rwa [hl] at hz
    · rename_i hl
      rwa [hl] at hz

theorem State.Ok.engineRun {t e op} {f : QEntry → EngM Unit} (h : s.Ok) (hf : ∀ q, EngM.Ok (f q)) : (engineRun t e op s f).Ok := by
  unfold Machine.engineRun
  extract_lets y
  split
  · exact .ite (h.engFinish h.tile (hf _)) h
  · exact h

/-! ### Tensor.lean -/

theorem EngM.Ok.readChunk {g n codes split} : EngM.Ok (readChunk g n codes split) :=
  .bind .readUnit fun _ => .ite (.bind .engCountOther fun _ => .pure _) (.pure _)

theorem EngM.Ok.mmChunk {d once c o acc} : EngM.Ok (mmChunk d once c o acc) :=
  .bind .readChunk fun _ => .bind .readChunk fun _ => .bind .engCountOther fun _ => .pure _

theorem EngM.Ok.mmAccum {d once os} : ∀ k c accs, EngM.Ok (mmAccum d once os c k accs)
  | 0, _, _ => .pure _
  | k + 1, c, _ => .bind (.engMap (fun _ => .mmChunk) _) fun _ => mmAccum k (c + 1) _

theorem EngM.Ok.mmGroup {d once inits total g} : EngM.Ok (mmGroup d once inits total g) :=
  .bind (.mmAccum _ _ _) fun _ _ h => h

theorem EngM.Ok.mmAccs {d once inits} : EngM.Ok (mmAccs d once inits) := .engCollect (fun _ => .mmGroup) _ _

theorem EngM.Ok.colValue {use base n dflt} : EngM.Ok (colValue use base n dflt) := .ite (.bind .engRead fun _ => .pure _) (.pure _)

theorem EngM.Ok.engModes {c first n} : EngM.Ok (engModes c first n) := fun _ h => h

theorem EngM.Ok.writeScales {c scale esc j b} : EngM.Ok (writeScales c scale esc j b) :=
  .bindIte .engWrite (.pure ()) fun _ => .ite .engWrite (.pure ())

theorem EngM.Ok.writeRun {g c r b} : EngM.Ok (writeRun g c r b) :=
  .bind .writeScales fun _ => .ite (.bind .engWrite fun _ => .engUnit) (.engEach (fun _ => .bind .engWrite fun _ => .engUnit) _)

theorem EngM.Ok.convertRun {d ws c len accs r} : EngM.Ok (convertRun d ws c len accs r) :=
  .bind (.engMap (fun _ => .bind .colValue fun _ => .bind .colValue fun _ => .pure _) _) fun _ =>
    .bind .engModes fun _ => .bind .engCount fun _ => .pure _

/-- A program that ends with the stop met on its way, if any. -/
theorem EngM.Ok.endWith {st : Option Stop} : EngM.Ok (match st with
    | some st => Machine.engStop st
    | none => Pure.pure ()) := by
  cases st
  · exact .pure _
  · exact .engStop _

theorem EngM.Ok.mmRun {ws inits} : EngM.Ok (mmRun ws inits) := by
  refine .bind .mmAccs fun r => ?_
  obtain ⟨accs, st⟩ := r
  refine .ite (.bind (fun _ h => h) fun _ => .endWith) ?_
  exact .bind (.engEach (fun _ => .bind .convertRun fun _ => .writeRun) _) fun _ => .endWith

theorem EngM.Ok.mmRerun {ws inits} : EngM.Ok (mmRerun ws inits) := by
  refine .bind .mmAccs fun r => ?_
  obtain ⟨accs, st⟩ := r
  exact .bind (.engEach (fun _ => .bind .convertRun fun _ => .bind .writeScales fun _ => .bind .engWrite fun _ => .engUnit) _) fun _ => .endWith

theorem State.Ok.freeAcc {t base} : ∀ {n s}, State.Ok s → (State.freeAcc t base n s).Ok
  | 0, _, h => h
  | n + 1, s, h => by
    have h1 : (s.fresh.2.onTile t fun x => { x with acc := x.acc.put (base + n) (s.fresh.1 % 2 ^ 32) }).Ok := h.fresh.onTile fun _ hx => hx
    exact h1.freeAcc

theorem State.Ok.mmAfter {t q} (h : s.Ok) : (s.mmAfter t q).Ok := by
  unfold State.mmAfter
  split
  · exact h.freeAcc.ite h
  · exact h

theorem State.Ok.matmul {t} (h : s.Ok) : (s.matmul t).Ok := by
  dsimp only [State.matmul]
  split
  · exact .ite (.mmAfter (.engFinish h h.tile .mmRun)) h
  · exact h

theorem State.Ok.execMatmul {t} (h : s.Ok) : NextOk (execMatmul t s) := .next h.matmul

theorem State.Ok.promoteDecision {t} (h : s.Ok) : (s.promoteDecision t).Ok := by
  dsimp only [State.promoteDecision]
  split
  · refine .ite (.ite (.ite (.onTile ?_ fun _ hx => hx) ?_) (.setTile h h.tile.setHead)) h <;>
      exact .mmAfter (.engFinish h h.tile .mmRerun)
  · exact h

theorem State.Ok.execPromoteDecision {t} (h : s.Ok) : NextOk (execPromoteDecision t s) := .next h.promoteDecision

/-! ### Vector.lean -/

theorem EngM.Ok.vecRead {ws g n zCount} : EngM.Ok (vecRead ws g n zCount) := by
  intro e he
  unfold Machine.vecRead
  extract_lets
  split
  · exact he
  · split
    · exact he
    · generalize hl : Machine.engCollect _ _ _ e = r
      have hr : EngRes.Ok r := hl ▸ EngM.Ok.engCollect (fun _ => .readUnit) _ _ e he
      split <;> exact hr

theorem EngM.Ok.vecWriteDirect {ws rs} : EngM.Ok (vecWriteDirect ws rs) :=
  .engEach (fun _ => .ite (.bind (fun e h => by split <;> exact h) fun _ => .engUnit) (.bind .engWrite fun _ => .engUnit)) _

theorem EngM.Ok.vecWriteConv {ws rs} : EngM.Ok (vecWriteConv ws rs) :=
  .engEach (fun _ => .bind .engModes fun _ => .bind .engCount fun _ => .writeRun) _

theorem EngM.Ok.vecProgram {fn q} : EngM.Ok (vecProgram fn q) := by
  refine .bind .vecRead fun x => .bindIte .vecRead (.pure _) fun y => .bindIte .vecRead (.pure _) fun z =>
    .bindIte .vecWriteDirect .vecWriteConv fun _ => ?_
  split
  · exact .engStop _
  · exact .pure _

theorem State.Ok.vecStep {t op fn} (h : s.Ok) : NextOk (vecStep t op fn s) := .next (h.engineRun fun _ => .vecProgram)

theorem State.Ok.execVecAdd {t} (h : s.Ok) : NextOk (execVecAdd t s) := h.vecStep

theorem State.Ok.execVecSub {t} (h : s.Ok) : NextOk (execVecSub t s) := h.vecStep

theorem State.Ok.execVecMul {t} (h : s.Ok) : NextOk (execVecMul t s) := h.vecStep

theorem State.Ok.execVecFma {t} (h : s.Ok) : NextOk (execVecFma t s) := h.vecStep

theorem State.Ok.execVecMin {t} (h : s.Ok) : NextOk (execVecMin t s) := h.vecStep

theorem State.Ok.execVecMax {t} (h : s.Ok) : NextOk (execVecMax t s) := h.vecStep

theorem State.Ok.execVecAbs {t} (h : s.Ok) : NextOk (execVecAbs t s) := h.vecStep

theorem State.Ok.execVecExp2 {t} (h : s.Ok) : NextOk (execVecExp2 t s) := h.vecStep

theorem State.Ok.execVecLog2 {t} (h : s.Ok) : NextOk (execVecLog2 t s) := h.vecStep

theorem State.Ok.execVecRecip {t} (h : s.Ok) : NextOk (execVecRecip t s) := h.vecStep

theorem State.Ok.execVecRsqrt {t} (h : s.Ok) : NextOk (execVecRsqrt t s) := h.vecStep

theorem State.Ok.execVecSigmoid {t} (h : s.Ok) : NextOk (execVecSigmoid t s) := h.vecStep

theorem State.Ok.execVecTanh {t} (h : s.Ok) : NextOk (execVecTanh t s) := h.vecStep

theorem State.Ok.execVecRsum {t} (h : s.Ok) : NextOk (execVecRsum t s) := h.vecStep

theorem State.Ok.execVecRmax {t} (h : s.Ok) : NextOk (execVecRmax t s) := h.vecStep

theorem State.Ok.execVecRmin {t} (h : s.Ok) : NextOk (execVecRmin t s) := h.vecStep

theorem State.Ok.execVecCvt {t} (h : s.Ok) : NextOk (execVecCvt t s) := by
  refine .next (h.engineRun fun q => .bind .vecRead fun x => .bindIte .vecWriteDirect .vecWriteConv fun _ => ?_)
  exact .endWith

theorem State.Ok.execVecIadd {t} (h : s.Ok) : NextOk (execVecIadd t s) := h.vecStep

theorem State.Ok.execVecIsub {t} (h : s.Ok) : NextOk (execVecIsub t s) := h.vecStep

theorem State.Ok.execVecImul {t} (h : s.Ok) : NextOk (execVecImul t s) := h.vecStep

theorem State.Ok.execVecImin {t} (h : s.Ok) : NextOk (execVecImin t s) := h.vecStep

theorem State.Ok.execVecImax {t} (h : s.Ok) : NextOk (execVecImax t s) := h.vecStep

theorem State.Ok.execVecIand {t} (h : s.Ok) : NextOk (execVecIand t s) := h.vecStep

theorem State.Ok.execVecIor {t} (h : s.Ok) : NextOk (execVecIor t s) := h.vecStep

theorem State.Ok.execVecIxor {t} (h : s.Ok) : NextOk (execVecIxor t s) := h.vecStep

/-! ### TileCtl.lean -/

theorem Tile.Ok.cleared (hx : x.Ok) : x.cleared.Ok := hx

theorem State.Ok.powerOver {t} (h : s.Ok) : (s.powerOver t).Ok := h.progress.ite h

theorem State.Ok.tileReset {t clear} (h : s.Ok) : (s.tileReset t clear).Ok := by
  unfold State.tileReset
  extract_lets _ s1 s2 _ x3
  have h1 : s1.Ok := h.cflTileLost.ite h
  have h2 : s2.Ok := (h1.foldl fun _ _ h => h.stir).merTileReset.powerOver
  have hx3 : x3.Ok := h2.tile.cleared
  clear_value *
  exact .setTile h2 hx3

theorem State.Ok.tileStart {t} (h : s.Ok) : (s.tileStart t).Ok :=
  .setTile (h.foldl fun _ _ h => h.stir).powerOver (.saveCtx (h.foldl fun _ _ h => h.stir).powerOver.tile)

theorem State.Ok.tileResume {t} (h : s.Ok) : (s.tileResume t).Ok := .onTile (h.foldl fun _ _ h => h.stir).powerOver fun _ hx => hx

theorem State.Ok.tileCmdInvalid {t value} (h : s.Ok) : (s.tileCmdInvalid t value).Ok := h.notify

theorem State.Ok.tileCtrl {t value} (h : s.Ok) : (s.tileCtrl t value).Ok := by
  have hbad : (s.tileCmdInvalid t value).Ok := h.tileCmdInvalid
  exact (h.tileReset.ite hbad).ite ((h.commandHalt.ite hbad).ite ((h.tileResume.ite hbad).ite ((h.tileStart.ite hbad).ite h)))

theorem State.Ok.execTileCtrlReset {t value} (h : s.Ok) : NextOk (execTileCtrlReset t value s) := .next (h.tileCtrl.ite h)

theorem State.Ok.execTileCtrlHalt {t value} (h : s.Ok) : NextOk (execTileCtrlHalt t value s) := .next (h.tileCtrl.ite h)

theorem State.Ok.execTileCtrlResume {t value} (h : s.Ok) : NextOk (execTileCtrlResume t value s) := .next (h.tileCtrl.ite h)

theorem State.Ok.execTileCtrlStart {t value} (h : s.Ok) : NextOk (execTileCtrlStart t value s) := .next (h.tileCtrl.ite h)

theorem State.Ok.tileResetDone {t} (h : s.Ok) : (s.tileResetDone t).Ok := by
  dsimp only [State.tileResetDone]
  refine .ite (.foldl (.setTile h ?_) fun _ _ h => h.progress) h
  split
  · exact .ite Memory.wf_nil h.tile
  · exact .ite Memory.wf_nil h.tile

theorem State.Ok.execTileResetDone {t cc} (h : s.Ok) : NextOk (execTileResetDone t cc s) := .next h.at.tileResetDone

theorem State.Ok.execSrReseed {t value} (h : s.Ok) : NextOk (execSrReseed t value s) := .next (h.onTile fun _ hx => hx.writeReg)

theorem State.Ok.tileCommand {opcode k tiles bad} {act : State → ℕ → State} {keys} (h : s.Ok) (hact : ∀ s a1, s.Ok → (act s a1).Ok) :
    NextOk (tileCommand opcode k tiles s bad act keys) := by
  unfold Machine.tileCommand
  refine .next (h.kciRun fun _ h => h.check ?_)
  split
  · exact h.fail
  · exact .mk (h.foldl fun _ _ h => hact _ _ h)

theorem State.Ok.execTileReset {k tiles clearScratch} (h : s.Ok) : NextOk (execTileReset k tiles clearScratch s) :=
  h.tileCommand fun _ _ h => h.tileReset

theorem State.Ok.execTileStart {k tiles} (h : s.Ok) : NextOk (execTileStart k tiles s) := h.tileCommand fun _ _ h => h.tileStart

theorem State.Ok.execTileHalt {k tiles} (h : s.Ok) : NextOk (execTileHalt k tiles s) := h.tileCommand fun _ _ h => h.commandHalt

theorem State.Ok.execTileResume {k tiles} (h : s.Ok) : NextOk (execTileResume k tiles s) := h.tileCommand fun _ _ h => h.tileResume

theorem State.Ok.execTileStatus {k tiles} (h : s.Ok) : NextOk (execTileStatus k tiles s) := .next (h.kciRun fun _ h => h.check h)

theorem State.Ok.execVtabRead {k table dest} (h : s.Ok) : NextOk (execVtabRead k table dest s) :=
  .next (h.kciRun fun _ h => h.check (.mk h.putHost))

/-! ### Atlas.lean -/

theorem State.Ok.walkLeave {b} (h : s.Ok) : (s.walkLeave b).Ok := h.ite h.setBank

theorem State.Ok.tileOff {t} (h : s.Ok) : (s.tileOff t).Ok := .setTile h.merTileReset Memory.wf_nil

theorem State.Ok.tilePower {target t} (h : s.Ok) : (s.tilePower target t).Ok := by
  unfold State.tilePower
  extract_lets x1 s2
  have hx1 : x1.Ok := h.tile
  have h2 : s2.Ok := h.ite (h.foldl fun _ _ h => h.walkLeave)
  refine h.ite ?_
  split
  · exact h2.tileOff
  · exact .setTile h2 hx1
  · exact .ite (.setTile h2 hx1) (.setTile h2 hx1)

theorem State.Ok.pinClear {b} (h : s.Ok) : (s.pinClear b).Ok := h.putAtl (Memory.clear_wf _ _ h.pinned)

theorem State.Ok.pinPower {target b} (h : s.Ok) :
    (s.pinPower target b).Ok := h.ite ((h.pinClear.ite h).ite (h.pinClear.ite h).walkLeave).setBank

theorem State.Ok.execAtlPower {k target state} (h : s.Ok) : NextOk (execAtlPower k target state s) := by
  unfold Machine.execAtlPower
  refine .next (h.kciRun fun _ h => ?_)
  split
  · exact h.check (.mk (h.foldl fun _ _ h => h.tilePower))
  · exact h.check (.mk (h.foldl fun _ _ h => h.pinPower))

theorem State.Ok.powerDone (h : s.Ok) : s.powerDone.Ok := by
  unfold State.powerDone
  extract_lets _ _ s1
  have h1 : s1.Ok := h.foldl fun _ _ h => .progress (.onTile h fun _ hx => hx)
  exact h1.foldl fun _ _ h => h.setBank.progress

theorem State.Ok.execAtlPowerDone {cc} (h : s.Ok) : NextOk (execAtlPowerDone cc s) := .next h.at.powerDone

theorem State.Ok.soundStart {b} (h : s.Ok) : (s.soundStart b).Ok := h.ite h.setBank

theorem State.Ok.execSoundingRegionStart {bank cc} (h : s.Ok) : NextOk (execSoundingRegionStart bank cc s) := .next h.at.soundStart

theorem State.Ok.mapAdd {die e} (h : s.Ok) : (s.mapAdd die e).Ok := h.ite h.withFlt

theorem State.Ok.soundFault {hard b c} (h : s.Ok) : (State.soundFault hard b s c).Ok := .notify (.w1cSet (.tally (.withAtl h.mapAdd rfl)))

theorem State.Ok.soundSave {b} (h : s.Ok) : (s.soundSave b).Ok := by
  dsimp only [State.soundSave]
  refine .ite ?_ (.ite (.tally (h.withAtl rfl)) h)
  split
  · exact h.onTile fun _ hx => .ite hx hx
  · exact h

theorem State.Ok.soundPhase {b failing hard} (h : s.Ok) : (s.soundPhase b failing hard).Ok := by
  dsimp only [State.soundPhase]
  split
  · exact h
  · exact h.setBank.soundSave
  · exact h.setBank.foldl fun _ _ h => h.soundFault
  · exact .ite (.tally (.withAtl h.setBank rfl)) h.setBank

theorem State.Ok.execSoundingPhase {bank failing hard cc} (h : s.Ok) :
    NextOk (execSoundingPhase bank failing hard cc s) := .next h.at.soundPhase

theorem State.Ok.execAtlSoundCfg {k enable interval} (h : s.Ok) : NextOk (execAtlSoundCfg k enable interval s) :=
  .next (h.kciRun fun _ h => h.check (.mk (h.withAtl rfl)))

theorem State.Ok.fuse {old b sub col} (h : s.Ok) : (s.fuse old b sub col).Ok := h.ite (h.setBank.ite (h.setBank.ite h.setBank.itinEvent))

theorem State.Ok.fusesLost (h : s.Ok) : s.fusesLost.Ok := h.withAtl rfl

theorem State.Ok.atlasReset {die} (h : s.Ok) : (s.atlasReset die).Ok := by
  dsimp only [State.atlasReset]
  refine .foldl (.foldl (h.withAtl rfl) fun _ _ h => h.progress) fun _ _ h => ?_
  split
  · exact h.fuse
  · exact h

theorem State.Ok.execAtlBankQuery {k bank} (h : s.Ok) : NextOk (execAtlBankQuery k bank s) := .next (h.kciRun fun _ h => h.check h)

/-! ### Cartouche.lean -/

theorem State.Ok.setCrt {c} (h : s.Ok) (hc : c.staging.wf = true) : (s.setCrt c).Ok := h.putCrt hc

theorem State.Ok.loadKey (h : s.Ok) : s.loadKey.Ok := by
  dsimp only [State.loadKey]
  refine .ite (.setCrt h h.staging) ?_
  split
  · exact h
  · split
    · exact .setCrt h h.staging
    · exact .notify (.setCrt h h.staging)

theorem State.Ok.execLcQuery {k} (h : s.Ok) : NextOk (execLcQuery k s) := .next (h.kciRun fun _ h => h)

theorem State.Ok.provision {k dest} (h : s.Ok) : (s.provision k dest).Ok := by
  have h1 : (s.freshBytes 57).2.Ok := h.freshBytes
  exact .putHost (.itinRecord (.setCrt h1 h1.staging))

theorem State.Ok.execLcProvision {k dest} (h : s.Ok) :
    NextOk (execLcProvision k dest s) := .next (h.kciRun fun _ h => h.check (.mk h.provision))

theorem State.Ok.execLcCertInstall {k addr len} (h : s.Ok) : NextOk (execLcCertInstall k addr len s) :=
  .next (h.kciRun fun _ h => h.check (.mk (.setCrt h h.staging)))

theorem State.Ok.execLcTransitionArm {k target} (h : s.Ok) : NextOk (execLcTransitionArm k target s) := by
  refine .next (h.kciRun fun s h => h.check ?_)
  have h1 : (s.freshBytes 16).2.Ok := h.freshBytes
  exact .mk (.setCrt h1 h1.staging)

theorem State.Ok.armExpiry {cc} (h : s.Ok) : (s.armExpiry cc).Ok := by
  dsimp only [State.armExpiry]
  split
  · exact .ite (.setCrt h.at h.at.staging) h.at
  · exact h.at

theorem State.Ok.execLcArmExpiry {cc} (h : s.Ok) : NextOk (execLcArmExpiry cc s) := .next h.armExpiry

theorem State.Ok.execCertRead {k dest} (h : s.Ok) : NextOk (execCertRead k dest s) := .next (h.kciRun fun _ h => h.check (.mk h.putHost))

theorem State.Ok.execTamperQuery {k} (h : s.Ok) : NextOk (execTamperQuery k s) := .next (h.kciRun fun _ h => h.check h)

theorem State.Ok.execTamperClear {k} (h : s.Ok) : NextOk (execTamperClear k s) :=
  .next (h.kciRun fun _ h => h.check (.mk (.itinEvent (.ite (.setCrt h h.staging) (.loadKey (.setCrt h h.staging))))))

theorem State.Ok.execFwStageBegin {k len} (h : s.Ok) : NextOk (execFwStageBegin k len s) :=
  .next (h.kciRun fun _ h => h.check (.mk (.setCrt h Memory.wf_nil)))

theorem State.Ok.execFwStageWrite {k offset src len} (h : s.Ok) : NextOk (execFwStageWrite k offset src len s) :=
  .next (h.kciRun fun _ h => h.check (.mk (.setCrt h (Memory.writeN_wf _ _ h.staging))))

theorem State.Ok.execFwStageVerify {k} (h : s.Ok) : NextOk (execFwStageVerify k s) :=
  .next (h.kciRun fun _ h => h.check (.mk (.setCrt h h.staging)))

theorem State.Ok.imageActive {b} (h : s.Ok) : (s.imageActive b).Ok := h.itinEvent

theorem Cartouche.unstage_wf {c : Cartouche} (hc : c.staging.wf = true) : c.unstage.staging.wf = true := by
  unfold Cartouche.unstage
  split
  · exact Memory.wf_nil
  · exact hc

theorem State.Ok.fwMove (h : s.Ok) : s.fwMove.Ok := by
  unfold State.fwMove
  extract_lets _ _ _ s1
  have h1 : s1.Ok := .setCrt h h.staging
  clear_value s1
  split
  · exact .progress (.setCrt h1 (Cartouche.unstage_wf h1.staging))
  · exact .withCmp (.setCrt h1 h1.staging) rfl rfl

theorem State.Ok.fwCopied (h : s.Ok) : s.fwCopied.Ok :=
  h.ite (.ite (.progress (.setCrt (.setCrt h.fresh h.fresh.staging) h.fresh.staging)) (.fwMove (.setCrt h.fresh h.fresh.staging)))

theorem State.Ok.execFwActivate {k} (h : s.Ok) :
    NextOk (execFwActivate k s) := .next (h.kciRun fun _ h => h.check (.mk (.setCrt h h.staging)))

theorem State.Ok.execFwQuery {k} (h : s.Ok) : NextOk (execFwQuery k s) := .next (h.kciRun fun _ h => h.check h)

theorem State.Ok.execFwSvnCommit {k v} (h : s.Ok) : NextOk (execFwSvnCommit k v s) :=
  .next (h.kciRun fun _ h => h.check (.mk (.setCrt h h.staging)))

theorem State.Ok.execSettingsSave {k} (h : s.Ok) :
    NextOk (execSettingsSave k s) := .next (h.kciRun fun _ h => h.check (.mk (.setCrt h h.staging)))

theorem State.Ok.execSettingsClear {k} (h : s.Ok) : NextOk (execSettingsClear k s) :=
  .next (h.kciRun fun _ h => h.check (.mk (.setCrt h h.staging)))

theorem State.Ok.execConfigExport {k dest maxLen} (h : s.Ok) : NextOk (execConfigExport k dest maxLen s) :=
  .next (h.kciRun fun _ h => h.check (.mk h.putHost))

theorem State.Ok.execItinExport {k seq count dest} (h : s.Ok) : NextOk (execItinExport k seq count dest s) :=
  .next (h.kciRun fun _ h => h.check (.mk h.putHost))

theorem State.Ok.execItinExportAck {k seq} (h : s.Ok) : NextOk (execItinExportAck k seq s) :=
  .next (h.kciRun fun _ h => h.check (.mk (.setCrt h h.staging)))

theorem State.Ok.execItinCheckpoint {k} (h : s.Ok) :
    NextOk (execItinCheckpoint k s) := .next (h.kciRun fun _ h => h.check (.mk h.checkpoint))

theorem State.Ok.execItinCkptRead {k number dest} (h : s.Ok) : NextOk (execItinCkptRead k number dest s) := by
  unfold Machine.execItinCkptRead
  refine .next (h.kciRun fun _ h => ?_)
  split
  · exact h.check h.fail
  · exact h.check (.mk h.putHost)

theorem State.Ok.execItinJournalWrite (h : s.Ok) : NextOk (execItinJournalWrite s) := .next (.setCrt h h.staging)

/-! ### Cfl.lean -/

theorem State.Ok.groupDefine {k given} (h : s.Ok) : (State.groupDefine k given s).Ok := h.check (.mk h.setGroup)

theorem State.Ok.execCflGroupDefine {k g} (h : s.Ok) : NextOk (execCflGroupDefine k g s) := .next (h.kciRun fun _ h => h.groupDefine)

theorem State.Ok.cflGrantAll {g} (h : s.Ok) : (s.cflGrantAll g).Ok := by
  dsimp only [State.cflGrantAll]
  refine h.foldl fun _ _ h => ?_
  split
  · rename_i hu
    exact (h.platTake hu).setCfl
  · exact h

theorem State.Ok.groupOpen {k gid} (h : s.Ok) : (State.groupOpen k gid s).Ok := by
  dsimp only [State.groupOpen]
  refine h.check ?_
  split
  · exact h.fail
  · refine h.fail.ite (h.fail.ite ?_)
    split
    · exact h.fail
    · rename_i hu
      exact .mk (h.platReserve hu).setGroup.cflGrantAll

theorem State.Ok.execCflGroupOpen {k group} (h : s.Ok) : NextOk (execCflGroupOpen k group s) := .next (h.kciRun fun _ h => h.groupOpen)

theorem State.Ok.cflClose {g} (h : s.Ok) : (s.cflClose g).Ok := by
  unfold State.cflClose
  extract_lets _ _ _ s1 s2
  have h1 : s1.Ok := h.platFreeAll
  have h2 : s2.Ok := h1.getD fun _ hu => h1.platReserve hu
  exact (h2.foldl fun _ _ h => h.progress).setCfl.setGroup

theorem State.Ok.execCflGroupClose {k group} (h : s.Ok) : NextOk (execCflGroupClose k group s) := by
  unfold Machine.execCflGroupClose
  refine .next (h.kciRun fun _ h => h.check ?_)
  split
  · exact h.fail
  · exact h.fail.ite (.mk (h.cflClose.ite h).unconfig)

theorem State.Ok.execCflSubmit {k rank desc} (h : s.Ok) : NextOk (execCflSubmit k rank desc s) := by
  dsimp only [Machine.execCflSubmit]
  refine .next (h.kciRun fun _ h => h.check ?_)
  split
  · exact h.fail
  · refine h.fail.ite ?_
    split
    · exact .mk h.cflSubmit
    · exact .mk h.cflSubmit

theorem State.Ok.cflRefuse {t m st} (h : s.Ok) : (s.cflRefuse t m st).Ok := h.toMesh

theorem State.Ok.cflTileTake {t m} (h : s.Ok) : (s.cflTileTake t m).Ok := by
  dsimp only [State.cflTileTake]
  refine h.cflRefuse.ite ?_
  split
  · exact h.cflRefuse
  · exact h.cflRefuse.ite h.cflSubmit

theorem State.Ok.execCflTileSubmit {t} (h : s.Ok) : NextOk (execCflTileSubmit t s) := by
  dsimp only [Machine.execCflTileSubmit]
  refine .next ?_
  split
  · exact .cflTileTake (h.withGrid rfl)
  · exact h

theorem State.Ok.cflRefuseAccel {l p st} (h : s.Ok) : (s.cflRefuseAccel l p st).Ok := h.toAccel

theorem State.Ok.execCollSubmitPacket {lport} (h : s.Ok) : NextOk (execCollSubmitPacket lport s) := by
  dsimp only [Machine.execCollSubmitPacket]
  refine .next ?_
  split
  · refine h.ite ?_
    split
    · exact h.ingressPop.cflRefuseAccel
    · split
      · exact h.ingressPop.cflRefuseAccel
      · exact h.ingressPop.cflRefuseAccel.ite h.ingressPop.cflSubmit
  · exact h

theorem State.Ok.execCollectiveStart {group rank} (h : s.Ok) : NextOk (execCollectiveStart group rank s) := .next h.cflStart

theorem State.Ok.cflHeldEnds {e st} (h : s.Ok) : (s.cflHeldEnds e st).Ok := by
  dsimp only [State.cflHeldEnds]
  split
  · exact h.countCfl.setCfl.w1cSet.notifyRecorded
  · exact h

theorem State.Ok.cflHeldStart {es} : ∀ {n s}, State.Ok s → (State.cflHeldStart es n s).Ok
  | 0, _, h => h
  | n + 1, s, h => by
    unfold State.cflHeldStart
    split
    · exact h
    · split
      · exact h
      · exact h.cflBegin.cflHeldStart

theorem State.Ok.cflEndOne {e st} (h : s.Ok) : (s.cflEndOne e st).Ok := by
  dsimp only [State.cflEndOne]
  split
  · exact h
  · exact (h.ite h.cflAbort).cflHeldStart

theorem State.Ok.cflEndAll {p st} (h : s.Ok) : (s.cflEndAll p st).Ok := by
  dsimp only [State.cflEndAll]
  refine ((h.foldl fun _ _ h => h.cflEndOne).cflHeldStart.foldl fun _ _ h => h.cflHeldEnds).foldl fun _ _ h => ?_
  split
  · exact h.cflEnd
  · exact h

theorem State.Ok.cflAbortJob {job part} (h : s.Ok) : (s.cflAbortJob job part).Ok := h.cflEndAll

theorem State.Ok.cflAbortCmd {k what} (h : s.Ok) : (State.cflAbortCmd k what s).Ok := by
  dsimp only [State.cflAbortCmd]
  split
  · refine h.check ?_
    split
    · exact h.fail
    · exact .mk (h.cflEndOne.ite h)
  · exact h.check (.mk h.cflEndAll)
  · exact .mk h.cflAbortJob

theorem State.Ok.execCflGroupDelete {k group} (h : s.Ok) : NextOk (execCflGroupDelete k group s) := by
  unfold Machine.execCflGroupDelete
  refine .next (h.kciRun fun _ h => h.check ?_)
  split
  · exact h.fail
  · exact h.fail.ite (.mk h.cflEndAll.setCfl.unconfig)

theorem State.Ok.execCflAbort {k what} (h : s.Ok) : NextOk (execCflAbort k what s) := .next (h.kciRun fun _ h => h.cflAbortCmd)

theorem State.Ok.execCflGroupQuery {k group} (h : s.Ok) : NextOk (execCflGroupQuery k group s) := by
  unfold Machine.execCflGroupQuery
  refine .next (h.kciRun fun _ h => h.check ?_)
  split
  · exact h.fail
  · exact h

theorem State.Ok.execCflDigest {k group desc} (h : s.Ok) : NextOk (execCflDigest k group desc s) := by
  unfold Machine.execCflDigest
  refine .next (h.kciRun fun _ h => h.check ?_)
  split
  · exact h.fail
  · split
    · exact h
    · exact h.fail

theorem State.Ok.execCflProgTimeout {group seq cc} (h : s.Ok) : NextOk (execCflProgTimeout group seq cc s) := by
  dsimp only [Machine.execCflProgTimeout]
  refine .next ?_
  split
  · exact h.at
  · split
    · exact h.at.cflAbort
    · exact h.at

theorem State.Ok.cflInbox {die ok p u} (h : s.Ok) (hu : s.cflInbox die ok = some (p, u)) : u.Ok := by
  obtain ⟨r, -, hr⟩ := Option.map_eq_some_iff.1 hu
  obtain ⟨-, rfl⟩ := Prod.mk.inj hr
  exact h.setFab

theorem State.Ok.cflReceive {die ok} {go : State → CflGroup → Nat → Packet → State} (h : s.Ok) (hgo : ∀ s g rank p, s.Ok → (go s g rank p).Ok) :
    (s.cflReceive die ok go).Ok := by
  unfold State.cflReceive
  split
  · exact h
  · rename_i hu
    have h1 := h.cflInbox hu
    split
    · exact h1
    · split
      · exact h1
      · exact .ite (hgo _ _ _ _ h1) h1

theorem State.Ok.cflAfter {id} (h : s.Ok) : (s.cflAfter id).Ok := h.cflAccelPool.cflStep

theorem State.Ok.execCflBlockReceive {die} (h : s.Ok) : NextOk (execCflBlockReceive die s) :=
  .next (h.cflReceive fun _ _ _ _ h => h.cflArrive fun _ _ h => h.cflAfter)

theorem State.Ok.cflCreditTake {g rank p} (h : s.Ok) : (s.cflCreditTake g rank p).Ok := h.setCfl.cflDrain.foldl fun _ _ h => h.cflFinish

theorem State.Ok.execCflCreditReceive {die} (h : s.Ok) : NextOk (execCflCreditReceive die s) :=
  .next (h.cflReceive fun _ _ _ _ h => h.cflCreditTake)

theorem State.Ok.execDigestUpReceive {die} (h : s.Ok) : NextOk (execDigestUpReceive die s) :=
  .next (h.cflReceive fun _ _ _ _ h => h.cflArrive fun _ _ h => h.cflStep)

theorem State.Ok.execConfirmReceive {die} (h : s.Ok) : NextOk (execConfirmReceive die s) :=
  .next (h.cflReceive fun _ _ _ _ h => h.cflArrive fun _ _ h => h.cflStep)

theorem State.Ok.execScalarReceive {die} (h : s.Ok) : NextOk (execScalarReceive die s) :=
  .next (h.cflReceive fun _ _ _ _ h => h.cflArrive fun _ _ h => h.cflStep)

theorem State.Ok.cflAbortTake {g _rank p} (h : s.Ok) : (s.cflAbortTake g _rank p).Ok := h.cflAbort.ite h

theorem State.Ok.execCflAbortReceive {die} (h : s.Ok) :
    NextOk (execCflAbortReceive die s) := .next (h.cflReceive fun _ _ _ _ h => h.cflAbortTake)

theorem State.Ok.execCflCombine {group rank seq tree segment block p1} (h : s.Ok) :
    NextOk (execCflCombine group rank seq tree segment block p1 s) := by
  unfold Machine.execCflCombine
  refine .next ?_
  split
  · refine h.getD fun _ hu => ?_
    obtain ⟨_, hc, rfl⟩ := Option.map_eq_some_iff.1 hu
    exact (h.cflCombine hc).cflStep
  · exact h

/-! ### Converter.lean -/

theorem State.Ok.dequantise {l p} (h : s.Ok) : (s.dequantise l p).2.Ok := by
  dsimp only [State.dequantise]
  split
  · exact h
  · exact h.countSub

theorem State.Ok.srReseed {port seed} (h : s.Ok) : (s.srReseed port seed).Ok := h.setPort

theorem State.Ok.execBrgSrReseed {port value} (h : s.Ok) : NextOk (execBrgSrReseed port value s) := .next (h.srReseed.ite h)

/-! ### Links.lean -/

theorem State.Ok.linkRecord {l} (h : s.Ok) : (s.linkRecord l).Ok := h.itinEvent

theorem State.Ok.dataPath {l off} (h : s.Ok) : (s.dataPath l off).Ok := by
  dsimp only [State.dataPath]
  split
  · exact h
  · exact h.ite h.setPort.emit

theorem State.Ok.train {l} (h : s.Ok) : (s.train l).Ok := h.dataPath.onSub

theorem State.Ok.rxEnd {l} (h : s.Ok) : (s.rxEnd l).Ok := by
  dsimp only [State.rxEnd]
  split
  · exact h
  · refine h.onSub.onSub.drop.creditBack.ite ?_
    split
    · exact h.onSub.cutLoad
    · exact h.onSub.drop.creditBack
    · exact h.onSub

theorem State.Ok.enterUp {l} (h : s.Ok) : (s.enterUp l).Ok := h.setFab.onSub.linkRecord.unmark.shtRouteBack.progress

theorem State.Ok.dropCur {l} (h : s.Ok) : (s.dropCur l).Ok := by
  dsimp only [State.dropCur]
  split
  · exact h
  · split
    · exact h.takeCells.onSub
    · exact h.takeCells.onSub.setLoad.drop.copyDone

theorem State.Ok.leaveUp {l st cause} (h : s.Ok) : (s.leaveUp l st cause).Ok := h.dropCur.rxEnd.onSub.linkRecord.markLost

theorem State.Ok.loseLink {l cause} (h : s.Ok) : (s.loseLink l cause).Ok := .scanLost (.progress (.notify (.tally (.withFlt h.leaveUp))))

theorem State.Ok.failAttempt {l cause st} (h : s.Ok) : (s.failAttempt l cause st).Ok :=
  (h.onSub.notify.ite h.onSub).progress.ite (h.onSub.notify.ite h.onSub)

theorem State.Ok.execTrainingComplete {lport cc} (h : s.Ok) : NextOk (execTrainingComplete lport cc s) :=
  .next (h.at.ite (h.at.onSub.enterUp.ite h.at.onSub.onSub))

theorem State.Ok.execTrainingTimeout {lport cc} (h : s.Ok) : NextOk (execTrainingTimeout lport cc s) := .next (h.at.failAttempt.ite h.at)

theorem State.Ok.execDownHoldoffExpiry {lport cc} (h : s.Ok) : NextOk (execDownHoldoffExpiry lport cc s) := .next (h.at.train.ite h.at)

theorem State.Ok.unitIn {l u} (h : s.Ok) : (s.unitIn l u).2.Ok := by
  dsimp only [State.unitIn]
  refine .iteSnd h ?_
  split
  · exact h.fecIn
  · exact h.fecIn.countSub.onSub.ite h.fecIn.countSub

theorem State.Ok.execLinkIdSend {lport cc} (h : s.Ok) : NextOk (execLinkIdSend lport cc s) :=
  .next (h.at.ite (h.at.emit.onSub.ite (h.at.emit.onSub.onSub.enterUp.ite h.at.emit.onSub.onSub)))

theorem State.Ok.takeLinkId {l id} (h : s.Ok) : (s.takeLinkId l id).Ok := h.failAttempt.ite (h.onSub.failAttempt.notify.ite h.onSub)

theorem State.Ok.execLinkIdReceive {lport u} (h : s.Ok) : NextOk (execLinkIdReceive lport u s) := by
  unfold Machine.execLinkIdReceive
  refine .next ?_
  split
  · rename_i hu
    exact (State.Ok.ofSnd hu h.unitIn).takeLinkId.ite (State.Ok.ofSnd hu h.unitIn)
  · rename_i hu
    exact State.Ok.ofSnd hu h.unitIn

theorem State.Ok.execIdentTimeout {lport cc} (h : s.Ok) : NextOk (execIdentTimeout lport cc s) := .next (h.at.failAttempt.ite h.at)

theorem State.Ok.execAlignmentLoss {lport cc} (h : s.Ok) : NextOk (execAlignmentLoss lport cc s) := by
  dsimp only [Machine.execAlignmentLoss]
  refine .next ?_
  split
  · exact h.at.loseLink
  · exact h.at.failAttempt
  · exact h.at

theorem State.Ok.execNoGoodUnitTimeout {lport cc} (h : s.Ok) : NextOk (execNoGoodUnitTimeout lport cc s) := .next (h.at.loseLink.ite h.at)

theorem State.Ok.takeLinkCtl {l w} (h : s.Ok) : (s.takeLinkCtl l w).Ok := h.setSub.countSub.drift.ite h.setSub

theorem State.Ok.execLinkCtrlReceive {lport bytes corr uncorr} (h : s.Ok) : NextOk (execLinkCtrlReceive lport bytes corr uncorr s) := by
  unfold Machine.execLinkCtrlReceive
  refine .next ?_
  split
  · rename_i hu
    exact (State.Ok.ofSnd hu h.unitIn).takeLinkCtl.ite (State.Ok.ofSnd hu h.unitIn)
  · rename_i hu
    exact State.Ok.ofSnd hu h.unitIn

theorem State.Ok.takeCtrl {l p} (h : s.Ok) : (s.takeCtrl l p).Ok := h.enterFabric.ite h.onSub

theorem State.Ok.takeWhole {l p} (h : s.Ok) : (s.takeWhole l p).Ok := h.dequantise.enterFabric.ite h.onSub

theorem State.Ok.takeHead {l p} (h : s.Ok) : (s.takeHead l p).Ok :=
  h.rxEnd.drop.creditBack.onSub.ite (h.rxEnd.onSub.ite (h.rxEnd.enterFabric.onSub.ite h.rxEnd.onSub))

theorem State.Ok.takeData {l vc body} (h : s.Ok) : (s.takeData l vc body).Ok := by
  unfold State.takeData
  split
  · exact h.drop.creditBack
  · extract_lets _ _ _ _ s1 s2
    have h1 : s1.Ok := h.onSub
    have h2 : s2.Ok := by
      dsimp only [s2]
      split
      · exact h1.copyData
      · exact h1
    refine h2.onSub.ite ?_
    split
    · exact h2.cellArrive.ite h2.creditBack
    · exact h2.takeWhole.ite h2
    · exact h2.creditBack

theorem State.Ok.execSequencedUnitReceive {lport u} (h : s.Ok) : NextOk (execSequencedUnitReceive lport u s) := by
  unfold Machine.execSequencedUnitReceive
  refine .next ?_
  split
  · rename_i hu
    exact State.Ok.ofSnd hu h.unitIn
  · rename_i u1 hu
    have hin : u1.Ok := State.Ok.ofSnd hu h.unitIn
    refine hin.ite (.ite ?order ?take)
    case order => exact hin.onSub.ite hin.onSub.onSub
    case take => exact hin.onSub.onSub.takeCtrl.ite (hin.onSub.onSub.takeHead.ite hin.onSub.onSub.takeData)

/-! ### Cmis.lean -/

theorem State.Ok.setCmis {port c} (h : s.Ok) : (s.setCmis port c).Ok := h.setPort

theorem State.Ok.cmisHoldSub {l} (h : s.Ok) : (s.cmisHoldSub l).Ok := by
  dsimp only [State.cmisHoldSub]
  split
  · exact h.onSub.leaveUp.progress.scanLost
  · exact h.onSub.onSub.progress
  · exact h.onSub.onSub.progress
  · exact h.onSub.onSub.progress
  · exact h.onSub

theorem State.Ok.cmisSilent {port} (h : s.Ok) : (s.cmisSilent port).Ok := h.setCmis.notify.foldl fun _ _ h => h.cmisHoldSub

theorem State.Ok.execCmisPresence {port present ack pages cc} (h : s.Ok) : NextOk (execCmisPresence port present ack pages cc s) :=
  .next (h.at.ite ((h.at.setCmis.foldl fun _ _ h => h.onSub).cmisSilent.ite (h.at.setCmis.foldl fun _ _ h => h.onSub)))

theorem State.Ok.cmisRead {port ack page10 page11} (h : s.Ok) : (s.cmisRead port ack page10 page11).Ok := h.cmisSilent.ite h.setCmis

theorem State.Ok.execCmisPoll {port ack page10 page11 cc} (h : s.Ok) : NextOk (execCmisPoll port ack page10 page11 cc s) :=
  .next (h.at.cmisRead.ite h.at)

theorem State.Ok.execCmisInterrupt {port ack page10 page11 cc} (h : s.Ok) : NextOk (execCmisInterrupt port ack page10 page11 cc s) :=
  .next (h.at.cmisRead.ite h.at)

theorem State.Ok.execPortCmisRead {k port bank page offset len} (h : s.Ok) : NextOk (execPortCmisRead k port bank page offset len s) := by
  dsimp only [Machine.execPortCmisRead]
  refine .next (h.kciRun fun _ h => h.check (.ite (.mk h.cmisSilent) ?_))
  split
  · exact h.fail
  · exact h

/-! ### Compass.lean -/

theorem State.Ok.execKciRingsSet {k cmdRing evtRing vector} (h : s.Ok) : NextOk (execKciRingsSet k cmdRing evtRing vector s) :=
  .next (h.kciRun fun _ h => h.check (.ite (.mk h.setFn) (h.check (.mk h.setFn.flushNotices))))

theorem State.Ok.cmdDoorbell {f v} (h : s.Ok) : (s.cmdDoorbell f v).Ok := h.accessError.ite h.setFn

theorem State.Ok.execCmdDoorbell {f v} (h : s.Ok) : NextOk (execCmdDoorbell f v s) := .next h.cmdDoorbell

theorem State.Ok.evtHeadWrite {f v} (h : s.Ok) : (s.evtHeadWrite f v).Ok := h.accessError.ite h.setFn.flushNotices

theorem State.Ok.execEvtHeadWrite {f v} (h : s.Ok) : NextOk (execEvtHeadWrite f v s) := .next h.evtHeadWrite

theorem State.Ok.mboxGo {f v} (h : s.Ok) : (s.mboxGo f v).Ok := h.ite (h.accessError.ite h.setFn)

theorem State.Ok.execMboxGo {f v} (h : s.Ok) : NextOk (execMboxGo f v s) := .next h.mboxGo

theorem State.Ok.mgmtRespond {r} (h : s.Ok) : (s.mgmtRespond r).Ok := by
  dsimp only [State.mgmtRespond]
  split
  · exact .emit (h.withCmp rfl rfl)
  · exact h

theorem State.Ok.commandComplete {src mbox tag} (h : s.Ok) : (s.commandComplete src mbox tag).Ok := by
  unfold State.commandComplete
  split
  · exact h
  · extract_lets _ _ _ _ _ s1 s2
    have h1 : s1.Ok := by
      dsimp only [s1]
      split
      · exact h.itinCommand
      · exact h
    have h2 : s2.Ok := h1.setInflight
    refine h.ite ?_
    split
    · exact h2.mgmtRespond
    · exact h2.setFn.ite (h2.ite h2.postEvent)

theorem State.Ok.execCommandComplete {src mbox tag} (h : s.Ok) : NextOk (execCommandComplete src mbox tag s) := .next h.commandComplete

theorem State.Ok.msixDeferred {f vector cc} (h : s.Ok) : (s.msixDeferred f vector cc).Ok := h.at.setFn.emit.ite h.at

theorem State.Ok.execMsixDeferred {f vector cc} (h : s.Ok) : NextOk (execMsixDeferred f vector cc s) := .next h.msixDeferred

theorem State.Ok.execModuleIdentity {k} (h : s.Ok) : NextOk (execModuleIdentity k s) := .next (h.kciRun fun _ h => h)

theorem State.Ok.execIdmemRead {k source offset len dest} (h : s.Ok) : NextOk (execIdmemRead k source offset len dest s) :=
  .next (h.kciRun fun _ h => h.check (.mk h.putHost))

theorem State.Ok.ptpGo {st} (h : s.Ok) : (s.ptpGo st).Ok := h.ite (.notify (h.withCmp rfl rfl))

theorem State.Ok.execPtpSet {k enable domain} (h : s.Ok) : NextOk (execPtpSet k enable domain s) :=
  .next (h.kciRun fun _ h => h.check (.mk (.ite (.ptpGo (h.withCmp rfl rfl)) (.ite (.ptpGo (h.withCmp rfl rfl)) (h.withCmp rfl rfl)))))

theorem State.Ok.execTimeQuery {k} (h : s.Ok) : NextOk (execTimeQuery k s) := .next (h.kciRun fun _ h => h)

theorem State.Ok.ptpMessage {offset cc} (h : s.Ok) : (s.ptpMessage offset cc).Ok :=
  h.at.ite (.ite (.ptpGo (.withCmp h.at rfl rfl)) (.withCmp h.at rfl rfl))

theorem State.Ok.execPtpMessageReceive {offset cc} (h : s.Ok) : NextOk (execPtpMessageReceive offset cc s) := .next h.ptpMessage

theorem State.Ok.ptpMissing {cc} (h : s.Ok) : (s.ptpMissing cc).Ok := h.at.ite h.at.ptpGo

theorem State.Ok.execPtpSyncMissing {cc} (h : s.Ok) : NextOk (execPtpSyncMissing cc s) := .next h.ptpMissing

theorem State.Ok.ptpHoldover {cc} (h : s.Ok) : (s.ptpHoldover cc).Ok := h.at.ptpGo.ite h.at

theorem State.Ok.execPtpHoldoverTimeout {cc} (h : s.Ok) : NextOk (execPtpHoldoverTimeout cc s) := .next h.ptpHoldover

theorem State.Ok.ptpLatch {cc} (h : s.Ok) : (s.ptpLatch cc).Ok := .ite (.withCmp h.at rfl rfl) h.at

theorem State.Ok.execPtpSecondLatch {cc} (h : s.Ok) : NextOk (execPtpSecondLatch cc s) := .next h.ptpLatch

theorem State.Ok.execMgmtPortSet {k addr pfxLen udpPort permitted notices} (h : s.Ok) :
    NextOk (execMgmtPortSet k addr pfxLen udpPort permitted notices s) :=
  .next (h.kciRun fun _ h => h.check (.mk (h.withCmp rfl rfl)))

theorem State.Ok.execMgmtKeySet {k key} (h : s.Ok) : NextOk (execMgmtKeySet k key s) :=
  .next (h.kciRun fun _ h => h.check (.mk (h.withCmp rfl rfl)))

theorem State.Ok.mgmtDrop {srcAddr} (h : s.Ok) : (s.mgmtDrop srcAddr).Ok :=
  .ite (.notify (.withCmp (.tally (h.withCmp rfl rfl)) rfl rfl)) (.tally (h.withCmp rfl rfl))

theorem State.Ok.mgmtDatagramIn {srcAddr srcPort bytes} (h : s.Ok) : (s.mgmtDatagramIn srcAddr srcPort bytes).Ok := by
  dsimp only [State.mgmtDatagramIn]
  split
  · exact h
  · refine h.ite (h.mgmtDrop.ite (h.mgmtDrop.ite ?_))
    split
    · split
      · exact h.emit
      · exact h
    · exact h.mgmtDrop.ite (h.withCmp rfl rfl)

theorem State.Ok.execMgmtDatagram {srcAddr srcPort bytes} (h : s.Ok) :
    NextOk (execMgmtDatagram srcAddr srcPort bytes s) := .next h.mgmtDatagramIn

theorem State.Ok.resetFn {f} (h : s.Ok) : (s.resetFn f).Ok := .withCmp h.setFn.setInflight rfl rfl

theorem State.Ok.flrEnds (h : s.Ok) : s.flrEnds.Ok := h.withCmp rfl rfl

theorem State.Ok.execFunctionLevelReset {f} (h : s.Ok) : NextOk (execFunctionLevelReset f s) := .next h.resetFn

theorem State.Ok.hostLinkDown (h : s.Ok) : s.hostLinkDown.Ok := .itinEvent (.withCmp (h.foldl fun _ _ h => h.resetFn) rfl rfl)

theorem State.Ok.execHostLinkDown (h : s.Ok) : NextOk (execHostLinkDown s) := .next h.hostLinkDown

theorem State.Ok.execHostLinkUp {gen5} (h : s.Ok) : NextOk (execHostLinkUp gen5 s) := .next (h.withCmp rfl rfl)

theorem State.Ok.regionRestart {d r cc} (h : s.Ok) : (s.regionRestart d r cc).Ok := h.at.ite (.notifyRecorded (.withLay h.at))

theorem State.Ok.execRegionSurveyorRestart {d r cc} (h : s.Ok) : NextOk (execRegionSurveyorRestart d r cc s) := .next h.regionRestart

theorem State.Ok.quadRestart {d cc} (h : s.Ok) : (s.quadRestart d cc).Ok := h.at.ite (.notifyRecorded (.withLay h.at))

theorem State.Ok.execQuadrantSurveyorRestart {d cc} (h : s.Ok) : NextOk (execQuadrantSurveyorRestart d cc s) := .next h.quadRestart

theorem State.Ok.deliverHeld {o subject q} (h : s.Ok) : (s.deliverHeld o subject q).Ok := (h.sendUp.ite h).foldl fun _ _ h => h.sendUp

theorem State.Ok.quadFlush {d} (h : s.Ok) : (s.quadFlush d).Ok := h.ite (.deliverHeld h.withLay)

theorem State.Ok.surveyorDone {d region} (h : s.Ok) : (s.surveyorDone d region).Ok := by
  dsimp only [State.surveyorDone]
  split
  · exact h.ite (.deliverHeld h.withLay)
  · exact h.ite (.quadFlush h.withLay)

theorem State.Ok.execSurveyorRestartDone {d region} (h : s.Ok) : NextOk (execSurveyorRestartDone d region s) := .next h.surveyorDone

theorem State.Ok.bridgeRetry {b parts} (h : s.Ok) : (s.bridgeRetry b parts).Ok := .drift h.withLay

theorem State.Ok.execBridgeRetry {b parts} (h : s.Ok) : NextOk (execBridgeRetry b parts s) := .next h.bridgeRetry

theorem State.Ok.execDmaqSet {k q base log vector enable} (h : s.Ok) : NextOk (execDmaqSet k q base log vector enable s) :=
  .next (h.kciRun fun _ h => h.check (.mk (h.withCmp rfl rfl)))

theorem State.Ok.dmaqDoorbell {f q v} (h : s.Ok) : (s.dmaqDoorbell f q v).Ok := h.accessError.ite (h.withCmp rfl rfl)

theorem State.Ok.execDmaqDoorbell {f q v} (h : s.Ok) : NextOk (execDmaqDoorbell f q v s) := .next h.dmaqDoorbell

/-! ### Ethernet.lean -/

theorem State.Ok.shedFrame {l cause part} (h : s.Ok) : (s.shedFrame l cause part).Ok :=
  h.countSub.onSub.onCtr.tallyCtr.drift.ite h.countSub.onSub.onCtr.tallyCtr.drift.setSub.notify

theorem State.Ok.unpQueue {l u} (h : s.Ok) : (s.unpQueue l u).Ok := .onSub (h.getDSnd fun _ _ hu => h.platTakeN hu)

theorem State.Ok.unpPlace {l u} (h : s.Ok) :
    (s.unpPlace l u).Ok := h.unpQueue.ite (h.shedFrame.ite (h.ringMem.countSub.onSub.ite h.shedFrame))

theorem State.Ok.unpPop {l u} (h : s.Ok) : (s.unpPop l u).Ok := h.platFreeAll.onSub

theorem State.Ok.execSpillRingMove {lport} (h : s.Ok) : NextOk (execSpillRingMove lport s) := by
  dsimp only [Machine.execSpillRingMove]
  refine .next ?_
  split
  · exact h.ringMem.onSub.unpQueue.ite h
  · exact h

theorem State.Ok.execUnpFrameInject {lport cc} (h : s.Ok) : NextOk (execUnpFrameInject lport cc s) := by
  dsimp only [Machine.execUnpFrameInject]
  refine .next ?_
  split
  · exact h.at.unpPop.shedFrame.ite h.at.unpPop.toMesh
  · exact h.at

theorem State.Ok.execIngressDeadlineShed {lport cc} (h : s.Ok) : NextOk (execIngressDeadlineShed lport cc s) := by
  dsimp only [Machine.execIngressDeadlineShed]
  refine .next ?_
  split
  · exact h.at.unpPop.shedFrame.ite h.at
  · exact h.at

theorem State.Ok.steerFrame {l bs} (h : s.Ok) : (s.steerFrame l bs).Ok := by
  dsimp only [State.steerFrame]
  split
  · exact h.drop
  · exact h.setFab.drop.ite (h.setFab.drop.ite (h.setFab.unpPlace.ite h.setFab.toMesh))

theorem State.Ok.execEthFrameReceive {lport cc frame} (h : s.Ok) : NextOk (execEthFrameReceive lport cc frame s) := by
  dsimp only [Machine.execEthFrameReceive]
  refine .next (h.at.ite ?_)
  split
  · exact h.at.fecIn.drop
  · exact h.at.fecIn.steerFrame.ite h.at.fecIn.drop

theorem State.Ok.takePause {l bs} (h : s.Ok) : (s.takePause l bs).Ok := h.ite (h.onCtr.ite (h.onCtr.ite h))

theorem State.Ok.execPauseReceive {lport cc frame} (h : s.Ok) : NextOk (execPauseReceive lport cc frame s) := by
  dsimp only [Machine.execPauseReceive]
  refine .next (h.at.ite ?_)
  split
  · exact h.at.fecIn.drop
  · exact h.at.fecIn.takePause

theorem State.Ok.execPauseTimerExpiry {lport cls cc} (h : s.Ok) : NextOk (execPauseTimerExpiry lport cls cc s) := by
  dsimp only [Machine.execPauseTimerExpiry]
  refine .next ?_
  split
  · exact h.at.onCtr.ite h.at
  · exact h.at

theorem State.Ok.sendPfc {l} (h : s.Ok) : (s.sendPfc l).2.Ok := by
  dsimp only [State.sendPfc]
  exact .iteSnd h h.emit.setSub

theorem State.Ok.frameNotice {n part st} (h : s.Ok) : (s.frameNotice n part st).Ok := by
  unfold State.frameNotice
  split
  · exact h.toMesh
  · exact h

theorem State.Ok.egressTake {t m} (h : s.Ok) : (s.egressTake t m).Ok := by
  dsimp only [State.egressTake]
  split
  · exact h.drop.frameNotice
  · exact h.enqueue

theorem State.Ok.execPortEgressRequest {t} (h : s.Ok) : NextOk (execPortEgressRequest t s) := by
  dsimp only [Machine.execPortEgressRequest]
  refine .next ?_
  split
  · exact .egressTake (h.withGrid rfl)
  · exact h

/-! ### Traverse.lean -/

theorem State.Ok.atSlot {slot} (h : s.Ok) : (s.atSlot slot).Ok := h.at

theorem State.Ok.mcastExpect {line c frame} (h : s.Ok) : (s.mcastExpect line c frame).Ok := h.setFab

theorem State.Ok.execFrameLaunch {line slot} (h : s.Ok) : NextOk (execFrameLaunch line slot s) := by
  dsimp only [Machine.execFrameLaunch]
  refine .next (h.atSlot.ite ?_)
  split
  · exact h.atSlot
  · exact (h.atSlot.mcastExpect.ite h.atSlot).setFab.foldl fun _ _ h => h.cellLaunched

theorem State.Ok.interStops {j slot} (h : s.Ok) : (s.interStops j slot).Ok := h.setFab.countTrv

theorem State.Ok.execStage2Slot {inter slot} (h : s.Ok) : NextOk (execStage2Slot inter slot s) := by
  dsimp only [Machine.execStage2Slot]
  refine .next (h.atSlot.ite (.interStops ?_))
  split
  · exact h.atSlot
  · exact h.atSlot.setFab

theorem State.Ok.fencedCopy {x tgt l} (h : s.Ok) : (s.fencedCopy x tgt l).Ok := h.setLoad.skipCopy.ite h.setLoad.drop.copyDone

theorem State.Ok.releaseAt {id idx tgt} (h : s.Ok) : (s.releaseAt id idx tgt).Ok := by
  unfold State.releaseAt
  split
  · exact h
  · refine h.ite ?_
    extract_lets _ s1
    have h1 : s1.Ok := h.setLoad
    split
    · exact h1.fencedCopy.ite ((h1.setFab.ite h1).ite h1.queueCell)
    · split
      · exact h1.setFab.copyDone.ite h1
      · exact h1
    · exact h1

theorem State.Ok.releaseCell {c} (h : s.Ok) : (s.releaseCell c).Ok := by
  dsimp only [State.releaseCell]
  split
  · exact h.setFab
  · exact h.setFab.foldl fun _ _ h => h.releaseAt

theorem State.Ok.releaseAll {line slot} : ∀ {n s}, State.Ok s → (State.releaseAll n s line slot).Ok
  | 0, _, h => h
  | n + 1, s, h => by
    unfold State.releaseAll
    extract_lets here
    split
    · exact h.setFab.countTrv.notify.releaseAll
    · split
      · exact h.releaseCell.releaseAll
      · exact h

theorem State.Ok.execCellRelease {line slot} (h : s.Ok) : NextOk (execCellRelease line slot s) := .next h.atSlot.releaseAll

theorem State.Ok.spillBack {k} : ∀ {n s}, State.Ok s → (State.spillBack n s k).Ok
  | 0, _, h => h
  | n + 1, s, h => by
    unfold State.spillBack
    extract_lets q
    split
    · exact h
    · refine h.ite ?_
      extract_lets part
      split
      · exact h
      · rename_i hu
        have h1 := h.platTake hu
        extract_lets q1 s2 got gone s3 cells q2
        have h2 : s2.Ok := by
          clear_value q1
          dsimp only [s2]
          split
          · exact h1.spillMem
          · exact h1
        have h3 : s3.Ok := h2.spillFree
        clear_value *
        exact .ite h3.setOutQ.spillBack h3.spillFree.setOutQ

theorem State.Ok.execSpillReturn {queue} (h : s.Ok) : NextOk (execSpillReturn queue s) := .next (h.ite h.spillBack.easeStop)

theorem State.Ok.execExpressRingInject {line slot} (h : s.Ok) : NextOk (execExpressRingInject line slot s) := by
  dsimp only [Machine.execExpressRingInject]
  refine .next (h.atSlot.ite (h.atSlot.foldl fun _ _ h => ?_))
  split
  · exact h.setFab.creditBack
  · exact h

theorem State.Ok.flitIn {f} (h : s.Ok) : (s.flitIn f).Ok := by
  dsimp only [State.flitIn]
  split
  · exact h.fencedFlit.ite (h.onSub.ite (h.setFab.ite h.onSub))
  · exact h.ite h.setFab

theorem State.Ok.execExpressRingDeliver {line slot} (h : s.Ok) : NextOk (execExpressRingDeliver line slot s) := by
  dsimp only [Machine.execExpressRingDeliver]
  refine .next (h.atSlot.ite (h.atSlot.foldl fun _ _ h => ?_))
  split
  · exact h.ite (h.setFab.flitIn.ite h.countTrv)
  · exact h

theorem State.Ok.execMcastCompletion {id} (h : s.Ok) : NextOk (execMcastCompletion id s) := by
  dsimp only [Machine.execMcastCompletion]
  refine .next ?_
  split
  · exact h
  · exact h.setFab.serviceSeq.enterFabric

/-! ### Contour.lean -/

theorem State.Ok.refillSub {l} (h : s.Ok) : (s.refillSub l).Ok := h.ite h.onCtr

theorem State.Ok.execShaperRefill {lport cc} (h : s.Ok) : NextOk (execShaperRefill lport cc s) := .next h.at.refillSub

theorem State.Ok.noteHeads {l} (h : s.Ok) : (s.noteHeads l).Ok := by
  unfold State.noteHeads
  refine h.foldl fun _ _ h => ?_
  split
  · exact h.ite h.onCtr
  · exact h

theorem State.Ok.countHoldsTo {l to_} (h : s.Ok) : (s.countHoldsTo l to_).Ok := by
  dsimp only [State.countHoldsTo]
  refine (h.noteHeads.foldl fun _ _ h => ?_).onCtr
  split
  · exact h.onCtr.tallyCtr.ite h
  · exact h

theorem State.Ok.countHolds {l} (h : s.Ok) : (s.countHolds l).Ok := h.countHoldsTo

theorem State.Ok.drrSelect {l} (h : s.Ok) : (s.drrSelect l).2.Ok := by
  dsimp only [State.drrSelect]
  split
  · exact h.onCtr
  · exact h.onCtr

theorem State.Ok.leaveList {l c x st} (h : s.Ok) : (s.leaveList l c x st).Ok := h.takeCells.setLoad.copyDone

theorem State.Ok.shedHead {l c} (h : s.Ok) : (s.shedHead l c).Ok := by
  dsimp only [State.shedHead]
  split
  · split
    · exact h.leaveList.onCtr.tallyCtr.drift.frameNotice
    · exact h
  · exact h

theorem State.Ok.shedHeads {l} (h : s.Ok) : (s.shedHeads l).Ok := h.foldl fun _ _ h => h.shedHead

theorem State.Ok.execEgressDeadlineShed {lport cc} (h : s.Ok) : NextOk (execEgressDeadlineShed lport cc s) :=
  .next h.at.countHoldsTo.shedHeads.noteHeads

theorem State.Ok.sendUnit {l kind vc credits body} (h : s.Ok) : (s.sendUnit l kind vc credits body).Ok := h.setSub.emit

theorem State.Ok.carry {l part} (h : s.Ok) : (s.carry l part).Ok := by
  unfold State.carry
  split
  · exact h.onSub
  · exact h

theorem State.Ok.sendIdle {l} (h : s.Ok) : (s.sendIdle l).Ok := h.onSub.emit

theorem State.Ok.sendCtl {l} (h : s.Ok) : (s.sendCtl l).Ok := h.emit.setSub

theorem State.Ok.dataUnit {l t u} (h : s.Ok) (hu : s.dataUnit l t = some u) : u.Ok := by
  unfold State.dataUnit at hu
  split at hu
  · cases hu
  · split at hu
    · cases hu
    · extract_lets k tgt mine at hu
      split at hu
      · cases hu
      · split at hu
        extract_lets s1 s2 at hu
        have h1 : s1.Ok := h.ite h.countSub
        have h2 : s2.Ok := h1.takeCells.sendUnit.carry
        clear_value s2
        cases hu
        exact h2.onSub.copyDone.ite h2.onSub

theorem State.Ok.headUnit {l c x p} (h : s.Ok) : (s.headUnit l c x p).Ok := by
  dsimp only [State.headUnit]
  refine .onSub (.carry (.sendUnit (.combineSent (.takeCells ?_))))
  split
  · exact (h.drop.ite h).setPort
  · exact h.drop.ite h

theorem State.Ok.frameOut {l c x bs note} (h : s.Ok) : (s.frameOut l c x bs note).Ok := h.emit.leaveList.frameNotice

theorem State.Ok.startPacket {l} (h : s.Ok) : (s.startPacket l).2.Ok := by
  unfold State.startPacket
  split
  · split
    · rename_i hu _ _
      exact State.Ok.ofSnd hu h.drrSelect
    · split
      · rename_i hu _ _ _ _ _ _ _
        exact (State.Ok.ofSnd hu h.drrSelect).headUnit
      · rename_i hu _ _ _ _ _ _ _ _ _
        exact (State.Ok.ofSnd hu h.drrSelect).frameOut

theorem State.Ok.laterUnit {l} (h : s.Ok) : (s.laterUnit l).Ok := by
  unfold State.laterUnit
  split
  rename_i b t hu
  have ht : t.Ok := by
    split at hu
    · split at hu
      · rename_i hd
        cases hu
        exact h.dataUnit hd
      · cases hu
        exact h
    · exact .ofSnd hu h.startPacket
  exact ht.ite (ht.sendCtl.ite ht.sendIdle)

theorem State.Ok.plpUnit {l} (h : s.Ok) : (s.plpUnit l).Ok := by
  dsimp only [State.plpUnit]
  split
  · exact h.setSub.emit
  · split
    · exact h.setSub.sendUnit.onCtr.tallyCtr
    · exact h.sendCtl.ite h.laterUnit

theorem State.Ok.execTxUnitSelect {lport cc} (h : s.Ok) : NextOk (execTxUnitSelect lport cc s) := by
  unfold Machine.execTxUnitSelect
  refine .next ?_
  extract_lets s1 _ s2
  have h1 : s1.Ok := h.at
  have h2 : s2.Ok := h1.refillSub.countHoldsTo.shedHeads.countHolds
  clear_value *
  refine h1.ite (.ite (h1.ite ?_) ?_)
  · exact .ite h2.sendPfc h2.startPacket.noteHeads
  · split
    · exact h1.refillSub.countHolds.plpUnit.noteHeads
    · exact h1.sendIdle
    · exact h1.sendIdle
    · exact h1

theorem State.Ok.execGateEntryChange {lport cc} (h : s.Ok) : NextOk (execGateEntryChange lport cc s) := .next h.at.countHolds

theorem State.Ok.execGateListStart {lport cc} (h : s.Ok) : NextOk (execGateListStart lport cc s) := by
  dsimp only [Machine.execGateListStart]
  refine .next ?_
  split
  · exact h.at.countHoldsTo.onCtr.countHolds.ite h.at
  · exact h.at

/-! ### PortCmd.lean -/

theorem State.Ok.disableSub {l} (h : s.Ok) : (s.disableSub l).Ok := (h.leaveUp.scanLost.ite h).dataPath.onSub.progress

theorem State.Ok.configSub {l c} (h : s.Ok) : (s.configSub l c).Ok := (h.disableSub.ite h).onSub

theorem State.Ok.portConfig {k port width rate subs} (h : s.Ok) : (s.portConfig k port width rate subs).Ok :=
  h.check (.mk (((h.foldl fun _ _ h => h.onSub).ite h).setPort.foldl fun _ _ h => h.configSub))

theorem State.Ok.execPortConfig {k port width rate subs} (h : s.Ok) : NextOk (execPortConfig k port width rate subs s) :=
  .next (h.kciRun fun _ h => h.portConfig)

theorem State.Ok.startTraining {l} (h : s.Ok) : (s.startTraining l).Ok := h.onSub.onSub.progress.ite h.onSub.train

theorem State.Ok.portLink {k l a} (h : s.Ok) : (s.portLink k l a).Ok := by
  dsimp only [State.portLink]
  refine h.check ?_
  split
  · exact .mk (h.startTraining.ite h)
  · exact .ite (.mk h.leaveUp.scanLost) (.ite h (.mk h.onSub))
  · exact .ite h (.mk (h.leaveUp.scanLost.ite h).startTraining)

theorem State.Ok.execPortLink {k lport action} (h : s.Ok) : NextOk (execPortLink k lport action s) := .next (h.kciRun fun _ h => h.portLink)

theorem State.Ok.execPortStatus {k lport} (h : s.Ok) : NextOk (execPortStatus k lport s) := .next (h.kciRun fun _ h => h.check h)

theorem State.Ok.execPortPartner {k lport} (h : s.Ok) : NextOk (execPortPartner k lport s) := by
  unfold Machine.execPortPartner
  refine .next (h.kciRun fun _ h => h.check ?_)
  split
  · exact h
  · exact h.fail

theorem State.Ok.execPortSteerSet {k die index entry} (h : s.Ok) : NextOk (execPortSteerSet k die index entry s) :=
  .next (h.kciRun fun _ h => h.check (.mk h.setFab))

theorem State.Ok.execPortSteerRead {k die index} (h : s.Ok) :
    NextOk (execPortSteerRead k die index s) := .next (h.kciRun fun _ h => h.check h)

theorem State.Ok.execPortConvSet {k port conv profile} (h : s.Ok) : NextOk (execPortConvSet k port conv profile s) :=
  .next (h.kciRun fun _ h => h.check (.mk h.setPort))

/-! ### ContourCmd.lean -/

theorem State.Ok.execCtrClassCfg {k lport cls quantum} (h : s.Ok) : NextOk (execCtrClassCfg k lport cls quantum s) :=
  .next (h.kciRun fun _ h => h.check (.mk h.onCtr))

theorem State.Ok.execCtrShaperSet {k lport which enable rate burst} (h : s.Ok) :
    NextOk (execCtrShaperSet k lport which enable rate burst s) :=
  .next (h.kciRun fun _ h => h.check (.mk h.onCtr))

theorem State.Ok.gateSet {k l enable count addr} (h : s.Ok) : (s.gateSet k l enable count addr).Ok := h.fail.ite (h.check (.mk h.onCtr))

theorem State.Ok.execCtrGateSet {k lport enable count addr} (h : s.Ok) : NextOk (execCtrGateSet k lport enable count addr s) :=
  .next (h.kciRun fun _ h => h.check h.gateSet)

theorem State.Ok.execCtrGateRead {k lport dest} (h : s.Ok) : NextOk (execCtrGateRead k lport dest s) :=
  .next (h.kciRun fun _ h => h.check (.mk h.putHost))

theorem State.Ok.execCtrStatus {k lport} (h : s.Ok) : NextOk (execCtrStatus k lport s) := .next (h.kciRun fun _ h => h.check h)

/-! ### Dma.lean -/

theorem State.Ok.setQueue {q x} (h : s.Ok) : (s.setQueue q x).Ok := h.withCmp rfl rfl

theorem State.Ok.rawMsix {f v} (h : s.Ok) : (s.rawMsix f v).Ok := h.setFn.emit

theorem State.Ok.dmaRecord {x d st} (h : s.Ok) : (s.dmaRecord x d st).Ok := by
  unfold State.dmaRecord
  extract_lets s1 s2
  have h1 : s1.Ok := h.ite h.hostWrite
  have h2 : s2.Ok := h1.merSend.ite h1
  exact h2.rawMsix.ite h2

theorem State.Ok.dmaEnd {q d st} (h : s.Ok) : (s.dmaEnd q d st).Ok := h.dmaRecord.setQueue

theorem State.Ok.dmaSend {q x d a n} (h : s.Ok) : (s.dmaSend q x d a n).Ok := h.foldl fun _ _ h => h.setQueue.memSend

theorem State.Ok.dmaGot {r q host st} (h : s.Ok) : (s.dmaGot r q host st).Ok := by
  unfold State.dmaGot
  extract_lets _ s1
  have h1 : s1.Ok := h.hostWrite.ite h
  split
  · exact h
  · exact h.ite (h1.setQueue.ite (h1.setQueue.setQueue.ite (h1.setQueue.dmaEnd.ite (h1.setQueue.dmaEnd.ite h1.setQueue))))

theorem State.Ok.dmaStop {q st p} (h : s.Ok) : (s.dmaStop q st p).2.Ok := by
  dsimp only [State.dmaStop]
  exact .iteSnd h ((h.foldl fun _ _ h => h.dmaRecord).setQueue.memCancel.ite (h.foldl fun _ _ h => h.dmaRecord).setQueue)

theorem State.Ok.dmaStopAll {qs st p} (h : s.Ok) : (s.dmaStopAll qs st p).2.Ok := .foldlSnd h fun _ _ h => h.dmaStop

/-! ### Region.lean -/

theorem State.Ok.zeroBands {r} (h : s.Ok) : (s.zeroBands r).Ok := h.putStk (Memory.wf_filter h.mem)

theorem State.Ok.addRegion {r} (h : s.Ok) : (s.addRegion r).Ok := h.withStk rfl

theorem State.Ok.systemRegion {spill die kind} (h : s.Ok) : (s.systemRegion spill die kind).Ok :=
  h.ite (.ite (h.withStk rfl) (h.ite (.addRegion (.zeroBands (h.withStk rfl)))))

theorem State.Ok.setZeroing {l} (h : s.Ok) : (s.setZeroing l).Ok := h.withStk rfl

theorem State.Ok.zeroEnd {z} (h : s.Ok) : (s.zeroEnd z).Ok := h.setZeroing.progress.ite h.setZeroing.addRegion.progress

theorem State.Ok.zeroNext {id q} (h : s.Ok) : (s.zeroNext id q).Ok := by
  dsimp only [State.zeroNext]
  split
  · exact h
  · split
    · exact h
    · exact h.setZeroing.memSend.ite (h.setZeroing.zeroEnd.ite h.setZeroing)

theorem State.Ok.zeroStart {r} (h : s.Ok) : (s.zeroStart r).2.Ok := by
  unfold State.zeroStart
  extract_lets _ _ _ _ _ s1
  have h1 : s1.Ok := h.withStk rfl
  clear_value *
  exact .iteSnd h.addRegion (h1.foldl fun _ _ h => h.zeroNext)

/-! ### SparseCore.lean -/

theorem State.Ok.readBlock {part base cols i j} (h : s.Ok) : (s.readBlock part base cols i j).2.Ok := by
  unfold State.readBlock
  split
  · rename_i hu
    have h1 := State.Ok.ofSndSnd hu h.unitRead
    refine .iteSnd h1 (.iteSnd h1 ?_)
    split
    · exact h1
    · split
      · rename_i hu
        have h2 := State.Ok.ofSndSnd hu h1.unitRead
        exact .iteSnd h2 h2

/-! ### Sparse.lean -/

theorem EngM.Ok.engGaz {i n} : EngM.Ok (engGaz i n) := fun _ h => h

theorem EngM.Ok.readAct {d} : EngM.Ok (readAct d) :=
  .engMap (fun _ => .bind .readUnit fun _ => .bind (.ite (.bind .engRead fun _ => .pure _) (.pure _)) fun _ => .pure _) _

theorem EngM.Ok.countBlocks {blks sctrl} : EngM.Ok (countBlocks blks sctrl) := .bind .engGaz fun _ => .bind .engGaz fun _ => .engCountOther

theorem EngM.Ok.sparseRun {d int ms len b r accs judged} : EngM.Ok (sparseRun d int ms len b r accs judged) :=
  .bind .engCount fun _ => .bind .engGaz fun _ => .writeRun

theorem EngM.Ok.spmmRow {d sctrl acts mask ms i blks} : EngM.Ok (spmmRow d sctrl acts mask ms i blks) := by
  refine .bind .countBlocks fun _ => ?_
  extract_lets len afterPred
  have hrun : ∀ u, EngM.Ok (afterPred u) := fun _ =>
    .engEach (fun _ => .engEach (fun _ => .bind .engCountOther fun _ => .sparseRun) _) _
  exact .ite (.bind .engGaz fun _ => .bind .engGaz hrun) (.bind (.pure ()) hrun)

theorem EngM.Ok.spmmRows {d sctrl acts mask ms} : ∀ l, EngM.Ok (spmmRows d sctrl acts mask ms l)
  | [] => .pure ()
  | (_, _) :: l => by
    unfold Machine.spmmRows
    split
    split
    · exact .bind .countBlocks fun _ => .engStop _
    · exact .bind .spmmRow fun _ => spmmRows l

theorem EngM.Ok.spmmRun {ws sctrl blks} : EngM.Ok (spmmRun ws sctrl blks) :=
  .bind (.ite .engRead (.pure _)) fun _ => .bind .readAct fun _ => .bind .engModes fun _ => .spmmRows _

theorem EngM.Ok.predictRows {d sctrl theta acts} : ∀ l, EngM.Ok (predictRows d sctrl theta acts l)
  | [] => .pure ()
  | (_, _) :: l => by
    unfold Machine.predictRows
    split
    refine .bind .countBlocks fun _ => ?_
    split
    · exact .engStop _
    · exact .bind (.engEach (fun _ => .engEach (fun _ => .bind .engGaz fun _ => .bind .engWrite fun _ => .engUnit) _) _)
        fun _ => predictRows l

theorem EngM.Ok.predictRun {ws sctrl theta blks} : EngM.Ok (predictRun ws sctrl theta blks) := .bind .readAct fun _ => .predictRows _

theorem EngM.Ok.sparseRunOf {q blks} : EngM.Ok (sparseRunOf q blks) := .ite .spmmRun .predictRun

theorem State.Ok.sparseSend {t insn} : ∀ {l s}, State.Ok s → (s.sparseSend t insn l).Ok
  | [], _, h => h
  | (tg, o, n) :: l, s, h => by
    unfold State.sparseSend
    extract_lets _ s1 s2
    have h1 : s1.Ok := h.memSend
    have h2 : s2.Ok := by
      dsimp only [s2]
      clear_value s1
      split
      · exact h1.onTile fun _ hx => hx.setHead
      · exact h1
    exact h2.sparseSend

theorem State.Ok.sparsePull {t} : ∀ {n s}, State.Ok s → (State.sparsePull t n s).Ok
  | 0, _, h => h
  | n + 1, s, h => by
    have hgo : ∀ {q}, (s.setTile t ((s.tile t).setHead 4 q)).Ok := .setTile h h.tile.setHead
    dsimp only [State.sparsePull]
    split
    · exact h
    · split
      · exact h
      · split
        · exact h
        · split
          · exact hgo.sparsePull
          · exact hgo.sparsePull
          · exact hgo.sparseSend

theorem State.Ok.sparseGot {t insn off id st data} (h : s.Ok) : (s.sparseGot t insn off id st data).Ok := by
  unfold State.sparseGot
  split
  · exact h
  · split
    · exact h
    · exact h.ite ((h.onTile fun _ hx => hx.setHead).sparsePull.ite (h.onTile fun _ hx => hx.setHead))

theorem State.Ok.sparseAsk {t q} (h : s.Ok) : (s.sparseAsk t q).Ok := h.ite (.sparsePull (.setTile h h.tile.setHead))

theorem State.Ok.sparseStart {t op} (h : s.Ok) : (s.sparseStart t op).Ok := by
  dsimp only [State.sparseStart]
  split
  · refine .ite ?_ h
    split
    · split
      · exact h.sparseAsk.engFinish h.sparseAsk.tile .sparseRunOf
      · exact h.sparseAsk
    · exact h.sparseAsk
  · exact h

theorem State.Ok.execSpmm {t} (h : s.Ok) : NextOk (execSpmm t s) := .next h.sparseStart

theorem State.Ok.execPredict {t} (h : s.Ok) : NextOk (execPredict t s) := .next h.sparseStart

/-! ### Copy.lean -/

theorem State.Ok.copyCancel {t insn} (h : s.Ok) : (s.copyCancel t insn).Ok := h.memCancel

theorem State.Ok.copyStop {t st addr} (h : s.Ok) : (s.copyStop t st addr).Ok := by
  dsimp only [State.copyStop]
  split
  · exact (h.copyCancel.onTile fun _ hx => hx.setHead).faultHalt
  · exact h

theorem State.Ok.reqDone {id} (h : s.Ok) : (s.reqDone id).Ok := h.setReqs

theorem State.Ok.copyEnds {id} (h : s.Ok) : (s.copyEnds id).Ok := by
  unfold State.copyEnds
  split
  · exact h
  · split
    · extract_lets s1 s2 y
      have h2 : s2.Ok := h.setReqs.reqDone
      clear_value s2
      split
      · refine .ite h2 (.ite h2.copyStop ?_)
        have hy : y.Ok := h2.tile
        split
        · rename_i hu
          split at hu
          · cases hu
          · exact (h2.setEcc (hy.storeError hu)).copyStop
        · rename_i hu
          refine .setTile h2 (Tile.Ok.setHead ?_)
          split at hu
          · cases hu
            exact hy
          · exact hy.store hu
      · exact h2
    · exact h

theorem State.Ok.lineGot {ctl addr st} (h : s.Ok) : (s.lineGot ctl addr st).Ok := h.withStk rfl

theorem State.Ok.reqEnds {id} (h : s.Ok) : (s.reqEnds id).Ok := by
  unfold State.reqEnds
  split
  · split
    · exact h.setReqs.cflMemDone
    · exact h.reqDone.sparseGot
    · exact h.reqDone.dmaGot
    · exact h.reqDone.lineGot
    · exact h.reqDone.zeroNext
    · exact h.copyEnds
  · exact h

theorem State.Ok.memReap (h : s.Ok) : s.memReap.Ok := (h.foldl fun _ _ h => h.reqEnds).setReqs

theorem State.Ok.arrive {r st} (h : s.Ok) : (s.arrive r st).Ok := by
  dsimp only [State.arrive]
  split
  · exact h.setReq.ite (h.drift.ite h).setReq.memReap
  · exact h.setReq.memReap

theorem State.Ok.copySend {t insn u cls write base bytes} : ∀ {l s}, State.Ok s → (s.copySend t insn u cls write base bytes l).Ok
  | [], _, h => h
  | (tg, o, n) :: l, s, h => by
    unfold State.copySend
    extract_lets _ _ s1 s2
    have h1 : s1.Ok := h.memSend
    have h2 : s2.Ok := by
      dsimp only [s2]
      clear_value s1
      split
      · exact h1.onTile fun _ hx => hx.setHead
      · exact h1
    exact h2.copySend

/-- What a unit of a COPY leaves is in canonical form: the state, or the tile that comes with a stop. -/
def UnitRes.Ok : Except (Stop × Tile) State → Prop
  | .ok u => u.Ok
  | .error e => e.2.Ok

theorem UnitRes.Ok.bind {α : Type} {r : Except Stop α} {f : α → Except (Stop × Tile) State} (hx : x.Ok) (hf : ∀ a, UnitRes.Ok (f a)) :
    UnitRes.Ok ((r.mapError fun st => (st, x)) >>= f) := by
  cases r
  · exact hx
  · exact hf _

theorem State.Ok.copyUnit {t q cap u} (h : s.Ok) : UnitRes.Ok (s.copyUnit t q cap u) := by
  unfold State.copyUnit
  extract_lets plain src dst w n p
  split
  · refine .bind h.tile fun _ => .bind h.tile fun _ => ?_
    split
    · rename_i hl
      exact h.tile.loadError hl
    · rename_i hl
      split
      · exact h
      · have hx := h.tile.load hl
        split
        · rename_i hs
          exact hx.storeError hs
        · rename_i hs
          split
          · exact h.setTile (hx.store hs).setHead
          · exact h
  · refine .bind h.tile fun _ => .bind h.tile fun _ => ?_
    split
    · rename_i hl
      exact h.tile.loadError hl
    · rename_i hl
      exact (h.setTile (h.tile.load hl)).copySend
  · exact .bind h.tile fun _ => .bind h.tile fun _ => h.copySend

theorem State.Ok.copyUnits {t q cap} : ∀ {k u s}, State.Ok s → (s.copyUnits t q cap u k).Ok
  | 0, _, _, h => by
    refine h.onTile fun _ hx => ?_
    split
    · exact hx.setHead.ite hx
    · exact hx
  | k + 1, u, s, h => by
    unfold State.copyUnits
    split
    · refine h.ite ?_
      have hu : UnitRes.Ok (s.copyUnit t q cap u) := h.copyUnit
      split
      · rename_i hr
        rw [hr] at hu
        refine .copyStop ?_
        split
        · exact h.setEcc hu
        · exact h.setTile hu
      · rename_i hr
        rw [hr] at hu
        exact hu.memReap.copyUnits
    · exact h

theorem State.Ok.copy {t} (h : s.Ok) : (s.copy t).Ok := by
  dsimp only [State.copy]
  split
  · refine .ite ?_ h
    split
    · exact .ite (.copyUnits h.withFree) h.copyUnits
    · exact h.copyUnits
  · exact h

theorem State.Ok.execCopy {t} (h : s.Ok) : NextOk (execCopy t s) := .next h.copy

/-! ### Stack.lean -/

theorem State.Ok.memAdmitQ {q} (h : s.Ok) : (s.memAdmitQ q).Ok := (h.foldl fun _ _ h => h.leave).portsResume.memReap

theorem State.Ok.writeBack {q} (h : s.Ok) : (s.writeBack q).Ok := by
  dsimp only [State.writeBack]
  split
  · exact h
  · exact .withStk h.setPch rfl

theorem State.Ok.memSlot {q} (h : s.Ok) : (s.memSlot q).Ok := by
  dsimp only [State.memSlot]
  refine h.ite (h.setPch.writeBack.ite ?_)
  split
  · exact h.setPch
  · exact h.setPch.setReq.dropReq.memAdmitQ

theorem State.Ok.execMemSlotServe {pch cc} (h : s.Ok) : NextOk (execMemSlotServe pch cc s) := .next h.at.memSlot

theorem State.Ok.memResponse {id errs} (h : s.Ok) : (s.memResponse id errs).Ok := by
  dsimp only [State.memResponse]
  split
  · exact h
  · refine h.ite ?_
    split
    · split
      · exact h.newErrors.checkWords.arrive
      · exact h.arrive
    · exact .arrive (.tally (h.withAtl rfl))
    · exact h

theorem State.Ok.execMemoryResponse {id cc errs} (h : s.Ok) : NextOk (execMemoryResponse id cc errs s) := .next h.at.memResponse

theorem State.Ok.padded {id} (h : s.Ok) : (s.padded id).Ok := by
  unfold State.padded
  split
  · exact h
  · split
    · exact h.setReq.memReap.ite h
    · exact h

theorem State.Ok.execPaddedCompletion {id cc} (h : s.Ok) : NextOk (execPaddedCompletion id cc s) := .next h.at.padded

theorem State.Ok.scrubNotice {q i u k} (h : s.Ok) : (s.scrubNotice q i u k).Ok := h.notify

theorem State.Ok.scrubIdle {q i u base errs} (h : s.Ok) : (s.scrubIdle q i u base errs).Ok :=
  .foldl (.tally (h.withStk rfl)) fun _ _ h => h.scrubNotice

theorem State.Ok.scrubUsed {q i u block errs} (h : s.Ok) : (s.scrubUsed q i u block errs).Ok :=
  ((h.newErrors.foldl fun _ _ h => h.correctWord).foldl fun _ _ h => h.scrubNotice.triggerRow).repairSlot

theorem State.Ok.scrub {q errs} (h : s.Ok) : (s.scrub q errs).Ok := by
  dsimp only [State.scrub]
  refine (h.setPch.scrubIdle.ite h.setPch.scrubUsed).ite ?_
  split
  · exact h.setPch.scrubUsed
  · exact h.setPch.scrubIdle

theorem State.Ok.refresh {q errs} (h : s.Ok) : (s.refresh q errs).Ok := h.maintain.writeBack.scrub

theorem State.Ok.execRefresh {pch cc errs} (h : s.Ok) : NextOk (execRefresh pch cc errs s) := .next (h.at.refresh.ite h.at)

theorem State.Ok.execSchedRefresh {pch cc errs} (h : s.Ok) : NextOk (execSchedRefresh pch cc errs s) := .next (h.at.refresh.ite h.at)

theorem State.Ok.retrain {ch unscheduled} (h : s.Ok) : (s.retrain ch unscheduled).Ok := .ite (.tally (.withStk h.setChannel rfl)) h

theorem State.Ok.execPeriodicRetrain {ch cc} (h : s.Ok) : NextOk (execPeriodicRetrain ch cc s) := .next (h.at.ite h.at.retrain)

theorem State.Ok.execSchedRetrain {ch cc} (h : s.Ok) : NextOk (execSchedRetrain ch cc s) := .next (h.at.retrain.ite h.at)

theorem State.Ok.execErrorRateRetrain {ch errors cc} (h : s.Ok) :
    NextOk (execErrorRateRetrain ch errors cc s) := .next (h.at.retrain.ite h.at)

theorem State.Ok.retrainEnd {ch ok} (h : s.Ok) : (s.retrainEnd ch ok).Ok :=
  h.ite ((h.setReqs.ite h).setChannel.ite (h.setReqs.ite h).setChannel.setReqs.notify.memAdmitQ.memAdmitQ)

theorem State.Ok.execRetrainEnd {ch cc ok} (h : s.Ok) : NextOk (execRetrainEnd ch cc ok s) := .next h.at.retrainEnd

theorem State.Ok.execRemapCopy {pch} (h : s.Ok) : NextOk (execRemapCopy pch s) := .next (h.repairDue.ite h)

theorem State.Ok.lineFetch {die addr} (h : s.Ok) : (s.lineFetch die addr).Ok := h.memSend

theorem State.Ok.lineBring {die controller addr} (h : s.Ok) : (s.lineBring die controller addr).Ok := by
  dsimp only [State.lineBring]
  refine h.ite ?_
  split
  · exact h
  · exact .memReap (.lineFetch (h.withStk rfl))

theorem State.Ok.lineTouch {controller addr} (h : s.Ok) : (s.lineTouch controller addr).Ok := h.withStk rfl

theorem State.Ok.lineDrop {controller addr} (h : s.Ok) : (s.lineDrop controller addr).Ok := h.withStk rfl

theorem State.Ok.execAdderWriteback {die cc} (h : s.Ok) : NextOk (execAdderWriteback die cc s) := .next (.withStk h.at rfl)

/-! ### Far.lean -/

theorem State.Ok.farBring {p} (h : s.Ok) : (s.farBring p).Ok := h.setFarPort

theorem State.Ok.farAdvance {p} (h : s.Ok) : (s.farAdvance p).Ok := h.setFarPort.ite (h.setFarPort.ite h)

theorem State.Ok.farPresent {p i half width} (h : s.Ok) : (s.farPresent p i half width).Ok := (h.setFarPort.ite h.setFarPort.farBring).ite h

theorem State.Ok.execFarDevicePresent {port id half width cc} (h : s.Ok) : NextOk (execFarDevicePresent port id half width cc s) :=
  .next h.at.farPresent

theorem State.Ok.farReady {p} (h : s.Ok) : (s.farReady p).Ok := by
  dsimp only [State.farReady]
  refine .ite (.progress ?_) h
  split
  · exact h.setFarPort.itinEvent
  · exact h.setFarPort

theorem State.Ok.execFarPortReady {port cc} (h : s.Ok) : NextOk (execFarPortReady port cc s) := .next h.at.farReady

theorem State.Ok.farTimeout {p} (h : s.Ok) : (s.farTimeout p).Ok := h.setFarPort.notify.progress.ite h

theorem State.Ok.execFarReadyTimeout {port cc} (h : s.Ok) : NextOk (execFarReadyTimeout port cc s) := .next h.at.farTimeout

theorem State.Ok.farServe {p} (h : s.Ok) : (s.farServe p).Ok := by
  dsimp only [State.farServe]
  split
  · exact h.setFarPort.setReq.emit.foldl fun _ _ h => h.portResume
  · exact h

theorem State.Ok.farResponse {id poison bytes} (h : s.Ok) : (s.farResponse id poison bytes).Ok := by
  dsimp only [State.farResponse]
  split
  · split
    · exact .ite (.arrive (.notify (.tally h.withFar))) h.arrive
    · exact h
  · exact h

theorem State.Ok.execFarResponse {id poison bytes cc} (h : s.Ok) : NextOk (execFarResponse id poison bytes cc s) := .next h.at.farResponse

theorem State.Ok.farEnd {p stand} (h : s.Ok) : (s.farEnd p stand).Ok := (h.foldl fun _ _ h => h.farLose).memReap

theorem State.Ok.farDown {p removed} (h : s.Ok) : (s.farDown p removed).Ok :=
  .ite (.progress (.notifyRecorded (.farEnd (.tally (.withFar h.setFarPort))))) h

theorem State.Ok.execFarLinkDown {port cc removed} (h : s.Ok) : NextOk (execFarLinkDown port cc removed s) := .next h.at.farDown

theorem State.Ok.execFarWindowSet {k part entry port base size valid} (h : s.Ok) :
    NextOk (execFarWindowSet k part entry port base size valid s) :=
  .next (h.kciRun fun _ h => h.check (.mk h.withFar))

theorem State.Ok.execFarIdentity {k port} (h : s.Ok) : NextOk (execFarIdentity k port s) := by
  unfold Machine.execFarIdentity
  refine .next (h.kciRun fun _ h => h.check ?_)
  split
  · exact h
  · exact h.fail

theorem State.Ok.farCtrl {port action ide} (h : s.Ok) : (s.farCtrl port action ide).Ok := by
  dsimp only [State.farCtrl]
  split
  · exact h.farEnd.setFarPort.progress
  · exact h.setFarPort.farBring.ite (h.setFarPort.setFarPort.ite h.setFarPort)
  · exact h.farEnd.setFarPort.farBring.ite h.farEnd.setFarPort.setFarPort

theorem State.Ok.execFarPortCtrl {k port action ide} (h : s.Ok) : NextOk (execFarPortCtrl k port action ide s) :=
  .next (h.kciRun fun _ h => h.check (.mk h.farCtrl))

/-! ### StackCmd.lean -/

theorem State.Ok.execStkRegionSet {k region} (h : s.Ok) : NextOk (execStkRegionSet k region s) :=
  .next (h.kciRun fun _ h => h.check (.mk h.zeroStart))

theorem State.Ok.execStkRegionQuery {k owner} (h : s.Ok) : NextOk (execStkRegionQuery k owner s) := .next (h.kciRun fun _ h => h.check h)

theorem State.Ok.execStkRetrainCfg {k period rtThresh} (h : s.Ok) : NextOk (execStkRetrainCfg k period rtThresh s) :=
  .next (h.kciRun fun _ h => State.Ok.check h h)

theorem State.Ok.execStkPolicySet {k latCap wBulk wSpill ceThresh} (h : s.Ok) :
    NextOk (execStkPolicySet k latCap wBulk wSpill ceThresh s) :=
  .next (h.kciRun fun _ h => h.check (.mk (h.withStk rfl)))

theorem State.Ok.execStkRepairLog {k dest first count} (h : s.Ok) : NextOk (execStkRepairLog k dest first count s) :=
  .next (h.kciRun fun _ h => h.check (.mk h.putHost))

theorem State.Ok.execStkBringupSelect {k sel} (h : s.Ok) : NextOk (execStkBringupSelect k sel s) :=
  .next (h.kciRun fun _ h => h.check (.mk (h.withStk rfl)))

theorem State.Ok.freshList : ∀ {n s}, State.Ok s → (s.freshList n).2.Ok
  | 0, _, h => h
  | n + 1, s, h => by
    have h1 : State.Ok { s with free := s.free + 1 } := h
    exact h1.freshList

theorem State.Ok.marginStart {chs steps counts} (h : s.Ok) : (s.marginStart chs steps counts).Ok := .foldl h fun _ _ h => h.setChannel

theorem State.Ok.marginsDue (h : s.Ok) : s.marginsDue.Ok := h.foldl fun _ _ h => .progress (h.withStk rfl)

theorem State.Ok.execStkMargin {k stack channels sweep} (h : s.Ok) : NextOk (execStkMargin k stack channels sweep s) :=
  .next (h.kciRun fun _ h => h.check (.ite h (.mk h.freshList.marginStart)))

theorem State.Ok.pprRow {r} (h : s.Ok) : (s.pprRow r).Ok := by
  dsimp only [State.pprRow]
  refine h.ite (.ite (.notify (.withStk h.fresh rfl)) (.setRowLog ?_))
  split
  · exact .setPch (.withStk h.fresh rfl)
  · exact .withStk h.fresh rfl

theorem State.Ok.execStkRepairAccess {k stack apply} (h : s.Ok) : NextOk (execStkRepairAccess k stack apply s) := by
  unfold Machine.execStkRepairAccess
  refine .next (h.kciRun fun _ h => h.check ?_)
  split
  · exact h
  · exact h.check (.mk h.pprRow)

theorem State.Ok.stackReset {stack} (h : s.Ok) : (s.stackReset stack).Ok :=
  .foldl (.withStk (h.foldl fun _ _ h => h.pprRow) rfl) fun _ _ h => h.setChannel

theorem State.Ok.execStackTrained {stack} (h : s.Ok) : NextOk (execStackTrained stack s) :=
  .next (h.ite (.foldl (h.withStk rfl) fun _ _ h => h.setChannel))

/-! ### Datum.lean -/

theorem State.Ok.setDtm {d} (h : s.Ok) : (s.setDtm d).Ok := h.withDtm

theorem State.Ok.execDatumSet {k part on} (h : s.Ok) : NextOk (execDatumSet k part on s) :=
  .next (h.kciRun fun _ h => h.check (.mk h.setDtm.driftRecord))

theorem State.Ok.calEnd {c} (h : s.Ok) : (s.calEnd c).Ok := h.setDtm.progress.ite h.setDtm.progress

theorem State.Ok.syncCal {k role} (h : s.Ok) : (s.syncCal k role).Ok := by
  dsimp only [State.syncCal]
  split
  · refine .mk (.setDtm ?_)
    split
    · exact h.progress
    · exact h
  · refine .mk (.setDtm ?_)
    split
    · exact h.progress
    · exact h

theorem State.Ok.execDatumSyncCal {k role} (h : s.Ok) : NextOk (execDatumSyncCal k role s) := .next (h.kciRun fun _ h => h.check h.syncCal)

theorem State.Ok.execCalPulseEmit {cc} (h : s.Ok) : NextOk (execCalPulseEmit cc s) := by
  dsimp only [Machine.execCalPulseEmit]
  refine .next ?_
  split
  · exact h.at.setDtm.emit.ite h.at
  · exact h.at

theorem State.Ok.execSyncCalTimeout {cc} (h : s.Ok) : NextOk (execSyncCalTimeout cc s) := by
  dsimp only [Machine.execSyncCalTimeout]
  refine .next ?_
  split
  · exact h.at.calEnd.ite h.at
  · exact h.at

theorem State.Ok.datumStart {k} (h : s.Ok) : (s.datumStart k).Ok := .mk (h.progress.ite h).setDtm

theorem State.Ok.execDatumStart {k} (h : s.Ok) : NextOk (execDatumStart k s) := .next (h.kciRun fun _ h => h.check h.datumStart)

theorem State.Ok.execStartPulseEmit {cc} (h : s.Ok) : NextOk (execStartPulseEmit cc s) := by
  dsimp only [Machine.execStartPulseEmit]
  refine .next ?_
  split
  · split
    · exact h.at.setDtm.emit.ite h.at
    · exact h.at
  · exact h.at

theorem State.Ok.checkPulse (h : s.Ok) : s.checkPulse.Ok := h.setDtm.ite h.setDtm.drift.notify

theorem State.Ok.syncPulse (h : s.Ok) : s.syncPulse.Ok := by
  dsimp only [State.syncPulse]
  refine h.ite ?_
  split
  · exact h.calEnd.ite h.setDtm
  · split
    · exact h.setDtm.ite (h.checkPulse.ite h)
    · exact h.checkPulse.ite h

theorem State.Ok.execSyncPulse {cc} (h : s.Ok) : NextOk (execSyncPulse cc s) := .next h.at.syncPulse

theorem State.Ok.refreshCatchUp (h : s.Ok) : s.refreshCatchUp.Ok := h.ite (h.foldl fun _ _ h => h.refresh.ite h)

theorem State.Ok.timebaseZero (h : s.Ok) : s.timebaseZero.Ok := by
  unfold State.timebaseZero
  split
  · split
    · exact (h.refreshCatchUp.setDtm.foldl fun _ _ h => h.progress).driftRecord.progress.ite h
    · exact h
  · exact h

theorem State.Ok.execTimebaseZero {cc} (h : s.Ok) : NextOk (execTimebaseZero cc s) := .next h.at.timebaseZero

theorem State.Ok.execDatumStartTimeout {cc} (h : s.Ok) : NextOk (execDatumStartTimeout cc s) := by
  dsimp only [Machine.execDatumStartTimeout]
  refine .next ?_
  split
  · exact h.at.setDtm.progress.ite h.at
  · exact h.at

theorem State.Ok.execCheckPulseEmit {cc} (h : s.Ok) : NextOk (execCheckPulseEmit cc s) := .next (h.at.setDtm.emit.ite h.at)

theorem State.Ok.execCheckPulseMissing {cc} (h : s.Ok) : NextOk (execCheckPulseMissing cc s) := .next (h.at.setDtm.drift.notify.ite h.at)

theorem State.Ok.execDatumStartAt {k part v} (h : s.Ok) :
    NextOk (execDatumStartAt k part v s) := .next (h.kciRun fun _ h => h.check (.mk h.setDtm))

theorem State.Ok.startPart {p} (h : s.Ok) : (s.startPart p).Ok := h.foldl fun _ _ h => h.tileStart

theorem State.Ok.execDatumStartAtFire {cc} (h : s.Ok) : NextOk (execDatumStartAtFire cc s) :=
  .next (h.at.setDtm.foldl fun _ _ h => h.startPart.progress)

theorem State.Ok.execDriftSnapshot {k} (h : s.Ok) : NextOk (execDriftSnapshot k s) := .next (h.kciRun fun _ h => h.check (.mk h.driftEvent))

/-! ### Gaz.lean -/

theorem State.Ok.gazSend {src part id user payload} (h : s.Ok) : (s.gazSend src part id user payload).Ok := by
  unfold State.gazSend
  split
  · exact h.toMesh
  · exact h.hostWrite.progress
  · exact h

theorem State.Ok.gazRefuse {src part id} (h : s.Ok) : (s.gazRefuse src part id).Ok := h.countGaz.gazSend

theorem State.Ok.gazHold {die} (h : s.Ok) : (s.gazHold die).Ok := by
  dsimp only [State.gazHold]
  refine h.foldl fun _ _ h => ?_
  split
  · exact h.ite h.setGaz.gazWait
  · exact h

theorem State.Ok.execGazRequest {die} (h : s.Ok) : NextOk (execGazRequest die s) := by
  dsimp only [Machine.execGazRequest]
  refine .next ?_
  split
  · exact h
  · exact h.gazHold.ite (.ite (.gazRefuse (.setGaz (h.withGrid rfl))) (.gazAccept (.setGaz (.setGaz (h.withGrid rfl)))))

theorem State.Ok.gazRow {die id row} (h : s.Ok) : (s.gazRow die id row).Ok := by
  unfold State.gazRow
  split
  · exact h
  · split
    · rename_i hu
      refine (h.gazRowDone hu).ite ?_
      extract_lets s1 s2 _ s3
      have h1 : s1.Ok := (h.gazRowDone hu).notify.ite (h.gazRowDone hu)
      have h2 : s2.Ok := h1.ite h1.countGaz
      have h3 : s3.Ok := h2.setGazReq
      split
      · exact h3.cflRows
      · exact h3
    · exact h

theorem State.Ok.execGazRowComplete {die id row} (h : s.Ok) : NextOk (execGazRowComplete die id row s) := .next h.gazRow

theorem State.Ok.gazAnswer {die id} (h : s.Ok) : (s.gazAnswer die id).Ok := by
  unfold State.gazAnswer
  split
  · exact h
  · split
    · exact h
    · exact h.ite h.countGaz.gazSend.gazEnd

theorem State.Ok.execGazReply {die id} (h : s.Ok) : NextOk (execGazReply die id s) := .next h.gazAnswer

theorem State.Ok.gazTakeHeld {q} (h : s.Ok) : (s.gazTakeHeld q).Ok := by
  unfold State.gazTakeHeld
  split
  · exact h.cflPoolTaken
  · exact h.gazRefuse.ite h.gazAccept

theorem State.Ok.gazAdmit {die} (h : s.Ok) : (s.gazAdmit die).Ok := by
  dsimp only [State.gazAdmit]
  refine h.ite ?_
  split
  · exact h.setGaz.gazTakeHeld
  · exact h

theorem State.Ok.gazCycle {die} (h : s.Ok) : (s.gazCycle die).Ok := by
  dsimp only [State.gazCycle]
  refine h.foldl fun _ _ h => ?_
  split
  · exact h
  · split
    · exact h.gazIssue.setGazReq.cflRows
    · exact h.gazIssue.setGazReq

theorem State.Ok.gazTick (h : s.Ok) : s.gazTick.Ok := h.foldl fun _ _ h => h.gazAdmit.gazCycle

theorem State.Ok.execGazTableDefine {k d} (h : s.Ok) :
    NextOk (execGazTableDefine k d s) := .next (h.kciRun fun _ h => h.check (.mk h.pinOn.setGaz))

theorem State.Ok.execGazTableDelete {k table} (h : s.Ok) : NextOk (execGazTableDelete k table s) := by
  dsimp only [Machine.execGazTableDelete]
  refine .next (h.kciRun fun _ h => h.check ?_)
  split
  · exact h.fail
  · exact h.unconfig.fail.ite (.ite (.mk h.unconfig.setGaz) (.mk h.unconfig.setGaz))

theorem State.Ok.execGazTableQuery {k table} (h : s.Ok) : NextOk (execGazTableQuery k table s) := by
  dsimp only [Machine.execGazTableQuery]
  refine .next (h.kciRun fun _ h => h.check ?_)
  split
  · exact h.fail
  · exact h

theorem State.Ok.execGazLookup {k die body len reply} (h : s.Ok) : NextOk (execGazLookup k die body len reply s) :=
  .next (h.kciRun fun _ h => h.check (.ite (.mk h.setGaz.setGaz.gazWait) (.ite (.mk h.setGaz.gazRefuse) (.mk h.setGaz.gazAccept))))

theorem State.Ok.legendCheck {part base rows cols thresh} (h : s.Ok) : (s.legendCheck part base rows cols thresh).Ok :=
  .mk (.foldlSnd h fun _ _ h => h.readBlock)

theorem State.Ok.execGazLegendCheck {k base rowBlocks colBlocks threshold} (h : s.Ok) :
    NextOk (execGazLegendCheck k base rowBlocks colBlocks threshold s) := by
  unfold Machine.execGazLegendCheck
  refine .next (h.kciRun fun _ h => ?_)
  split
  · exact h.fail
  · exact h.check h.legendCheck

theorem State.Ok.gazHostWrite {t off v} (h : s.Ok) : (s.gazHostWrite t off v).Ok := (h.onTile fun _ hx => hx.writeReg).itinEvent

theorem State.Ok.execGazSparseCtrlWrite {t value} (h : s.Ok) : NextOk (execGazSparseCtrlWrite t value s) := .next h.gazHostWrite

theorem State.Ok.execGazPredThreshWrite {t value} (h : s.Ok) : NextOk (execGazPredThreshWrite t value s) := .next h.gazHostWrite

/-! ### Endpoint.lean -/

theorem State.Ok.flowDone {l st ps} (h : s.Ok) : (s.flowDone l st ps).Ok := by
  unfold State.flowDone
  refine h.foldl fun _ _ h => .ite ?_ h.accelStatus
  split
  · exact h.shtEnd
  · exact h

theorem State.Ok.flowFail {f} (h : s.Ok) : (s.flowFail f).Ok := h.delFlow.flowDone.notify

theorem State.Ok.flowResend {f} (h : s.Ok) : (s.flowResend f).Ok := h.flowFail.ite (h.putFlow.foldl fun _ _ h => h.countSub.enterFabric)

theorem State.Ok.execE2eRtoExpiry {lport dest vc cc} (h : s.Ok) : NextOk (execE2eRtoExpiry lport dest vc cc s) := by
  dsimp only [Machine.execE2eRtoExpiry]
  refine .next ?_
  split
  · exact h.at.flowResend.ite h.at
  · exact h.at

theorem State.Ok.execSourceFlowRetire {lport dest vc cc} (h : s.Ok) : NextOk (execSourceFlowRetire lport dest vc cc s) := by
  dsimp only [Machine.execSourceFlowRetire]
  refine .next ?_
  split
  · exact h.at.delFlow.ite h.at
  · exact h.at

theorem State.Ok.e2eTake {l p} (h : s.Ok) : (s.e2eTake l p).Ok := by
  dsimp only [State.e2eTake]
  split
  · exact h
  · exact h.putFlow.flowDone.flowResend.ite h.putFlow.flowDone

theorem State.Ok.execE2ePacketReceive {lport} (h : s.Ok) : NextOk (execE2ePacketReceive lport s) := by
  unfold Machine.execE2ePacketReceive
  refine .next ?_
  split
  · exact h.onSub.e2eTake
  · exact h

theorem State.Ok.edgeTake {l p} (h : s.Ok) : (s.edgeTake l p).Ok := by
  unfold State.edgeTake
  extract_lets _ _ _ pop
  have hpop : ∀ s, State.Ok s → (pop s).Ok := fun _ h => h.onSub
  refine .ite ?_ ?_
  · split
    · exact h.shtRefused.shtReply.ingressPop
    · exact h.shtHold
    · exact h.ite h.ingressPop.shtAccept
  · split
    rename_i u hu
    have h1 : u.Ok := .ofSnd hu h.dequantise
    clear_value pop
    refine .ite (.ite h1.ingressPop.countSht.accelStatus h1.ingressPop.countSht) (.ite h ?_)
    refine .ite (.ite h ?_) (hpop _ h1).enterFabric
    extract_lets _ s2 _ s3
    have h2 : s2.Ok := h1.putFlow
    have h3 : s3.Ok := (hpop _ (.ite h2.storeWrite h2)).enterFabric
    clear_value *
    split
    · exact h3
    · exact h3.onSub

theorem State.Ok.execAccelPacketIngress {lport} (h : s.Ok) : NextOk (execAccelPacketIngress lport s) := by
  dsimp only [Machine.execAccelPacketIngress]
  refine .next ?_
  split
  · exact h.ite h.edgeTake
  · exact h

theorem State.Ok.putCtx {c} (h : s.Ok) : (s.putCtx c).Ok := h.setFab

theorem State.Ok.sendE2e {c nak cum} (h : s.Ok) : (s.sendE2e c nak cum).Ok := h.enterFabric

theorem State.Ok.roAck {c} (h : s.Ok) : (s.roAck c).Ok := h.putCtx.sendE2e

theorem State.Ok.roDeliver {l p} (h : s.Ok) : (s.roDeliver l p).Ok := h.setFab.ite (h.setFab.ite h.toAccel)

theorem State.Ok.roCount {c l} (h : s.Ok) : (s.roCount c l).2.Ok := by
  dsimp only [State.roCount]
  exact .iteSnd h.roAck h.putCtx

theorem State.Ok.roDrain : ∀ {n s c}, State.Ok s → (State.roDrain n s c).2.Ok
  | 0, _, _, h => h
  | n + 1, s, c, h => by
    unfold State.roDrain
    split
    · exact h
    · exact h.platFreeAll.roDeliver.roCount.roDrain

theorem State.Ok.roAdvance {c} (h : s.Ok) : (s.roAdvance c).Ok := h.roDrain.putCtx

theorem State.Ok.roDuplicate {c l} (h : s.Ok) : (s.roDuplicate c l).Ok := h.drop.roAck

theorem State.Ok.roPacket {c l p} (h : s.Ok) : (s.roPacket c l p).Ok := by
  dsimp only [State.roPacket]
  refine h.roDeliver.roCount.roAdvance.ite ((h.roDuplicate.ite ?_).ite (h.roDuplicate.ite h.putCtx.countWpt))
  split
  · exact h.putCtx.countWpt
  · rename_i hu
    exact (h.platTakeN hu).putCtx

theorem State.Ok.roTake {die l p} (h : s.Ok) : (s.roTake die l p).Ok := by
  dsimp only [State.roTake]
  split
  · exact h.roPacket
  · exact h.roPacket.ite h.countWpt

theorem State.Ok.roArrive {die p} (h : s.Ok) : (s.roArrive die p).Ok := by
  dsimp only [State.roArrive]
  split
  · exact h
  · split
    · exact h.setFab
    · split
      · exact h.setFab.copyDone.roTake
      · exact h.setFab.copyDone

theorem State.Ok.execReorderArrival {die} (h : s.Ok) : NextOk (execReorderArrival die s) := .next h.roArrive

theorem State.Ok.roFill {c} (h : s.Ok) : (s.roFill c).Ok := h.roArrive

theorem State.Ok.execReorderTimeout {die src vc cc} (h : s.Ok) : NextOk (execReorderTimeout die src vc cc s) := by
  unfold Machine.execReorderTimeout
  refine .next ?_
  extract_lets s1 s2
  have h2 : s2.Ok := by
    have h1 : s1.Ok := h.at
    dsimp only [s2]
    clear_value s1
    cases s1.roCtx die src vc
    · exact h1
    · exact h1.roFill
  clear_value s2
  split
  · exact h2
  · split
    · exact h2.ite (.ite (.sendE2e (.putCtx h2.countWpt.drift)) h2.countWpt.drift.countWpt.notify.roAdvance)
    · exact h2

theorem State.Ok.execReorderCtxRetire {die src vc cc} (h : s.Ok) : NextOk (execReorderCtxRetire die src vc cc s) := by
  dsimp only [Machine.execReorderCtxRetire]
  refine .next ?_
  split
  · exact h.at.setFab.ite h.at
  · exact h.at

theorem State.Ok.execE2eAckTimer {die src vc cc} (h : s.Ok) : NextOk (execE2eAckTimer die src vc cc s) := by
  dsimp only [Machine.execE2eAckTimer]
  refine .next ?_
  split
  · split
    · exact h.at.roAck.ite h.at
    · exact h.at
  · exact h.at

/-! ### Meridian.lean -/

theorem State.Ok.execMsignal {t ra imm} (h : s.Ok) : NextOk (execMsignal t ra imm s) := by
  unfold Machine.execMsignal
  refine .next (h.seqRun fun _ hx => ?_)
  split
  · exact h
  · exact .ite h (.ite h (.tileSignal (.setTile h hx)))

theorem State.Ok.merIssue {t obj rd act timeout} (h : s.Ok) : (s.merIssue t x obj rd act timeout).Ok := h.merSend

theorem State.Ok.execMwait {t rd ra} (h : s.Ok) : NextOk (execMwait t rd ra s) := by
  unfold Machine.execMwait
  refine .next (h.seqRun fun _ _ => ?_)
  split
  · exact h
  · exact h.merIssue

theorem State.Ok.execMwaitto {t rd ra imm} (h : s.Ok) : NextOk (execMwaitto t rd ra imm s) := by
  unfold Machine.execMwaitto
  refine .next (h.seqRun fun _ _ => ?_)
  split
  · exact h
  · exact h.merIssue

theorem State.Ok.execMread {t rd ra imm} (h : s.Ok) : NextOk (execMread t rd ra imm s) := by
  unfold Machine.execMread
  refine .next (h.seqRun fun _ _ => ?_)
  split
  · exact h
  · exact .ite h h.merIssue

theorem State.Ok.execMerHomeApply {id parityOk} (h : s.Ok) : NextOk (execMerHomeApply id parityOk s) := by
  unfold Machine.execMerHomeApply
  refine .next ?_
  split
  · exact h.merApply.ite h
  · exact h

theorem State.Ok.execMerRelease {id cc} (h : s.Ok) : NextOk (execMerRelease id cc s) := by
  dsimp only [Machine.execMerRelease]
  refine .next ?_
  split
  · exact h.at.ite h.at.merArrive
  · exact h.at

theorem State.Ok.execMerSamplePoint {obj cc} (h : s.Ok) :
    NextOk (execMerSamplePoint obj cc s) := .next (h.at.foldl fun _ _ h => h.merDeliver)

theorem State.Ok.merAck {a} (h : s.Ok) : (s.merAck a).Ok := by
  dsimp only [State.merAck]
  refine h.ite ?_
  split
  · exact .keepTile h.setMer rfl
  · split
    · exact .ite (.tileSignal (.keepTile h.setMer rfl)) (.keepTile h.setMer rfl)
    · exact .keepTile h.setMer rfl

theorem State.Ok.execMerSignalAck {id} (h : s.Ok) : NextOk (execMerSignalAck id s) := by
  unfold Machine.execMerSignalAck
  refine .next ?_
  split
  · exact h.merAck
  · exact h

theorem State.Ok.merExpire {t n} (h : s.Ok) : (s.merExpire t n).Ok := by
  dsimp only [State.merExpire]
  split
  · exact .ite (.merSend (.setTile h h.tile.setStrand)) h
  · exact h

theorem State.Ok.execMwaittoExpiry {t strand cc} (h : s.Ok) : NextOk (execMwaittoExpiry t strand cc s) := .next h.at.merExpire

theorem State.Ok.merCapture {fn value} (h : s.Ok) : (s.merCapture fn value).Ok := h.setFn.setMer

theorem State.Ok.execMerDbgCapture {fn value} (h : s.Ok) : NextOk (execMerDbgCapture fn value s) := .next h.merCapture

theorem State.Ok.execMerDbgCaptureDone {fn} (h : s.Ok) : NextOk (execMerDbgCaptureDone fn s) := by
  dsimp only [Machine.execMerDbgCaptureDone]
  refine .next ?_
  split
  · exact h.setMer
  · exact h

theorem State.Ok.blockSeen {p} (h : s.Ok) : (s.blockSeen p).Ok := h.setMer.ite (h.setMer.ite h)

theorem State.Ok.blockWatch (h : s.Ok) : s.blockWatch.Ok := h.ite (h.foldl fun _ _ h => h.blockSeen)

theorem State.Ok.deadlockDetect {p} (h : s.Ok) : (s.deadlockDetect p).Ok := by
  dsimp only [State.deadlockDetect]
  split
  · exact h.blockSeen
  · exact h.blockSeen.setMer.notifyRecorded.ite h.blockSeen

theorem State.Ok.execDeadlockDetect {part cc} (h : s.Ok) : NextOk (execDeadlockDetect part cc s) := .next h.blockSeen.at.deadlockDetect

theorem State.Ok.execMerAlloc {k obj part kind value} (h : s.Ok) : NextOk (execMerAlloc k obj part kind value s) :=
  .next (h.kciRun fun _ h => h.check (.mk h.setObj))

theorem State.Ok.execMerFree {k obj} (h : s.Ok) : NextOk (execMerFree k obj s) := by
  dsimp only [Machine.execMerFree]
  refine .next (h.kciRun fun _ h => h.check ?_)
  split
  · exact h.fail
  · exact .ite (.mk h.setMer.unconfig) h.fail

theorem State.Ok.execMerSet {k obj value gen} (h : s.Ok) : NextOk (execMerSet k obj value gen s) := by
  unfold Machine.execMerSet
  refine .next (h.kciRun fun _ h => h.check ?_)
  split
  · exact h.fail
  · exact h.fail.ite (h.fail.ite (.mk h.setObj))

theorem State.Ok.execMerSignal {k obj clear} (h : s.Ok) : NextOk (execMerSignal k obj clear s) :=
  .next (h.kciRun fun _ h => h.check (.mk h.merSend))

theorem State.Ok.execMerRead {k obj} (h : s.Ok) : NextOk (execMerRead k obj s) := by
  unfold Machine.execMerRead
  refine .next (h.kciRun fun _ h => h.check ?_)
  split
  · exact h
  · exact h

theorem State.Ok.execMerDlCfg {k window enable} (h : s.Ok) : NextOk (execMerDlCfg k window enable s) :=
  .next (h.kciRun fun _ h => h.check (.mk h.setMer))

theorem State.Ok.execMerDlSnapshot {k part dest} (h : s.Ok) : NextOk (execMerDlSnapshot k part dest s) :=
  .next (h.kciRun fun _ h => h.check (.mk h.putHost))

/-! ### Queues.lean -/

theorem State.Ok.dmaTurn {q} (h : s.Ok) : (s.dmaTurn q).Ok := by
  unfold State.dmaTurn
  extract_lets _ _ s1 _ go
  have h1 : s1.Ok := h.withCmp rfl rfl
  have hgo : ∀ s a1, State.Ok s → (go s a1).Ok := fun _ _ h => h.setQueue.dmaSend.memReap
  split
  · exact hgo _ _ h1
  · exact h1.dmaEnd.ite (h1.dmaEnd.ite (hgo _ _ h1))

theorem State.Ok.execDmaqDescriptor {q} (h : s.Ok) : NextOk (execDmaqDescriptor q s) := .next ((h.foldl fun _ _ h => h.stir).dmaTurn.ite h)

theorem State.Ok.hostDrop {t part cause} (h : s.Ok) : (s.hostDrop t part cause).Ok :=
  .ite (.notify (.withCmp (.tally (h.withCmp rfl rfl)) rfl rfl)) (.tally (h.withCmp rfl rfl))

theorem State.Ok.execHostWriteRequest {t} (h : s.Ok) : NextOk (execHostWriteRequest t s) := by
  dsimp only [Machine.execHostWriteRequest]
  refine .next ?_
  split
  · exact h
  · split
    · exact .hostDrop (h.withGrid rfl)
    · exact .ite (.rawMsix (.hostWrite (h.withGrid rfl))) (.hostWrite (h.withGrid rfl))

/-! ### Sheet.lean -/

theorem State.Ok.execSheetRequest {t} (h : s.Ok) : NextOk (execSheetRequest t s) := by
  dsimp only [Machine.execSheetRequest]
  refine .next ?_
  split
  · exact h
  · split
    · exact .shtReply (.shtRefused (h.withGrid rfl))
    · exact h.shtHold
    · exact .shtAccept (h.withGrid rfl)

theorem State.Ok.execReleaseStoreSend {id} (h : s.Ok) : NextOk (execReleaseStoreSend id s) := by
  unfold Machine.execReleaseStoreSend
  refine .next ?_
  split
  · exact h
  · exact h.shtEnd.shtPump.ite h.shtPump

theorem State.Ok.combine {l id} (h : s.Ok) : (s.combine l id).Ok := by
  dsimp only [State.combine]
  split
  · exact h
  · split
    · exact h
    · refine h.ite ?_
      split
      · exact h
      · split
        · exact h
        · split
          · exact h
          · exact h.setSht.countSht.setLoad.takeCells.copyDone

theorem State.Ok.execSheetCombine {lport id} (h : s.Ok) : NextOk (execSheetCombine lport id s) := .next h.combine

theorem State.Ok.shtInbox {die p q u} (h : s.Ok) (hu : s.shtInbox die p = some (q, u)) : u.Ok := by
  obtain ⟨r, -, hr⟩ := Option.map_eq_some_iff.1 hu
  obtain ⟨-, rfl⟩ := Prod.mk.inj hr
  exact h.setFab

theorem State.Ok.setHomeQueue {die l} (h : s.Ok) : (s.setHomeQueue die l).Ok := h.setSht

theorem State.Ok.setHomeFlow {f} (h : s.Ok) : (s.setHomeFlow f).Ok := h.setSht

theorem State.Ok.homeFree {die b} (h : s.Ok) : (s.homeFree die b).Ok := h.platFreeAll

theorem State.Ok.homeReply {die p} (h : s.Ok) : (s.homeReply die p).Ok := by
  dsimp only [State.homeReply]
  split
  · exact h.setFab
  · exact h.enterFabric

theorem State.Ok.homePacket {me p w data} (h : s.Ok) : (s.homePacket me p w data).2.Ok := h.serviceSeq

theorem State.Ok.homeUnheld {die} (h : s.Ok) : (s.homeUnheld die).Ok := h.setSht

theorem State.Ok.homeTake {die p buf} (h : s.Ok) : (s.homeTake die p buf).Ok := by
  unfold State.homeTake
  extract_lets _ _ _ s1 _ _ s2 _ _ _ s3
  have h1 : s1.Ok := h.setSht.homeUnheld
  have h2 : s2.Ok := h1.foldl fun _ _ h => h.homeFree
  have h3 : s3.Ok := h2.setHomeFlow.homeFree
  refine h1.setHomeQueue.ite (h2.setHomeFlow.setHomeQueue.ite ((h3.ite h2.setHomeFlow).ite ?_))
  split
  · exact h3.homeReply
  · exact h3

theorem State.Ok.homeHold {die} (h : s.Ok) : (s.homeHold die).Ok := h.ite (.drift (.tally (.withPlt h.setSht)))

theorem State.Ok.execSheetHomeReceive {die} (h : s.Ok) : NextOk (execSheetHomeReceive die s) := by
  unfold Machine.execSheetHomeReceive
  refine .next ?_
  split
  · exact h
  · rename_i hu
    have h1 := h.shtInbox hu
    refine h1.homeUnheld.ite (h.homeHold.ite ?_)
    split
    · rename_i ht
      exact (h1.platTake ht).homeTake
    · exact h

theorem State.Ok.lineApply {die p} (h : s.Ok) : (s.lineApply die p).2.2.2.Ok := by
  dsimp only [State.lineApply]
  split
  · exact h
  · split
    · exact (h.ite h.store).lineTouch
    · exact h.lineDrop.notify

theorem State.Ok.homeApply {die o} (h : s.Ok) : (s.homeApply die o).Ok := by
  unfold State.homeApply
  extract_lets _ _ _ s1 s2
  have h2 : s2.Ok := .ite h.setHomeQueue.countSht h.setHomeQueue
  clear_value s2
  split
  rename_i u hu
  have h3 : u.Ok := .ofSndSndSnd hu h2.lineApply
  extract_lets _ _ _ s4
  have h4 : s4.Ok := h3.setSht.ite h3
  clear_value s4
  split
  rename_i v hv
  have h5 : v.Ok := .ofSnd hv h4.homePacket
  exact (h5.homeFree.ite h5.setHomeFlow).homeReply

theorem State.Ok.sheetLineApply {die id} (h : s.Ok) : (s.sheetLineApply die id).Ok := by
  unfold State.sheetLineApply
  split
  · refine h.ite (h.homeApply.ite ?_)
    split
    · exact h.lineBring
    · exact h
  · exact h

theorem State.Ok.execSheetLineApply {die id} (h : s.Ok) : NextOk (execSheetLineApply die id s) := .next h.sheetLineApply

theorem State.Ok.partReply {die q w data} (h : s.Ok) : (s.partReply die q w data).Ok := by
  unfold State.partReply
  extract_lets
  split
  rename_i hu
  exact (State.Ok.ofSnd hu h.homePacket).homeReply

theorem State.Ok.fanOut {c w data} (h : s.Ok) : (s.fanOut c w data).Ok := .foldlSnd h.setSht fun _ _ h => h.partReply

theorem State.Ok.execSheetCompletionReceive {die} (h : s.Ok) : NextOk (execSheetCompletionReceive die s) := by
  unfold Machine.execSheetCompletionReceive
  refine .next ?_
  split
  · exact h
  · rename_i hu
    have h1 := h.shtInbox hu
    split
    · exact h1.fanOut
    · split
      · exact h1.shtComplete
      · exact h1

theorem State.Ok.execSheetRtoExpiry {id cc} (h : s.Ok) : NextOk (execSheetRtoExpiry id cc s) := by
  dsimp only [Machine.execSheetRtoExpiry]
  refine .next ?_
  split
  · exact h.at.shtEnd.ite (h.at.shtLose.ite (h.at.setSht.countSht.shtEmit.tellLost.ite h.at.setSht.countSht.shtEmit))
  · split
    · exact h.at.fanOut
    · exact h.at

theorem State.Ok.shtTeardown {job} (h : s.Ok) : (s.shtTeardown job).2.Ok := by
  unfold State.shtTeardown
  refine State.Ok.shtPumpAll (.setSht (.foldl ?ended fun _ _ h => ?die))
  case ended => exact (h.foldl fun _ _ h => h.shtEnd).foldl fun _ _ h => h.fanOut
  case die => exact (h.setHomeQueue.foldl fun _ _ h => h.homeFree).setSht

theorem State.Ok.execShtJobTeardown {k job} (h : s.Ok) : NextOk (execShtJobTeardown k job s) :=
  .next (h.kciRun fun _ h => h.check (.mk h.shtTeardown))

theorem State.Ok.execShtSheetSet {k members self classes rtoLog2 homeMark} (h : s.Ok) :
    NextOk (execShtSheetSet k members self classes rtoLog2 homeMark s) :=
  .next (h.kciRun fun _ h => h.check (.mk h.setSht))

theorem State.Ok.execShtExport {k part base size} (h : s.Ok) : NextOk (execShtExport k part base size s) :=
  .next (h.kciRun fun _ h => h.check (.mk h.setSht))

theorem State.Ok.windowSet {k o first addr count} (h : s.Ok) : (s.windowSet k o first addr count).Ok := h.check (.mk h.setSht)

theorem State.Ok.execShtWindowSet {k owner first addr count} (h : s.Ok) : NextOk (execShtWindowSet k owner first addr count s) :=
  .next (h.kciRun fun _ h => h.check h.windowSet)

theorem State.Ok.execShtStatus {k owner} (h : s.Ok) : NextOk (execShtStatus k owner s) := .next (h.kciRun fun _ h => h.check h)

/-! ### TileLoad.lean -/

theorem State.Ok.dataRead {k src n} (h : s.Ok) : (s.dataRead k src n).2.2.Ok := by
  unfold State.dataRead
  split
  · exact h
  · split
    · exact h.viewRead
    · exact h

theorem State.Ok.dataWrite {k dest bs} (h : s.Ok) : (s.dataWrite k dest bs).2.Ok := by
  unfold State.dataWrite
  split
  · exact h.putHost
  · split
    · exact h.viewWrite
    · exact h

theorem State.Ok.execImemLoad {k tiles bank src offset len} (h : s.Ok) : NextOk (execImemLoad k tiles bank src offset len s) := by
  unfold Machine.execImemLoad
  refine .next (h.kciRun fun _ h => h.check ?_)
  split
  · exact h.fail
  · split
    · rename_i hu
      exact .mk ((State.Ok.ofSndSnd hu h.dataRead).foldl fun _ _ h => .onTile h fun _ hx => hx)
    · rename_i hu
      exact (State.Ok.ofSndSnd hu h.dataRead).fail

theorem State.Ok.imemSettle (h : s.Ok) : s.imemSettle.Ok := h.foldl fun _ _ h => .progress (.onTile h fun _ hx => hx)

theorem Tile.Ok.swapNow {table} (hx : x.Ok) : (x.swapNow table).Ok := by
  dsimp only [Tile.swapNow]
  split
  · exact hx
  · exact hx

theorem State.Ok.imemSwap {k tiles arm table} (h : s.Ok) : (s.imemSwap k tiles arm table).Ok := by
  unfold State.imemSwap
  extract_lets _ act _ s1
  have hact : ∀ s a1, State.Ok s → (act s a1).Ok := fun _ _ h => h.onTile fun _ hx => .ite hx (.ite hx.swapNow hx)
  have h1 : s1.Ok := h.foldl fun _ _ h => hact _ _ h
  split
  · exact h1
  · exact h1
  · exact h1
  · exact .mk h1.itinCommand

theorem State.Ok.execImemSwap {k tiles arm table} (h : s.Ok) : NextOk (execImemSwap k tiles arm table s) := by
  unfold Machine.execImemSwap
  refine .next (h.kciRun fun _ h => h.check ?_)
  split
  · exact h.fail
  · exact h.imemSwap

theorem State.Ok.execImemRead {k t bank dest offset len} (h : s.Ok) : NextOk (execImemRead k t bank dest offset len s) :=
  .next (h.kciRun fun _ h => h.check (.mk h.putHost))

theorem State.Ok.wake {t} (h : s.Ok) : (s.wake t).Ok := .ite (.onTile h.powerOver fun _ hx => hx) h

theorem State.Ok.scratchLost {t w} (h : s.Ok) (hx : x.Ok) : (s.scratchLost t x w).Ok := (h.setEcc hx).notify

theorem State.Ok.execScratchWrite {k tiles addr src len} (h : s.Ok) : NextOk (execScratchWrite k tiles addr src len s) := by
  dsimp only [Machine.execScratchWrite]
  refine .next (h.kciRun fun _ h => h.check ?_)
  split
  · exact h.fail
  · split
    · rename_i hu
      refine .mk ((State.Ok.ofSndSnd hu h.dataRead).foldl fun _ _ h => ?_)
      split
      · rename_i hu1
        exact .setTile h.wake (h.wake.tile.store hu1)
      · rename_i hu1
        exact h.wake.scratchLost (h.wake.tile.storeError hu1)
    · rename_i hu
      exact (State.Ok.ofSndSnd hu h.dataRead).fail

theorem State.Ok.execScratchRead {k t addr dest len} (h : s.Ok) : NextOk (execScratchRead k t addr dest len s) := by
  unfold Machine.execScratchRead
  refine .next (h.kciRun fun _ h => h.check ?_)
  split
  · exact h.fail
  · split
    · rename_i hu
      exact .mk (h.wake.scratchLost (h.wake.tile.loadError hu))
    · rename_i hu
      exact .mk (.dataWrite (.setTile h.wake (h.wake.tile.load hu)))

/-! ### Partition.lean -/

theorem State.Ok.regionDrop {o vbase} (h : s.Ok) : (s.regionDrop o vbase).Ok := .unconfig (h.withStk rfl)

theorem State.Ok.execStkRegionClear {k owner vbase} (h : s.Ok) : NextOk (execStkRegionClear k owner vbase s) := by
  unfold Machine.execStkRegionClear
  refine .next (h.kciRun fun _ h => h.check ?_)
  split
  · exact h.fail
  · exact h.check (.mk h.regionDrop)

theorem State.Ok.partStop {p} (h : s.Ok) : (s.partStop p).Ok :=
  (h.cflEndAll.foldl fun _ _ h => h.shtEnd).dmaStopAll.foldl fun _ _ h => h.commandHalt

theorem State.Ok.partStopAll {ps} (h : s.Ok) : (s.partStopAll ps).Ok := h.foldl fun _ _ h => h.partStop

theorem State.Ok.execPartStop {k part} (h : s.Ok) : NextOk (execPartStop k part s) := .next (h.kciRun fun _ h => h.check (.mk h.partStop))

theorem State.Ok.setPart {p m} (h : s.Ok) : (s.setPart p m).Ok := h.setDtm

theorem State.Ok.execPartCreate {k part train} (h : s.Ok) : NextOk (execPartCreate k part train s) :=
  .next (h.kciRun fun _ h => h.check (.mk h.setPart))

theorem State.Ok.execPartModeSet {k part train} (h : s.Ok) : NextOk (execPartModeSet k part train s) :=
  .next (h.kciRun fun _ h => h.check (.mk h.setPart.config))

theorem State.Ok.joinTile {p t} (h : s.Ok) : (State.joinTile p s t).Ok := h.ite (.ite (h.keepTile rfl) (.onTile h.tileReset fun _ hx => hx))

theorem State.Ok.partAdd {p r} (h : s.Ok) : (s.partAdd p r).Ok :=
  h.check (.mk (((h.foldl fun _ _ h => h.joinTile).foldl fun _ _ h => h.onSub).foldl fun _ _ h => h.setQueue))

theorem Tile.Ok.leave {p} (hx : x.Ok) : (x.leave p).Ok := hx

theorem State.Ok.partRemove {p r} (h : s.Ok) : (s.partRemove p r).Ok :=
  h.check (.mk (((h.foldl fun _ _ h => h.onTile fun _ hx => hx.leave).foldl fun _ _ h => h.onSub).foldl fun _ _ h => h.setQueue.ite h))

theorem State.Ok.execPartAssign {k part add res} (h : s.Ok) : NextOk (execPartAssign k part add res s) :=
  .next (h.kciRun fun _ h => h.check (h.partAdd.ite h.partRemove))

theorem State.Ok.releaseSub {l} (h : s.Ok) : (s.releaseSub l).Ok := h.disableSub.onSub

theorem State.Ok.tearRings {f} (h : s.Ok) : (s.tearRings f).Ok := h.setFn

theorem State.Ok.partRelease {p} (h : s.Ok) : (s.partRelease p).Ok := by
  unfold State.partRelease
  extract_lets s1 s2 s3 _ s4 _ _ s5 s6 s7 s8 _ s9 s10
  have h1 : s1.Ok := h.unconfig
  have h2 : s2.Ok := h1.foldl fun _ _ h => (h.cflClose.ite h).setCfl
  have h3 : s3.Ok := h2.foldl fun _ _ h => h.setGaz.ite h.setGaz
  have h4 : s4.Ok := h3.setMer
  have h5 : s5.Ok := h4.setSht
  have h6 : s6.Ok := h5.foldl fun _ _ h => h.releaseSub
  have h7 : s7.Ok := h6.unconfig
  have h8 : s8.Ok := h7.foldl fun _ _ h => h.regionDrop
  have h9 : s9.Ok := .withFar h8
  have h10 : s10.Ok := h9.foldl fun _ _ h => h.setQueue
  exact h10.setPart.tearRings

theorem State.Ok.partDestroy {p} (h : s.Ok) : (s.partDestroy p).Ok :=
  .mk ((h.partStop.foldl fun _ _ h => h.tileReset).foldl fun _ _ h => h.onTile fun _ hx => hx.leave).partRelease

theorem State.Ok.execPartDestroy {k part} (h : s.Ok) :
    NextOk (execPartDestroy k part s) := .next (h.kciRun fun _ h => h.check h.partDestroy)

theorem State.Ok.execPartQuery {k part} (h : s.Ok) : NextOk (execPartQuery k part s) := .next (h.kciRun fun _ h => h.check h)

/-! ### Plat.lean -/

theorem State.Ok.execPlatAllocGrant {die pool} (h : s.Ok) : NextOk (execPlatAllocGrant die pool s) := .next (h.ite h.platGrant)

theorem State.Ok.poolFault {d p i} (h : s.Ok) : (s.poolFault d p i).Ok := h.ite h.setPool.notify

theorem State.Ok.poolSet {d p total t1 t2 t3 reserve} (h : s.Ok) : (s.poolSet d p total t1 t2 t3 reserve).Ok := h.check (.mk h.putPool)

theorem State.Ok.execPltPoolSet {k die pool total t1 t2 t3 reserve} (h : s.Ok) :
    NextOk (execPltPoolSet k die pool total t1 t2 t3 reserve s) :=
  .next (h.kciRun fun _ h => h.check h.poolSet)

theorem State.Ok.execPltPoolQuery {k die pool owner} (h : s.Ok) : NextOk (execPltPoolQuery k die pool owner s) :=
  .next (h.kciRun fun _ h => h.check h)

/-! ### Waypoint.lean -/

theorem State.Ok.reroute (h : s.Ok) : s.reroute.Ok := h.unmark.shtRouteBack.scanLost

theorem State.Ok.execRouteSetPrefix {k pfx level} (h : s.Ok) : NextOk (execRouteSetPrefix k pfx level s) :=
  .next (h.kciRun fun _ h => h.check (.mk h.setFab.reroute))

theorem State.Ok.execRouteSetPortset {k set members} (h : s.Ok) : NextOk (execRouteSetPortset k set members s) :=
  .next (h.kciRun fun _ h => h.check (.mk h.setFab.reroute))

theorem State.Ok.execRouteLocalSet {k p target} (h : s.Ok) : NextOk (execRouteLocalSet k p target s) :=
  .next (h.kciRun fun _ h => h.check (.mk h.setFab))

theorem State.Ok.aliasSwap (h : s.Ok) : s.aliasSwap.1.Ok := by
  dsimp only [State.aliasSwap]
  exact h.setFab.reroute

theorem State.Ok.aliasSettle (h : s.Ok) : s.aliasSettle.Ok := by
  dsimp only [State.aliasSettle]
  split
  · exact h
  · exact h.setFab.progress.ite h.setFab.progress.setFab.aliasSwap.setInflight.progress

theorem State.Ok.aliasLoad {k first addr count} (h : s.Ok) :
    (s.aliasLoad k first addr count).Ok := h.aliasSettle.check (.mk h.aliasSettle.setFab)

theorem State.Ok.execAliasLoad {k first addr count} (h : s.Ok) : NextOk (execAliasLoad k first addr count s) :=
  .next (h.kciRun fun _ h => h.check h.aliasLoad)

theorem State.Ok.execAliasSwap {k} (h : s.Ok) : NextOk (execAliasSwap k s) :=
  .next (h.kciRun fun _ h => h.check (.ite (.mk h.aliasSettle.aliasSwap) (.ite (.mk h.setFab) (.mk h.aliasSwap))))

theorem State.Ok.execMcastSet {k index targets} (h : s.Ok) : NextOk (execMcastSet k index targets s) :=
  .next (h.kciRun fun _ h => h.check (.mk h.setFab))

theorem State.Ok.execReorderCfg {k timeout} (h : s.Ok) :
    NextOk (execReorderCfg k timeout s) := .next (h.kciRun fun _ h => h.check (.mk h.setFab))

theorem State.Ok.queueCfg {d o mark onchip spill} (h : s.Ok) :
    (s.queueCfg d o mark onchip spill).Ok := h.check (.mk h.setOutQ.putPool.putPool)

theorem State.Ok.dieCfg {d spill flush} (h : s.Ok) : (s.dieCfg d spill flush).Ok := h.check (.mk h.setTrv.putPool.systemRegion)

theorem State.Ok.execTrvQueueCfg {k cfg} (h : s.Ok) : NextOk (execTrvQueueCfg k cfg s) := by
  unfold Machine.execTrvQueueCfg
  refine .next (h.kciRun fun _ h => h.check ?_)
  split
  · exact h.check h.queueCfg
  · exact h.check h.dieCfg

theorem State.Ok.execFlowQuery {k die src vc} (h : s.Ok) : NextOk (execFlowQuery k die src vc s) := by
  dsimp only [Machine.execFlowQuery]
  refine .next (h.kciRun fun _ h => h.check ?_)
  split
  · exact h.fail
  · exact h.fail.ite h

theorem State.Ok.execRouteQuery {k dest} (h : s.Ok) : NextOk (execRouteQuery k dest s) := .next (h.kciRun fun _ h => h.check h)

/-! ### Recovery.lean -/

theorem State.Ok.fenceFrames {l} (h : s.Ok) : (s.fenceFrames l).2.Ok := h.platFreeAll.onSub.ite h.platFreeAll.onSub.drop

theorem State.Ok.fenceSub {l} (h : s.Ok) : (s.fenceSub l).Ok := by
  unfold State.fenceSub
  extract_lets s1 s2 _ s3
  have h1 : s1.Ok := h.discardQueued
  have h2 : s2.Ok := h1.leaveUp.ite h1.onSub
  have h3 : s3.Ok := h2.setFab
  clear_value s3
  exact h.ite h3.fenceFrames.notify.progress

theorem State.Ok.fenceList {ls} (h : s.Ok) : (s.fenceList ls).Ok := (h.foldl fun _ _ h => h.fenceSub).scanLost

theorem State.Ok.execFencePort {k lports} (h : s.Ok) :
    NextOk (execFencePort k lports s) := .next (h.kciRun fun _ h => h.check (.mk h.fenceList))

theorem State.Ok.execUnfencePort {k lports} (h : s.Ok) : NextOk (execUnfencePort k lports s) :=
  .next (h.kciRun fun _ h => h.check (.mk (h.foldl fun _ _ h => h.startTraining)))

theorem State.Ok.stopOnDie {d} (h : s.Ok) : (s.stopOnDie d).Ok := h.partStopAll.ite h

theorem State.Ok.dieDown {d} (h : s.Ok) : (s.dieDown d).Ok := h.ite (.stopOnDie (.fenceList (.notify h.withFlt)))

theorem State.Ok.moduleFail {cause} (h : s.Ok) : (s.moduleFail cause).Ok := by
  unfold State.moduleFail
  extract_lets _ _ s1 s2
  have h1 : s1.Ok := .ite (.notify h.withFlt) h
  have h2 : s2.Ok := h1.fenceList
  exact h2.partStopAll.ite h2

theorem State.Ok.poolLost {d p} (h : s.Ok) : (s.poolLost d p).Ok := h.moduleFail.ite h.dieDown

theorem State.Ok.poolBroken {d p i} (h : s.Ok) : (s.poolBroken d p i).Ok := h.ite h.poolFault.poolLost

theorem State.Ok.execPlatAlloc {die pool owner part metaBad} (h : s.Ok) : NextOk (execPlatAlloc die pool owner part metaBad s) :=
  .next (h.ite (h.poolBroken.ite h.platAlloc))

theorem State.Ok.execPlatFree {die pool owner index metaBad} (h : s.Ok) : NextOk (execPlatFree die pool owner index metaBad s) :=
  .next (h.ite (h.poolBroken.ite h.platFree))

theorem State.Ok.execBridgeLaneFailure {b fromSecond lane parts} (h : s.Ok) : NextOk (execBridgeLaneFailure b fromSecond lane parts s) :=
  .next (h.ite (.ite (.notifyRecorded (.drift h.withLay)) (.moduleFail (.notifyRecorded (.drift h.withLay)))))

theorem State.Ok.execIsolatePeer {k tiers depth} (h : s.Ok) : NextOk (execIsolatePeer k tiers depth s) :=
  .next (h.kciRun fun _ h => h.check (.ite h (h.check (.mk (.scanLost (.notify h.withFlt))))))

theorem State.Ok.execReleasePeer {k tiers depth} (h : s.Ok) : NextOk (execReleasePeer k tiers depth s) :=
  .next (h.kciRun fun _ h => h.check (.mk (.shtRouteBack h.withFlt)))

theorem State.Ok.plpTeardown {job} (h : s.Ok) : (s.plpTeardown job).2.Ok := h.setFab.foldl fun _ _ h => h.flowDone.ite h

theorem State.Ok.jobTeardown {job} (h : s.Ok) : (s.jobTeardown job).Ok := by
  unfold State.jobTeardown
  extract_lets _ s1
  have h1 : s1.Ok := h.cflAbortJob
  clear_value *
  exact .mk (.notify (.tally (.withFlt h1.shtTeardown.plpTeardown.dmaStopAll)))

theorem State.Ok.execJobTeardown {k job} (h : s.Ok) : NextOk (execJobTeardown k job s) := .next (h.kciRun fun _ h => h.check h.jobTeardown)

theorem State.Ok.execFaultLogRead {k first count dest} (h : s.Ok) : NextOk (execFaultLogRead k first count dest s) :=
  .next (h.kciRun fun _ h => h.check (.mk h.putHost))

theorem State.Ok.execFaultMapRead {k die dest} (h : s.Ok) : NextOk (execFaultMapRead k die dest s) :=
  .next (h.kciRun fun _ h => h.check (.mk h.putHost))

theorem State.Ok.tileTest {tiles failed} (h : s.Ok) : (s.tileTest tiles failed).Ok := by
  unfold State.tileTest
  extract_lets _ s1 s2
  have h1 : s1.Ok := h.foldl fun _ _ h => h.onTile fun _ _ => Memory.wf_nil
  have h2 : s2.Ok := h1.foldl fun _ _ h => h.mapAdd.notify
  exact h2

theorem State.Ok.execTileTest {k tiles failed} (h : s.Ok) :
    NextOk (execTileTest k tiles failed s) := .next (h.kciRun fun _ h => h.check h.tileTest)

theorem State.Ok.applyShift {die f} (h : s.Ok) : (s.applyShift die f).Ok :=
  .foldl (h.withGrid rfl) fun _ _ h => .ite (.onTile h fun _ hx => hx) (.ite (.onTile h fun _ hx => hx) h)

theorem State.Ok.shiftStep {die column step} (h : s.Ok) : (s.shiftStep die column step).Ok := h.itinEvent

theorem State.Ok.columnShift {die column} (h : s.Ok) : (s.columnShift die column).Ok := by
  unfold State.columnShift
  extract_lets _ _ _ _ s1 s2 s3
  have h1 : s1.Ok := h.partStopAll.shiftStep
  have h2 : s2.Ok := (h1.foldl fun _ _ h => h.commandHalt).shiftStep
  have h3 : s3.Ok := h2.applyShift.shiftStep
  exact .mk (h3.foldl fun _ _ h => h.tileReset).shiftStep

theorem State.Ok.execColumnShift {k die column} (h : s.Ok) : NextOk (execColumnShift k die column s) :=
  .next (h.kciRun fun _ h => h.check h.columnShift)

/-! ### Lifecycle.lean -/

theorem State.Ok.wipe {cause} (h : s.Ok) : (s.wipe cause).Ok := .setCrt (.withAtl (.withCmp (h.withAtl rfl) rfl rfl) rfl) h.staging

theorem State.Ok.lcChange {k new} (h : s.Ok) : (s.lcChange k new).Ok := by
  unfold State.lcChange
  extract_lets _ s1 _ s2
  have h1 : s1.Ok := h.itinGap.itinRecord.checkpoint
  have h2 : s2.Ok := .ite (.setCrt h1 h1.staging) h1
  exact .wipe (.setCrt h2 h2.staging)

theorem State.Ok.lcTransition {k target challenge} (h : s.Ok) : (s.lcTransition k target challenge).Ok :=
  h.check (h.fail.ite (.ite (.mk h.lcChange) (.mk (.setCrt h h.staging))))

theorem State.Ok.execLcTransition {k target challenge} (h : s.Ok) : NextOk (execLcTransition k target challenge s) :=
  .next (h.kciRun fun _ h => h.lcTransition)

theorem State.Ok.lcActions {new} (h : s.Ok) : (s.lcActions new).Ok := by
  unfold State.lcActions
  extract_lets s1 _ s2 _ s3
  have h1 : s1.Ok := h.ite h.loadKey
  have h2 : s2.Ok := .setCrt h1 h1.staging
  have h3 : s3.Ok := .ite (.putStk h2 Memory.wf_nil) h1
  clear_value s3
  exact .ite (h3.foldl fun _ _ h => h.disableSub) h3

theorem State.Ok.wipeDone {ok} (h : s.Ok) : (s.wipeDone ok).Ok := by
  unfold State.wipeDone
  extract_lets _ s1 _ _ s2 _ s3
  have h1 : s1.Ok := h.withAtl rfl
  have h2 : s2.Ok := h1.withCmp rfl rfl
  have h3 : s3.Ok := .ite h2 (.moduleFail (.notify (.setCrt h2 h2.staging)))
  clear_value s3
  refine h.ite ?_
  split
  · exact h3.ite h3.loadKey
  · exact .notify (.progress (.lcActions (.setCrt h3 h3.staging)))

theorem State.Ok.execSecureWipeDone {ok} (h : s.Ok) : NextOk (execSecureWipeDone ok s) := .next h.wipeDone

theorem State.Ok.tamperTrip {source readings} (h : s.Ok) : (s.tamperTrip source readings).Ok :=
  h.ite (.moduleFail (.progress (.notify (.itinEvent (.wipe (.setCrt h h.staging))))))

theorem State.Ok.execTamperTrip {source readings} (h : s.Ok) : NextOk (execTamperTrip source readings s) := .next h.tamperTrip

theorem State.Ok.execAttest {k nonce dest} (h : s.Ok) : NextOk (execAttest k nonce dest s) := by
  dsimp only [Machine.execAttest]
  refine .next (h.kciRun fun _ h => h.check ?_)
  split
  · exact h.fail
  · exact .mk h.putHost

theorem State.Ok.compassFail (h : s.Ok) : s.compassFail.Ok := .moduleFail (h.withCmp rfl rfl)

theorem State.Ok.restartEntry {outage rerun} (h : s.Ok) : (s.restartEntry outage rerun).Ok := h.itinEvent

theorem State.Ok.restartCut (h : s.Ok) : s.restartCut.Ok := h.restartEntry

theorem State.Ok.watchdog (h : s.Ok) : s.watchdog.Ok :=
  h.ite (.ite (.tally (.withCmp (h.restartCut.ite h) rfl rfl)) (.compassFail (.restartEntry (.tally (.withCmp (h.restartCut.ite h) rfl rfl)))))

theorem State.Ok.execCompassWatchdog {cc} (h : s.Ok) : NextOk (execCompassWatchdog cc s) := .next h.at.watchdog

theorem State.Ok.mgmtFallback (h : s.Ok) : s.mgmtFallback.Ok := by
  unfold State.mgmtFallback
  refine h.ite ?_
  split
  · exact h.restartCut.compassFail.ite (.progress (.notifyRecorded (.withCmp (.setCrt h h.staging) rfl rfl)))
  · exact h.restartCut.compassFail

theorem State.Ok.execMgmtFallback {cc} (h : s.Ok) : NextOk (execMgmtFallback cc s) := .next h.at.mgmtFallback

theorem State.Ok.applyLater {es} (h : s.Ok) : (s.applyLater es).Ok := h.withCmp rfl rfl

theorem State.Ok.startSettings (h : s.Ok) : s.startSettings.Ok := by
  unfold State.startSettings
  split
  · exact h.applyLater
  · exact h

theorem State.Ok.checkSettings (h : s.Ok) : s.checkSettings.Ok := by
  dsimp only [State.checkSettings]
  split
  · exact h
  · exact h.ite (.itinEvent (.notify (.applyLater (.setCrt h h.staging))))

theorem State.Ok.owedStops (h : s.Ok) : s.owedStops.Ok := h.partStopAll.ite h.partStopAll

theorem State.Ok.restartDone (h : s.Ok) : s.restartDone.Ok := by
  unfold State.restartDone
  extract_lets _ _ _ _ _ _ s1 _ s2 s3 s4 s5 _ s6 _ s7
  have h1 : s1.Ok := h.withCmp rfl rfl
  have h2 : s2.Ok := h1.deliver.foldl fun _ _ h => h.postNotice.ite h
  have h3 : s3.Ok := h2.restartEntry
  have h4 : s4.Ok := (h3.foldl fun _ _ h => h.deliver).foldl fun _ _ h => h.quadFlush
  have h5 : s5.Ok := h4.imageActive
  have h6 : s6.Ok := .ite (.progress (.setCrt h5 (Cartouche.unstage_wf h5.staging))) h4
  have h7 : s7.Ok := h6.ite (.notifyRecorded (.withCmp h6 rfl rfl))
  exact h7.checkSettings.startSettings.owedStops

theorem State.Ok.systemRegions (h : s.Ok) : s.systemRegions.Ok := h.foldl fun _ _ h => h.systemRegion

theorem State.Ok.bootDone (h : s.Ok) : s.bootDone.Ok := by
  unfold State.bootDone
  extract_lets _ s1 s2 _ s3
  have h1 : s1.Ok := h.withCmp rfl rfl
  have h2 : s2.Ok := h1.systemRegions.checkSettings.startSettings
  have h3 : s3.Ok := .ite (.notify (.withPwr h2)) h2
  exact h3.owedStops

theorem State.Ok.execCompassReady {cc} (h : s.Ok) : NextOk (execCompassReady cc s) := by
  dsimp only [Machine.execCompassReady]
  refine .next ?_
  split
  · exact h.at.bootDone.ite h.at
  · exact h.at.ite h.at.restartDone
  · exact h.at

/-! ### Reset.lean -/

theorem State.resetTiles_ok (s : State) : ∀ e ∈ s.resetTiles, e.2.Ok := by
  intro e he
  obtain ⟨_, -, rfl⟩ := List.mem_map.1 he
  exact Memory.wf_nil

theorem Stk.repairs_mem_wf {k : Stk} : k.repairs.mem.wf = true := Memory.wf_nil

theorem State.Ok.quadReset (h : s.Ok) : s.quadReset.Ok := by
  rw [State.ok_iff]
  dsimp only [State.quadReset]
  exact ⟨h.host, s.resetTiles_ok, h.mem, Memory.wf_nil, h.staging, h.eeprom, h.coldPlate⟩

theorem State.Ok.itinLoss (h : s.Ok) : s.itinLoss.Ok := h.ite (.setCrt h h.staging)

theorem State.Ok.volatileLoss (h : s.Ok) : s.volatileLoss.Ok := by
  unfold State.volatileLoss
  extract_lets s1 _ c1 c2 _ c3
  have h1 : s1.Ok := h.quadReset
  have hc2 : c2.staging.wf = true := by
    have hc1 : c1.staging.wf = true := h1.staging
    dsimp only [c2]
    split <;> exact hc1
  have hc3 : c3.staging.wf = true := by
    dsimp only [c3]
    split
    · exact Cartouche.unstage_wf hc2
    · exact hc2
  clear_value s1 c3
  rw [State.ok_iff]
  exact ⟨h1.host, h1.tiles, Stk.repairs_mem_wf, h1.pinned, hc3, h1.eeprom, h1.coldPlate⟩

theorem State.Ok.coldBegin {kind} (h : s.Ok) : (s.coldBegin kind).Ok := .volatileLoss (.itinLoss h.withPwr)

theorem State.Ok.coldDue (h : s.Ok) : s.coldDue.Ok := by
  unfold State.coldDue
  split
  · exact h.coldBegin.ite h
  · exact h

theorem State.Ok.pwrSettle (h : s.Ok) : s.pwrSettle.Ok := .ite (.volatileLoss (.itinLoss h.withPwr)) h

theorem State.Ok.poolShrink {d p lo hi} (h : s.Ok) : (s.poolShrink d p lo hi).Ok := h.ite h.setPool

theorem State.Ok.bankDegraded {b} (h : s.Ok) : (s.bankDegraded b).Ok := by
  dsimp only [State.bankDegraded]
  split
  · exact h.foldl fun _ _ h => h.poolShrink
  · exact h.poolShrink
  · exact h.dieDown
  · exact h.moduleFail
  · exact h.moduleFail
  · exact h

theorem State.Ok.degradedBanks (h : s.Ok) : s.degradedBanks.Ok := h.foldl fun _ _ h => h.bankDegraded

theorem State.Ok.warmReset (h : s.Ok) : s.warmReset.Ok :=
  .degradedBanks (.systemRegions (.foldl (.setInflight h.quadReset) fun _ _ h => h.atlasReset))

theorem State.Ok.moveImage {e} (h : s.Ok) : (s.moveImage e).Ok :=
  .ite (.notify (.setCrt h h.staging)) (.imageActive (.setCrt (.setCrt h h.staging) h.staging))

theorem State.Ok.resume (h : s.Ok) : s.resume.Ok := h.itinEvent

theorem State.Ok.loadAtStart (h : s.Ok) : s.loadAtStart.Ok := by
  dsimp only [State.loadAtStart]
  split
  · exact .notify (.lcActions (.setCrt h h.staging))
  · exact h.ite h.loadKey

theorem State.Ok.coldEnd {up} (h : s.Ok) : (s.coldEnd up).Ok := by
  unfold State.coldEnd
  extract_lets _ s1 _ _ _ _ s2 s3 s4 _ s5 s6 s7 s8 s9 s10
  have h1 : s1.Ok := h.volatileLoss
  have h2 : s2.Ok := h1
  have h3 : s3.Ok := h2.ite h2.resume
  have h4 : s4.Ok := h3.foldl fun _ _ h => h.moveImage
  have h5 : s5.Ok := .loadAtStart (.setCrt h4 h4.staging)
  have h6 : s6.Ok := h5.foldl fun _ _ h => h.stackReset
  have h7 : s7.Ok := (h6.fusesLost.ite h6).foldl fun _ _ h => h.atlasReset
  have h8 : s8.Ok := h7.foldl fun _ _ h => h.applyShift
  have h9 : s9.Ok := h8.degradedBanks
  have h10 : s10.Ok := h9.moduleFail.ite h9
  exact h10.ite h10.notify.moduleFail

theorem State.Ok.execColdResetEnd {cc} (h : s.Ok) : NextOk (execColdResetEnd cc s) :=
  .next (h.at.pwrSettle.coldDue.coldEnd.ite (h.at.pwrSettle.coldDue.coldEnd.ite h.at.pwrSettle.coldDue))

/-! ### Power.lean -/

theorem State.Ok.setPwr {p} (h : s.Ok) : (s.setPwr p).Ok := h.withPwr

theorem State.Ok.alarm {i on} (h : s.Ok) : (s.alarm i on).Ok := h.ite (h.setPwr.w1cSet.notify.ite h.setPwr)

theorem State.Ok.powerDown {cause} (h : s.Ok) : (s.powerDown cause).Ok := by
  unfold State.powerDown
  extract_lets _ s1 s2 s3 _ _ s4
  have h1 : s1.Ok := h.setPwr
  have h2 : s2.Ok := h1.notify
  clear_value s2
  have h3 : s3.Ok := h2.partStopAll.fenceList
  clear_value s3
  have h4 : s4.Ok := .setCrt h3 h3.staging
  exact h4.setPwr

theorem State.Ok.emergency {cause} (h : s.Ok) : (s.emergency cause).Ok := h.ite h.setPwr.itinLoss.volatileLoss

theorem State.Ok.vsbStart {straps lidOpen} (h : s.Ok) : (s.vsbStart straps lidOpen).Ok :=
  h.ite (.ite (.tamperTrip (.setCrt h.setPwr h.setPwr.staging)) (.setCrt h.setPwr h.setPwr.staging))

theorem State.Ok.execVsbStart {straps lidOpen cc} (h : s.Ok) : NextOk (execVsbStart straps lidOpen cc s) := .next h.at.vsbStart

theorem State.Ok.pwrEnRise (h : s.Ok) : s.pwrEnRise.Ok := h.pwrSettle.setPwr.ite h.pwrSettle.setPwr

theorem State.Ok.execPwrEnRise {cc} (h : s.Ok) : NextOk (execPwrEnRise cc s) := .next h.at.pwrEnRise

theorem State.Ok.pwrEnFall (h : s.Ok) : s.pwrEnFall.Ok := by
  dsimp only [State.pwrEnFall]
  split
  · exact h.pwrSettle.setPwr.powerDown
  · exact h.pwrSettle.setPwr.setPwr
  · exact h.pwrSettle.setPwr

theorem State.Ok.execPwrEnFall {cc} (h : s.Ok) : NextOk (execPwrEnFall cc s) := .next h.at.pwrEnFall

theorem State.Ok.execRailTimeout {rail cc} (h : s.Ok) : NextOk (execRailTimeout rail cc s) := .next (h.at.emergency.ite h.at)

theorem State.Ok.railExcursion {rail mv amps ev} (h : s.Ok) : (s.railExcursion rail mv amps ev).Ok := by
  unfold State.railExcursion
  extract_lets _ s1 s2 _ s3 s4
  have h2 : s2.Ok := h.setPwr.alarm
  have h3 : s3.Ok := .ite h2 (.setCrt h2 h2.staging)
  clear_value s3
  have h4 : s4.Ok := h3.tamperTrip.ite h3
  exact h.ite (h4.emergency.ite h4)

theorem State.Ok.execRailExcursion {rail mv amps ev} (h : s.Ok) : NextOk (execRailExcursion rail mv amps ev s) := .next h.railExcursion

theorem State.Ok.inputExcursion {ev volt curr power} (h : s.Ok) : (s.inputExcursion ev volt curr power).Ok := by
  dsimp only [State.inputExcursion]
  split
  · exact h.setPwr.alarm.alarm.alarm.emergency.setPwr.ite h.setPwr.alarm.alarm.alarm.emergency
  · exact h.setPwr.alarm.alarm.alarm.emergency
  · exact h.setPwr.alarm.alarm.alarm.emergency
  · exact h.setPwr.alarm.alarm.alarm

theorem State.Ok.execInputExcursion {ev volt curr power} (h : s.Ok) :
    NextOk (execInputExcursion ev volt curr power s) := .next h.inputExcursion

theorem State.Ok.sensorTake {e} (h : s.Ok) : (s.sensorTake e).Ok := h.setPwr.tally.notify.ite h.setPwr

theorem State.Ok.inletTake {t} (h : s.Ok) : (s.inletTake t).Ok := h.setPwr.alarm.tally.notify.ite h.setPwr.alarm

theorem State.Ok.flowTake {outlet} (h : s.Ok) : (s.flowTake outlet).Ok := h.setPwr.alarm

theorem State.Ok.tamperTake (h : s.Ok) : s.tamperTake.Ok := by
  unfold State.tamperTake
  extract_lets _ _ _ _ _ s1 _ _ s2 s3
  have h1 : s1.Ok := h.withFree
  have h2 : s2.Ok := .setCrt h1 h.staging
  have h3 : s3.Ok := h2.tamperTrip.ite h2
  exact h3.tamperTrip.ite h3

theorem State.Ok.sensorSample {temps inlet outlet wet} (h : s.Ok) : (s.sensorSample temps inlet outlet wet).Ok := by
  unfold State.sensorSample
  extract_lets s1 _ s2 s3 s4 _ s5 s6
  have h1 : s1.Ok := h.foldl fun _ _ h => h.sensorTake
  have h2 : s2.Ok := h1.alarm
  have h3 : s3.Ok := h2.alarm
  have h4 : s4.Ok := h3.inletTake.flowTake
  have h5 : s5.Ok := h4.setPwr
  have h6 : s6.Ok := h5.tamperTake
  exact h6.emergency.ite (h6.emergency.ite h6)

theorem State.Ok.execSensorSample {temps inlet outlet wet cc} (h : s.Ok) : NextOk (execSensorSample temps inlet outlet wet cc s) :=
  .next (h.at.ite h.at.sensorSample)

theorem State.Ok.execResetNAssert {cc} (h : s.Ok) : NextOk (execResetNAssert cc s) := .next (h.at.coldBegin.ite h.at)

theorem State.Ok.execPwrQuery {k dest} (h : s.Ok) : NextOk (execPwrQuery k dest s) := .next (h.kciRun fun _ h => h.check (.mk h.putHost))

theorem State.Ok.powerRecord {k opcode} (h : s.Ok) : (s.powerRecord k opcode).Ok := h.itinCommand

theorem State.Ok.execPwrReset {k cold} (h : s.Ok) : NextOk (execPwrReset k cold s) :=
  .next (h.kciRun fun _ h => h.check (.ite (.mk h.powerRecord.setPwr) (.mk h.powerRecord.warmReset)))

theorem State.Ok.execPwrOff {k} (h : s.Ok) : NextOk (execPwrOff k s) := .next (h.kciRun fun _ h => h.check (.mk h.powerRecord.powerDown))

theorem State.Ok.execBmcRead {code} (h : s.Ok) : NextOk (execBmcRead code s) := .next (h.ite h.emit)

/-! ### Accept.lean -/

/-! ### The command that a descriptor spells -/

/-- A command's meaning keeps the canonical form. -/
def Run.Ok (f : Run) : Prop := ∀ s : State, s.Ok → NextOk (f s)

/-- Every meaning that a reader of operands yields keeps the canonical form. -/
def Rd.Ok (x : Rd Run) : Prop := ∀ ws m f r, (x.run ws).run m = some (f, r) → Run.Ok f

theorem Rd.Ok.pure {f : Run} (hf : Run.Ok f) : Rd.Ok (Pure.pure f) := by
  rintro ws m _ _ ⟨⟩
  exact hf

theorem Rd.Ok.failure : Rd.Ok failure := by
  rintro ws m _ _ ⟨⟩

theorem Rd.Ok.bind {α : Type} {x : Rd α} {f : α → Rd Run} (hf : ∀ a, Rd.Ok (f a)) : Rd.Ok (x >>= f) := by
  intro ws m g r hg
  change Option.bind (x ws m) (fun p => f p.1 p.2 m) = some (g, r) at hg
  obtain ⟨p, -, hp⟩ := Option.bind_eq_some_iff.1 hg
  exact hf p.1 p.2 m g r hp

theorem Rd.Ok.ite {c : Prop} [Decidable c] {x y : Rd Run} (hx : Rd.Ok x) (hy : Rd.Ok y) : Rd.Ok (if c then x else y) := by
  split <;> assumption

theorem Rd.Ok.bindIte {α : Type} {c : Prop} [Decidable c] {x y : Rd α} {f : α → Rd Run} (hf : ∀ a, Rd.Ok (f a)) :
    Rd.Ok (if c then x >>= f else y >>= f) :=
  .ite (.bind hf) (.bind hf)

/-- Every command that the operands of a row spell keeps the canonical form. -/
def KciRow.Ok (r : KciRow) : Prop := ∀ k, Rd.Ok (r.read k)

theorem KciRow.Ok.row0 {op f} (hf : ∀ k, Run.Ok (f k)) : (row0 op f).Ok := fun k => .pure (hf k)

theorem KciRow.Ok.row1 {op f} (hf : ∀ k a, Run.Ok (f k a)) : (row1 op f).Ok := fun k => .bind fun _ => .pure (hf k _)

theorem KciRow.Ok.row2 {op f} (hf : ∀ k a b, Run.Ok (f k a b)) : (row2 op f).Ok := fun k => .bind fun _ => .bind fun _ => .pure (hf k _ _)

theorem KciRow.Ok.row3 {op f} (hf : ∀ k a b c, Run.Ok (f k a b c)) : (row3 op f).Ok :=
  fun k => .bind fun _ => .bind fun _ => .bind fun _ => .pure (hf k _ _ _)

theorem KciRow.Ok.row4 {op f} (hf : ∀ k a b c d, Run.Ok (f k a b c d)) : (row4 op f).Ok :=
  fun k => .bind fun _ => .bind fun _ => .bind fun _ => .bind fun _ => .pure (hf k _ _ _ _)

theorem KciRow.Ok.row5 {op f} (hf : ∀ k a b c d e, Run.Ok (f k a b c d e)) : (row5 op f).Ok :=
  fun k => .bind fun _ => .bind fun _ => .bind fun _ => .bind fun _ => .bind fun _ => .pure (hf k _ _ _ _ _)

theorem KciRow.Ok.rowTiles {op f} (hf : ∀ k a, Run.Ok (f k a)) : (rowTiles op f).Ok := fun k => .bind fun _ => .pure (hf k _)

theorem rows01_ok : ∀ r ∈ rows01, r.Ok := by
  simp only [rows01, List.forall_mem_cons]
  exact ⟨.row0 fun _ _ h => h.execModuleIdentity,
    .row4 fun _ _ _ _ _ _ h => h.execIdmemRead,
    .row0 fun _ _ h => h.execLcQuery,
    .row1 fun _ _ _ h => h.execLcProvision,
    .row2 fun _ _ _ _ h => h.execLcCertInstall,
    fun _ => .bind fun _ => .pure fun _ h => h.execLcTransitionArm,
    fun _ => .bind fun _ => .bind fun _ => .pure fun _ h => h.execLcTransition,
    .row1 fun _ _ _ h => h.execCertRead,
    .row0 fun _ _ h => h.execTamperQuery,
    .row0 fun _ _ h => h.execTamperClear,
    List.forall_mem_nil _⟩

theorem rows02_ok : ∀ r ∈ rows02, r.Ok := by
  simp only [rows02, List.forall_mem_cons]
  refine ⟨fun _ => .bind fun _ => .bind fun _ => .bind fun _ => .pure fun _ h => h.execKciRingsSet,
    fun _ => .bind fun _ => .bind fun _ => .pure fun _ h => h.execPartCreate,
    fun _ => .bind fun _ => .bind fun _ => .bind fun _ => .bind fun _ => .bind fun _ => .bind fun _ => .pure fun _ h => h.execPartAssign,
    fun _ => .bind fun _ => .bind fun _ => .pure fun _ h => h.execPartModeSet,
    .row1 fun _ _ _ h => h.execPartStop,
    .row1 fun _ _ _ h => h.execPartDestroy,
    .row1 fun _ _ _ h => h.execPartQuery,
    fun _ => .bind fun _ => .bind fun _ => .bind fun _ => .bind fun _ => .bind fun _ => .pure fun _ h => h.execDmaqSet,
    fun _ => .bind fun _ => .bind fun _ => .pure fun _ h => h.execDatumSet,
    fun _ => .bind fun _ => ?_,
    .row0 fun _ _ h => h.execDatumStart,
    .row2 fun _ _ _ _ h => h.execDatumStartAt,
    .row0 fun _ _ h => h.execDriftSnapshot,
    fun _ => .bind fun _ => .bind fun _ => .bind fun _ => .bind fun _ => .bind fun _ => .bind fun _ => .bind fun _ => .pure fun _ h =>
      h.execPltPoolSet,
    fun _ => .bind fun _ => .bind fun _ => .bind fun _ => .bind fun _ => .ite .failure (.pure fun _ h => h.execPltPoolQuery),
    fun _ => .bind fun _ => .bind fun _ => .bind fun _ => .bind fun _ => .bind fun _ => .bind fun _ => .bind fun _ => .ite (.bind fun _ =>
      .pure fun _ h => h.execMgmtPortSet) (.pure fun _ h => h.execMgmtPortSet),
    fun _ => .bind fun _ => .pure fun _ h => h.execMgmtKeySet,
    fun _ => .bind fun _ => .bind fun _ => .pure fun _ h => h.execPtpSet,
    .row0 fun _ _ h => h.execTimeQuery,
    List.forall_mem_nil _⟩
  split
  · exact .pure fun _ h => h.execDatumSyncCal
  · exact .pure fun _ h => h.execDatumSyncCal
  · exact .pure fun _ h => h.execDatumSyncCal
  · exact .failure

theorem rows03_ok : ∀ r ∈ rows03, r.Ok := by
  simp only [rows03, List.forall_mem_cons]
  exact ⟨fun _ => .bind fun _ => .bind fun _ => .bind fun _ => .bind fun _ => .bind fun _ => .pure fun _ h => h.execPortConfig,
    fun _ => .bind fun _ => .bind fun _ => .pure fun _ h => h.execPortLink,
    .row1 fun _ _ _ h => h.execPortStatus,
    .row1 fun _ _ _ h => h.execPortPartner,
    .row5 fun _ _ _ _ _ _ _ h => h.execPortCmisRead,
    fun _ => .bind fun _ => .bind fun _ => .bind fun _ => .pure fun _ h => h.execPortSteerSet,
    .row2 fun _ _ _ _ h => h.execPortSteerRead,
    fun _ => .bind fun _ => .bind fun _ => .bind fun _ => .bind fun _ => .bind fun _ => .bind fun _ => .bind fun _ => .bind fun _ =>
      .pure fun _ h => h.execPortConvSet,
    List.forall_mem_nil _⟩

theorem rows04_ok : ∀ r ∈ rows04, r.Ok := by
  simp only [rows04, List.forall_mem_cons]
  exact ⟨.row2 fun _ _ _ _ h => h.execRouteSetPrefix,
    fun _ => .bind fun _ => .bind fun _ => .bind fun _ => .ite .failure (.pure fun _ h => h.execRouteSetPortset),
    fun _ => .bind fun _ => .bind fun _ => .bind fun _ => .bind fun _ => .pure fun _ h => h.execRouteLocalSet,
    .row3 fun _ _ _ _ _ h => h.execAliasLoad,
    .row0 fun _ _ h => h.execAliasSwap,
    fun _ => .bind fun _ => .bind fun _ => .pure fun _ h => h.execMcastSet,
    .row1 fun _ _ _ h => h.execReorderCfg,
    fun _ => .bind fun _ => .bind fun _ => .ite (.bind fun _ => .bind fun _ => .bind fun _ => .pure fun _ h => h.execTrvQueueCfg) (.bind fun _ =>
      .bind fun _ => .bind fun _ => .bind fun _ => .bind fun _ => .pure fun _ h => h.execTrvQueueCfg),
    .row3 fun _ _ _ _ _ h => h.execFlowQuery,
    .row1 fun _ _ _ h => h.execRouteQuery,
    .row3 fun _ _ _ _ _ h => h.execCtrClassCfg,
    fun _ => .bind fun _ => .bind fun _ => .bind fun _ => .bind fun _ => .bind fun _ => .pure fun _ h => h.execCtrShaperSet,
    fun _ => .bind fun _ => .bind fun _ => .bind fun _ => .bind fun _ => .pure fun _ h => h.execCtrGateSet,
    .row2 fun _ _ _ _ h => h.execCtrGateRead,
    .row1 fun _ _ _ h => h.execCtrStatus,
    List.forall_mem_nil _⟩

theorem rows05_ok : ∀ r ∈ rows05, r.Ok := by
  simp only [rows05, List.forall_mem_cons]
  exact ⟨fun _ => .bind fun _ => .bind fun _ => .pure fun _ h => h.execTileReset,
    .rowTiles fun _ _ _ h => h.execTileStart,
    .rowTiles fun _ _ _ h => h.execTileHalt,
    .rowTiles fun _ _ _ h => h.execTileResume,
    .rowTiles fun _ _ _ h => h.execTileStatus,
    .row2 fun _ _ _ _ h => h.execColumnShift,
    .row2 fun _ _ _ _ h => h.execVtabRead,
    fun _ => .bind fun _ => .bind fun _ => .bind fun _ => .bind fun _ => .bind fun _ => .pure fun _ h => h.execImemLoad,
    fun _ => .bind fun _ => .bind fun _ => .bind fun _ => .pure fun _ h => h.execImemSwap,
    .row5 fun _ _ _ _ _ _ _ h => h.execImemRead,
    fun _ => .bind fun _ => .bind fun _ => .bind fun _ => .bind fun _ => .pure fun _ h => h.execScratchWrite,
    fun _ => .bind fun _ => .bind fun _ => .bind fun _ => .bind fun _ => .pure fun _ h => h.execScratchRead,
    List.forall_mem_nil _⟩

theorem rows06_ok : ∀ r ∈ rows06, r.Ok := by
  simp only [rows06, List.forall_mem_cons]
  exact ⟨fun _ => .bind fun _ => .bind fun _ => .bind fun _ => .bind fun _ => .bindIte fun _ => .bind fun _ => .bind fun _ => .bind fun _ =>
      .bind fun _ => .bind fun _ => .bind fun _ => .pure fun _ h => h.execCflGroupDefine,
    .row1 fun _ _ _ h => h.execCflGroupOpen,
    .row1 fun _ _ _ h => h.execCflGroupClose,
    .row1 fun _ _ _ h => h.execCflGroupDelete,
    fun _ => .bind fun _ => .bind fun _ => .pure fun _ h => h.execCflSubmit,
    fun _ => .bind fun _ => .bind fun _ => .bind fun _ => .ite .failure (.pure fun _ h => h.execCflAbort),
    .row1 fun _ _ _ h => h.execCflGroupQuery,
    fun _ => .bind fun _ => .bind fun _ => .pure fun _ h => h.execCflDigest,
    List.forall_mem_nil _⟩

theorem rows07_ok : ∀ r ∈ rows07, r.Ok := by
  simp only [rows07, List.forall_mem_cons]
  exact ⟨fun _ => .bind fun _ => .bind fun _ => .bind fun _ => .bind fun _ => .bind fun _ => .bind fun _ => .bind fun _ => .bind fun _ =>
      .bind fun _ => .bind fun _ => .bind fun _ => .bind fun _ => .bind fun _ => .bind fun _ => .pure fun _ h => h.execGazTableDefine,
    .row1 fun _ _ _ h => h.execGazTableDelete,
    .row1 fun _ _ _ h => h.execGazTableQuery,
    .row4 fun _ _ _ _ _ _ h => h.execGazLookup,
    .row4 fun _ _ _ _ _ _ h => h.execGazLegendCheck,
    List.forall_mem_nil _⟩

theorem rows08_ok : ∀ r ∈ rows08, r.Ok := by
  simp only [rows08, List.forall_mem_cons]
  exact ⟨fun _ => .bind fun _ => .bind fun _ => .bind fun _ => .bind fun _ => .bind fun _ => .bind fun _ => .pure fun _ h => h.execShtSheetSet,
    .row3 fun _ _ _ _ _ h => h.execShtExport,
    fun _ => .bind fun _ => .bind fun _ => .bind fun _ => .bind fun _ => .bind fun _ => .pure fun _ h => h.execShtWindowSet,
    .row1 fun _ _ _ h => h.execShtJobTeardown,
    fun _ => .bind fun _ => .bind fun _ => .pure fun _ h => h.execShtStatus,
    List.forall_mem_nil _⟩

theorem rows09_ok : ∀ r ∈ rows09, r.Ok := by
  simp only [rows09, List.forall_mem_cons]
  exact ⟨fun _ => .bind fun _ => .pure fun _ h => h.execStkRegionSet,
    fun _ => .bind fun _ => .bind fun _ => .pure fun _ h => h.execStkRegionClear,
    fun _ => .bind fun _ => .pure fun _ h => h.execStkRegionQuery,
    .row2 fun _ _ _ _ h => h.execStkRetrainCfg,
    .row4 fun _ _ _ _ _ _ h => h.execStkPolicySet,
    .row3 fun _ _ _ _ _ h => h.execStkRepairLog,
    fun _ => .bind fun _ => .bind fun _ => .bind fun _ => .bind fun _ => .bind fun _ => .bind fun _ => .pure fun _ h => h.execFarWindowSet,
    .row1 fun _ _ _ h => h.execFarIdentity,
    fun _ => .bind fun _ => .bind fun _ => .bind fun _ => .pure fun _ h => h.execFarPortCtrl,
    List.forall_mem_nil _⟩

theorem rows0A_ok : ∀ r ∈ rows0A, r.Ok := by
  simp only [rows0A, List.forall_mem_cons]
  refine ⟨fun _ => .bind fun _ => .bind fun _ => .bind fun _ => .bind fun _ => ?_,
    .row1 fun _ _ _ h => h.execMerFree,
    fun _ => .bind fun _ => .bind fun _ => .bind fun _ => .bind fun _ => .pure fun _ h => h.execMerSet,
    fun _ => .bind fun _ => .bind fun _ => .pure fun _ h => h.execMerSignal,
    .row1 fun _ _ _ h => h.execMerRead,
    fun _ => .bind fun _ => .bind fun _ => .pure fun _ h => h.execMerDlCfg,
    .row2 fun _ _ _ _ h => h.execMerDlSnapshot,
    List.forall_mem_nil _⟩
  split
  · exact .pure fun _ h => h.execMerAlloc
  · exact .pure fun _ h => h.execMerAlloc
  · exact .pure fun _ h => h.execMerAlloc
  · exact .failure

theorem rows0B_ok : ∀ r ∈ rows0B, r.Ok := by
  simp only [rows0B, List.forall_mem_cons]
  exact ⟨.row1 fun _ _ _ h => h.execFwStageBegin,
    .row3 fun _ _ _ _ _ h => h.execFwStageWrite,
    .row0 fun _ _ h => h.execFwStageVerify,
    .row0 fun _ _ h => h.execFwActivate,
    .row0 fun _ _ h => h.execFwQuery,
    .row1 fun _ _ _ h => h.execFwSvnCommit,
    .row0 fun _ _ h => h.execSettingsSave,
    .row0 fun _ _ h => h.execSettingsClear,
    fun _ => .bind fun _ => .bind fun _ => .pure fun _ h => h.execAttest,
    .row2 fun _ _ _ _ h => h.execConfigExport,
    .row3 fun _ _ _ _ _ h => h.execItinExport,
    .row1 fun _ _ _ h => h.execItinExportAck,
    .row0 fun _ _ h => h.execItinCheckpoint,
    .row2 fun _ _ _ _ h => h.execItinCkptRead,
    fun _ => .bind fun _ => .pure fun _ h => h.execFencePort,
    fun _ => .bind fun _ => .pure fun _ h => h.execUnfencePort,
    .row2 fun _ _ _ _ h => h.execIsolatePeer,
    .row2 fun _ _ _ _ h => h.execReleasePeer,
    .row1 fun _ _ _ h => h.execJobTeardown,
    .row3 fun _ _ _ _ _ h => h.execFaultLogRead,
    fun _ => .bind fun _ => .ite (.bind fun _ => .bind fun _ => .pure fun _ h => h.execAtlPower) (.bind fun _ => .bind fun _ => .pure fun _ h =>
      h.execAtlPower),
    .row1 fun _ _ _ h => h.execPwrQuery,
    fun _ => .bind fun _ => .pure fun _ h => h.execPwrReset,
    .row0 fun _ _ h => h.execPwrOff,
    List.forall_mem_nil _⟩

theorem rows0F_ok {free} : ∀ r ∈ rows0F free, r.Ok := by
  simp only [rows0F, List.forall_mem_cons]
  exact ⟨.rowTiles fun _ _ _ h => h.execTileTest,
    .row2 fun _ _ _ _ h => h.execFaultMapRead,
    fun _ => .bind fun _ => .bind fun _ => .pure fun _ h => h.execAtlSoundCfg,
    .row1 fun _ _ _ h => h.execAtlBankQuery,
    fun _ => .bind fun _ => .pure fun _ h => h.execStkBringupSelect,
    fun _ => .bind fun _ => .bind fun _ => .bind fun _ => .pure fun _ h => h.execStkMargin,
    fun _ => .bind fun _ => .bind fun _ => .bind fun _ => .bind fun _ => .ite .failure (.pure fun _ h => h.execStkRepairAccess),
    List.forall_mem_nil _⟩

theorem kciRows_ok {free} : ∀ r ∈ kciRows free, r.Ok := by
  simp only [kciRows, List.forall_mem_append]
  exact ⟨⟨⟨⟨⟨⟨⟨⟨⟨⟨⟨rows01_ok, rows02_ok⟩, rows03_ok⟩, rows04_ok⟩, rows05_ok⟩, rows06_ok⟩, rows07_ok⟩, rows08_ok⟩, rows09_ok⟩, rows0A_ok⟩, rows0B_ok⟩,
    rows0F_ok⟩

theorem kciRow_ok {free op r} (hr : kciRow free op = some r) : r.Ok := kciRows_ok r (List.mem_of_find?_eq_some hr)

theorem kciDecode_ok {free op m k f ops} (hd : kciDecode free op m k = some (f, ops)) : Run.Ok f := by
  simp only [kciDecode, Option.bind_eq_bind, Option.bind_eq_some_iff] at hd
  obtain ⟨r, hr, ws, -, p, hp, hd⟩ := hd
  split at hd
  · cases hd
    exact kciRow_ok hr _ _ _ _ _ hp
  · cases hd

theorem State.Ok.takeDescriptor {src m d u} (h : s.Ok) (hu : s.takeDescriptor src = some (m, d, u)) : u.Ok := by
  unfold State.takeDescriptor at hu
  split at hu
  · split at hu
    · cases hu
    · cases hu
      exact h.withCmp rfl rfl
  · extract_lets at hu
    split at hu
    · cases hu
      exact h.setFn
    · split at hu
      · cases hu
        exact h.setFn
      · cases hu

theorem State.Ok.nextDescriptor {i m d u} (h : s.Ok) : ∀ {n}, s.nextDescriptor n = some (i, m, d, u) → u.Ok
  | 0, hu => by cases hu
  | n + 1, hu => by
    unfold State.nextDescriptor at hu
    extract_lets at hu
    split at hu
    · rename_i ht
      simp only [Option.some.injEq, Prod.mk.injEq] at hu
      obtain ⟨-, -, -, rfl⟩ := hu
      exact h.takeDescriptor ht
    · exact nextDescriptor h hu

theorem State.Ok.commandAccept (h : s.Ok) : s.commandAccept.Ok := by
  unfold State.commandAccept
  refine h.ite ?_
  split
  · exact h
  · rename_i hu
    have h1 := h.nextDescriptor hu
    exact .setInflight (h1.withCmp rfl rfl)

theorem State.Ok.execCommandAccept (h : s.Ok) : NextOk (execCommandAccept s) := .next h.commandAccept

theorem State.Ok.after {f : Run} (h : s.Ok) (hf : Run.Ok f) : (s.after f).Ok := by
  unfold State.after
  split
  · rename_i hu
    exact hf s h _ hu
  · exact h

theorem State.Ok.runRecord {r} (h : s.Ok) : (s.runRecord r).Ok := by
  unfold State.runRecord
  extract_lets
  refine h.ite ?_
  split
  · rename_i hd
    exact .withFree (.setInflight (h.after (kciDecode_ok hd)))
  · exact h.ite h.setInflight

theorem State.Ok.runAccepted (h : s.Ok) : s.runAccepted.Ok := h.ite (h.foldl fun _ _ h => h.runRecord)

theorem State.Ok.applyEntry (h : s.Ok) : s.applyEntry.Ok := by
  unfold State.applyEntry
  refine h.ite ?_
  split
  · extract_lets _ _ s1 _
    have h1 : s1.Ok := h.withCmp rfl rfl
    clear_value s1
    split
    · rename_i hr _
      extract_lets
      split
      · rename_i hf
        have h2 := h1.after (kciRow_ok hr _ _ _ _ _ hf)
        exact h.ite h2.setInflight
      · exact h1
    · exact h1
  · exact h

/-! ### Completion.lean -/

theorem Tile.Ok.putRecord {q} (hx : x.Ok) : (x.putRecord q).Ok := by
  unfold Tile.putRecord
  refine .ite ?_ hx
  split
  · rename_i hu
    exact hx.store hu
  · rename_i hu
    exact hx.storeError hu

theorem State.Ok.complete {t e} (h : s.Ok) : (s.complete t e).Ok := by
  dsimp only [State.complete]
  split
  · exact h
  · refine h.ite (.ite (.setTile h ?_) (.ite (.tileSignal (.setTile h ?_)) (.setTile h ?_))) <;>
      exact .ite h.tile.putRecord h.tile.putRecord

theorem State.Ok.execMatmulComplete {t} (h : s.Ok) : NextOk (execMatmulComplete t s) := .next h.complete

theorem State.Ok.execCopyComplete {t} (h : s.Ok) : NextOk (execCopyComplete t s) := .next h.complete

theorem State.Ok.execInstructionComplete {t engine} (h : s.Ok) : NextOk (execInstructionComplete t engine s) := .next (h.complete.ite h)

/-! ### Message.lean -/

theorem State.Ok.send {t} (h : s.Ok) : (s.send t).Ok := by
  unfold State.send
  extract_lets x1
  have hx1 : x1.Ok := h.tile
  clear_value x1
  split
  · extract_lets _ _ _ rd
    have hrd : EngM.Ok rd := .bind .engRead fun _ => .bindIte (.pure _) .engRead fun _ => .pure _
    have hr := hrd { x := x1 } hx1
    clear_value rd
    refine .ite ?_ h
    split
    · rename_i y hl
      rw [hl] at hr
      have hy : y.x.Ok := hr
      exact .toMesh (.engEnd h hy)
    · rename_i hl
      rw [hl] at hr
      exact h.engEnd hr
  · exact h

theorem State.Ok.execSend {t} (h : s.Ok) : NextOk (execSend t s) := .next h.send

theorem Tile.Ok.writeLines {h0} : ∀ {l k x}, Tile.Ok x → (x.writeLines h0 k l).Ok
  | [], _, _, hx => hx
  | _ :: _, _, _, hx => hx.overwrite.writeLines

theorem Tile.Ok.receive {m} (hx : x.Ok) : (x.receive m).Ok := hx.writeLines

theorem State.Ok.portWrite {t m} (h : s.Ok) : (s.portWrite t m).Ok :=
  .ite (h.keepTile rfl) (.ite (.stir (.setTile h (.receive h.tile))) (.setTile h (.receive h.tile)))

theorem State.Ok.portBlocked {t held m} (h : s.Ok) : (s.portBlocked t held m).Ok := h.ite (.drift (h.keepTile rfl))

theorem State.Ok.portTake {t m} (h : s.Ok) : (s.portTake t m).Ok := .ite (h.keepTile rfl) (.ite (.notify (h.keepTile rfl)) h.portWrite)

theorem State.Ok.messageReceive {t src srcGw} (h : s.Ok) : (s.messageReceive t src srcGw).Ok := by
  dsimp only [State.messageReceive]
  split
  · refine h.portWrite.ite ?_
    split
    · exact h.portBlocked
    · exact h
  · exact .portTake (h.withGrid rfl)
  · exact h

theorem State.Ok.execMessageReceive {t src srcGw} (h : s.Ok) : NextOk (execMessageReceive t src srcGw s) := .next h.messageReceive

theorem State.Ok.dispatchLost {t n entry w} (h : s.Ok) : (s.dispatchLost t n entry w).Ok := (h.setEcc h.tile).faultHalt

theorem State.Ok.messageDispatch {t} (h : s.Ok) : (s.messageDispatch t).Ok := by
  dsimp only [State.messageDispatch]
  refine h.ite ?_
  split
  · exact h
  · refine .ite (.notify (.setTile h (.release h.tile))) (h.ite ?_)
    split
    · exact h
    · split
      · rename_i hu
        exact .dispatchLost (.setTile h (h.tile.loadError hu))
      · rename_i hu
        exact .setTile h (.saveCtx (h.tile.load hu :))

theorem State.Ok.execMessageDispatch {t} (h : s.Ok) : NextOk (execMessageDispatch t s) := .next h.messageDispatch

/-! ### Registers.lean -/

theorem State.Ok.storeWindow {n off v} (h : s.Ok) : (s.storeWindow n off v).Ok := by
  unfold State.storeWindow
  extract_lets
  split
  · exact h.withMer
  · exact .ite h.setFn (.ite h.withCfl h.withCfl)
  · exact .ite h.setFn h.withGaz
  · exact h.withFab
  · exact h.withSht
  · refine h.withStk ?_
    split <;> rfl
  · exact h.withFar
  · refine h.withAtl ?_
    split <;> rfl
  · exact h.withPlt
  · exact h.withPwr

theorem State.Ok.storeCmp {f a v} (h : s.Ok) : (s.storeCmp f a v).Ok := by
  dsimp only [State.storeCmp]
  split
  · exact h.withCmp rfl rfl
  · exact h.withCmp rfl rfl
  · exact h.withCmp rfl rfl
  · exact h.withFlt
  · exact h.withFlt
  · exact h.withFlt
  · exact h.setFn

theorem State.Ok.storeCtr {p off v} (h : s.Ok) : (s.storeCtr p off v).Ok := by
  dsimp only [State.storeCtr]
  refine .ite h.withFab ?_
  split
  · exact h
  · exact h.onCtr

theorem State.Ok.storeTile {t off v} (h : s.Ok) : (s.storeTile t off v).Ok := h.onTile fun _ hx => hx.hostConfig.ite (.ite hx hx.writeReg)

theorem State.Ok.storePf {a v} (h : s.Ok) : (s.storePf a v).Ok := by
  dsimp only [State.storePf]
  refine h.storeCmp.ite (h.storeWindow.ite (.ite h.withFab (.ite ?_ (h.storeCtr.ite (h.setFn.ite h.storeTile)))))
  split
  · exact h
  · exact h.onSub

theorem State.Ok.typedWrite {a v} (h : s.Ok) : (s.typedWrite a v).Ok := h.ite (h.notify.ite h).storePf

theorem State.Ok.mboxWrite {f a v} (h : s.Ok) : (s.mboxWrite f a v).Ok := h.accessError.ite h.storeCmp

theorem State.Ok.fnWrite {f a base own v u} (h : s.Ok) (hu : s.fnWrite f a base own v = some u) : u.Ok := by
  simp only [State.fnWrite, ite_eq_iff, Option.some.injEq, reduceCtorEq, and_false, or_false] at hu
  obtain ⟨-, rfl⟩ | ⟨-, ⟨-, rfl⟩ | ⟨-, ⟨-, rfl⟩ | ⟨-, ⟨-, rfl⟩ | ⟨-, ⟨-, rfl⟩ | ⟨-, -, rfl⟩⟩⟩⟩⟩ := hu
  · exact h.cmdDoorbell
  · exact h.evtHeadWrite
  · exact h.mboxGo
  · exact h.mboxWrite
  · exact h.merCapture
  · exact h.dmaqDoorbell

theorem State.Ok.writePf {a v} (h : s.Ok) : (s.writePf a v).Ok := by
  unfold State.writePf
  extract_lets
  split
  · rename_i hu
    exact h.fnWrite hu
  · refine h.srReseed.ite (.ite (h.tileCtrl.ite (.ite ?threshold ?rest)) h.typedWrite)
    case threshold => exact h.onTile fun _ hx => hx.writeReg
    case rest => exact h.gazHostWrite.ite (h.accessError.ite h.typedWrite)

theorem State.Ok.writeVf {f a v} (h : s.Ok) : (s.writeVf f a v).Ok := by
  unfold State.writeVf
  split
  · rename_i hu
    exact h.fnWrite hu
  · exact h.setFn.ite (h.setFn.ite (h.setFn.ite h.accessError))

theorem State.Ok.msixHalf {f a write} (h : s.Ok) : (s.msixHalf f a write).Ok := h.emit.ite (h.ite (.setFn h.withFree))

theorem State.Ok.badAccess {f a write} (h : s.Ok) : (s.badAccess f a write).Ok := h.accessError.ite h.accessError.emit

theorem State.Ok.execRegisterWrite {f a v} (h : s.Ok) : NextOk (execRegisterWrite f a v s) :=
  .next (h.ite (h.badAccess.ite (h.writePf.ite h.writeVf)))

theorem State.Ok.execRegisterBadAccess {f a width write} (h : s.Ok) : NextOk (execRegisterBadAccess f a width write s) :=
  .next (h.ite ((h.ite h.emit).ite (h.msixHalf.ite h.badAccess)))

/-! ### Dispatch.lean -/

/-- Every command keeps the canonical form: one case per arm of `exec`. -/
theorem State.Ok.exec (h : s.Ok) : ∀ {i}, NextOk (exec i s)
  | .nop .. => h.execNop
  | .end_ .. => h.execEnd
  | .yield .. => h.execYield
  | .rxrel .. => h.execRxrel
  | .trap .. => h.execTrap
  | .add .. => h.execAdd
  | .sub .. => h.execSub
  | .and .. => h.execAnd
  | .or .. => h.execOr
  | .xor .. => h.execXor
  | .shl .. => h.execShl
  | .shr .. => h.execShr
  | .sar .. => h.execSar
  | .mul .. => h.execMul
  | .min .. => h.execMin
  | .max .. => h.execMax
  | .slt .. => h.execSlt
  | .sltu .. => h.execSltu
  | .addi .. => h.execAddi
  | .andi .. => h.execAndi
  | .ori .. => h.execOri
  | .xori .. => h.execXori
  | .shli .. => h.execShli
  | .shri .. => h.execShri
  | .sari .. => h.execSari
  | .li .. => h.execLi
  | .lui .. => h.execLui
  | .ld .. => h.execLd
  | .st .. => h.execSt
  | .ldw .. => h.execLdw
  | .stw .. => h.execStw
  | .br .. => h.execBr
  | .jmp .. => h.execJmp
  | .jr .. => h.execJr
  | .call .. => h.execCall
  | .dbnz .. => h.execDbnz
  | .loop .. => h.execLoop
  | .lidx .. => h.execLidx
  | .rdreg .. => h.execRdreg
  | .wrreg .. => h.execWrreg
  | .qfree .. => h.execQfree
  | .defrgn .. => h.execDefrgn
  | .fence .. => h.execFence
  | .programBoundarySwap .. => h.execProgramBoundarySwap
  | .tens .. => h.execTens
  | .vec .. => h.execVec
  | .move .. => h.execMove
  | .msg .. => h.execMsg
  | .sprs .. => h.execSprs
  | .msignal .. => h.execMsignal
  | .mwait .. => h.execMwait
  | .mwaitto .. => h.execMwaitto
  | .mread .. => h.execMread
  | .strandSwitch .. => h.execStrandSwitch
  | .strandWake .. => h.execStrandWake
  | .matmul .. => h.execMatmul
  | .promoteDecision .. => h.execPromoteDecision
  | .matmulComplete .. => h.execMatmulComplete
  | .vecAdd .. => h.execVecAdd
  | .vecSub .. => h.execVecSub
  | .vecMul .. => h.execVecMul
  | .vecFma .. => h.execVecFma
  | .vecMin .. => h.execVecMin
  | .vecMax .. => h.execVecMax
  | .vecAbs .. => h.execVecAbs
  | .vecExp2 .. => h.execVecExp2
  | .vecLog2 .. => h.execVecLog2
  | .vecRecip .. => h.execVecRecip
  | .vecRsqrt .. => h.execVecRsqrt
  | .vecSigmoid .. => h.execVecSigmoid
  | .vecTanh .. => h.execVecTanh
  | .vecRsum .. => h.execVecRsum
  | .vecRmax .. => h.execVecRmax
  | .vecRmin .. => h.execVecRmin
  | .vecCvt .. => h.execVecCvt
  | .vecIadd .. => h.execVecIadd
  | .vecIsub .. => h.execVecIsub
  | .vecImul .. => h.execVecImul
  | .vecImin .. => h.execVecImin
  | .vecImax .. => h.execVecImax
  | .vecIand .. => h.execVecIand
  | .vecIor .. => h.execVecIor
  | .vecIxor .. => h.execVecIxor
  | .copy .. => h.execCopy
  | .copyComplete .. => h.execCopyComplete
  | .send .. => h.execSend
  | .spmm .. => h.execSpmm
  | .predict .. => h.execPredict
  | .instructionComplete .. => h.execInstructionComplete
  | .messageReceive .. => h.execMessageReceive
  | .messageDispatch .. => h.execMessageDispatch
  | .tileCtrlReset .. => h.execTileCtrlReset
  | .tileCtrlHalt .. => h.execTileCtrlHalt
  | .tileCtrlResume .. => h.execTileCtrlResume
  | .tileCtrlStart .. => h.execTileCtrlStart
  | .tileResetDone .. => h.execTileResetDone
  | .srReseed .. => h.execSrReseed
  | .tileReset .. => h.execTileReset
  | .tileStart .. => h.execTileStart
  | .tileHalt .. => h.execTileHalt
  | .tileResume .. => h.execTileResume
  | .tileStatus .. => h.execTileStatus
  | .columnShift .. => h.execColumnShift
  | .vtabRead .. => h.execVtabRead
  | .imemLoad .. => h.execImemLoad
  | .imemSwap .. => h.execImemSwap
  | .imemRead .. => h.execImemRead
  | .scratchWrite .. => h.execScratchWrite
  | .scratchRead .. => h.execScratchRead
  | .datumSet .. => h.execDatumSet
  | .datumSyncCal .. => h.execDatumSyncCal
  | .calPulseEmit .. => h.execCalPulseEmit
  | .syncCalTimeout .. => h.execSyncCalTimeout
  | .datumStart .. => h.execDatumStart
  | .startPulseEmit .. => h.execStartPulseEmit
  | .syncPulse .. => h.execSyncPulse
  | .timebaseZero .. => h.execTimebaseZero
  | .datumStartTimeout .. => h.execDatumStartTimeout
  | .checkPulseEmit .. => h.execCheckPulseEmit
  | .checkPulseMissing .. => h.execCheckPulseMissing
  | .datumStartAt .. => h.execDatumStartAt
  | .datumStartAtFire .. => h.execDatumStartAtFire
  | .driftSnapshot .. => h.execDriftSnapshot
  | .paddedCompletion .. => h.execPaddedCompletion
  | .schedRefresh .. => h.execSchedRefresh
  | .schedRetrain .. => h.execSchedRetrain
  | .merHomeApply .. => h.execMerHomeApply
  | .merRelease .. => h.execMerRelease
  | .merSamplePoint .. => h.execMerSamplePoint
  | .mwaittoExpiry .. => h.execMwaittoExpiry
  | .deadlockDetect .. => h.execDeadlockDetect
  | .merDbgCapture .. => h.execMerDbgCapture
  | .merDbgCaptureDone .. => h.execMerDbgCaptureDone
  | .merAlloc .. => h.execMerAlloc
  | .merFree .. => h.execMerFree
  | .merSet .. => h.execMerSet
  | .merSignal .. => h.execMerSignal
  | .merRead .. => h.execMerRead
  | .merDlCfg .. => h.execMerDlCfg
  | .merDlSnapshot .. => h.execMerDlSnapshot
  | .cflGroupDefine .. => h.execCflGroupDefine
  | .cflGroupOpen .. => h.execCflGroupOpen
  | .cflGroupClose .. => h.execCflGroupClose
  | .cflGroupDelete .. => h.execCflGroupDelete
  | .cflSubmit .. => h.execCflSubmit
  | .cflAbort .. => h.execCflAbort
  | .cflGroupQuery .. => h.execCflGroupQuery
  | .cflDigest .. => h.execCflDigest
  | .cflTileSubmit .. => h.execCflTileSubmit
  | .collSubmitPacket .. => h.execCollSubmitPacket
  | .collectiveStart .. => h.execCollectiveStart
  | .cflBlockReceive .. => h.execCflBlockReceive
  | .cflCombine .. => h.execCflCombine
  | .cflCreditReceive .. => h.execCflCreditReceive
  | .digestUpReceive .. => h.execDigestUpReceive
  | .confirmReceive .. => h.execConfirmReceive
  | .scalarReceive .. => h.execScalarReceive
  | .cflAbortReceive .. => h.execCflAbortReceive
  | .cflProgTimeout .. => h.execCflProgTimeout
  | .gazRequest .. => h.execGazRequest
  | .gazRowComplete .. => h.execGazRowComplete
  | .gazReply .. => h.execGazReply
  | .gazTableDefine .. => h.execGazTableDefine
  | .gazTableDelete .. => h.execGazTableDelete
  | .gazTableQuery .. => h.execGazTableQuery
  | .gazLookup .. => h.execGazLookup
  | .gazLegendCheck .. => h.execGazLegendCheck
  | .gazSparseCtrlWrite .. => h.execGazSparseCtrlWrite
  | .gazPredThreshWrite .. => h.execGazPredThreshWrite
  | .portConfig .. => h.execPortConfig
  | .portLink .. => h.execPortLink
  | .portStatus .. => h.execPortStatus
  | .portPartner .. => h.execPortPartner
  | .portCmisRead .. => h.execPortCmisRead
  | .portSteerSet .. => h.execPortSteerSet
  | .portSteerRead .. => h.execPortSteerRead
  | .portConvSet .. => h.execPortConvSet
  | .brgSrReseed .. => h.execBrgSrReseed
  | .linkCtrlReceive .. => h.execLinkCtrlReceive
  | .linkIdReceive .. => h.execLinkIdReceive
  | .linkIdSend .. => h.execLinkIdSend
  | .identTimeout .. => h.execIdentTimeout
  | .sequencedUnitReceive .. => h.execSequencedUnitReceive
  | .alignmentLoss .. => h.execAlignmentLoss
  | .noGoodUnitTimeout .. => h.execNoGoodUnitTimeout
  | .trainingComplete .. => h.execTrainingComplete
  | .trainingTimeout .. => h.execTrainingTimeout
  | .downHoldoffExpiry .. => h.execDownHoldoffExpiry
  | .accelPacketIngress .. => h.execAccelPacketIngress
  | .e2eRtoExpiry .. => h.execE2eRtoExpiry
  | .e2ePacketReceive .. => h.execE2ePacketReceive
  | .e2eAckTimer .. => h.execE2eAckTimer
  | .sourceFlowRetire .. => h.execSourceFlowRetire
  | .ethFrameReceive .. => h.execEthFrameReceive
  | .pauseReceive .. => h.execPauseReceive
  | .spillRingMove .. => h.execSpillRingMove
  | .unpFrameInject .. => h.execUnpFrameInject
  | .ingressDeadlineShed .. => h.execIngressDeadlineShed
  | .portEgressRequest .. => h.execPortEgressRequest
  | .cmisPresence .. => h.execCmisPresence
  | .cmisPoll .. => h.execCmisPoll
  | .cmisInterrupt .. => h.execCmisInterrupt
  | .routeSetPrefix .. => h.execRouteSetPrefix
  | .routeSetPortset .. => h.execRouteSetPortset
  | .routeLocalSet .. => h.execRouteLocalSet
  | .aliasLoad .. => h.execAliasLoad
  | .aliasSwap .. => h.execAliasSwap
  | .mcastSet .. => h.execMcastSet
  | .reorderCfg .. => h.execReorderCfg
  | .trvQueueCfg .. => h.execTrvQueueCfg
  | .flowQuery .. => h.execFlowQuery
  | .routeQuery .. => h.execRouteQuery
  | .reorderArrival .. => h.execReorderArrival
  | .reorderTimeout .. => h.execReorderTimeout
  | .reorderCtxRetire .. => h.execReorderCtxRetire
  | .frameLaunch .. => h.execFrameLaunch
  | .cellRelease .. => h.execCellRelease
  | .spillReturn .. => h.execSpillReturn
  | .expressRingInject .. => h.execExpressRingInject
  | .expressRingDeliver .. => h.execExpressRingDeliver
  | .mcastCompletion .. => h.execMcastCompletion
  | .txUnitSelect .. => h.execTxUnitSelect
  | .shaperRefill .. => h.execShaperRefill
  | .gateEntryChange .. => h.execGateEntryChange
  | .gateListStart .. => h.execGateListStart
  | .egressDeadlineShed .. => h.execEgressDeadlineShed
  | .ctrClassCfg .. => h.execCtrClassCfg
  | .ctrShaperSet .. => h.execCtrShaperSet
  | .ctrGateSet .. => h.execCtrGateSet
  | .ctrGateRead .. => h.execCtrGateRead
  | .ctrStatus .. => h.execCtrStatus
  | .sheetRequest .. => h.execSheetRequest
  | .releaseStoreSend .. => h.execReleaseStoreSend
  | .sheetCombine .. => h.execSheetCombine
  | .sheetHomeReceive .. => h.execSheetHomeReceive
  | .sheetLineApply .. => h.execSheetLineApply
  | .sheetCompletionReceive .. => h.execSheetCompletionReceive
  | .sheetRtoExpiry .. => h.execSheetRtoExpiry
  | .shtSheetSet .. => h.execShtSheetSet
  | .shtExport .. => h.execShtExport
  | .shtWindowSet .. => h.execShtWindowSet
  | .shtJobTeardown .. => h.execShtJobTeardown
  | .shtStatus .. => h.execShtStatus
  | .memSlotServe .. => h.execMemSlotServe
  | .memoryResponse .. => h.execMemoryResponse
  | .remapCopy .. => h.execRemapCopy
  | .refresh .. => h.execRefresh
  | .periodicRetrain .. => h.execPeriodicRetrain
  | .errorRateRetrain .. => h.execErrorRateRetrain
  | .retrainEnd .. => h.execRetrainEnd
  | .adderWriteback .. => h.execAdderWriteback
  | .stkRegionSet .. => h.execStkRegionSet
  | .stkRegionClear .. => h.execStkRegionClear
  | .stkRegionQuery .. => h.execStkRegionQuery
  | .stkRetrainCfg .. => h.execStkRetrainCfg
  | .stkPolicySet .. => h.execStkPolicySet
  | .stkRepairLog .. => h.execStkRepairLog
  | .farWindowSet .. => h.execFarWindowSet
  | .farIdentity .. => h.execFarIdentity
  | .farPortCtrl .. => h.execFarPortCtrl
  | .stkBringupSelect .. => h.execStkBringupSelect
  | .stkMargin .. => h.execStkMargin
  | .stkRepairAccess .. => h.execStkRepairAccess
  | .farDevicePresent .. => h.execFarDevicePresent
  | .farReadyTimeout .. => h.execFarReadyTimeout
  | .farResponse .. => h.execFarResponse
  | .farLinkDown .. => h.execFarLinkDown
  | .soundingRegionStart .. => h.execSoundingRegionStart
  | .soundingPhase .. => h.execSoundingPhase
  | .secureWipeDone .. => h.execSecureWipeDone
  | .platAlloc .. => h.execPlatAlloc
  | .platAllocGrant .. => h.execPlatAllocGrant
  | .platFree .. => h.execPlatFree
  | .pltPoolSet .. => h.execPltPoolSet
  | .pltPoolQuery .. => h.execPltPoolQuery
  | .atlPower .. => h.execAtlPower
  | .atlPowerDone .. => h.execAtlPowerDone
  | .atlSoundCfg .. => h.execAtlSoundCfg
  | .atlBankQuery .. => h.execAtlBankQuery
  | .moduleIdentity .. => h.execModuleIdentity
  | .idmemRead .. => h.execIdmemRead
  | .kciRingsSet .. => h.execKciRingsSet
  | .partCreate .. => h.execPartCreate
  | .partAssign .. => h.execPartAssign
  | .partModeSet .. => h.execPartModeSet
  | .partStop .. => h.execPartStop
  | .partDestroy .. => h.execPartDestroy
  | .partQuery .. => h.execPartQuery
  | .dmaqSet .. => h.execDmaqSet
  | .mgmtPortSet .. => h.execMgmtPortSet
  | .mgmtKeySet .. => h.execMgmtKeySet
  | .ptpSet .. => h.execPtpSet
  | .timeQuery .. => h.execTimeQuery
  | .cmdDoorbell .. => h.execCmdDoorbell
  | .evtHeadWrite .. => h.execEvtHeadWrite
  | .mboxGo .. => h.execMboxGo
  | .dmaqDoorbell .. => h.execDmaqDoorbell
  | .commandAccept => h.execCommandAccept
  | .commandComplete .. => h.execCommandComplete
  | .msixDeferred .. => h.execMsixDeferred
  | .dmaqDescriptor .. => h.execDmaqDescriptor
  | .hostWriteRequest .. => h.execHostWriteRequest
  | .mgmtDatagram .. => h.execMgmtDatagram
  | .ptpMessageReceive .. => h.execPtpMessageReceive
  | .ptpSyncMissing .. => h.execPtpSyncMissing
  | .ptpHoldoverTimeout .. => h.execPtpHoldoverTimeout
  | .ptpSecondLatch .. => h.execPtpSecondLatch
  | .bmcRead .. => h.execBmcRead
  | .functionLevelReset .. => h.execFunctionLevelReset
  | .hostLinkDown => h.execHostLinkDown
  | .compassWatchdog .. => h.execCompassWatchdog
  | .compassReady .. => h.execCompassReady
  | .regionSurveyorRestart .. => h.execRegionSurveyorRestart
  | .quadrantSurveyorRestart .. => h.execQuadrantSurveyorRestart
  | .bridgeLaneFailure .. => h.execBridgeLaneFailure
  | .registerWrite .. => h.execRegisterWrite
  | .registerBadAccess .. => h.execRegisterBadAccess
  | .lcQuery .. => h.execLcQuery
  | .lcProvision .. => h.execLcProvision
  | .lcCertInstall .. => h.execLcCertInstall
  | .lcTransitionArm .. => h.execLcTransitionArm
  | .lcTransition .. => h.execLcTransition
  | .lcArmExpiry .. => h.execLcArmExpiry
  | .certRead .. => h.execCertRead
  | .tamperQuery .. => h.execTamperQuery
  | .tamperClear .. => h.execTamperClear
  | .tamperTrip .. => h.execTamperTrip
  | .fwStageBegin .. => h.execFwStageBegin
  | .fwStageWrite .. => h.execFwStageWrite
  | .fwStageVerify .. => h.execFwStageVerify
  | .fwActivate .. => h.execFwActivate
  | .fwQuery .. => h.execFwQuery
  | .fwSvnCommit .. => h.execFwSvnCommit
  | .settingsSave .. => h.execSettingsSave
  | .settingsClear .. => h.execSettingsClear
  | .mgmtFallback .. => h.execMgmtFallback
  | .attest .. => h.execAttest
  | .configExport .. => h.execConfigExport
  | .itinExport .. => h.execItinExport
  | .itinExportAck .. => h.execItinExportAck
  | .itinCheckpoint .. => h.execItinCheckpoint
  | .itinCkptRead .. => h.execItinCkptRead
  | .itinJournalWrite => h.execItinJournalWrite
  | .fencePort .. => h.execFencePort
  | .unfencePort .. => h.execUnfencePort
  | .isolatePeer .. => h.execIsolatePeer
  | .releasePeer .. => h.execReleasePeer
  | .jobTeardown .. => h.execJobTeardown
  | .faultLogRead .. => h.execFaultLogRead
  | .tileTest .. => h.execTileTest
  | .faultMapRead .. => h.execFaultMapRead
  | .pwrQuery .. => h.execPwrQuery
  | .pwrReset .. => h.execPwrReset
  | .pwrOff .. => h.execPwrOff
  | .vsbStart .. => h.execVsbStart
  | .pwrEnRise .. => h.execPwrEnRise
  | .pwrEnFall .. => h.execPwrEnFall
  | .railTimeout .. => h.execRailTimeout
  | .railExcursion .. => h.execRailExcursion
  | .inputExcursion .. => h.execInputExcursion
  | .resetNAssert .. => h.execResetNAssert
  | .coldResetEnd .. => h.execColdResetEnd
  | .sensorSample .. => h.execSensorSample
  | .stackTrained .. => h.execStackTrained
  | .surveyorRestartDone .. => h.execSurveyorRestartDone
  | .hostLinkUp .. => h.execHostLinkUp
  | .farPortReady .. => h.execFarPortReady
  | .bridgeRetry .. => h.execBridgeRetry
  | .stage2Slot .. => h.execStage2Slot
  | .merSignalAck .. => h.execMerSignalAck
  | .pauseTimerExpiry .. => h.execPauseTimerExpiry

/-! ### Tarpeth.lean -/

theorem State.Ok.illegal {t} (h : s.Ok) : (s.illegal t).Ok := h.seqRun fun _ _ => h

/-! ### Tick.lean -/

theorem State.Ok.issueAt {t} (h : s.Ok) : (s.issueAt t).Ok := by
  unfold State.issueAt
  extract_lets
  refine h.ite ?_
  split
  · exact h.illegal
  · exact h.after fun _ h => h.exec

theorem State.Ok.tick (h : s.Ok) : s.tick.Ok := by
  unfold State.tick
  extract_lets s1 s2 s3 s4 s5 s6 s7
  have h1 : s1.Ok := h.withNow
  have h2 : s2.Ok := h1.pwrSettle.coldDue.imemSettle.flrEnds
  have h3 : s3.Ok := h2.gazTick.aliasSettle
  have h4 : s4.Ok := h3.tellLost.ite h3
  have h5 : s5.Ok := h4.foldl fun _ _ h => h.countHolds
  have h6 : s6.Ok := h5.farAdvance.farAdvance.memReap.marginsDue.fwCopied
  have h7 : s7.Ok := h6.farServe.farServe.runAccepted.applyEntry.blockWatch
  exact h7.foldl fun _ _ h => h.issueAt

/-! ### Step.lean -/

/-- A step that answers a next state keeps the canonical form: a command at the front of the queue, or a core cycle. -/
theorem State.Ok.step (h : s.Ok) : NextOk (step s) := by
  unfold Machine.step
  split
  · exact .next h.tick
  · exact State.Ok.exec h.withPending

end

/-- Settles O60, by a lemma for each function of the model that answers a state, a tile or an outcome: it keeps `State.Ok`. -/
theorem keepsMemories : Obligations.KeepsMemories := fun _ u h hu => State.Ok.step h u hu

end Sys2Proof.Machine
end

section
namespace Sys2Proof.Machine

/-! ## Commands that wait for their turn (R471)

What one command does to partitions, tiles and queues ends other commands that are under way, and no command that still waits: the
one that runs is found among them when it ends, and is answered. -/

/-- From o to s no command in flight that waits for its turn is lost or changed. -/
def KeepsWaiting (o s : State) : Prop := ∀ r ∈ o.cmp.inflight, r.stage = .waiting → r ∈ s.cmp.inflight

section
variable {o s u : State}

theorem KeepsWaiting.refl (s : State) : KeepsWaiting s s := fun _ hr _ => hr

/-- A command that still waits is found in flight. -/
theorem KeepsWaiting.isFor {k : Kci} {opcode : Nat} (h : KeepsWaiting o s) (ho : o.cmp.inflight.any (fun r => r.isFor k opcode) = true) :
    s.cmp.inflight.any (fun r => r.isFor k opcode) = true := by
  obtain ⟨r, hr, hf⟩ := List.any_eq_true.1 ho
  have hw : r.stage = .waiting := by
    simp only [InFlight.isFor, Bool.and_eq_true, decide_eq_true_eq] at hf
    exact hf.2
  exact List.any_eq_true.2 ⟨r, h r hr hw, hf⟩

theorem KeepsWaiting.noted (h : KeepsWaiting o s) (hu : Noted s u) : KeepsWaiting o u := by
  unfold KeepsWaiting
  rw [hu.inflight]
  exact h

/-! ### Branches and folds -/

theorem KeepsWaiting.ite {c : Prop} [Decidable c] (h : KeepsWaiting o s) (h' : KeepsWaiting o u) : KeepsWaiting o (if c then s else u) := by
  split <;> assumption

theorem KeepsWaiting.iteSnd {α : Type} {c : Prop} [Decidable c] {x y : α × State} (h : KeepsWaiting o x.2) (h' : KeepsWaiting o y.2) :
    KeepsWaiting o (if c then x else y).2 := by
  split <;> assumption

theorem KeepsWaiting.iteSndSnd {α β : Type} {c : Prop} [Decidable c] {x y : α × β × State} (h : KeepsWaiting o x.2.2)
    (h' : KeepsWaiting o y.2.2) : KeepsWaiting o (if c then x else y).2.2 := by
  split <;> assumption

theorem KeepsWaiting.ofSnd {α : Type} {p : α × State} {a} (hp : p = (a, u)) (h : KeepsWaiting o p.2) : KeepsWaiting o u := by
  subst hp
  exact h

theorem KeepsWaiting.ofSndSnd {α β : Type} {p : α × β × State} {a b} (hp : p = (a, b, u)) (h : KeepsWaiting o p.2.2) : KeepsWaiting o u := by
  subst hp
  exact h

theorem KeepsWaiting.foldl {α : Type} {f : State → α → State} {l : List α} (h : KeepsWaiting o s)
    (hf : ∀ s a, KeepsWaiting o s → KeepsWaiting o (f s a)) : KeepsWaiting o (l.foldl f s) :=
  List.foldlRecOn l f h fun s hs a _ => hf s a hs

theorem KeepsWaiting.foldlSnd {α β : Type} {f : β × State → α → β × State} {l : List α} {b : β × State} (h : KeepsWaiting o b.2)
    (hf : ∀ b a, KeepsWaiting o b.2 → KeepsWaiting o (f b a).2) : KeepsWaiting o (l.foldl f b).2 :=
  List.foldlRecOn l f (motive := fun b => KeepsWaiting o b.2) h fun b hb a _ => hf b a hb

theorem KeepsWaiting.foldlSndSnd {α β γ : Type} {f : β × γ × State → α → β × γ × State} {l : List α} {b : β × γ × State}
    (h : KeepsWaiting o b.2.2) (hf : ∀ b a, KeepsWaiting o b.2.2 → KeepsWaiting o (f b a).2.2) : KeepsWaiting o (l.foldl f b).2.2 :=
  List.foldlRecOn l f (motive := fun b => KeepsWaiting o b.2.2) h fun b hb a _ => hf b a hb

/-! ### Record updates -/

theorem KeepsWaiting.withFree {a} (h : KeepsWaiting o s) : KeepsWaiting o { s with free := a } := h

theorem KeepsWaiting.withGrid {a} (h : KeepsWaiting o s) : KeepsWaiting o { s with grid := a } := h

theorem KeepsWaiting.withHost {a} (h : KeepsWaiting o s) : KeepsWaiting o { s with host := a } := h

theorem KeepsWaiting.withMer {a} (h : KeepsWaiting o s) : KeepsWaiting o { s with mer := a } := h

theorem KeepsWaiting.withStk {a} (h : KeepsWaiting o s) : KeepsWaiting o { s with stk := a } := h

theorem KeepsWaiting.withFar {a} (h : KeepsWaiting o s) : KeepsWaiting o { s with far := a } := h

theorem KeepsWaiting.withPlt {a} (h : KeepsWaiting o s) : KeepsWaiting o { s with plt := a } := h

theorem KeepsWaiting.withGaz {a} (h : KeepsWaiting o s) : KeepsWaiting o { s with gaz := a } := h

theorem KeepsWaiting.withCfl {a} (h : KeepsWaiting o s) : KeepsWaiting o { s with cfl := a } := h

theorem KeepsWaiting.withFab {a} (h : KeepsWaiting o s) : KeepsWaiting o { s with fab := a } := h

theorem KeepsWaiting.withSht {a} (h : KeepsWaiting o s) : KeepsWaiting o { s with sht := a } := h

theorem KeepsWaiting.withAtl {a} (h : KeepsWaiting o s) : KeepsWaiting o { s with atl := a } := h

theorem KeepsWaiting.withOut {a} (h : KeepsWaiting o s) : KeepsWaiting o { s with out := a } := h

theorem KeepsWaiting.withW1c {a} (h : KeepsWaiting o s) : KeepsWaiting o { s with w1c := a } := h

theorem KeepsWaiting.withCmp {a} (h : KeepsWaiting o s) (ha : a.inflight = s.cmp.inflight) : KeepsWaiting o { s with cmp := a } := by
  unfold KeepsWaiting
  rw [ha]
  exact h

/-! ### Notices, records, commands under way -/

theorem KeepsWaiting.notify {n st part subject detail g addr job} (h : KeepsWaiting o s) :
    KeepsWaiting o (s.notify n st part subject detail g addr job) := h.noted (notify_noted ..)

theorem KeepsWaiting.notifyRecorded {n st part subject detail g addr} (h : KeepsWaiting o s) :
    KeepsWaiting o (s.notifyRecorded n st part subject detail g addr) := h.noted (notifyRecorded_noted ..)

theorem KeepsWaiting.itinEvent {code part st b l} (h : KeepsWaiting o s) : KeepsWaiting o (s.itinEvent code part st b l) :=
  h.noted (itinEvent_noted ..)

theorem KeepsWaiting.drift {k ps} (h : KeepsWaiting o s) : KeepsWaiting o (s.drift k ps) := h.noted (drift_noted ..)

/-- Items come off commands that run, never off one that waits (R470). -/
theorem KeepsWaiting.progress {opcode key st result} (h : KeepsWaiting o s) : KeepsWaiting o (s.progress opcode key st result) := by
  intro r hr hw
  exact List.mem_map.2 ⟨r, h r hr hw, by rw [hw]⟩

/-! ### Plat pools -/

theorem KeepsWaiting.putPool {d p x} (h : KeepsWaiting o s) : KeepsWaiting o (s.putPool d p x) := by
  unfold State.putPool
  extract_lets _ s1 _ s2
  have h1 : KeepsWaiting o s1 := h.withPlt
  have h2 : KeepsWaiting o s2 := .ite (.notify (.withW1c (.withPlt h1))) h1
  exact h2.notify.ite h2

theorem KeepsWaiting.platTake {d p w i} (h : KeepsWaiting o s) (hu : s.platTake d p w = some (i, u)) : KeepsWaiting o u := by
  dsimp only [State.platTake] at hu
  split at hu
  · obtain ⟨r, -, hr⟩ := Option.map_eq_some_iff.1 hu
    obtain ⟨-, rfl⟩ := Prod.mk.inj hr
    exact h.putPool
  · cases hu

theorem KeepsWaiting.platHold {d p w} (h : KeepsWaiting o s) : KeepsWaiting o (s.platHold d p w) := .ite (.drift (.withW1c h.withPlt)) h

theorem KeepsWaiting.platFree {d p q i} (h : KeepsWaiting o s) : KeepsWaiting o (s.platFree d p q i).2 := by
  dsimp only [State.platFree]
  exact .iteSnd h (.iteSnd (.notify (.withW1c (.withW1c h.withPlt))) h.putPool)

theorem KeepsWaiting.platTakeN {d p w} : ∀ {n s is u}, KeepsWaiting o s → s.platTakeN d p w n = some (is, u) → KeepsWaiting o u
  | 0, s, _, _, h, hu => by
    obtain ⟨-, rfl⟩ := Prod.mk.inj (Option.some.inj hu)
    exact h
  | n + 1, s, _, _, h, hu => by
    unfold State.platTakeN at hu
    split at hu
    · cases hu
    · rename_i ht
      obtain ⟨r, hr, he⟩ := Option.map_eq_some_iff.1 hu
      obtain ⟨-, rfl⟩ := Prod.mk.inj he
      exact (h.platTake ht).platTakeN hr

/-! ### Stacked memory and the requests to it -/

theorem KeepsWaiting.retireBlock {r} (h : KeepsWaiting o s) : KeepsWaiting o (s.retireBlock r) := .notifyRecorded (.withW1c h.withStk)

theorem KeepsWaiting.repairRow {r} (h : KeepsWaiting o s) : KeepsWaiting o (s.repairRow r) := by
  dsimp only [State.repairRow]
  split
  · exact h.retireBlock
  · exact h.retireBlock.ite (.notifyRecorded (.withW1c (.withStk h.withStk.withStk)))

theorem KeepsWaiting.triggerRow {r} (h : KeepsWaiting o s) : KeepsWaiting o (s.triggerRow r) := h.withStk.ite h.withStk.withStk

theorem KeepsWaiting.maintain {q most} (h : KeepsWaiting o s) : KeepsWaiting o (s.maintain q most) := .withStk h.withFree

theorem KeepsWaiting.repairDue {q} (h : KeepsWaiting o s) : KeepsWaiting o (s.repairDue q) := h.withStk.foldl fun _ _ h => h.repairRow

theorem KeepsWaiting.repairSlot {q} (h : KeepsWaiting o s) : KeepsWaiting o (s.repairSlot q) := h.ite h.repairDue.maintain

theorem KeepsWaiting.countRow {r} (h : KeepsWaiting o s) : KeepsWaiting o (s.countRow r) := .ite (.triggerRow h.withStk) h.withStk

theorem KeepsWaiting.correctWord {w} (h : KeepsWaiting o s) :
    KeepsWaiting o (s.correctWord w) := .countRow (.ite (.withW1c h.withStk) (.withStk (.withW1c h.withStk)))

theorem KeepsWaiting.badWord {w} (h : KeepsWaiting o s) : KeepsWaiting o (s.badWord w) := .triggerRow (.notify (.withW1c (.withW1c h.withStk)))

theorem KeepsWaiting.checkWords {q bad soft} (h : KeepsWaiting o s) : KeepsWaiting o (s.checkWords q bad soft).2 :=
  ((h.foldl fun _ _ h => h.correctWord).foldl fun _ _ h => h.badWord).repairSlot

theorem KeepsWaiting.stkRead {q b off n} (h : KeepsWaiting o s) : KeepsWaiting o (s.stkRead q b off n).2.2 := by
  dsimp only [State.stkRead]
  split
  · exact h.checkWords
  · exact h

theorem KeepsWaiting.viewRead {owner a n} (h : KeepsWaiting o s) : KeepsWaiting o (s.viewRead owner a n).2.2 := by
  unfold State.viewRead
  split
  · exact h
  · refine .foldlSndSnd h fun _ _ h => ?_
    split
    · exact h.stkRead
    · exact h

theorem KeepsWaiting.reach {r} (h : KeepsWaiting o s) : KeepsWaiting o (s.reach r) := by
  dsimp only [State.reach]
  split
  · split
    · exact h.withStk.withStk.withStk.ite (h.withStk.withStk.ite h.withStk.withStk)
    · exact h.withStk.withStk
  · exact h.withStk.withStk

theorem KeepsWaiting.leave {id} (h : KeepsWaiting o s) : KeepsWaiting o (s.leave id) := by
  dsimp only [State.leave]
  split
  · exact h
  · split
    · refine .ite (.reach ?_) h
      split
      · exact h.platFree
      · exact h
    · exact h.reach

theorem KeepsWaiting.memCancel {p} (h : KeepsWaiting o s) : KeepsWaiting o (s.memCancel p) := by
  dsimp only [State.memCancel]
  refine (h.foldl fun _ _ h => ?_).withStk
  split
  · exact h.platFree
  · exact h

theorem KeepsWaiting.memTake {r} (h : KeepsWaiting o s) : KeepsWaiting o (s.memTake r) := by
  unfold State.memTake
  refine h.ite ?_
  split
  · rename_i hu
    exact (h.platTake hu).withStk
  · exact h

theorem KeepsWaiting.portStop {r} (h : KeepsWaiting o s) : KeepsWaiting o (s.portStop r) := .drift (.withW1c h.withPlt)

theorem KeepsWaiting.portWait {id} (h : KeepsWaiting o s) : KeepsWaiting o (s.portWait id) := by
  dsimp only [State.portWait]
  split
  · exact (h.drift.memTake.portStop.ite (h.drift.memTake.platHold.ite h.drift.memTake)).ite h
  · exact h

theorem KeepsWaiting.farLose {r} (h : KeepsWaiting o s) : KeepsWaiting o (s.farLose r) := by
  dsimp only [State.farLose]
  refine .withStk ?_
  split
  · exact .ite (.drift (.withW1c h.withFar)) (.withW1c h.withFar)
  · exact .withW1c h.withFar

theorem KeepsWaiting.memLost {r} (h : KeepsWaiting o s) : KeepsWaiting o (s.memLost r) := by
  dsimp only [State.memLost]
  split
  · exact .farLose h.withStk
  · exact .withStk h.withStk

theorem KeepsWaiting.farLeave {id} (h : KeepsWaiting o s) : KeepsWaiting o (s.farLeave id) := by
  unfold State.farLeave
  split
  · exact h
  · split
    · exact h.farLose.ite (h.withStk.withStk.ite h)
    · exact h

theorem KeepsWaiting.pinLeave {id} (h : KeepsWaiting o s) : KeepsWaiting o (s.pinLeave id) := by
  dsimp only [State.pinLeave]
  split
  · exact h
  · split
    · exact .ite h.withAtl.withW1c.withStk h.withStk
    · exact h

theorem KeepsWaiting.leaveOther {r} (h : KeepsWaiting o s) : KeepsWaiting o (s.leaveOther r) := by
  unfold State.leaveOther
  refine h.ite ?_
  split
  · exact h
  · exact h.farLeave
  · exact h.pinLeave

theorem KeepsWaiting.memSend {r} (h : KeepsWaiting o s) : KeepsWaiting o (s.memSend r) := by
  dsimp only [State.memSend]
  split
  · exact .portWait (.leave h.withStk)
  · exact .ite (.portStop h.withStk) (.leaveOther h.withStk)

theorem KeepsWaiting.spillMem {die port a n data} (h : KeepsWaiting o s) : KeepsWaiting o (s.spillMem die port a n data) :=
  h.foldl fun _ _ h => h.memSend

theorem KeepsWaiting.ringTouch {die write is} (h : KeepsWaiting o s) : KeepsWaiting o (s.ringTouch die write is) :=
  h.foldl fun _ _ h => h.foldl fun _ _ h => h.memSend

/-! ### Mesh, Meridian, Gazetteer -/

theorem KeepsWaiting.meshWaits {p} (h : KeepsWaiting o s) : KeepsWaiting o (s.meshWaits p) := (h.withFree.foldl fun _ _ h => h.drift).ite h

theorem KeepsWaiting.toMesh {m} (h : KeepsWaiting o s) : KeepsWaiting o (s.toMesh m) := .foldl h.withGrid fun _ _ h => h.meshWaits

theorem KeepsWaiting.merSend {x} (h : KeepsWaiting o s) : KeepsWaiting o (s.merSend x) := (h.foldl fun _ _ h => h.withMer).withMer

theorem KeepsWaiting.merTileReset {t} (h : KeepsWaiting o s) : KeepsWaiting o (s.merTileReset t) := h.withMer.foldl fun _ _ h => h.merSend

theorem KeepsWaiting.countGaz {i n} (h : KeepsWaiting o s) : KeepsWaiting o (s.countGaz i n) := h.withGaz.withW1c

theorem KeepsWaiting.gazRowIssue {r i row} (h : KeepsWaiting o s) : KeepsWaiting o (s.gazRowIssue r i row).2 := by
  dsimp only [State.gazRowIssue]
  split
  · exact h
  · split
    · exact h
    · split
      · exact h.countGaz.memLost
      · exact h.countGaz.foldl fun _ _ h => h.memSend

theorem KeepsWaiting.gazIssue : ∀ {n s r}, KeepsWaiting o s → KeepsWaiting o (State.gazIssue n s r).2
  | 0, _, _, h => h
  | n + 1, s, r, h => by
    dsimp only [State.gazIssue]
    split
    · exact h
    · exact (h.gazRowIssue.countGaz.ite h.gazRowIssue).gazIssue

theorem KeepsWaiting.gazAccept {r} (h : KeepsWaiting o s) : KeepsWaiting o (s.gazAccept r) := .withGaz (.iteSnd h.countGaz h.countGaz.gazIssue)

theorem KeepsWaiting.gazEnd {r} (h : KeepsWaiting o s) : KeepsWaiting o (s.gazEnd r) := by
  dsimp only [State.gazEnd]
  refine h.withGaz.foldl fun _ _ h => ?_
  split
  · exact h.withGaz.progress.progress.ite h
  · exact h

theorem KeepsWaiting.gazWait {die part} (h : KeepsWaiting o s) : KeepsWaiting o (s.gazWait die part) := h.drift.ite h

/-! ### The fabric -/

theorem KeepsWaiting.countSub {l i n} (h : KeepsWaiting o s) : KeepsWaiting o (s.countSub l i n) := h.withFab.withW1c

theorem KeepsWaiting.drop {l cause n} (h : KeepsWaiting o s) : KeepsWaiting o (s.drop l cause n) := h.ite h.countSub.withFab

theorem KeepsWaiting.creditBack {from_ vc n} (h : KeepsWaiting o s) : KeepsWaiting o (s.creditBack from_ vc n) := by
  unfold State.creditBack
  split
  · exact h.ite h.withFab
  · exact h

theorem KeepsWaiting.countTrv {d i n} (h : KeepsWaiting o s) : KeepsWaiting o (s.countTrv d i n) := h.withFab.withW1c

theorem KeepsWaiting.countWpt {i n} (h : KeepsWaiting o s) : KeepsWaiting o (s.countWpt i n) := h.withFab.withW1c

theorem KeepsWaiting.noteDead {die v dest} (h : KeepsWaiting o s) : KeepsWaiting o (s.noteDead die v dest) := h.ite h.withFab.notify

theorem KeepsWaiting.markDead {die v dest} (h : KeepsWaiting o s) : KeepsWaiting o (s.markDead die v dest) := h.withFab.noteDead

theorem KeepsWaiting.setStop {k} (h : KeepsWaiting o s) : KeepsWaiting o (s.setStop k) := h.ite h.withFab.countTrv

theorem KeepsWaiting.headroomCell {k part c} (h : KeepsWaiting o s) : KeepsWaiting o (s.headroomCell k part c) := by
  dsimp only [State.headroomCell]
  split
  · rename_i hu
    exact (h.setStop.platTake hu).withFab
  · exact h.setStop.withFab

theorem KeepsWaiting.chipCell {k part c} (h : KeepsWaiting o s) : KeepsWaiting o (s.chipCell k part c) := by
  dsimp only [State.chipCell]
  split
  · rename_i hu
    exact (h.platTake hu).withFab.setStop.ite (h.platTake hu).withFab
  · exact h.headroomCell

theorem KeepsWaiting.spillCell {k part c} (h : KeepsWaiting o s) : KeepsWaiting o (s.spillCell k part c) := by
  unfold State.spillCell
  extract_lets _ go
  have hgo : ∀ s, KeepsWaiting o s → KeepsWaiting o (go s) := by
    refine fun _ h => .ite (.setStop (.drift (.countTrv (.withFab (.withFab ?_))))) (.drift (.countTrv (.withFab (.withFab ?_))))
    · split
      · exact h.spillMem
      · exact h
    · split
      · exact h.spillMem
      · exact h
  refine (hgo _ h).ite (h.headroomCell.ite ?_)
  split
  · rename_i hu
    exact hgo _ (h.platTake hu).withFab.ringTouch
  · exact h.headroomCell

theorem KeepsWaiting.queueCell {l idx tgt lport} (h : KeepsWaiting o s) : KeepsWaiting o (s.queueCell l idx tgt lport) := by
  unfold State.queueCell
  extract_lets _ _ _ _ s1 _ s2 _ _ s3
  have h1 : KeepsWaiting o s1 := h.countTrv.ite h
  have h2 : KeepsWaiting o s2 := h1.drift.ite h1
  have h3 : KeepsWaiting o s3 := h2.withFab.ite h2
  exact h3.headroomCell.ite (h3.spillCell.ite h3.chipCell)

theorem KeepsWaiting.rxTake {l n} (h : KeepsWaiting o s) : KeepsWaiting o (s.rxTake l n).2 := by
  unfold State.rxTake
  split
  · rcases hu : s.platTakeN _ _ _ n with _ | ⟨is, u⟩
    · exact h
    · exact h.platTakeN hu
  · exact h

theorem KeepsWaiting.enqueue {l here} (h : KeepsWaiting o s) : KeepsWaiting o (s.enqueue l here) := h.rxTake.withFab

theorem KeepsWaiting.unrouted {e p} (h : KeepsWaiting o s) : KeepsWaiting o (s.unrouted e p) := h.countWpt.creditBack

theorem KeepsWaiting.admitTo {e p outs mcast} (h : KeepsWaiting o s) : KeepsWaiting o (s.admitTo e p outs mcast) := by
  unfold State.admitTo
  refine h.enqueue.ite ?_
  split
  · exact h
  · exact h.withFab.foldl fun _ _ h => h.withFab

theorem KeepsWaiting.forward {e p} {go : State → Packet → State} (h : KeepsWaiting o s)
    (hgo : ∀ s a1, KeepsWaiting o s → KeepsWaiting o (go s a1)) : KeepsWaiting o (s.forward e p go) := by
  dsimp only [State.forward]
  refine (hgo _ _ h).ite (.ite (.creditBack (.notify ?_)) (hgo _ _ h))
  split
  · exact h.drop
  · exact h

theorem KeepsWaiting.admitRaw {e p} (h : KeepsWaiting o s) : KeepsWaiting o (s.admitRaw e p) := by
  unfold State.admitRaw
  split
  · exact h.admitTo
  · split
    · exact h.unrouted
    · extract_lets _ _ go
      have hgo : ∀ s a1, KeepsWaiting o s → KeepsWaiting o (go s a1) := fun _ _ h => h.admitTo.withFab.ite h.admitTo
      exact h.unrouted.ite ((h.forward fun _ _ h => hgo _ _ h).ite (hgo _ _ h))
    · refine h.forward fun _ _ h => h.withFab.noteDead.unrouted.ite ?_
      split
      · exact h.markDead.unrouted
      · extract_lets _ s1
        have h1 : KeepsWaiting o s1 := by
          dsimp only [s1]
          split
          · exact h.withFab
          · exact h
        exact h1.admitTo
    · refine h.unrouted.ite ?_
      split
      · exact h.unrouted
      · exact h.admitTo

theorem KeepsWaiting.toAccel {lport p part} (h : KeepsWaiting o s) : KeepsWaiting o (s.toAccel lport p part) :=
  h.drop.ite (h.withFab.foldl fun _ _ h => h.queueCell)

theorem KeepsWaiting.flowSeq {src dest vc} (h : KeepsWaiting o s) : KeepsWaiting o (s.flowSeq src dest vc).2 := by
  dsimp only [State.flowSeq]
  split
  · exact h.withFab
  · exact h.withFab

/-! ### Confluence -/

theorem KeepsWaiting.countCfl {i n} (h : KeepsWaiting o s) : KeepsWaiting o (s.countCfl i n) := h.withCfl.withW1c

theorem KeepsWaiting.cflCtl {g dst head payload} (h : KeepsWaiting o s) : KeepsWaiting o (s.cflCtl g dst head payload) := h.admitRaw

theorem KeepsWaiting.cflFree {g rank buf} (h : KeepsWaiting o s) : KeepsWaiting o (s.cflFree g rank buf) := by
  unfold State.cflFree
  split
  · exact h
  · extract_lets _ s1
    have h1 : KeepsWaiting o s1 := h.platFree
    generalize hr : List.foldl _ _ _ = r
    have h2 : KeepsWaiting o r.2 := by
      rw [← hr]
      refine KeepsWaiting.foldlSnd h1 fun _ _ h => ?_
      split
      · rename_i hu
        exact (h.platTake hu).withCfl
      · exact h
    refine h2.ite ?_
    clear_value *
    split
    · exact h2.toAccel
    · exact h2.cflCtl

theorem KeepsWaiting.cflLaunch {g rank p} (h : KeepsWaiting o s) : KeepsWaiting o (s.cflLaunch g rank p) := h.flowSeq.admitRaw

theorem KeepsWaiting.cflDrain {g} : ∀ {n s k}, KeepsWaiting o s → KeepsWaiting o (State.cflDrain g n s k)
  | 0, _, _, h => h
  | n + 1, s, k, h => by
    unfold State.cflDrain
    split
    · exact h
    · exact .ite (h.ite h.withCfl.countCfl) h.withCfl.cflLaunch.cflFree.cflDrain

theorem KeepsWaiting.cflBlock {g r dst kind tree seg blk src payload buf} (h : KeepsWaiting o s) :
    KeepsWaiting o (s.cflBlock g r dst kind tree seg blk src payload buf) :=
  h.cflLaunch.cflFree.ite (h.withCfl.countCfl.ite h.withCfl).cflDrain

theorem KeepsWaiting.cflDrainAll {g rank} (h : KeepsWaiting o s) : KeepsWaiting o (s.cflDrainAll g rank) := h.foldl fun _ _ h => h.cflDrain

theorem KeepsWaiting.cflSend {g run what data a n part} (h : KeepsWaiting o s) : KeepsWaiting o (s.cflSend g run what data a n part).2 := by
  unfold State.cflSend
  split
  · exact h
  · exact (h.foldl fun _ _ h => h.memSend).withStk

theorem KeepsWaiting.memberRead {g rank a n} (h : KeepsWaiting o s) : KeepsWaiting o (s.memberRead g rank a n).2.2 := by
  unfold State.memberRead
  split
  · exact h
  · exact .iteSndSnd h h.viewRead
  · exact h

theorem KeepsWaiting.memberWrite {g r what a bs part} (h : KeepsWaiting o s) : KeepsWaiting o (s.memberWrite g r what a bs part).2 := by
  unfold State.memberWrite
  split
  · exact h.withHost
  · exact .iteSnd h h.cflSend
  · exact h.foldl fun _ _ h => h.toAccel
  · exact h

theorem KeepsWaiting.cflWrite {g r p bytes} (h : KeepsWaiting o s) : KeepsWaiting o (s.cflWrite g r p bytes).2 := by
  dsimp only [State.cflWrite]
  split
  · exact h
  · exact .memberWrite (.iteSnd h h.memberRead)

theorem KeepsWaiting.cflDeliver {g r st ws} (h : KeepsWaiting o s) : KeepsWaiting o (s.cflDeliver g r st ws) := by
  unfold State.cflDeliver
  extract_lets _ s1
  have h1 : KeepsWaiting o s1 := by
    dsimp only [s1]
    split
    · exact h.toAccel
    · exact h.memberWrite
  split
  · exact h1.progress
  · extract_lets s2
    have h2 : KeepsWaiting o s2 := h1.toMesh
    exact h2.merSend.ite h2
  · exact h1

theorem KeepsWaiting.cflScramble {g r} (h : KeepsWaiting o s) : KeepsWaiting o (s.cflScramble g r) := h.foldl fun _ _ h => .cflWrite h.withFree

theorem KeepsWaiting.cflFarSats {g r} (h : KeepsWaiting o s) : KeepsWaiting o (s.cflFarSats g r).2 := by
  dsimp only [State.cflFarSats]
  exact .iteSnd h.withFree h

theorem KeepsWaiting.cflAbortDone {g seq} (h : KeepsWaiting o s) : KeepsWaiting o (s.cflAbortDone g seq) := h.ite h.progress

theorem KeepsWaiting.cflEnd {g r st by_} (h : KeepsWaiting o s) : KeepsWaiting o (s.cflEnd g r st by_) := by
  unfold State.cflEnd
  extract_lets _ s1 _ _ _ s2 s3 s4 s5
  have h1 : KeepsWaiting o s1 := h.withCfl
  have h2 : KeepsWaiting o s2 := h1.withCfl
  have h3 : KeepsWaiting o s3 := h2.foldl fun _ _ h => h.cflFree
  have h4 : KeepsWaiting o s4 := h3.cflDrainAll
  have h5 : KeepsWaiting o s5 := h4.cflScramble.ite h4
  split
  · extract_lets s6
    have h6 : KeepsWaiting o s6 := by
      rename_i hu
      exact (KeepsWaiting.ofSnd hu h5.cflFarSats).cflDeliver
    split
    · exact h6.cflAbortDone
    · exact h6

theorem KeepsWaiting.cflAbort {g seq st by_ from_ raised here addr shown} (h : KeepsWaiting o s) :
    KeepsWaiting o (s.cflAbort g seq st by_ from_ raised here addr shown) := by
  unfold State.cflAbort
  extract_lets _ _ _ _ _ _ s1 s2 s3 _ s4 _ s5 s6
  have h1 : KeepsWaiting o s1 := h.countCfl.withCfl
  have h2 : KeepsWaiting o s2 := h1.withW1c
  have h3 : KeepsWaiting o s3 := h2.countCfl.ite h2
  have h4 : KeepsWaiting o s4 := h3.notify.itinEvent
  have h5 : KeepsWaiting o s5 := h4.foldl fun _ _ h => h.cflCtl
  have h6 : KeepsWaiting o s6 := h5.foldl fun _ _ h => h.cflEnd
  exact (h6.withCfl.ite h6.withCfl).ite h6

theorem KeepsWaiting.cflConfirm {g r} (h : KeepsWaiting o s) : KeepsWaiting o (s.cflConfirm g r) := h.withCfl.foldl fun _ _ h => h.cflCtl

theorem KeepsWaiting.cflRound {id} (h : KeepsWaiting o s) : KeepsWaiting o (s.cflRound id) := by
  dsimp only [State.cflRound]
  split
  · exact h
  · split
    · exact h
    · refine h.ite ?_
      split
      · exact h.withCfl.cflConfirm
      · exact h.withCfl.cflCtl

theorem KeepsWaiting.cflSat {r tree n} (h : KeepsWaiting o s) : KeepsWaiting o (s.cflSat r tree n) := h.withCfl.countCfl

theorem KeepsWaiting.cflCombine {id tree seg j p1} (h : KeepsWaiting o s) (hu : s.cflCombine id tree seg j p1 = some u) : KeepsWaiting o u := by
  unfold State.cflCombine at hu
  simp only [Option.bind_eq_bind, Option.bind_eq_some_iff] at hu
  obtain ⟨r, -, g, -, made, -, hu⟩ := hu
  split at hu
  · cases hu
    exact h.cflAbort
  · cases hu
    refine .cflDrainAll (.foldl ?_ fun _ _ h => h.cflFree)
    split
    · split
      · exact h.withCfl.cflCtl.ite h.withCfl.cflBlock
      · exact h.withCfl
    · exact h.withCfl.withCfl.cflSat
    · exact h.withCfl.withCfl.ite h.withCfl.cflBlock
    · exact h.withCfl.cflAbort

theorem KeepsWaiting.cflPass {g r x j} (h : KeepsWaiting o s) : KeepsWaiting o (s.cflPass g r x j) := by
  unfold State.cflPass
  extract_lets _ _ _ _ s1
  have h1 : KeepsWaiting o s1 := h.foldl fun _ _ h => h.foldl fun _ _ h => h.cflBlock
  refine h.ite ?_
  split
  · exact h.cflAbort
  · refine (h.foldl fun _ _ h => h.cflFree).ite ((h.foldl fun _ _ h => h.cflCtl).ite ?_)
    exact (h1.foldl fun _ _ h => h.cflFree).ite (h.foldl fun _ _ h => h.cflBlock)

theorem KeepsWaiting.cflForward {id} (h : KeepsWaiting o s) : KeepsWaiting o (s.cflForward id) := by
  dsimp only [State.cflForward]
  split
  · exact h
  · split
    · exact h
    · refine h.foldl fun _ _ h => ?_
      split
      · exact h
      · split
        · exact h
        · exact h.ite (h.withCfl.foldl fun _ _ h => h.cflPass)

theorem KeepsWaiting.cflStore {id} (h : KeepsWaiting o s) : KeepsWaiting o (s.cflStore id) := by
  unfold State.cflStore
  split
  · exact h
  · split
    · exact h
    · refine h.ite (h.foldl fun _ _ h => ?_)
      split
      · exact h
      · refine h.ite ?_
        split
        · exact h
        · exact (h.withCfl.cflWrite.ite h.withCfl.cflWrite.withCfl.cflAbort).ite h

theorem KeepsWaiting.cflFinish {id} (h : KeepsWaiting o s) : KeepsWaiting o (s.cflFinish id) := by
  unfold State.cflFinish
  split
  · exact h
  · split
    · exact h
    · exact h.cflEnd.ite h

theorem KeepsWaiting.cflScalar : ∀ {n s id}, KeepsWaiting o s → KeepsWaiting o (State.cflScalar n s id)
  | 0, _, _, h => h
  | n + 1, s, id, h => by
    unfold State.cflScalar
    split
    · exact h
    · refine h.ite ?_
      split
      · rename_i hu
        obtain ⟨_, _, hc⟩ := List.exists_of_findSome?_eq_some hu
        exact (h.cflCombine hc).cflScalar
      · exact h

theorem KeepsWaiting.cflStep {id} (h : KeepsWaiting o s) : KeepsWaiting o (s.cflStep id) := by
  dsimp only [State.cflStep]
  split
  · exact h.cflRound.cflScalar.cflForward.cflStore
  · refine .foldl ?_ fun _ _ h => h.cflFinish
    split
    · exact h.cflRound.cflScalar.cflForward.cflStore.cflDrainAll
    · exact h.cflRound.cflScalar.cflForward.cflStore

theorem KeepsWaiting.cflTake {g r p buf} (h : KeepsWaiting o s) : KeepsWaiting o (s.cflTake g r p buf) := by
  unfold State.cflTake
  extract_lets _ _ _ _ _ _ s1
  have h1 : KeepsWaiting o s1 := h.withCfl
  refine h1.cflFree.cflAbort.ite (h1.withCfl.ite (h1.cflConfirm.ite (.ite ?_ (.ite ?_ (h1.withCfl.cflFree.ite h1.withCfl)))))
  · split
    · exact h1.cflFree.cflAbort
    · exact h1.withCfl.cflFree
  · split
    · exact h1.withCfl.cflBlock
    · exact h1.withCfl

theorem KeepsWaiting.cflRows {q run} (h : KeepsWaiting o s) : KeepsWaiting o (s.cflRows q run) := by
  unfold State.cflRows
  split
  · exact h.gazEnd
  · split
    · exact h.gazEnd
    · split
      · exact h.gazEnd.cflAbort
      · exact h.withCfl.gazEnd.cflStep.ite h

theorem KeepsWaiting.cflPoolTaken {q run} (h : KeepsWaiting o s) : KeepsWaiting o (s.cflPoolTaken q run) := by
  dsimp only [State.cflPoolTaken]
  split
  · exact h
  · split
    · exact h
    · refine h.cflAbort.ite ?_
      split
      · exact h.gazAccept.cflRows
      · exact h.gazAccept

theorem KeepsWaiting.cflPool {g r} (h : KeepsWaiting o s) : KeepsWaiting o (s.cflPool g r) := h.withGaz.withGaz.gazWait.ite h.withGaz.cflPoolTaken

theorem KeepsWaiting.cflSource {g r} (h : KeepsWaiting o s) : KeepsWaiting o (s.cflSource g r).2.2 := by
  dsimp only [State.cflSource]
  refine .iteSndSnd h (.iteSndSnd ?device (.iteSndSnd ?pool ?host))
  case device => exact .iteSndSnd h.cflSend h.cflSend.cflSend
  case pool => exact .iteSndSnd h.memberRead h.memberRead.memberRead
  case host => exact .iteSndSnd h.memberRead h.memberRead.memberRead

theorem KeepsWaiting.cflAccelPool {id} (h : KeepsWaiting o s) : KeepsWaiting o (s.cflAccelPool id) := by
  dsimp only [State.cflAccelPool]
  split
  · exact h
  · split
    · exact h
    · exact h.cflPool.ite h

theorem KeepsWaiting.cflAudit {g r q} (h : KeepsWaiting o s) : KeepsWaiting o (s.cflAudit g r q) := h.itinEvent.ite h

theorem KeepsWaiting.cflEarly {g r q} (h : KeepsWaiting o s) : KeepsWaiting o (s.cflEarly g r q).1 := h.withCfl

theorem KeepsWaiting.cflDropEarly {g r q} (h : KeepsWaiting o s) : KeepsWaiting o (s.cflDropEarly g r q) := h.cflEarly.foldl fun _ _ h => h.cflFree

theorem KeepsWaiting.cflBegin {g r} (h : KeepsWaiting o s) : KeepsWaiting o (s.cflBegin g r) := by
  unfold State.cflBegin
  extract_lets q _ g' s1
  have h1 : KeepsWaiting o s1 := h.cflAudit.withCfl
  clear_value s1
  split
  rename_i fr s2 hu
  have h2 : KeepsWaiting o s2 := KeepsWaiting.ofSnd hu (.iteSnd h1.withFree h1)
  extract_lets r1 s3
  have h3 : KeepsWaiting o s3 := h2.withCfl
  clear_value s3
  split
  · exact (h3.withCfl.ite h3).cflDropEarly.cflEnd
  · refine h3.cflDropEarly.cflAbort.ite ?_
    split
    rename_i st r2 u hu
    extract_lets s4
    have h4 : KeepsWaiting o s4 := (KeepsWaiting.ofSndSnd hu h3.cflSource).withCfl
    clear_value s4
    refine h4.cflDropEarly.cflAbort.ite ?_
    split
    rename_i s5 mine hu
    extract_lets s6 s7
    have h5 := h4.cflEarly (g := g') (r := r2) (q := q)
    rw [hu] at h5
    have h6 : KeepsWaiting o s6 := h5.foldl fun _ _ h => by
      split
      · exact h.cflTake
      · exact h.cflFree
    have h7 : KeepsWaiting o s7 := by
      dsimp only [s7]
      split
      · exact h6.cflPool.ite h6
      · exact h6
    exact h7.cflAccelPool.cflStep

theorem KeepsWaiting.cflTileLost {t st} (h : KeepsWaiting o s) : KeepsWaiting o (s.cflTileLost t st) := by
  dsimp only [State.cflTileLost]
  refine h.foldl fun _ _ h => ?_
  split
  · split
    · exact h.cflAbort
    · exact h
  · exact h

theorem KeepsWaiting.cflHeldEnds {e st} (h : KeepsWaiting o s) : KeepsWaiting o (s.cflHeldEnds e st) := by
  dsimp only [State.cflHeldEnds]
  split
  · exact h.countCfl.withCfl.withW1c.notifyRecorded
  · exact h

theorem KeepsWaiting.cflHeldStart {es} : ∀ {n s}, KeepsWaiting o s → KeepsWaiting o (State.cflHeldStart es n s)
  | 0, _, h => h
  | n + 1, s, h => by
    unfold State.cflHeldStart
    split
    · exact h
    · split
      · exact h
      · exact h.cflBegin.cflHeldStart

theorem KeepsWaiting.cflEndOne {e st} (h : KeepsWaiting o s) : KeepsWaiting o (s.cflEndOne e st) := by
  dsimp only [State.cflEndOne]
  split
  · exact h
  · exact (h.ite h.cflAbort).cflHeldStart

theorem KeepsWaiting.cflEndAll {p st} (h : KeepsWaiting o s) : KeepsWaiting o (s.cflEndAll p st) := by
  dsimp only [State.cflEndAll]
  refine ((h.foldl fun _ _ h => h.cflEndOne).cflHeldStart.foldl fun _ _ h => h.cflHeldEnds).foldl fun _ _ h => ?_
  split
  · exact h.cflEnd
  · exact h

/-! ### Sheet, descriptor queues, tiles -/

theorem KeepsWaiting.shtReply {x w data} (h : KeepsWaiting o s) : KeepsWaiting o (s.shtReply x w data) := by
  unfold State.shtReply
  split
  · exact h.toMesh
  · exact h.toAccel

theorem KeepsWaiting.shtUnkeep {x} (h : KeepsWaiting o s) : KeepsWaiting o (s.shtUnkeep x) := by
  unfold State.shtUnkeep
  split
  · split
    · exact h.withFab
    · exact h
  · exact h

theorem KeepsWaiting.shtFinish {x st mark inter casFail data} (h : KeepsWaiting o s) : KeepsWaiting o (s.shtFinish x st mark inter casFail data) :=
  (h.withSht.withSht.ite h.withSht).shtUnkeep.shtReply

theorem KeepsWaiting.shtEnd {x st} (h : KeepsWaiting o s) : KeepsWaiting o (s.shtEnd x st) := h.shtFinish

theorem KeepsWaiting.rawMsix {f v} (h : KeepsWaiting o s) : KeepsWaiting o (s.rawMsix f v) := (h.withCmp rfl).withOut

theorem KeepsWaiting.setQueue {q x} (h : KeepsWaiting o s) : KeepsWaiting o (s.setQueue q x) := h.withCmp rfl

theorem KeepsWaiting.dmaRecord {x d st} (h : KeepsWaiting o s) : KeepsWaiting o (s.dmaRecord x d st) := by
  unfold State.dmaRecord
  extract_lets s1 s2
  have h1 : KeepsWaiting o s1 := h.ite h.withHost
  have h2 : KeepsWaiting o s2 := h1.merSend.ite h1
  exact h2.rawMsix.ite h2

theorem KeepsWaiting.dmaStop {q st p} (h : KeepsWaiting o s) : KeepsWaiting o (s.dmaStop q st p).2 := by
  dsimp only [State.dmaStop]
  exact .iteSnd h ((h.foldl fun _ _ h => h.dmaRecord).setQueue.memCancel.ite (h.foldl fun _ _ h => h.dmaRecord).setQueue)

theorem KeepsWaiting.dmaStopAll {qs st p} (h : KeepsWaiting o s) : KeepsWaiting o (s.dmaStopAll qs st p).2 := .foldlSnd h fun _ _ h => h.dmaStop

theorem KeepsWaiting.commandHalt {t} (h : KeepsWaiting o s) : KeepsWaiting o (s.commandHalt t) := .ite (.cflTileLost h.withGrid) h

theorem KeepsWaiting.powerOver {t} (h : KeepsWaiting o s) : KeepsWaiting o (s.powerOver t) := h.progress.ite h

theorem KeepsWaiting.tileReset {t clear} (h : KeepsWaiting o s) : KeepsWaiting o (s.tileReset t clear) := by
  unfold State.tileReset
  extract_lets _ s1 s2 _
  have h1 : KeepsWaiting o s1 := h.cflTileLost.ite h
  have h2 : KeepsWaiting o s2 := (h1.foldl fun _ _ h => h.withMer).merTileReset.powerOver
  exact h2.withGrid

theorem KeepsWaiting.partStop {p} (h : KeepsWaiting o s) : KeepsWaiting o (s.partStop p) :=
  (h.cflEndAll.foldl fun _ _ h => h.shtEnd).dmaStopAll.foldl fun _ _ h => h.commandHalt

end

end Sys2Proof.Machine
end

section
namespace Sys2Proof.Machine

/-! ## A free command of the KCI, rule by rule (R469 to R472)

A command whose way is free runs its body on the state with its record in flight; the checks of the body are passed one by one; what
the body leaves is left, but for Compass's records of commands and of settings. -/

/-! ### Checks -/

@[simp] theorem KRes.check_false (s : State) (st : Status) (l : List (Bool × Status)) (go : Unit → KRes) :
    KRes.check s ((false, st) :: l) go = KRes.check s l go := rfl

@[simp] theorem KRes.check_true (s : State) (st : Status) (l : List (Bool × Status)) (go : Unit → KRes) :
    KRes.check s ((true, st) :: l) go = .fail s st := rfl

/-- A body whose checks all pass goes on. -/
theorem KRes.check_pass (s : State) {checks : List (Bool × Status)} (go : Unit → KRes) (h : ∀ c ∈ checks, c.1 = false) :
    KRes.check s checks go = go () := by
  have hf : checks.find? (·.1) = none := List.find?_eq_none.2 fun c hc => by simp [h c hc]
  simp only [KRes.check, hf]

/-- A body one of whose checks fails turns its command away, with the status of a check. -/
theorem KRes.check_fail (s : State) {checks : List (Bool × Status)} (go : Unit → KRes) (h : ∃ c ∈ checks, c.1 = true) :
    ∃ c ∈ checks, KRes.check s checks go = .fail s c.2 := by
  obtain ⟨c, hc⟩ := Option.isSome_iff_exists.1 (List.find?_isSome.2 h)
  exact ⟨c, List.mem_of_find?_eq_some hc, by simp only [KRes.check, hc]⟩

/-- The PF's rights pass the check for them. -/
theorem Kci.denied_privileged {k : Kci} (h : k.src.privileged = true) : k.denied = (false, .accessDenied) := by simp [Kci.denied, h]

/-- A source with the PF's rights may name any partition. -/
theorem Kci.notOwn_privileged {k : Kci} (p : Nat) (h : k.src.privileged = true) : k.notOwn p = (false, .accessDenied) := by
  cases hs : k.src <;> simp_all [Kci.notOwn, Source.privileged]

/-- A source with the PF's rights acts for the partition that its command names. -/
theorem Kci.acts_privileged {k : Kci} (h : k.src.privileged = true) : k.acts = k.part := by
  cases hs : k.src <;> simp_all [Kci.acts, Source.privileged]

/-! ### What follows a state -/

section
variable {u v w : State}

theorem State.Follows.trans (h : u.Follows v) (h' : v.Follows w) : u.Follows w := by
  unfold State.Follows at *
  rw [h'] at h
  exact h

theorem State.Follows.eq (h : u.Follows v) : u = { v with cmp := { v.cmp with inflight := u.cmp.inflight, config := u.cmp.config } } := h
theorem State.Follows.cmp (h : u.Follows v) : u.cmp = { v.cmp with inflight := u.cmp.inflight, config := u.cmp.config } := by rw [h.eq]
theorem State.Follows.fn (h : u.Follows v) (f : Nat) : u.fn f = v.fn f := by rw [State.fn, h.cmp, State.fn]
theorem State.Follows.queue (h : u.Follows v) (q : Nat) : u.queue q = v.queue q := by rw [State.queue, h.cmp, State.queue]
theorem State.Follows.mgmt (h : u.Follows v) : u.cmp.mgmt = v.cmp.mgmt := by rw [h.cmp]
theorem State.Follows.ptp (h : u.Follows v) : u.cmp.ptp = v.cmp.ptp := by rw [h.cmp]
theorem State.Follows.eeprom (h : u.Follows v) : u.cmp.eeprom = v.cmp.eeprom := by rw [h.cmp]
theorem State.Follows.coldPlate (h : u.Follows v) : u.cmp.coldPlate = v.cmp.coldPlate := by rw [h.cmp]
theorem State.Follows.grid (h : u.Follows v) : u.grid = v.grid := by rw [h.eq]
theorem State.Follows.tile (h : u.Follows v) (t : Nat) : u.tile t = v.tile t := by rw [State.tile, h.grid, State.tile]
theorem State.Follows.sub (h : u.Follows v) (l : Nat) : u.sub l = v.sub l := by rw [h.eq]; rfl
theorem State.Follows.partMode (h : u.Follows v) (p : Nat) : u.partMode p = v.partMode p := by rw [h.eq]; rfl
theorem State.Follows.hostMem (h : u.Follows v) (f : Nat) : u.hostMem f = v.hostMem f := by rw [h.eq]; rfl

end

theorem entered_follows (s : State) (k : Kci) (opcode : Nat) : (s.entered k opcode).Follows s := rfl

/-- An entry of the configuration record is nothing but that (R502). -/
theorem config_follows (s : State) (opcode : Nat) (words : List Word) (n : Nat) : (s.config opcode words n).Follows s := rfl

/-- The end of a command leaves what its body left. -/
theorem kciEnd_follows (opcode : Nat) (k : Kci) (records conf : Bool) (key : Nat) (r : KRes) :
    (kciEnd opcode k records conf key r).Follows r.st := by
  simp only [kciEnd]
  split <;> rfl

/-! ### Running a free command -/

/-- A free command enters flight as one that waits. -/
theorem State.Open.enter {s : State} {k : Kci} (h : s.Open k) (opcode : Nat) : s.enter k opcode = s.entered k opcode := enter_open opcode h

section
variable {s : State} {k : Kci} {i : Instr} {opcode : Nat} {body : State → KRes} {records conf : Bool} {key : Nat} {regions dies : List Nat}
  {r : KRes} {P : State → Prop}

/-- A free command yields what its end leaves of what its body gives. -/
theorem State.Open.yields (h : s.Open k) (hi : exec i s = .next (kciRun opcode k s body records conf key regions dies))
    (hb : body (s.entered k opcode) = r) (hP : ∀ u, u.Follows r.st → u = kciEnd opcode k records conf key r → P u) : Yields i s P :=
  ⟨_, hi, by rw [kciRun_open h, hb]; exact hP _ (kciEnd_follows ..) rfl⟩

/-- A free command that waits for no item: what its body leaves, and the answer. -/
theorem State.Open.answers (h : s.Open k) (hi : exec i s = .next (kciRun opcode k s body records conf key regions dies))
    (hb : body (s.entered k opcode) = r) (hin : KeepsWaiting (s.entered k opcode) r.st) (hk : r.keys = [])
    (hP : ∀ u, u.Follows r.st → u.Answered k opcode r.status r.result → P u) : Yields i s P :=
  h.yields hi hb fun u hu he => hP u hu (he ▸ kciEnd_answered (hin.isFor (entered_has ..)) hk)

/-- The same where the body leaves a state and nothing else: the answer is OK, without a result. -/
theorem State.Open.leaves {t : State} (h : s.Open k) (hi : exec i s = .next (kciRun opcode k s body records conf key regions dies))
    (hb : body (s.entered k opcode) = { st := t }) (hin : KeepsWaiting (s.entered k opcode) t)
    (hP : ∀ u, u.Follows t → u.Answered k opcode .ok [] → P u) : Yields i s P :=
  h.answers hi hb hin rfl hP

/-- A free command one of whose checks fails is answered with a status other than OK, and nothing changes (R521). -/
theorem State.Open.refuses {checks : List (Bool × Status)} {go : Unit → KRes} (h : s.Open k)
    (hi : exec i s = .next (kciRun opcode k s body records conf key regions dies))
    (hb : body (s.entered k opcode) = KRes.check (s.entered k opcode) checks go)
    (hf : ∃ c ∈ checks, c.1 = true) (hc : ∀ c ∈ checks, c.2 ≠ .ok) :
    Yields i s (fun u => u.Follows s ∧ ∃ st, st ≠ Status.ok ∧ u.Answered k opcode st []) := by
  obtain ⟨c, hm, hfail⟩ := KRes.check_fail (s.entered k opcode) go hf
  exact h.answers hi (hb.trans hfail) (.refl _) rfl fun u hu ha => ⟨hu.trans (entered_follows ..), c.2, hc c hm, ha⟩

/-- A free command that waits for items is under way. -/
theorem State.Open.runs (h : s.Open k) (hi : exec i s = .next (kciRun opcode k s body records conf key regions dies))
    (hb : body (s.entered k opcode) = r) (hin : KeepsWaiting (s.entered k opcode) r.st) (hk : r.keys ≠ []) (hs : r.status = .ok)
    (hP : ∀ u, u.Follows r.st → u.Running k opcode r.keys → P u) : Yields i s P :=
  h.yields hi hb fun u hu he => hP u hu (he ▸ kciEnd_running (hin.isFor (entered_has ..)) hk hs)

end

end Sys2Proof.Machine
end

section
namespace Sys2Proof.Machine

/-! ## The commands of Compass (R475 to R485) -/

section
variable {s : State} {k : Kci}

/-! ### Identity (R485) -/

/-- Bytes read in two parts. -/
theorem Memory.readN_add (m : Memory) (a n l : Nat) : m.readN a (n + l) = m.readN a n ++ m.readN (a + n) l := by
  induction n generalizing a with
  | zero => simp [Memory.readN]
  | succ n ih => rw [Nat.succ_add, Memory.readN, Memory.readN, ih, List.cons_append, Nat.succ_add_eq_add_succ]

/-- Part number, build code and serial number lie one behind the other at the start of the module EEPROM. -/
theorem identity_bytes (s : State) : s.partNumber ++ s.buildCode ++ s.serial = s.cmp.eeprom.readN 0 34 := by
  have h1 := Memory.readN_add s.cmp.eeprom 0 18 16
  have h2 := Memory.readN_add s.cmp.eeprom 0 16 2
  simp only [State.partNumber, State.buildCode, State.serial]
  rw [h1, h2]

theorem moduleIdentity_answers (h : s.Open k) (hid : s.cmp.idFault = false) : Yields (.moduleIdentity k) s (fun u =>
    u.Follows s ∧ u.Answered k 0x0101 .ok (leWords 5 (padTo 40 0 (s.cmp.eeprom.readN 0 34)))) := by
  refine h.answers (r := { st := s.entered k 0x0101, result := leWords 5 (padTo 40 0 (s.cmp.eeprom.readN 0 34)) }) rfl ?_ (.refl _) rfl
    fun u hu ha => ⟨hu.trans (entered_follows ..), ha⟩
  have hi : (s.entered k 0x0101).partNumber ++ (s.entered k 0x0101).buildCode ++ (s.entered k 0x0101).serial = s.cmp.eeprom.readN 0 34 :=
    identity_bytes _
  have hf : (s.entered k 0x0101).cmp.idFault = false := hid
  simp only [hf, hi, Bool.false_eq_true, if_false]

/-- The memory that IDMEM_READ reads, and its size in bytes. -/
def State.idMem (s : State) (source : Nat) : Memory := if source = 0 then s.cmp.eeprom else s.cmp.coldPlate
def idSize (source : Nat) : Nat := if source = 0 then 8192 else 256

/-- IDMEM_READ within its memory writes the bytes to the host and changes neither memory. -/
theorem idmemRead_answers (h : s.Open k) {source offset len : Nat} (dest : Nat) (hs : source ≤ 1) (hl : 1 ≤ len) (hl' : len ≤ 256)
    (ho : offset + len ≤ idSize source) : Yields (.idmemRead k source offset len dest) s (fun u =>
      u.hostMem k.src.fnIdx = (s.hostMem k.src.fnIdx).writeN dest ((s.idMem source).readN offset len) ∧ u.cmp.eeprom = s.cmp.eeprom ∧
      u.cmp.coldPlate = s.cmp.coldPlate ∧ u.Answered k 0x0102 .ok []) := by
  refine h.leaves (t := (s.entered k 0x0102).putHost k dest ((s.idMem source).readN offset len)) rfl ?_ (.refl _)
    fun u hu ha => ⟨?_, hu.eeprom, hu.coldPlate, ha⟩
  · refine KRes.check_pass _ _ ?_
    have ho : offset + len ≤ if source = 0 then 8192 else 256 := ho
    simp [Kci.denied_privileged h.priv]
    omega
  · rw [hu.hostMem, State.putHost, State.hostMem_hostWrite]
    rfl

/-- IDMEM_READ past the end of its memory is turned away. -/
theorem idmemRead_range (h : s.Open k) {source offset len : Nat} (dest : Nat) (hs : source ≤ 1) (hl : 1 ≤ len) (hl' : len ≤ 256)
    (ho : idSize source < offset + len) : Yields (.idmemRead k source offset len dest) s (fun u =>
      u.Follows s ∧ u.Answered k 0x0102 .addrRange []) := by
  refine h.answers (r := .fail (s.entered k 0x0102) .addrRange) rfl ?_ (.refl _) rfl fun u hu ha => ⟨hu.trans (entered_follows ..), ha⟩
  have h1 : (1 < source || len = 0 || 256 < len) = false := by simp; omega
  have h2 : decide ((if source = 0 then 8192 else 256) < offset + len) = true := decide_eq_true ho
  simp only [Kci.denied_privileged h.priv, h1, h2, KRes.check_false, KRes.check_true]

/-! ### Rings (R475) -/

/-- A ring that a mailbox command sets up is its source's; the command itself is no ring command. -/
theorem entered_ringInflight (h : k.mbox = true) (opcode : Nat) (src : Source) : (s.entered k opcode).ringInflight src = s.ringInflight src := by
  simp [State.ringInflight, State.entered, entryOf, h]

/-- Without notices held or lost nothing is written into a ring. -/
theorem flushNotices_none (n : Nat) (s : State) (f : Nat) (hh : (s.fn f).held = []) (hl : (s.fn f).lost = 0) :
    State.flushNotices n s f = s := by
  cases n with
  | zero => rfl
  | succ n => simp [State.flushNotices, hh, hl]

/-- A function has at least the 16 vectors of a VF. -/
theorem le_msixVectors (f : Nat) : 16 ≤ msixVectors f := by
  unfold msixVectors
  split <;> omega

/-- A function whose rings a KCI_RINGS_SET takes away, and one whose rings it sets up, in its ring words. -/
def FnState.ringless (x : FnState) : FnState := { x with rings := false, cmdBase := 0, cmdLog := 0, evtBase := 0, evtLog := 0, evtVector := 0 }
def FnState.ringed (x : FnState) (cmd evt vec : Word) : FnState :=
  { x with rings := true, cmdBase := ringBase cmd, cmdLog := ringLog cmd, evtBase := ringBase evt, evtLog := ringLog evt, evtVector := bits vec 9 0,
           cmdTail := 0, cmdHead := 0, evtTail := 0, evtHead := 0 }

theorem kciRingsSet_tearsDown (h : s.Open k) (hm : k.mbox = true) (hs : k.src = .pf) (hr : s.ringInflight .pf = 0) {cmd : Word} (evt vec : Word)
    (hc : ringLog cmd = 0) : Yields (.kciRingsSet k cmd evt vec) s (fun u =>
      u.fn 0 = (s.fn 0).ringless ∧ (∀ g, g ≠ 0 → u.fn g = s.fn g) ∧ u.Answered k 0x0201 .ok []) := by
  refine h.leaves (t := (s.entered k 0x0201).setFn 0 (s.fn 0).ringless) rfl ?_ (.withCmp (.refl _) rfl)
    fun u hu ha => ⟨?_, fun g hg => ?_, ha⟩
  · have hr' : (s.entered k 0x0201).ringInflight .pf = 0 := by rw [entered_ringInflight hm, hr]
    simp [hs, Source.fnIdx, hm, hr', hc]
    rfl
  · rw [hu.fn, State.fn_setFn]
  · rw [hu.fn, State.fn_setFn_other _ hg]
    rfl

theorem kciRingsSet_setsUp (h : s.Open k) (hm : k.mbox = true) (hs : k.src = .pf) (hr : s.ringInflight .pf = 0) {cmd evt vec : Word}
    (hh : (s.fn 0).held = []) (hl : (s.fn 0).lost = 0) (hc : 6 ≤ ringLog cmd ∧ ringLog cmd ≤ 16) (he : 7 ≤ ringLog evt ∧ ringLog evt ≤ 16)
    (bc : bits cmd 11 5 = 0) (be : bits evt 11 5 = 0) (bv : bits vec 63 10 = 0) : Yields (.kciRingsSet k cmd evt vec) s (fun u =>
      u.fn 0 = (s.fn 0).ringed cmd evt vec ∧ (∀ g, g ≠ 0 → u.fn g = s.fn g) ∧ u.Answered k 0x0201 .ok []) := by
  refine h.leaves (t := (s.entered k 0x0201).setFn 0 ((s.fn 0).ringed cmd evt vec)) rfl ?_ (.withCmp (.refl _) rfl)
    fun u hu ha => ⟨?_, fun g hg => ?_, ha⟩
  · have hr' : (s.entered k 0x0201).ringInflight .pf = 0 := by rw [entered_ringInflight hm, hr]
    have hv : bits vec 9 0 < 1024 := Nat.mod_lt _ (by decide)
    have hf : State.flushNotices 257 ((s.entered k 0x0201).setFn 0 ((s.fn 0).ringed cmd evt vec)) 0 =
        (s.entered k 0x0201).setFn 0 ((s.fn 0).ringed cmd evt vec) :=
      flushNotices_none _ _ _ (by rw [State.fn_setFn]; exact hh) (by rw [State.fn_setFn]; exact hl)
    have hz : (ringLog cmd = 0 || ringLog evt = 0) = false := by simp; omega
    refine (KRes.check_pass _ _ (by simp [hm, hs, hr'])).trans ?_
    simp only [hz, Bool.false_eq_true, if_false, hs, Source.fnIdx]
    refine (KRes.check_pass _ _ (by simp [bc, be, bv, msixVectors, hv, hc, he])).trans ?_
    exact congrArg (fun t => ({ st := t } : KRes)) hf
  · rw [hu.fn, State.fn_setFn]
  · rw [hu.fn, State.fn_setFn_other _ hg]
    rfl

end

end Sys2Proof.Machine
end

section
namespace Sys2Proof.Machine

section
variable {s : State} {k : Kci}

/-! ### Partitions: creation, mode, stop, query (R479) -/

theorem State.partMode_setPart_other (s : State) {p q : Nat} (h : q ≠ p) (m : PartMode) : (s.setPart p m).partMode q = s.partMode q := by
  simp [State.setPart, State.partMode, SMap.lookD_put_other _ h]

/-- A partition that exists passes the checks of commands on it. -/
theorem partGuard_pass {p : Nat} (hp : p < 64) (he : s.partExists p = true) : ∀ c ∈ s.partGuard p, c.1 = false := by
  simp [State.partGuard, he, hp]

theorem partCreate_creates (h : s.Open k) {p : Nat} (train : Bool) (hp : p < 64) (ht : s.tampered = false)
    (hlc : s.crt.lc = .provisioned ∨ s.crt.lc = .deployed) (hx : s.partExists p = false) : Yields (.partCreate k p train) s (fun u =>
      u.partMode p = { s.partMode p with assigned := true, train := train } ∧ (∀ q, q ≠ p → u.partMode q = s.partMode q) ∧
      u.grid = s.grid ∧ u.Answered k 0x0202 .ok []) := by
  refine h.leaves (t := (s.entered k 0x0202).setPart p { s.partMode p with assigned := true, train := train }) rfl ?_ (.refl _)
    fun u hu ha => ⟨?_, fun q hq => ?_, hu.grid, ha⟩
  · have hl : lcAllows s.crt.lc = true := by
      rcases hlc with e | e <;> rw [e] <;> rfl
    have ht : (s.entered k 0x0202).tampered = false := ht
    exact KRes.check_pass _ _ (by simp [Kci.denied_privileged h.priv, hp, ht, hl, hx])
  · rw [hu.partMode, State.partMode_setPart]
  · rw [hu.partMode, State.partMode_setPart_other _ hq]
    rfl

/-- A partition that exists is not made again, whichever check says so. -/
theorem partCreate_refused (h : s.Open k) {p : Nat} (train : Bool) (hx : s.partExists p = true) : Yields (.partCreate k p train) s (fun u =>
      u.Follows s ∧ ∃ st, st ≠ Status.ok ∧ u.Answered k 0x0202 st []) :=
  h.refuses rfl rfl (by simp [hx]) (by simp [Kci.denied])

theorem partModeSet_answers (h : s.Open k) {p : Nat} (train : Bool) (hp : p < 64) (hx : s.partExists p = true)
    (hb : (s.enter k 0x0204).partBusy p = false) : Yields (.partModeSet k p train) s (fun u =>
      u.partMode p = { s.partMode p with train := train } ∧ (∀ q, q ≠ p → u.partMode q = s.partMode q) ∧ u.Answered k 0x0204 .ok []) := by
  rw [h.enter] at hb
  refine h.leaves (t := ((s.entered k 0x0204).setPart p { s.partMode p with train := train }).config 0x0202 [wd p, wd (flag 0 train)]) rfl ?_
    (.withCmp (.refl _) rfl) fun u hu ha => ?_
  · exact KRes.check_pass _ _ (by simp [Kci.denied_privileged h.priv, State.partGuard, hp, hx, hb])
  · have hu := hu.trans (config_follows ..)
    refine ⟨?_, fun q hq => ?_, ha⟩
    · rw [hu.partMode, State.partMode_setPart]
    · rw [hu.partMode, State.partMode_setPart_other _ hq]
      rfl

/-- Checks that a partition which exists passes, for a source with the PF's rights. -/
theorem denied_partGuard_pass (hk : k.src.privileged = true) {p : Nat} (hp : p < 64) (hx : s.partExists p = true) :
    ∀ c ∈ k.denied :: s.partGuard p, c.1 = false := by
  rw [Kci.denied_privileged hk]
  exact List.forall_mem_cons.2 ⟨rfl, partGuard_pass hp hx⟩

/-- PART_STOP ends what is in flight for the partition, and is answered. -/
theorem partStop_answers (h : s.Open k) {p : Nat} (hp : p < 64) (hx : s.partExists p = true) : Yields (.partStop k p) s (fun u =>
      u.Follows ((s.enter k 0x0205).partStop p) ∧ u.Answered k 0x0205 .ok []) := by
  have hc := denied_partGuard_pass (s := s.entered k 0x0205) h.priv hp hx
  have hw : KeepsWaiting (s.entered k 0x0205) ((s.entered k 0x0205).partStop p) := (KeepsWaiting.refl _).partStop
  rw [h.enter]
  exact h.leaves rfl (KRes.check_pass _ _ hc) hw fun u hu ha => ⟨hu, ha⟩

theorem partDestroy_yields (h : s.Open k) {p : Nat} (hp : p < 64) (hx : s.partExists p = true) : Yields (.partDestroy k p) s (fun u =>
      u.Follows ((s.enter k 0x0206).partDestroy p).st) := by
  have hc := denied_partGuard_pass (s := s.entered k 0x0206) h.priv hp hx
  rw [h.enter]
  exact h.yields (r := (s.entered k 0x0206).partDestroy p) rfl (KRes.check_pass _ _ hc) fun u hu _ => hu

theorem partQuery_answers (h : s.Open k) {p : Nat} (hp : p < 64) (hx : s.partExists p = true) : Yields (.partQuery k p) s (fun u =>
      u.Follows s ∧ u.Answered k 0x0207 .ok (s.partQuery p)) := by
  refine h.answers (r := { st := s.entered k 0x0207, result := s.partQuery p }) rfl ?_ (.refl _) rfl
    fun u hu ha => ⟨hu.trans (entered_follows ..), ha⟩
  exact KRes.check_pass _ _ (by simp [Kci.notOwn_privileged p h.priv, hp, hx])

/-! ### Descriptor queues (R480) -/

theorem State.queue_setQueue_other (s : State) {q r : Nat} (h : r ≠ q) (x : DmaQueue) : (s.setQueue q x).queue r = s.queue r := by
  simp [State.setQueue, State.queue, SMap.lookD_put_other _ h]

/-- A descriptor queue as DMAQ_SET starts it: empty and idle. -/
def DmaQueue.started (x : DmaQueue) (f base log vector : Nat) : DmaQueue :=
  { x with head := 0, tail := 0, skip := [], fn := f, base := base, log := log, vector := vector, cur := none, waits := [], st := .ok,
           state := .idle }

theorem dmaqSet_starts (h : s.Open k) {q base log vector p : Nat} (hq : q < 16384) (hb : base % 4096 = 0) (hl : 4 ≤ log) (hl' : log ≤ 16)
    (hv : vector ≤ 15) (hk : k.part = some p) (hp : (s.queue q).part = some p) (hs : (s.queue q).state ≠ .stopped) :
    Yields (.dmaqSet k q base log vector true) s (fun u => u.queue q = (s.queue q).started k.src.fnIdx base log vector ∧
      (∀ r, r ≠ q → u.queue r = s.queue r) ∧ u.Answered k 0x0208 .ok []) := by
  refine h.leaves (t := (s.entered k 0x0208).setQueue q ((s.queue q).started k.src.fnIdx base log vector)) rfl ?_
    (KeepsWaiting.refl _).setQueue fun u hu ha => ⟨?_, fun r hr => ?_, ha⟩
  · have hm : ¬ msixVectors k.src.fnIdx ≤ vector := by
      have := le_msixVectors k.src.fnIdx
      omega
    have ha : k.acts = some p := (Kci.acts_privileged h.priv).trans hk
    refine (KRes.check_pass _ _ ?_).trans ?_
    · have hp' : ((s.entered k 0x0208).cmp.dmaq.lookD q {}).part = some p := hp
      simp [hm, ha, hp', hq, hb, hl, hl']
    · have hs' : ((s.entered k 0x0208).cmp.dmaq.lookD q {}).state ≠ .stopped := hs
      simp only [hs', if_false]
      rfl
  · rw [hu.queue, State.queue_setQueue]
  · rw [hu.queue, State.queue_setQueue_other _ hr]
    rfl

/-! ### The management port (R482) -/

theorem mgmtPortSet_answers (h : s.Open k) (addr : Nat) {len udp : Nat} {permitted : List Nat} (notices : Option (Nat × Nat))
    (hp : permitted.length ≤ 8) (hl : len ≤ 128) (hu : udp ≤ 65535) : Yields (.mgmtPortSet k addr len udp permitted notices) s (fun u =>
      u.cmp.mgmt = { s.cmp.mgmt with addr := addr, pfxLen := len, udpPort := udp, permitted := permitted, notices := notices, portSet := true } ∧
      u.Answered k 0x0230 .ok []) :=
  h.leaves rfl (KRes.check_pass _ _ (by simp [Kci.denied_privileged h.priv, hp, hl, hu])) (.withCmp (.refl _) rfl)
    fun _ hu ha => ⟨hu.mgmt, ha⟩

theorem mgmtKeySet_answers (h : s.Open k) {key : List Byte} (hl : key.length = 32) (hw : s.atl.wiping = false) :
    Yields (.mgmtKeySet k key) s (fun u =>
      u.cmp.mgmt = { s.cmp.mgmt with key := some key } ∧ u.Answered k 0x0231 .ok []) :=
  h.leaves rfl (KRes.check_pass _ _ (by simp [Kci.denied_privileged h.priv, hl, hw])) (.withCmp (.refl _) rfl)
    fun _ hu ha => ⟨hu.mgmt, ha⟩

/-! ### Time (R483) -/

/-- PTP stands in the state it goes to, in the domain it had. -/
theorem ptpGo_ptp (s : State) (st : PtpState) : (s.ptpGo st).cmp.ptp.state = st ∧ (s.ptpGo st).cmp.ptp.domain = s.cmp.ptp.domain := by
  unfold State.ptpGo
  split
  · rename_i h
    exact ⟨h, rfl⟩
  · rw [(notify_noted ..).ptp]
    exact ⟨rfl, rfl⟩

theorem KeepsWaiting.ptpGo {o s : State} {st} (h : KeepsWaiting o s) : KeepsWaiting o (s.ptpGo st) := .ite h (.notify (h.withCmp rfl))

/-- The state in which PTP works in a domain. -/
def State.ptpDomain (s : State) (domain : Nat) : State := { s with cmp := { s.cmp with ptp := { s.cmp.ptp with domain := domain } } }

/-- PTP_SET that turns PTP off, or on where it is off: PTP goes to DISABLED or to ACQUIRING in the new domain. -/
theorem ptpSet_goes (h : s.Open k) {enable : Bool} {domain : Nat} (hd : domain ≤ 127) (he : enable = true → s.cmp.ptp.state = .disabled) :
    Yields (.ptpSet k enable domain) s (fun u => u.cmp.ptp.state = (if enable then .acquiring else .disabled) ∧ u.cmp.ptp.domain = domain ∧
      u.Answered k 0x0232 .ok []) := by
  refine h.leaves (t := ((s.entered k 0x0232).ptpDomain domain).ptpGo (if enable then .acquiring else .disabled)) rfl ?_
    (KeepsWaiting.ptpGo (.withCmp (.refl _) rfl)) fun u hu ha => ?_
  · refine (KRes.check_pass _ _ (by simp [Kci.denied_privileged h.priv, hd])).trans ?_
    cases enable with
    | false => rfl
    | true =>
      have he : (s.entered k 0x0232).cmp.ptp.state = .disabled := he rfl
      exact congrArg (fun t => ({ st := t } : KRes)) ((if_neg (by decide)).trans (if_pos he))
  · obtain ⟨hs, hd⟩ := ptpGo_ptp ((s.entered k 0x0232).ptpDomain domain) (if enable then .acquiring else .disabled)
    rw [hu.ptp]
    exact ⟨hs, hd, ha⟩

theorem timeQuery_answers (h : s.Open k) : Yields (.timeQuery k) s (fun u =>
      u.Follows s ∧ u.Answered k 0x0233 .ok [wd s.cmp.ptp.pairTb, wd s.cmp.ptp.pairPtp, wd s.cmp.ptp.state.code]) :=
  h.answers (body := fun s => { st := s, result := [wd s.cmp.ptp.pairTb, wd s.cmp.ptp.pairPtp, wd s.cmp.ptp.state.code] }) rfl rfl (.refl _) rfl
    fun _ hu ha => ⟨hu.trans (entered_follows ..), ha⟩

end

end Sys2Proof.Machine
end

section
namespace Sys2Proof.Machine

/-! ### Partitions: tiles and sub-ports (R104, R479) -/

section
variable {s : State} {k : Kci} {p t : Nat}

/-- A tile that PART_ASSIGN can give to a partition: READY, of no partition, on a die that is up. -/
structure State.TileFree (s : State) (t : Nat) : Prop where
  bound   : t < 1024
  ready   : (s.tile t).state = .ready
  part    : (s.tile t).part = none
  joining : (s.tile t).joining = none
  die     : t / 256 ∉ s.flt.downDies

theorem State.TileFree.entered (h : s.TileFree t) (k : Kci) (opcode : Nat) : (s.entered k opcode).TileFree t :=
  ⟨h.bound, h.ready, h.part, h.joining, h.die⟩

/-- Sub-ports that PART_ASSIGN can give to a partition. -/
def State.SubsFree (s : State) (ls : List Nat) : Prop :=
  ∀ l ∈ ls, s.subExists l = true ∧ (s.sub l).state = .disabled ∧ lportDie l ∉ s.flt.downDies

/-- One tile and sub-ports, as PART_ASSIGN names them. -/
def tileSubs (t : Nat) (ls : List Nat) : PartRes := { tiles := [t], subs := ls, firstQ := 0, numQ := 0 }

theorem assignChecks_pass {ls : List Nat} (ht : s.TileFree t) (hl : s.SubsFree ls) : ∀ c ∈ s.assignChecks p (tileSubs t ls), c.1 = false := by
  obtain ⟨-, hr, hp, hj, hd⟩ := ht
  have hs : ∀ l ∈ ls, (s.sub l).state = .disabled ∧ lportDie l ∉ s.flt.downDies := fun l hm => (hl l hm).2
  simpa [State.assignChecks, tileSubs, resQueues, hr, hp, hj, hd] using hs

/-- A tile whose last partition this was joins at once and keeps what it holds. -/
theorem joinTile_last (hp : (s.tile t).part = none) (hl : (s.tile t).lastPart = some p) :
    State.joinTile p s t = s.setTile t { s.tile t with part := some p } := by
  have hne : (s.tile t).part ≠ some p := by simp [hp]
  simp only [State.joinTile, hne, if_false, hl, decide_true, Bool.true_or, if_true]

/-- A READY tile that another partition had last joins with a reset that clears its scratchpad. -/
theorem joinTile_other (hp : (s.tile t).part = none) (hr : (s.tile t).state = .ready) (hl : (s.tile t).lastPart ≠ some p) :
    State.joinTile p s t = (s.tileReset t true).onTile t (fun x => { x with joining := some p }) := by
  have hne : (s.tile t).part ≠ some p := by simp [hp]
  simp [State.joinTile, hp, hr, hl]

/-! A reset touches no other tile. -/

theorem merSend_grid (s : State) (x : MerXfer) : (s.merSend x).grid = s.grid :=
  List.foldlRecOn (motive := fun u : State => u.grid = s.grid) _ State.stir rfl fun _ h _ _ => h

theorem merTileReset_grid (s : State) (t : Nat) : (s.merTileReset t).grid = s.grid := by
  unfold State.merTileReset
  extract_lets ws s1
  refine List.foldlRecOn (motive := fun u : State => u.grid = s.grid) _ _ rfl fun u h w _ => ?_
  rw [merSend_grid, h]

theorem powerOver_grid (s : State) (t : Nat) : (s.powerOver t).grid = s.grid := by
  unfold State.powerOver
  split <;> rfl

/-- A tile that is reset with its scratchpad stands in RESET, with the scratchpad to be cleared. -/
theorem tileReset_tile (s : State) (t : Nat) :
    ((s.tileReset t true).tile t).state = .reset ∧ ((s.tileReset t true).tile t).clearing = true := by
  simp [State.tileReset]

/-- The reset of a tile that does not run and is in no partition leaves every other tile. -/
theorem tileReset_tile_other (hr : (s.tile t).state = .ready) (hp : (s.tile t).part = none) {clear : Bool} {v : Nat} (hv : v ≠ t) :
    (s.tileReset t clear).tile v = s.tile v := by
  have hn : ¬ (s.tile t).state = .running := by simp [hr]
  have hg : ((s.merTileReset t).powerOver t).grid = s.grid := by rw [powerOver_grid, merTileReset_grid]
  simp only [State.tileReset, hn, if_false, hp, Option.toList_none, List.foldl_nil, State.tile_setTile_other _ hv]
  rw [State.tile, hg, State.tile]

/-! Sub-ports join at once. -/

/-- Sub-ports become those of a partition. -/
def State.giveSubs (s : State) (p : Nat) (ls : List Nat) : State :=
  ls.foldl (fun s l => s.onSub l (fun x => { x with cfg := { x.cfg with part := some p } })) s

theorem giveSubs_grid (s : State) (p : Nat) (ls : List Nat) : (s.giveSubs p ls).grid = s.grid :=
  List.foldlRecOn (motive := fun u : State => u.grid = s.grid) ls _ rfl fun _ h _ _ => h

theorem giveSubs_tile (s : State) (p : Nat) (ls : List Nat) (v : Nat) : (s.giveSubs p ls).tile v = s.tile v := by
  rw [State.tile, giveSubs_grid, State.tile]

theorem State.sub_onSub (s : State) (l : Nat) (f : SubPort → SubPort) : (s.onSub l f).sub l = f (s.sub l) := State.sub_setSub ..

theorem State.sub_setSub_other (s : State) {l m : Nat} (h : m ≠ l) (x : SubPort) : (s.setSub l x).sub m = s.sub m := by
  simp [State.setSub, State.setFab, State.sub, SMap.lookD_put_other _ h]

theorem giveSubs_keeps {l : Nat} (ls : List Nat) (h : (s.sub l).cfg.part = some p) : ((s.giveSubs p ls).sub l).cfg.part = some p := by
  refine List.foldlRecOn (motive := fun u : State => (u.sub l).cfg.part = some p) ls _ h fun u hu a _ => ?_
  by_cases ha : l = a
  · subst ha
    rw [State.sub_onSub]
  · rw [State.onSub, State.sub_setSub_other _ ha, hu]

/-- Each of the sub-ports is the partition's. -/
theorem giveSubs_part {l : Nat} {ls : List Nat} (hl : l ∈ ls) : ((s.giveSubs p ls).sub l).cfg.part = some p := by
  induction ls generalizing s with
  | nil => cases hl
  | cons a ls ih =>
    rcases List.mem_cons.1 hl with rfl | hl
    · exact giveSubs_keeps ls (congrArg (·.cfg.part) (State.sub_onSub ..))
    · exact ih hl

theorem KeepsWaiting.giveSubs {o s : State} {p ls} (h : KeepsWaiting o s) : KeepsWaiting o (s.giveSubs p ls) := .foldl h fun _ _ h => h.withFab

theorem KeepsWaiting.joinTile {o s : State} {p t} (h : KeepsWaiting o s) : KeepsWaiting o (State.joinTile p s t) :=
  .ite h (.ite h.withGrid h.tileReset.withGrid)

/-- What adding a tile and sub-ports leaves; the command waits for the tile where it joins with a reset. -/
theorem partAdd_tileSubs {ls : List Nat} (ht : s.TileFree t) (hl : s.SubsFree ls) : s.partAdd p (tileSubs t ls) =
    { st := (State.joinTile p s t).giveSubs p ls, keys := [t].filter (fun v => ((State.joinTile p s t).tile v).joining.isSome) } := by
  refine (KRes.check_pass _ _ (assignChecks_pass ht hl)).trans ?_
  have hj : ∀ v, (((State.joinTile p s t).giveSubs p ls).tile v).joining = ((State.joinTile p s t).tile v).joining := fun v => by rw [giveSubs_tile]
  exact congrArg (fun f => ({ st := (State.joinTile p s t).giveSubs p ls, keys := [t].filter f } : KRes)) (funext fun v => by rw [← hj v]; rfl)

/-- PART_ASSIGN of a tile and sub-ports that exist passes its own checks. -/
theorem partAssign_pass {s : State} {ls : List Nat} (hk : k.src.privileged = true) (hp : p < 64) (hx : s.partExists p = true) (ht : t < 1024)
    (hl : ∀ l ∈ ls, s.subExists l = true) : ∀ c ∈ k.denied :: s.partGuard p ++ [badTiles (tileSubs t ls).tiles,
      ((tileSubs t ls).subs.any (fun l => !s.subExists l) || 16384 < (tileSubs t ls).firstQ + (tileSubs t ls).numQ, .badOperand)], c.1 = false := by
  have hs : ls.any (fun l => !s.subExists l) = false := List.any_eq_false.2 fun l hm => by simp [hl l hm]
  refine List.forall_mem_append.2 ⟨denied_partGuard_pass hk hp hx, ?_⟩
  simp [badTiles, tileSubs, ht, hs]

/-- A tile joins the partition that it was in last at once, with the sub-ports named. -/
theorem partAssign_joins (h : s.Open k) (hp : p < 64) (hx : s.partExists p = true) {ls : List Nat} (ht : s.TileFree t) (hl : s.SubsFree ls)
    (hlast : (s.tile t).lastPart = some p) : Yields (.partAssign k p true (tileSubs t ls)) s (fun u => u.tile t = { s.tile t with part := some p } ∧
      (∀ v, v ≠ t → u.tile v = s.tile v) ∧ (∀ l ∈ ls, (u.sub l).cfg.part = some p) ∧ u.Answered k 0x0203 .ok []) := by
  have hj : State.joinTile p (s.entered k 0x0203) t = (s.entered k 0x0203).setTile t { s.tile t with part := some p } := joinTile_last ht.part hlast
  have hkeys : [t].filter (fun v => ((State.joinTile p (s.entered k 0x0203) t).tile v).joining.isSome) = [] := by
    rw [hj]
    simp [ht.joining]
  refine h.leaves (t := (State.joinTile p (s.entered k 0x0203) t).giveSubs p ls) rfl ?_ (KeepsWaiting.refl _).joinTile.giveSubs
    fun u hu ha => ⟨?_, fun v hv => ?_, fun l hm => ?_, ha⟩
  · refine (KRes.check_pass _ _ (partAssign_pass h.priv hp hx ht.bound fun l hm => (hl l hm).1)).trans ?_
    exact (partAdd_tileSubs (ht.entered k 0x0203) hl).trans (congrArg (KRes.mk _ .ok [] · [] false) hkeys)
  · rw [hu.tile, giveSubs_tile, hj, State.tile_setTile]
  · rw [hu.tile, giveSubs_tile, hj, State.tile_setTile_other _ hv]
    rfl
  · rw [hu.sub, giveSubs_part hm]

/-- A tile that another partition had last joins with a reset, for which the command waits. -/
theorem partAssign_resets (h : s.Open k) (hp : p < 64) (hx : s.partExists p = true) {ls : List Nat} (ht : s.TileFree t) (hl : s.SubsFree ls)
    (hlast : (s.tile t).lastPart ≠ some p) : Yields (.partAssign k p true (tileSubs t ls)) s (fun u => (u.tile t).state = .reset ∧
      (u.tile t).clearing = true ∧ (u.tile t).joining = some p ∧ (∀ v, v ≠ t → u.tile v = s.tile v) ∧ u.Running k 0x0203 [t]) := by
  have hj : State.joinTile p (s.entered k 0x0203) t = ((s.entered k 0x0203).tileReset t true).onTile t (fun x => { x with joining := some p }) :=
    joinTile_other ht.part ht.ready hlast
  have hkeys : [t].filter (fun v => ((State.joinTile p (s.entered k 0x0203) t).tile v).joining.isSome) = [t] := by
    rw [hj]
    simp
  have htile : ∀ u : State, u.Follows ((State.joinTile p (s.entered k 0x0203) t).giveSubs p ls) →
      u.tile t = { ((s.entered k 0x0203).tileReset t true).tile t with joining := some p } := fun u hu => by
    rw [hu.tile, giveSubs_tile, hj, State.tile_onTile]
  obtain ⟨hstate, hclear⟩ := tileReset_tile (s.entered k 0x0203) t
  refine h.runs (r := { st := (State.joinTile p (s.entered k 0x0203) t).giveSubs p ls, keys := [t] }) rfl ?_
    (KeepsWaiting.refl (s.entered k 0x0203)).joinTile.giveSubs (List.cons_ne_nil _ _) rfl fun u hu ha => ⟨?_, ?_, ?_, fun v hv => ?_, ha⟩
  · refine (KRes.check_pass _ _ (partAssign_pass h.priv hp hx ht.bound fun l hm => (hl l hm).1)).trans ?_
    exact (partAdd_tileSubs (ht.entered k 0x0203) hl).trans (congrArg (KRes.mk _ .ok [] · [] false) hkeys)
  · rw [htile u hu, hstate]
  · rw [htile u hu, hclear]
  · rw [htile u hu]
  · rw [hu.tile, giveSubs_tile, hj, State.tile_onTile_other _ hv, tileReset_tile_other (s := s.entered k 0x0203) ht.ready ht.part hv]
    rfl

theorem partRemove_tile (hr : (s.tile t).state = .ready) : s.partRemove p (tileSubs t []) = { st := s.onTile t (fun x => x.leave p) } := by
  unfold State.partRemove
  exact KRes.check_pass _ _ (by simp [tileSubs, hr])

/-- A READY tile leaves its partition at once, and keeps its scratchpad. -/
theorem partAssign_leaves (h : s.Open k) (hp : p < 64) (hx : s.partExists p = true) (ht : t < 1024) (hpart : (s.tile t).part = some p)
    (hr : (s.tile t).state = .ready) : Yields (.partAssign k p false (tileSubs t [])) s (fun u => (u.tile t).part = none ∧
      (u.tile t).scratch = (s.tile t).scratch ∧ (∀ v, v ≠ t → u.tile v = s.tile v) ∧ u.Answered k 0x0203 .ok []) := by
  refine h.leaves (t := (s.entered k 0x0203).onTile t (fun x => x.leave p)) rfl ?_ (KeepsWaiting.refl _).withGrid fun u hu ha =>
    ⟨?_, ?_, fun v hv => ?_, ha⟩
  · refine (KRes.check_pass _ _ (partAssign_pass h.priv hp hx ht (by simp))).trans ?_
    exact partRemove_tile (s := s.entered k 0x0203) hr
  · rw [hu.tile, State.tile_onTile]
    simp [Tile.leave, hpart]
  · rw [hu.tile, State.tile_onTile]
    rfl
  · rw [hu.tile, State.tile_onTile_other _ hv]
    rfl

end

end Sys2Proof.Machine
end

section
namespace Sys2Proof.Machine

/-! ### The obligation -/

theorem Yields.mono {i : Instr} {s : State} {P Q : State → Prop} (h : Yields i s P) (hPQ : ∀ u, P u → Q u) : Yields i s Q := by
  obtain ⟨u, hu, hP⟩ := h
  exact ⟨u, hu, hPQ u hP⟩

/-- Settles O52, command by command: each passes its checks, does what its rule above says, and is answered. -/
theorem compassCommands : Obligations.CompassCommands := by
  unfold Obligations.CompassCommands
  intro s k h
  refine ⟨moduleIdentity_answers h, fun offset len dest hl hl' => ?idmem, fun hm hs hr => ?rings, fun p train hp => ?partitions,
    fun q base log vector p hq hb hl hl' hv hk hp hs => dmaqSet_starts h hq hb hl hl' hv hk hp hs,
    fun addr len udp permitted notices hp hl hu => mgmtPortSet_answers h addr notices hp hl hu, fun key hl hw => mgmtKeySet_answers h hl hw,
    fun domain hd => ⟨fun he => ptpSet_goes h hd fun _ => he, ptpSet_goes h hd nofun⟩, timeQuery_answers h⟩
  case idmem =>
    refine ⟨fun ho => ?_, fun ho => ?_, fun ho => idmemRead_range h dest (le_refl 1) hl hl' ho⟩
    · exact (idmemRead_answers h dest (Nat.zero_le 1) hl hl' ho).mono fun u ⟨hm, he, _, ha⟩ => ⟨hm, he, ha⟩
    · exact (idmemRead_answers h dest (le_refl 1) hl hl' ho).mono fun u ⟨hm, _, hc, ha⟩ => ⟨hm, hc, ha⟩
  case rings =>
    refine ⟨fun cmd evt vec hc => ?_, fun cmd evt vec hh hlost hc hc' he he' bc be bv => ?_⟩
    · refine (kciRingsSet_tearsDown h hm hs hr evt vec hc).mono fun u ⟨hf, hg, ha⟩ => ?_
      rw [hf]
      exact ⟨rfl, rfl, rfl, rfl, hg, ha⟩
    · exact kciRingsSet_setsUp h hm hs hr hh hlost ⟨hc, hc'⟩ ⟨he, he'⟩ bc be bv
  case partitions =>
    refine ⟨fun ht hlc hx => partCreate_creates h train hp ht hlc hx, fun hx => partCreate_refused h train hx, fun hx => ?_⟩
    refine ⟨fun hb => partModeSet_answers h train hp hx hb, partStop_answers h hp hx, partDestroy_yields h hp hx, partQuery_answers h hp hx,
      fun t ht hr hpart hj hd => ⟨fun hlast => ?_, fun hlast _ => ?_⟩, fun t l ht hr hpart hj hd hlast hl hdis hdie => ?_,
      fun t ht hpart hr => partAssign_leaves h hp hx ht hpart hr⟩
    · exact (partAssign_joins h hp hx ⟨ht, hr, hpart, hj, hd⟩ (List.forall_mem_nil _) hlast).mono fun u ⟨hu, hv, _, ha⟩ => ⟨hu, hv, ha⟩
    · exact partAssign_resets h hp hx ⟨ht, hr, hpart, hj, hd⟩ (List.forall_mem_nil _) hlast
    · refine (partAssign_joins h hp hx ⟨ht, hr, hpart, hj, hd⟩ (List.forall_mem_singleton.2 ⟨hl, hdis, hdie⟩) hlast).mono
        fun u ⟨hu, _, hsub, ha⟩ => ⟨?_, hsub l (List.mem_singleton_self l), ha⟩
      rw [hu]

end Sys2Proof.Machine
end

section
namespace Sys2Proof.Machine

/-! ## The promotion decision (R68) -/

/-! ### What an engine leaves of the instruction at its head -/

@[simp] theorem Tile.head_setHead (x : Tile) (e : Nat) (q : QEntry) : (x.setHead e q).head e = some q := by
  simp [Tile.head, Tile.setHead, Tile.queue]

section
variable {s : State} {t : Nat} {q : QEntry}

/-- An engine whose run does not stop leaves the run's tile, with its units and saturations in the entry. -/
theorem engFinish_ok {e : Nat} {x : Tile} {f : EngM Unit} {y : EngSt} (h : f { x := x } = .ok () y) :
    s.engFinish t e q x f = s.setTile t (y.x.setHead e { q with ran := true, units := y.units, nsat := y.nsat }) := by
  simp only [State.engFinish, h, State.engEnd]

/-- Where the entry left at the head has not stopped, the accumulator entries hold its results. -/
theorem mmAfter_setHead {x : Tile} {p : QEntry} (hok : p.status = .ok) :
    (s.setTile t (x.setHead 0 p)).mmAfter t q = s.setTile t (x.setHead 0 p) := by
  simp [State.mmAfter, hok]

/-! ### The decision -/

/-- No more saturations than the threshold: the first run's outputs stand. -/
theorem promoteDecision_keeps (hq : (s.tile t).head 0 = some q) (hran : q.ran = true) (hdec : q.decided = false) (hle : q.nsat ≤ q.thresh) :
    s.promoteDecision t = s.setTile t ((s.tile t).setHead 0 { q with decided := true }) := by
  simp [State.promoteDecision, hq, hran, hdec, Nat.not_lt.2 hle]

/-- More saturations than the threshold: the tensor engine runs the instruction again, from the accumulator entries and the generator
states that it saved, where no write of GRT_SR_SEED waits for the end of the rerun (R67). -/
theorem promoteDecision_reruns (hq : (s.tile t).head 0 = some q) (hran : q.ran = true) (hdec : q.decided = false) (hlt : q.thresh < q.nsat)
    (hseed : (s.tile t).srWrote = false) : s.promoteDecision t =
      (s.engFinish t 0 { q with decided := true, rerun := true } { s.tile t with sr := q.saved } (mmRerun q.words q.accs)).mmAfter t
        { q with decided := true, rerun := true } := by
  simp [State.promoteDecision, hq, hran, hdec, hlt, hseed]

end

theorem exec_promoteDecision (t : Nat) (s : State) : exec (.promoteDecision t) s = .next (s.promoteDecision t) := rfl

/-- Settles O17: the outputs stand up to the threshold; above it, a rerun that does not stop leaves its own tile, units and saturations. -/
theorem promoteDecision : Obligations.PromoteDecision := by
  unfold Obligations.PromoteDecision
  intro s t q hq hran hdec
  refine ⟨fun hle => ⟨_, exec_promoteDecision t s, promoteDecision_keeps hq hran hdec hle⟩,
    fun hlt hok hseed y hy => ⟨_, exec_promoteDecision t s, ?_⟩⟩
  rw [promoteDecision_reruns hq hran hdec hlt hseed, engFinish_ok hy]
  exact mmAfter_setHead hok

end Sys2Proof.Machine
end

section
namespace Sys2Proof.Machine

/-! ## The state after reset (R101, R413, R418, R423) -/

/-- The module EEPROM as it leaves the factory is written, part by part, into an empty memory. -/
theorem eepromReset_wf : eepromReset.wf = true := by
  unfold eepromReset
  iterate 5 refine Memory.writeN_wf _ _ ?_
  exact Memory.wf_nil

/-- Every other memory is empty after reset. -/
theorem reset_memoriesOk : State.reset.memoriesOk = true := by
  simp [State.memoriesOk, State.reset, eepromReset_wf]

/-- Settles O58: each field stands at the value that the model's reset state gives it. -/
theorem resetState : Obligations.ResetState := by
  unfold Obligations.ResetState
  exact ⟨rfl, reset_memoriesOk, rfl, rfl, fun _ => ⟨rfl, rfl⟩, rfl, rfl, rfl, rfl, rfl, rfl, rfl, rfl, rfl, rfl⟩

end Sys2Proof.Machine
end

section
namespace Sys2Proof.Machine

/-! ## What a tile's sequencer does beside computing (R81, R88, R102, R115) -/

/-! ### Tiles that differ in nothing the flow of a strand reads -/

/-- Two tiles have the same registers, strands, loop levels and count of instructions. -/
structure SameFlow (x y : Tile) : Prop where
  g       : y.g = x.g
  strands : y.strands = x.strands
  current : y.current = x.current
  loops   : y.loops = x.loops

section
variable {x y : Tile}

theorem SameFlow.strand (h : SameFlow x y) (n : Nat) : y.strand n = x.strand n := by simp only [Tile.strand, h.strands]

theorem SameFlow.reg (h : SameFlow x y) (r : Reg) : y.reg r = x.reg r := by
  simp only [Tile.reg, Tile.regOf, h.g, h.current, h.strand]

theorem SameFlow.fallThrough (h : SameFlow x y) : y.fallThrough y.pc = x.fallThrough x.pc := by
  rw [Tile.fallThrough, Tile.fallThroughOf, Tile.pc, h.loops, h.current, h.strand, Tile.fallThrough, Tile.fallThroughOf, Tile.pc]

end

/-- Releasing ring lines and reseeding the conversion lanes leave the flow alone. -/
theorem release_sameFlow (x : Tile) (p : RxMsg → Bool) : SameFlow x (x.release p) := ⟨rfl, rfl, rfl, rfl⟩
theorem writeReg_seed_sameFlow (x : Tile) (v : Word) : SameFlow x (x.writeReg 0x808 v) := ⟨rfl, rfl, rfl, rfl⟩

/-- Of the messages that are left in the ring, those that the test selects are released. -/
theorem release_released (x : Tile) {p : RxMsg → Bool} {m : RxMsg}
    (hm : m ∈ (x.release p).rx) (h : p m = true) : m.released = true := by
  obtain ⟨m', -, rfl⟩ := List.mem_map.1 (List.mem_of_mem_drop hm)
  by_cases h' : p m' = true
  · rw [if_pos h']
  · rw [if_neg h'] at h
    contradiction

/-! ### Instructions that fall through -/

section
variable {s : State} {t p : Nat} {ls : List Loop}

theorem State.Falls.running (h : s.Falls t p ls) : (s.tile t).state = .running := by
  have hr := h.runs
  simp only [Tile.runs, Bool.and_eq_true, decide_eq_true_eq] at hr
  exact hr.1

/-- An instruction of a strand that runs, by what it makes of the sequencer. -/
theorem seqRun_next {f : Tile → SeqOut} {u : State} (h : s.Falls t p ls) (hf : f (s.tile t) = .next u) : seqRun t s f = u.seqNext t := by
  simp only [seqRun, h.runs, hf, Bool.not_true, Bool.false_eq_true, if_false]

theorem seqRun_fault {f : Tile → SeqOut} {u : State} {st : Status} {extra addr : Nat} (h : s.Falls t p ls)
    (hf : f (s.tile t) = .fault u st extra addr) : seqRun t s f = u.faultHalt t st (s.tile t).pc (s.tile t).current extra addr := by
  simp only [seqRun, h.runs, hf, Bool.not_true, Bool.false_eq_true, if_false]

/-- An instruction that changes its tile, but not the flow, falls through. -/
theorem seqRun_sameFlow {f : Tile → SeqOut} {y : Tile} (h : s.Falls t p ls) (hf : f (s.tile t) = .next (s.setTile t y))
    (hy : SameFlow (s.tile t) y) : seqRun t s f = (s.setTile t y).setTile t { y.goTo p with loops := ls } := by
  rw [seqRun_next h hf, seqNext_falls (p := p) (ls := ls), State.tile_setTile]
  rw [State.tile_setTile, hy.fallThrough, h.falls]

/-- Where such an instruction leaves the strand, and what it leaves. -/
theorem yields_sameFlow {i : Instr} {f : Tile → SeqOut} {y : Tile} (h : s.Falls t p ls) (hi : exec i s = .next (seqRun t s f))
    (hf : f (s.tile t) = .next (s.setTile t y)) (hy : SameFlow (s.tile t) y) (hs : y.scratch = (s.tile t).scratch) :
    Yields i s (fun u => u.tile t = { y.goTo p with loops := ls } ∧ At u t p ls ∧ (∀ r, (u.tile t).reg r = (s.tile t).reg r) ∧
      (u.tile t).scratch = (s.tile t).scratch ∧ OnlyTile s u t) := by
  have hu := State.tile_setTile (s.setTile t y) t { y.goTo p with loops := ls }
  refine ⟨_, hi.trans (congrArg _ (seqRun_sameFlow h hf hy)), hu, ⟨?_, ?_⟩, fun r => ?_, ?_, setTile_setTile ..⟩
  · rw [hu]
    exact Tile.goTo_pc y p
  · rw [hu]
  · rw [hu]
    exact (Tile.goTo_reg y p r).trans (hy.reg r)
  · rw [hu, Tile.goTo_shape]
    exact hs

/-! ### NOP, RXREL, WRREG -/

theorem nop_yields (h : s.Falls t p ls) : Yields (.nop t) s (fun u => At u t p ls ∧ NoReg s u t) := by
  have hu := State.tile_setTile s t { (s.tile t).goTo p with loops := ls }
  have hi : exec (.nop t) s = .next (seqRun t s (fun _ => .next s)) := rfl
  refine ⟨_, hi.trans (congrArg _ ((seqRun_next h rfl).trans (seqNext_falls h.falls))), ⟨?_, ?_⟩, ⟨onlyTile_setTile .., ?_, fun n hn => ?_⟩, fun r => ?_⟩
  · rw [hu]
    exact Tile.goTo_pc _ p
  · rw [hu]
  · rw [hu, Tile.goTo_shape]
  · rw [hu]
    exact Tile.goTo_strand_other _ p hn
  · rw [hu]
    exact Tile.goTo_reg _ p r

theorem rxrel_yields (h : s.Falls t p ls) : Yields (.rxrel t) s (fun u => At u t p ls ∧ (∀ r, (u.tile t).reg r = (s.tile t).reg r) ∧
    (u.tile t).scratch = (s.tile t).scratch ∧ OnlyTile s u t ∧
    ∀ m ∈ (u.tile t).rx, ((s.tile t).rxBase + m.line) * 64 = ((s.tile t).reg 29).toNat → m.released = true) := by
  refine (yields_sameFlow h rfl rfl (release_sameFlow ..) rfl).mono fun u ⟨hu, hat, hreg, hscr, ho⟩ => ⟨hat, hreg, hscr, ho, fun m hm hl => ?_⟩
  rw [hu, Tile.goTo_shape] at hm
  exact release_released _ hm (decide_eq_true hl)

theorem wrreg_seed_yields (h : s.Falls t p ls) (ra : Reg) : Yields (.wrreg t ra 0x808) s (fun u => At u t p ls ∧
    (u.tile t).sr = { seed := ((s.tile t).reg ra).toNat } ∧ (∀ r, (u.tile t).reg r = (s.tile t).reg r) ∧
    (u.tile t).scratch = (s.tile t).scratch ∧ OnlyTile s u t) := by
  refine (yields_sameFlow (y := (s.tile t).writeReg 0x808 ((s.tile t).reg ra)) h rfl rfl (writeReg_seed_sameFlow ..) rfl).mono
    fun u ⟨hu, hat, hreg, hscr, ho⟩ => ⟨hat, ?_, hreg, hscr, ho⟩
  rw [hu, Tile.goTo_shape]
  rfl

/-! ### YIELD, END -/

/-- A strand whose own registers g29 to g31 stay reads its registers as before. -/
theorem Tile.reg_setStrand (x : Tile) {n : Nat} {d : Strand} (h29 : d.g29 = (x.strand n).g29) (h30 : d.g30 = (x.strand n).g30)
    (h31 : d.g31 = (x.strand n).g31) (r : Reg) : (x.setStrand n d).reg r = x.reg r := by
  have hcur : (x.setStrand n d).current = x.current := rfl
  have hg : (x.setStrand n d).g = x.g := rfl
  by_cases hn : x.current = n
  · simp only [Tile.reg, Tile.regOf, hcur, hg, hn, Tile.strand_setStrand, h29, h30, h31]
  · simp only [Tile.reg, Tile.regOf, hcur, hg, Tile.strand_setStrand_other x hn]

/-- A tile whose current strand stands in this state at this address. -/
def Tile.stand (x : Tile) (st : StrandState) (pc : Nat) : Tile := x.setStrand x.current { x.strand x.current with state := st, pc := pc }

theorem Tile.stand_reg (x : Tile) (st : StrandState) (pc : Nat) (r : Reg) : (x.stand st pc).reg r = x.reg r := Tile.reg_setStrand x (d := { x.strand x.current with state := st, pc := pc }) rfl rfl rfl r

theorem Tile.strand_stand (x : Tile) (st : StrandState) (pc : Nat) :
    (x.stand st pc).strand x.current = { x.strand x.current with state := st, pc := pc } := x.strand_setStrand ..

/-- YIELD: the strand gives way where another one can run (R81, R115). -/
theorem seqRun_yield {f : Tile → SeqOut} (h : s.Falls t p ls) (hf : f (s.tile t) = .yield s) : seqRun t s f = s.setTile t
    { (s.tile t).stand (if (s.tile t).othersRunnable then .runnable else .running) p with issued := 0, loops := ls } := by
  simp only [seqRun, h.runs, hf, h.falls, Bool.not_true, Bool.false_eq_true, if_false, Tile.stand]

theorem yield_yields (h : s.Falls t p ls) : Yields (.yield t) s (fun u => At u t p ls ∧ (u.tile t).issued = 0 ∧ NoReg s u t ∧
    ((u.tile t).strand (s.tile t).current).state = if (s.tile t).othersRunnable then .runnable else .running) := by
  have hi : exec (.yield t) s = .next (seqRun t s (fun _ => .yield s)) := rfl
  have hu := State.tile_setTile s t
    { (s.tile t).stand (if (s.tile t).othersRunnable then .runnable else .running) p with issued := 0, loops := ls }
  refine ⟨_, hi.trans (congrArg _ (seqRun_yield h rfl)), ⟨?_, ?_⟩, ?_, ⟨⟨onlyTile_setTile .., ?_, fun n hn => ?_⟩, fun r => ?_⟩, ?_⟩
  · rw [hu]
    exact congrArg Strand.pc (Tile.strand_stand ..)
  · rw [hu]
  · rw [hu]
  · rw [hu]
    rfl
  · rw [hu]
    exact Tile.strand_setStrand_other _ hn _
  · rw [hu]
    exact Tile.stand_reg ..
  · rw [hu]
    exact congrArg Strand.state (Tile.strand_stand ..)

/-- END: the strand is FREE, and the messages that it held are released (R81, R88). -/
theorem seqRun_finish {f : Tile → SeqOut} (h : s.Falls t p ls) (hf : f (s.tile t) = .finish s) : seqRun t s f = s.setTile t
    (Tile.release { (s.tile t).stand .free (s.tile t).pc with issued := 0, loops := if (s.tile t).current = 0 then [] else (s.tile t).loops }
      (fun m => m.strand = some (s.tile t).current)) := by
  simp only [seqRun, h.runs, hf, Bool.not_true, Bool.false_eq_true, if_false]
  rfl

theorem end_yields (h : s.Falls t p ls) : Yields (.end_ t) s (fun u => ((u.tile t).strand (s.tile t).current).state = .free ∧
    (u.tile t).issued = 0 ∧ ((s.tile t).current = 0 → (u.tile t).loops = []) ∧
    (∀ m ∈ (u.tile t).rx, m.strand = some (s.tile t).current → m.released = true) ∧
    (∀ r, (u.tile t).reg r = (s.tile t).reg r) ∧ (u.tile t).scratch = (s.tile t).scratch ∧ OnlyTile s u t) := by
  have hi : exec (.end_ t) s = .next (seqRun t s (fun _ => .finish s)) := rfl
  have hu := State.tile_setTile s t (Tile.release { (s.tile t).stand .free (s.tile t).pc with
    issued := 0, loops := if (s.tile t).current = 0 then [] else (s.tile t).loops } (fun m => m.strand = some (s.tile t).current))
  refine ⟨_, hi.trans (congrArg _ (seqRun_finish h rfl)), ?_, ?_, fun h0 => ?_, fun m hm hs => ?_, fun r => ?_, ?_, onlyTile_setTile ..⟩
  · rw [hu]
    exact congrArg Strand.state (Tile.strand_stand ..)
  · rw [hu]
    rfl
  · rw [hu]
    exact if_pos h0
  · rw [hu] at hm
    exact release_released _ hm (decide_eq_true hs)
  · rw [hu]
    exact Tile.stand_reg ..
  · rw [hu]
    rfl

/-! ### TRAP -/

/-- What is looked up is listed. -/
theorem SMap.mem_of_look {α : Type} {m : SMap α} {a : Nat} {x : α} (h : m.look a = some x) : (a, x) ∈ m := by
  induction m with
  | nil => cases h
  | cons e m ih =>
    obtain ⟨k, v⟩ := e
    simp only [SMap.look] at h
    split at h
    · next hk =>
      cases h
      exact hk ▸ List.mem_cons_self
    · exact List.mem_cons_of_mem _ (ih h)

/-- A tile that no group names as a runtime tile holds no blocks of a collective. -/
theorem cflTileLost_none (hg : ∀ e ∈ s.cfl.groups, t ∉ e.2.d.tiles) (st : Status) : s.cflTileLost t st = s := by
  unfold State.cflTileLost
  extract_lets ids
  have hids : ids = [] := by
    rw [List.map_eq_nil_iff, List.filter_eq_nil_iff]
    intro r _
    rw [Bool.and_eq_true, not_and]
    intro _
    cases hgr : s.cflGroup r.group with
    | none => exact Bool.false_ne_true
    | some g =>
      have hno : g.d.tiles.idxOf? t = none := List.idxOf?_eq_none_iff.2 (hg _ (SMap.mem_of_look hgr))
      simp only [hno]
      exact Bool.false_ne_true
  rw [hids, List.foldl_nil]

/-- A fault of a tile that runs: what FAULT, FAULT_PC and FAULT_STRAND hold, and what halts with it (R102). -/
def Tile.faulted (x : Tile) (st : Status) (pc strand now by_ : Nat) : Tile :=
  { x with state := .halted, cmdHalt := false, fault := st.code, faultPc := pc % 8192, faultStrand := strand, loops := [], haltLoops := x.loops,
           haltAt := now, faultBy := by_ }

/-- A fault halts its tile, raises its notice, and then ends what the tile held blocks of. -/
theorem faultHalt_running (hr : (s.tile t).state = .running) (st : Status) (pc strand extra addr by_ : Nat) :
    ∃ v, s.faultHalt t st pc strand extra addr by_ = v.cflTileLost t st ∧
      Noted (s.setTile t ((s.tile t).faulted st pc strand s.now by_)) v := by
  refine ⟨(s.setTile t ((s.tile t).faulted st pc strand s.now by_)).notify .tileFault st (s.tile t).part (coord t)
    (pc % 8192 + put 23 13 strand + extra) (.region (tileRegion t)) addr, ?_, notify_noted ..⟩
  simp only [State.faultHalt, hr, decide_true, Bool.true_or, if_true]
  rfl

/-- An instruction of a strand that runs faults. -/
theorem faultsAs_seqRun {i : Instr} {f : Tile → SeqOut} {st : Status} {extra addr : Nat} (h : s.Falls t p ls)
    (hi : exec i s = .next (seqRun t s f)) (hf : f (s.tile t) = .fault s st extra addr) : FaultsAs i s t st (s.tile t).pc := by
  obtain ⟨v, hv, hn⟩ := faultHalt_running h.running st (s.tile t).pc (s.tile t).current extra addr 0
  have hgrid := hn.grid
  have ht : v.tile t = (s.tile t).faulted st (s.tile t).pc (s.tile t).current s.now 0 := by
    rw [State.tile, hgrid, ← State.tile, State.tile_setTile]
  have hcfl : v.cfl = s.cfl := by rw [hn.all, State.setTile_cfl]
  refine ⟨_, hi.trans (congrArg _ ((seqRun_fault h hf).trans hv)), v, rfl, fun hg => cflTileLost_none (hcfl ▸ hg) st, ?_⟩
  rw [ht]
  refine ⟨rfl, rfl, rfl, rfl, rfl, rfl, rfl, rfl, fun w hw => ?_⟩
  rw [State.tile, hgrid, ← State.tile, State.tile_setTile_other _ hw]

theorem trap_faults (h : s.Falls t p ls) {imm : Imm} (hi : imm.toNat < 65536) : FaultsAs (.trap t imm) s t .userTrap (s.tile t).pc :=
  faultsAs_seqRun h rfl (if_pos (decide_eq_true hi))


end

/-- Settles O10, instruction by instruction: what each makes of the sequencer, and what its tile keeps. -/
theorem strandInstructions : Obligations.StrandInstructions := by
  unfold Obligations.StrandInstructions
  intro s t p ls imm h
  exact ⟨nop_yields h, end_yields h, yield_yields h, rxrel_yields h, trap_faults h, wrreg_seed_yields h⟩

end Sys2Proof.Machine
end

section
namespace Sys2Proof.Machine

/-! ## Messages (R85 to R88) -/

/-! ### The receive ring -/

/-- Writing the lines of a message touches the scratchpad and its check bits and nothing else. -/
theorem Tile.writeLines_shape (x : Tile) (h k : Nat) (ls : List (List Byte)) : x.writeLines h k ls =
    { x with scratch := (x.writeLines h k ls).scratch, bad := (x.writeLines h k ls).bad, soft := (x.writeLines h k ls).soft } := by
  induction ls generalizing x k with
  | nil => rfl
  | cons l ls ih =>
    rw [Tile.writeLines, ih]
    rfl

theorem Tile.receive_rx (x : Tile) (m : MeshMsg) :
    (x.receive m).rx = x.rx ++ [{ line := x.rxWrite, lines := m.len + 1, handler := m.handler }] := by
  simp only [Tile.receive]
  rw [Tile.writeLines_shape]

theorem Tile.receive_port (x : Tile) (m : MeshMsg) : (x.receive m).port = x.port := by
  simp only [Tile.receive]
  rw [Tile.writeLines_shape]

theorem stir_grid (s : State) (p : Nat) : (s.stir p).grid = s.grid := rfl

section
variable {s : State} {t src : Nat}

/-- A message for which the ring has no room stays at the port. -/
theorem portWrite_full {m : MeshMsg} (h : (s.tile t).rxSize < (s.tile t).ringUsed + m.len + 1) :
    s.portWrite t m = s.setTile t { s.tile t with port := some m } := by
  simp only [State.portWrite, h, if_true]

/-- A message for which the ring has room is written into it. -/
theorem portWrite_room {m : MeshMsg} (h : (s.tile t).ringUsed + m.len + 1 ≤ (s.tile t).rxSize) :
    (s.portWrite t m).grid = (s.setTile t (Tile.receive { s.tile t with port := none, portWaits := [] } m)).grid := by
  simp only [State.portWrite, Nat.not_lt.2 h, if_false]
  split
  · exact stir_grid ..
  · rfl

/-- What the ring and the port of a tile hold when a message has been written, and what else has changed in the grid. -/
theorem portWrite_receives {m : MeshMsg} (h : (s.tile t).ringUsed + m.len + 1 ≤ (s.tile t).rxSize) :
    (s.portWrite t m).grid.mesh = s.grid.mesh ∧ ((s.portWrite t m).tile t).port = none ∧
    ((s.portWrite t m).tile t).rx = (s.tile t).rx ++ [{ line := (s.tile t).rxWrite, lines := m.len + 1, handler := m.handler }] ∧
    ((s.portWrite t m).tile t).rxWrite = ((s.tile t).rxWrite + (m.len + 1)) % (s.tile t).rxSize ∧
    ∀ v, v ≠ t → (s.portWrite t m).tile v = s.tile v := by
  have hg := portWrite_room h
  have ht : (s.portWrite t m).tile t = Tile.receive { s.tile t with port := none, portWaits := [] } m := by
    rw [State.tile, hg, ← State.tile, State.tile_setTile]
  refine ⟨by rw [hg, State.mesh_setTile], ?_, ?_, ?_, fun v hv => ?_⟩
  · rw [ht, Tile.receive_port]
  · rw [ht, Tile.receive_rx]
  · rw [ht]
    rfl
  · rw [State.tile, hg, ← State.tile, State.tile_setTile_other _ hv]

/-! ### Arrival -/

/-- The message is one of tile src for tile t. -/
def fromTile (t src : Nat) (m : MeshMsg) : Bool := !m.destGw && m.dest = coord t && m.src = coord src && m.srcGw = false

theorem exec_messageReceive (t src : Nat) (gw : Bool) (s : State) :
    exec (.messageReceive t src gw) s = .next (s.messageReceive t src gw) := rfl

/-- The state whose mesh holds other messages. -/
def State.withMesh (s : State) (ms : List MeshMsg) : State := { s with grid := { s.grid with mesh := ms } }

/-- A free port takes the first message of the source out of the mesh. -/
theorem messageReceive_mesh {m : MeshMsg} {rest : List MeshMsg} (hp : (s.tile t).port = none)
    (hm : takeFirst (fromTile t src) s.grid.mesh = some (m, rest)) :
    s.messageReceive t src false = (s.withMesh rest).portTake t m := by
  have hm' : takeFirst (fun m : MeshMsg => !m.destGw && m.dest = coord t && m.src = (if false then src else coord src) && m.srcGw = false)
    s.grid.mesh = some (m, rest) := hm
  simp only [State.messageReceive, hp, hm']
  rfl

/-- A message of the source that waits at the port is tried again. -/
theorem messageReceive_port {h : MeshMsg} (hp : (s.tile t).port = some h) (hf : fromTile t src h = true) :
    s.messageReceive t src false = s.portWrite t h := by
  have hf' : (!h.destGw && h.dest = coord t && h.src = (if false then src else coord src) && h.srcGw = false : Bool) = true := hf
  simp only [State.messageReceive, hp, hf', if_true]

/-- A message for a tile that does not run is dropped and counted (R85). -/
theorem portTake_stopped {m : MeshMsg} (hs : (s.tile t).state ≠ .running) :
    s.portTake t m = s.setTile t { s.tile t with rxDrop := (s.tile t).count (s.tile t).rxDrop 1 } := by
  simp only [State.portTake, hs, ne_eq, not_false_eq_true, if_true]

/-- A message of the partition of a tile that runs goes to the ring (R86). -/
theorem portTake_running {m : MeshMsg} (hs : (s.tile t).state = .running) (hp : (s.tile t).part = some m.part) :
    s.portTake t m = s.portWrite t m := by
  simp only [State.portTake, hs, hp, ne_eq, not_true_eq_false, if_false]

end

/-! ### Dispatch -/

/-- A word of the scratchpad at its alignment is one word of check bits (R76). -/
theorem wordsOf_word {a : Nat} (h : a % 8 = 0) : wordsOf a 8 = [a / 8 * 8] := by
  have h1 : (a + 8 - 1) / 8 - a / 8 + 1 = 1 := by omega
  simp only [wordsOf, h1, List.range_one, List.map_cons, List.map_nil]
  rfl

theorem Tile.fixSoft_shape (x : Tile) (ws : List Nat) :
    x.fixSoft ws = { x with soft := (x.fixSoft ws).soft, eccCorr := (x.fixSoft ws).eccCorr } := by
  simp only [Tile.fixSoft]
  split <;> rfl

/-- A read that meets no uncorrectable word gives the bytes. -/
theorem Tile.load_ok {x : Tile} {a n : Nat} (h : ∀ w ∈ wordsOf a n, w ∉ x.bad) :
    x.load a n = .ok (x.scratch.readN a n, x.fixSoft (wordsOf a n)) := by
  have hf : (wordsOf a n).find? (fun w => x.bad.contains w) = none := List.find?_eq_none.2 fun w hw => by simpa using h w hw
  simp only [Tile.load, hf]

/-- The strand that MESSAGE_DISPATCH starts for a message (R87). -/
def Tile.dispatched (x : Tile) (m : RxMsg) (h : Handler) : Strand :=
  { state := .runnable, pc := h.entry, handler := m.handler, g29 := BitVec.ofNat 64 (x.ringAddr m.line),
    g30 := x.scratch.word (x.ringAddr m.line), g31 := 0, wait := .none }

/-- A tile on which the strand n has been started for a message. -/
def Tile.dispatch (x : Tile) (n : Nat) (m : RxMsg) (h : Handler) : Tile :=
  let y := (x.fixSoft (wordsOf (x.ringAddr m.line) 8)).setStrand n (x.dispatched m h)
  { y with rx := adjFirst (fun z => z.strand.isNone && z.line = m.line) (fun z => { z with strand := some n }) y.rx }.saveCtx n

theorem Tile.strand_dispatch (x : Tile) (n : Nat) (m : RxMsg) (h : Handler) : (x.dispatch n m h).strand n = x.dispatched m h :=
  Tile.strand_setStrand ..

theorem Tile.dispatch_g (x : Tile) (n : Nat) (m : RxMsg) (h : Handler) : (x.dispatch n m h).g = x.g := by
  have hg := congrArg Tile.g (Tile.fixSoft_shape x (wordsOf (x.ringAddr m.line) 8))
  exact hg

section
variable {s : State} {t : Nat}

/-- The message at the head of the ring, whose handler may start a strand, starts the lowest free one. -/
theorem messageDispatch_starts {m : RxMsg} {n : Nat} {h : Handler} (hs : (s.tile t).state = .running) (hb : (s.tile t).atBoundary = false)
    (hm : (s.tile t).rx.find? (fun m => m.strand.isNone && !m.released) = some m) (hh : (s.tile t).handlers.lookD m.handler {} = h)
    (hv : h.valid = true) (hmax : (s.tile t).running m.handler < (if h.max = 0 then 2047 else h.max)) (hn : (s.tile t).freeStrand = some n)
    (hbad : (s.tile t).ringAddr m.line / 8 * 8 ∉ (s.tile t).bad) :
    s.messageDispatch t = s.setTile t ((s.tile t).dispatch n m h) := by
  have hal : (s.tile t).ringAddr m.line % 8 = 0 := by
    simp only [Tile.ringAddr]
    omega
  have hload := Tile.load_ok (x := s.tile t) (a := (s.tile t).ringAddr m.line) (n := 8) (by
    rw [wordsOf_word hal]
    exact List.forall_mem_singleton.2 hbad)
  have hmax' : ¬ (if h.max = 0 then 2047 else h.max) ≤ (s.tile t).running m.handler := Nat.not_le.2 hmax
  simp only [State.messageDispatch, hs, hb, hm, hh, hv, hmax', hn, hload, ne_eq, not_true_eq_false, decide_false, Bool.or_self,
    Bool.not_true, Bool.false_eq_true, if_false]
  rfl

theorem exec_messageDispatch (t : Nat) (s : State) : exec (.messageDispatch t) s = .next (s.messageDispatch t) := rfl

end

/-- Settles O20: the branches of MESSAGE_RECEIVE for a free port and for a message that waits, and the start of a strand. -/
theorem messages : Obligations.Messages := by
  unfold Obligations.Messages
  intro s t
  refine ⟨fun src m rest hp hm => ?arrives, fun src h hp hgw hdest hsrc hsgw hroom => ?waits,
    fun m n h hs hb hm hh hv hmax hn hbad => ?dispatch⟩
  case arrives =>
    have he := (exec_messageReceive t src false s).trans (congrArg _ (messageReceive_mesh hp hm))
    have run := fun hs hpart => he.trans (congrArg _ (portTake_running (s := s.withMesh rest) (m := m) hs hpart))
    refine ⟨fun hs => ⟨_, he.trans (congrArg _ (portTake_stopped hs)), rfl, State.tile_setTile .., fun v hv => State.tile_setTile_other _ hv _⟩,
      fun hs hpart hroom => ⟨_, run hs hpart, ?_⟩,
      fun hs hpart hfull => ⟨_, (run hs hpart).trans (congrArg _ (portWrite_full hfull)), rfl, State.tile_setTile ..,
        fun v hv => State.tile_setTile_other _ hv _⟩⟩
    obtain ⟨hmesh, -, hrx, hw, ho⟩ := portWrite_receives (s := s.withMesh rest) hroom
    exact ⟨hmesh, hrx, hw, ho⟩
  case waits =>
    have hf : fromTile t src h = true := by simp [fromTile, hgw, hdest, hsrc, hsgw]
    refine ⟨_, (exec_messageReceive t src false s).trans (congrArg _ (messageReceive_port hp hf)), ?_⟩
    exact portWrite_receives hroom
  case dispatch =>
    refine ⟨_, (exec_messageDispatch t s).trans (congrArg _ (messageDispatch_starts hs hb hm hh hv hmax hn hbad)), ?_, ?_, onlyTile_setTile ..⟩
    · rw [State.tile_setTile]
      exact Tile.strand_dispatch ..
    · rw [State.tile_setTile]
      exact Tile.dispatch_g ..

end Sys2Proof.Machine
end

section
namespace Sys2Proof.Machine

/-! ## Actions on tiles (R79, R101 to R105)

Reset, start, halt and resume change their own tile, and beside the grid, the clock and Confluence only; a set of tiles is acted on tile
by tile. -/

/-! ### What happens beside the tiles -/

/-- From s to u neither the grid, nor the clock, nor Confluence has changed. -/
structure Beside (s u : State) : Prop where
  grid : u.grid = s.grid
  now  : u.now = s.now
  cfl  : u.cfl = s.cfl

section
variable {s u v : State} {t : Nat}

theorem Beside.refl (s : State) : Beside s s := ⟨rfl, rfl, rfl⟩

theorem Beside.trans (h : Beside s u) (h' : Beside u v) : Beside s v :=
  ⟨h'.grid.trans h.grid, h'.now.trans h.now, h'.cfl.trans h.cfl⟩

theorem Beside.tile (h : Beside s u) (t : Nat) : u.tile t = s.tile t := by rw [State.tile, h.grid, State.tile]

theorem Beside.foldl {α : Type} {f : State → α → State} (hf : ∀ s a, Beside s (f s a)) (l : List α) (s : State) : Beside s (l.foldl f s) :=
  List.foldlRecOn (motive := Beside s) l f (Beside.refl s) fun _ h a _ => h.trans (hf _ a)

theorem Noted.beside (h : Noted s u) : Beside s u := ⟨h.grid, h.now, by rw [h.all]⟩

theorem stir_beside (s : State) (p : Nat) : Beside s (s.stir p) := ⟨rfl, rfl, rfl⟩

theorem setMer_beside (s : State) (m : Meridian) : Beside s (s.setMer m) := ⟨rfl, rfl, rfl⟩

theorem progress_beside (s : State) (opcode key : Nat) (st : Status) (result : List Word) : Beside s (s.progress opcode key st result) :=
  ⟨rfl, rfl, rfl⟩

theorem merSend_beside (s : State) (x : MerXfer) : Beside s (s.merSend x) := (Beside.foldl stir_beside _ s).trans (setMer_beside ..)

theorem merTileReset_beside (s : State) (t : Nat) : Beside s (s.merTileReset t) :=
  (setMer_beside ..).trans (Beside.foldl (fun s _ => merSend_beside s _) ..)

theorem powerOver_beside (s : State) (t : Nat) : Beside s (s.powerOver t) := by
  unfold State.powerOver
  split
  · exact progress_beside ..
  · exact Beside.refl s

/-- What a tile's partition, its Meridian registrations and its power changes see of an action on it. -/
theorem stirPower_beside (s : State) (t : Nat) : Beside s (((s.tile t).part.toList.foldl State.stir s).powerOver t) :=
  (Beside.foldl stir_beside ..).trans (powerOver_beside ..)

end

/-! ### Actions on one tile -/

/-- From s to u tile t has become f of what it was; no other tile, no column shift, not the clock and not Confluence has changed. -/
structure Acts (f : Tile → Tile) (s u : State) (t : Nat) : Prop where
  tile  : u.tile t = f (s.tile t)
  rest  : ∀ v, v ≠ t → u.tile v = s.tile v
  shift : u.grid.shift = s.grid.shift
  now   : u.now = s.now
  cfl   : u.cfl = s.cfl

section
variable {s v : State} {t : Nat} {f : Tile → Tile}

theorem Beside.acts (h : Beside s v) {x : Tile} (hx : x = f (s.tile t)) : Acts f s (v.setTile t x) t := by
  refine ⟨(State.tile_setTile ..).trans hx, fun w hw => ?_, ?_, h.now, h.cfl⟩
  · rw [State.tile_setTile_other _ hw, h.tile]
  · rw [State.shift_setTile, h.grid]

theorem Acts.beside {u : State} (h : Acts f s v t) (hb : Beside v u) : Acts f s u t :=
  ⟨(hb.tile t).trans h.tile, fun w hw => (hb.tile w).trans (h.rest w hw), (congrArg Grid.shift hb.grid).trans h.shift, hb.now.trans h.now,
    hb.cfl.trans h.cfl⟩

/-- An instruction that acts on a tile yields what follows from the tile's new state and the others' old ones. -/
theorem Acts.yields {r u : State} {i : Instr} {P : State → Prop} (h : Acts f s u t) (hi : exec i r = .next u)
    (hP : ∀ u : State, u.tile t = f (s.tile t) → (∀ v, v ≠ t → u.tile v = s.tile v) → P u) : Yields i r P :=
  ⟨u, hi, hP u h.tile h.rest⟩

/-- A reset of a tile that starts in this cycle (R103, R104, R441). -/
def Tile.resetFrom (now : Nat) (clear : Bool) (x : Tile) : Tile :=
  { x.cleared with
    state := .reset, clearing := clear || x.joining.isSome, power := .on, goal := none,
    resetAt := now + (if x.power = .retention then 64 else 0) + (if clear || x.joining.isSome then 1088 else 64) }

/-- A tile that has started or resumed, and one that a command halts where it runs (R79, R102). -/
def Tile.started (x : Tile) : Tile :=
  Tile.saveCtx { x.setStrand 0 { state := .runnable } with state := .running, current := 0, issued := 0, power := .on, goal := none } 0
def Tile.resumed (x : Tile) : Tile := { x with state := .running, cmdHalt := false, power := .on, goal := none }
def Tile.halted (now : Nat) (x : Tile) : Tile :=
  if x.state = .running then { x with state := .halted, cmdHalt := true, loops := [], haltLoops := x.loops, haltAt := now } else x

/-- A reset changes its tile only, where no group names the tile, should it run, as a runtime tile. -/
theorem tileReset_acts (hg : (s.tile t).state = .running → ∀ e ∈ s.cfl.groups, t ∉ e.2.d.tiles) (clear : Bool) :
    Acts (Tile.resetFrom s.now clear) s (s.tileReset t clear) t := by
  have hlost : (if (s.tile t).state = .running then s.cflTileLost t .aborted else s) = s := by
    split
    · next hr => exact cflTileLost_none (hg hr) _
    · rfl
  have hb : Beside s ((((s.tile t).part.toList.foldl State.stir s).merTileReset t).powerOver t) :=
    ((Beside.foldl stir_beside ..).trans (merTileReset_beside ..)).trans (powerOver_beside ..)
  unfold State.tileReset
  simp only [hlost]
  refine hb.acts ?_
  rw [hb.tile, hb.now]
  rfl

theorem tileStart_acts (s : State) (t : Nat) : Acts Tile.started s (s.tileStart t) t :=
  (stirPower_beside s t).acts (congrArg Tile.started ((stirPower_beside s t).tile t))

theorem tileResume_acts (s : State) (t : Nat) : Acts Tile.resumed s (s.tileResume t) t :=
  (stirPower_beside s t).acts (congrArg Tile.resumed ((stirPower_beside s t).tile t))

theorem commandHalt_acts (hg : ∀ e ∈ s.cfl.groups, t ∉ e.2.d.tiles) : Acts (Tile.halted s.now) s (s.commandHalt t) t := by
  by_cases hr : (s.tile t).state = .running
  · have he : s.commandHalt t = s.setTile t ((s.tile t).halted s.now) := by
      simp only [State.commandHalt, Tile.halted, hr, if_true]
      exact cflTileLost_none (s := s.setTile t _) hg _
    rw [he]
    exact (Beside.refl s).acts rfl
  · have he : s.commandHalt t = s := if_neg hr
    rw [he]
    exact ⟨(if_neg hr).symm, fun _ _ => rfl, rfl, rfl, rfl⟩

end

/-! ### Actions on a set of tiles -/

section
variable {s : State} {f : Tile → Tile} {act : State → Nat → State} {I : State → Prop} {ts : List Nat}

/-- Acting on a list of tiles, where what the action needs holds before each: a tile is acted on as often as it is listed. -/
theorem foldl_acts (h : I s) (hact : ∀ u, I u → ∀ t ∈ ts, Acts f u (act u t) t ∧ I (act u t)) (v : Nat) :
    (ts.foldl act s).tile v = f^[ts.count v] (s.tile v) := by
  induction ts generalizing s with
  | nil => rfl
  | cons t ts ih =>
    obtain ⟨ha, hI⟩ := hact s h t List.mem_cons_self
    rw [List.foldl_cons, ih hI fun u hu w hw => hact u hu w (List.mem_cons_of_mem _ hw)]
    by_cases hv : v = t
    · subst hv
      rw [ha.tile, List.count_cons_self, Function.iterate_succ_apply]
    · rw [ha.rest v hv, List.count_cons_of_ne (Ne.symm hv)]

/-- A tile that is not in the list stays as it was. -/
theorem iterate_count_other {v : Nat} (hv : v ∉ ts) (x : Tile) : f^[ts.count v] x = x := by
  rw [List.count_eq_zero_of_not_mem hv, Function.iterate_zero_apply]

/-- A tile of a set is acted on once. -/
theorem iterate_count_once (hn : ts.Nodup) {v : Nat} (hv : v ∈ ts) (x : Tile) : f^[ts.count v] x = f x := by
  rw [List.count_eq_one_of_mem hn hv, Function.iterate_one]

/-- A tile that may be listed more than once has what the action gives and keeps. -/
theorem iterate_count_mem {P : Tile → Prop} {v : Nat} (hv : v ∈ ts) {x : Tile} (h1 : P (f x)) (hk : ∀ x, P x → P (f x)) :
    P (f^[ts.count v] x) := by
  obtain ⟨n, hn⟩ := Nat.exists_eq_succ_of_ne_zero (Nat.ne_of_gt (List.count_pos_iff.2 hv))
  rw [hn, Function.iterate_succ_apply]
  exact Function.Iterate.rec P h1 hk n

/-- The clock and Confluence stand as they stood. -/
def SameClock (s u : State) : Prop := u.now = s.now ∧ u.cfl = s.cfl

theorem Acts.sameClock {u v : State} {t : Nat} (h : Acts f u v t) (hu : SameClock s u) : SameClock s v :=
  ⟨h.now.trans hu.1, h.cfl.trans hu.2⟩

end

end Sys2Proof.Machine
end

section
namespace Sys2Proof.Machine

/-! ## Writes to GRT_TILE_CTRL and to GRT_SR_SEED, and the end of a reset (R67, R103 to R107) -/

section
variable {s : State} {t : Nat} {value : Word}

/-! ### The acting bit -/

theorem tileCtrlReset_exec (h0 : value.toNat.testBit 0 = true) (hx : (s.tile t).resettable = true) :
    exec (.tileCtrlReset t value) s = .next (s.tileReset t (value.toNat.testBit 1)) := by
  have he : exec (.tileCtrlReset t value) s = .next (if bit value 0 then s.tileCtrl t value else s) := rfl
  simp only [he, State.tileCtrl, bit, h0, hx, if_true]

theorem tileCtrlHalt_exec (h0 : value.toNat.testBit 0 = false) (h2 : value.toNat.testBit 2 = true) (hx : (s.tile t).state = .running) :
    exec (.tileCtrlHalt t value) s = .next (s.commandHalt t) := by
  have he : exec (.tileCtrlHalt t value) s = .next (if bit value 2 && !bit value 0 then s.tileCtrl t value else s) := rfl
  simp only [he, State.tileCtrl, bit, h0, h2, hx, Bool.not_false, Bool.and_self, Bool.false_eq_true, if_true, if_false]

theorem tileCtrlResume_exec (h0 : value.toNat.testBit 0 = false) (h2 : value.toNat.testBit 2 = false) (h3 : value.toNat.testBit 3 = true)
    (hx : (s.tile t).state = .halted) (hc : (s.tile t).cmdHalt = true) : exec (.tileCtrlResume t value) s = .next (s.tileResume t) := by
  have he : exec (.tileCtrlResume t value) s = .next (if bit value 3 && !bit value 2 && !bit value 0 then s.tileCtrl t value else s) := rfl
  simp only [he, State.tileCtrl, bit, h0, h2, h3, hx, hc, Bool.not_false, Bool.and_self, decide_true, Bool.false_eq_true, if_true, if_false]

theorem tileCtrlStart_exec (h0 : value.toNat.testBit 0 = false) (h2 : value.toNat.testBit 2 = false) (h3 : value.toNat.testBit 3 = false)
    (h4 : value.toNat.testBit 4 = true) (hx : (s.tile t).startable = true) : exec (.tileCtrlStart t value) s = .next (s.tileStart t) := by
  have he : exec (.tileCtrlStart t value) s =
    .next (if bit value 4 && !bit value 3 && !bit value 2 && !bit value 0 then s.tileCtrl t value else s) := rfl
  simp only [he, State.tileCtrl, bit, h0, h2, h3, h4, hx, Bool.not_false, Bool.and_self, Bool.false_eq_true, if_true, if_false]

theorem Tile.started_strand (x : Tile) : x.started.strand 0 = { state := .runnable } := x.strand_setStrand ..

theorem resettable_of_ne {x : Tile} (ho : x.state ≠ .off) (hu : x.state ≠ .unavailable) : x.resettable = true := by
  simp only [Tile.resettable, ho, hu, ne_eq, not_false_eq_true, decide_true, Bool.and_self]

/-! ### The end of a reset -/

/-- A tile whose reset is complete: it is READY, of the partition that it joined (R103, R104). -/
def Tile.resetEnd (now : Nat) (x : Tile) : Tile :=
  let y := { x with state := .ready, cycle0 := now, clearing := false }
  let y := if x.clearing then { y with scratch := [], bad := [], soft := [] } else y
  match y.joining with
  | some p => { y with part := some p, lastPart := some p, joining := none }
  | none => y

/-- Which fields the end of a reset sets, and to what. -/
theorem Tile.resetEnd_fields (now : Nat) (x : Tile) : (x.resetEnd now).state = .ready ∧ (x.resetEnd now).bank = x.bank ∧
    (x.resetEnd now).cycle0 = now ∧ (x.resetEnd now).scratch = (if x.clearing then [] else x.scratch) ∧
    (x.resetEnd now).part = (if x.joining.isSome then x.joining else x.part) := by
  unfold Tile.resetEnd
  cases x.clearing <;> cases hj : x.joining <;> simp

theorem tileResetDone_acts (hs : (s.tile t).state = .reset) (hr : (s.tile t).resetAt ≤ s.now) :
    Acts (Tile.resetEnd s.now) s (s.tileResetDone t) t := by
  have hc : ((s.tile t).state = .reset && (s.tile t).resetAt ≤ s.now : Bool) = true := by simp [hs, hr]
  unfold State.tileResetDone
  simp only [hc, if_true]
  exact ((Beside.refl s).acts rfl).beside (Beside.foldl (fun s op => progress_beside s op t _ _) ..)

end

/-- Settles O29: the acting bit decides the action, and the action its tile. -/
theorem tileRegisterWrites : Obligations.TileRegisterWrites := by
  unfold Obligations.TileRegisterWrites
  intro s t value hg
  have hreset := fun (b : Bool) => tileReset_acts (s := s) (t := t) (fun _ => hg) b
  refine ⟨fun h0 ho hu => (hreset _).yields (tileCtrlReset_exec h0 (resettable_of_ne ho hu)) fun u hu ho => ?reset,
    fun h0 h2 hs => (commandHalt_acts hg).yields (tileCtrlHalt_exec h0 h2 hs) fun u hu ho => ⟨hu.trans (if_pos hs), ho⟩,
    fun h0 h2 h3 hs hc => (tileResume_acts s t).yields (tileCtrlResume_exec h0 h2 h3 hs hc) fun u hu ho => ⟨hu, ho⟩,
    fun h0 h2 h3 h4 hs => (tileStart_acts s t).yields (tileCtrlStart_exec h0 h2 h3 h4 hs) fun u hu ho => ?start,
    fun cc hs hr hcc => ?done, ⟨_, rfl, State.tile_onTile .., onlyTile_setTile ..⟩⟩
  case reset =>
    rw [hu]
    exact ⟨rfl, rfl, rfl, ho⟩
  case start =>
    rw [hu]
    exact ⟨rfl, Tile.started_strand _, rfl, rfl, ho⟩
  case done =>
    have hnow : (s.at cc).now = cc := max_eq_right hcc
    have ha := tileResetDone_acts (s := s.at cc) (t := t) hs (hnow.symm ▸ hr)
    obtain ⟨hstate, hbank, hcycle, hscr, hpart⟩ := Tile.resetEnd_fields cc (s.tile t)
    refine ha.yields rfl fun u hu ho => ?_
    rw [hu, hnow]
    exact ⟨hstate, hbank, hcycle, hscr, hpart, ho⟩

end Sys2Proof.Machine
end

section
namespace Sys2Proof.Machine

/-! ## The tile commands (R79, R101 to R105) -/

/-! ### Running a tile command -/

theorem badTiles_pass {tiles : List Nat} (h : ∀ t ∈ tiles, t < 1024) : badTiles tiles = (false, .badOperand) := by
  have hf : tiles.any (1024 ≤ ·) = false := List.any_eq_false.2 fun t ht => by simpa using h t ht
  rw [badTiles, hf]

/-- A source with the PF's rights may name any tile. -/
theorem tilesDenied_privileged (s : State) {k : Kci} (h : k.src.privileged = true) (tiles : List Nat) :
    s.tilesDenied k tiles = (false, .accessDenied) := by
  cases hs : k.src with
  | vf v => simp [hs, Source.privileged] at h
  | pf | mgmt => simp only [State.tilesDenied, hs]

section
variable {s : State} {k : Kci} {i : Instr} {opcode : Nat} {tiles : List Nat} {bad : Tile → Option Status} {act : State → Nat → State}
  {keys : List Nat} {f : Tile → Tile}

/-- Acting on the tiles of a command, from the state in which it has entered flight. -/
theorem foldl_acts_sameClock (hact : ∀ u, SameClock s u → ∀ t ∈ tiles, Acts f u (act u t) t) (v : Nat) :
    (tiles.foldl act (s.entered k opcode)).tile v = f^[tiles.count v] (s.tile v) :=
  foldl_acts (s := s.entered k opcode) (I := SameClock s) ⟨rfl, rfl⟩ (fun u hu t ht => ⟨hact u hu t ht, (hact u hu t ht).sameClock hu⟩) v

/-- The body of a tile command. -/
def tileBody (k : Kci) (tiles : List Nat) (bad : Tile → Option Status) (act : State → Nat → State) (keys : List Nat) (s : State) : KRes :=
  KRes.check s [badTiles tiles, s.tilesDenied k tiles] (fun _ =>
    match tiles.findSome? (fun t => bad (s.tile t)) with
    | some st => KRes.fail s st
    | none => { st := tiles.foldl act s, keys := keys })

theorem tileCommand_eq (opcode : Nat) (k : Kci) (tiles : List Nat) (s : State) (bad : Tile → Option Status) (act : State → Nat → State)
    (keys : List Nat) : tileCommand opcode k tiles s bad act keys =
      .next (kciRun opcode k s (tileBody k tiles bad act keys) (records := false) (regions := tileRegions tiles)) := rfl

theorem tileBody_acts (hk : k.src.privileged = true) (ht : ∀ t ∈ tiles, t < 1024) (hbad : ∀ t ∈ tiles, bad (s.tile t) = none) :
    tileBody k tiles bad act keys s = { st := tiles.foldl act s, keys := keys } := by
  have hnone : tiles.findSome? (fun t => bad (s.tile t)) = none := List.findSome?_eq_none_iff.2 hbad
  simp only [tileBody, badTiles_pass ht, tilesDenied_privileged s hk, KRes.check_false, hnone]
  rfl

theorem tileBody_turned (hk : k.src.privileged = true) (ht : ∀ t ∈ tiles, t < 1024) {st : Status}
    (hbad : tiles.findSome? (fun t => bad (s.tile t)) = some st) : tileBody k tiles bad act keys s = .fail s st := by
  simp only [tileBody, badTiles_pass ht, tilesDenied_privileged s hk, KRes.check_false, hbad]
  rfl

/-- A tile command that is valid on each tile, and waits for none, acts on each and is answered. -/
theorem tileCommand_answers (h : s.Open k) (hi : exec i s = tileCommand opcode k tiles s bad act []) (ht : ∀ t ∈ tiles, t < 1024)
    (hbad : ∀ t ∈ tiles, bad (s.tile t) = none) (hw : ∀ {u t}, KeepsWaiting (s.entered k opcode) u → KeepsWaiting (s.entered k opcode) (act u t))
    (hact : ∀ u, SameClock s u → ∀ t ∈ tiles, Acts f u (act u t) t) :
    Yields i s (fun u => (∀ v, u.tile v = f^[tiles.count v] (s.tile v)) ∧ u.Answered k opcode .ok []) :=
  h.leaves (hi.trans (tileCommand_eq ..)) (tileBody_acts (s := s.entered k opcode) h.priv ht hbad) ((KeepsWaiting.refl _).foldl fun _ _ => hw)
    fun _ hu ha => ⟨fun v => (hu.tile v).trans (foldl_acts_sameClock hact v), ha⟩

/-- The same for one that waits for the tiles. -/
theorem tileCommand_runs (h : s.Open k) (hi : exec i s = tileCommand opcode k tiles s bad act keys) (ht : ∀ t ∈ tiles, t < 1024)
    (hbad : ∀ t ∈ tiles, bad (s.tile t) = none) (hw : ∀ {u t}, KeepsWaiting (s.entered k opcode) u → KeepsWaiting (s.entered k opcode) (act u t))
    (hkeys : keys ≠ []) (hact : ∀ u, SameClock s u → ∀ t ∈ tiles, Acts f u (act u t) t) :
    Yields i s (fun u => (∀ v, u.tile v = f^[tiles.count v] (s.tile v)) ∧ u.Running k opcode keys) :=
  h.runs (hi.trans (tileCommand_eq ..)) (tileBody_acts (s := s.entered k opcode) h.priv ht hbad) ((KeepsWaiting.refl _).foldl fun _ _ => hw) hkeys rfl
    fun _ hu ha => ⟨fun v => (hu.tile v).trans (foldl_acts_sameClock hact v), ha⟩

/-- A tile command that is not valid on some tile touches none, and records no setting (R101, R105, R521). -/
theorem tileCommand_turned (h : s.Open k) (hi : exec i s = tileCommand opcode k tiles s bad act keys) (ht : ∀ t ∈ tiles, t < 1024)
    {st : Status} (hbad : tiles.findSome? (fun t => bad (s.tile t)) = some st) :
    Yields i s (fun u => u.Follows s ∧ u.cmp.config = s.cmp.config ∧ u.Answered k opcode st []) := by
  have hb : tileBody k tiles bad act keys (s.entered k opcode) = .fail (s.entered k opcode) st := tileBody_turned h.priv ht hbad
  refine h.yields (hi.trans (tileCommand_eq ..)) hb fun u hu he => ⟨hu.trans (entered_follows ..), ?_, ?_⟩
  · rw [he]
    rfl
  · rw [he]
    exact kciEnd_answered (entered_has ..) rfl

/-- The status that turns a tile command away, where there is only one. -/
theorem findSome_only {t : Nat} {st : Status} (ht : t ∈ tiles) (h : bad (s.tile t) = some st)
    (hall : ∀ x, bad x = none ∨ bad x = some st) : tiles.findSome? (fun t => bad (s.tile t)) = some st := by
  have hsome : (tiles.findSome? fun t => bad (s.tile t)).isSome := List.findSome?_isSome_iff.2 ⟨t, ht, by simp [h]⟩
  obtain ⟨st', hst'⟩ := Option.isSome_iff_exists.1 hsome
  obtain ⟨v, -, hv⟩ := List.exists_of_findSome?_eq_some hst'
  rcases hall (s.tile v) with h0 | h0
  · cases h0.symm.trans hv
  · rw [hst', ← hv, h0]

end

/-! ### The commands -/

theorem KeepsWaiting.stirPower {o s : State} {t} (h : KeepsWaiting o s) :
    KeepsWaiting o (((s.tile t).part.toList.foldl State.stir s).powerOver t) := .powerOver (h.foldl fun _ _ h => h.withMer)

theorem KeepsWaiting.tileStart {o s : State} {t} (h : KeepsWaiting o s) : KeepsWaiting o (s.tileStart t) := h.stirPower.withGrid

theorem KeepsWaiting.tileResume {o s : State} {t} (h : KeepsWaiting o s) : KeepsWaiting o (s.tileResume t) := h.stirPower.withGrid

section
variable {s : State} {k : Kci} {tiles : List Nat}

/-! What the commands refuse. -/

def Tile.resetBad (x : Tile) : Option Status := if x.resettable then none else some .tileState
def Tile.startBad (x : Tile) : Option Status := if x.startable then none else some .tileState
def Tile.haltBad (x : Tile) : Option Status := if x.state = .running then none else some .tileState
def Tile.resumeBad (x : Tile) : Option Status :=
  if x.state = .halted then (if x.cmdHalt then none else some .tileFaulted) else some .tileState

theorem exec_tileReset (clear : Bool) : exec (.tileReset k tiles clear) s =
    tileCommand 0x0501 k tiles s Tile.resetBad (fun s t => s.tileReset t clear) tiles := rfl

theorem exec_tileStart : exec (.tileStart k tiles) s = tileCommand 0x0502 k tiles s Tile.startBad State.tileStart [] := rfl

theorem exec_tileHalt : exec (.tileHalt k tiles) s = tileCommand 0x0503 k tiles s Tile.haltBad State.commandHalt [] := rfl

theorem exec_tileResume : exec (.tileResume k tiles) s = tileCommand 0x0504 k tiles s Tile.resumeBad State.tileResume [] := rfl

/-! What the commands leave. -/

/-- The tiles named are no runtime tiles of a group. -/
def State.NoRuntime (s : State) (tiles : List Nat) : Prop := ∀ e ∈ s.cfl.groups, ∀ t ∈ tiles, t ∉ e.2.d.tiles

theorem SameClock.noRuntime {u : State} (h : SameClock s u) (hg : s.NoRuntime tiles) {t : Nat} (ht : t ∈ tiles) :
    ∀ e ∈ u.cfl.groups, t ∉ e.2.d.tiles := by
  rw [h.2]
  exact fun e he => hg e he t ht

theorem tileReset_runs (h : s.Open k) (ht : ∀ t ∈ tiles, t < 1024) (hg : s.NoRuntime tiles) (clear : Bool) (hne : tiles ≠ [])
    (hs : ∀ t ∈ tiles, (s.tile t).resettable = true) : Yields (.tileReset k tiles clear) s (fun u =>
      (∀ v, u.tile v = (Tile.resetFrom s.now clear)^[tiles.count v] (s.tile v)) ∧ u.Running k 0x0501 tiles) := by
  refine tileCommand_runs h (exec_tileReset clear) ht (fun t hm => if_pos (hs t hm)) (fun hw => hw.tileReset) hne fun u hu t hm => ?_
  rw [← hu.1]
  exact tileReset_acts (fun _ => hu.noRuntime hg hm) clear

theorem tileStart_answers (h : s.Open k) (ht : ∀ t ∈ tiles, t < 1024) (hs : ∀ t ∈ tiles, (s.tile t).startable = true) :
    Yields (.tileStart k tiles) s (fun u => (∀ v, u.tile v = Tile.started^[tiles.count v] (s.tile v)) ∧ u.Answered k 0x0502 .ok []) :=
  tileCommand_answers h exec_tileStart ht (fun t hm => if_pos (hs t hm)) (fun hw => hw.tileStart) fun u _ t _ => tileStart_acts u t

theorem tileHalt_answers (h : s.Open k) (ht : ∀ t ∈ tiles, t < 1024) (hg : s.NoRuntime tiles) (hs : ∀ t ∈ tiles, (s.tile t).state = .running) :
    Yields (.tileHalt k tiles) s (fun u => (∀ v, u.tile v = (Tile.halted s.now)^[tiles.count v] (s.tile v)) ∧ u.Answered k 0x0503 .ok []) := by
  refine tileCommand_answers h exec_tileHalt ht (fun t hm => if_pos (hs t hm)) (fun hw => hw.commandHalt) fun u hu t hm => ?_
  rw [← hu.1]
  exact commandHalt_acts (hu.noRuntime hg hm)

theorem tileResume_answers (h : s.Open k) (ht : ∀ t ∈ tiles, t < 1024)
    (hs : ∀ t ∈ tiles, (s.tile t).state = .halted ∧ (s.tile t).cmdHalt = true) :
    Yields (.tileResume k tiles) s (fun u => (∀ v, u.tile v = Tile.resumed^[tiles.count v] (s.tile v)) ∧ u.Answered k 0x0504 .ok []) :=
  tileCommand_answers h exec_tileResume ht (fun t hm => (if_pos (hs t hm).1).trans (if_pos (hs t hm).2)) (fun hw => hw.tileResume)
    fun u _ t _ => tileResume_acts u t

theorem tileStatus_answers (h : s.Open k) (ht : ∀ t ∈ tiles, t < 1024) : Yields (.tileStatus k tiles) s (fun u =>
    u.Follows s ∧ u.Answered k 0x0505 .ok (tiles.map (fun t => (s.tile t).statusWord))) := by
  refine h.answers (r := { st := s.entered k 0x0505, result := tiles.map (fun t => (s.tile t).statusWord) }) rfl ?_ (.refl _) rfl
    fun u hu ha => ⟨hu.trans (entered_follows ..), ha⟩
  simp only [badTiles_pass ht, tilesDenied_privileged _ h.priv, KRes.check_false]
  rfl

end

/-- Settles O28: where the command is valid on each tile, each is acted on; where it is not valid on one, none is. -/
theorem tileCommands : Obligations.TileCommands := by
  unfold Obligations.TileCommands
  refine ⟨fun s k tiles h ht hg => ⟨fun clear hne hn hs => ?reset, fun hs => ?start, fun hn hs => ?halt, fun hs => ?resume, tileStatus_answers h ht⟩,
    fun s k tiles t h ht hm => ⟨fun clear hs => ?resetBad, fun hs => ?startBad, fun hs => ?haltBad, fun he hs hc => ?resumeFaulted,
      fun he hs => ?resumeBad⟩⟩
  case reset =>
    refine (tileReset_runs h ht hg clear hne fun t hm => resettable_of_ne (hs t hm).1 (hs t hm).2).mono fun u ⟨hu, hr⟩ =>
      ⟨fun t hm => ?_, fun v hv => (hu v).trans (iterate_count_other hv _), hr⟩
    rw [hu t, iterate_count_once hn hm]
    exact ⟨rfl, rfl, rfl, rfl, rfl, rfl, rfl, rfl⟩
  case start =>
    refine (tileStart_answers h ht hs).mono fun u ⟨hu, ha⟩ => ⟨fun t hm => ?_, fun v hv => (hu v).trans (iterate_count_other hv _), ha⟩
    rw [hu t]
    exact iterate_count_mem (P := fun x => x.state = .running ∧ x.current = 0 ∧ x.strand 0 = { state := .runnable } ∧ x.g = (s.tile t).g) hm
      ⟨rfl, rfl, Tile.started_strand _, rfl⟩ fun x ⟨_, _, _, hg⟩ => ⟨rfl, rfl, Tile.started_strand x, hg⟩
  case halt =>
    refine (tileHalt_answers h ht hg hs).mono fun u ⟨hu, ha⟩ => ⟨fun t hm => ?_, fun v hv => (hu v).trans (iterate_count_other hv _), ha⟩
    rw [hu t, iterate_count_once hn hm]
    exact if_pos (hs t hm)
  case resume =>
    refine (tileResume_answers h ht hs).mono fun u ⟨hu, ha⟩ => ⟨fun t hm => ?_, fun v hv => (hu v).trans (iterate_count_other hv _), ha⟩
    rw [hu t]
    exact iterate_count_mem (P := fun x => x = (s.tile t).resumed) hm rfl fun x hx => by rw [hx]; rfl
  case resetBad =>
    have hr : (s.tile t).resettable = false := by simp [Tile.resettable, hs]
    exact tileCommand_turned h (exec_tileReset clear) ht (findSome_only hm (if_neg (by simp [hr])) fun x => ite_eq_or_eq ..)
  case startBad =>
    have hr : (s.tile t).startable = false := by simp [Tile.startable, hs]
    exact tileCommand_turned h exec_tileStart ht (findSome_only hm (if_neg (by simp [hr])) fun x => ite_eq_or_eq ..)
  case haltBad => exact tileCommand_turned h exec_tileHalt ht (findSome_only hm (if_neg hs) fun x => ite_eq_or_eq ..)
  case resumeFaulted =>
    have hr : (s.tile t).resumeBad = some .tileFaulted := by simp [Tile.resumeBad, hs, hc]
    exact tileCommand_turned h exec_tileResume ht (by simp [he, hr])
  case resumeBad =>
    have hr : (s.tile t).resumeBad = some .tileState := if_neg hs
    exact tileCommand_turned h exec_tileResume ht (by simp [he, hr])

end Sys2Proof.Machine
end

section
namespace Sys2Proof.Machine

/-! ## Bytes, words and the ranges of a memory (R11) -/

theorem ofLe_lt (bs : List Byte) : ofLe bs < 256 ^ bs.length := by
  induction bs with
  | nil => exact Nat.one_pos
  | cons b bs ih =>
    have hb : b.toNat < 256 := b.isLt
    simp only [ofLe, List.length_cons, pow_succ]
    omega

/-- The bytes of the number that bytes spell. -/
theorem leBytes_ofLe (bs : List Byte) : leBytes bs.length (ofLe bs) = bs := by
  induction bs with
  | nil => rfl
  | cons b bs ih =>
    have hb : b.toNat < 256 := b.isLt
    have hlow : BitVec.ofNat 8 (b.toNat + 256 * ofLe bs) = b := BitVec.eq_of_toNat_eq (by simpa using hb)
    have hhigh : (b.toNat + 256 * ofLe bs) / 256 = ofLe bs := by omega
    rw [List.length_cons, ofLe, leBytes, hlow, hhigh, ih]

/-- Eight bytes as a word, and back. -/
theorem leBytes_wd {bs : List Byte} (h : bs.length = 8) : leBytes 8 (wd (ofLe bs)).toNat = bs := by
  have hlt : ofLe bs < 2 ^ 64 := by
    have := ofLe_lt bs
    rwa [h] at this
  rw [wd, BitVec.toNat_ofNat, Nat.mod_eq_of_lt hlt, ← h, leBytes_ofLe]

theorem wordBytes_leWords {n : Nat} {bs : List Byte} (h : bs.length = 8 * n) : wordBytes (leWords n bs) = bs := by
  induction n generalizing bs with
  | zero => exact (List.eq_nil_of_length_eq_zero h).symm
  | succ n ih =>
    have htake : leBytes 8 (wd (ofLe (bs.take 8))).toNat = bs.take 8 := leBytes_wd (by rw [List.length_take]; omega)
    have hdrop : wordBytes (leWords n (bs.drop 8)) = bs.drop 8 := ih (by rw [List.length_drop]; omega)
    rw [leWords, wordBytes, List.flatMap_cons, ← wordBytes, htake, hdrop, List.take_append_drop]

theorem wordBytes_length (ws : List Word) : (wordBytes ws).length = 8 * ws.length := by
  induction ws with
  | nil => rfl
  | cons w ws ih => rw [wordBytes, List.flatMap_cons, ← wordBytes, List.length_append, leBytes_length, ih, List.length_cons]; omega

theorem leWords_length (n : Nat) (bs : List Byte) : (leWords n bs).length = n := by
  induction n generalizing bs with
  | zero => rfl
  | succ n ih => rw [leWords, List.length_cons, ih]

/-- A word of a byte string is spelled by its own eight bytes. -/
theorem nth_leWords {n i : Nat} (h : i < n) (bs : List Byte) : nth (leWords n bs) i 0 = wd (ofLe ((bs.drop (8 * i)).take 8)) := by
  induction n generalizing i bs with
  | zero => omega
  | succ n ih =>
    cases i with
    | zero => rfl
    | succ i =>
      have hd : (bs.drop 8).drop (8 * i) = bs.drop (8 * (i + 1)) := by rw [List.drop_drop, Nat.mul_succ, Nat.add_comm]
      rw [← hd, ← ih (Nat.lt_of_succ_lt_succ h)]
      rfl

theorem Memory.getElem_readN (m : Memory) (a n i : Nat) (h : i < (m.readN a n).length) : (m.readN a n)[i] = m.read (a + i) := by
  induction n generalizing a i with
  | zero => simp [Memory.readN] at h
  | succ n ih =>
    cases i with
    | zero => rfl
    | succ i =>
      simp only [Memory.readN, List.getElem_cons_succ]
      rw [ih, Nat.add_assoc, Nat.add_comm 1 i]

/-- A word within a range that is read is the memory's word there. -/
theorem Memory.word_readN (m : Memory) (a : Nat) {n i : Nat} (h : 8 * i + 8 ≤ n) :
    wd (ofLe (((m.readN a n).drop (8 * i)).take 8)) = m.word (a + 8 * i) := by
  obtain ⟨r, rfl⟩ := Nat.exists_eq_add_of_le h
  have hlen : (m.readN a (8 * i)).length = 8 * i := Memory.readN_length ..
  have hlen8 : (m.readN (a + 8 * i) 8).length = 8 := Memory.readN_length ..
  rw [Nat.add_assoc, Memory.readN_add, Memory.readN_add, List.drop_left' hlen, List.take_left' hlen8]
  rfl

/-- What a memory holds after a range has been put into it. -/
theorem SMap.lookD_foldl_put {α : Type} (m : SMap α) (base n : Nat) (w : Nat → α) (a : Nat) (d : α) :
    ((List.range n).foldl (fun (m : SMap α) i => m.put (base + i) (w i)) m).lookD a d =
      if base ≤ a ∧ a < base + n then w (a - base) else m.lookD a d := by
  induction n with
  | zero => rw [if_neg (by omega)]; rfl
  | succ n ih =>
    rw [List.range_succ, List.foldl_append, List.foldl_cons, List.foldl_nil, SMap.lookD_put, ih]
    by_cases ha : a = base + n
    · rw [if_pos ha, if_pos (by omega), ha, Nat.add_sub_cancel_left]
    · rw [if_neg ha]
      exact if_congr (by omega) rfl rfl

/-! ## Instruction banks (R151, R154) -/

theorem Tile.imemWords_length (x : Tile) (bank first n : Nat) : (x.imemWords bank first n).length = n := by
  rw [Tile.imemWords, List.length_map, List.length_range]

/-- The bytes of a bank that a load of bytes from an offset on leaves in the words that it touches. -/
def Tile.mixed (x : Tile) (bank offset : Nat) (bs : List Byte) : List Byte :=
  let old := wordBytes (x.imemWords bank (offset / 8) (ceilDiv (offset % 8 + bs.length) 8))
  old.take (offset % 8) ++ bs ++ old.drop (offset % 8 + bs.length)

section
variable {x : Tile} {bank offset : Nat} {bs : List Byte}

theorem mixed_length : (x.mixed bank offset bs).length = 8 * ceilDiv (offset % 8 + bs.length) 8 := by
  simp only [Tile.mixed, List.length_append, List.length_take, List.length_drop, wordBytes_length, Tile.imemWords_length, ceilDiv]
  omega

/-- The bytes that a load writes stand where it writes them. -/
theorem mixed_bytes : ((x.mixed bank offset bs).drop (offset % 8)).take bs.length = bs := by
  have hlen : (wordBytes (x.imemWords bank (offset / 8) (ceilDiv (offset % 8 + bs.length) 8))).length =
    8 * ceilDiv (offset % 8 + bs.length) 8 := by rw [wordBytes_length, Tile.imemWords_length]
  simp only [Tile.mixed, List.append_assoc]
  rw [List.drop_left' (by rw [List.length_take, hlen, ceilDiv]; omega), List.take_left' rfl]

/-- The words of a bank after a load. -/
theorem putImem_lookD (a : Nat) : (x.putImem bank offset bs).imem.lookD a 0 =
    if 8192 * bank + offset / 8 ≤ a ∧ a < 8192 * bank + offset / 8 + ceilDiv (offset % 8 + bs.length) 8 then
      nth (leWords (ceilDiv (offset % 8 + bs.length) 8) (x.mixed bank offset bs)) (a - (8192 * bank + offset / 8)) 0
    else x.imem.lookD a 0 := SMap.lookD_foldl_put ..

theorem putImem_words : (x.putImem bank offset bs).imemWords bank (offset / 8) (ceilDiv (offset % 8 + bs.length) 8) =
    leWords (ceilDiv (offset % 8 + bs.length) 8) (x.mixed bank offset bs) := by
  refine List.ext_getElem (by rw [Tile.imemWords_length, leWords_length]) fun i h1 h2 => ?_
  rw [Tile.imemWords_length] at h1
  simp only [Tile.imemWords, List.getElem_map, List.getElem_range]
  rw [putImem_lookD, if_pos (by omega), Nat.add_sub_cancel_left, nth, List.getElem?_eq_getElem h2, Option.getD_some]

/-- A load of bytes reads back. -/
theorem putImem_imemBytes : (x.putImem bank offset bs).imemBytes bank offset bs.length = bs := by
  rw [Tile.imemBytes, putImem_words, wordBytes_leWords mixed_length, mixed_bytes]

/-- A load leaves the words that it does not touch. -/
theorem putImem_other {a : Nat} (h : a < 8192 * bank + offset / 8 ∨ 8192 * bank + ceilDiv (offset + bs.length) 8 ≤ a) :
    (x.putImem bank offset bs).imem.lookD a 0 = x.imem.lookD a 0 := by
  rw [putImem_lookD, if_neg]
  simp only [ceilDiv] at h ⊢
  omega

/-- A load of whole words puts each where it belongs. -/
theorem putImem_aligned {i : Nat} (ho : offset % 8 = 0) (hi : 8 * i + 8 ≤ bs.length) :
    (x.putImem bank offset bs).imem.lookD (8192 * bank + offset / 8 + i) 0 = wd (ofLe ((bs.drop (8 * i)).take 8)) := by
  have hn : i < ceilDiv (offset % 8 + bs.length) 8 := by
    rw [ceilDiv]
    omega
  rw [putImem_lookD, if_pos (by omega), Nat.add_sub_cancel_left, nth_leWords hn]
  simp only [Tile.mixed, ho, List.take_zero, List.nil_append, Nat.zero_add]
  rw [List.drop_append_of_le_length (by omega), List.take_append_of_le_length (by rw [List.length_drop]; omega)]

/-- Whole words of a bank as bytes. -/
theorem imemBytes_aligned {len : Nat} (ho : offset % 8 = 0) (hl : len % 8 = 0) : x.imemBytes bank offset len =
    wordBytes ((List.range (len / 8)).map (fun i => x.imem.lookD (8192 * bank + offset / 8 + i) 0)) := by
  have hn : ceilDiv (offset % 8 + len) 8 = len / 8 := by
    rw [ceilDiv]
    omega
  rw [Tile.imemBytes, hn, ho, List.drop_zero, List.take_of_length_le]
  · rfl
  · rw [wordBytes_length, Tile.imemWords_length]
    omega

end

end Sys2Proof.Machine
end

section
namespace Sys2Proof.Machine

/-! ## Commands on instruction banks (R151 to R154) -/

section
variable {s : State} {k : Kci} {tiles : List Nat}

/-! ### Checks and tile sets -/

theorem setStatus_none {f : Tile → Option Status} (h : ∀ t ∈ tiles, f (s.tile t) = none) : s.setStatus tiles f = none := by
  have hnil : tiles.filterMap (fun t => f (s.tile t)) = [] := List.filterMap_eq_nil_iff.2 h
  rw [State.setStatus, hnil]
  rfl

/-- Checks that a command on tiles passes, for a source with the PF's rights. -/
theorem tileChecks_pass (hk : k.src.privileged = true) (ht : ∀ t ∈ tiles, t < 1024) {c : Bool} {st : Status} (hc : c = false) :
    ∀ x ∈ [badTiles tiles, s.tilesDenied k tiles, (c, st)], x.1 = false := by
  simp [badTiles_pass ht, tilesDenied_privileged s hk, hc]

/-- One change of each tile of a list. -/
def State.onTiles (s : State) (ts : List Nat) (f : Tile → Tile) : State := ts.foldl (fun s t => s.onTile t f) s

theorem onTiles_tile (s : State) (ts : List Nat) (f : Tile → Tile) (v : Nat) : (s.onTiles ts f).tile v = f^[ts.count v] (s.tile v) :=
  foldl_acts (I := fun _ => True) trivial (fun _ _ _ _ => ⟨(Beside.refl _).acts rfl, trivial⟩) v

theorem KeepsWaiting.onTiles {o s : State} {ts f} (h : KeepsWaiting o s) : KeepsWaiting o (s.onTiles ts f) := .foldl h fun _ _ h => h.withGrid

/-! ### IMEM_LOAD -/

/-- A tile whose bank is being loaded with bytes. -/
def Tile.loaded (bank offset : Nat) (bs : List Byte) (x : Tile) : Tile := { x.putImem bank offset bs with loading := some bank }

theorem imemLoad_runs (h : s.Open k) (ht : ∀ t ∈ tiles, t < 1024) {bank a offset len : Nat} (hb : bank < 2) (ho : offset + len ≤ 65536)
    (hl : len % 8 = 0) (hne : tiles ≠ []) (hs : ∀ t ∈ tiles, (s.tile t).loadBad bank = none) :
    Yields (.imemLoad k tiles bank (.host a) offset len) s (fun u =>
      (∀ v, u.tile v = (Tile.loaded bank offset (s.hostRead k.src.fnIdx a len))^[tiles.count v] (s.tile v)) ∧ u.Running k 0x0508 tiles) := by
  have hst : (s.entered k 0x0508).setStatus tiles (·.loadBad bank) = none := setStatus_none hs
  refine h.runs (r := {
      st := (s.entered k 0x0508).onTiles tiles (Tile.loaded bank offset (s.hostRead k.src.fnIdx a len))
      keys := tiles
      cont := pieces 32 4 (tileMask tiles) ++ digestBlocks (shake256 (s.hostRead k.src.fnIdx a len)) })
    rfl ?_ (KeepsWaiting.refl _).onTiles hne rfl fun u hu hr => ⟨fun v => (hu.tile v).trans (onTiles_tile ..), hr⟩
  refine (KRes.check_pass _ _ (tileChecks_pass h.priv ht ?_)).trans ?_
  · simp [hl]
    omega
  · simp only [hst]
    rfl

/-- What a load leaves in a tile, whatever it held; the second tile is one that agrees with it outside of what is loaded. -/
structure LoadedFrom (bank offset : Nat) (bs : List Byte) (x y : Tile) : Prop where
  bytes   : y.imemBytes bank offset bs.length = bs
  loading : y.loading = some bank
  other   : ∀ i, i < 8192 * bank + offset / 8 ∨ 8192 * bank + ceilDiv (offset + bs.length) 8 ≤ i → y.imem.lookD i 0 = x.imem.lookD i 0
  words   : offset % 8 = 0 → ∀ i, 8 * i + 8 ≤ bs.length →
    y.imem.lookD (8192 * bank + offset / 8 + i) 0 = wd (ofLe ((bs.drop (8 * i)).take 8))
  scratch : y.scratch = x.scratch

theorem loaded_loadedFrom (bank offset : Nat) (bs : List Byte) (x : Tile) : LoadedFrom bank offset bs x (x.loaded bank offset bs) :=
  ⟨putImem_imemBytes, rfl, fun _ h => putImem_other h, fun ho _ h => putImem_aligned ho h, rfl⟩

theorem LoadedFrom.again {bank offset : Nat} {bs : List Byte} {x y : Tile} (h : LoadedFrom bank offset bs x y) :
    LoadedFrom bank offset bs x (y.loaded bank offset bs) :=
  { loaded_loadedFrom bank offset bs y with
    other   := fun i hi => ((loaded_loadedFrom bank offset bs y).other i hi).trans (h.other i hi)
    scratch := h.scratch }

/-! ### IMEM_READ -/

theorem imemRead_answers (h : s.Open k) {t bank offset len : Nat} (dest : Nat) (ht : t < 1024) (hb : bank < 2) (ho : offset + len ≤ 65536) :
    Yields (.imemRead k t bank dest offset len) s (fun u =>
      u.hostMem k.src.fnIdx = (s.hostMem k.src.fnIdx).writeN dest ((s.tile t).imemBytes bank offset len) ∧ u.grid = s.grid ∧
      u.Answered k 0x050A .ok []) := by
  refine h.leaves (t := (s.entered k 0x050A).putHost k dest ((s.tile t).imemBytes bank offset len)) rfl ?_ (.refl _)
    fun u hu ha => ⟨?_, hu.grid, ha⟩
  · refine KRes.check_pass _ _ (tileChecks_pass h.priv (List.forall_mem_singleton.2 ht) ?_)
    simp
    omega
  · rw [hu.hostMem, State.putHost, State.hostMem_hostWrite]
    rfl

/-! ### IMEM_SWAP -/

/-- A swap that is armed takes place at once on a READY tile, and later on another one (R152). -/
def Tile.swapArmed (x : Tile) : Tile := if x.state = .ready then x.swapNow none else { x with armed := true, table := none }

theorem itinCommand_noted (s : State) (code : Nat) (part : Option Nat) (src : Nat) (st : Status) (ws : List Word) (conts : List (List Byte)) :
    Noted s (s.itinCommand code part src st ws conts) := itinAppend_noted ..

/-- A swap without a handler table: the tiles, but for records, and the continuations of its own record. -/
theorem imemSwap_arms (s : State) (k : Kci) (tiles : List Nat) : ∃ u c, s.imemSwap k tiles true none = { st := u, cont := c } ∧
    Noted (s.onTiles tiles Tile.swapArmed) u := by
  unfold State.imemSwap
  extract_lets ws act to_ st
  have hst : st = s.onTiles tiles Tile.swapArmed := rfl
  rw [← hst]
  split
  · exact ⟨st, [], rfl, .refl _⟩
  · exact ⟨st, _, rfl, .refl _⟩
  · exact ⟨st, _, rfl, .refl _⟩
  · exact ⟨_, _, rfl, itinCommand_noted ..⟩

theorem imemSwap_answers (h : s.Open k) (ht : ∀ t ∈ tiles, t < 1024)
    (hs : ∀ t ∈ tiles, (s.tile t).state = .ready ∨ (s.tile t).state = .running ∨ (s.tile t).state = .halted) :
    Yields (.imemSwap k tiles true none) s (fun u =>
      (∀ v, u.tile v = Tile.swapArmed^[tiles.count v] (s.tile v)) ∧ u.Answered k 0x0509 .ok []) := by
  obtain ⟨v, c, hv, hn⟩ := imemSwap_arms (s.entered k 0x0509) k tiles
  have hbad : ∀ t ∈ tiles, (s.tile t).swapBad none = none := fun t hm => by
    rcases hs t hm with e | e | e <;> simp [Tile.swapBad, e]
  have hst : (s.entered k 0x0509).setStatus tiles (Tile.swapBad none) = none := setStatus_none hbad
  refine h.answers (r := { st := v, cont := c }) rfl ?_ ((KeepsWaiting.refl _).onTiles.noted hn) rfl fun u hu ha => ⟨fun w => ?_, ha⟩
  · refine (KRes.check_pass _ _ ?_).trans ?_
    · simp [badTiles_pass ht, tilesDenied_privileged _ h.priv]
    · simp only [hst]
      exact hv
  · rw [hu.tile, hn.beside.tile, onTiles_tile]
    rfl

end

end Sys2Proof.Machine
end

section
namespace Sys2Proof.Machine

/-! ## Commands on scratchpads, coefficient tables and the column shift (R96, R99, R154) -/

/-! ### A scratchpad without uncorrectable words -/

/-- A tile whose retained scratchpad a command has brought back to ON (R441). -/
def Tile.woken (x : Tile) : Tile := if x.power = .retention then { x with power := .on, goal := none } else x

theorem Tile.woken_shape (x : Tile) : x.woken = { x with power := x.woken.power, goal := x.woken.goal } := by
  unfold Tile.woken
  split <;> rfl

/-- A tile after a write of bytes that meets no uncorrectable word (R76). -/
def Tile.stored (x : Tile) (a : Nat) (bs : List Byte) : Tile :=
  let ws := wordsOf a bs.length
  let whole := ws.filter (fun w => a ≤ w && w + 8 ≤ a + bs.length)
  { x.fixSoft (ws.filter (fun w => !whole.contains w)) with
    scratch := x.scratch.writeN a bs
    bad := x.bad.filter (fun w => !whole.contains w)
    soft := x.soft.filter (fun w => !ws.contains w) }

section
variable {x : Tile}

theorem store_allGood (h : x.bad = []) (a : Nat) (bs : List Byte) : x.store a bs = .ok (x.stored a bs) := by
  have hf : ∀ whole : List Nat, (wordsOf a bs.length).find? (fun w => x.bad.contains w && !whole.contains w) = none := fun whole =>
    List.find?_eq_none.2 fun w _ => by simp [h]
  simp only [Tile.store, hf]
  rfl

theorem load_allGood (h : x.bad = []) (a n : Nat) : x.load a n = .ok (x.scratch.readN a n, x.fixSoft (wordsOf a n)) :=
  Tile.load_ok fun w _ => by simp [h]

theorem stored_bad (h : x.bad = []) (a : Nat) (bs : List Byte) : (x.stored a bs).bad = [] := by simp [Tile.stored, h]

theorem fixSoft_scratch (ws : List Nat) : (x.fixSoft ws).scratch = x.scratch := by rw [Tile.fixSoft_shape]

end

section
variable {s : State} {k : Kci} {tiles : List Nat} {t : Nat}

theorem wake_acts (s : State) (t : Nat) : Acts Tile.woken s (s.wake t) t := by
  by_cases hp : (s.tile t).power = .retention
  · have he : s.wake t = (s.powerOver t).setTile t { (s.powerOver t).tile t with power := .on, goal := none } := if_pos hp
    have hx : ({ s.tile t with power := .on, goal := none } : Tile) = (s.tile t).woken := (if_pos hp).symm
    rw [he, (powerOver_beside s t).tile]
    exact (powerOver_beside s t).acts hx
  · have he : s.wake t = s := if_neg hp
    have hx : s.tile t = (s.tile t).woken := (if_neg hp).symm
    rw [he]
    exact ⟨hx, fun _ _ => rfl, rfl, rfl, rfl⟩

theorem powerOver_host (s : State) (t : Nat) : (s.powerOver t).host = s.host := by
  unfold State.powerOver
  split <;> rfl

theorem wake_host (s : State) (t : Nat) : (s.wake t).host = s.host := by
  unfold State.wake
  split
  · exact powerOver_host s t
  · rfl

theorem wake_bad (h : (s.tile t).bad = []) : ((s.wake t).tile t).bad = [] := by
  rw [(wake_acts s t).tile, Tile.woken_shape]
  exact h

theorem KeepsWaiting.wake {o s : State} {t} (h : KeepsWaiting o s) : KeepsWaiting o (s.wake t) := .ite h.powerOver.withGrid h

/-- An action that goes on from another one on the same tile. -/
theorem Acts.setTile {f g : Tile → Tile} {v : State} (h : Acts f s v t) {x : Tile} (hx : x = g (s.tile t)) : Acts g s (v.setTile t x) t :=
  ⟨(State.tile_setTile ..).trans hx, fun w hw => (State.tile_setTile_other _ hw _).trans (h.rest w hw), (State.shift_setTile ..).trans h.shift,
    h.now, h.cfl⟩

/-! ### SCRATCH_WRITE -/

/-- What SCRATCH_WRITE does on one tile. -/
def State.scratchPut (addr : Nat) (bs : List Byte) (s : State) (t : Nat) : State :=
  match ((s.wake t).tile t).store addr bs with
  | .ok x => (s.wake t).setTile t x
  | .error (w, x) => (s.wake t).scratchLost t x w

/-- No word of any scratchpad is uncorrectable. -/
def State.AllGood (s : State) : Prop := ∀ t, (s.tile t).bad = []

theorem scratchPut_each (hs : s.AllGood) (addr : Nat) (bs : List Byte) (t : Nat) :
    Acts (fun x => x.woken.stored addr bs) s (s.scratchPut addr bs t) t ∧ (s.scratchPut addr bs t).AllGood := by
  have hw := wake_acts s t
  have hbad := wake_bad (hs t)
  have he : s.scratchPut addr bs t = (s.wake t).setTile t (((s.wake t).tile t).stored addr bs) := by
    simp only [State.scratchPut, store_allGood hbad]
  have ha : Acts (fun x => x.woken.stored addr bs) s (s.scratchPut addr bs t) t := by
    rw [he]
    exact hw.setTile (by rw [hw.tile])
  refine ⟨ha, fun v => ?_⟩
  by_cases hv : v = t
  · rw [hv, he, State.tile_setTile, stored_bad hbad]
  · rw [ha.rest v hv, hs v]

theorem KeepsWaiting.scratchPut {o s : State} {addr bs t} (h : KeepsWaiting o s) : KeepsWaiting o (s.scratchPut addr bs t) := by
  unfold State.scratchPut
  split
  · exact h.wake.withGrid
  · exact .notify (.withW1c h.wake.withGrid)

theorem scratchBad_none {x : Tile} (h : x.state = .ready ∨ x.state = .halted) : x.scratchBad = none := by
  rcases h with e | e <;> simp [Tile.scratchBad, e]

theorem scratchWrite_answers (h : s.Open k) (ht : ∀ t ∈ tiles, t < 1024) {addr len a : Nat} (hr : addr + len ≤ 0x180000) (hg : s.AllGood)
    (hs : ∀ t ∈ tiles, (s.tile t).state = .ready ∨ (s.tile t).state = .halted) : Yields (.scratchWrite k tiles addr (.host a) len) s (fun u =>
      (∀ v, u.tile v = (fun x => Tile.stored (Tile.woken x) addr (s.hostRead k.src.fnIdx a len))^[tiles.count v] (s.tile v)) ∧
      u.Answered k 0x050B .ok []) := by
  have hst : (s.entered k 0x050B).setStatus tiles Tile.scratchBad = none := setStatus_none fun t hm => scratchBad_none (hs t hm)
  have hgood : ∀ t, ((s.entered k 0x050B).tile t).store addr (s.hostRead k.src.fnIdx a len) =
    .ok ((s.tile t).stored addr (s.hostRead k.src.fnIdx a len)) := fun t => store_allGood (hg t) ..
  refine h.leaves (t := tiles.foldl (State.scratchPut addr (s.hostRead k.src.fnIdx a len)) (s.entered k 0x050B)) rfl ?_
    ((KeepsWaiting.refl _).foldl fun _ _ h => h.scratchPut) fun u hu ha => ⟨fun v => (hu.tile v).trans ?_, ha⟩
  · refine (KRes.check_pass _ _ (tileChecks_pass h.priv ht (decide_eq_false (Nat.not_lt.2 hr)))).trans ?_
    have hread : (s.entered k 0x050B).dataRead k (.host a) len = (.ok, s.hostRead k.src.fnIdx a len, s.entered k 0x050B) := rfl
    have hnone : tiles.any (fun _ => false) = false := List.any_eq_false.2 fun _ _ => Bool.false_ne_true
    simp only [hst, hread, hgood, hnone, Bool.false_eq_true, if_false]
    rfl
  · exact foldl_acts (s := s.entered k 0x050B) (I := State.AllGood) hg (fun u hu t _ => scratchPut_each hu ..) v

/-- What a write leaves of a scratchpad in canonical form: the bytes written, and the others as they were. -/
def WrittenFrom (addr : Nat) (bs : List Byte) (x y : Tile) : Prop :=
  y.scratch.wf = true ∧ ∀ i, y.scratch.read i = if h : addr ≤ i ∧ i < addr + bs.length then bs[i - addr] else x.scratch.read i

theorem stored_scratch (x : Tile) (addr : Nat) (bs : List Byte) : (x.woken.stored addr bs).scratch = x.scratch.writeN addr bs := by
  rw [Tile.woken_shape]
  rfl

theorem stored_writtenFrom {x : Tile} (h : x.scratch.wf = true) (addr : Nat) (bs : List Byte) :
    WrittenFrom addr bs x (x.woken.stored addr bs) := by
  rw [WrittenFrom, stored_scratch]
  refine ⟨Memory.writeN_wf _ _ h, fun i => ?_⟩
  split
  · next hi =>
    obtain ⟨j, rfl⟩ := Nat.exists_eq_add_of_le hi.1
    rw [Memory.read_writeN_same addr bs h j (by omega)]
    simp only [Nat.add_sub_cancel_left]
  · next hi => exact Memory.read_writeN_other _ _ _ (by omega)

theorem WrittenFrom.again {addr : Nat} {bs : List Byte} {x y : Tile} (h : WrittenFrom addr bs x y) :
    WrittenFrom addr bs x (y.woken.stored addr bs) := by
  obtain ⟨hwf, hread⟩ := stored_writtenFrom h.1 addr bs
  refine ⟨hwf, fun i => ?_⟩
  rw [hread, h.2]
  split <;> rfl

/-! ### SCRATCH_READ -/

theorem scratchRead_answers (h : s.Open k) (ht : t < 1024) {addr len dest : Nat} (hr : addr + len ≤ 0x180000) (hg : s.AllGood)
    (hs : (s.tile t).state = .ready ∨ (s.tile t).state = .halted) : Yields (.scratchRead k t addr (.host dest) len) s (fun u =>
      u.hostMem k.src.fnIdx = (s.hostMem k.src.fnIdx).writeN dest ((s.tile t).scratch.readN addr len) ∧
      (u.tile t).scratch = (s.tile t).scratch ∧ u.Answered k 0x050C .ok []) := by
  have hst : (s.entered k 0x050C).setStatus [t] Tile.scratchBad = none :=
    setStatus_none (List.forall_mem_singleton.2 (scratchBad_none hs))
  have hscr : (((s.entered k 0x050C).wake t).tile t).scratch = (s.tile t).scratch := by
    rw [(wake_acts ..).tile, Tile.woken_shape]
    rfl
  have hload := load_allGood (wake_bad (s := s.entered k 0x050C) (hg t)) addr len
  rw [hscr] at hload
  refine h.leaves (t := (((s.entered k 0x050C).wake t).setTile t ((((s.entered k 0x050C).wake t).tile t).fixSoft (wordsOf addr len))).putHost k
    dest ((s.tile t).scratch.readN addr len)) rfl ?_ (KeepsWaiting.refl _).wake.withGrid.withHost fun u hu ha => ⟨?_, ?_, ha⟩
  · refine (KRes.check_pass _ _ (tileChecks_pass h.priv (List.forall_mem_singleton.2 ht) (decide_eq_false (Nat.not_lt.2 hr)))).trans ?_
    simp only [hst, hload]
    rfl
  · rw [hu.hostMem, State.putHost, State.hostMem_hostWrite, State.hostMem, State.setTile_host, wake_host]
    rfl
  · rw [hu.tile, State.putHost, State.tile, State.hostWrite_grid, ← State.tile, State.tile_setTile, fixSoft_scratch, hscr]

/-! ### VTAB_READ -/

theorem vtabRead_answers (h : s.Open k) {table : Nat} (dest : Nat) (ht : table < 4) : Yields (.vtabRead k table dest) s (fun u =>
    u.hostMem k.src.fnIdx = (s.hostMem k.src.fnIdx).writeN dest (vtabBytes s.tileImage table) ∧ u.grid = s.grid ∧
    u.Answered k 0x0507 .ok []) := by
  refine h.leaves (t := (s.entered k 0x0507).putHost k dest (vtabBytes s.tileImage table)) rfl ?_ (.refl _) fun u hu ha => ⟨?_, hu.grid, ha⟩
  · exact KRes.check_pass _ _ (by simpa using ht)
  · rw [hu.hostMem, State.putHost, State.hostMem_hostWrite]
    rfl

/-! ### COLUMN_SHIFT -/

/-- No tile runs, and the column shifts are those of a map. -/
def State.Quiet (s : State) (m : SMap Nat) : Prop := (∀ t, (s.tile t).state ≠ .running) ∧ s.grid.shift = m

section
variable {m : SMap Nat} {u : State}

theorem State.Quiet.beside (h : s.Quiet m) (hb : Beside s u) : u.Quiet m :=
  ⟨fun t => by rw [hb.tile]; exact h.1 t, by rw [hb.grid]; exact h.2⟩

theorem State.Quiet.acts {f : Tile → Tile} (h : s.Quiet m) (ha : Acts f s u t) (hf : (f (s.tile t)).state ≠ .running) : u.Quiet m := by
  refine ⟨fun v => ?_, ha.shift.trans h.2⟩
  by_cases hv : v = t
  · rw [hv, ha.tile]
    exact hf
  · rw [ha.rest v hv]
    exact h.1 v

theorem State.Quiet.onTile {f : Tile → Tile} (h : s.Quiet m) (hf : (f (s.tile t)).state ≠ .running) : (s.onTile t f).Quiet m :=
  h.acts ((Beside.refl s).acts (f := f) rfl) hf

theorem State.Quiet.foldl {α : Type} {act : State → α → State} {l : List α} (h : s.Quiet m) (hact : ∀ u a, u.Quiet m → (act u a).Quiet m) :
    (l.foldl act s).Quiet m := List.foldlRecOn (motive := fun u : State => u.Quiet m) l act h fun u hu a _ => hact u a hu

theorem State.Quiet.shiftStep (h : s.Quiet m) {die column step : Nat} : (s.shiftStep die column step).Quiet m :=
  h.beside (itinEvent_noted ..).beside

theorem State.Quiet.commandHalt (h : s.Quiet m) : (s.commandHalt t).Quiet m := by
  have he : s.commandHalt t = s := if_neg (h.1 t)
  rwa [he]

theorem State.Quiet.tileReset (h : s.Quiet m) {clear : Bool} : (s.tileReset t clear).Quiet m :=
  h.acts (tileReset_acts (fun hr => absurd hr (h.1 t)) clear) TileState.noConfusion

end

/-- A map of column shifts in which one die has another shift, or none. -/
def shiftMap (m : SMap Nat) (die : Nat) : Option Nat → SMap Nat
  | some c => m.put die c
  | none => m.del die

theorem look_shiftMap {m : SMap Nat} (hm : SMap.rising none m = true) (die : Nat) (f : Option Nat) :
    (shiftMap m die f).look die = f ∧ ∀ d, d ≠ die → (shiftMap m die f).look d = m.look d := by
  cases f with
  | some c => exact ⟨SMap.look_put_same .., fun d hd => SMap.look_put_other m hd c⟩
  | none => exact ⟨SMap.look_del_same hm, fun d hd => SMap.look_del_other m hd⟩

/-- The shift in force, on tiles of which none runs. -/
theorem applyShift_quiet {m : SMap Nat} (h : s.Quiet m) (die : Nat) (f : Option Nat) : (s.applyShift die f).Quiet (shiftMap m die f) := by
  unfold State.applyShift
  extract_lets sh _ s' bad
  have h' : s'.Quiet (shiftMap m die f) := by
    refine ⟨h.1, ?_⟩
    cases f <;> exact h.2 ▸ rfl
  refine h'.foldl fun u i hu => ?_
  dsimp only
  split
  · exact hu.onTile TileState.noConfusion
  · split
    · exact hu.onTile TileState.noConfusion
    · exact hu

/-- Without partitions and running tiles a column shift sets the shift of its die. -/
theorem columnShift_quiet {m : SMap Nat} (h : s.Quiet m) (hp : s.partList = []) (die column : Nat) :
    (s.columnShift die column).st.Quiet (shiftMap m die (if column < 16 then some column else none)) := by
  have hstop : s.partStopAll (s.partList.filter (fun p => (s.tilesOf p).any (fun t => t / 256 = die))) = s := by rw [hp]; rfl
  unfold State.columnShift
  simp only [hstop]
  refine State.Quiet.shiftStep (State.Quiet.foldl ?_ fun _ _ h => h.tileReset)
  exact (applyShift_quiet (h.shiftStep.foldl fun _ _ h => h.commandHalt).shiftStep ..).shiftStep

theorem columnShift_yields (h : s.Open k) {die column : Nat} (hd : die < 4) (hc : column < 16 ∨ column = 31) (hp : s.partList = [])
    (hs : ∀ t, (s.tile t).state ≠ .running) (hm : SMap.rising none s.grid.shift = true) : Yields (.columnShift k die column) s (fun u =>
      u.grid.shift.look die = (if column < 16 then some column else none) ∧ ∀ d, d ≠ die → u.grid.shift.look d = s.grid.shift.look d) := by
  refine h.yields (r := (s.entered k 0x0506).columnShift die column) rfl ?_ fun u hu _ => ?_
  · refine KRes.check_pass _ _ ?_
    simp [Kci.denied_privileged h.priv]
    omega
  · have hq : (s.entered k 0x0506).Quiet s.grid.shift := ⟨hs, rfl⟩
    rw [hu.grid, (columnShift_quiet hq hp die column).2]
    exact look_shiftMap hm ..

end

/-- Settles O30, command by command. -/
theorem tileMemoryCommands : Obligations.TileMemoryCommands := by
  unfold Obligations.TileMemoryCommands
  intro s k tiles t addr len offset bank dest a h htl ht
  refine ⟨fun hb ho => ⟨fun hl hne hs => ?load, ?read⟩, fun hn hs => ?arm, fun hn hs => ?swap,
    fun hr hg => ⟨fun hwf hs => ?write, fun hs => scratchRead_answers h htl hr hg hs⟩, fun table htab => vtabRead_answers h dest htab,
    fun die column hd hc hp hs hm => columnShift_yields h hd hc hp hs hm⟩
  case load =>
    have hlen : (s.hostRead k.src.fnIdx a len).length = len := Memory.readN_length ..
    refine (imemLoad_runs h ht hb ho hl hne hs).mono fun u ⟨hu, hr⟩ => ?_
    have hof : ∀ t ∈ tiles, LoadedFrom bank offset (s.hostRead k.src.fnIdx a len) (s.tile t) (u.tile t) := fun t hm => by
      rw [hu t]
      exact iterate_count_mem hm (loaded_loadedFrom ..) fun x hx => hx.again
    have hother : ∀ v, v ∉ tiles → u.tile v = s.tile v := fun v hv => (hu v).trans (iterate_count_other hv _)
    refine ⟨fun t hm => ?_, hother, fun v => ?_, hr⟩
    · obtain ⟨hbytes, hload, hout, hwords, -⟩ := hof t hm
      rw [hlen] at hbytes hout
      refine ⟨hbytes, hload, hout, fun ho8 i hi => ?_⟩
      rw [hwords ho8 i (by omega)]
      exact Memory.word_readN _ _ (by omega)
    · by_cases hv : v ∈ tiles
      · exact (hof v hv).scratch
      · rw [hother v hv]
  case read =>
    exact (imemRead_answers h dest htl hb ho).mono fun u ⟨hm, hg, ha⟩ => ⟨hm, fun ho8 hl8 => imemBytes_aligned ho8 hl8, hg, ha⟩
  case arm =>
    refine (imemSwap_answers h ht fun t hm => .inr (hs t hm)).mono fun u ⟨hu, ha⟩ =>
      ⟨fun t hm => ?_, fun v hv => (hu v).trans (iterate_count_other hv _), ha⟩
    rw [hu t, iterate_count_once hn hm]
    exact if_neg (by rcases hs t hm with e | e <;> simp [e])
  case swap =>
    refine (imemSwap_answers h ht fun t hm => .inl (hs t hm)).mono fun u ⟨hu, ha⟩ =>
      ⟨fun t hm => ?_, fun v hv => (hu v).trans (iterate_count_other hv _), ha⟩
    rw [hu t, iterate_count_once hn hm, Tile.swapArmed, if_pos (hs t hm)]
    exact ⟨rfl, rfl⟩
  case write =>
    refine (scratchWrite_answers h ht hr hg hs).mono fun u ⟨hu, ha⟩ =>
      ⟨fun t hm i => ?_, fun v hv => (hu v).trans (iterate_count_other hv _), ha⟩
    have hw : WrittenFrom addr (s.hostRead k.src.fnIdx a len) (s.tile t) (u.tile t) := by
      rw [hu t]
      exact iterate_count_mem hm (stored_writtenFrom (hwf t hm) ..) fun x hx => hx.again
    have hlen : (s.hostRead k.src.fnIdx a len).length = len := Memory.readN_length ..
    rw [State.scratchByte, hw.2 i]
    by_cases hi : addr ≤ i ∧ i < addr + len
    · rw [dif_pos (by rwa [hlen]), if_pos hi]
      exact Memory.getElem_readN ..
    · rw [dif_neg (by rwa [hlen]), if_neg hi]
      rfl

end Sys2Proof.Machine
end

section
namespace Sys2Proof.Machine

/-! ## The words of Tarpeth (R108 to R110, R188) -/

/-- The fields of a word spell it again: they cover its 64 bits. -/
theorem TFields.word_ofWord (w : Word) : (TFields.ofWord w).word = w := by
  refine BitVec.eq_of_getLsbD_eq fun i hi => ?_
  simp only [TFields.ofWord, TFields.word, BitVec.getLsbD_append, BitVec.getLsbD_extractLsb']
  grind

/-- The fields of the word that fields spell. -/
theorem TFields.ofWord_word (f : TFields) : TFields.ofWord f.word = f := by
  obtain ⟨op, rd, ra, rb, res, imm⟩ := f
  simp only [TFields.ofWord, TFields.word, TFields.mk.injEq]
  refine ⟨?_, ?_, ?_, ?_, ?_, ?_⟩ <;> refine BitVec.eq_of_getLsbD_eq fun i hi => ?_ <;>
    simp only [BitVec.getLsbD_extractLsb', BitVec.getLsbD_append] <;> grind

/-- A word is decoded as the instruction of its fields, where every field that the opcode does not use is zero. -/
theorem tarpethDecode_eq_some {t : Nat} {w : Word} {i : Instr} : tarpethDecode t w = some i ↔
    ∃ (f : TFields) (rd ra rb imm : Bool), w = f.word ∧ f.instr t = some (rd, ra, rb, imm, i) ∧ f.unused rd ra rb imm = true := by
  constructor
  · intro h
    simp only [tarpethDecode] at h
    split at h
    · next rd ra rb imm j hj =>
      rw [Option.ite_none_right_eq_some, Option.some_inj] at h
      exact ⟨_, rd, ra, rb, imm, (TFields.word_ofWord w).symm, h.2 ▸ hj, h.1⟩
    · contradiction
  · rintro ⟨f, rd, ra, rb, imm, rfl, hf, hu⟩
    simp only [tarpethDecode, TFields.ofWord_word, hf, hu, if_true]

theorem eq_ofNat_of_toNat_eq {n k : Nat} {x : BitVec n} (h : x.toNat = k) : x = BitVec.ofNat n k := by
  rw [← h, BitVec.ofNat_toNat, BitVec.setWidth_eq]

/-- Where fields spell an instruction and leave zero what it does not use, the instruction has their word. -/
theorem tarpethEncode_of_instr {t : Nat} {f : TFields} {i : Instr} {rd ra rb imm : Bool} (hf : f.instr t = some (rd, ra, rb, imm, i))
    (hu : f.unused rd ra rb imm = true) : tarpethEncode i = some (t, f.word) := by
  obtain ⟨op, p, a, b, res, m⟩ := f
  unfold TFields.instr at hf
  split at hf
  all_goals first
    | contradiction
    | next hop =>
      cases hf
      obtain rfl := eq_ofNat_of_toNat_eq hop
      simp only [TFields.unused, Bool.and_eq_true, Bool.or_eq_true, decide_eq_true_eq, Bool.false_eq_true, false_or, true_or, and_true] at hu
      simp only [tarpethEncode, tword, hu]

/-- The word of an instruction has fields that spell the instruction and leave zero what it does not use. -/
theorem instr_of_tarpethEncode {t : Nat} {w : Word} {i : Instr} (h : tarpethEncode i = some (t, w)) :
    ∃ (f : TFields) (rd ra rb imm : Bool), w = f.word ∧ f.instr t = some (rd, ra, rb, imm, i) ∧ f.unused rd ra rb imm = true := by
  unfold tarpethEncode at h
  split at h
  all_goals first
    | contradiction
    | cases h
      exact ⟨_, _, _, _, _, rfl, rfl, rfl⟩

/-- Settles O59: both sides say that the word has fields that spell the instruction and leave zero what its opcode does not use. -/
theorem tarpethDecodeEncode : Obligations.TarpethDecodeEncode := by
  unfold Obligations.TarpethDecodeEncode
  intro i t w
  rw [tarpethDecode_eq_some]
  constructor
  · rintro ⟨f, rd, ra, rb, imm, rfl, hf, hu⟩
    exact tarpethEncode_of_instr hf hu
  · exact instr_of_tarpethEncode

end Sys2Proof.Machine
end

section
namespace Sys2Proof.Machine

/-! ## Instructions that compute a register (R78, R110, R111) -/

section
variable {s : State} {t p : Nat} {ls : List Loop} {i : Instr} {rd : Reg} {v : Tile → Word} {w : Word}

/-- An instruction that writes one register sets it. -/
theorem sets_of_aluRun (h : s.Falls t p ls) (hi : exec i s = aluRun t rd v s) (hv : v (s.tile t) = w) : Sets i s t p ls rd w := by
  obtain ⟨u, hu, hreg, hat, hframe⟩ := aluRun_spec h rd v
  exact ⟨u, hi.trans hu, hv ▸ hreg, hat, hframe⟩

theorem sets_of_aluRunIf {ok : Bool} (h : s.Falls t p ls) (hi : exec i s = aluRunIf ok t rd v s) (hok : ok = true) (hv : v (s.tile t) = w) :
    Sets i s t p ls rd w := by
  rw [hok, aluRunIf_true] at hi
  exact sets_of_aluRun h hi hv

end

/-! ### The comparisons -/

theorem slt_eq_decide (a b : Word) : BitVec.slt a b = decide (a.toInt < b.toInt) := rfl
theorem ult_eq_decide (a b : Word) : BitVec.ult a b = decide (a.toNat < b.toNat) := rfl

/-- The smaller of two words is the first where they are equal, and MIN takes it. -/
theorem minWord_eq (a b : Word) : minWord a b = if a.toInt ≤ b.toInt then a else b := by
  simp only [minWord, slt_eq_decide, decide_eq_true_eq, ← Int.not_le, ite_not]

theorem maxWord_eq (a b : Word) : maxWord a b = if a.toInt ≤ b.toInt then b else a := by
  unfold maxWord
  rw [slt_eq_decide]
  by_cases hlt : a.toInt < b.toInt
  · rw [if_pos (decide_eq_true hlt), if_pos hlt.le]
  · rw [if_neg (mt of_decide_eq_true hlt)]
    split
    · next hle => exact BitVec.eq_of_toInt_eq (le_antisymm hle (Int.not_lt.1 hlt))
    · rfl

theorem sltWord_eq (a b : Word) : sltWord a b = if a.toInt < b.toInt then 1 else 0 := by
  simp only [sltWord, slt_eq_decide, decide_eq_true_eq]

theorem sltuWord_eq (a b : Word) : sltuWord a b = if a.toNat < b.toNat then 1 else 0 := by
  simp only [sltuWord, ult_eq_decide, decide_eq_true_eq]

/-- Settles O1: each instruction is `aluRun` of its own function. -/
theorem registerArithmetic : Obligations.RegisterArithmetic := by
  unfold Obligations.RegisterArithmetic
  intro s t p ls rd ra rb h
  exact ⟨sets_of_aluRun h rfl rfl, sets_of_aluRun h rfl rfl, sets_of_aluRun h rfl rfl, sets_of_aluRun h rfl rfl,
    sets_of_aluRun h rfl rfl, sets_of_aluRun h rfl rfl, sets_of_aluRun h rfl rfl, sets_of_aluRun h rfl rfl, sets_of_aluRun h rfl rfl,
    sets_of_aluRun h rfl (minWord_eq ..), sets_of_aluRun h rfl (maxWord_eq ..), sets_of_aluRun h rfl (sltWord_eq ..),
    sets_of_aluRun h rfl (sltuWord_eq ..)⟩

/-! ### Immediates -/

theorem immFits_iff {imm : Imm} {n : Nat} : immFits imm n = true ↔ imm.toNat < 2 ^ n := decide_eq_true_iff

/-- LUI replaces the upper half of a register. -/
theorem lui_word (a : Word) (imm : Imm) : (a &&& (0xFFFFFFFF : Word)) ||| (imm.setWidth 64 <<< 32 : Word) = imm ++ a.extractLsb' 0 32 := by
  have mask : (0xFFFFFFFF : Word) = BitVec.setWidth 64 (BitVec.allOnes 32) := rfl
  refine BitVec.eq_of_getLsbD_eq fun i hi => ?_
  rw [mask]
  simp only [BitVec.getLsbD_or, BitVec.getLsbD_and, BitVec.getLsbD_shiftLeft, BitVec.getLsbD_setWidth, BitVec.getLsbD_append,
    BitVec.getLsbD_extractLsb', BitVec.getLsbD_allOnes]
  grind

/-- Settles O2: each instruction is `aluRun` of its own function, the shifts where their amount fits its field. -/
theorem immediateArithmetic : Obligations.ImmediateArithmetic := by
  unfold Obligations.ImmediateArithmetic
  intro s t p ls rd ra imm h
  refine ⟨⟨sets_of_aluRun h rfl rfl, sets_of_aluRun h rfl rfl, sets_of_aluRun h rfl rfl, sets_of_aluRun h rfl rfl,
    sets_of_aluRun h rfl rfl, sets_of_aluRun h rfl (lui_word ..)⟩, fun himm => ?_⟩
  have hfits : immFits imm 6 = true := immFits_iff.2 himm
  have hmod : imm.toNat % 64 = imm.toNat := Nat.mod_eq_of_lt himm
  exact ⟨sets_of_aluRunIf h rfl hfits (by rw [hmod]), sets_of_aluRunIf h rfl hfits (by rw [hmod]),
    sets_of_aluRunIf h rfl hfits (by rw [hmod])⟩

/-- Settles O3: each instruction is `aluRun` of what it reads, where its immediate is one that it may have. -/
theorem registerReads : Obligations.RegisterReads := by
  unfold Obligations.RegisterReads
  intro s t p ls rd imm h
  refine ⟨fun hal hlt => ?rdreg, fun hle => ?qfree, fun hlt => ?lidx⟩
  case rdreg => exact sets_of_aluRunIf h rfl (by simp only [regImm, hal, hlt, decide_true, Bool.and_self]) rfl
  case qfree => exact sets_of_aluRunIf h rfl (decide_eq_true hle) rfl
  case lidx =>
    refine sets_of_aluRunIf h rfl (immFits_iff.2 hlt) (if_congr Iff.rfl rfl ?_)
    cases (s.tile t).loops[imm.toNat]? <;> rfl

end Sys2Proof.Machine
end

section
namespace Sys2Proof.Machine

/-! ## Faults of the sequencer (R102, R109, R112, R113) -/

section
variable {s : State} {t : Nat} {i : Instr}

theorem running_of_runs (h : (s.tile t).runs = true) : (s.tile t).state = .running := by
  simp only [Tile.runs, Bool.and_eq_true, decide_eq_true_eq] at h
  exact h.1

/-- Two states have the same tiles and the same groups of Confluence. -/
structure SameTiles (s u : State) : Prop where
  tile : ∀ w, u.tile w = s.tile w
  cfl  : u.cfl = s.cfl

theorem SameTiles.refl (s : State) : SameTiles s s := ⟨fun _ => rfl, rfl⟩

/-- A tile that is stored as it was is the same tile. -/
theorem sameTiles_setTile (s : State) (t : Nat) : SameTiles s (s.setTile t (s.tile t)) := by
  refine ⟨fun w => ?_, rfl⟩
  by_cases hw : w = t
  · rw [hw, State.tile_setTile]
  · exact State.tile_setTile_other _ hw _

/-- A fault of a tile that runs, as a statement of the instruction that meets it. -/
theorem faultsAs_of_faultHalt {u : State} {st : Status} {pc extra addr : Nat} (hr : (s.tile t).state = .running) (hu : SameTiles s u)
    (hi : exec i s = .next (u.faultHalt t st pc (s.tile t).current extra addr)) : FaultsAs i s t st pc := by
  obtain ⟨v, hv, hn⟩ := faultHalt_running (by rw [hu.tile, hr]) st pc (s.tile t).current extra addr 0
  have ht : v.tile t = (s.tile t).faulted st pc (s.tile t).current u.now 0 := by
    rw [State.tile, hn.grid, ← State.tile, State.tile_setTile, hu.tile]
  have hcfl : v.cfl = s.cfl := by rw [hn.all, State.setTile_cfl, hu.cfl]
  refine ⟨_, hi.trans (congrArg _ hv), v, rfl, fun hg => cflTileLost_none (hcfl ▸ hg) st, ?_⟩
  rw [ht]
  refine ⟨rfl, rfl, rfl, rfl, rfl, rfl, rfl, rfl, fun w hw => ?_⟩
  rw [State.tile, hn.grid, ← State.tile, State.tile_setTile_other _ hw, hu.tile]

/-- An instruction that answers a fault to the sequencer. -/
theorem faultsAs_of_fault {f : Tile → SeqOut} {u : State} {st : Status} {extra addr : Nat} (hr : (s.tile t).runs = true)
    (hi : exec i s = .next (seqRun t s f)) (hu : SameTiles s u) (hf : f (s.tile t) = .fault u st extra addr) :
    FaultsAs i s t st (s.tile t).pc := by
  refine faultsAs_of_faultHalt (extra := extra) (addr := addr) (running_of_runs hr) hu (hi.trans (congrArg _ ?_))
  simp only [seqRun, hr, hf, Bool.not_true, Bool.false_eq_true, if_false]

/-- An instruction that faults in the state that it found, as most do. -/
theorem faultsAs_of_faultHere {f : Tile → SeqOut} {st : Status} {extra addr : Nat} (hr : (s.tile t).runs = true)
    (hi : exec i s = .next (seqRun t s f)) (hf : f (s.tile t) = .fault s st extra addr) : FaultsAs i s t st (s.tile t).pc :=
  faultsAs_of_fault hr hi (.refl s) hf

/-- An instruction with a field that must be zero and is not. -/
theorem faultsAs_of_aluRunIf {ok : Bool} {rd : Reg} {v : Tile → Word} (hr : (s.tile t).runs = true) (hi : exec i s = aluRunIf ok t rd v s)
    (hok : ok = false) : FaultsAs i s t .illegalOp (s.tile t).pc :=
  faultsAs_of_faultHere (extra := 0) (addr := 0) hr hi (by rw [hok]; rfl)

theorem immFits_eq_false {imm : Imm} {n : Nat} (h : 2 ^ n ≤ imm.toNat) : immFits imm n = false := decide_eq_false (Nat.not_lt.2 h)

/-! ### Addresses of loads and stores -/

theorem scalarAddr_range {a : Int} {width : Nat} (h : a < 0 ∨ 0x17FFFF < a) : scalarAddr a width = .error .addrRange := by
  have hout : a < 0 ∨ (0x180000 : Int) ≤ a := by omega
  unfold scalarAddr scratchEnd
  rw [if_pos (by simpa using hout)]

theorem scalarAddr_inside {a : Nat} {width : Nat} (h : a < 0x180000) :
    scalarAddr (a : Int) width = if a % width ≠ 0 then .error .addrAlign else .ok a := by
  unfold scalarAddr scratchEnd
  rw [if_neg (by simp; omega), Int.toNat_natCast]

theorem scalarAddr_align {a : Int} {width : Nat} (h0 : 0 ≤ a) (h1 : a ≤ 0x17FFFF) (h : a % width ≠ 0) :
    scalarAddr a width = .error .addrAlign := by
  obtain ⟨n, rfl⟩ := Int.eq_ofNat_of_zero_le h0
  rw [scalarAddr_inside (by omega), if_pos (by omega)]

/-- A load or a store whose address is refused faults. -/
theorem load_faults {width : Nat} {rd ra : Reg} {imm : Imm} {st : Status} (hr : (s.tile t).runs = true)
    (hi : exec i s = .next (loadRun width t rd ra imm s)) (ha : scalarAddr ((s.tile t).addr ra imm) width = .error st) :
    FaultsAs i s t st (s.tile t).pc :=
  faultsAs_of_faultHere (extra := 0) (addr := 0) hr hi (by simp only [ha])

theorem store_faults {width : Nat} {rb ra : Reg} {imm : Imm} {st : Status} (hr : (s.tile t).runs = true)
    (hi : exec i s = .next (storeRun width t rb ra imm s)) (ha : scalarAddr ((s.tile t).addr ra imm) width = .error st) :
    FaultsAs i s t st (s.tile t).pc :=
  faultsAs_of_faultHere (extra := 0) (addr := 0) hr hi (by simp only [ha])

end

/-- Settles O6: the two checks of an address, in their order, at each of the four instructions. -/
theorem scalarAddressFaults : Obligations.ScalarAddressFaults := by
  unfold Obligations.ScalarAddressFaults
  intro s t ra rx imm hr
  refine ⟨fun hout => ?range, fun h0 h1 => ⟨fun h8 => ?align8, fun h4 => ?align4⟩⟩
  case range =>
    have ha : ∀ width, scalarAddr ((s.tile t).addr ra imm) width = .error .addrRange := fun _ => scalarAddr_range hout
    exact ⟨load_faults hr rfl (ha 8), load_faults hr rfl (ha 4), store_faults hr rfl (ha 8), store_faults hr rfl (ha 4)⟩
  case align8 =>
    have ha : scalarAddr ((s.tile t).addr ra imm) 8 = .error .addrAlign := scalarAddr_align h0 h1 h8
    exact ⟨load_faults hr rfl ha, store_faults hr rfl ha⟩
  case align4 =>
    have ha : scalarAddr ((s.tile t).addr ra imm) 4 = .error .addrAlign := scalarAddr_align h0 h1 h4
    exact ⟨load_faults hr rfl ha, store_faults hr rfl ha⟩

/-! ### Past the last instruction -/

/-- At instruction 8,191, where no open level ends, there is no next instruction (R113). -/
theorem fallThrough_last {x : Tile} (h : ∀ l ∈ x.loops, l.last ≠ 8191) : (x.fallThrough 8191).1 = none := by
  have hend : (loopEnd 8191 x.loops).1 = none := by
    cases hl : x.loops with
    | nil => rfl
    | cons l r =>
      have hne : l.last ≠ 8191 := h l (by rw [hl]; exact List.mem_cons_self)
      rw [loopEnd, if_neg hne]
  unfold Tile.fallThrough Tile.fallThroughOf
  by_cases hn : x.current = 0
  · simp only [hn, if_true, hend]
  · simp only [hn, if_false, if_true]

section
variable {s : State} {t : Nat} {i : Instr}

/-- An instruction at 8,191 that falls through and leaves its tile as it is faults. -/
theorem faultsAs_past {f : Tile → SeqOut} {u : State} (hr : (s.tile t).runs = true) (hpc : (s.tile t).pc = 8191)
    (hl : ∀ l ∈ (s.tile t).loops, l.last ≠ 8191) (hi : exec i s = .next (seqRun t s f)) (hu : SameTiles s u)
    (hf : f (s.tile t) = .next u) : FaultsAs i s t .illegalOp 0x1FFF := by
  refine faultsAs_of_faultHalt (extra := 0) (addr := 0) (running_of_runs hr) hu (hi.trans (congrArg _ ?_))
  have hnone : ((u.tile t).fallThrough (u.tile t).pc).1 = none := by rw [hu.tile, hpc, fallThrough_last hl]
  simp only [seqRun, hr, hf, Bool.not_true, Bool.false_eq_true, if_false, State.seqNext]
  split
  · next hsome =>
    rw [hsome] at hnone
    contradiction
  · rw [hu.tile]

end

/-- Settles O7: JR checks its register, and the rest meets the end of the program where it falls through. -/
theorem endOfProgramFaults : Obligations.EndOfProgramFaults := by
  unfold Obligations.EndOfProgramFaults
  intro s t hr
  refine ⟨fun ra hra => faultsAs_of_faultHere (extra := 0) (addr := 0) hr rfl (if_pos hra),
    fun hpc hl rd ra rb imm cond hcond himm => ⟨faultsAs_past hr hpc hl rfl (.refl s) rfl,
      faultsAs_past hr hpc hl rfl (sameTiles_setTile s t) rfl, fun hno => faultsAs_past hr hpc hl rfl (.refl s) ?_⟩⟩
  have hfits : immFits imm 13 = true := immFits_iff.2 himm
  simp only [Nat.not_lt.2 hcond, hfits, hno, decide_false, Bool.not_true, Bool.or_self, Bool.false_eq_true, if_false]

/-- Settles O8: each instruction checks the fields that it does not use before anything else. -/
theorem reservedFieldFaults : Obligations.ReservedFieldFaults := by
  unfold Obligations.ReservedFieldFaults
  intro s t rd ra rb imm cond hr
  refine ⟨fun hc => ?cond, fun h => ?target, fun h => ?trap, fun h => ?lidx, fun h => ?shift, fun h => ?qfree, fun h => ?window⟩
  case cond =>
    refine faultsAs_of_faultHere (extra := 0) (addr := 0) hr rfl (if_pos ?_)
    rw [decide_eq_true hc, Bool.true_or]
  case target =>
    have hno : immFits imm 13 = false := immFits_eq_false h
    refine ⟨faultsAs_of_faultHere (extra := 0) (addr := 0) hr rfl (if_pos ?_), faultsAs_of_faultHere (extra := 0) (addr := 0) hr rfl (if_neg ?_),
      faultsAs_of_faultHere (extra := 0) (addr := 0) hr rfl (if_neg ?_), faultsAs_of_faultHere (extra := 0) (addr := 0) hr rfl (if_pos ?_),
      faultsAs_of_faultHere (extra := 0) (addr := 0) hr rfl (if_pos ?_)⟩ <;>
      simp only [hno, Bool.not_false, Bool.or_true, Bool.true_or, Bool.false_eq_true, not_false_eq_true]
  case trap => exact faultsAs_of_faultHere (extra := 0) (addr := 0) hr rfl (if_neg (ne_true_of_eq_false (immFits_eq_false h)))
  case lidx => exact faultsAs_of_aluRunIf hr rfl (immFits_eq_false h)
  case shift =>
    have hno : immFits imm 6 = false := immFits_eq_false h
    refine ⟨faultsAs_of_aluRunIf hr rfl hno, faultsAs_of_aluRunIf hr rfl hno, faultsAs_of_aluRunIf hr rfl hno,
      faultsAs_of_faultHere (extra := 0) (addr := 0) hr rfl (if_pos ?_), faultsAs_of_faultHere (extra := 0) (addr := 0) hr rfl (if_pos ?_)⟩ <;>
      simp only [hno, Bool.not_false, Bool.true_or]
  case qfree => exact faultsAs_of_aluRunIf hr rfl (decide_eq_false (Nat.not_le.2 h))
  case window =>
    have hno : regImm imm = false := by
      rcases h with h | h
      · simp only [regImm, h, decide_false, Bool.false_and]
      · simp only [regImm, Nat.not_lt.2 h, decide_false, Bool.and_false]
    exact ⟨faultsAs_of_aluRunIf hr rfl hno, faultsAs_of_faultHere (extra := 0) (addr := 0) hr rfl (if_pos (by rw [hno]; rfl))⟩

/-! ### Addresses of descriptors (R120, R139) -/

section
variable {s : State} {t e : Nat} {i : Instr} {ra : Reg} {imm : Imm}

theorem issue_faults_align (hr : (s.tile t).runs = true) (hi : exec i s = .next (issueRun e t ra imm s))
    (hd : (s.tile t).addr ra imm % 256 ≠ 0) : FaultsAs i s t .addrAlign (s.tile t).pc :=
  faultsAs_of_faultHere (extra := 0) (addr := 0) hr hi (if_pos hd)

theorem issue_faults_range (hr : (s.tile t).runs = true) (hi : exec i s = .next (issueRun e t ra imm s))
    (hd : (s.tile t).addr ra imm % 256 = 0) (hout : (s.tile t).addr ra imm < 0 ∨ 0x17FFFF < (s.tile t).addr ra imm + 255) :
    FaultsAs i s t .addrRange (s.tile t).pc := by
  have hout' : (decide ((s.tile t).addr ra imm < 0) || decide ((scratchEnd : Int) < (s.tile t).addr ra imm + 256)) = true := by
    rw [Bool.or_eq_true, decide_eq_true_eq, decide_eq_true_eq]
    unfold scratchEnd
    omega
  exact faultsAs_of_faultHere (extra := 0) (addr := 0) hr hi ((if_neg (not_not.2 hd)).trans (if_pos hout'))

end

/-- Settles O14: the two checks of a descriptor's address, in their order, for each of the five engines. -/
theorem descriptorAddressFaults : Obligations.DescriptorAddressFaults := by
  unfold Obligations.DescriptorAddressFaults
  intro s t ra imm hr
  exact ⟨fun hd => ⟨issue_faults_align hr rfl hd, issue_faults_align hr rfl hd, issue_faults_align hr rfl hd, issue_faults_align hr rfl hd,
      issue_faults_align hr rfl hd⟩,
    fun hd hout => ⟨issue_faults_range hr rfl hd hout, issue_faults_range hr rfl hd hout, issue_faults_range hr rfl hd hout,
      issue_faults_range hr rfl hd hout, issue_faults_range hr rfl hd hout⟩⟩

end Sys2Proof.Machine
end

section
namespace Sys2Proof.Machine

/-! ## Branches (R110, R113, R119) -/

section
variable {s u : State} {t p : Nat} {ls : List Loop}

/-- A tile that differs in its registers and its open loop levels only. -/
structure SameButRegs (x y : Tile) : Prop where
  shape  : y = { x with g := y.g, strands := y.strands, loops := y.loops }
  strand : ∀ n, n ≠ x.current → y.strand n = x.strand n

theorem SameButRegs.refl (x : Tile) : SameButRegs x x := ⟨rfl, fun _ _ => rfl⟩
theorem setReg_sameButRegs (x : Tile) (r : Reg) (v : Word) : SameButRegs x (x.setReg r v) :=
  ⟨by rw [Tile.setReg_shape], fun _ hn => Tile.setReg_strand_other x r v hn⟩

/-- Where a strand stands after it went to an address, and the frame of its instruction. -/
theorem onlyFlow_of_goTo {y : Tile} (ho : OnlyTile s u t) (hu : u.tile t = { y.goTo p with loops := ls }) (hy : SameButRegs (s.tile t) y) :
    At u t p ls ∧ OnlyFlow s u t ∧ ∀ r, (u.tile t).reg r = y.reg r := by
  have hcur : y.current = (s.tile t).current := by rw [hy.shape]
  refine ⟨⟨?_, ?_⟩, ⟨ho, ?_, fun n hn => ?_⟩, fun r => ?_⟩
  · rw [hu]
    exact Tile.goTo_pc y p
  · rw [hu]
  · rw [hu, Tile.goTo_shape, hy.shape]
  · rw [hu]
    exact (Tile.goTo_strand_other y p (hcur ▸ hn)).trans (hy.strand n hn)
  · rw [hu]
    exact Tile.goTo_reg y p r

/-- The instruction that went to an address wrote no register. -/
theorem noReg_of_goTo (ho : OnlyTile s u t) (hu : u.tile t = { (s.tile t).goTo p with loops := ls }) : At u t p ls ∧ NoReg s u t := by
  obtain ⟨hat, hflow, hreg⟩ := onlyFlow_of_goTo ho hu (.refl _)
  exact ⟨hat, hflow, hreg⟩

/-- The instruction that went to an address wrote one register. -/
theorem onlyReg_of_goTo {rd : Reg} {v : Word} (hg : (s.tile t).g.length = 29) (ho : OnlyTile s u t)
    (hu : u.tile t = { ((s.tile t).setReg rd v).goTo p with loops := ls }) :
    At u t p ls ∧ (u.tile t).reg rd = (if rd = 0 then 0 else v) ∧ OnlyReg s u t rd := by
  obtain ⟨hat, hflow, hreg⟩ := onlyFlow_of_goTo ho hu (setReg_sameButRegs ..)
  exact ⟨hat, (hreg rd).trans (Tile.reg_setReg_same hg rd v), hflow, fun r hr => (hreg r).trans (Tile.reg_setReg_other hr v)⟩

/-- The levels that a branch of the current strand leaves open (R119). -/
def Tile.loopsLeft (x : Tile) (target : Nat) : List Loop := if x.current = 0 then loopsAfter target x.loops else x.loops

/-- A branch taken, by an instruction that leaves the tile y. -/
theorem seqRun_jump {f : Tile → SeqOut} {target : Nat} (hr : (s.tile t).runs = true) (hf : f (s.tile t) = .jump u target) :
    seqRun t s f = u.setTile t { (u.tile t).goTo target with loops := (u.tile t).loopsLeft target } := by
  simp only [seqRun, hr, hf, Bool.not_true, Bool.false_eq_true, if_false]
  rfl

theorem jump_yields {i : Instr} {f : Tile → SeqOut} {target : Nat} (hr : (s.tile t).runs = true) (hi : exec i s = .next (seqRun t s f))
    (hf : f (s.tile t) = .jump s target) : Yields i s (fun u => At u t target ((s.tile t).loopsLeft target) ∧ NoReg s u t) :=
  ⟨_, hi.trans (congrArg _ (seqRun_jump hr hf)), noReg_of_goTo (onlyTile_setTile ..) (State.tile_setTile ..)⟩

/-- A branch that also writes a register. -/
theorem jump_setReg_yields {i : Instr} {f : Tile → SeqOut} {target : Nat} {rd : Reg} {v : Word} (hr : (s.tile t).runs = true)
    (hg : (s.tile t).g.length = 29) (hi : exec i s = .next (seqRun t s f))
    (hf : f (s.tile t) = .jump (s.setTile t ((s.tile t).setReg rd v)) target) :
    Yields i s (fun u => At u t target ((s.tile t).loopsLeft target) ∧ (u.tile t).reg rd = (if rd = 0 then 0 else v) ∧ OnlyReg s u t rd) := by
  refine ⟨_, hi.trans (congrArg _ (seqRun_jump hr hf)), onlyReg_of_goTo hg (setTile_setTile ..) ?_⟩
  rw [State.tile_setTile, State.tile_setTile]
  simp only [Tile.loopsLeft, Tile.setReg_current, Tile.setReg_loops]

/-- An instruction that leaves the state as it is falls through. -/
theorem next_yields {i : Instr} {f : Tile → SeqOut} (hr : (s.tile t).runs = true) (hi : exec i s = .next (seqRun t s f))
    (hf : f (s.tile t) = .next s) (hfall : (s.tile t).fallThrough (s.tile t).pc = (some p, ls)) :
    Yields i s (fun u => At u t p ls ∧ NoReg s u t) := by
  refine ⟨_, hi.trans (congrArg _ (Eq.trans ?_ (seqNext_falls hfall))), noReg_of_goTo (onlyTile_setTile ..) (State.tile_setTile ..)⟩
  simp only [seqRun, hr, hf, Bool.not_true, Bool.false_eq_true, if_false]

end

/-- The condition of BR, by the numbers of R110. -/
theorem brHolds_iff {cond : BitVec 5} (hc : cond.toNat ≤ 5) (a b : Word) : brHolds cond.toNat a b = true ↔
    (cond = 0 ∧ a = b) ∨ (cond = 1 ∧ a ≠ b) ∨ (cond = 2 ∧ a.toInt < b.toInt) ∨ (cond = 3 ∧ b.toInt ≤ a.toInt) ∨
      (cond = 4 ∧ a.toNat < b.toNat) ∨ (cond = 5 ∧ b.toNat ≤ a.toNat) := by
  have hcases : cond = 0 ∨ cond = 1 ∨ cond = 2 ∨ cond = 3 ∨ cond = 4 ∨ cond = 5 := by
    have : cond.toNat = 0 ∨ cond.toNat = 1 ∨ cond.toNat = 2 ∨ cond.toNat = 3 ∨ cond.toNat = 4 ∨ cond.toNat = 5 := by omega
    simp only [← BitVec.toNat_inj]
    exact this
  rcases hcases with rfl | rfl | rfl | rfl | rfl | rfl <;> simp [brHolds, slt_eq_decide, ult_eq_decide]

/-- Where the condition holds, COND is one of the six. -/
theorem cond_le_of_holds {cond : BitVec 5} {p q r u v w : Prop}
    (h : (cond = 0 ∧ p) ∨ (cond = 1 ∧ q) ∨ (cond = 2 ∧ r) ∨ (cond = 3 ∧ u) ∨ (cond = 4 ∧ v) ∨ (cond = 5 ∧ w)) : cond.toNat ≤ 5 := by
  rcases h with ⟨rfl, -⟩ | ⟨rfl, -⟩ | ⟨rfl, -⟩ | ⟨rfl, -⟩ | ⟨rfl, -⟩ | ⟨rfl, -⟩ <;> decide

/-- Settles O9: the branch of the condition, CALL's link and DBNZ's count; a register that counts down is not g0. -/
theorem branches : Obligations.Branches := by
  unfold Obligations.Branches
  intro s t rd ra rb imm cond hr hg
  refine ⟨fun himm => ?_, fun ha => jump_yields hr rfl (if_neg (Nat.not_le.2 ha))⟩
  have hfits : immFits imm 13 = true := immFits_iff.2 himm
  have br : cond.toNat ≤ 5 → (decide (5 < cond.toNat) || !immFits imm 13) ≠ true := fun hc => by
    simp only [Nat.not_lt.2 hc, hfits, decide_false, Bool.not_true, Bool.or_self, ne_eq, Bool.false_eq_true, not_false_eq_true]
  have dbnz : (!immFits imm 13) ≠ true := by simp only [hfits, Bool.not_true, ne_eq, Bool.false_eq_true, not_false_eq_true]
  have one : ∀ a : Word, a - 1 = 0 ↔ a = 1 := fun a => sub_eq_zero
  refine ⟨fun hh => ?taken, fun p ls hno hc hfall => ?falls, ?jmp, ?call, fun hne => ?counts, fun p ls h1 hfall => ?ends⟩
  case taken =>
    have hc := cond_le_of_holds hh
    exact jump_yields hr rfl ((if_neg (br hc)).trans (if_pos ((brHolds_iff hc ..).2 hh)))
  case falls => exact next_yields hr rfl ((if_neg (br hc)).trans (if_neg (mt (brHolds_iff hc ..).1 hno))) hfall
  case jmp => exact jump_yields hr rfl (if_pos hfits)
  case call => exact jump_setReg_yields hr hg rfl (if_pos hfits)
  case counts => exact jump_setReg_yields hr hg rfl ((if_neg dbnz).trans (if_neg (mt (one _).1 hne)))
  case ends =>
    have hv : (s.tile t).reg ra - 1 = 0 := (one _).2 h1
    have hf : ∀ v, ((s.setTile t ((s.tile t).setReg ra v)).tile t).fallThrough ((s.setTile t ((s.tile t).setReg ra v)).tile t).pc = (some p, ls) :=
      fun v => by rw [State.tile_setTile, Tile.setReg_fallThrough, Tile.setReg_pc, hfall]
    have hi : exec (.dbnz t ra imm) s = .next ((s.setTile t ((s.tile t).setReg ra ((s.tile t).reg ra - 1))).seqNext t) := by
      refine congrArg Host.Outcome.next ?_
      simp only [seqRun, hr, dbnz, hv, Bool.not_true, Bool.false_eq_true, if_false, if_true]
    obtain ⟨hat, hreg, hframe⟩ := onlyReg_of_goTo (p := p) (ls := ls) (rd := ra) hg (setTile_setTile s t ((s.tile t).setReg ra ((s.tile t).reg ra - 1)) _)
      (State.tile_setTile ..)
    refine ⟨_, hi.trans (congrArg _ ((seqNext_falls (hf _)).trans (by rw [State.tile_setTile]))), hat, ?_, hframe⟩
    rw [hreg, hv, ite_self]

end Sys2Proof.Machine
end

section
namespace Sys2Proof.Machine

/-! ## Loads and stores (R76, R110 to R112) -/

/-! ### Bytes -/

theorem Memory.readN_eq_map (m : Memory) (a n : Nat) : m.readN a n = (List.range n).map (fun i => m.read (a + i)) := by
  refine List.ext_getElem (by simp) fun i h1 h2 => ?_
  rw [Memory.getElem_readN]
  simp

/-- Byte j of the little-endian bytes of a number. -/
theorem getElem_leBytes {k n j : Nat} (h : j < (leBytes k n).length) : (leBytes k n)[j] = BitVec.ofNat 8 (n / 256 ^ j) := by
  induction k generalizing n j with
  | zero => exact absurd h (Nat.not_lt_zero j)
  | succ k ih =>
    cases j with
    | zero => rw [Nat.pow_zero, Nat.div_one]; rfl
    | succ j =>
      have hj : j < (leBytes k (n / 256)).length := Nat.lt_of_succ_lt_succ h
      have hdiv : n / 256 / 256 ^ j = n / 256 ^ (j + 1) := by rw [Nat.div_div_eq_div_mul, Nat.pow_succ']
      rw [← hdiv, ← ih hj]
      rfl

theorem getElem_leBytes_toNat {w k j : Nat} {v : BitVec w} (h : j < (leBytes k v.toNat).length) :
    (leBytes k v.toNat)[j] = v.extractLsb' (8 * j) 8 := by
  have hpow : v.toNat / 256 ^ j = v.toNat >>> (8 * j) := by rw [Nat.shiftRight_eq_div_pow, Nat.pow_mul]
  rw [getElem_leBytes, hpow]
  rfl

/-- What a memory holds after bytes have been written into it. -/
theorem Memory.read_writeN {m : Memory} (h : m.wf = true) (a : Nat) (bs : List Byte) (b : Nat) :
    (m.writeN a bs).read b = if h : a ≤ b ∧ b < a + bs.length then bs[b - a]'(by omega) else m.read b := by
  split
  · next hb =>
    obtain ⟨j, rfl⟩ := Nat.exists_eq_add_of_le hb.1
    rw [Memory.read_writeN_same a bs h j (by omega)]
    simp only [Nat.add_sub_cancel_left]
  · next hb => exact Memory.read_writeN_other m a bs (by omega)

/-- What a memory holds after the low bytes of a word have been written into it. -/
theorem Memory.read_writeN_leBytes {m : Memory} (h : m.wf = true) {w : Nat} (v : BitVec w) (a k b : Nat) :
    (m.writeN a (leBytes k v.toNat)).read b = if a ≤ b ∧ b < a + k then v.extractLsb' (8 * (b - a)) 8 else m.read b := by
  simp only [Memory.read_writeN h, leBytes_length, getElem_leBytes_toNat, dite_eq_ite]

/-! ### The words of an access -/

/-- A half word at its alignment lies in one word of check bits. -/
theorem wordsOf_half {a : Nat} (h : a % 4 = 0) : wordsOf a 4 = [a / 8 * 8] := by
  have h1 : (a + 4 - 1) / 8 - a / 8 + 1 = 1 := by omega
  simp only [wordsOf, h1, List.range_one, List.map_cons, List.map_nil]
  rfl

/-- What the check of one word does: a correctable error of it is corrected and counted (R76). -/
theorem Tile.fixSoft_single (x : Tile) (w : Nat) : x.fixSoft [w] =
    { x with soft := x.soft.filter (fun v => v ≠ w), eccCorr := if w ∈ x.soft then x.count x.eccCorr 1 else x.eccCorr } := by
  by_cases hw : w ∈ x.soft
  · simp [Tile.fixSoft, hw]
  · have hne : ∀ v ∈ x.soft, decide (v ≠ w) = true := fun v hv => decide_eq_true fun e => hw (e ▸ hv)
    have hsoft : x.soft.filter (fun v => v ≠ w) = x.soft := List.filter_eq_self.2 hne
    rw [hsoft, if_neg hw]
    simp [Tile.fixSoft, hw]

/-- A store none of whose words holds an uncorrectable error, but for those that it writes whole. -/
theorem Tile.store_ok {x : Tile} {a : Nat} {bs : List Byte}
    (h : ∀ w ∈ wordsOf a bs.length, w ∈ x.bad → a ≤ w ∧ w + 8 ≤ a + bs.length) : x.store a bs = .ok (x.stored a bs) := by
  have hf : (wordsOf a bs.length).find? (fun w => x.bad.contains w &&
      !((wordsOf a bs.length).filter (fun w => a ≤ w && w + 8 ≤ a + bs.length)).contains w) = none :=
    List.find?_eq_none.2 fun w hw => by
      by_cases hb : w ∈ x.bad
      · simp [hb, hw, h w hw hb]
      · simp [hb]
  simp only [Tile.store, hf]
  rfl

/-- What a store leaves alone. -/
theorem Tile.stored_shape (x : Tile) (a : Nat) (bs : List Byte) : x.stored a bs =
    { x with scratch := x.scratch.writeN a bs, bad := (x.stored a bs).bad, soft := (x.stored a bs).soft, eccCorr := (x.stored a bs).eccCorr } := by
  simp only [Tile.stored]
  rw [Tile.fixSoft_shape]

/-- A whole word that is stored has no error any more. -/
theorem Tile.stored_word (x : Tile) {a : Nat} {bs : List Byte} (ha : a % 8 = 0) (hbs : bs.length = 8) :
    a ∉ (x.stored a bs).bad ∧ a ∉ (x.stored a bs).soft := by
  have hw : a / 8 * 8 = a := Nat.div_mul_cancel (Nat.dvd_of_mod_eq_zero ha)
  simp [Tile.stored, hbs, wordsOf_word ha, hw]

/-! ### The instructions -/

section
variable {s : State} {t p a : Nat} {ls : List Loop}

/-- An instruction that changes its tile where the flow does not read, then one register, falls through. -/
theorem seqRun_setReg {f : Tile → SeqOut} {y : Tile} {rd : Reg} {v : Word} (h : s.Falls t p ls)
    (hf : f (s.tile t) = .next (s.setTile t (y.setReg rd v))) (hy : SameFlow (s.tile t) y) :
    seqRun t s f = (s.setTile t (y.setReg rd v)).setTile t { (y.setReg rd v).goTo p with loops := ls } := by
  rw [seqRun_next h hf, seqNext_falls (p := p) (ls := ls), State.tile_setTile]
  rw [State.tile_setTile, Tile.setReg_fallThrough, Tile.setReg_pc, hy.fallThrough, h.falls]

/-- A load of n bytes within one word, as the statement of R110 has it. -/
theorem load_yields {i : Instr} {n : Nat} {rd ra : Reg} {imm : Imm} (h : s.Falls t p ls) (hi : exec i s = .next (loadRun n t rd ra imm s))
    (ha : (s.tile t).addr ra imm = (a : Int)) (hlt : a < 0x180000) (hal : a % n = 0) (hw : wordsOf a n = [a / 8 * 8])
    (hbad : a / 8 * 8 ∉ (s.tile t).bad) :
    Yields i s (fun u => (u.tile t).reg rd = (if rd = 0 then 0 else BitVec.ofNat 64 (ofLe ((List.range n).map (fun i => s.scratchByte t (a + i))))) ∧
      (∀ r, r ≠ rd → (u.tile t).reg r = (s.tile t).reg r) ∧ At u t p ls ∧ OnlyTile s u t ∧
      u.tile t = { s.tile t with g := (u.tile t).g, strands := (u.tile t).strands, loops := ls, issued := (u.tile t).issued,
                                 soft := (s.tile t).soft.filter (fun w => w ≠ a / 8 * 8),
                                 eccCorr := if (a / 8 * 8) ∈ (s.tile t).soft then (s.tile t).count (s.tile t).eccCorr 1
                                            else (s.tile t).eccCorr } ∧
      (∀ n, n ≠ (s.tile t).current → (u.tile t).strand n = (s.tile t).strand n)) := by
  let v := BitVec.ofNat 64 (ofLe ((List.range n).map (fun i => s.scratchByte t (a + i))))
  let y := (s.tile t).fixSoft [a / 8 * 8]
  have hflow : SameFlow (s.tile t) y := by constructor <;> simp only [y, Tile.fixSoft_single]
  have hload : (s.tile t).load a n = .ok ((s.tile t).scratch.readN a n, y) := by
    rw [Tile.load_ok (by rw [hw]; exact List.forall_mem_singleton.2 hbad), hw]
  have hf : (match scalarAddr ((s.tile t).addr ra imm) n with
      | .error st => SeqOut.fault s st 0 0
      | .ok a => match (s.tile t).load a n with
        | .error (w, y) => .fault (s.setEcc t y w) .uncorrectable 0 w
        | .ok (bs, y) => .next (s.setTile t (y.setReg rd (wd (ofLe bs))))) = .next (s.setTile t (y.setReg rd v)) := by
    simp only [ha, scalarAddr_inside hlt, hal, ne_eq, not_true_eq_false, if_false, hload, Memory.readN_eq_map]
    rfl
  have hg : y.g.length = 29 := by rw [hflow.g, h.regs]
  have hu := State.tile_setTile (s.setTile t (y.setReg rd v)) t { (y.setReg rd v).goTo p with loops := ls }
  refine ⟨_, hi.trans (congrArg _ (seqRun_setReg h hf hflow)), ?_, fun r hr => ?_, ⟨?_, ?_⟩, setTile_setTile .., ?_, fun m hm => ?_⟩
  · rw [hu]
    exact (Tile.goTo_reg ..).trans (Tile.reg_setReg_same hg rd v)
  · rw [hu]
    exact (Tile.goTo_reg ..).trans ((Tile.reg_setReg_other hr v).trans (hflow.reg r))
  · rw [hu]
    exact Tile.goTo_pc ..
  · rw [hu]
  · rw [hu, Tile.goTo_shape, Tile.setReg_shape]
    simp only [y, Tile.fixSoft_single]
  · rw [hu]
    have hcur : (y.setReg rd v).current = (s.tile t).current := (Tile.setReg_current ..).trans hflow.current
    exact (Tile.goTo_strand_other _ p (hcur ▸ hm)).trans ((Tile.setReg_strand_other y rd v (hflow.current ▸ hm)).trans (hflow.strand m))

/-- A store of n bytes, as the statement of R110 has it. -/
theorem store_yields {i : Instr} {n : Nat} {rb ra : Reg} {imm : Imm} (h : s.Falls t p ls) (hi : exec i s = .next (storeRun n t rb ra imm s))
    (ha : (s.tile t).addr ra imm = (a : Int)) (hlt : a < 0x180000) (hal : a % n = 0) (hwf : (s.tile t).scratch.wf = true)
    (hbad : ∀ w ∈ wordsOf a n, w ∈ (s.tile t).bad → a ≤ w ∧ w + 8 ≤ a + n) :
    Yields i s (fun u => ((∀ b, u.scratchByte t b = if a ≤ b ∧ b < a + n then ((s.tile t).reg rb).extractLsb' (8 * (b - a)) 8 else s.scratchByte t b) ∧
      (∀ r, (u.tile t).reg r = (s.tile t).reg r) ∧ At u t p ls ∧ OnlyTile s u t ∧
      u.tile t = { s.tile t with strands := (u.tile t).strands, loops := ls, issued := (u.tile t).issued,
                                 scratch := (u.tile t).scratch, bad := (u.tile t).bad, soft := (u.tile t).soft,
                                 eccCorr := (u.tile t).eccCorr } ∧
      (∀ n, n ≠ (s.tile t).current → (u.tile t).strand n = (s.tile t).strand n)) ∧
      (u.tile t).bad = ((s.tile t).stored a (leBytes n ((s.tile t).reg rb).toNat)).bad ∧
      (u.tile t).soft = ((s.tile t).stored a (leBytes n ((s.tile t).reg rb).toNat)).soft) := by
  let y := (s.tile t).stored a (leBytes n ((s.tile t).reg rb).toNat)
  have hflow : SameFlow (s.tile t) y := by constructor <;> simp only [y] <;> rw [Tile.stored_shape]
  have hstore : (s.tile t).store a (leBytes n ((s.tile t).reg rb).toNat) = .ok y := Tile.store_ok (by rw [leBytes_length]; exact hbad)
  have hf : (match scalarAddr ((s.tile t).addr ra imm) n with
      | .error st => SeqOut.fault s st 0 0
      | .ok a => match (s.tile t).store a (leBytes n ((s.tile t).reg rb).toNat) with
        | .error (w, y) => .fault (s.setEcc t y w) .uncorrectable 0 w
        | .ok y => .next (s.setTile t y)) = .next (s.setTile t y) := by
    simp only [ha, scalarAddr_inside hlt, hal, ne_eq, not_true_eq_false, if_false, hstore]
  have hu := State.tile_setTile (s.setTile t y) t { y.goTo p with loops := ls }
  refine ⟨_, hi.trans (congrArg _ (seqRun_sameFlow h hf hflow)), ⟨fun b => ?_, fun r => ?_, ⟨?_, ?_⟩, setTile_setTile .., ?_, fun m hm => ?_⟩, ?_, ?_⟩
  · rw [State.scratchByte, hu, Tile.goTo_shape]
    simp only [y]
    rw [Tile.stored_shape]
    exact Memory.read_writeN_leBytes hwf ..
  · rw [hu]
    exact (Tile.goTo_reg ..).trans (hflow.reg r)
  · rw [hu]
    exact Tile.goTo_pc ..
  · rw [hu]
  · rw [hu, Tile.goTo_shape]
    simp only [y]
    rw [Tile.stored_shape]
  · rw [hu]
    exact (Tile.goTo_strand_other y p (hflow.current ▸ hm)).trans (hflow.strand m)
  · rw [hu, Tile.goTo_shape]
  · rw [hu, Tile.goTo_shape]

end

/-- Settles O4: both widths lie within one word. -/
theorem loads : Obligations.Loads := by
  unfold Obligations.Loads
  intro s t p a ls rd ra imm h ha hlt hbad
  exact ⟨fun h8 => load_yields h rfl ha hlt h8 (wordsOf_word h8) hbad, fun h4 => load_yields h rfl ha hlt h4 (wordsOf_half h4) hbad⟩

/-- Settles O5: a whole word needs no check, a half word that of its word. -/
theorem stores : Obligations.Stores := by
  unfold Obligations.Stores
  intro s t p a ls rb ra imm h ha hlt hwf
  refine ⟨fun h8 => ?whole, fun h4 hbad => ?half⟩
  case whole =>
    have hin : ∀ w ∈ wordsOf a 8, w ∈ (s.tile t).bad → a ≤ w ∧ w + 8 ≤ a + 8 := fun w hw _ => by
      rw [wordsOf_word h8, List.mem_singleton] at hw
      omega
    refine (store_yields h rfl ha hlt h8 hwf hin).mono fun u ⟨hst, hb, hs⟩ => ⟨hst, ?_⟩
    rw [hb, hs]
    exact Tile.stored_word _ h8 (leBytes_length ..)
  case half =>
    have hout : ∀ w ∈ wordsOf a 4, w ∈ (s.tile t).bad → a ≤ w ∧ w + 8 ≤ a + 4 := fun w hw hb => by
      rw [wordsOf_half h4, List.mem_singleton] at hw
      exact absurd (hw ▸ hb) hbad
    exact (store_yields h rfl ha hlt h4 hwf hout).mono fun u hu => hu.1

end Sys2Proof.Machine
end

section
namespace Sys2Proof.Machine

/-! ## Loops, regions, fences (R116, R142, R148) -/

section
variable {s : State} {t p : Nat} {ls : List Loop}

/-- The strand goes on behind the start of a loop, whose body begins there. -/
theorem fallThrough_opened {x : Tile} {l : Loop} (h0 : x.current = 0) (hpc : x.pc < 8191) (hl : x.pc + 1 ≤ l.last) :
    ({ x with loops := l :: x.loops } : Tile).fallThrough x.pc = (some (x.pc + 1), l :: x.loops) := by
  have hne : l.last ≠ x.pc := by omega
  have hpc' : x.pc ≠ 8191 := by omega
  simp only [Tile.fallThrough, Tile.fallThroughOf, h0, loopEnd, hne, hpc', if_true, if_false]

theorem loop_yields {ra : Reg} {imm : Imm} (h : s.Falls t p ls) (himm : imm.toNat < 8192) (h0 : (s.tile t).current = 0)
    (hpc : (s.tile t).pc < 8191) (hend : (s.tile t).pc + 1 ≤ imm.toNat) (hin : ∀ l ∈ (s.tile t).loops.head?, imm.toNat ≤ l.last)
    (hfree : (s.tile t).loops.length < 4) (hn : ((s.tile t).reg ra).toNat % 2 ^ 32 ≠ 0) :
    Yields (.loop t ra imm) s (fun u => At u t ((s.tile t).pc + 1)
      (⟨(s.tile t).pc + 1, imm.toNat, ((s.tile t).reg ra).toNat % 2 ^ 32, 0⟩ :: (s.tile t).loops) ∧ NoReg s u t) := by
  let l : Loop := ⟨(s.tile t).pc + 1, imm.toNat, ((s.tile t).reg ra).toNat % 2 ^ 32, 0⟩
  let y : Tile := { s.tile t with loops := l :: (s.tile t).loops }
  have hbits : bits ((s.tile t).reg ra) 31 0 = ((s.tile t).reg ra).toNat % 2 ^ 32 := by simp only [bits, fld, Nat.pow_zero, Nat.div_one]
  have hfits : immFits imm 13 = true := immFits_iff.2 himm
  have hrun : exec (.loop t ra imm) s = .next ((s.setTile t y).seqNext t) := by
    have hno : (!immFits imm 13 || decide ((s.tile t).current ≠ 0) || decide (imm.toNat < (s.tile t).pc + 1)) = false := by
      simp only [hfits, h0, Nat.not_lt.2 hend, Bool.not_true, ne_eq, not_true_eq_false, decide_false, Bool.or_self]
    refine congrArg Host.Outcome.next (seqRun_next h ?_)
    cases hl : (s.tile t).loops with
    | nil =>
      have hdepth : ¬ 4 ≤ ([] : List Loop).length := by decide
      simp only [hno, hl, hbits, hn, hdepth, Bool.or_false, Bool.false_eq_true, if_false, y, l]
    | cons o r =>
      have hbeyond : ¬ o.last < imm.toNat := Nat.not_lt.2 (hin o (by rw [hl]; exact rfl))
      have hdepth : ¬ 4 ≤ (o :: r).length := Nat.not_le.2 (hl ▸ hfree)
      simp only [hno, hl, hbits, hn, hbeyond, hdepth, decide_false, Bool.or_false, Bool.false_eq_true, if_false, y, l]
  have hfall : ((s.setTile t y).tile t).fallThrough ((s.setTile t y).tile t).pc = (some ((s.tile t).pc + 1), l :: (s.tile t).loops) := by
    rw [State.tile_setTile]
    exact fallThrough_opened h0 hpc hend
  have hu := State.tile_setTile (s.setTile t y) t { y.goTo ((s.tile t).pc + 1) with loops := l :: (s.tile t).loops }
  obtain ⟨hat, hflow, hreg⟩ := onlyFlow_of_goTo (setTile_setTile ..) hu ⟨rfl, fun _ _ => rfl⟩
  exact ⟨_, hrun.trans (congrArg _ ((seqNext_falls hfall).trans (by rw [State.tile_setTile]))), hat, hflow, hreg⟩

/-- DEFRGN of a region that no instruction in flight uses. -/
theorem defrgn_yields {ra rb : Reg} {imm : Imm} (h : s.Falls t p ls) (himm : imm.toNat < 64) (hal : ((s.tile t).reg ra).toNat % 64 = 0)
    (hpos : 0 < ((s.tile t).reg rb).toNat) (hin : ((s.tile t).reg ra).toNat + 64 * ((s.tile t).reg rb).toNat ≤ 0x180000)
    (hfree : ∀ q ∈ (s.tile t).inFlight, (q.rdMask ||| q.wrMask).getLsbD imm.toNat = false) :
    Yields (.defrgn t ra rb imm) s (fun u => At u t p ls ∧
      (u.tile t).regions.look imm.toNat = some ⟨((s.tile t).reg ra).toNat / 64, ((s.tile t).reg rb).toNat⟩ ∧
      (∀ r, r ≠ imm.toNat → (u.tile t).regions.look r = (s.tile t).regions.look r) ∧
      (∀ r, (u.tile t).reg r = (s.tile t).reg r) ∧ (u.tile t).scratch = (s.tile t).scratch ∧ OnlyTile s u t) := by
  let y : Tile := { s.tile t with regions := (s.tile t).regions.put imm.toNat ⟨((s.tile t).reg ra).toNat / 64, ((s.tile t).reg rb).toNat⟩ }
  have hfits : immFits imm 6 = true := immFits_iff.2 himm
  have husers : (s.tile t).inFlight.filter (fun q => bit (q.rdMask ||| q.wrMask) imm.toNat) = [] :=
    List.filter_eq_nil_iff.2 fun q hq => ne_true_of_eq_false (hfree q hq)
  have hne : ((s.tile t).reg rb).toNat ≠ 0 := by omega
  have hlines : ¬ 24576 < ((s.tile t).reg rb).toNat := by omega
  have hend : ¬ scratchEnd < ((s.tile t).reg ra).toNat + 64 * ((s.tile t).reg rb).toNat := Nat.not_lt.2 hin
  refine (yields_sameFlow (y := y) h rfl ?_ ⟨rfl, rfl, rfl, rfl⟩ rfl).mono fun u ⟨hu, hat, hreg, hscr, ho⟩ => ⟨hat, ?_, fun r hr => ?_, hreg, hscr, ho⟩
  · simp only [hfits, hal, hne, hlines, hend, husers, Bool.not_true, Bool.false_eq_true, ne_eq, not_true_eq_false, decide_false, Bool.or_self,
      if_false, List.isEmpty_nil, if_true]
    rfl
  · rw [hu, Tile.goTo_shape]
    exact SMap.look_put_same ..
  · rw [hu, Tile.goTo_shape]
    exact SMap.look_put_other _ hr _

/-- FENCE of nothing that is in flight. -/
theorem fence_yields {ra : Reg} {imm : Imm} (h : s.Falls t p ls) (himm : imm.toNat < 32)
    (hregion : ∀ q ∈ (s.tile t).inFlight, (q.rdMask ||| q.wrMask) &&& (s.tile t).reg ra = 0)
    (hengine : ∀ e, e < 5 → imm.toNat.testBit e = true → (s.tile t).queue e = []) :
    Yields (.fence t ra imm) s (fun u => At u t p ls ∧ NoReg s u t) := by
  have hfits : immFits imm 6 = true := immFits_iff.2 (himm.trans (by decide))
  have hboundary : imm.toNat.testBit 5 = false := Nat.testBit_lt_two_pow himm
  have hbyRegion : (s.tile t).inFlight.filter (fun q => (q.rdMask ||| q.wrMask) &&& (s.tile t).reg ra ≠ 0) = [] :=
    List.filter_eq_nil_iff.2 fun q hq => by simp [hregion q hq]
  have hbyEngine : (List.range 5).flatMap (fun e => if imm.toNat.testBit e then (s.tile t).queue e else []) = [] :=
    List.flatMap_eq_nil_iff.2 fun e he => by
      split
      · next hbit => exact hengine e (List.mem_range.1 he) hbit
      · rfl
  refine next_yields (f := fun x => _) h.runs rfl ?_ h.falls
  simp only [hfits, hboundary, hbyRegion, hbyEngine, Bool.not_true, Bool.false_and, Bool.or_self, Bool.false_eq_true, if_false, List.append_nil,
    List.map_nil, List.isEmpty_nil, Bool.not_false, Bool.and_self, if_true]

end

/-- Settles O11, instruction by instruction. -/
theorem loopsRegionsFences : Obligations.LoopsRegionsFences := by
  unfold Obligations.LoopsRegionsFences
  intro s t p ls ra rb imm h
  exact ⟨fun himm h0 hend hin hfree hpc hn => loop_yields h himm h0 hpc hend hin hfree hn,
    fun himm hal hpos hin hfree => defrgn_yields h himm hal hpos hin hfree, fun himm hregion hengine => fence_yields h himm hregion hengine⟩

end Sys2Proof.Machine
end

section
namespace Sys2Proof.Machine

/-! ## Program boundary, strand switches and wakes (R81, R82, R144, R150) -/

/-! ### Contexts -/

theorem Tile.mem_bad_of_saveCtx {x : Tile} {n w : Nat} (h : w ∈ (x.saveCtx n).bad) : w ∈ x.bad := List.mem_of_mem_filter h

/-- The words that an access touches: at their alignment, from the word of its first byte to that of its last. -/
theorem mem_wordsOf {a n w : Nat} (h : w ∈ wordsOf a n) : w % 8 = 0 ∧ a / 8 * 8 ≤ w ∧ w < a + n := by
  unfold wordsOf at h
  split at h
  · contradiction
  · obtain ⟨i, hi, rfl⟩ := List.mem_map.1 h
    have hi' := List.mem_range.1 hi
    omega

/-- What a strand takes from a context in memory (R82). -/
def Strand.restored (d : Strand) (m : Memory) (a : Nat) : Strand :=
  let w := leWords 4 (m.readN a 32)
  { d with pc := bits (nth w 0 0) 12 0, g29 := nth w 1 0, g30 := nth w 2 0, g31 := nth w 3 0 }

theorem Strand.restored_g29 (d : Strand) (m : Memory) (a : Nat) : (d.restored m a).g29 = m.word (a + 8) :=
  (nth_leWords (by decide : 1 < 4) _).trans (Memory.word_readN _ _ (by decide))

theorem fixSoft_g (x : Tile) (ws : List Nat) : (x.fixSoft ws).g = x.g := by rw [Tile.fixSoft_shape]

/-- A context that meets no uncorrectable word is loaded. -/
theorem Tile.loadCtx_ok {x : Tile} {n : Nat} (h : ∀ w ∈ x.bad, w + 8 ≤ x.ctxAt n ∨ x.ctxAt n + 32 ≤ w) :
    x.loadCtx n = .ok ((x.fixSoft (wordsOf (x.ctxAt n) 32)).setStrand n
      (((x.fixSoft (wordsOf (x.ctxAt n) 32)).strand n).restored x.scratch (x.ctxAt n))) := by
  have hal : x.ctxAt n % 8 = 0 := by
    simp only [Tile.ctxAt]
    omega
  have hload := Tile.load_ok (x := x) (a := x.ctxAt n) (n := 32) fun w hw hb => by
    have hout := h w hb
    obtain ⟨hmod, hlow, hhigh⟩ := mem_wordsOf hw
    omega
  simp only [Tile.loadCtx, hload]
  rfl

section
variable {s : State} {t n p : Nat} {ids : List Nat} {ls : List Loop}

/-- Nothing of a list is in flight any more. -/
theorem stillIn_eq_false {x : Tile} (h : ∀ q ∈ x.inFlight, q.id ∉ ids) : x.stillIn ids = false := by
  simp only [Tile.stillIn, List.any_eq_false, List.contains_iff_mem]
  exact h

/-! ### A FENCE that is met -/

/-- Strand n, RUNNABLE at p, with its context saved. -/
def Tile.passed (x : Tile) (n p : Nat) (ls : List Loop) : Tile :=
  { x.setStrand n { x.strand n with state := .runnable, pc := p, wait := .none } with loops := ls }.saveCtx n

theorem passFence_falls (h : (s.tile t).fallThroughOf n ((s.tile t).strand n).pc = (some p, ls)) :
    s.passFence t n = s.setTile t ((s.tile t).passed n p ls) := by
  simp only [State.passFence, h]
  rfl

theorem Tile.strand_passed (x : Tile) (n p : Nat) (ls : List Loop) :
    (x.passed n p ls).strand n = { x.strand n with state := .runnable, pc := p, wait := .none } := Tile.strand_setStrand ..

/-- What a strand that passed its FENCE leaves. -/
theorem passFence_spec (h : (s.tile t).fallThroughOf n ((s.tile t).strand n).pc = (some p, ls)) :
    (((s.passFence t n).tile t).strand n).state = .runnable ∧ (((s.passFence t n).tile t).strand n).pc = p ∧
      ((s.passFence t n).tile t).loops = ls ∧ ((s.passFence t n).tile t).g = (s.tile t).g ∧ OnlyTile s (s.passFence t n) t ∧
      ((s.passFence t n).tile t).bank = (s.tile t).bank := by
  rw [passFence_falls h, State.tile_setTile, Tile.strand_passed]
  exact ⟨rfl, rfl, rfl, rfl, onlyTile_setTile .., rfl⟩

/-! ### The program boundary -/

/-- Strand 0 waits at the boundary, nothing is in flight, and every other strand is FREE (R150). -/
structure State.Bounded (s : State) (t : Nat) (ids : List Nat) : Prop where
  running : (s.tile t).state = .running
  waiting : ((s.tile t).strand 0).state = .waiting
  fence   : ((s.tile t).strand 0).wait = .fence ids true
  idle    : (s.tile t).inFlight = []
  free    : ∀ e ∈ (s.tile t).strands, e.1 = 0 ∨ e.2.state = .free

theorem State.Bounded.all_free (h : s.Bounded t ids) : (s.tile t).strands.all (fun e => e.1 = 0 || e.2.state = .free) = true :=
  List.all_eq_true.2 fun e he => by simpa using h.free e he

theorem State.Bounded.met (h : s.Bounded t ids) : (s.tile t).stillIn ids = false :=
  stillIn_eq_false (by rw [h.idle]; exact fun q hq => absurd hq List.not_mem_nil)

/-- Without an armed swap the strand passes its FENCE. -/
theorem boundary_unarmed (h : s.Bounded t ids) (ha : (s.tile t).armed = false) : s.boundary t = s.passFence t 0 := by
  simp only [State.boundary, h.running, h.waiting, h.fence, h.met, h.all_free, h.idle, ha, decide_true, Bool.not_false, Bool.and_self,
    List.isEmpty_nil, if_true]

/-- A tile after its armed swap. -/
def Tile.swapped (x : Tile) : Tile :=
  { x.setStrand 0 { x.strand 0 with state := .runnable, pc := 0, wait := .none } with
    bank := 1 - x.bank
    handlers := match x.table with
      | some ws => (List.range 64).foldl (fun m i => m.put i (handlerOf (nth ws i 0))) x.handlers
      | none => x.handlers
    loops := [], armed := false, table := none }.saveCtx 0

theorem boundary_armed (h : s.Bounded t ids) (ha : (s.tile t).armed = true) (hl : (s.tile t).loading = none) :
    s.boundary t = (s.setTile t (s.tile t).swapped).itinEvent 0x0509 (s.tile t).part .ok (leBytes 8 t ++ leBytes 8 (1 - (s.tile t).bank)) := by
  simp only [State.boundary, h.running, h.waiting, h.fence, h.met, h.all_free, h.idle, ha, hl, decide_true, Bool.not_false, Bool.not_true,
    Bool.and_self, List.isEmpty_nil, Option.isSome_none, Bool.false_eq_true, if_true, if_false]
  rfl

theorem Tile.swapped_handlers {x : Tile} (h : x.table = none) : x.swapped.handlers = x.handlers := by
  simp only [Tile.swapped, h]
  rfl

theorem Tile.strand_swapped (x : Tile) : x.swapped.strand 0 = { x.strand 0 with state := .runnable, pc := 0, wait := .none } :=
  Tile.strand_setStrand ..

theorem Tile.swapped_scratch (x : Tile) : x.swapped.scratch = x.scratch.writeN (x.area * 65536) (x.swapped.strand 0).context := by
  have hctx : x.ctxAt 0 = x.area * 65536 := by rw [Tile.ctxAt, Nat.mul_zero, Nat.add_zero]
  rw [← hctx]
  rfl

theorem boundary_armed_tile (h : s.Bounded t ids) (ha : (s.tile t).armed = true) (hl : (s.tile t).loading = none) :
    (s.boundary t).tile t = (s.tile t).swapped ∧ ∀ v, v ≠ t → (s.boundary t).tile v = s.tile v := by
  rw [boundary_armed h ha hl]
  have hgrid := (itinEvent_noted (s.setTile t (s.tile t).swapped) 0x0509 (s.tile t).part .ok (leBytes 8 t ++ leBytes 8 (1 - (s.tile t).bank)) []).grid
  refine ⟨?_, fun v hv => ?_⟩
  · rw [State.tile, hgrid, ← State.tile, State.tile_setTile]
  · rw [State.tile, hgrid, ← State.tile, State.tile_setTile_other _ hv]

/-! ### Switches -/

/-- The next RUNNABLE strand is switched in. -/
theorem strandSwitch_spec (hs : (s.tile t).state = .running) (hcur : ((s.tile t).strand (s.tile t).current).state ≠ .running)
    (hn : (s.tile t).nextRunnable = some n) (hne : n ≠ (s.tile t).current)
    (hbad : ∀ w ∈ (s.tile t).bad, w + 8 ≤ (s.tile t).ctxAt n ∨ (s.tile t).ctxAt n + 32 ≤ w) :
    ∃ y : Tile, s.strandSwitch t = s.setTile t { y.setStrand n { y.strand n with state := .running } with current := n, issued := 0 } ∧
      y.scratch = ((s.tile t).saveCtx (s.tile t).current).scratch ∧ y.g = (s.tile t).g ∧ (y.strand n).g29 = y.scratch.word ((s.tile t).ctxAt n + 8) := by
  let y := (s.tile t).saveCtx (s.tile t).current
  have hload := Tile.loadCtx_ok (x := y) (n := n) fun w hw => hbad w (Tile.mem_bad_of_saveCtx hw)
  have hne' : ¬ n = y.current := hne
  have hscr := fixSoft_scratch (x := y) (wordsOf (y.ctxAt n) 32)
  let z := (y.fixSoft (wordsOf (y.ctxAt n) 32)).setStrand n (((y.fixSoft (wordsOf (y.ctxAt n) 32)).strand n).restored y.scratch (y.ctxAt n))
  refine ⟨z, ?_, hscr, fixSoft_g .., ?_⟩
  · simp only [State.strandSwitch, hs, hcur, hn, hne', y, hload, decide_true, ne_eq, not_false_eq_true, Bool.and_self, if_true, if_false, z]
  · rw [Tile.strand_setStrand, Strand.restored_g29]
    exact congrArg (Memory.word · _) hscr.symm

/-! ### Wakes -/

theorem strandWake_insns (hs : ((s.tile t).strand n).state = .waiting) (hw : ((s.tile t).strand n).wait = .insns ids)
    (hids : ∀ q ∈ (s.tile t).inFlight, q.id ∉ ids) :
    s.strandWake t n = s.setTile t ((s.tile t).setStrand n { (s.tile t).strand n with state := .runnable, wait := .none }) := by
  simp only [State.strandWake, hs, hw, stillIn_eq_false hids, ne_eq, not_true_eq_false, Bool.false_eq_true, if_false]

theorem strandWake_fence (hs : ((s.tile t).strand n).state = .waiting) (hw : ((s.tile t).strand n).wait = .fence ids false)
    (hids : ∀ q ∈ (s.tile t).inFlight, q.id ∉ ids) : s.strandWake t n = s.passFence t n := by
  simp only [State.strandWake, hs, hw, stillIn_eq_false hids, ne_eq, not_true_eq_false, Bool.false_eq_true, if_false]

end

/-- Settles O12: the boundary with and without a swap, the switch, and the two wakes. -/
theorem strandScheduling : Obligations.StrandScheduling := by
  unfold Obligations.StrandScheduling
  intro s t hs
  refine ⟨fun ids hw hf hidle hfree => ?_, fun n hcur hn hne hbad => ?_, fun n ids hw hids => ⟨fun hwait => ?_, fun p ls hwait hfall => ?_⟩⟩
  · have hb : s.Bounded t ids := ⟨hs, hw, hf, hidle, hfree⟩
    refine ⟨fun ha hl => ?_, fun p ls ha hfall => ?_⟩
    · obtain ⟨ht, ho⟩ := boundary_armed_tile hb ha hl
      refine ⟨s.boundary t, rfl, ?_⟩
      beta_reduce
      rw [ht]
      exact ⟨rfl, rfl, rfl, rfl, Tile.swapped_handlers, by rw [Tile.strand_swapped], by rw [Tile.strand_swapped], rfl, Tile.swapped_scratch _, ho⟩
    · obtain ⟨hst, hpc, hloops, hg, ho, hbank⟩ := passFence_spec hfall
      exact ⟨_, congrArg Host.Outcome.next (boundary_unarmed hb ha), hbank, hst, hpc, hloops, hg, ho⟩
  · obtain ⟨y, he, hscr, hg, h29⟩ := strandSwitch_spec hs hcur hn hne hbad
    refine ⟨_, congrArg Host.Outcome.next he, ?_⟩
    beta_reduce
    rw [State.tile_setTile]
    have hstrand := Tile.strand_setStrand y n { y.strand n with state := .running }
    exact ⟨rfl, rfl, congrArg Strand.state hstrand, hscr, (congrArg Strand.g29 hstrand).trans h29, hg, onlyTile_setTile ..⟩
  · refine ⟨_, congrArg Host.Outcome.next (strandWake_insns hw hwait hids), ?_⟩
    beta_reduce
    rw [State.tile_setTile]
    exact ⟨Tile.strand_setStrand .., rfl, onlyTile_setTile ..⟩
  · obtain ⟨hst, hpc, hloops, hg, ho, -⟩ := passFence_spec hfall
    exact ⟨_, congrArg Host.Outcome.next (strandWake_fence hw hwait hids), hst, hpc, hloops, hg, ho⟩

end Sys2Proof.Machine
end

section
namespace Sys2Proof.Machine

/-! ## Updates made twice -/

/-- Of two updates of one key the later stands. -/
theorem SMap.put_put {α : Type} (m : SMap α) (a : Nat) (x y : α) : (m.put a x).put a y = m.put a y := by
  induction m with
  | nil => simp [SMap.put]
  | cons e r ih =>
    obtain ⟨k, v⟩ := e
    by_cases hlt : a < k
    · simp [SMap.put, hlt]
    · by_cases heq : a = k
      · simp [SMap.put, heq]
      · simp [SMap.put, hlt, heq, ih]

theorem State.setTile_twice (s : State) (t : Nat) (x y : Tile) : (s.setTile t x).setTile t y = s.setTile t y := by
  simp only [State.setTile, SMap.put_put]

/-- Where a strand goes leaves the queues alone. -/
theorem Tile.queue_goTo (y : Tile) (p e : Nat) (ls : List Loop) : ({ y.goTo p with loops := ls } : Tile).queue e = y.queue e := by
  rw [Tile.goTo_shape]
  rfl

/-! ## Issue of long-running instructions (R120, R139 to R147) -/

section
variable {s : State} {t p e : Nat} {ls : List Loop} {i : Instr} {ra : Reg} {imm : Imm}

/-- A scratchpad without errors has none to correct. -/
theorem fixSoft_of_soft_nil {x : Tile} (h : x.soft = []) (ws : List Nat) : x.fixSoft ws = x := by
  simp [Tile.fixSoft, h]

theorem load_clean {x : Tile} (hb : x.bad = []) (hs : x.soft = []) (a n : Nat) : x.load a n = .ok (x.scratch.readN a n, x) := by
  rw [load_allGood hb, fixSoft_of_soft_nil hs]

/-- The entry under which the tile's current strand puts a descriptor into a queue. -/
def Tile.entry (x : Tile) (ws : List Word) : QEntry :=
  { id := x.nextId, words := ws, strand := x.current, pc := x.pc, thresh := x.threshold, sctrl := x.sparseCtrl, theta := x.predThresh }

/-- A tile that has issued a descriptor to engine e. -/
def Tile.issue (x : Tile) (e : Nat) (ws : List Word) : Tile :=
  { x with queues := x.queues.put e (x.queue e ++ [x.entry ws]), nextId := x.nextId + 1 }

theorem issue_sameFlow (x : Tile) (e : Nat) (ws : List Word) : SameFlow x (x.issue e ws) := ⟨rfl, rfl, rfl, rfl⟩

theorem Tile.queue_issue (x : Tile) (e : Nat) (ws : List Word) : (x.issue e ws).queue e = x.queue e ++ [x.entry ws] := SMap.lookD_put_same ..

theorem Tile.queue_issue_other (x : Tile) {e e' : Nat} (h : e' ≠ e) (ws : List Word) : (x.issue e ws).queue e' = x.queue e' :=
  SMap.lookD_put_other _ h ..

/-- The tile's partition trains, which only the sparse engine asks for. -/
def State.trains (s : State) (x : Tile) : Bool :=
  match x.part with
  | some p => s.partTrain p
  | none => false

/-- What an issue does once its descriptor has been read and has passed the checks of R139. -/
theorem issueRun_checked {a : Nat} (ha : (s.tile t).addr ra imm = (a : Int)) (hal : a % 256 = 0)
    (hin : a + 256 ≤ 0x180000) (hb : (s.tile t).bad = []) (hso : (s.tile t).soft = [])
    (hshape : issueShape e ((s.tile t).scratch.words a 32) = none) (hregions : (s.tile t).regionsOk ((s.tile t).scratch.words a 32) = true)
    (hformat : (s.tile t).issueFormat e ((s.tile t).scratch.words a 32) = none) (hfree : (s.tile t).conflicts ((s.tile t).scratch.words a 32) = [])
    (htrain : e = 4 → s.trains (s.tile t) = false) :
    ∃ f, issueRun e t ra imm s = seqRun t s f ∧ f (s.tile t) = if 32 ≤ ((s.tile t).queue e).length
      then .fault (s.setTile t (s.tile t)) .queueFull (engineDetail e) 0
      else .next ((s.setTile t (s.tile t)).setTile t ((s.tile t).issue e ((s.tile t).scratch.words a 32))) := by
  have hmod : ¬ (a : Int) % 256 ≠ 0 := by omega
  have hrange : ¬ (decide ((a : Int) < 0) || decide ((scratchEnd : Int) < (a : Int) + 256)) = true := by
    rw [Bool.or_eq_true, decide_eq_true_eq, decide_eq_true_eq]
    unfold scratchEnd
    omega
  have htr : (decide (e = 4) && s.trains (s.tile t)) = false := by
    by_cases he : e = 4
    · rw [htrain he, Bool.and_false]
    · rw [decide_eq_false he, Bool.false_and]
  have hws : leWords 32 ((s.tile t).scratch.readN a 256) = (s.tile t).scratch.words a 32 := rfl
  refine ⟨_, rfl, ?_⟩
  simp only [ha, hmod, hrange, Int.toNat_natCast, load_clean hb hso, hws, hshape, hregions, hformat, hfree, if_false, Bool.not_true, Bool.false_eq_true,
    List.isEmpty_nil]
  exact (if_neg (ne_true_of_eq_false htr)).trans rfl

/-- An issue whose queue is full faults; one with room for it puts the descriptor at the queue's end. -/
theorem issue_yields {a : Nat} (h : s.Falls t p ls) (hi : exec i s = .next (issueRun e t ra imm s)) (ha : (s.tile t).addr ra imm = (a : Int))
    (hal : a % 256 = 0) (hin : a + 256 ≤ 0x180000) (hb : (s.tile t).bad = []) (hso : (s.tile t).soft = [])
    (htrain : e = 4 → s.trains (s.tile t) = false) (hshape : issueShape e ((s.tile t).scratch.words a 32) = none)
    (hregions : (s.tile t).regionsOk ((s.tile t).scratch.words a 32) = true)
    (hformat : (s.tile t).issueFormat e ((s.tile t).scratch.words a 32) = none) (hfree : (s.tile t).conflicts ((s.tile t).scratch.words a 32) = []) :
    (32 ≤ ((s.tile t).queue e).length → FaultsAs i s t .queueFull (s.tile t).pc) ∧
    (((s.tile t).queue e).length < 32 → Yields i s (fun u => At u t p ls ∧ (∀ r, (u.tile t).reg r = (s.tile t).reg r) ∧
      (u.tile t).scratch = (s.tile t).scratch ∧ OnlyTile s u t ∧
      (∃ q : QEntry, (u.tile t).queue e = (s.tile t).queue e ++ [q] ∧ q.words = (s.tile t).scratch.words a 32 ∧ q.strand = (s.tile t).current ∧
        q.pc = (s.tile t).pc ∧ q.thresh = (s.tile t).threshold ∧ q.ran = false ∧ q.status = .ok) ∧
      (∀ e', e' ≠ e → (u.tile t).queue e' = (s.tile t).queue e'))) := by
  obtain ⟨f, hrun, hf⟩ := issueRun_checked ha hal hin hb hso hshape hregions hformat hfree htrain
  have hi' := hi.trans (congrArg _ hrun)
  refine ⟨fun hfull => faultsAs_of_fault h.runs hi' (sameTiles_setTile s t) (hf.trans (if_pos hfull)), fun hroom => ?_⟩
  rw [if_neg (Nat.not_le.2 hroom), State.setTile_twice] at hf
  refine (yields_sameFlow h hi' hf (issue_sameFlow ..) rfl).mono fun u ⟨hu, hat, hreg, hscr, ho⟩ =>
    ⟨hat, hreg, hscr, ho, ⟨(s.tile t).entry ((s.tile t).scratch.words a 32), ?_, rfl, rfl, rfl, rfl, rfl, rfl⟩, fun e' he => ?_⟩
  · rw [hu, Tile.queue_goTo, Tile.queue_issue]
  · rw [hu, Tile.queue_goTo, Tile.queue_issue_other _ he]

end

/-- Settles O13: each of the five instructions is an issue to its own engine. -/
theorem issue : Obligations.Issue := by
  unfold Obligations.Issue
  intro s t p a ls ra imm h x ha hal hin hb hso ws issues
  have other : ∀ e, e < 4 → e = 4 → s.trains x = false := fun e hlt he => by omega
  refine ⟨issue_yields h rfl ha hal hin hb hso (other 0 (by decide)), issue_yields h rfl ha hal hin hb hso (other 1 (by decide)),
    issue_yields h rfl ha hal hin hb hso (other 2 (by decide)), issue_yields h rfl ha hal hin hb hso (other 3 (by decide)),
    fun htrain => issue_yields h rfl ha hal hin hb hso fun _ => ?_⟩
  unfold State.trains
  split
  · next v hv => exact htrain v hv
  · rfl

end Sys2Proof.Machine
end

section
namespace Sys2Proof.Machine

/-! ## Completion of engine instructions (R122, R123, R189) -/

/-! ### The record -/

theorem QEntry.record_eq (q : QEntry) :
    q.record = BitVec.ofNat 64 (q.status.code + (if q.rerun then 256 else 0) + q.units % 2 ^ 32 * 65536) := rfl

/-- A store, also one that stops, changes the scratchpad, its check bits and their count. -/
theorem Tile.store_shape {x y : Tile} {a : Nat} {bs : List Byte} (h : x.store a bs = .ok y ∨ ∃ w, x.store a bs = .error (w, y)) :
    y = { x with scratch := y.scratch, bad := y.bad, soft := y.soft, eccCorr := y.eccCorr } := by
  unfold Tile.store at h
  extract_lets n ws whole z at h
  split at h
  · rcases h with h | ⟨w, h⟩
    · cases h
    · obtain rfl : z = y := congrArg Prod.snd (Except.error.inj h)
      simp only [z]
      rw [Tile.fixSoft_shape]
  · rcases h with h | ⟨w, h⟩
    · cases h
      simp only [z]
      rw [Tile.fixSoft_shape]
    · cases h

section
variable {x : Tile} {q : QEntry}

theorem Tile.putRecord_shape (x : Tile) (q : QEntry) : x.putRecord q =
    { x with scratch := (x.putRecord q).scratch, bad := (x.putRecord q).bad, soft := (x.putRecord q).soft, eccCorr := (x.putRecord q).eccCorr } := by
  unfold Tile.putRecord
  split
  · split
    · next hst => exact Tile.store_shape (.inl hst)
    · next hst => exact Tile.store_shape (.inr ⟨_, hst⟩)
  · rfl

theorem Tile.putRecord_unasked (h : dCompl q.words = false) : x.putRecord q = x := if_neg (ne_true_of_eq_false h)

/-- A record at its alignment is a whole word, and is stored whatever errors the word held. -/
theorem Tile.putRecord_asked (h : dCompl q.words = true) (hal : dComplAddr q.words % 8 = 0) :
    (x.putRecord q).scratch = x.scratch.writeN (dComplAddr q.words) (leBytes 8 q.record.toNat) := by
  have hst := Tile.store_ok (x := x) (a := dComplAddr q.words) (bs := leBytes 8 q.record.toNat) fun w hw _ => by
    rw [leBytes_length, wordsOf_word hal, List.mem_singleton] at hw
    rw [leBytes_length]
    omega
  simp only [Tile.putRecord, h, if_true, hst]
  rfl

/-- A word of the memory into which its bytes have been written. -/
theorem Memory.word_writeN {m : Memory} (h : m.wf = true) (a : Nat) (w : Word) : (m.writeN a (leBytes 8 w.toNat)).word a = w := by
  have hread := Memory.readN_writeN a (leBytes 8 w.toNat) h
  rw [leBytes_length] at hread
  have hlt : w.toNat < 256 ^ 8 := w.isLt
  rw [Memory.word, Memory.readLe, hread, ofLe_leBytes, Nat.mod_eq_of_lt hlt, wd, BitVec.ofNat_toNat, BitVec.setWidth_eq]

/-- A tile with the record of a completed instruction written, and a rerun counted. -/
def Tile.completed (x : Tile) (q : QEntry) : Tile :=
  if q.rerun then { x.putRecord q with numPromote := (x.putRecord q).count (x.putRecord q).numPromote 1 } else x.putRecord q

theorem Tile.completed_shape (x : Tile) (q : QEntry) : x.completed q =
    { x with scratch := (x.putRecord q).scratch, bad := (x.putRecord q).bad, soft := (x.putRecord q).soft, eccCorr := (x.putRecord q).eccCorr,
             numPromote := (x.completed q).numPromote } := by
  unfold Tile.completed
  split <;> rw [Tile.putRecord_shape]

theorem Tile.completed_numPromote (h : q.rerun = true) : (x.completed q).numPromote = x.count x.numPromote 1 := by
  rw [Tile.completed, if_pos h, Tile.putRecord_shape]
  rfl

end

/-! ### The queue and the signal -/

section
variable {s : State} {t e : Nat} {q : QEntry} {r : List QEntry}

theorem complete_unsignalled (hq : (s.tile t).queue e = q :: r) (hf : q.finished = true) (hs : dSigEn q.words = false) :
    s.complete t e = s.setTile t { (s.tile t).completed q with queues := (s.tile t).queues.put e r } := by
  have hqueues : ((s.tile t).completed q).queues = (s.tile t).queues := by rw [Tile.completed_shape]
  simp only [State.complete, hq, hf, hs, Bool.not_true, Bool.not_false, Bool.false_eq_true, if_false, if_true]
  rw [← hqueues]
  rfl

theorem complete_signalled (hq : (s.tile t).queue e = q :: r) (hf : q.finished = true) (hs : dSigEn q.words = true)
    (hfree : (s.tile t).engSignals.lookD e 0 < 64) : s.complete t e =
    (s.setTile t { (s.tile t).completed q with
      queues := (s.tile t).queues.put e r, engSignals := (s.tile t).engSignals.put e ((s.tile t).engSignals.lookD e 0 + 1) }).tileSignal t
        (dSigObj q.words) 0 (.engine e) false := by
  have hqueues : ((s.tile t).completed q).queues = (s.tile t).queues := by rw [Tile.completed_shape]
  have hsignals : ((s.tile t).completed q).engSignals = (s.tile t).engSignals := by rw [Tile.completed_shape]
  rw [← hsignals] at hfree
  simp only [State.complete, hq, hf, hs, Bool.not_true, Bool.false_eq_true, if_false]
  rw [← hqueues, ← hsignals]
  exact if_pos hfree

/-- A transfer that is sent follows those under way. -/
theorem merSend_xfers (s : State) (x : MerXfer) : ∃ n, (s.merSend x).mer.xfers = s.mer.xfers ++ [{ x with id := n }] := by
  have hstir : ∀ l : List Nat, (l.foldl State.stir s).mer.xfers = s.mer.xfers := fun l =>
    List.foldlRecOn (motive := fun u : State => u.mer.xfers = s.mer.xfers) l State.stir rfl fun _ h _ _ => h
  exact ⟨_, congrArg (· ++ _) (hstir _)⟩

theorem tileSignal_xfers (s : State) (t obj strand : Nat) (src : MerSource) (clear : Bool) : ∃ y : MerXfer,
    (s.tileSignal t obj strand src clear).mer.xfers = s.mer.xfers ++ [y] ∧ y.obj = obj ∧ y.act = .signal clear ∧ y.src = src ∧ y.tile = t := by
  obtain ⟨n, h⟩ := merSend_xfers s _
  exact ⟨_, h, rfl, rfl, rfl, rfl⟩

/-- What an engine leaves of its queue when it completes an instruction without a signal. -/
theorem complete_yields {i : Instr} (hi : exec i s = .next (s.complete t e)) (hq : (s.tile t).queue e = q :: r) (hf : q.finished = true)
    (hs : dSigEn q.words = false) : Yields i s (fun u => (u.tile t).queue e = r ∧ (∀ e', e' ≠ e → (u.tile t).queue e' = (s.tile t).queue e') ∧
      OnlyTile s u t ∧ (∀ r, (u.tile t).reg r = (s.tile t).reg r) ∧ (dCompl q.words = false → (u.tile t).scratch = (s.tile t).scratch) ∧
      (q.rerun = true → (u.tile t).numPromote = (s.tile t).count (s.tile t).numPromote 1) ∧
      (dCompl q.words = true → dComplAddr q.words % 8 = 0 → (s.tile t).scratch.wf = true →
        (u.tile t).scratch.word (dComplAddr q.words) = BitVec.ofNat 64 (q.status.code + (if q.rerun then 256 else 0) + q.units % 2 ^ 32 * 65536))) := by
  have hu := State.tile_setTile s t { (s.tile t).completed q with queues := (s.tile t).queues.put e r }
  refine ⟨_, hi.trans (congrArg _ (complete_unsignalled hq hf hs)), ?_, fun e' he => ?_, onlyTile_setTile .., fun n => ?_, fun hno => ?_,
    fun hre => ?_, fun hyes hal hwf => ?_⟩
  · rw [hu]
    exact SMap.lookD_put_same ..
  · rw [hu]
    exact SMap.lookD_put_other _ he ..
  · rw [hu, Tile.completed_shape]
    rfl
  · rw [hu, Tile.completed_shape, Tile.putRecord_unasked hno]
  · rw [hu]
    exact Tile.completed_numPromote hre
  · rw [hu, Tile.completed_shape]
    exact (congrArg (Memory.word · _) (Tile.putRecord_asked hyes hal)).trans ((Memory.word_writeN hwf ..).trans q.record_eq)

/-- An engine with a free entry sends the signal that its instruction asks for. -/
theorem complete_signals {i : Instr} (hi : exec i s = .next (s.complete t e)) (hq : (s.tile t).queue e = q :: r) (hf : q.finished = true)
    (hs : dSigEn q.words = true) (hfree : (s.tile t).engSignals.lookD e 0 < 64) : Yields i s (fun u => (u.tile t).queue e = r ∧
      (u.tile t).engSignals.lookD e 0 = (s.tile t).engSignals.lookD e 0 + 1 ∧
      ∃ y : MerXfer, u.mer.xfers = s.mer.xfers ++ [y] ∧ y.obj = dSigObj q.words ∧ y.act = .signal false ∧ y.src = .engine e ∧ y.tile = t) := by
  refine ⟨_, hi.trans (congrArg _ (complete_signalled hq hf hs hfree)), ?_⟩
  beta_reduce
  generalize hv : s.setTile t { (s.tile t).completed q with
    queues := (s.tile t).queues.put e r, engSignals := (s.tile t).engSignals.put e ((s.tile t).engSignals.lookD e 0 + 1) } = v
  have hmer : v.mer = s.mer := by rw [← hv, State.setTile_mer]
  have htile : (v.tileSignal t (dSigObj q.words) 0 (.engine e) false).tile t = v.tile t := by
    rw [State.tile, State.tileSignal, merSend_grid, ← State.tile]
  refine ⟨?_, ?_, hmer ▸ tileSignal_xfers ..⟩
  · rw [htile, ← hv, State.tile_setTile]
    exact SMap.lookD_put_same ..
  · rw [htile, ← hv, State.tile_setTile]
    exact SMap.lookD_put_same ..

end

/-- Settles O19: each engine's command completes the head of its own queue. -/
theorem completion : Obligations.Completion := by
  unfold Obligations.Completion
  intro s t e i q r hq hf hi
  have hrun : exec i s = .next (s.complete t e) := by
    rcases hi with ⟨rfl, rfl⟩ | ⟨rfl, rfl⟩ | ⟨he, rfl⟩
    · rfl
    · rfl
    · have hone : (decide (e = 1) || decide (e = 3) || decide (e = 4)) = true := by
        simpa only [Bool.or_eq_true, decide_eq_true_eq, or_assoc] using he
      exact congrArg Host.Outcome.next (if_pos hone)
  exact ⟨complete_yields hrun hq hf, complete_signals hrun hq hf⟩

end Sys2Proof.Machine
end

section
namespace Sys2Proof.Machine

/-! ## What the engines share (R125, R126) -/

/-- The first unit of a generator lies at its base. -/
theorem Ag.addr_zero (g : Ag) : g.addr 0 = g.base := by
  have hoff : ∀ (cs : List Nat) (ss : List Int), agOffset cs ss 0 = 0 := by
    intro cs
    induction cs with
    | nil => intro ss; rfl
    | cons c cs ih =>
      intro ss
      cases ss with
      | nil => rfl
      | cons d ss => simp [agOffset, ih]
  rw [Ag.addr, hoff, Int.add_zero]

/-- An address within the scratchpad at its alignment passes the checks of R126. -/
theorem engAddr_ok {a : Int} {n align : Nat} (h0 : 0 ≤ a) (hn : a + n ≤ 0x180000) (hal : a.toNat % align = 0) :
    engAddr a n align = .ok a.toNat := by
  have hin : ¬ (decide (a < 0) || decide ((scratchEnd : Int) < a + n)) = true := by
    rw [Bool.or_eq_true, decide_eq_true_eq, decide_eq_true_eq]
    unfold scratchEnd
    omega
  unfold engAddr
  rw [if_neg hin, if_neg (not_not.2 hal)]

/-- An engine program goes on behind a step that does not stop. -/
theorem EngM.bind_ok {α β : Type} {m : EngM α} {f : α → EngM β} {e y : EngSt} {a : α} (h : m e = .ok a y) : (m >>= f) e = f a y := by
  change EStateM.bind m f e = f a y
  rw [EStateM.bind, h]

section
variable {e : EngSt} {a : Int} {n align : Nat}

/-- A read within the scratchpad of a tile without uncorrectable words gives the bytes. -/
theorem engRead_ok (h0 : 0 ≤ a) (hn : a + n ≤ 0x180000) (hal : a.toNat % align = 0) (hb : e.x.bad = []) :
    engRead a n align e = .ok (e.x.scratch.readN a.toNat n) { e with x := e.x.fixSoft (wordsOf a.toNat n) } := by
  simp only [engRead, engAddr_ok h0 hn hal, load_allGood hb]

/-- A write within the scratchpad of a tile without uncorrectable words, not capped, stores the bytes. -/
theorem engWrite_ok {bs : List Byte} (h0 : 0 ≤ a) (hn : a + bs.length ≤ 0x180000) (hal : a.toNat % align = 0) (hb : e.x.bad = [])
    (hc : e.cap = none) : engWrite a bs align e = .ok () { e with x := e.x.stored a.toNat bs } := by
  have hcapped : e.capped = false := by rw [EngSt.capped, hc]
  simp only [engWrite, engAddr_ok h0 hn hal, hcapped, store_allGood hb, Bool.false_eq_true, if_false]

theorem engRead_clean (h0 : 0 ≤ a) (hn : a + n ≤ 0x180000) (hal : a.toNat % align = 0) (hb : e.x.bad = []) (hs : e.x.soft = []) :
    engRead a n align e = .ok (e.x.scratch.readN a.toNat n) e := by
  rw [engRead_ok h0 hn hal hb, fixSoft_of_soft_nil hs]

end

/-- An engine executes on a tile that runs (R102). -/
theorem engineLive_of_running {s : State} {x : Tile} (h : x.state = .running) : s.engineLive x = true := by
  simp only [State.engineLive, h, decide_true, Bool.true_or]

/-! ## SEND (R84, R135 to R137) -/

theorem bits_lt (w : Word) (hi lo : Nat) : bits w hi lo < 2 ^ (hi + 1 - lo) := Nat.mod_lt _ (Nat.two_pow_pos _)

theorem coord_lt (t : Nat) : coord t < 1024 := by
  unfold coord
  omega

section
variable {m : MeshMsg} {dest src handler len part tag : Nat} {destGw : Bool}

/-- The header word as a number: its fields side by side. -/
theorem header0_toNat (dest : Nat) (destGw : Bool) (src handler len part tag : Nat) : (header0 dest destGw src false handler len part tag).toNat =
    dest % 1024 + src % 1024 * 2 ^ 10 + (if destGw then 2 ^ 21 else 0) + handler % 64 * 2 ^ 22 + len % 128 * 2 ^ 28 + part % 64 * 2 ^ 35 +
      tag % 65536 * 2 ^ 48 := by
  have hgw : (if destGw then 2 ^ 21 else 0) ≤ 2 ^ 21 := by split <;> omega
  simp only [header0, put, flag, wd, BitVec.toNat_ofNat, Bool.false_eq_true, if_false]
  omega

/-- The fields of a header are what the sender put there. -/
theorem header0_fields (hd : dest < 1024) (hs : src < 1024) (hh : handler < 64) (hl : len < 128) (ht : tag < 65536)
    (hw : m.w0 = header0 dest destGw src false handler len part tag) : m.dest = dest ∧ m.src = src ∧ m.srcGw = false ∧ m.handler = handler ∧
      m.len = len ∧ m.part = part % 64 ∧ m.tag = tag := by
  have hgw : (if destGw then 2 ^ 21 else 0) = 0 ∨ (if destGw then 2 ^ 21 else 0) = 2 ^ 21 := by cases destGw <;> simp
  simp only [MeshMsg.dest, MeshMsg.src, MeshMsg.srcGw, MeshMsg.handler, MeshMsg.len, MeshMsg.part, MeshMsg.tag, hw, bits, bit, fld,
    Nat.testBit_eq_decide_div_mod_eq, header0_toNat, decide_eq_false_iff_not]
  omega

end

/-- Waits in the mesh count, and touch nothing of the grid. -/
theorem meshWaits_grid (s : State) (p : Nat) : (s.meshWaits p).grid = s.grid := by
  unfold State.meshWaits
  split
  · exact List.foldlRecOn (motive := fun u : State => u.grid = s.grid) _ _ rfl fun u h _ _ => (drift_noted u 9 [p]).grid.trans h
  · rfl

theorem toMesh_grid (s : State) (m : MeshMsg) : (s.toMesh m).grid = { s.grid with mesh := s.grid.mesh ++ [m] } := by
  unfold State.toMesh
  exact List.foldlRecOn (motive := fun u : State => u.grid = { s.grid with mesh := s.grid.mesh ++ [m] }) _ _ rfl
    fun u h p _ => (meshWaits_grid u p).trans h

section
variable {s : State} {t : Nat} {q : QEntry}

/-- SEND reads its USER bytes and its payload, and its message enters the mesh. -/
theorem send_ok (hr : (s.tile t).state = .running) (hran : q.ran = false) (hb : (s.tile t).bad = []) (hso : (s.tile t).soft = [])
    (hq : (s.tile t).head 3 = some q) (hua : bits (nth q.words 5 0) 20 0 % 8 = 0) (hpa : bits (nth q.words 5 0) 41 21 % 64 = 0)
    (hu : bits (nth q.words 5 0) 20 0 + 56 ≤ 0x180000) (hp : bits (nth q.words 5 0) 41 21 + 64 * bits (nth q.words 4 0) 34 28 ≤ 0x180000) :
    s.send t = (s.setTile t ((s.tile t).setHead 3 { q with ran := true, units := bits (nth q.words 4 0) 34 28 + 1, nsat := 0 })).toMesh
      (sentMsg (s.tile t) t (nth q.words 4 0) ((s.tile t).scratch.readN (bits (nth q.words 5 0) 20 0) 56)
        ((s.tile t).scratch.readN (bits (nth q.words 5 0) 41 21) (64 * bits (nth q.words 4 0) 34 28))) := by
  have hread : (do
      let u ← engRead ((bits (nth q.words 5 0) 20 0 : Nat) : Int) 56 8
      let p ← if bits (nth q.words 4 0) 34 28 = 0 then pure []
        else engRead ((bits (nth q.words 5 0) 41 21 : Nat) : Int) (64 * bits (nth q.words 4 0) 34 28) 64
      pure (u, p) : EngM (List Byte × List Byte)) { x := s.tile t } =
      .ok ((s.tile t).scratch.readN (bits (nth q.words 5 0) 20 0) 56,
        (s.tile t).scratch.readN (bits (nth q.words 5 0) 41 21) (64 * bits (nth q.words 4 0) 34 28)) { x := s.tile t } := by
    have h1 := engRead_clean (e := { x := s.tile t }) (a := (bits (nth q.words 5 0) 20 0 : Nat)) (n := 56) (align := 8) (by omega) (by omega) (by omega) hb hso
    have h2 := engRead_clean (e := { x := s.tile t }) (a := (bits (nth q.words 5 0) 41 21 : Nat)) (n := 64 * bits (nth q.words 4 0) 34 28) (align := 64)
      (by omega) (by omega) (by omega) hb hso
    rw [Int.toNat_natCast] at h1 h2
    refine (EngM.bind_ok h1).trans ?_
    by_cases hn : bits (nth q.words 4 0) 34 28 = 0
    · rw [if_pos hn, hn]
      rfl
    · rw [if_neg hn]
      exact (EngM.bind_ok h2).trans rfl
  simp only [State.send, hq, engineLive_of_running hr, hran, Bool.not_false, Bool.and_self, if_true, hread]
  rfl

theorem send_yields (hr : (s.tile t).state = .running) (hran : q.ran = false) (hb : (s.tile t).bad = []) (hso : (s.tile t).soft = [])
    (hq : (s.tile t).head 3 = some q) (hua : bits (nth q.words 5 0) 20 0 % 8 = 0) (hpa : bits (nth q.words 5 0) 41 21 % 64 = 0)
    (hu : bits (nth q.words 5 0) 20 0 + 56 ≤ 0x180000) (hp : bits (nth q.words 5 0) 41 21 + 64 * bits (nth q.words 4 0) 34 28 ≤ 0x180000) :
    Yields (.send t) s (fun u => ∃ m : MeshMsg, u.grid.mesh = s.grid.mesh ++ [m] ∧ m.src = coord t ∧ m.srcGw = false ∧
        m.dest = bits (nth q.words 4 0) 9 0 ∧ m.handler = bits (nth q.words 4 0) 27 22 ∧ m.len = bits (nth q.words 4 0) 34 28 ∧
        m.tag = bits (nth q.words 4 0) 63 48 ∧ m.part = (s.tile t).part.getD 0 % 64 ∧
        m.payload = (s.tile t).scratch.readN (bits (nth q.words 5 0) 41 21) (64 * bits (nth q.words 4 0) 34 28) ∧
        (u.tile t).head 3 = some { q with ran := true, units := bits (nth q.words 4 0) 34 28 + 1, nsat := 0 } ∧ ∀ v, v ≠ t → u.tile v = s.tile v) := by
  let x := s.tile t
  let m := sentMsg x t (nth q.words 4 0) (x.scratch.readN (bits (nth q.words 5 0) 20 0) 56)
    (x.scratch.readN (bits (nth q.words 5 0) 41 21) (64 * bits (nth q.words 4 0) 34 28))
  have hgrid := toMesh_grid (s.setTile t (x.setHead 3 { q with ran := true, units := bits (nth q.words 4 0) 34 28 + 1, nsat := 0 })) m
  obtain ⟨hdest, hsrc, hgw, hhandler, hlen, hpart, htag⟩ := header0_fields (m := m) (bits_lt _ 9 0) (coord_lt t) (bits_lt _ 27 22) (bits_lt _ 34 28)
    (bits_lt _ 63 48) rfl
  refine ⟨_, congrArg Host.Outcome.next (send_ok hr hran hb hso hq hua hpa hu hp), m, ?_, hsrc, hgw, hdest, hhandler, hlen, htag, hpart, rfl, ?_,
    fun v hv => ?_⟩
  · rw [hgrid, State.mesh_setTile]
  · rw [State.tile, hgrid, ← Tile.head_setHead x 3]
    exact congrArg (Tile.head · 3) (State.tile_setTile ..)
  · rw [State.tile, hgrid]
    exact State.tile_setTile_other _ hv _

end

/-! ## COPY (R133, R134) -/

section
variable {s : State} {t a b n : Nat} {q : QEntry}

/-- With no request in flight there is none to settle or to drop. -/
theorem memReap_idle (h : s.stk.reqs = []) : s.memReap = s := by
  have hset : s.memReap = s.setReqs [] := by simp [State.memReap, h]
  rw [hset, ← h]
  rfl

/-- The instruction copies n bytes from a to b within the scratchpad, as one unit (R133). -/
structure CopiesUnit (q : QEntry) (a b n : Nat) : Prop where
  units : (agAt q.words 4).units = 1
  src   : (agAt q.words 4).space = 0
  dst   : (agAt q.words 12).space = 0
  size  : n = 2 ^ bits (nth q.words 20 0) 3 0
  baseA : (agAt q.words 4).base = a
  baseB : (agAt q.words 12).base = b
  alignA : a % 8 = 0
  alignB : b % 8 = 0
  inA   : a + n ≤ 0x180000
  inB   : b + n ≤ 0x180000

/-- A tile whose move engine has written the unit. -/
def Tile.copied (x : Tile) (q : QEntry) (a b n : Nat) : Tile := (x.stored b (x.scratch.readN a n)).setHead 2 { q with units := q.units + 1 }

theorem Tile.head_stored (x : Tile) (e a : Nat) (bs : List Byte) : (x.stored a bs).head e = x.head e := by
  rw [Tile.stored_shape]
  rfl

/-- The one unit of the copy. -/
theorem copyUnit_ok (hc : CopiesUnit q a b n) (hb : (s.tile t).bad = []) (hso : (s.tile t).soft = []) (hq : (s.tile t).head 2 = some q) :
    s.copyUnit t q none 0 = .ok (s.setTile t ((s.tile t).copied q a b n)) := by
  obtain ⟨-, hsrc, hdst, hsize, hfrom, hto, halA, halB, hinA, hinB⟩ := hc
  have hA : engAddr ((agAt q.words 4).addr 0) n 8 = .ok a := by
    rw [Ag.addr_zero, hfrom, engAddr_ok (by omega) (by omega) (by omega), Int.toNat_natCast]
  have hB : engAddr ((agAt q.words 12).addr 0) n 8 = .ok b := by
    rw [Ag.addr_zero, hto, engAddr_ok (by omega) (by omega) (by omega), Int.toNat_natCast]
  have hstore := store_allGood (x := s.tile t) hb b ((s.tile t).scratch.readN a n)
  have hhead := (Tile.head_stored (s.tile t) 2 b ((s.tile t).scratch.readN a n)).trans hq
  simp only [State.copyUnit, hsrc, hdst, ← hsize, hA, hB, Except.mapError, bind, Except.bind, load_clean hb hso, Option.map_none, Option.getD_none,
    Bool.false_eq_true, if_false, hstore, hhead]
  rfl

/-- A COPY of one unit within the scratchpad. -/
theorem copy_ok (hr : (s.tile t).state = .running) (hran : q.ran = false) (hok : q.status = .ok) (hc : CopiesUnit q a b n)
    (hb : (s.tile t).bad = []) (hso : (s.tile t).soft = []) (hq : (s.tile t).head 2 = some q) (hreqs : s.stk.reqs = []) :
    s.copy t = s.setTile t (((s.tile t).copied q a b n).setHead 2 { q with ran := true, decided := true, units := q.units + 1 }) := by
  have hhead : ((s.tile t).copied q a b n).head 2 = some { q with units := q.units + 1 } := Tile.head_setHead ..
  have hrun : s.copyUnits t q none 0 1 =
      s.setTile t (((s.tile t).copied q a b n).setHead 2 { q with ran := true, decided := true, units := q.units + 1 }) := by
    rw [State.copyUnits]
    simp only [hq, hok, copyUnit_ok hc hb hso hq, memReap_idle (s := s.setTile t _) hreqs, ne_eq, not_true_eq_false, decide_false, Bool.or_self,
      Bool.false_eq_true, if_false, State.copyUnits, State.onTile, State.tile_setTile, State.setTile_twice, hhead, decide_true, Bool.and_self, if_true]
  simp only [State.copy, hq, engineLive_of_running hr, hran, hc.units, hrun, hok, State.tile_setTile, Tile.head_setHead, Bool.not_false, Bool.and_self,
    if_true, ne_eq, not_true_eq_false, decide_false, Bool.and_false, Bool.false_and, Bool.false_eq_true, if_false]

theorem copy_yields (hr : (s.tile t).state = .running) (hran : q.ran = false) (hok : q.status = .ok) (hc : CopiesUnit q a b n)
    (hb : (s.tile t).bad = []) (hso : (s.tile t).soft = []) (hwf : (s.tile t).scratch.wf = true) (hq : (s.tile t).head 2 = some q)
    (hreqs : s.stk.reqs = []) : Yields (.copy t) s (fun u =>
      (∀ i, u.scratchByte t i = if b ≤ i ∧ i < b + n then s.scratchByte t (a + (i - b)) else s.scratchByte t i) ∧
      (u.tile t).head 2 = some { q with ran := true, decided := true, units := q.units + 1 } ∧ ∀ v, v ≠ t → u.tile v = s.tile v) := by
  refine ⟨_, congrArg Host.Outcome.next (copy_ok hr hran hok hc hb hso hq hreqs), fun i => ?_, ?_, fun v hv => State.tile_setTile_other _ hv _⟩
  · have hscr : (((s.tile t).copied q a b n).setHead 2 { q with ran := true, decided := true, units := q.units + 1 }).scratch =
        (s.tile t).scratch.writeN b ((s.tile t).scratch.readN a n) := rfl
    rw [State.scratchByte, State.tile_setTile, hscr, Memory.read_writeN hwf]
    simp only [Memory.readN_length, Memory.getElem_readN, dite_eq_ite]
    rfl
  · rw [State.tile_setTile, Tile.head_setHead]

end

/-- Settles O18: the one unit of the COPY, and the message of the SEND. -/
theorem moveAndSend : Obligations.MoveAndSend := by
  unfold Obligations.MoveAndSend
  intro s t q hr hran hok hb hso hwf
  exact ⟨fun a b n hq hreqs hunits hsrc hdst _ hsize hfrom hto halA halB hinA hinB =>
      copy_yields hr hran hok ⟨hunits, hsrc, hdst, hsize, hfrom, hto, halA, halB, hinA, hinB⟩ hb hso hwf hq hreqs,
    fun hq hua hpa hu hp => send_yields hr hran hb hso hq hua hpa hu hp⟩

end Sys2Proof.Machine
end

section
namespace Sys2Proof.Machine

/-! ## Vector instructions on registers (R130, R131) -/

/-! ### Integers as exact values -/

theorem Exact.toInt_ofInt (i : Int) : (Exact.ofInt i).toInt = i := by
  have hq : ((Exact.ofInt i).divPow 0).1 = i.natAbs := by simp [Exact.ofInt, Exact.divPow, Exact.shl]
  have hsign : (Exact.ofInt i).sign = decide (i < 0) := rfl
  change (if (Exact.ofInt i).sign then -(((Exact.ofInt i).divPow 0).1 : Int) else (((Exact.ofInt i).divPow 0).1 : Int)) = i
  rw [hq, hsign]
  split
  · next h => have := of_decide_eq_true h; omega
  · next h => have := of_decide_eq_false (Bool.eq_false_iff.2 h); omega

/-- The INT32 bits of a register element. -/
theorem toWord32_signed (v : Nat) : toWord32 (Exact.ofInt (signed 32 v)) = BitVec.ofNat 32 v := by
  rw [toWord32, Exact.toInt_ofInt]
  refine BitVec.eq_of_toNat_eq ?_
  rw [BitVec.toNat_ofInt, BitVec.toNat_ofNat]
  simp only [signed]
  split <;> omega

/-- The encoding of an INT32 result. -/
theorem encodeElem_int32 (b : BitVec 32) : encodeElem 0xC (Exact.ofInt b.toInt) = b.toNat := by
  have hval : encodeElem 0xC (Exact.ofInt b.toInt) = unsign 32 (Exact.ofInt b.toInt).toInt := rfl
  have hb := b.isLt
  rw [hval, Exact.toInt_ofInt, unsign, BitVec.toInt_eq_toNat_cond]
  split <;> omega

/-! ### Reads and writes of registers -/

/-- The value of a register element in the type of the operation. -/
def vecElem (op v : Nat) : Exact := if vecInt op then Exact.ofInt (signed 32 v) else f32 v

/-- The elements of vector register r. -/
def Tile.vregElems (x : Tile) (op r : Nat) : List Exact := (List.range 64).map (fun i => vecElem op (x.vregs.lookD (64 * r + i) 0))

theorem nth_map_range {α : Type} (f : Nat → α) {n i : Nat} (h : i < n) (d : α) : nth ((List.range n).map f) i d = f i := by
  simp [nth, h]

theorem Tile.nth_vregElems (x : Tile) (op r : Nat) {i : Nat} (h : i < 64) :
    nth (x.vregElems op r) i Exact.zero = vecElem op (x.vregs.lookD (64 * r + i) 0) := nth_map_range _ h _

theorem vecRead_vreg {ws : List Word} {g : Ag} {n zn : Nat} {e : EngSt} (hi : g.useImm = false) (hv : g.useVreg = true) :
    vecRead ws g n zn e = .ok (e.x.vregElems (dOp ws) g.vreg, none) e := by
  simp only [vecRead, hi, hv, Bool.false_eq_true, if_false, if_true]
  rfl

/-- Registers after results have been put into one of them. -/
def putResults (m : SMap Nat) (zr code : Nat) (l : List (Nat × Exact)) : SMap Nat := l.foldl (fun m p => m.put (64 * zr + p.1) (encodeElem code p.2)) m

/-- An engine's state with other registers and n more units written. -/
def EngSt.withVregs (e : EngSt) (m : SMap Nat) (n : Nat) : EngSt := { e with x := { e.x with vregs := m }, units := e.units + n }

/-- Results that go to a register are put into it one by one, each a unit. -/
theorem engEach_vreg {f : Nat × Exact → EngM Unit} {zr code : Nat}
    (hf : ∀ p e, e.cap = none → f p e = .ok () (e.withVregs (e.x.vregs.put (64 * zr + p.1) (encodeElem code p.2)) 1)) (l : List (Nat × Exact)) :
    ∀ e, e.cap = none → engEach f l e = .ok () (e.withVregs (putResults e.x.vregs zr code l) l.length) := by
  induction l with
  | nil => intro e _; rfl
  | cons p l ih =>
    intro e he
    refine (EngM.bind_ok (hf p e he)).trans ((ih (e.withVregs _ 1) he).trans ?_)
    simp only [EngSt.withVregs, putResults, List.foldl_cons, List.length_cons, Nat.add_assoc, Nat.add_comm 1]

theorem vecWriteDirect_vreg {ws : List Word} (hz : (agAt ws 20).useVreg = true) (rs : List Exact) {e : EngSt} (he : e.cap = none) :
    vecWriteDirect ws rs e = .ok () (e.withVregs (putResults e.x.vregs (agAt ws 20).vreg (vecOutFmt ws) ((List.range rs.length).zip rs)) rs.length) := by
  have hlen : ((List.range rs.length).zip rs).length = rs.length := by simp
  refine (engEach_vreg (fun p e he => ?_) _ e he).trans (by rw [hlen])
  have hcapped : ∀ m, (e.withVregs m 0).capped = false := fun m => by simp only [EngSt.capped, EngSt.withVregs, he]
  rw [if_pos hz]
  refine (EngM.bind_ok (a := ()) (y := e.withVregs (e.x.vregs.put (64 * (agAt ws 20).vreg + p.1) (encodeElem (vecOutFmt ws) p.2)) 0) ?_).trans ?_
  · have hc : e.capped = false := hcapped e.x.vregs
    simp only [hc, Bool.false_eq_true, if_false]
    rfl
  · simp only [engUnit, hcapped, Bool.false_eq_true, if_false]
    rfl

/-- A register into which n results have been put, and the registers beside it. -/
theorem lookD_putResults (m : SMap Nat) (zr code n : Nat) (F : Nat → Exact) (j : Nat) :
    (putResults m zr code ((List.range n).zip ((List.range n).map F))).lookD j 0 =
      if 64 * zr ≤ j ∧ j < 64 * zr + n then encodeElem code (F (j - 64 * zr)) else m.lookD j 0 := by
  have hzip : (List.range n).zip ((List.range n).map F) = (List.range n).map (fun i => (i, F i)) := by
    refine List.ext_getElem (by simp) fun i h1 h2 => ?_
    simp
  rw [putResults, hzip, List.foldl_map]
  exact SMap.lookD_foldl_put m (64 * zr) n (fun i => encodeElem code (F i)) j 0

theorem look_putResults_other (m : SMap Nat) {zr code : Nat} {l : List (Nat × Exact)} {j : Nat} (h : ∀ p ∈ l, 64 * zr + p.1 ≠ j) :
    (putResults m zr code l).look j = m.look j :=
  List.foldlRecOn (motive := fun u : SMap Nat => u.look j = m.look j) l _ rfl fun u hu p hp => (SMap.look_put_other u (h p hp).symm _).trans hu

/-! ### The programs -/

/-- An engine program that only goes on to its end. -/
theorem EngM.bind_unit (m : EngM Unit) : (m >>= fun _ => pure ()) = m := by
  funext e
  change EStateM.bind m _ e = m e
  unfold EStateM.bind
  cases m e <;> rfl

/-- A program that goes on in one way after either of two others. -/
theorem EngM.ite_join {α β : Type} {c : Prop} [Decidable c] (m n : EngM α) (f : α → EngM β) :
    (if c then m >>= f else n >>= f) = (if c then m else n) >>= f := by split <;> rfl

/-- How a vector instruction writes its results. -/
def vecWrites (ws : List Word) (rs : List Exact) : EngM Unit := if vecDirect ws then vecWriteDirect ws rs else vecWriteConv ws rs

/-- Reads AG g of a vector instruction. -/
def vecOperand (ws : List Word) (g : Ag) : EngM (List Exact × Option Stop) :=
  vecRead ws g (g.elems (g.vecFmt (dOp ws))) ((agAt ws 20).elems (vecOutFmt ws))

/-- Reads an AG that not every operation has. -/
def vecOperandIf (c : Prop) [Decidable c] (ws : List Word) (g : Ag) : EngM (List Exact × Option Stop) :=
  if c then vecOperand ws g else pure ([], none)

/-- What a vector instruction does when it has read its operands: the results before the first stop, written. -/
def vecFinish (fn : VecFn) (ws : List Word) (x y z : List Exact × Option Stop) : EngM Unit := do
  let total := if vecReduce (dOp ws) then x.1.length else (agAt ws 20).elems (vecOutFmt ws)
  let n := match firstStop [x, y, z] with
    | some (k, _) => min k total
    | none => total
  vecWrites ws (vecResults fn (vecRun ws) n x.1 y.1 z.1)
  match firstStop [x, y, z] with
  | some (_, st) => engStop st
  | none => pure ()

theorem vecProgram_eq (fn : VecFn) (q : QEntry) : vecProgram fn q = (do
    let x ← vecOperand q.words (agAt q.words 4)
    let y ← vecOperandIf (vecBinary (dOp q.words) = true) q.words (agAt q.words 12)
    let z ← vecOperandIf (dOp q.words = 4) q.words (agAt q.words 20)
    vecFinish fn q.words x y z) := by
  refine bind_congr fun x => ?_
  refine (EngM.ite_join ..).trans (bind_congr fun y => ?_)
  refine (EngM.ite_join ..).trans (bind_congr fun z => ?_)
  exact EngM.ite_join ..

/-- Where no operand stops, a vector instruction writes the results of what it read. -/
theorem vecProgram_reads {fn : VecFn} {q : QEntry} {e e1 e2 e3 : EngSt} {xs ys zs : List Exact}
    (hx : vecOperand q.words (agAt q.words 4) e = .ok (xs, none) e1)
    (hy : vecOperandIf (vecBinary (dOp q.words) = true) q.words (agAt q.words 12) e1 = .ok (ys, none) e2)
    (hz : vecOperandIf (dOp q.words = 4) q.words (agAt q.words 20) e2 = .ok (zs, none) e3) :
    vecProgram fn q e = vecWrites q.words (vecResults fn (vecRun q.words)
      (if vecReduce (dOp q.words) then xs.length else (agAt q.words 20).elems (vecOutFmt q.words)) xs ys zs) e3 := by
  rw [vecProgram_eq, EngM.bind_ok hx, EngM.bind_ok hy, EngM.bind_ok hz]
  exact congrFun (EngM.bind_unit _) e3

/-! ### Operands and results in registers -/

/-- The vector instruction names vector registers for X, Y and Z, in its own type, without conversion. -/
structure OnRegisters (ws : List Word) : Prop where
  conv  : dConv ws = 0
  x     : (agAt ws 4).useVreg = true ∧ (agAt ws 4).useImm = false
  y     : (agAt ws 12).useVreg = true ∧ (agAt ws 12).useImm = false
  z     : (agAt ws 20).useVreg = true ∧ (agAt ws 20).useImm = false
  count : (agAt ws 20).units = 64

namespace OnRegisters
variable {ws : List Word} (h : OnRegisters ws)
include h

theorem notCvtInt : vecCvtInt ws = false := by
  obtain ⟨hv, -⟩ := h.x
  simp [vecCvtInt, hv]

theorem direct : vecDirect ws = true := by
  simp [vecDirect, h.notCvtInt, h.conv]

theorem outFmt : vecOutFmt ws = vecType (dOp ws) := by
  simp [vecOutFmt, h.notCvtInt, h.direct]

theorem elems : (agAt ws 20).elems (vecOutFmt ws) = 64 := by
  have hper : perUnit (vecType (dOp ws)) = 1 := by
    unfold vecType
    split <;> rfl
  rw [Ag.elems, h.outFmt, hper, h.count]

/-- Reads of the three operands, where the operation has them. -/
theorem readX (e : EngSt) : vecOperand ws (agAt ws 4) e = .ok (e.x.vregElems (dOp ws) (agAt ws 4).vreg, none) e :=
  vecRead_vreg h.x.2 h.x.1

theorem readY (c : Prop) [Decidable c] (e : EngSt) :
    vecOperandIf c ws (agAt ws 12) e = .ok (if c then e.x.vregElems (dOp ws) (agAt ws 12).vreg else [], none) e := by
  unfold vecOperandIf
  split
  · exact vecRead_vreg h.y.2 h.y.1
  · rfl

theorem readZ (c : Prop) [Decidable c] (e : EngSt) :
    vecOperandIf c ws (agAt ws 20) e = .ok (if c then e.x.vregElems (dOp ws) (agAt ws 20).vreg else [], none) e := by
  unfold vecOperandIf
  split
  · exact vecRead_vreg h.z.2 h.z.1
  · rfl

end OnRegisters

/-- A tile whose vector engine has written 64 results into its output register. -/
def Tile.vecWritten (x : Tile) (ws : List Word) (F : Nat → Exact) : Tile :=
  { x with vregs := putResults x.vregs (agAt ws 20).vreg (vecOutFmt ws) ((List.range 64).zip ((List.range 64).map F)) }

theorem vecWriteDirect_registers {ws : List Word} (h : OnRegisters ws) (x : Tile) (F : Nat → Exact) :
    vecWriteDirect ws ((List.range 64).map F) { x := x } = .ok () { x := x.vecWritten ws F, units := 64 } := by
  have hw := vecWriteDirect_vreg h.z.1 ((List.range 64).map F) (e := { x := x }) rfl
  rw [List.length_map, List.length_range] at hw
  exact hw

theorem InRegisters.onRegisters {s : State} {t xr yr zr : Nat} {q : QEntry} (h : InRegisters s t q xr yr zr) : OnRegisters q.words :=
  ⟨h.conv, ⟨h.x.1, h.x.2.1⟩, ⟨h.y.1, h.y.2.1⟩, ⟨h.z.1, h.z.2.1⟩, h.count⟩

theorem Tile.setHead_vregs (x : Tile) (e : Nat) (q : QEntry) : (x.setHead e q).vregs = x.vregs := rfl

theorem Tile.setHead_withVregs (x : Tile) (m : SMap Nat) (e : Nat) (q : QEntry) :
    { x with vregs := m }.setHead e q = { x.setHead e q with vregs := m } := rfl

section
variable {s : State} {t xr yr zr : Nat} {q : QEntry} {i : Instr} {f : EngM Unit}

/-- A vector instruction whose program writes 64 results into a register. -/
theorem vectorWrites_of {F : Nat → Exact} {G : Nat → Nat} (h : InRegisters s t q xr yr zr)
    (hi : exec i s = .next (s.engFinish t 1 q (s.tile t) f))
    (hf : f { x := s.tile t } = .ok () { x := (s.tile t).vecWritten q.words F, units := 64 })
    (hG : ∀ n, n < 64 → encodeElem (vecOutFmt q.words) (F n) = G n) : VectorWrites i s t q zr G := by
  obtain ⟨-, -, hz⟩ := h.z
  have hregs : ∀ j, ((s.tile t).vecWritten q.words F).vregs.lookD j 0 =
      if 64 * zr ≤ j ∧ j < 64 * zr + 64 then encodeElem (vecOutFmt q.words) (F (j - 64 * zr)) else (s.tile t).vregs.lookD j 0 := by
    intro j
    rw [Tile.vecWritten, hz, lookD_putResults]
  refine ⟨_, hi.trans (congrArg _ (engFinish_ok hf)), fun n hn => ?_, fun j hj => ?_, ?_, onlyTile_setTile ..⟩
  · rw [State.tile_setTile, Tile.setHead_vregs, hregs, if_pos ⟨by omega, by omega⟩, Nat.add_sub_cancel_left, hG n hn]
  · have hother : ∀ p ∈ (List.range 64).zip ((List.range 64).map F), 64 * zr + p.1 ≠ j := fun p hp => by
      have := List.mem_range.1 (List.of_mem_zip hp).1
      omega
    rw [State.tile_setTile, Tile.setHead_vregs, Tile.vecWritten, hz, look_putResults_other _ hother]
  · rw [State.tile_setTile, Tile.setHead_vregs, Tile.vecWritten, Tile.setHead_withVregs]

/-- An engine starts the instruction at the head of its queue. -/
theorem engineRun_head {e op : Nat} {f : QEntry → EngM Unit} (hrun : (s.tile t).state = .running) (hq : (s.tile t).head e = some q)
    (hran : q.ran = false) (hop : dOp q.words = op) : engineRun t e op s f = s.engFinish t e q (s.tile t) (f q) := by
  simp only [engineRun, hq, engineLive_of_running hrun, hran, hop, Bool.not_false, Bool.true_and, decide_true, if_true]

theorem vecStep_registers {op : Nat} {fn : VecFn} (h : InRegisters s t q xr yr zr) (hop : dOp q.words = op) :
    vecStep t op fn s = .next (s.engFinish t 1 q (s.tile t) (vecProgram fn q)) :=
  congrArg Host.Outcome.next (engineRun_head h.running h.head h.fresh hop)

/-- The operands of an operation on registers: element n of X, and of Y and Z where the operation has them. -/
theorem vecProgram_registers {fn : VecFn} {F : Nat → Exact} (h : InRegisters s t q xr yr zr) (hred : vecReduce (dOp q.words) = false)
    (hF : vecResults fn (vecRun q.words) 64 ((s.tile t).vregElems (dOp q.words) xr)
      (if vecBinary (dOp q.words) then (s.tile t).vregElems (dOp q.words) yr else [])
      (if dOp q.words = 4 then (s.tile t).vregElems (dOp q.words) zr else []) = (List.range 64).map F) :
    vecProgram fn q { x := s.tile t } = .ok () { x := (s.tile t).vecWritten q.words F, units := 64 } := by
  have ho := h.onRegisters
  refine (vecProgram_reads (ho.readX _) (ho.readY _ _) (ho.readZ _ _)).trans ?_
  obtain ⟨-, -, hx⟩ := h.x
  obtain ⟨-, -, hy⟩ := h.y
  obtain ⟨-, -, hz⟩ := h.z
  rw [hred, if_neg Bool.false_ne_true, ho.elems, hx, hy, hz, hF, vecWrites, if_pos ho.direct]
  exact vecWriteDirect_registers ho _ F

end

section
variable {s : State} {t xr yr zr : Nat} {q : QEntry} {i : Instr} {op : Nat}

/-- An element of an operand that not every operation has. -/
theorem nth_operandIf {c : Prop} [Decidable c] (x : Tile) (op r : Nat) {n : Nat} (hn : n < 64) :
    nth (if c then x.vregElems op r else []) n Exact.zero = if c then vecElem op (x.vregs.lookD (64 * r + n) 0) else Exact.zero := by
  split
  · exact x.nth_vregElems op r hn
  · rfl

/-- A floating-point operation on registers. -/
theorem floatOnRegisters {f : Exact → Exact → Exact → Exact} {G : Nat → Exact} (h : InRegisters s t q xr yr zr)
    (hi : exec i s = vecStep t op (.float f) s) (hred : vecReduce op = false) (hint : vecInt op = false) (hop : dOp q.words = op)
    (hG : ∀ n, f (f32 ((s.tile t).vregs.lookD (64 * xr + n) 0))
      (if vecBinary op then f32 ((s.tile t).vregs.lookD (64 * yr + n) 0) else Exact.zero)
      (if op = 4 then f32 ((s.tile t).vregs.lookD (64 * zr + n) 0) else Exact.zero) = G n) :
    VectorWrites i s t q zr (fun n => encodeElem 0 (rne32 (G n))) := by
  have hres := vecProgram_registers (F := fun n => rne32 (G n)) (fn := .float f) h (hop ▸ hred) ?_
  · refine vectorWrites_of h (hi.trans (vecStep_registers h hop)) hres fun n _ => ?_
    rw [h.onRegisters.outFmt, hop, vecType, hint, if_neg Bool.false_ne_true]
  · refine List.map_congr_left fun n hn => ?_
    have hn := List.mem_range.1 hn
    rw [Tile.nth_vregElems _ _ _ hn, nth_operandIf _ _ _ hn, nth_operandIf _ _ _ hn, hop]
    simp only [vecElem, hint, Bool.false_eq_true, if_false]
    exact congrArg rne32 (hG n)

/-- An operation of two INT32 operands on registers. -/
theorem intOnRegisters {f : BitVec 32 → BitVec 32 → BitVec 32} (h : InRegisters s t q xr yr zr)
    (hi : exec i s = vecStep t op (.int f) s) (hred : vecReduce op = false) (hint : vecInt op = true) (hop : dOp q.words = op) :
    VectorWrites i s t q zr (fun n => (f (BitVec.ofNat 32 ((s.tile t).vregs.lookD (64 * xr + n) 0))
      (BitVec.ofNat 32 ((s.tile t).vregs.lookD (64 * yr + n) 0))).toNat) := by
  have hbin : vecBinary op = true := by
    unfold vecBinary
    exact Bool.or_eq_true_iff.2 (.inr hint)
  have hres := vecProgram_registers (fn := .int f) h (hop ▸ hred) (F := fun n => Exact.ofInt (f
    (BitVec.ofNat 32 ((s.tile t).vregs.lookD (64 * xr + n) 0)) (BitVec.ofNat 32 ((s.tile t).vregs.lookD (64 * yr + n) 0))).toInt) ?_
  · refine vectorWrites_of h (hi.trans (vecStep_registers h hop)) hres fun n _ => ?_
    rw [h.onRegisters.outFmt, hop, vecType, hint, if_pos rfl]
    exact encodeElem_int32 _
  · refine List.map_congr_left fun n hn => ?_
    have hn := List.mem_range.1 hn
    rw [Tile.nth_vregElems _ _ _ hn, nth_operandIf _ _ _ hn, hop]
    simp only [vecElem, hint, hbin, if_true, toWord32_signed]

/-- CVT between registers rounds each element to FP32. -/
theorem cvtOnRegisters (h : InRegisters s t q xr yr zr) (hop : dOp q.words = 0x30) :
    VectorWrites (.vecCvt t) s t q zr (fun n => encodeElem 0 (rne32 (f32 ((s.tile t).vregs.lookD (64 * xr + n) 0)))) := by
  have ho := h.onRegisters
  obtain ⟨-, -, hx⟩ := h.x
  refine vectorWrites_of h (congrArg Host.Outcome.next (engineRun_head h.running h.head h.fresh hop)) ?_
    (F := fun n => rne32 (f32 ((s.tile t).vregs.lookD (64 * xr + n) 0))) fun n _ => ?_
  · have hread := vecRead_vreg (ws := q.words) (n := (agAt q.words 4).elems ((agAt q.words 4).vecFmt 0x30))
      (zn := (agAt q.words 20).elems (vecOutFmt q.words)) (e := { x := s.tile t }) ho.x.2 ho.x.1
    refine (EngM.bind_ok hread).trans ?_
    have hmap : ((s.tile t).vregElems (dOp q.words) (agAt q.words 4).vreg).map rne32 =
        (List.range 64).map (fun n => rne32 (f32 ((s.tile t).vregs.lookD (64 * xr + n) 0))) := by
      rw [hx, hop, Tile.vregElems, List.map_map]
      rfl
    rw [if_pos ho.direct, ho.notCvtInt, if_neg Bool.false_ne_true, hmap]
    refine (congrFun (EngM.bind_unit _) _).trans ?_
    exact vecWriteDirect_registers ho (s.tile t) _
  · rw [ho.outFmt, hop]
    rfl

end

/-- The smaller and the larger of two INT32 values. -/
theorem smin_eq (x y : BitVec 32) : (if BitVec.slt y x then y else x) = if x.toInt ≤ y.toInt then x else y := by
  simp only [BitVec.slt, decide_eq_true_eq, ← Int.not_le, ite_not]

theorem smax_eq (x y : BitVec 32) : (if BitVec.slt x y then y else x) = if x.toInt ≤ y.toInt then y else x := by
  simp only [BitVec.slt, decide_eq_true_eq]
  by_cases h : x.toInt < y.toInt
  · rw [if_pos h, if_pos h.le]
  · rw [if_neg h]
    split
    · next hle => exact BitVec.eq_of_toInt_eq (by omega)
    · rfl

/-- Settles O15, operation by operation: each is its function of the elements that it reads. -/
theorem vectorRegisterResults : Obligations.VectorRegisterResults := by
  unfold Obligations.VectorRegisterResults
  intro s t xr yr zr q h
  refine ⟨?_, ?_, ?_, ?_, ?_, ?_, ?_, ?_, ?_, ?_, ?_, ?_, ?_, fun hop => cvtOnRegisters h hop, ?_, ?_, ?_, ?_, ?_, ?_, ?_, ?_⟩
  iterate 13 exact fun hop => floatOnRegisters h rfl rfl rfl hop fun _ => rfl
  iterate 3 exact fun hop => intOnRegisters h rfl rfl rfl hop
  · intro hop
    simpa only [smin_eq] using intOnRegisters (i := .vecImin t) h rfl rfl rfl hop
  · intro hop
    simpa only [smax_eq] using intOnRegisters (i := .vecImax t) h rfl rfl rfl hop
  iterate 3 exact fun hop => intOnRegisters h rfl rfl rfl hop

end Sys2Proof.Machine
end

section
namespace Sys2Proof.Machine

/-! ## Engine programs that run to their end (R122, R123, R126) -/

/-- An engine at work for tile x: it has changed none of the tile's registers, strands and state, the scratchpad holds no uncorrectable
word, and every unit is written. -/
structure EngSt.At (x : Tile) (e : EngSt) : Prop where
  g       : e.x.g = x.g
  strands : e.x.strands = x.strands
  current : e.x.current = x.current
  state   : e.x.state = x.state
  bad     : e.x.bad = []
  cap     : e.cap = none

/-- The program ends without a stop wherever the engine is at work for tile x; it writes k units, and P holds of its value. -/
def EngM.Runs {α : Type} (x : Tile) (m : EngM α) (k : Nat) (P : α → Prop) : Prop :=
  ∀ e : EngSt, e.At x → ∃ a y, m e = .ok a y ∧ y.At x ∧ P a ∧ y.units = e.units + k

namespace EngM.Runs
variable {α β : Type} {x : Tile} {P : α → Prop} {Q : β → Prop} {k l : Nat}

theorem pure {a : α} (h : P a) : EngM.Runs x (Pure.pure a) 0 P := fun e he => ⟨a, e, rfl, he, h, rfl⟩

theorem bind {m : EngM α} {f : α → EngM β} (hm : EngM.Runs x m k P) (hf : ∀ a, P a → EngM.Runs x (f a) l Q) :
    EngM.Runs x (m >>= f) (k + l) Q := by
  intro e he
  obtain ⟨a, y, hm, hy, hP, hk⟩ := hm e he
  obtain ⟨b, z, hf, hz, hQ, hl⟩ := hf a hP y hy
  exact ⟨b, z, (EngM.bind_ok hm).trans hf, hz, hQ, by omega⟩

/-- Behind a step that writes no unit. -/
theorem andThen {m : EngM α} {f : α → EngM β} (hm : EngM.Runs x m 0 P) (hf : ∀ a, P a → EngM.Runs x (f a) k Q) :
    EngM.Runs x (m >>= f) k Q := Nat.zero_add k ▸ hm.bind hf

theorem ite {c : Prop} [Decidable c] {m n : EngM α} (hm : c → EngM.Runs x m k P) (hn : ¬c → EngM.Runs x n k P) :
    EngM.Runs x (if c then m else n) k P := by
  split
  · next h => exact hm h
  · next h => exact hn h

theorem bindIte {c : Prop} [Decidable c] {m n : EngM α} {f : α → EngM β} (hm : c → EngM.Runs x m 0 P) (hn : ¬c → EngM.Runs x n 0 P)
    (hf : ∀ a, P a → EngM.Runs x (f a) k Q) : EngM.Runs x (if c then m >>= f else n >>= f) k Q :=
  .ite (fun h => (hm h).andThen hf) (fun h => (hn h).andThen hf)

/-- A step that is made only in one case. -/
theorem whenThen {c : Prop} [Decidable c] {m : EngM Unit} {f : Unit → EngM β} (hm : c → EngM.Runs x m 0 (fun _ => True))
    (hf : ∀ a, EngM.Runs x (f a) k Q) : EngM.Runs x (if c then m >>= f else f ()) k Q :=
  .ite (fun h => (hm h).andThen fun a _ => hf a) fun _ => hf ()

theorem imp {m : EngM α} {R : α → Prop} (hm : EngM.Runs x m k P) (h : ∀ a, P a → R a) : EngM.Runs x m k R := by
  intro e he
  obtain ⟨a, y, hm, hy, hP, hk⟩ := hm e he
  exact ⟨a, y, hm, hy, h a hP, hk⟩

/-- A step that always goes on, and changes only what an engine may. -/
theorem step {m : EngM α} {a : EngSt → α} {f : EngSt → EngSt} (hm : ∀ e, m e = .ok (a e) (f e)) (hf : ∀ e, e.At x → (f e).At x)
    (hP : ∀ e, P (a e)) (hu : ∀ e, (f e).units = e.units) : EngM.Runs x m 0 P :=
  fun e he => ⟨a e, f e, hm e, hf e he, hP e, hu e⟩

end EngM.Runs

section
variable {x : Tile} {a : Int} {n align k : Nat}

theorem EngM.Runs.engRead (h0 : 0 ≤ a) (hn : a + n ≤ 0x180000) (hal : a.toNat % align = 0) :
    EngM.Runs x (engRead a n align) 0 (fun _ => True) := by
  intro e he
  refine ⟨_, _, engRead_ok h0 hn hal he.bad, ?_, trivial, rfl⟩
  rw [Tile.fixSoft_shape]
  exact ⟨he.g, he.strands, he.current, he.state, he.bad, he.cap⟩

theorem EngM.Runs.engWrite {bs : List Byte} (h0 : 0 ≤ a) (hn : a + bs.length ≤ 0x180000) (hal : a.toNat % align = 0) :
    EngM.Runs x (engWrite a bs align) 0 (fun _ => True) := by
  intro e he
  refine ⟨_, _, engWrite_ok h0 hn hal he.bad he.cap, ?_, trivial, rfl⟩
  have hbad := stored_bad he.bad a.toNat bs
  rw [Tile.stored_shape] at hbad ⊢
  exact ⟨he.g, he.strands, he.current, he.state, hbad, he.cap⟩

theorem EngM.Runs.engCount {ev : NumEv} : EngM.Runs x (engCount ev) 0 (fun _ => True) :=
  .step (fun _ => rfl) (fun _ he => ⟨he.g, he.strands, he.current, he.state, he.bad, he.cap⟩) (fun _ => trivial) (fun _ => rfl)

theorem EngM.Runs.engCountOther {ev : NumEv} : EngM.Runs x (engCountOther ev) 0 (fun _ => True) :=
  .step (fun _ => rfl) (fun _ he => ⟨he.g, he.strands, he.current, he.state, he.bad, he.cap⟩) (fun _ => trivial) (fun _ => rfl)

theorem EngM.Runs.engGaz {i c : Nat} : EngM.Runs x (engGaz i c) 0 (fun _ => True) :=
  .step (fun _ => rfl) (fun _ he => ⟨he.g, he.strands, he.current, he.state, he.bad, he.cap⟩) (fun _ => trivial) (fun _ => rfl)

theorem EngM.Runs.engUnit : EngM.Runs x engUnit 1 (fun _ => True) := by
  intro e he
  have hcapped : e.capped = false := by rw [EngSt.capped, he.cap]
  refine ⟨(), { e with units := e.units + 1 }, ?_, ⟨he.g, he.strands, he.current, he.state, he.bad, he.cap⟩, trivial, rfl⟩
  simp only [Machine.engUnit, hcapped, Bool.false_eq_true, if_false]

/-- A write of a unit, counted. -/
theorem EngM.Runs.writeUnit {bs : List Byte} (h0 : 0 ≤ a) (hn : a + bs.length ≤ 0x180000) (hal : a.toNat % align = 0) :
    EngM.Runs x (Machine.engWrite a bs align >>= fun _ => Machine.engUnit) 1 (fun _ => True) :=
  EngM.Runs.andThen (.engWrite h0 hn hal) fun _ _ => .engUnit

/-- An action over a list, each time with the same number of units. -/
theorem EngM.Runs.engEach {α : Type} {f : α → EngM Unit} {l : List α} (hf : ∀ a ∈ l, EngM.Runs x (f a) k (fun _ => True)) :
    EngM.Runs x (engEach f l) (l.length * k) (fun _ => True) := by
  induction l with
  | nil => exact (Nat.zero_mul k).symm ▸ .pure trivial
  | cons a l ih =>
    have h := EngM.Runs.bind (hf a (List.mem_cons_self ..)) fun _ _ => ih fun b hb => hf b (List.mem_cons_of_mem _ hb)
    rw [List.length_cons, Nat.succ_mul, Nat.add_comm]
    exact h

theorem EngM.Runs.engMap {α β : Type} {f : α → EngM β} {l : List α} (hf : ∀ a ∈ l, EngM.Runs x (f a) 0 (fun _ => True)) :
    EngM.Runs x (engMap f l) 0 (fun bs => bs.length = l.length) := by
  induction l with
  | nil => exact .pure rfl
  | cons a l ih =>
    exact .andThen (hf a (List.mem_cons_self ..)) fun _ _ => .andThen (ih fun b hb => hf b (List.mem_cons_of_mem _ hb)) fun bs hbs =>
      .pure (by simp only [List.length_cons, hbs])

/-- What is collected from n on, where c i is the number of elements before i. -/
theorem EngM.Runs.engCollect {β : Type} {f : Nat → EngM (List β)} {c : Nat → Nat} (k : Nat) : ∀ n,
    (∀ i, n ≤ i → i < n + k → EngM.Runs x (f i) 0 (fun bs => c i + bs.length = c (i + 1))) →
    EngM.Runs x (engCollect f n k) 0 (fun r => r.2 = none ∧ c n + r.1.length = c (n + k)) := by
  induction k with
  | zero => exact fun n _ => .pure ⟨rfl, rfl⟩
  | succ k ih =>
    intro n hf e he
    obtain ⟨bs, y, hm, hy, hbs, hu⟩ := hf n le_rfl (by omega) e he
    obtain ⟨⟨cs, st⟩, z, hm', hz, ⟨hst, hcs⟩, hu'⟩ := ih (n + 1) (fun i hi hk => hf i (by omega) (by omega)) y hy
    refine ⟨(bs ++ cs, st), z, ?_, hz, ⟨hst, ?_⟩, by omega⟩
    · simp only [Machine.engCollect, hm, hm']
    · have : n + 1 + k = n + (k + 1) := by omega
      rw [List.length_append, ← Nat.add_assoc, hbs, hcs, this]

theorem SrLanes.draws_length (lanes : Nat) (n : Nat) : ∀ (l : SrLanes) (first : Nat), (SrLanes.draws lanes l first n).1.length = n := by
  induction n with
  | zero => exact fun _ _ => rfl
  | succ n ih => exact fun l first => congrArg (· + 1) (ih ..)

theorem convModes_length (c : ConvCtl) (lanes : Nat) (l : SrLanes) (first n : Nat) : (convModes c lanes l first n).1.length = n := by
  unfold convModes
  split
  · exact (List.length_map _).trans (SrLanes.draws_length ..)
  · exact List.length_replicate

theorem EngM.Runs.engModes {c : ConvCtl} {first : Nat} : EngM.Runs x (engModes c first n) 0 (fun ms => ms.length = n) :=
  .step (fun _ => rfl) (fun _ he => ⟨he.g, he.strands, he.current, he.state, he.bad, he.cap⟩) (fun _ => convModes_length ..) (fun _ => rfl)

end

end Sys2Proof.Machine
end

section
namespace Sys2Proof.Machine

/-! ## Units of operands and outputs (R37 to R45, R125) -/

/-- The block of unit n is one of the blocks of its generator. -/
theorem blockOf_lt {n units per : Nat} (h : n < units) :
    (if per = 32 then n else n / 32) < (if per = 32 then units else ceilDiv units 32) := by
  unfold ceilDiv
  split <;> omega

section
variable {x : Tile} {g : Ag} {w per n : Nat}

/-- A read at any alignment: a scale byte, an escape word, a column value. -/
theorem EngM.Runs.readBytes {a m : Nat} (h : a + m ≤ 0x180000) : EngM.Runs x (Machine.engRead (a : Int) m 1) 0 (fun _ => True) :=
  .engRead (Int.natCast_nonneg _) (by omega) (Nat.mod_one _)

theorem EngM.Runs.readUnit {first : Bool} (h : g.Readable w per) (hn : n < g.units) :
    EngM.Runs x (readUnit g w per n first) 0 (fun xs => xs.length = per) := by
  obtain ⟨hin, hscales⟩ := h
  obtain ⟨h0, hend, hal⟩ := hin n hn
  have hblock := blockOf_lt (per := per) hn
  refine .andThen (.engRead h0 hend hal) fun bs _ => .ite (fun hb => ?_) fun _ => ?_
  · obtain ⟨hsc, hesc⟩ := hscales hb
    exact .andThen (.readBytes (by omega)) fun _ _ =>
      .bindIte (fun hx => .readBytes (by have := hesc hx; omega)) (fun _ => .pure trivial) fun _ _ =>
        .andThen .engCountOther fun _ _ => .pure (by rw [List.length_map, List.length_range])
  · exact .andThen .engCountOther fun _ _ => .pure (by rw [List.length_map, List.length_map, List.length_range])

/-! ### Encoded runs -/

theorem encodeBlock_length {code : Nat} {ms : List RMode} {xs : List Exact} (h : ms.length = xs.length) :
    (encodeBlock code ms xs).elems.length = xs.length := by
  unfold encodeBlock
  split
  · exact List.length_map _
  · simp only [List.length_map, List.length_zip, h, Nat.min_self]

theorem encodeFp4x_length {ms : List RMode} {xs : List Exact} : (encodeFp4x ms xs).elems.length = xs.length := by
  unfold encodeFp4x
  split
  · exact List.length_map _
  · simp only [List.length_map, List.length_range]

/-- A run has as many elements as it converts. -/
theorem convRun_length {c : ConvCtl} {ms : List RMode} {ys : List Exact} (h : ms.length = ys.length) :
    (convRun c ms ys).elems.length = ys.length := by
  unfold convRun
  split
  · split
    · exact encodeFp4x_length
    · exact encodeBlock_length h
  · simp only [List.length_map, List.length_zip, h, Nat.min_self]

theorem packElems_length (w : Nat) (xs : List Nat) : (packElems w xs).length = ceilDiv (w * xs.length) 8 := leBytes_length ..

theorem perUnit_eq (code : Nat) : perUnit code = 32 ∨ perUnit code = 1 := by
  unfold perUnit
  split
  · exact .inl rfl
  · exact .inr rfl

theorem runLen_eq (c : ConvCtl) : runLen c = 32 ∨ runLen c = 1 := by
  unfold runLen
  split
  · exact .inl rfl
  · exact .inr rfl

/-- The units of one run. -/
def runUnits (c : ConvCtl) : Nat := if perUnit c.fmt = 32 then 1 else runLen c

theorem runUnits_mul (c : ConvCtl) : runUnits c * perUnit c.fmt = runLen c := by
  unfold runUnits
  rcases perUnit_eq c.fmt with h | h
  · rw [if_pos h, h, runLen, h]
    simp
  · rw [h, if_neg (by decide), Nat.mul_one]

/-! ### Writing a run -/

section
variable {c : ConvCtl} {r : Nat} {b : BlockEnc}

theorem EngM.Runs.writeBytes {a m v : Nat} (h : a + m ≤ 0x180000) :
    EngM.Runs x (Machine.engWrite (a : Int) (leBytes m v) 1) 0 (fun _ => True) :=
  .engWrite (Int.natCast_nonneg _) (by rw [leBytes_length]; omega) (Nat.mod_one _)

theorem EngM.Runs.writeScales {scale esc j k : Nat} (h : c.block = true → scale + k ≤ 0x180000 ∧ (c.x = true → esc + 4 * k ≤ 0x180000) ∧ j < k) :
    EngM.Runs x (writeScales c scale esc j b) 0 (fun _ => True) := by
  refine .whenThen (fun hb => ?_) fun _ => .ite (fun hbx => ?_) fun _ => .pure trivial
  · obtain ⟨hs, -, hj⟩ := h hb
    exact .writeBytes (by omega)
  · obtain ⟨hb, hx⟩ := (Bool.and_eq_true _ _).mp hbx
    obtain ⟨-, hs, hj⟩ := h hb
    have := hs hx
    exact .writeBytes (by omega)

/-- A unit within the outputs is written and counted. -/
theorem EngM.Runs.writeElems {w per i : Nat} {xs : List Nat} (hin : g.Within g.units (ceilDiv (w * per) 8)) (hi : i < g.units)
    (hxs : xs.length = per) :
    EngM.Runs x (Machine.engWrite (g.addr i) (packElems w xs) (unitAlign (ceilDiv (w * per) 8)) >>= fun _ => Machine.engUnit) 1 (fun _ => True) := by
  obtain ⟨h0, hend, hal⟩ := hin i hi
  refine .writeUnit h0 ?_ hal
  rwa [packElems_length, hxs]

theorem EngM.Runs.writeRun (h : g.Writable c c.fmt) (hlen : b.elems.length = runLen c) (hr : (r + 1) * runLen c ≤ g.units * perUnit c.fmt) :
    EngM.Runs x (writeRun g c r b) (runUnits c) (fun _ => True) := by
  obtain ⟨hin, hscales⟩ := h
  have hper := perUnit_eq c.fmt
  refine .andThen (.writeScales (k := if perUnit c.fmt = 32 then g.units else ceilDiv g.units 32) fun hb => ?_) fun _ _ => ?_
  · obtain ⟨hs, he⟩ := hscales hb
    refine ⟨hs, he, ?_⟩
    have hrun : runLen c = 32 := by simp only [runLen, hb, Bool.true_or, if_true]
    rw [hrun] at hr
    unfold ceilDiv
    split
    · next h32 =>
      rw [h32] at hr
      omega
    · next h32 =>
      rw [hper.resolve_left h32] at hr
      omega
  · unfold runUnits
    split
    · next h32 =>
      have hrun : runLen c = 32 := by simp only [runLen, h32, decide_true, Bool.or_true, if_true]
      rw [hrun, h32] at hr
      rw [unitBytes, h32] at hin
      exact .writeElems hin (by omega) (hlen.trans hrun)
    · next h32 =>
      have h1 := hper.resolve_left h32
      rw [h1, Nat.mul_one, Nat.succ_mul] at hr
      rw [unitBytes, h1] at hin
      have hzip : ((List.range b.elems.length).zip b.elems).length * 1 = runLen c := by
        rw [List.length_zip, List.length_range, Nat.min_self, hlen, Nat.mul_one]
      refine hzip ▸ .engEach fun e he => ?_
      have hlt := List.mem_range.1 (List.of_mem_zip he).1
      rw [hlen] at hlt ⊢
      exact .writeElems hin (by omega) rfl

end

end

end Sys2Proof.Machine
end

section
namespace Sys2Proof.Machine

/-! ## Vector instructions run to their end (R130 to R132) -/

/-! ### What the checks of issue give -/

section
variable {ws : List Word}

theorem vecShape_direct (h : vecShapeBad ws = false) (hz : (agAt ws 20).useVreg = true) : vecDirect ws = true := by
  by_contra hd
  simp [vecShapeBad, hz, hd] at h

theorem vecShape_reduce (h : vecShapeBad ws = false) (hr : vecReduce (dOp ws) = true) : (agAt ws 4).useImm = false ∧
    vecRun ws * (agAt ws 20).elems (vecOutFmt ws) = (agAt ws 4).elems ((agAt ws 4).vecFmt (dOp ws)) := by
  simp only [vecShapeBad, hr, if_true, Bool.or_eq_false_iff, decide_eq_false_iff_not, not_not] at h
  tauto

theorem vecShape_operand (h : vecShapeBad ws = false) (hr : vecReduce (dOp ws) = false) (hi : (agAt ws 4).useImm = false) :
    (agAt ws 4).elems ((agAt ws 4).vecFmt (dOp ws)) = (agAt ws 20).elems (vecOutFmt ws) := by
  simp only [vecShapeBad, hr, Bool.false_eq_true, if_false, Bool.or_eq_false_iff, decide_eq_false_iff_not, not_not, vecOperands, List.cons_append, List.any_cons, hi, Bool.not_false,
    Bool.true_and] at h
  tauto

theorem vecShape_vreg (h : vecShapeBad ws = false) (hx : (agAt ws 4).useVreg = true) :
    (agAt ws 4).elems ((agAt ws 4).vecFmt (dOp ws)) = 64 := by
  simp only [vecShapeBad, Bool.or_eq_false_iff, decide_eq_false_iff_not, not_not, List.any_cons, hx, Bool.true_and] at h
  tauto

theorem vecFormat_block (h : vecFormat ws = none) (hd : vecDirect ws = false) (hb : (convCtl (dConv ws)).block = true) :
    nth (agAt ws 20).counts 0 1 * perUnit (convCtl (dConv ws)).fmt % 32 = 0 := by
  by_contra hm
  by_cases h0 : dConv ws = 0
  · rw [h0] at hb
    exact absurd hb (by decide)
  · simp [vecFormat, hd, hb, hm, (show dConv ws ≠ 0#64 from h0)] at h

/-- Results that are written directly are words of FP32 or INT32. -/
theorem vecDirect_outFmt (h : vecDirect ws = true) : vecOutFmt ws = 0x0 ∨ vecOutFmt ws = 0xC := by
  by_cases hc : vecCvtInt ws = true
  · have h12 : bits (dConv ws) 3 0 = 0xC := by simpa [vecDirect, hc] using h
    exact .inr (by simp [vecOutFmt, hc, h12])
  · have hout : vecOutFmt ws = vecType (dOp ws) := by simp [vecOutFmt, h, hc]
    rw [hout, vecType]
    split
    · exact .inr rfl
    · exact .inl rfl

theorem vecConv_outFmt (h : vecDirect ws = false) : vecOutFmt ws = (convCtl (dConv ws)).fmt := by
  simp only [vecOutFmt, h, Bool.false_and, Bool.false_eq_true, if_false]
  rfl

end

/-! ### Counts of an address generator -/

theorem foldl_mul (l : List Nat) (a : Nat) : l.foldl (· * ·) a = a * l.foldl (· * ·) 1 := by
  induction l generalizing a with
  | nil => exact (Nat.mul_one a).symm
  | cons b l ih => rw [List.foldl_cons, List.foldl_cons, ih, ih (1 * b), Nat.one_mul, Nat.mul_assoc]

/-- The units of a generator: level 0, level 1, and the levels above. -/
theorem agAt_units (ws : List Word) (w : Nat) : (agAt ws w).units =
    nth (agAt ws w).counts 0 1 * nth (agAt ws w).counts 1 1 * ((agAt ws w).counts.drop 2).foldl (· * ·) 1 := by
  have hform : ∃ a b l, (agAt ws w).counts = a :: b :: l := ⟨_, _, _, rfl⟩
  obtain ⟨a, b, l, h⟩ := hform
  rw [Ag.units, h, List.foldl_cons, List.foldl_cons, foldl_mul, Nat.one_mul]
  rfl

theorem agAt_count_pos (ws : List Word) (w i : Nat) : 0 < nth (agAt ws w).counts i 1 := by
  unfold nth
  cases hget : (agAt ws w).counts[i]? with
  | none => exact Nat.one_pos
  | some c =>
    have hmem := List.mem_of_getElem? hget
    simp only [agAt, List.mem_map] at hmem
    obtain ⟨-, -, rfl⟩ := hmem
    exact Nat.succ_pos _

theorem perUnit_pos (code : Nat) : 0 < perUnit code := by
  rcases perUnit_eq code with h | h <;> omega

/-! ### Reading and writing -/

section
variable {x : Tile} {ws : List Word} {g : Ag} {zn : Nat}

/-- An operand in memory: as many elements as it has. -/
theorem EngM.Runs.vecRead_memory (h : g.Readable (fmtBits g.fmt.fmt) (perUnit g.fmt.fmt)) :
    EngM.Runs x (Machine.engCollect (fun i => Machine.readUnit g (fmtBits g.fmt.fmt) (perUnit g.fmt.fmt) i true) 0 (g.elems g.fmt.fmt / perUnit g.fmt.fmt)) 0
      (fun r => r.2 = none ∧ r.1.length = g.elems g.fmt.fmt) := by
  have hdiv : g.elems g.fmt.fmt / perUnit g.fmt.fmt = g.units := Nat.mul_div_cancel _ (perUnit_pos _)
  rw [hdiv]
  refine (EngM.Runs.engCollect (c := fun i => i * perUnit g.fmt.fmt) g.units 0 fun i _ hi => (EngM.Runs.readUnit h (by omega)).imp fun bs hbs => ?_).imp
    fun r hr => ?_
  · rw [hbs, Nat.succ_mul]
  · obtain ⟨hst, hlen⟩ := hr
    rw [Nat.zero_mul, Nat.zero_add, Nat.zero_add] at hlen
    exact ⟨hst, hlen⟩

/-- An operand is read without a stop. -/
theorem EngM.Runs.vecRead (h : g.useVreg = false → g.useImm = false → g.Readable (fmtBits g.fmt.fmt) (perUnit g.fmt.fmt)) :
    EngM.Runs x (vecRead ws g (g.elems (g.vecFmt (dOp ws))) zn) 0 (fun r => r.2 = none ∧
      r.1.length = if g.useImm then zn else if g.useVreg then 64 else g.elems (g.vecFmt (dOp ws))) := by
  intro e he
  by_cases hi : g.useImm = true
  · simp only [Machine.vecRead, hi, if_true]
    exact ⟨_, e, rfl, he, ⟨rfl, List.length_replicate⟩, rfl⟩
  by_cases hv : g.useVreg = true
  · simp only [Machine.vecRead, hi, hv, if_true, Bool.false_eq_true, if_false]
    exact ⟨_, e, rfl, he, ⟨rfl, by rw [List.length_map, List.length_range]⟩, rfl⟩
  · have hfmt : g.vecFmt (dOp ws) = g.fmt.fmt := by simp [Ag.vecFmt, hi, hv]
    obtain ⟨⟨ys, st⟩, y, hrun, hy, ⟨hst, hlen⟩, hu⟩ := EngM.Runs.vecRead_memory (x := x)
      (h (Bool.eq_false_iff.2 hv) (Bool.eq_false_iff.2 hi)) e he
    simp only [Machine.vecRead, hi, hv, hfmt, Bool.false_eq_true, if_false, hrun]
    exact ⟨_, y, rfl, hy, ⟨hst, (List.length_map _).trans hlen⟩, hu⟩

/-- Words written one by one, into a register or to memory. -/
theorem EngM.Runs.vecWriteDirect {rs : List Exact} {c : ConvCtl} (hd : vecDirect ws = true)
    (hz : (agAt ws 20).useVreg = false → (agAt ws 20).Writable c (vecOutFmt ws)) (hlen : rs.length = (agAt ws 20).elems (vecOutFmt ws)) :
    EngM.Runs x (vecWriteDirect ws rs) (agAt ws 20).units (fun _ => True) := by
  have hper : perUnit (vecOutFmt ws) = 1 ∧ unitBytes (vecOutFmt ws) 1 = 4 := by
    rcases vecDirect_outFmt hd with h | h <;> rw [h] <;> exact ⟨rfl, rfl⟩
  obtain ⟨hper, hbytes⟩ := hper
  rw [Ag.elems, hper, Nat.mul_one] at hlen
  by_cases hv : (agAt ws 20).useVreg = true
  · intro e he
    refine ⟨(), _, vecWriteDirect_vreg hv rs he.cap, ⟨he.g, he.strands, he.current, he.state, he.bad, he.cap⟩, trivial, ?_⟩
    rw [← hlen]
    rfl
  · have hv := Bool.eq_false_iff.2 hv
    obtain ⟨hin, -⟩ := hz hv
    rw [hper, hbytes] at hin
    have hzip : ((List.range rs.length).zip rs).length * 1 = (agAt ws 20).units := by
      rw [List.length_zip, List.length_range, Nat.min_self, hlen, Nat.mul_one]
    refine hzip ▸ .engEach fun e he => ?_
    have hlt := List.mem_range.1 (List.of_mem_zip he).1
    obtain ⟨h0, hend, hal⟩ := hin e.1 (hlen ▸ hlt)
    rw [hv, if_neg Bool.false_ne_true]
    exact .writeUnit h0 (by rwa [leBytes_length]) hal

/-- The elements of the outputs are whole runs of the conversion. -/
theorem runLen_dvd {c : ConvCtl} {n : Nat} (h : c.block = true → n * perUnit c.fmt % 32 = 0) : runLen c ∣ n * perUnit c.fmt := by
  unfold runLen
  rcases perUnit_eq c.fmt with h32 | h1
  · rw [h32]
    simp
  · by_cases hb : c.block = true
    · rw [hb, Bool.true_or, if_pos rfl]
      exact Nat.dvd_of_mod_eq_zero (h hb)
    · simp [hb, h1]

/-- Whole runs fill the units of the outputs. -/
theorem runs_units {c : ConvCtl} {n units : Nat} (hn : n = units * perUnit c.fmt) (hd : runLen c ∣ n) : n / runLen c * runUnits c = units := by
  refine Nat.eq_of_mul_eq_mul_right (perUnit_pos c.fmt) ?_
  rw [Nat.mul_assoc, runUnits_mul, Nat.div_mul_cancel hd, hn]

/-- A run of the conversion lies within the elements where its number does. -/
theorem succ_mul_runLen_le {c : ConvCtl} {n r : Nat} (hr : r < n / runLen c) : (r + 1) * runLen c ≤ n :=
  (Nat.mul_le_mul_right _ hr).trans (Nat.div_mul_le_self ..)

theorem EngM.Runs.vecWriteConv {rs : List Exact} (hz : (agAt ws 20).Writable (convCtl (dConv ws)) (convCtl (dConv ws)).fmt)
    (hlen : rs.length = (agAt ws 20).units * perUnit (convCtl (dConv ws)).fmt) (hd : runLen (convCtl (dConv ws)) ∣ rs.length) :
    EngM.Runs x (vecWriteConv ws rs) (agAt ws 20).units (fun _ => True) := by
  generalize hc : convCtl (dConv ws) = c at hz hlen hd
  have hunits := runs_units hlen hd
  rw [← List.length_range (n := rs.length / runLen c)] at hunits
  unfold Machine.vecWriteConv
  rw [← hunits, hc]
  refine .engEach fun r hr => ?_
  have hin := succ_mul_runLen_le (List.mem_range.1 hr)
  rw [Nat.succ_mul, Nat.mul_comm] at hin
  refine .andThen .engModes fun ms hms => .andThen .engCount fun _ _ => .writeRun hz ?_ (by rw [Nat.succ_mul, Nat.mul_comm, ← hlen]; exact hin)
  have hys : (((rs.drop (runLen c * r)).take (runLen c)).map (convPre c Exact.one Exact.one Exact.zero Exact.one)).length = runLen c := by
    rw [List.length_map, List.length_take, List.length_drop]
    omega
  rw [convRun_length (hms.trans hys.symm), hys]

/-- Results as many as the output has elements are all written. -/
theorem EngM.Runs.vecWrites {rs : List Exact} (hs : vecShapeBad ws = false) (hf : vecFormat ws = none)
    (hz : (agAt ws 20).useVreg = false → (agAt ws 20).Writable (convCtl (dConv ws)) (vecOutFmt ws))
    (hlen : rs.length = (agAt ws 20).elems (vecOutFmt ws)) : EngM.Runs x (vecWrites ws rs) (agAt ws 20).units (fun _ => True) := by
  refine .ite (fun hd => .vecWriteDirect hd hz hlen) fun hd => ?_
  have hd := Bool.eq_false_iff.2 hd
  have hv : (agAt ws 20).useVreg = false := Bool.eq_false_iff.2 fun hv => by
    rw [vecShape_direct hs hv] at hd
    cases hd
  have hout := vecConv_outFmt hd
  have hz := hz hv
  rw [Ag.elems, hout] at hlen
  rw [hout] at hz
  refine .vecWriteConv hz hlen (hlen ▸ runLen_dvd fun hb => ?_)
  have hrow := Nat.dvd_of_mod_eq_zero (vecFormat_block hf hd hb)
  rw [agAt_units]
  refine Nat.mod_eq_zero_of_dvd (hrow.trans ?_)
  rw [Nat.mul_assoc, Nat.mul_assoc]
  exact Nat.mul_dvd_mul_left _ ((dvd_mul_left _ _).mul_left _)

/-! ### Programs -/

theorem pieces_length {α : Type} (n k : Nat) (l : List α) : (pieces n k l).length = k := by
  induction k generalizing l with
  | zero => rfl
  | succ k ih => exact congrArg (· + 1) (ih _)

/-- A function of elements gives a result for every element of the output. -/
def VecFn.reduces : VecFn → Bool
  | .reduce .. => true
  | _ => false

theorem vecResults_length (fn : VecFn) (run n : Nat) (xs ys zs : List Exact) :
    (vecResults fn run n xs ys zs).length = if fn.reduces then (if run = 0 then 0 else n / run) else n := by
  cases fn with
  | float f => exact (List.length_map _).trans List.length_range
  | int f => exact (List.length_map _).trans List.length_range
  | reduce f sum => exact (List.length_map _).trans (pieces_length ..)

theorem vecRun_pos : 0 < vecRun ws := Nat.mul_pos (agAt_count_pos ..) (perUnit_pos _)

section
variable {q : QEntry} {op : Nat}

/-- The operands of a vector instruction lie where the engine may read them. -/
def VecReadable (ws : List Word) : Prop :=
  ∀ g ∈ vecOperands ws, g.useVreg = false → g.useImm = false → g.Readable (fmtBits g.fmt.fmt) (perUnit g.fmt.fmt)

theorem EngM.Runs.readX (h : VecReadable ws) : EngM.Runs x (vecOperand ws (agAt ws 4)) 0 (fun r => r.2 = none ∧
    r.1.length = if (agAt ws 4).useImm then (agAt ws 20).elems (vecOutFmt ws) else if (agAt ws 4).useVreg then 64 else
      (agAt ws 4).elems ((agAt ws 4).vecFmt (dOp ws))) :=
  .vecRead (h _ (List.mem_append_left _ (List.mem_cons_self ..)))

theorem EngM.Runs.operandIf {c : Prop} [Decidable c] (h : VecReadable ws) (hg : c → g ∈ vecOperands ws) :
    EngM.Runs x (vecOperandIf c ws g) 0 (fun r => r.2 = none) :=
  .ite (fun hc => (EngM.Runs.vecRead (h g (hg hc))).imp fun _ hr => hr.1) fun _ => .pure rfl

/-- X gives an element for each element of the output, or for each element of its runs. -/
theorem readX_length (hs : vecShapeBad ws = false) {r : List Exact × Option Stop}
    (hr : r.1.length = if (agAt ws 4).useImm then (agAt ws 20).elems (vecOutFmt ws) else if (agAt ws 4).useVreg then 64 else
      (agAt ws 4).elems ((agAt ws 4).vecFmt (dOp ws))) :
    r.1.length = if vecReduce (dOp ws) then vecRun ws * (agAt ws 20).elems (vecOutFmt ws) else (agAt ws 20).elems (vecOutFmt ws) := by
  rw [hr]
  have hv : (agAt ws 4).useVreg = true → 64 = (agAt ws 4).elems ((agAt ws 4).vecFmt (dOp ws)) := fun hx => (vecShape_vreg hs hx).symm
  by_cases hred : vecReduce (dOp ws) = true
  · obtain ⟨hi, hrun⟩ := vecShape_reduce hs hred
    rw [hred, hi, hrun, if_neg Bool.false_ne_true, if_pos rfl]
    exact ite_eq_right_iff.2 hv
  · rw [if_neg hred]
    refine ite_eq_left_iff.2 fun hi => ?_
    rw [← vecShape_operand hs (Bool.eq_false_iff.2 hred) (Bool.eq_false_iff.2 hi)]
    exact ite_eq_right_iff.2 hv

/-- The results of the elements read are as many as the output has elements. -/
theorem EngM.Runs.vecProgram {fn : VecFn} (hs : vecShapeBad q.words = false) (hf : vecFormat q.words = none) (hfn : fn.reduces = vecReduce (dOp q.words))
    (hr : VecReadable q.words) (hz : (agAt q.words 20).useVreg = false → (agAt q.words 20).Writable (convCtl (dConv q.words)) (vecOutFmt q.words)) :
    EngM.Runs x (vecProgram fn q) (agAt q.words 20).units (fun _ => True) := by
  rw [vecProgram_eq]
  refine .andThen (.readX hr) fun rx hx => .andThen (.operandIf hr fun hb => ?_) fun ry hy => .andThen (.operandIf hr fun h4 => ?_) fun rz hz' => ?_
  · simp [vecOperands, hb]
  · simp [vecOperands, h4]
  · obtain ⟨xs, st⟩ := rx
    obtain ⟨ys, st'⟩ := ry
    obtain ⟨zs, st''⟩ := rz
    obtain ⟨rfl, hx⟩ := hx
    obtain rfl : st' = none := hy
    obtain rfl : st'' = none := hz'
    have hx := readX_length hs hx
    refine (congrArg (EngM.Runs x · _ _) (EngM.bind_unit _)).mpr (.vecWrites hs hf hz ?_)
    rw [vecResults_length, hfn, if_neg vecRun_pos.ne']
    by_cases hred : vecReduce (dOp q.words) = true
    · rw [if_pos hred] at hx
      rw [if_pos hred, if_pos hred, hx]
      exact Nat.mul_div_cancel_left _ vecRun_pos
    · rw [if_neg hred, if_neg hred]
      rfl

end

end

/-! ### The engine -/

/-- An engine that begins is at work for its tile. -/
theorem EngSt.At.begin {x : Tile} (h : x.bad = []) : EngSt.At x { x := x } := ⟨rfl, rfl, rfl, rfl, h, rfl⟩

section
variable {s : State} {t e k : Nat} {q p : QEntry} {x : Tile} {i : Instr} {f : EngM Unit} {y : EngSt}

theorem Tile.reg_setHead (h : y.At x) (e : Nat) (q : QEntry) (r : Reg) : (y.x.setHead e q).reg r = x.reg r := by
  have hreg : (y.x.setHead e q).reg r = y.x.reg r := rfl
  rw [hreg]
  unfold Tile.reg Tile.regOf Tile.strand
  rw [h.g, h.strands, h.current]

/-- An engine whose program runs to its end leaves an entry that has run. -/
theorem engineDone_of (hi : exec i s = .next (s.engFinish t e p x f)) (hid : p.id = q.id) (hw : p.words = q.words) (hst : p.status = .ok)
    (hf : f { x := x } = .ok () y) (hy : y.At (s.tile t)) : EngineDone i s t e q y.units := by
  refine ⟨_, hi.trans (congrArg _ (engFinish_ok hf)), onlyTile_setTile .., fun r => ?_, ?_,
    { p with ran := true, units := y.units, nsat := y.nsat }, ?_, hid, hw, rfl, hst, rfl⟩
  · rw [State.tile_setTile]
    exact Tile.reg_setHead hy e _ r
  · rw [State.tile_setTile]
    exact hy.state
  · rw [State.tile_setTile, Tile.head_setHead]

theorem engineDone_of_runs (hi : exec i s = .next (s.engFinish t e q (s.tile t) f)) (hst : q.status = .ok) (hb : (s.tile t).bad = [])
    (hf : EngM.Runs (s.tile t) f k (fun _ => True)) : EngineDone i s t e q k := by
  obtain ⟨⟨⟩, y, hrun, hy, -, hk⟩ := hf _ (.begin hb)
  rw [← (hk.trans (Nat.zero_add k))]
  exact engineDone_of hi rfl rfl hst hrun hy

/-- What EngineRuns asks of a vector instruction: it is at the head of its queue, has not run, passes the checks of issue, and its
operands and outputs lie in the scratchpad. -/
structure VecReady (s : State) (t : Nat) (q : QEntry) : Prop where
  running  : (s.tile t).state = .running
  fresh    : q.ran = false
  status   : q.status = .ok
  bad      : (s.tile t).bad = []
  head     : (s.tile t).head 1 = some q
  shape    : vecShapeBad q.words = false
  format   : vecFormat q.words = none
  readable : VecReadable q.words
  writable : (agAt q.words 20).useVreg = false → (agAt q.words 20).Writable (convCtl (dConv q.words)) (vecOutFmt q.words)

theorem vecStep_done {op : Nat} {fn : VecFn} (h : VecReady s t q) (hi : exec i s = vecStep t op fn s) (hfn : fn.reduces = vecReduce op)
    (hop : dOp q.words = op) : EngineDone i s t 1 q (agAt q.words 20).units :=
  engineDone_of_runs (hi.trans (congrArg Host.Outcome.next (engineRun_head h.running h.head h.fresh hop))) h.status h.bad
    (.vecProgram h.shape h.format (hop ▸ hfn) h.readable h.writable)

theorem vecCvt_done (h : VecReady s t q) (hop : dOp q.words = 0x30) : EngineDone (.vecCvt t) s t 1 q (agAt q.words 20).units := by
  refine engineDone_of_runs (congrArg Host.Outcome.next (engineRun_head h.running h.head h.fresh hop)) h.status h.bad ?_
  have hred : vecReduce (dOp q.words) = false := hop ▸ rfl
  have hread := EngM.Runs.readX (x := s.tile t) h.readable
  rw [vecOperand, hop] at hread
  refine .andThen hread fun r hr => ?_
  obtain ⟨xs, st⟩ := r
  obtain ⟨rfl, hr⟩ := hr
  have hlen := readX_length h.shape (hop.symm ▸ hr)
  rw [hred, if_neg Bool.false_ne_true] at hlen
  have hwrites : (if vecDirect q.words then vecWriteDirect q.words (if vecCvtInt q.words then xs else xs.map rne32) else vecWriteConv q.words xs) =
      vecWrites q.words (if vecDirect q.words && !vecCvtInt q.words then xs.map rne32 else xs) := by
    unfold vecWrites
    by_cases hd : vecDirect q.words = true
    · by_cases hc : vecCvtInt q.words = true <;> simp only [hd, hc, if_true, Bool.not_true, Bool.and_false, Bool.not_false, Bool.and_true, Bool.false_eq_true, if_false]
    · simp only [hd, Bool.false_and, Bool.false_eq_true, if_false]
  refine (congrArg (EngM.Runs _ · _ _) ((EngM.ite_join ..).trans ((EngM.bind_unit _).trans hwrites))).mpr (.vecWrites h.shape h.format h.writable ?_)
  split
  · exact (List.length_map _).trans hlen
  · exact hlen

end

end Sys2Proof.Machine
end

section
namespace Sys2Proof.Machine

/-! ## MATMUL runs to its end (R127 to R129) -/

/-- The number of an item within a whole of A groups of B. -/
theorem mul_add_lt_mul {a b A B : Nat} (ha : a < A) (hb : b < B) : a * B + b < A * B :=
  calc a * B + b < a * B + B := Nat.add_lt_add_left hb _
    _ = (a + 1) * B := (Nat.succ_mul ..).symm
    _ ≤ A * B := Nat.mul_le_mul_right _ ha

/-- The operands of a MATMUL lie in the scratchpad, a chunk for each row or column of each batch. -/
structure Matmul.Ready (d : Matmul) : Prop where
  a      : d.a.Readable d.a.fmt.elemBits 32
  b      : d.b.Readable d.b.fmt.elemBits 32
  aUnits : d.a.units = d.batches * d.m * d.k
  bUnits : d.b.units = d.batches * d.n * d.k

section
variable {x : Tile} {d : Matmul} {once : Bool}

theorem EngM.Runs.readChunk {g : Ag} {n : Nat} {codes split : Bool} (h : g.Readable g.fmt.elemBits 32) (hn : n < g.units) :
    EngM.Runs x (readChunk g n codes split) 0 (fun _ => True) :=
  .andThen (.readUnit h hn) fun _ _ => .ite (fun _ => .andThen .engCountOther fun _ _ => .pure trivial) fun _ => .pure trivial

theorem EngM.Runs.mmChunk (h : d.Ready) {c o acc : Nat} (ho : o < d.batches * (d.m * d.n)) (hc : c < d.k) :
    EngM.Runs x (mmChunk d once c o acc) 0 (fun _ => True) := by
  have hmn : 0 < d.m * d.n := Nat.pos_of_ne_zero fun h0 => by rw [h0] at ho; exact absurd ho (Nat.not_lt_zero _)
  have hn : 0 < d.n := Nat.pos_of_mul_pos_left hmn
  have hbatch : o / (d.m * d.n) < d.batches := Nat.div_lt_of_lt_mul (by rwa [Nat.mul_comm])
  have hi : o % (d.m * d.n) / d.n < d.m := Nat.div_lt_of_lt_mul (by rw [Nat.mul_comm d.n]; exact Nat.mod_lt _ hmn)
  refine .andThen (.readChunk h.a ?_) fun a _ => .andThen (.readChunk h.b ?_) fun b _ => .andThen .engCountOther fun _ _ => .pure trivial
  · rw [h.aUnits]
    exact mul_add_lt_mul (mul_add_lt_mul hbatch hi) hc
  · rw [h.bUnits]
    exact mul_add_lt_mul (mul_add_lt_mul hbatch (Nat.mod_lt _ hn)) hc

theorem EngM.Runs.mmAccum (h : d.Ready) {os : List Nat} (hos : ∀ o ∈ os, o < d.batches * (d.m * d.n)) (k : Nat) : ∀ (c : Nat) (accs : List Nat),
    c + k ≤ d.k → accs.length = os.length → EngM.Runs x (mmAccum d once os c k accs) 0 (fun vs => vs.length = os.length) := by
  induction k with
  | zero => exact fun _ _ _ hlen => .pure hlen
  | succ k ih =>
    intro c accs hc hlen
    refine .andThen (.engMap fun e he => .mmChunk h (hos _ (List.of_mem_zip he).1) (by omega)) fun vs hvs => ih (c + 1) vs (by omega) ?_
    rw [hvs, List.length_zip, hlen, Nat.min_self]

theorem EngM.Runs.mmGroup (h : d.Ready) {inits : List Nat} {g : Nat} :
    EngM.Runs x (mmGroup d once inits (d.batches * (d.m * d.n)) g) 0
      (fun vs => vs.length = min d.a.fmt.group (d.batches * (d.m * d.n) - d.a.fmt.group * g)) := by
  have hlen : ∀ n : Nat, ((List.range n).map (d.a.fmt.group * g + ·)).length = n := fun n => (List.length_map _).trans List.length_range
  refine .andThen (.mmAccum h (fun o ho => ?_) d.k 0 _ (by omega) (List.length_map _)) fun vs hvs => ?_
  · obtain ⟨i, hi, rfl⟩ := List.mem_map.1 ho
    have := List.mem_range.1 hi
    omega
  · intro e he
    exact ⟨vs, _, rfl, ⟨he.g, he.strands, he.current, he.state, he.bad, he.cap⟩, hvs.trans (hlen _), rfl⟩

theorem OpFmt.group_pos (o : OpFmt) : 0 < o.group := by
  unfold OpFmt.group
  split_ifs <;> decide

/-- Every output has its accumulator. -/
theorem EngM.Runs.mmAccs (h : d.Ready) {inits : List Nat} :
    EngM.Runs x (mmAccs d once inits) 0 (fun r => r.2 = none ∧ r.1.length = d.batches * (d.m * d.n)) := by
  generalize htotal : d.batches * (d.m * d.n) = total
  have hgroup : ∀ g, EngM.Runs x (Machine.mmGroup d once inits total g) 0
      (fun vs => min total (d.a.fmt.group * g) + vs.length = min total (d.a.fmt.group * (g + 1))) := fun g =>
    (htotal ▸ EngM.Runs.mmGroup h).imp fun vs hvs => by
      rw [hvs, Nat.mul_succ]
      omega
  have hall := EngM.Runs.engCollect (x := x) (ceilDiv total d.a.fmt.group) 0 fun i _ _ => hgroup i
  have hceil : total ≤ d.a.fmt.group * ceilDiv total d.a.fmt.group := by
    have hdiv := Nat.div_add_mod (total + d.a.fmt.group - 1) d.a.fmt.group
    have hmod := Nat.mod_lt (total + d.a.fmt.group - 1) d.a.fmt.group_pos
    have hpos := d.a.fmt.group_pos
    unfold ceilDiv
    omega
  unfold Machine.mmAccs
  rw [htotal]
  refine hall.imp fun r hr => ?_
  obtain ⟨hst, hlen⟩ := hr
  rw [Nat.mul_zero, Nat.min_zero, Nat.zero_add, Nat.zero_add, Nat.min_eq_left hceil] at hlen
  exact ⟨hst, hlen⟩

/-! ### Conversion and writing -/

theorem EngM.Runs.colValue {use : Bool} {base n m : Nat} {dflt : Exact} (h : use = true → base + 4 * m ≤ 0x180000) (hn : n < m) :
    EngM.Runs x (colValue use base n dflt) 0 (fun _ => True) :=
  .ite (fun hu => .andThen (.readBytes (by have := h hu; omega)) fun _ _ => .pure trivial) fun _ => .pure trivial

theorem EngM.Runs.convertRun {ws : List Word} {c : ConvCtl} {len r : Nat} {accs : List Nat} (hn : 0 < d.n)
    (hcol : c.dqCol = true → bits (nth ws 30 0) 20 0 + 4 * d.n ≤ 0x180000) (hbias : c.bias = true → bits (nth ws 30 0) 41 21 + 4 * d.n ≤ 0x180000) :
    EngM.Runs x (convertRun d ws c len accs r) 0 (fun b => b.elems.length = len) := by
  refine .andThen (.engMap fun i _ => ?_) fun ys hys => .andThen .engModes fun ms hms => .andThen .engCount fun _ _ => .pure ?_
  · have hlt := Nat.mod_lt (len * r + i) hn
    exact .andThen (.colValue hcol hlt) fun _ _ => .andThen (.colValue hbias hlt) fun _ _ => .pure trivial
  · rw [List.length_range] at hys
    rw [convRun_length (hms.trans hys.symm), hys]

end

/-! ### What the checks of issue give -/

section
variable {ws : List Word}

theorem tensorShape_operands (h : tensorShapeBad ws = false) :
    nth (agAt ws 4).counts 0 1 = nth (agAt ws 12).counts 0 1 ∧ (agAt ws 4).counts.drop 2 = (agAt ws 12).counts.drop 2 := by
  simp only [tensorShapeBad, Bool.or_eq_false_iff, decide_eq_false_iff_not, not_not] at h
  tauto

theorem tensorShape_output (h : tensorShapeBad ws = false) (hk : accKeep ws = false) :
    nth (agAt ws 20).counts 0 1 * perUnit (convCtl (dConv ws)).fmt = mmN ws ∧ nth (agAt ws 20).counts 1 1 = mmM ws ∧
      (agAt ws 4).counts.drop 2 = (agAt ws 20).counts.drop 2 := by
  simp only [tensorShapeBad, hk, Bool.not_false, Bool.true_and, Bool.or_eq_false_iff, decide_eq_false_iff_not, not_not] at h
  tauto

theorem tensorFormat_block (h : tensorFormat ws = none) (hk : accKeep ws = false) (hb : (convCtl (dConv ws)).block = true) : mmN ws % 32 = 0 := by
  by_contra hm
  simp only [tensorFormat, hk, hb, hm, Bool.true_and, ne_eq, not_false_eq_true, decide_true, Bool.or_true, Bool.true_or, Bool.false_eq_true,
    if_true, if_false] at h
  split_ifs at h

theorem matmulOf_ready (h : tensorShapeBad ws = false) (ha : (agAt ws 4).Readable (agAt ws 4).fmt.elemBits 32)
    (hb : (agAt ws 12).Readable (agAt ws 12).fmt.elemBits 32) : (matmulOf ws).Ready := by
  obtain ⟨hchunks, hbatch⟩ := tensorShape_operands h
  refine ⟨ha, hb, ?_, ?_⟩
  · refine (agAt_units ws 4).trans ?_
    simp only [matmulOf, mmChunks, mmM]
    ring
  · refine (agAt_units ws 12).trans ?_
    simp only [matmulOf, mmChunks, mmN, hchunks, hbatch]
    ring

/-- The outputs of a MATMUL, in whole runs. -/
theorem matmulOf_outputs (h : tensorShapeBad ws = false) (hf : tensorFormat ws = none) (hk : accKeep ws = false) :
    (matmulOf ws).batches * ((matmulOf ws).m * (matmulOf ws).n) = (agAt ws 20).units * perUnit (convCtl (dConv ws)).fmt ∧
      runLen (convCtl (dConv ws)) ∣ (agAt ws 20).units * perUnit (convCtl (dConv ws)).fmt := by
  obtain ⟨hn, hm, hbatch⟩ := tensorShape_output h hk
  have htotal : (matmulOf ws).batches * ((matmulOf ws).m * (matmulOf ws).n) = (agAt ws 20).units * perUnit (convCtl (dConv ws)).fmt := by
    rw [agAt_units ws 20, hm, ← hbatch]
    simp only [matmulOf, ← hn]
    ring
  refine ⟨htotal, runLen_dvd fun hb => ?_⟩
  have hrow : 32 ∣ (matmulOf ws).n := Nat.dvd_of_mod_eq_zero (tensorFormat_block hf hk hb)
  rw [← htotal]
  exact Nat.mod_eq_zero_of_dvd ((hrow.mul_left _).mul_left _)

end

section
variable {x : Tile} {ws : List Word} {inits : List Nat}

/-- With ACC_KEEP the results stay in the accumulator file, and count as units. -/
theorem mmRun_keep {e : EngSt} (he : e.At x) (h : (matmulOf ws).Ready) (hk : accKeep ws = true) :
    ∃ y, mmRun ws inits e = .ok () y ∧ y.At x ∧ y.units = (matmulOf ws).batches * ((matmulOf ws).m * (matmulOf ws).n) := by
  obtain ⟨⟨accs, st⟩, y, hrun, hy, ⟨hst, hlen⟩, -⟩ := EngM.Runs.mmAccs (once := true) (inits := inits) h e he
  obtain rfl : st = none := hst
  refine ⟨{ y with units := accs.length }, (EngM.bind_ok hrun).trans ?_, ⟨hy.g, hy.strands, hy.current, hy.state, hy.bad, hy.cap⟩, hlen⟩
  have hkeep : (matmulOf ws).keep = true := hk
  exact congrFun (if_pos hkeep) y

theorem EngM.Runs.mmRun (h : (matmulOf ws).Ready) (hs : tensorShapeBad ws = false) (hf : tensorFormat ws = none) (hk : accKeep ws = false)
    (hz : (agAt ws 20).Writable (convCtl (dConv ws)) (convCtl (dConv ws)).fmt)
    (hcol : (convCtl (dConv ws)).dqCol = true → bits (nth ws 30 0) 20 0 + 4 * mmN ws ≤ 0x180000)
    (hbias : (convCtl (dConv ws)).bias = true → bits (nth ws 30 0) 41 21 + 4 * mmN ws ≤ 0x180000) :
    EngM.Runs x (mmRun ws inits) (agAt ws 20).units (fun _ => True) := by
  obtain ⟨htotal, hdvd⟩ := matmulOf_outputs hs hf hk
  refine .andThen (.mmAccs h) fun r hr => ?_
  obtain ⟨accs, st⟩ := r
  obtain ⟨rfl, hlen⟩ := hr
  have hkeep : ¬(matmulOf ws).keep = true := ne_true_of_eq_false hk
  refine (congrArg (EngM.Runs x · _ _) ((if_neg hkeep).trans (EngM.bind_unit _))).mpr ?_
  have hunits := runs_units (hlen.trans htotal) ((hlen.trans htotal) ▸ hdvd)
  rw [← List.length_range (n := accs.length / runLen (convCtl (dConv ws)))] at hunits
  rw [← hunits]
  refine .engEach fun r hr => .andThen (.convertRun (agAt_count_pos ws 12 1) hcol hbias) fun b hb => .writeRun hz hb ?_
  exact (succ_mul_runLen_le (List.mem_range.1 hr)).trans (hlen.trans htotal).le

end

/-! ### The engine -/

section
variable {s : State} {t : Nat} {q : QEntry}

/-- The entry of a MATMUL that begins: what a rerun starts from, and whether there can be one. -/
def mmEntry (x : Tile) (q : QEntry) : QEntry :=
  { q with saved := x.sr, accs := if accInit q.words then mmEntries x q.words else [],
           decided := accKeep q.words || !(convCtl (dConv q.words)).promote }

/-- A MATMUL that may start and whose program runs to its end leaves the tile of its run. -/
theorem matmul_runs (hrun : (s.tile t).state = .running) (hran : q.ran = false) (hst : q.status = .ok) (hq : (s.tile t).head 0 = some q)
    (hfirst : (s.tile t).sparseFirst q = false) {y : EngSt}
    (hy : mmRun q.words (mmEntry (s.tile t) q).accs { x := { s.tile t with srWrote := false } } = .ok () y) :
    exec (.matmul t) s = .next (s.engFinish t 0 (mmEntry (s.tile t) q) { s.tile t with srWrote := false }
      (mmRun q.words (mmEntry (s.tile t) q).accs)) := by
  have hexec : exec (.matmul t) s = .next (s.matmul t) := rfl
  rw [hexec]
  refine congrArg Host.Outcome.next ?_
  simp only [State.matmul, hq, engineLive_of_running hrun, hran, hfirst, Bool.not_false, Bool.and_true, if_true]
  change (s.engFinish t 0 (mmEntry (s.tile t) q) { s.tile t with srWrote := false } (mmRun q.words (mmEntry (s.tile t) q).accs)).mmAfter t
    (mmEntry (s.tile t) q) = _
  rw [engFinish_ok hy]
  exact mmAfter_setHead hst

end

end Sys2Proof.Machine
end

section
namespace Sys2Proof.Machine

/-! ## SPMM and PREDICT run to their end (R278 to R287) -/

/-! ### The order of the row blocks (R282) -/

/-- A list into which the row block i is put is the list and i. -/
theorem insertBlock_perm (p : Nat → Bool) (l : List Nat) (i : Nat) : (l.takeWhile p ++ i :: l.dropWhile p).Perm (i :: l) :=
  List.perm_middle.trans (List.Perm.of_eq (congrArg (i :: ·) List.takeWhile_append_dropWhile))

theorem foldl_insertBlock_perm (p : Nat → Nat → Bool) (is : List Nat) : ∀ l : List Nat,
    (is.foldl (fun l i => l.takeWhile (p i) ++ i :: l.dropWhile (p i)) l).Perm (is ++ l) := by
  induction is with
  | nil => exact fun _ => .refl _
  | cons i is ih => exact fun l => (ih _).trans (((insertBlock_perm (p i) l i).append_left is).trans List.perm_middle)

/-- Every row block has its place in the order, once. -/
theorem rowOrder_perm (d : Sprs) (bytes : List Byte) : (rowOrder d bytes).Perm (List.range d.rows) := by
  unfold rowOrder
  extract_lets cnt ins
  split
  · exact (foldl_insertBlock_perm (fun i j => decide (cnt i ≤ cnt j)) (List.range d.rows) []).trans (.of_eq (List.append_nil _))
  · exact .refl _

theorem Tile.sparseOrder_perm (x : Tile) (q : QEntry) : (x.sparseOrder q).Perm (List.range (sprsOf q.words).rows) := by
  unfold Tile.sparseOrder
  extract_lets d
  split
  · exact rowOrder_perm ..
  · exact .refl _

/-! ### What the checks of issue give -/

section
variable {ws : List Word}

/-- A generator of two levels. -/
theorem agAt_units_two {w : Nat} (h : ∀ c ∈ (agAt ws w).counts.drop 2, c = 1) :
    (agAt ws w).units = nth (agAt ws w).counts 0 1 * nth (agAt ws w).counts 1 1 := by
  have hone : ∀ l : List Nat, (∀ c ∈ l, c = 1) → l.foldl (· * ·) 1 = 1 := fun l hl =>
    List.foldlRecOn (motive := fun p => p = 1) l _ rfl fun p hp c hc => by rw [hp, hl c hc]
  rw [agAt_units, hone _ h, Nat.mul_one]

theorem sparseShape_counts (h : sparseShapeBad ws = false) :
    (∀ c ∈ (agAt ws 4).counts.drop 2, c = 1) ∧ 32 * nth (agAt ws 4).counts 0 1 = 128 * bits (nth ws 21 0) 31 16 ∧
    (∀ c ∈ (agAt ws 12).counts.drop 2, c = 1) ∧ nth (agAt ws 12).counts 1 1 = nth (agAt ws 4).counts 1 1 ∧
    (if dOp ws = 2 then nth (agAt ws 12).counts 0 1 * 64 else nth (agAt ws 12).counts 0 1 * perUnit (convCtl (dConv ws)).fmt) =
      128 * bits (nth ws 21 0) 15 0 := by
  simp only [sparseShapeBad, Bool.or_eq_false_iff, decide_eq_false_iff_not, not_not, List.any_eq_false, decide_eq_true_eq] at h
  tauto

/-- The activations: four chunks for each column block of each batch row. -/
theorem sparseShape_x (h : sparseShapeBad ws = false) : (sprsOf ws).x.units = (sprsOf ws).batch * (4 * (sprsOf ws).cols) := by
  obtain ⟨hone, hcols, -⟩ := sparseShape_counts h
  have hd : (sprsOf ws).cols = bits (nth ws 21 0) 31 16 := rfl
  have hchunks : nth (agAt ws 4).counts 0 1 = 4 * (sprsOf ws).cols := by omega
  exact (agAt_units_two hone).trans ((Nat.mul_comm ..).trans (congrArg _ hchunks))

/-- The outputs of SPMM: 128 for each row block of each batch row. -/
theorem sparseShape_spmm (h : sparseShapeBad ws = false) (hop : dOp ws = 1) :
    (sprsOf ws).z.units * perUnit (sprsOf ws).conv.fmt = (sprsOf ws).batch * (sprsOf ws).outs := by
  obtain ⟨-, -, hone, hbatch, hn⟩ := sparseShape_counts h
  rw [hop, if_neg (by decide)] at hn
  have hu : (sprsOf ws).z.units = nth (agAt ws 12).counts 0 1 * (sprsOf ws).batch :=
    (agAt_units_two hone).trans (congrArg _ hbatch)
  rw [hu, Nat.mul_right_comm, Nat.mul_comm]
  exact congrArg _ hn

theorem sparseShape_predict (h : sparseShapeBad ws = false) (hop : dOp ws = 2) :
    (sprsOf ws).z.units = (sprsOf ws).batch * ((sprsOf ws).outs / 64) := by
  obtain ⟨-, -, hone, hbatch, hn⟩ := sparseShape_counts h
  rw [hop, if_pos rfl] at hn
  have hu : (sprsOf ws).z.units = nth (agAt ws 12).counts 0 1 * (sprsOf ws).batch :=
    (agAt_units_two hone).trans (congrArg _ hbatch)
  have houts : (sprsOf ws).outs = nth (agAt ws 12).counts 0 1 * 64 := hn.symm
  rw [hu, houts, Nat.mul_div_cancel _ (by decide), Nat.mul_comm]

/-- The bytes of the activity mask lie in the scratchpad. -/
theorem predAddr_ok (h : predAddr ws = none) (hp : (sprsOf ws).pred = true) :
    (sprsOf ws).mask % 8 = 0 ∧ (sprsOf ws).mask + (sprsOf ws).batch * ((sprsOf ws).outs / 8) ≤ 0x180000 := by
  have hpred : bit (nth ws 21 0) 38 = true := hp
  have houts : (sprsOf ws).outs / 8 = 16 * bits (nth ws 21 0) 15 0 := by
    have hd : (sprsOf ws).outs = 128 * bits (nth ws 21 0) 15 0 := rfl
    omega
  rw [houts]
  unfold predAddr at h
  simp only [hpred, Bool.not_true, Bool.false_eq_true, if_false] at h
  split_ifs at h with hal hend
  exact ⟨not_not.1 hal, Nat.not_lt.1 hend⟩

end

/-! ### Reading -/

section
variable {x : Tile} {d : Sprs}

theorem EngM.Runs.readAct (h : d.x.Readable (fmtBits d.x.fmt.fmt) 32) (hu : d.x.units = d.batch * (4 * d.cols)) :
    EngM.Runs x (readAct d) 0 (fun _ => True) := by
  refine (EngM.Runs.engMap fun n hn => ?_).imp fun _ _ => trivial
  have hn := hu ▸ List.mem_range.1 hn
  obtain ⟨hin, hscales⟩ := h
  refine .andThen (.readUnit ⟨hin, hscales⟩ hn) fun xs _ => .andThen (P := fun _ => True) (.ite (fun hb => ?_) fun _ => .pure trivial) fun _ _ => .pure trivial
  obtain ⟨hs, -⟩ := hscales hb
  rw [if_pos rfl] at hs
  exact .andThen (.readBytes (by omega)) fun _ _ => .pure trivial

/-! ### Rows -/

/-- Where every block decodes and none is turned away, all blocks of a row are executed. -/
theorem blocksBefore_ok {bad : SparseBlk → Option Status} {bs : List (Except Status SparseBlk)} (hok : ∀ b ∈ bs, ∃ k : SparseBlk, b = .ok k)
    (hbad : ∀ k, Except.ok k ∈ bs → bad k = none) : (blocksBefore bad bs).2 = none := by
  induction bs with
  | nil => rfl
  | cons b bs ih =>
    obtain ⟨k, rfl⟩ := hok b (List.mem_cons_self ..)
    have hk := hbad k (List.mem_cons_self ..)
    simp only [blocksBefore, hk]
    exact ih (fun b hb => hok b (List.mem_cons_of_mem _ hb)) fun k hk => hbad k (List.mem_cons_of_mem _ hk)

theorem EngM.Runs.countBlocks {blks : List SparseBlk} {sctrl : Word} : EngM.Runs x (countBlocks blks sctrl) 0 (fun _ => True) :=
  .andThen .engGaz fun _ _ => .andThen .engGaz fun _ _ => .engCountOther

theorem EngM.Runs.sparseRun {int : Bool} {ms : List RMode} {b r : Nat} {accs : List Nat} {judged : List Bool}
    (hz : d.z.Writable d.conv d.conv.fmt) (hms : ms.length = d.batch * d.outs) (hu : d.z.units * perUnit d.conv.fmt = d.batch * d.outs)
    (haccs : accs.length = runLen d.conv) (hr : b * d.outs + r + runLen d.conv ≤ d.batch * d.outs) :
    EngM.Runs x (sparseRun d int ms (runLen d.conv) b r accs judged) (runUnits d.conv) (fun _ => True) := by
  refine .andThen .engCount fun _ _ => .andThen .engGaz fun _ _ => .writeRun hz ?_ ?_
  · have hm : ((ms.drop (b * d.outs + r)).take (runLen d.conv)).length = runLen d.conv := by
      rw [List.length_take, List.length_drop]
      omega
    have hys : ∀ f : Nat → Exact, (accs.map f).length = runLen d.conv := fun f => (List.length_map _).trans haccs
    rw [convRun_length (hm.trans (hys _).symm), hys]
  · rw [hu, Nat.succ_mul]
    exact (Nat.add_le_add_right (Nat.div_mul_le_self ..) _).trans hr

/-- An action over a rectangle, each time with the same number of units. -/
theorem EngM.Runs.engGrid {f : Nat → Nat → EngM Unit} {B K u : Nat} (hf : ∀ b, b < B → ∀ k, k < K → EngM.Runs x (f b k) u (fun _ => True)) :
    EngM.Runs x (Machine.engEach (fun b => Machine.engEach (f b) (List.range K)) (List.range B)) (B * (K * u)) (fun _ => True) := by
  have houter := EngM.Runs.engEach (x := x) (k := K * u) (l := List.range B) (f := fun b => Machine.engEach (f b) (List.range K)) fun b hb => by
    have hinner := EngM.Runs.engEach (x := x) (l := List.range K) fun k hk => hf b (List.mem_range.1 hb) k (List.mem_range.1 hk)
    rwa [List.length_range] at hinner
  rwa [List.length_range] at houter

/-- A run of a row block lies within the outputs. -/
theorem run_le {b i k : Nat} (hb : b < d.batch) (hi : i < d.rows) (hk : k < 128 / runLen d.conv) :
    b * d.outs + (128 * i + runLen d.conv * k) + runLen d.conv ≤ d.batch * d.outs := by
  have hrow : (k + 1) * runLen d.conv ≤ 128 := succ_mul_runLen_le hk
  rw [Nat.succ_mul, Nat.mul_comm] at hrow
  have hbatch : b * d.outs + d.outs ≤ d.batch * d.outs := by
    rw [← Nat.succ_mul]
    exact Nat.mul_le_mul_right _ hb
  have houts : d.outs = 128 * d.rows := rfl
  omega

/-- One row block writes the units of its 128 outputs in each batch row. -/
theorem EngM.Runs.spmmRow {sctrl : Word} {acts : List (List Exact × Bool)} {mask : List Byte} {ms : List RMode} {i : Nat} {blks : List SparseBlk}
    (hz : d.z.Writable d.conv d.conv.fmt) (hms : ms.length = d.batch * d.outs) (hu : d.z.units * perUnit d.conv.fmt = d.batch * d.outs)
    (hi : i < d.rows) :
    EngM.Runs x (spmmRow d sctrl acts mask ms i blks) (d.batch * (128 / runLen d.conv * runUnits d.conv)) (fun _ => True) := by
  refine .andThen .countBlocks fun _ _ =>
    .ite (fun _ => .andThen .engGaz fun _ _ => .andThen .engGaz fun _ _ => ?_) fun _ => ?_
  all_goals
    refine .engGrid fun b hb k hk => .andThen .engCountOther fun _ _ => .sparseRun hz hms hu ?_ (run_le hb hi hk)
    rw [List.length_map, List.length_map, List.length_range]

theorem EngM.Runs.spmmRows {sctrl : Word} {acts : List (List Exact × Bool)} {mask : List Byte} {ms : List RMode}
    (hz : d.z.Writable d.conv d.conv.fmt) (hms : ms.length = d.batch * d.outs) (hu : d.z.units * perUnit d.conv.fmt = d.batch * d.outs)
    (hsplit : d.x.fmt.split = 0) (blks : List (Nat × List (Except Status SparseBlk))) (hrows : ∀ e ∈ blks, e.1 < d.rows)
    (hok : ∀ e ∈ blks, ∀ b ∈ e.2, ∃ k : SparseBlk, b = .ok k) (hfmt : ∀ e ∈ blks, ∀ k : SparseBlk, Except.ok k ∈ e.2 → k.leg.fmt = d.x.fmt.fmt) :
    EngM.Runs x (spmmRows d sctrl acts mask ms blks) (blks.length * (d.batch * (128 / runLen d.conv * runUnits d.conv))) (fun _ => True) := by
  induction blks with
  | nil => exact (Nat.zero_mul _).symm ▸ .pure trivial
  | cons e blks ih =>
    have hrest := ih (fun e he => hrows e (List.mem_cons_of_mem _ he)) (fun e he => hok e (List.mem_cons_of_mem _ he))
      fun e he => hfmt e (List.mem_cons_of_mem _ he)
    have hhead := List.mem_cons_self (a := e) (l := blks)
    have hgo := blocksBefore_ok (bad := fun k => if k.leg.fmt ≠ d.x.fmt.fmt || d.x.fmt.split ≠ 0 then some .formatMix else none) (hok e hhead)
      fun k hk => by simp [hfmt e hhead k hk, hsplit]
    have hrow := EngM.Runs.bind (EngM.Runs.spmmRow (x := x) (sctrl := sctrl) (acts := acts) (mask := mask)
      (blks := (blocksBefore (fun k => if k.leg.fmt ≠ d.x.fmt.fmt || d.x.fmt.split ≠ 0 then some .formatMix else none) e.2).1)
      hz hms hu (hrows e hhead)) fun _ _ => hrest
    rw [List.length_cons, Nat.succ_mul, Nat.add_comm]
    simp only [Machine.spmmRows, hgo]
    exact hrow

/-- Every row block once gives every unit of the outputs. -/
theorem spmm_units (hu : d.z.units * perUnit d.conv.fmt = d.batch * d.outs) :
    d.rows * (d.batch * (128 / runLen d.conv * runUnits d.conv)) = d.z.units := by
  refine Nat.eq_of_mul_eq_mul_right (perUnit_pos d.conv.fmt) ?_
  have hrun : 128 / runLen d.conv * runLen d.conv = 128 := by
    rcases runLen_eq d.conv with h | h <;> rw [h]
  rw [hu, Nat.mul_assoc, Nat.mul_assoc, Nat.mul_assoc, runUnits_mul, hrun, Sprs.outs]
  ring

theorem EngM.Runs.predictRows {sctrl theta : Word} {acts : List (List Exact × Bool)}
    (hz : d.z.Within d.z.units 8) (hu : d.z.units = d.batch * (d.outs / 64))
    (blks : List (Nat × List (Except Status SparseBlk))) (hrows : ∀ e ∈ blks, e.1 < d.rows)
    (hok : ∀ e ∈ blks, ∀ b ∈ e.2, ∃ k : SparseBlk, b = .ok k)
    (hfmt : ∀ e ∈ blks, ∀ k : SparseBlk, Except.ok k ∈ e.2 → k.leg.fmt = 0xB ∧ k.leg.bscale = false) :
    EngM.Runs x (predictRows d sctrl theta acts blks) (blks.length * (d.batch * 2)) (fun _ => True) := by
  induction blks with
  | nil => exact (Nat.zero_mul _).symm ▸ .pure trivial
  | cons e blks ih =>
    have hrest := ih (fun e he => hrows e (List.mem_cons_of_mem _ he)) (fun e he => hok e (List.mem_cons_of_mem _ he))
      fun e he => hfmt e (List.mem_cons_of_mem _ he)
    have hhead := List.mem_cons_self (a := e) (l := blks)
    have hgo := blocksBefore_ok (bad := fun k => if k.leg.fmt ≠ 0xB || k.leg.bscale then some .sparseFormat else none) (hok e hhead)
      fun k hk => by obtain ⟨hf, hb⟩ := hfmt e hhead k hk; simp [hf, hb]
    rw [List.length_cons, Nat.succ_mul, Nat.add_comm]
    simp only [Machine.predictRows, hgo]
    refine .andThen .countBlocks fun _ _ => .bind (P := fun _ => True) (.engGrid (K := 2) (u := 1) fun b hb u hu' => ?_) fun _ _ => hrest
    have houts : d.outs / 64 = 2 * d.rows := by unfold Sprs.outs; omega
    have hin : b * (d.outs / 64) + (2 * e.1 + u) < d.batch * (d.outs / 64) :=
      mul_add_lt_mul hb (by have := hrows e hhead; omega)
    rw [← Nat.add_assoc, ← hu] at hin
    obtain ⟨h0, hend, hal⟩ := hz _ hin
    exact .andThen .engGaz fun _ _ => .writeUnit h0 (by rwa [leBytes_length]) hal

/-! ### Programs -/

variable {ws : List Word} {sctrl theta : Word} {blks : List (Nat × List (Except Status SparseBlk))}

/-- The blocks of every row block, all decoded. -/
structure BlocksRead (d : Sprs) (blks : List (Nat × List (Except Status SparseBlk))) : Prop where
  rows : (blks.map (·.1)).Perm (List.range d.rows)
  ok   : ∀ e ∈ blks, ∀ b ∈ e.2, ∃ k : SparseBlk, b = .ok k

theorem BlocksRead.lt (h : BlocksRead d blks) : ∀ e ∈ blks, e.1 < d.rows := fun _ he =>
  List.mem_range.1 (h.rows.mem_iff.1 (List.mem_map_of_mem he))

theorem BlocksRead.length (h : BlocksRead d blks) : blks.length = d.rows := by
  have hlen := h.rows.length_eq
  rwa [List.length_map, List.length_range] at hlen

theorem EngM.Runs.spmmRun (hb : BlocksRead (sprsOf ws) blks) (hs : sparseShapeBad ws = false) (hop : dOp ws = 1) (hp : predAddr ws = none)
    (hx : (agAt ws 4).Readable (fmtBits (agAt ws 4).fmt.fmt) 32) (hz : (sprsOf ws).z.Writable (sprsOf ws).conv (sprsOf ws).conv.fmt)
    (hsplit : (sprsOf ws).x.fmt.split = 0) (hfmt : ∀ e ∈ blks, ∀ k : SparseBlk, Except.ok k ∈ e.2 → k.leg.fmt = (sprsOf ws).x.fmt.fmt) :
    EngM.Runs x (spmmRun ws sctrl blks) (sprsOf ws).z.units (fun _ => True) := by
  have hu := sparseShape_spmm hs hop
  refine .andThen (P := fun _ => True) (.ite (fun hpred => ?_) fun _ => .pure trivial) fun mask _ =>
    .andThen (.readAct hx (sparseShape_x hs)) fun acts _ => .andThen .engModes fun ms hms => ?_
  · obtain ⟨hal, hend⟩ := predAddr_ok hp hpred
    exact .engRead (Int.natCast_nonneg _) (by omega) hal
  · have hrows := EngM.Runs.spmmRows (x := x) (sctrl := sctrl) (acts := acts) (mask := mask) hz hms hu hsplit blks hb.lt hb.ok hfmt
    rwa [hb.length, spmm_units hu] at hrows

theorem EngM.Runs.predictRun (hb : BlocksRead (sprsOf ws) blks) (hs : sparseShapeBad ws = false) (hop : dOp ws = 2)
    (hx : (agAt ws 4).Readable (fmtBits (agAt ws 4).fmt.fmt) 32) (hz : (sprsOf ws).z.Within (sprsOf ws).z.units 8)
    (hfmt : ∀ e ∈ blks, ∀ k : SparseBlk, Except.ok k ∈ e.2 → k.leg.fmt = 0xB ∧ k.leg.bscale = false) :
    EngM.Runs x (predictRun ws sctrl theta blks) (sprsOf ws).z.units (fun _ => True) := by
  have hu := sparseShape_predict hs hop
  refine .andThen (.readAct hx (sparseShape_x hs)) fun acts _ => ?_
  have hrows := EngM.Runs.predictRows (x := x) (sctrl := sctrl) (theta := theta) (acts := acts) hz hu blks hb.lt hb.ok hfmt
  have hunits : (sprsOf ws).rows * ((sprsOf ws).batch * 2) = (sprsOf ws).z.units := by
    have houts : (sprsOf ws).outs / 64 = 2 * (sprsOf ws).rows := by unfold Sprs.outs; omega
    rw [hu, houts]
    ring
  rwa [hb.length, hunits] at hrows

end

end Sys2Proof.Machine
end

section
namespace Sys2Proof.Machine

/-! ## The sparse engine asks for its blocks (R282) -/

/-! ### A request on its way leaves every tile as it is -/

/-- From o to s no tile and no message changes. -/
def KeepsGrid (o s : State) : Prop := s.grid = o.grid

namespace KeepsGrid
variable {o s u : State}

theorem refl (s : State) : KeepsGrid s s := rfl

theorem noted (h : KeepsGrid o s) (hu : Noted s u) : KeepsGrid o u := hu.grid.trans h

theorem ite {c : Prop} [Decidable c] (h : KeepsGrid o s) (h' : KeepsGrid o u) : KeepsGrid o (if c then s else u) := by
  split <;> assumption

theorem iteSnd {α : Type} {c : Prop} [Decidable c] {x y : α × State} (h : KeepsGrid o x.2) (h' : KeepsGrid o y.2) :
    KeepsGrid o (if c then x else y).2 := by
  split <;> assumption

theorem withStk {a} (h : KeepsGrid o s) : KeepsGrid o { s with stk := a } := h

theorem withFar {a} (h : KeepsGrid o s) : KeepsGrid o { s with far := a } := h

theorem withPlt {a} (h : KeepsGrid o s) : KeepsGrid o { s with plt := a } := h

theorem withAtl {a} (h : KeepsGrid o s) : KeepsGrid o { s with atl := a } := h

theorem withW1c {a} (h : KeepsGrid o s) : KeepsGrid o { s with w1c := a } := h

theorem notify {n st part subject detail g addr job} (h : KeepsGrid o s) : KeepsGrid o (s.notify n st part subject detail g addr job) :=
  h.noted (notify_noted ..)

theorem drift {k ps} (h : KeepsGrid o s) : KeepsGrid o (s.drift k ps) := h.noted (drift_noted ..)

/-! The pools of memory requests. -/

theorem putPool {d p x} (h : KeepsGrid o s) : KeepsGrid o (s.putPool d p x) := by
  unfold State.putPool
  extract_lets _ s1 _ s2
  have h1 : KeepsGrid o s1 := h.withPlt
  have h2 : KeepsGrid o s2 := .ite (.notify (.withW1c (.withPlt h1))) h1
  exact h2.notify.ite h2

theorem platTake {d p w i} (h : KeepsGrid o s) (hu : s.platTake d p w = some (i, u)) : KeepsGrid o u := by
  dsimp only [State.platTake] at hu
  split at hu
  · obtain ⟨r, -, hr⟩ := Option.map_eq_some_iff.1 hu
    obtain ⟨-, rfl⟩ := Prod.mk.inj hr
    exact h.putPool
  · cases hu

theorem platHold {d p w} (h : KeepsGrid o s) : KeepsGrid o (s.platHold d p w) := .ite (.drift (.withW1c h.withPlt)) h

theorem platFree {d p q i} (h : KeepsGrid o s) : KeepsGrid o (s.platFree d p q i).2 := by
  dsimp only [State.platFree]
  exact .iteSnd h (.iteSnd (.notify (.withW1c (.withW1c h.withPlt))) h.putPool)

/-! The ways that a request may take: to its controller, a far port, pinned rows. -/

theorem reach {r} (h : KeepsGrid o s) : KeepsGrid o (s.reach r) := by
  dsimp only [State.reach]
  split
  · split
    · exact h.withStk.withStk.withStk.ite (h.withStk.withStk.ite h.withStk.withStk)
    · exact h.withStk.withStk
  · exact h.withStk.withStk

theorem leave {id} (h : KeepsGrid o s) : KeepsGrid o (s.leave id) := by
  dsimp only [State.leave]
  split
  · exact h
  · split
    · refine .ite (.reach ?_) h
      split
      · exact h.platFree
      · exact h
    · exact h.reach

theorem memTake {r} (h : KeepsGrid o s) : KeepsGrid o (s.memTake r) := by
  unfold State.memTake
  refine h.ite ?_
  split
  · rename_i hu
    exact (h.platTake hu).withStk
  · exact h

theorem portStop {r} (h : KeepsGrid o s) : KeepsGrid o (s.portStop r) := .drift (.withW1c h.withPlt)

theorem portWait {id} (h : KeepsGrid o s) : KeepsGrid o (s.portWait id) := by
  dsimp only [State.portWait]
  split
  · exact (h.drift.memTake.portStop.ite (h.drift.memTake.platHold.ite h.drift.memTake)).ite h
  · exact h

theorem farLose {r} (h : KeepsGrid o s) : KeepsGrid o (s.farLose r) := by
  dsimp only [State.farLose]
  refine .withStk ?_
  split
  · exact .ite (.drift (.withW1c h.withFar)) (.withW1c h.withFar)
  · exact .withW1c h.withFar

theorem farLeave {id} (h : KeepsGrid o s) : KeepsGrid o (s.farLeave id) := by
  unfold State.farLeave
  split
  · exact h
  · split
    · exact h.farLose.ite (h.withStk.withStk.ite h)
    · exact h

theorem pinLeave {id} (h : KeepsGrid o s) : KeepsGrid o (s.pinLeave id) := by
  dsimp only [State.pinLeave]
  split
  · exact h
  · split
    · exact .ite h.withAtl.withW1c.withStk h.withStk
    · exact h

theorem leaveOther {r} (h : KeepsGrid o s) : KeepsGrid o (s.leaveOther r) := by
  unfold State.leaveOther
  refine h.ite ?_
  split
  · exact h
  · exact h.farLeave
  · exact h.pinLeave

theorem memSend {r} (h : KeepsGrid o s) : KeepsGrid o (s.memSend r) := by
  dsimp only [State.memSend]
  split
  · exact .portWait (.leave h.withStk)
  · exact .ite (.portStop h.withStk) (.leaveOther h.withStk)

end KeepsGrid

theorem tile_memSend (s : State) (r : MemReq) (t : Nat) : (s.memSend r).tile t = s.tile t := by
  have hgrid : (s.memSend r).grid = s.grid := (KeepsGrid.refl s).memSend
  rw [State.tile, hgrid, State.tile]

/-! ### The start of a sparse instruction -/

/-- A sparse instruction that may start: it is at the head of its queue on a running tile, and no MATMUL goes before it (R283). -/
structure SparseReady (s : State) (t : Nat) (q : QEntry) : Prop where
  running : (s.tile t).state = .running
  fresh   : q.ran = false
  head    : (s.tile t).head 4 = some q
  idle    : (s.tile t).tensorBusy = false
  first   : (s.tile t).tensorFirst q = false

section
variable {s : State} {t op : Nat} {q p : QEntry}

/-- What has been asked for and has not come holds the instruction back. -/
theorem sparseStart_waits (h : SparseReady s t q) (hop : dOp q.words = op) (hp : ((s.sparseAsk t q).tile t).head 4 = some p) (hw : p.waits ≠ []) :
    s.sparseStart t op = s.sparseAsk t q := by
  have hbind : ∀ f : SparseFetch → Option (List (Nat × List (Except Status SparseBlk))),
      p.fetch.bind (fun g => if p.waits.isEmpty then f g else none) = none := fun f => by
    rw [List.isEmpty_eq_false_iff.2 hw]
    cases p.fetch <;> rfl
  simp only [State.sparseStart, h.head, engineLive_of_running h.running, h.fresh, hop, h.idle, h.first, Bool.not_false, Bool.and_true, decide_true,
    if_true, hp, hbind]

/-- What has been read runs. -/
theorem sparseStart_runs {f : SparseFetch} {blks : List (Nat × List (Except Status SparseBlk))} (h : SparseReady s t q) (hop : dOp q.words = op)
    (hf : q.fetch = some f) (hw : q.waits = []) (hb : f.blocks (sprsOf q.words) = some blks) :
    s.sparseStart t op = s.engFinish t 4 { q with fetch := none } (s.tile t) (sparseRunOf q blks) := by
  have hask : s.sparseAsk t q = s := by
    unfold State.sparseAsk
    rw [hf]
    rfl
  have hbind : q.fetch.bind (fun g => if q.waits.isEmpty then g.blocks (sprsOf q.words) else none) = some blks := by
    rw [hf, hw]
    exact hb
  simp only [State.sparseStart, h.head, engineLive_of_running h.running, h.fresh, hop, h.idle, h.first, Bool.not_false, Bool.and_true, decide_true,
    if_true, hask, hbind]

/-! ### The first requests -/

/-- Where requests have been sent, the instruction waits for them. -/
theorem sparseSend_waits (insn : Nat) (l : List (MemTarget × Nat × Nat)) : ∀ (s : State) (q : QEntry), (s.tile t).head 4 = some q →
    q.waits ≠ [] ∨ l ≠ [] → ∃ p, ((s.sparseSend t insn l).tile t).head 4 = some p ∧ p.waits ≠ [] := by
  induction l with
  | nil => exact fun s q hq hw => ⟨q, hq, hw.resolve_right (not_not.2 rfl)⟩
  | cons r l ih =>
    intro s q hq _
    obtain ⟨tg, o, n⟩ := r
    simp only [State.sparseSend, tile_memSend, hq]
    refine ih _ { q with waits := q.waits ++ [s.stk.next] } ?_ (.inl (by simp))
    rw [State.tile_onTile, Tile.head_setHead]

theorem Tile.setHead_setHead (x : Tile) (e : Nat) (p q : QEntry) : (x.setHead e p).setHead e q = x.setHead e q := by
  simp only [Tile.setHead, Tile.queue, SMap.lookD_put_same, List.tail_cons, SMap.put_put]

/-- The first piece of the Legend lies in the partition's view: its requests are sent. -/
theorem sparseAsk_sends {a n : Nat} {ps : List (MemTarget × Nat × Nat)} (hf : q.fetch = none)
    (hg : gatherBlocks (sprsOf q.words).base (sprsOf q.words).cols (((s.tile t).sparseOrder q).flatMap
      (fun i => (List.range (sprsOf q.words).cols).map (fun j => (i, j)))) [] = ([], some (a, n)))
    (hv : s.viewUnit ((s.tile t).part.getD 64) a n = some ps) (hps : ps ≠ []) :
    s.sparseAsk t q = (s.setTile t ((s.tile t).setHead 4 { q with
      fetch := some { order := (s.tile t).sparseOrder q, cur := (.ok, List.replicate n 0) } })).sparseSend t q.id ps := by
  have hview : ∀ x, (s.setTile t x).viewUnit ((s.tile t).part.getD 64) a n = some ps := fun _ => hv
  have hpart : ∀ p, ((s.tile t).setHead 4 p).part = (s.tile t).part := fun _ => rfl
  obtain ⟨r, l, rfl⟩ := List.exists_cons_of_ne_nil hps
  unfold State.sparseAsk
  simp only [hf, Option.isSome_none, Bool.false_eq_true, if_false, State.sparsePull, State.tile_setTile, Tile.head_setHead, hg, hpart, hview,
    State.setTile_twice, Tile.setHead_setHead]

theorem sparse_asks {i : Instr} {a n : Nat} {ps : List (MemTarget × Nat × Nat)} (h : SparseReady s t q) (hop : dOp q.words = op)
    (hi : exec i s = .next (s.sparseStart t op)) (hf : q.fetch = none)
    (hg : gatherBlocks (sprsOf q.words).base (sprsOf q.words).cols (((s.tile t).sparseOrder q).flatMap
      (fun i => (List.range (sprsOf q.words).cols).map (fun j => (i, j)))) [] = ([], some (a, n)))
    (hv : s.viewUnit ((s.tile t).part.getD 64) a n = some ps) (hps : ps ≠ []) :
    Yields i s (fun u => u = (s.setTile t ((s.tile t).setHead 4 { q with
      fetch := some { order := (s.tile t).sparseOrder q, cur := (.ok, List.replicate n 0) } })).sparseSend t q.id ps) := by
  have hsends := sparseAsk_sends hf hg hv hps
  obtain ⟨p, hp, hw⟩ := sparseSend_waits (t := t) q.id ps _ { q with
    fetch := some { order := (s.tile t).sparseOrder q, cur := (.ok, List.replicate n 0) } }
    ((congrArg (Tile.head · 4) (State.tile_setTile ..)).trans (Tile.head_setHead ..)) (.inr hps)
  rw [← hsends] at hp
  exact ⟨_, hi, (sparseStart_waits h hop hp hw).trans hsends⟩

/-- A sparse instruction that has read its blocks runs to its end where its program does. -/
theorem sparse_runs {i : Instr} {k : Nat} {f : SparseFetch} {blks : List (Nat × List (Except Status SparseBlk))} {m : EngM Unit}
    (h : SparseReady s t q) (hop : dOp q.words = op) (hi : exec i s = .next (s.sparseStart t op))
    (hf : q.fetch = some f) (hw : q.waits = []) (hb : f.blocks (sprsOf q.words) = some blks) (hbad : (s.tile t).bad = [])
    (hm : sparseRunOf q blks = m) (hrun : EngM.Runs (s.tile t) m k (fun _ => True)) :
    ∃ y, m { x := s.tile t } = .ok () y ∧ y.units = k ∧ Yields i s (fun u =>
      u = s.setTile t (y.x.setHead 4 { q with fetch := none, ran := true, units := y.units, nsat := y.nsat })) := by
  obtain ⟨⟨⟩, y, hy, -, -, hk⟩ := hrun _ (.begin hbad)
  refine ⟨y, hy, hk.trans (Nat.zero_add k), _, hi, ?_⟩
  rw [sparseStart_runs h hop hf hw hb, hm]
  exact engFinish_ok hy

end

end Sys2Proof.Machine
end

section
namespace Sys2Proof.Machine

/-! ## Reductions (R132) -/

/-- Bytes of a number are those of its value in as many bits. -/
theorem leBytes_mod (k n : Nat) : leBytes k (n % 256 ^ k) = leBytes k n := by
  induction k generalizing n with
  | zero => rfl
  | succ k ih =>
    have hlow : BitVec.ofNat 8 (n % 256 ^ (k + 1)) = BitVec.ofNat 8 n := by
      refine BitVec.eq_of_toNat_eq ?_
      rw [BitVec.toNat_ofNat, BitVec.toNat_ofNat]
      exact Nat.mod_mod_of_dvd n ⟨256 ^ k, by rw [Nat.pow_succ, Nat.mul_comm]⟩
    have hhigh : n % 256 ^ (k + 1) / 256 = n / 256 % 256 ^ k := by
      rw [Nat.pow_succ, Nat.mul_comm, Nat.mod_mul_right_div_self]
    simp only [leBytes, hlow, hhigh, ih]

/-! ### Lanes -/

/-- Lanes that all hold an element. -/
def fullLanes (n : Nat) (l : Nat → Exact) : List (Option Exact) := (List.range n).map (fun i => some (l i))

theorem nth_fullLanes {n i : Nat} (h : i < n) (l : Nat → Exact) : nth (fullLanes n l) i none = some (l i) := nth_map_range _ h _

theorem combineLanes_full (f : Exact → Exact → Exact) (w : Nat) (l : Nat → Exact) :
    combineLanes f w (fullLanes (w + w) l) = fullLanes w (fun i => f (l i) (l (i + w))) := by
  refine List.map_congr_left fun i hi => ?_
  have hi := List.mem_range.1 hi
  rw [nth_fullLanes (by omega), nth_fullLanes (by omega)]

/-- The lanes combined pairwise, i with i + 32, then 16, 8, 4, 2 and 1. -/
def laneTree (f : Exact → Exact → Exact) (l : Nat → Exact) : Exact :=
  [32, 16, 8, 4, 2, 1].foldl (fun (l : Nat → Exact) n i => f (l i) (l (i + n))) l 0

theorem combineLanes_tree (f : Exact → Exact → Exact) (l : Nat → Exact) :
    nth ([32, 16, 8, 4, 2, 1].foldl (fun ls w => combineLanes f w ls) (fullLanes 64 l)) 0 none = some (laneTree f l) := by
  simp only [List.foldl_cons, List.foldl_nil]
  rw [combineLanes_full f 32, combineLanes_full f 16, combineLanes_full f 8, combineLanes_full f 4, combineLanes_full f 2, combineLanes_full f 1]
  exact nth_fullLanes Nat.one_pos _

/-- What an element is to its lane. -/
def laneStart (f : Exact → Exact → Exact) (sum : Bool) (v : Nat → Exact) (i : Nat) : Exact := if sum then f Exact.zero (v i) else v i

/-- Element i enters lane i. -/
def enterLane (f : Exact → Exact → Exact) (sum : Bool) (ls : List (Option Exact)) (e : Nat × Exact) : List (Option Exact) :=
  ls.set (e.1 % 64) (match nth ls (e.1 % 64) none with
    | some a => some (f a e.2)
    | none => some (if sum then f Exact.zero e.2 else e.2))

/-- Up to 64 elements each enter a lane of their own. -/
theorem enterLane_foldl (f : Exact → Exact → Exact) (sum : Bool) (v : Nat → Exact) (n : Nat) (h : n ≤ 64) :
    ((List.range n).map (fun i => (i, v i))).foldl (enterLane f sum) (List.replicate 64 none) =
      fullLanes n (laneStart f sum v) ++ List.replicate (64 - n) none := by
  induction n with
  | zero => rfl
  | succ n ih =>
    have hlen : (fullLanes n (laneStart f sum v)).length = n := (List.length_map _).trans List.length_range
    have hrest : 64 - n = (64 - (n + 1)) + 1 := by omega
    rw [List.range_succ, List.map_append, List.foldl_append, ih (by omega), hrest, List.replicate_succ]
    have hget : nth (fullLanes n (laneStart f sum v) ++ none :: List.replicate (64 - (n + 1)) none) n none = none := by
      simp [nth, hlen]
    simp only [List.map_cons, List.map_nil, List.foldl_cons, List.foldl_nil, enterLane, Nat.mod_eq_of_lt (show n < 64 by omega), hget]
    rw [List.set_append_right _ _ hlen.le, hlen, Nat.sub_self, List.set_cons_zero, fullLanes, fullLanes, List.range_succ, List.map_append,
      List.append_assoc]
    rfl

theorem vecReduceRun_eq (f : Exact → Exact → Exact) (sum : Bool) (xs : List Exact) : vecReduceRun f sum xs =
    (nth ([32, 16, 8, 4, 2, 1].foldl (fun ls w => combineLanes f w ls)
      (((List.range xs.length).zip xs).foldl (enterLane f sum) (List.replicate 64 none))) 0 none).getD Exact.zero := rfl

/-- A reduction of 64 elements. -/
theorem vecReduceRun_full (f : Exact → Exact → Exact) (sum : Bool) (v : Nat → Exact) :
    vecReduceRun f sum ((List.range 64).map v) = laneTree f (laneStart f sum v) := by
  have hzip : (List.range ((List.range 64).map v).length).zip ((List.range 64).map v) = (List.range 64).map (fun i => (i, v i)) := by
    rw [List.length_map, List.length_range]
    refine List.ext_getElem (by simp) fun i h1 h2 => ?_
    simp
  have hlanes := enterLane_foldl f sum v 64 le_rfl
  rw [Nat.sub_self, List.replicate_zero, List.append_nil] at hlanes
  rw [vecReduceRun_eq, hzip, hlanes, combineLanes_tree, Option.getD_some]

/-! ### A reduction into memory -/

/-- The instruction reduces the 64 elements of vector register xr into one FP32 element at address a of the scratchpad. -/
structure Reduces (s : State) (t xr a : Nat) (q : QEntry) : Prop where
  running : (s.tile t).state = .running
  fresh   : q.ran = false
  head    : (s.tile t).head 1 = some q
  conv    : dConv q.words = 0
  xVreg   : (agAt q.words 4).useVreg = true
  xImm    : (agAt q.words 4).useImm = false
  xReg    : (agAt q.words 4).vreg = xr
  xCounts : (agAt q.words 4).counts = [64, 1, 1, 1, 1, 1]
  zMem    : (agAt q.words 20).useVreg = false
  zBase   : (agAt q.words 20).base = a
  aligned : a % 4 = 0
  inside  : a + 4 ≤ 0x180000
  bad     : (s.tile t).bad = []
  wf      : (s.tile t).scratch.wf = true

section
variable {s : State} {t xr a op : Nat} {q : QEntry}

/-- One result that is written directly to memory. -/
theorem vecWriteDirect_one {ws : List Word} {e : EngSt} (hz : (agAt ws 20).useVreg = false) (hal : (agAt ws 20).base % 4 = 0)
    (hin : (agAt ws 20).base + 4 ≤ 0x180000) (hb : e.x.bad = []) (hc : e.cap = none) (r : Exact) :
    vecWriteDirect ws [r] e =
      .ok () { e with x := e.x.stored (agAt ws 20).base (leBytes 4 (encodeElem (vecOutFmt ws) r)), units := e.units + 1 } := by
  have hwrite := engWrite_ok (e := e) (a := ((agAt ws 20).base : Int)) (align := 4) (bs := leBytes 4 (encodeElem (vecOutFmt ws) r))
    (Int.natCast_nonneg _) (by rw [leBytes_length]; omega) hal hb hc
  have hcapped : ({ e with x := e.x.stored (agAt ws 20).base (leBytes 4 (encodeElem (vecOutFmt ws) r)) } : EngSt).capped = false := by
    rw [EngSt.capped, hc]
  rw [← Ag.addr_zero] at hwrite
  refine (EngM.bind_ok (a := ()) ((congrFun (if_neg (ne_true_of_eq_false hz)) e).trans ((EngM.bind_ok hwrite).trans ?_))).trans rfl
  simp only [engUnit, Ag.addr_zero, Int.toNat_natCast, hcapped, Bool.false_eq_true, if_false]

/-- A reduction takes X alone, in FP32. -/
theorem vecReduce_op (h : vecReduce op = true) : vecBinary op = false ∧ op ≠ 4 ∧ vecInt op = false := by
  simp only [vecReduce, Bool.and_eq_true, decide_eq_true_eq] at h
  simp only [vecBinary, vecInt, Bool.or_eq_false_iff, Bool.and_eq_false_iff, decide_eq_false_iff_not]
  omega

theorem vecProgram_reduces {f : Exact → Exact → Exact} {sum : Bool} (h : Reduces s t xr a q) (hred : vecReduce (dOp q.words) = true) :
    vecProgram (.reduce f sum) q { x := s.tile t } = .ok () { x := (s.tile t).stored a (leBytes 4 (encodeElem 0
      (rne32 (laneTree f (laneStart f sum (fun i => f32 ((s.tile t).vregs.lookD (64 * xr + i) 0))))))), units := 1 } := by
  obtain ⟨hbin, hfma, hint⟩ := vecReduce_op hred
  have hcvt : vecCvtInt q.words = false := by simp [vecCvtInt, h.xVreg]
  have hdirect : vecDirect q.words = true := by simp [vecDirect, hcvt, h.conv]
  have hout : vecOutFmt q.words = 0 := by simp [vecOutFmt, hcvt, hdirect, vecType, hint]
  have hrun : vecRun q.words = 64 := by
    have hfmt : (agAt q.words 4).vecFmt (dOp q.words) = 0 := by simp [Ag.vecFmt, h.xVreg, vecType, hint]
    simp only [vecRun, h.xCounts, hfmt]
    rfl
  have hxs : (s.tile t).vregElems (dOp q.words) xr = (List.range 64).map (fun i => f32 ((s.tile t).vregs.lookD (64 * xr + i) 0)) := by
    simp only [Tile.vregElems, vecElem, hint, Bool.false_eq_true, if_false]
  have hlen : ((s.tile t).vregElems (dOp q.words) xr).length = 64 := (List.length_map _).trans List.length_range
  have hres : vecResults (.reduce f sum) 64 64 ((s.tile t).vregElems (dOp q.words) xr) [] [] =
      [rne32 (laneTree f (laneStart f sum (fun i => f32 ((s.tile t).vregs.lookD (64 * xr + i) 0))))] := by
    have hpieces : pieces 64 1 ((s.tile t).vregElems (dOp q.words) xr) = [(s.tile t).vregElems (dOp q.words) xr] :=
      congrArg (· :: []) (List.take_of_length_le hlen.le)
    have hone : (if 64 = 0 then 0 else 64 / 64) = 1 := rfl
    rw [vecResults, hone, hpieces, hxs, List.map_singleton, vecReduceRun_full]
  refine (vecProgram_reads (vecRead_vreg h.xImm h.xVreg) (congrFun (if_neg (ne_true_of_eq_false hbin)) _) (congrFun (if_neg hfma) _)).trans ?_
  rw [if_pos hred, hrun, h.xReg, hlen, hres, vecWrites, if_pos hdirect]
  refine (vecWriteDirect_one h.zMem (by rw [h.zBase]; exact h.aligned) (by rw [h.zBase]; exact h.inside) h.bad rfl _).trans ?_
  rw [h.zBase, hout]

theorem vecReduce_yields {i : Instr} {f : Exact → Exact → Exact} {sum : Bool} {l : Nat → Exact} (h : Reduces s t xr a q) (hop : dOp q.words = op)
    (hi : exec i s = vecStep t op (.reduce f sum) s) (hred : vecReduce op = true)
    (hl : laneStart f sum (fun i => f32 ((s.tile t).vregs.lookD (64 * xr + i) 0)) = l) : Yields i s (fun u =>
      (∀ b, u.scratchByte t b = if a ≤ b ∧ b < a + 4 then (BitVec.ofNat 32 (encodeElem 0 (rne32 (laneTree f l)))).extractLsb' (8 * (b - a)) 8
        else s.scratchByte t b) ∧
      OnlyTile s u t ∧ (u.tile t).vregs = (s.tile t).vregs) := by
  have hrun := hi.trans (congrArg Host.Outcome.next (engineRun_head h.running h.head h.fresh hop))
  have hprog := vecProgram_reduces (f := f) (sum := sum) h (hop ▸ hred)
  rw [hl] at hprog
  refine ⟨_, hrun.trans (congrArg _ (engFinish_ok hprog)), fun b => ?_, onlyTile_setTile .., ?_⟩
  · have hbytes : ∀ n, leBytes 4 n = leBytes 4 (BitVec.ofNat 32 n).toNat := fun n => by
      rw [BitVec.toNat_ofNat]
      exact (leBytes_mod 4 n).symm
    rw [State.scratchByte, State.tile_setTile, Tile.stored_shape, hbytes]
    exact Memory.read_writeN_leBytes h.wf ..
  · rw [State.tile_setTile, Tile.setHead_vregs, Tile.stored_shape]

end

end Sys2Proof.Machine
end

section
namespace Sys2Proof.Machine

/-! ## What the engines run (R123 to R132, R277 to R286) -/

section
variable {s : State} {t : Nat} {q : QEntry}

/-- Every vector operation runs to its end. -/
theorem vecOps_done (h : VecReady s t q) :
    let w := q.words
    let done := fun (i : Instr) => EngineDone i s t 1 q (agAt w 20).units
    (dOp w = 0x01 → done (.vecAdd t)) ∧ (dOp w = 0x02 → done (.vecSub t)) ∧ (dOp w = 0x03 → done (.vecMul t)) ∧
    (dOp w = 0x04 → done (.vecFma t)) ∧ (dOp w = 0x05 → done (.vecMin t)) ∧ (dOp w = 0x06 → done (.vecMax t)) ∧
    (dOp w = 0x07 → done (.vecAbs t)) ∧ (dOp w = 0x10 → done (.vecExp2 t)) ∧ (dOp w = 0x11 → done (.vecLog2 t)) ∧
    (dOp w = 0x12 → done (.vecRecip t)) ∧ (dOp w = 0x13 → done (.vecRsqrt t)) ∧ (dOp w = 0x14 → done (.vecSigmoid t)) ∧
    (dOp w = 0x15 → done (.vecTanh t)) ∧ (dOp w = 0x20 → done (.vecRsum t)) ∧ (dOp w = 0x21 → done (.vecRmax t)) ∧
    (dOp w = 0x22 → done (.vecRmin t)) ∧ (dOp w = 0x30 → done (.vecCvt t)) ∧ (dOp w = 0x40 → done (.vecIadd t)) ∧
    (dOp w = 0x41 → done (.vecIsub t)) ∧ (dOp w = 0x42 → done (.vecImul t)) ∧ (dOp w = 0x43 → done (.vecImin t)) ∧
    (dOp w = 0x44 → done (.vecImax t)) ∧ (dOp w = 0x45 → done (.vecIand t)) ∧ (dOp w = 0x46 → done (.vecIor t)) ∧
    (dOp w = 0x47 → done (.vecIxor t)) := by
  refine ⟨?_, ?_, ?_, ?_, ?_, ?_, ?_, ?_, ?_, ?_, ?_, ?_, ?_, ?_, ?_, ?_, fun hop => vecCvt_done h hop, ?_, ?_, ?_, ?_, ?_, ?_, ?_, ?_⟩
  all_goals exact fun hop => vecStep_done h rfl rfl hop

/-- A MATMUL that passes the checks of issue runs to its end. -/
theorem matmul_done (hrun : (s.tile t).state = .running) (hran : q.ran = false) (hst : q.status = .ok)
    (hq : (s.tile t).head 0 = some q) (hfirst : (s.tile t).sparseFirst q = false) {k : Nat}
    (hm : ∃ y, mmRun q.words (mmEntry (s.tile t) q).accs { x := { s.tile t with srWrote := false } } = .ok () y ∧ y.At (s.tile t) ∧ y.units = k) :
    EngineDone (.matmul t) s t 0 q k := by
  obtain ⟨y, hy, hat, rfl⟩ := hm
  exact engineDone_of (matmul_runs hrun hran hst hq hfirst hy) rfl rfl hst hy hat

end

/-- Settles O16: each engine starts the head of its queue; its program meets no stop within the scratchpad, and writes each unit once. -/
theorem engineRuns : Obligations.EngineRuns := by
  unfold Obligations.EngineRuns
  refine ⟨fun s t q hrun hran hst => ⟨fun hq hfirst hop y hy => ?matmul, fun hq hbusy hfirst => ⟨fun a n ps hf hw hg hv hps => ?asks, ?sparse⟩⟩,
    fun s t q hrun hran hst hbad => ⟨?vector, ?tensor⟩, ?reduce⟩
  case matmul =>
    exact ⟨_, matmul_runs hrun hran hst hq hfirst hy, engFinish_ok hy⟩
  case asks =>
    have hready : SparseReady s t q := ⟨hrun, hran, hq, hbusy, hfirst⟩
    exact ⟨fun hop => sparse_asks hready hop rfl hf hg hv hps, fun hop => sparse_asks hready hop rfl hf hg hv hps⟩
  case sparse =>
    intro f blks hf hw hb hrows hbad hshape hformat hpred hx hok
    have hready : SparseReady s t q := ⟨hrun, hran, hq, hbusy, hfirst⟩
    have hread : BlocksRead (sprsOf q.words) blks := ⟨hrows ▸ Tile.sparseOrder_perm .., hok⟩
    refine ⟨fun hop hfmt hsplit hz => ?_, fun hop hfmt hz => ?_⟩
    · have hm : sparseRunOf q blks = spmmRun q.words q.sctrl blks := if_pos hop
      exact sparse_runs hready hop rfl hf hw hb hbad hm (.spmmRun hread hshape hop hpred hx hz hsplit hfmt)
    · have hm : sparseRunOf q blks = predictRun q.words q.sctrl q.theta blks := if_neg (by rw [hop]; decide)
      exact sparse_runs hready hop rfl hf hw hb hbad hm (.predictRun hread hshape hop hx hz hfmt)
  case vector =>
    exact fun hq hs hf hr hz => vecOps_done ⟨hrun, hran, hst, hbad, hq, hs, hf, hr, hz⟩
  case tensor =>
    intro hq hfirst hs hf ha hb
    have hready := matmulOf_ready hs ha hb
    have hbegin : EngSt.At (s.tile t) { x := { s.tile t with srWrote := false } } := ⟨rfl, rfl, rfl, rfl, hbad, rfl⟩
    refine ⟨fun hk => matmul_done hrun hran hst hq hfirst (mmRun_keep hbegin hready hk), fun hk hz hcol hbias => ?_⟩
    obtain ⟨⟨⟩, y, hy, hat, -, hu⟩ := EngM.Runs.mmRun (inits := (mmEntry (s.tile t) q).accs) hready hs hf hk hz hcol hbias _ hbegin
    exact matmul_done hrun hran hst hq hfirst ⟨y, hy, hat, hu.trans (Nat.zero_add _)⟩
  case reduce =>
    intro s t xr a q hrun hran hq hconv hxv hxi hxr hxc hzv hzu hzb hal hin hbad hwf
    have h : Reduces s t xr a q := ⟨hrun, hran, hq, hconv, hxv, hxi, hxr, hxc, hzv, hzb, hal, hin, hbad, hwf⟩
    intro v tree sum gives
    have hsum (hop : dOp q.words = 0x20) := vecReduce_yields (i := .vecRsum t) (l := fun i => sum Exact.zero (v i)) h hop rfl rfl rfl
    have hmax (hop : dOp q.words = 0x21) := vecReduce_yields (i := .vecRmax t) (l := v) h hop rfl rfl rfl
    have hmin (hop : dOp q.words = 0x22) := vecReduce_yields (i := .vecRmin t) (l := v) h hop rfl rfl rfl
    exact ⟨hsum, hmax, hmin⟩

end Sys2Proof.Machine
end

section
namespace Sys2Proof.Machine

/-! ## The Datum block beside notices and records (R176, R472, R506)

Notices, and what the Itinerary appends, leave the Datum block as it is: the drift counts and masks change where a drift is counted, and
nowhere else. -/

theorem sendMsix_dtm (s : State) (f v : Nat) : (s.sendMsix f v).dtm = s.dtm := by
  dsimp only [State.sendMsix]
  split
  · split <;> rfl
  · rfl

theorem postEvent_dtm (s : State) (f : Nat) (ws : EventWords) : (s.postEvent f ws).dtm = s.dtm := sendMsix_dtm ..

theorem postNotice_dtm (s : State) (f : Nat) (ws : EventWords) : (s.postNotice f ws).dtm = s.dtm := by
  dsimp only [State.postNotice]
  split
  · exact postEvent_dtm ..
  · rfl

theorem deliver_dtm (s : State) (ws : EventWords) : (s.deliver ws).dtm = s.dtm := by
  have hpart : ∀ t : State, (if bit (nth ws 0 0) 38 then
      (if (t.fn (bits (nth ws 0 0) 37 32 + 1)).rings then t.postNotice (bits (nth ws 0 0) 37 32 + 1) ws else t) else t).dtm = t.dtm := by
    intro t
    split
    · split
      · exact postNotice_dtm ..
      · rfl
    · rfl
  unfold State.deliver
  extract_lets _ s1 _ s2
  have h2 : s2.dtm = s.dtm := (hpart s1).trans (postNotice_dtm ..)
  clear_value s2
  split <;> exact h2

theorem sendUp_dtm (s : State) (o : Origin) (ws : EventWords) : (s.sendUp o ws).dtm = s.dtm := by
  unfold State.sendUp
  extract_lets hub die
  have hhub : ∀ t, (hub t).dtm = t.dtm := by
    intro t
    dsimp only [hub]
    split
    · rfl
    · exact deliver_dtm ..
  have hdie : ∀ t d, (die t d).dtm = t.dtm := by
    intro t d
    dsimp only [die]
    split
    · rfl
    · exact hhub t
  split
  · exact hhub s
  · exact hdie s _
  · dsimp only
    split
    · rfl
    · exact hdie s _

theorem notify_dtm (s : State) (n : Notice) (st : Status) (part : Option Nat) (subject detail : Nat) (o : Origin) (addr job : Nat) :
    (s.notify n st part subject detail o addr job).dtm = s.dtm := by
  dsimp only [State.notify]
  rw [sendUp_dtm]
  split <;> split <;> simp only [State.tally_dtm, State.faultLog_dtm]

theorem itinCont_dtm (part : Option Nat) (src : Nat) (st : Status) (s : State) (l : List (List Byte)) :
    (State.itinCont part src st s l).dtm = s.dtm := by
  induction l generalizing s with
  | nil => rfl
  | cons b l ih => exact ih _

theorem itinRecord_dtm (s : State) (code : Nat) (part : Option Nat) (src : Nat) (st : Status) (b : List Byte) (l : List (List Byte)) :
    (s.itinRecord code part src st b l).dtm = s.dtm := by
  unfold State.itinRecord
  split
  · rfl
  · exact itinCont_dtm ..

theorem driftRecord_dtm (s : State) : s.driftRecord.dtm = s.dtm := by
  unfold State.driftRecord
  split
  · rfl
  · exact itinRecord_dtm ..

theorem itinGap_dtm (s : State) : s.itinGap.dtm = s.dtm := by
  dsimp only [State.itinGap]
  split
  · exact (notify_dtm ..).trans (itinRecord_dtm ..)
  · rfl

theorem itinHigh_dtm (s : State) : s.itinHigh.dtm = s.dtm := by
  unfold State.itinHigh
  split
  · exact notify_dtm ..
  · rfl

theorem checkpoint_dtm (s : State) : s.checkpoint.dtm = s.dtm :=
  (itinHigh_dtm _).trans ((itinRecord_dtm ..).trans ((driftRecord_dtm _).trans (itinGap_dtm s)))

theorem itinAfter_dtm (s : State) : s.itinAfter.dtm = s.dtm := by
  dsimp only [State.itinAfter]
  split
  · exact (checkpoint_dtm _).trans (itinHigh_dtm s)
  · exact itinHigh_dtm s

theorem itinAppend_dtm (s : State) (code : Nat) (part : Option Nat) (src : Nat) (st : Status) (b : List Byte) (l : List (List Byte)) :
    (s.itinAppend code part src st b l).dtm = s.dtm := by
  unfold State.itinAppend
  split
  · exact (itinAfter_dtm _).trans ((itinRecord_dtm ..).trans (itinGap_dtm s))
  · rfl

theorem driftEvent_dtm (s : State) : s.driftEvent.dtm = s.dtm := by
  unfold State.driftEvent
  split
  · rfl
  · exact itinAppend_dtm ..

theorem driftEvent_noted (s : State) : Noted s s.driftEvent := by
  unfold State.driftEvent
  split
  · exact Noted.refl s
  · exact itinEvent_noted ..

end Sys2Proof.Machine
end

section
namespace Sys2Proof.Machine

/-! ## The Datum commands (R157, R170, R171, R174, R176) -/

theorem State.Follows.dtm {u v : State} (h : u.Follows v) : u.dtm = v.dtm := by rw [h.eq]

theorem KeepsWaiting.withDtm {o s : State} {a} (h : KeepsWaiting o s) : KeepsWaiting o { s with dtm := a } := h

section
variable {s : State} {k : Kci} {part : Nat}

/-- The record of the command that now runs is the first that stands for it. -/
theorem entered_find (h : s.Open k) (opcode : Nat) :
    (s.entered k opcode).cmp.inflight.find? (fun r => r.isFor k opcode) = some (entryOf k opcode s) := by
  have hnone : s.cmp.inflight.find? (fun r => r.isFor k opcode) = none := by
    exact List.find?_eq_none.2 fun r hr => List.any_eq_false.1 (no_record opcode h) r hr
  simp [State.entered, hnone, entryOf_isFor]

/-- A command that runs at once was accepted in this epoch, and not later than now (R469, R174). -/
theorem entered_pastEpoch (h : s.Open k) (opcode : Nat) : (s.entered k opcode).pastEpoch k opcode = false := by
  simp [State.pastEpoch, entered_find h, entryOf]

theorem entered_acceptedAt_le (h : s.Open k) (opcode : Nat) : (s.entered k opcode).acceptedAt k opcode ≤ s.dtm.tbZero + s.timebase := by
  simp [State.acceptedAt, entered_find h, entryOf]

/-- DATUM_SET: the partition's mode, and a cleared drift mask where the mode is newly set (R157, R176). -/
theorem datumSet_answers (h : s.Open k) (hb : s.stk.bringup = .none) (on : Bool) (hx : s.partExists part = true) (hp : s.partBusy part = false) :
    Yields (.datumSet k part on) s (fun u => u.dtm = { s.dtm with
        parts := s.dtm.parts.put part { s.partMode part with datum := on },
        masks := if on && !(s.partMode part).datum then s.dtm.masks.del part else s.dtm.masks } ∧
      u.grid = s.grid ∧ u.Answered k 0x0210 .ok []) := by
  have hbring : (s.entered k 0x0210).bringupOn = false := by simp [State.bringupOn, hb]
  have hbusy : (s.entered k 0x0210).partBusy part = false := hp
  exact h.leaves rfl (KRes.check_pass _ _ (by simp [Kci.denied_privileged h.priv, hx, hbring, hbusy]))
    (.noted (.withDtm (.refl _)) (driftRecord_noted _)) fun u hu ha => ⟨hu.dtm.trans (driftRecord_dtm _), hu.grid.trans (driftRecord_noted _).grid, ha⟩

/-- DATUM_SYNC_CAL as STANDALONE is calibrated at once (R170). -/
theorem syncCal_standalone (hc : s.dtm.calib = none) : s.syncCal k .standalone = { st := s.setDtm { s.dtm with
    role := some .standalone, state := .calibrated, phase := 0, spread := 0, pulses := 0, calOk := false, calib := none } } := by
  simp only [State.syncCal, hc]

/-- As another role it waits for the calibration pulses; a leader has 256 to emit (R170). -/
theorem syncCal_listens (hc : s.dtm.calib = none) {role : SyncRole} (hr : role ≠ .standalone) : s.syncCal k role =
    { st := s.setDtm { s.dtm with
        role := some role, calOk := false, pulses := 0,
        calib := some ⟨role, s.acceptedAt k 0x0211, if role = .leader then 256 else 0, s.edgeFrom s.now, []⟩ }, keys := [0] } := by
  cases role with
  | standalone => exact absurd rfl hr
  | leader | follower => simp only [State.syncCal, hc]

theorem datumSyncCal_standalone (h : s.Open k) (hc : s.dtm.calib = none) : Yields (.datumSyncCal k .standalone) s (fun u =>
    u.dtm = { s.dtm with role := some .standalone, state := .calibrated, phase := 0, spread := 0, pulses := 0, calOk := false } ∧
      u.Answered k 0x0211 .ok []) := by
  refine h.leaves rfl ((KRes.check_pass _ _ (by simp [Kci.denied_privileged h.priv])).trans (syncCal_standalone hc)) (.withDtm (.refl _))
    fun u hu ha => ⟨hu.dtm.trans ?_, ha⟩
  simp [State.setDtm, hc]

theorem datumSyncCal_runs (h : s.Open k) (hc : s.dtm.calib = none) {role : SyncRole} (hr : role ≠ .standalone) :
    Yields (.datumSyncCal k role) s (fun u => u.dtm.role = some role ∧ u.dtm.calOk = false ∧ u.dtm.pulses = 0 ∧
      (∃ c, u.dtm.calib = some c ∧ c.role = role ∧ c.phases = [] ∧ c.toEmit = (if role = .leader then 256 else 0)) ∧
      u.Running k 0x0211 [0]) := by
  have hb := syncCal_listens (s := s.entered k 0x0211) (k := k) hc hr
  refine h.runs rfl ((KRes.check_pass _ _ (by simp [Kci.denied_privileged h.priv])).trans hb) (.withDtm (.refl _)) (List.cons_ne_nil _ _) rfl
    fun u hu ha => ?_
  rw [hu.dtm]
  exact ⟨rfl, rfl, rfl, ⟨_, rfl, rfl, rfl, rfl⟩, ha⟩

/-- A start barrier is armed where none was; STATE reads SYNC_LOST until it sets RUNNING (R171, R173). -/
theorem datumStart_arms (hs : s.dtm.start = none) : (s.datumStart k).keys = [0] ∧ (s.datumStart k).status = .ok ∧
    ∃ a, (s.datumStart k).st = s.setDtm { s.dtm with
      start := some a, state := if s.dtm.state = .syncLost then .syncLost else .armed } := by
  simp only [State.datumStart, hs, Option.isSome_none, Bool.false_eq_true, if_false, true_and]
  exact ⟨_, rfl⟩

theorem datumStart_pass (hk : k.src.privileged = true) (hb : s.stk.bringup = .none)
    (hr : s.dtm.role = some .standalone ∨ s.dtm.role ≠ none ∧ s.dtm.calOk = true) (hbusy : s.datumBusy = false) :
    ∀ c ∈ [k.denied, (s.dtm.role.isNone || (s.dtm.role ≠ some .standalone && !s.dtm.calOk), .syncFail),
      (s.bringupOn || s.datumBusy, .modeConflict)], c.1 = false := by
  have hset : s.dtm.role.isSome = true := Option.isSome_iff_ne_none.2 (hr.elim (fun h => h ▸ Option.some_ne_none _) And.left)
  have hcal : ¬s.dtm.role = some .standalone → s.dtm.calOk = true := fun hne => (hr.resolve_left hne).2
  simpa [Kci.denied_privileged hk, State.bringupOn, hb, hset, hbusy] using hcal

theorem datumStart_runs (h : s.Open k) (hb : s.stk.bringup = .none)
    (hr : s.dtm.role = some .standalone ∨ s.dtm.role ≠ none ∧ s.dtm.calOk = true) (hbusy : s.datumBusy = false) (hs : s.dtm.start = none) :
    Yields (.datumStart k) s (fun u => u.dtm.state = (if s.dtm.state = .syncLost then .syncLost else .armed) ∧ u.dtm.valid = s.dtm.valid ∧
      u.dtm.epoch = s.dtm.epoch ∧ u.dtm.start ≠ none ∧ u.Running k 0x0212 [0]) := by
  obtain ⟨hkeys, hok, a, hst⟩ := datumStart_arms (s := s.entered k 0x0212) (k := k) hs
  have hw : KeepsWaiting (s.entered k 0x0212) ((s.entered k 0x0212).datumStart k).st := hst ▸ .withDtm (.refl _)
  refine h.runs rfl (KRes.check_pass _ _ (datumStart_pass (s := s.entered k 0x0212) h.priv hb hr hbusy)) hw (hkeys ▸ List.cons_ne_nil _ _) hok
    fun u hu ha => ?_
  rw [hu.dtm, hst]
  exact ⟨rfl, rfl, rfl, Option.some_ne_none a, hkeys ▸ ha⟩

/-- A start at least 64 cc ahead waits for its cycle (R174). -/
theorem datumStartAt_runs (h : s.Open k) {v : Nat} (hx : s.partExists part = true) (hv : s.dtm.valid = true) (ht : s.timebase + 64 ≤ v) :
    Yields (.datumStartAt k part v) s (fun u => u.dtm = { s.dtm with startAt := s.dtm.startAt ++ [(part, v)] } ∧ u.grid = s.grid ∧
      u.Running k 0x0213 [startKey part v]) := by
  have hin : ¬ s.dtm.tbZero + v < (s.entered k 0x0213).acceptedAt k 0x0213 + 64 := by
    have := entered_acceptedAt_le h 0x0213
    omega
  exact h.runs rfl (KRes.check_pass _ _ (by simp [Kci.notOwn_privileged part h.priv, hx, hv, entered_pastEpoch h, hin])) (.withDtm (.refl _))
    (List.cons_ne_nil _ _) rfl fun u hu ha => ⟨hu.dtm, hu.grid, ha⟩

/-- DRIFT_SNAPSHOT returns the counts and the masks, and changes neither (R176). -/
theorem driftSnapshot_answers (h : s.Open k) : Yields (.driftSnapshot k) s (fun u => u.dtm = s.dtm ∧ u.grid = s.grid ∧
    u.Answered k 0x0214 .ok (s.dtm.drift.map wd ++ leWords 16 s.maskBytes)) := by
  have hroom : (s.entered k 0x0214).itinFull = false := h.room
  refine h.answers (r := { st := (s.entered k 0x0214).driftEvent, result := s.dtm.drift.map wd ++ leWords 16 s.maskBytes }) rfl ?_
    (.noted (.refl _) (driftEvent_noted _)) rfl fun u hu ha => ⟨hu.dtm.trans (driftEvent_dtm _), hu.grid.trans (driftEvent_noted _).grid, ha⟩
  refine (KRes.check_pass _ _ (by simp [hroom])).trans ?_
  cases hk : k.src with
  | vf v => exact absurd h.priv (by simp [hk, Source.privileged])
  | pf | mgmt => rfl

end

/-- Settles O31, command by command. -/
theorem datumCommands : Obligations.DatumCommands := by
  unfold Obligations.DatumCommands
  intro s k h hb
  refine ⟨fun part on hx hp => (datumSet_answers h hb on hx hp).mono fun u ⟨hd, hg, ha⟩ => ?set, datumSyncCal_standalone h,
    fun role hr hc => datumSyncCal_runs h hc hr, datumStart_runs h hb, fun part v => datumStartAt_runs h, driftSnapshot_answers h⟩
  case set =>
    rw [hd]
    exact ⟨SMap.lookD_put_same .., fun q hq => SMap.look_put_other _ hq _, rfl, rfl, hg, ha⟩

end Sys2Proof.Machine
end

section
namespace Sys2Proof.Machine

/-! ## The events of Datum mode (R170, R171, R173, R174) -/

section
variable {s : State} {cc : Nat}

/-- An event that falls no earlier than now sets the clock to its cycle. -/
theorem at_now (hcc : s.now ≤ cc) : (s.at cc).now = cc := max_eq_right hcc

theorem max_now (hcc : s.now ≤ cc) : s.now.max cc = cc := max_eq_right hcc

/-! ### Calibration (R170) -/

section
variable {c : Calib}

theorem calPulseEmit_emits (hcc : s.now ≤ cc) (hc : s.dtm.calib = some c) (hr : c.role = .leader) (hn : 0 < c.toEmit) (ha : c.nextAt ≤ cc)
    (he : (s.at cc).timebase % 12 = 0) : exec (.calPulseEmit cc) s =
      .next (((s.at cc).setDtm { s.dtm with calib := some { c with toEmit := c.toEmit - 1, nextAt := cc + 4104 } }).emit (.sync cc)) := by
  have hgo : exec (.calPulseEmit cc) s = execCalPulseEmit cc s := rfl
  simp [hgo, execCalPulseEmit, hc, max_now hcc, hr, hn, ha, State.onEdge, he]

/-- A calibration with fewer than 256 pulses fails (R170). -/
theorem calEnd_short (hl : c.phases.length < 256) : ∃ spread, s.calEnd c =
    (s.setDtm { s.dtm with calib := none, pulses := c.phases.length, spread := spread, calOk := false }).progress 0x0211 0 .syncFail
      (c.phases.map wd) := by
  simp only [State.calEnd, Nat.ne_of_lt hl, decide_false, Bool.false_and, Bool.false_eq_true, if_false]
  exact ⟨_, rfl⟩

theorem syncCalTimeout_ends (hc : s.dtm.calib = some c) (hd : c.since + 1875000 ≤ cc) :
    exec (.syncCalTimeout cc) s = .next ((s.at cc).calEnd c) := by
  have hgo : exec (.syncCalTimeout cc) s = execSyncCalTimeout cc s := rfl
  simp [hgo, execSyncCalTimeout, hc, hd]

/-- A module that listens takes the pulse's phase (R170). -/
theorem syncPulse_calibrates (hr : s.dtm.role = some .leader ∨ s.dtm.role = some .follower) (hc : s.dtm.calib = some c)
    (hl : c.phases.length < 255) : s.syncPulse = s.setDtm { s.dtm with
      calib := some { c with phases := c.phases ++ [s.timebase % 12] }, pulses := c.phases.length + 1 } := by
  have hne : ¬c.phases.length + 1 = 256 := by omega
  rcases hr with hr | hr <;> simp [State.syncPulse, hr, hc, hne]

end

/-! ### The start barrier (R171, R174) -/

section
variable {a : StartArm}

theorem startPulseEmit_emits (hcc : s.now ≤ cc) (ha : s.dtm.start = some a) {e : Nat} (hm : a.emitAt = some e) (hr : s.dtm.role = some .leader)
    (hd : e ≤ cc) (he : (s.at cc).timebase % 12 = 0) : exec (.startPulseEmit cc) s =
      .next (((s.at cc).setDtm { s.dtm with start := some { a with emitAt := none } }).emit (.sync cc)) := by
  have hgo : exec (.startPulseEmit cc) s = execStartPulseEmit cc s := rfl
  simp [hgo, execStartPulseEmit, ha, hm, max_now hcc, hr, hd, State.onEdge, he]

/-- The first pulse after the barrier is armed, and after the leader's own has left, is the start pulse (R171). -/
theorem syncPulse_starts (hr : s.dtm.role = some .leader ∨ s.dtm.role = some .follower) (hc : s.dtm.calib = none) (ha : s.dtm.start = some a)
    (hm : a.emitAt = none) (hz : a.zeroAt = none) : s.syncPulse = s.setDtm { s.dtm with
      start := some { a with zeroAt := some (s.dtm.tbZero + (edgeOf s.timebase s.dtm.phase + 1200).toNat) } } := by
  rcases hr with hr | hr <;> simp [State.syncPulse, hr, hc, ha, hm, hz]

theorem datumStartTimeout_ends (ha : s.dtm.start = some a) (hz : a.zeroAt = none) (hd : a.since + 3750000 ≤ cc) :
    exec (.datumStartTimeout cc) s =
      .next (((s.at cc).setDtm { s.dtm with start := none, state := a.prior }).progress 0x0212 0 .timeout) := by
  have hgo : exec (.datumStartTimeout cc) s = execDatumStartTimeout cc s := rfl
  simp [hgo, execDatumStartTimeout, ha, hz, hd]

/-- Without a Datum partition no refresh is made up for (R164). -/
theorem refreshCatchUp_none (h : s.anyDatum = false) : s.refreshCatchUp = s := if_pos (by simp [h])

/-- The Datum block that the barrier's cycle leaves (R171). -/
def Datum.zeroed (d : Datum) (z : Nat) : Datum :=
  { d with tbZero := z, valid := true, epoch := (d.epoch + 1) % 65536, state := .running, start := none, lastSeen := z, missed := false, startAt := [] }

/-- Items that come off commands under way leave the Datum block as it is. -/
theorem foldl_progress_dtm {α : Type} (opcode : Nat) (key : α → Nat) (st : Status) (l : List α) (s : State) :
    (l.foldl (fun s e => s.progress opcode (key e) st) s).dtm = s.dtm :=
  List.foldlRecOn (motive := fun u : State => u.dtm = s.dtm) l _ rfl fun _ h _ _ => h

theorem timebaseZero_zeroes (ha : s.dtm.start = some a) {z : Nat} (hz : a.zeroAt = some z) (hd : z ≤ s.now) (hp : s.anyDatum = false) :
    s.timebaseZero.dtm = s.dtm.zeroed z ∧ s.timebaseZero.now = s.now := by
  simp only [State.timebaseZero, ha, hz, hd, if_true, refreshCatchUp_none hp]
  constructor
  · exact (driftRecord_dtm _).trans (foldl_progress_dtm ..)
  · exact (driftRecord_noted _).now.trans (Beside.foldl (fun s _ => progress_beside ..) ..).now

end

/-! ### Check pulses (R173) -/

theorem checkPulseEmit_emits (hcc : s.now ≤ cc) (hr : s.dtm.role = some .leader) (hv : s.dtm.valid = true)
    (he : (s.at cc).timebase % 1048572 = 0) (hl : s.dtm.lastEmit ≠ cc) :
    exec (.checkPulseEmit cc) s = .next (((s.at cc).setDtm { s.dtm with lastEmit := cc }).emit (.sync cc)) := by
  have hgo : exec (.checkPulseEmit cc) s = execCheckPulseEmit cc s := rfl
  rw [hgo]
  dsimp only [execCheckPulseEmit]
  rw [at_now hcc, if_pos (by simp [hr, hv, he, hl])]
  rfl

/-- A loss is counted and noticed, which leaves the state, the count's zero and the grid (R173, R175). -/
theorem checkPulseMissing_loses (hcc : s.now ≤ cc) (hr : s.dtm.role = some .leader ∨ s.dtm.role = some .follower) (hv : s.dtm.valid = true)
    (hm : s.dtm.missed = false) (hd : s.dtm.lastSeen + 2097152 ≤ cc) : Yields (.checkPulseMissing cc) s (fun u =>
      u.dtm.state = .syncLost ∧ u.dtm.missed = true ∧ u.dtm.tbZero = s.dtm.tbZero ∧ u.grid = s.grid) := by
  have hgo : exec (.checkPulseMissing cc) s = execCheckPulseMissing cc s := rfl
  rw [Yields, hgo]
  dsimp only [execCheckPulseMissing]
  rw [at_now hcc, if_pos (by rcases hr with hr | hr <;> simp [hr, hv, hm, hd])]
  refine ⟨_, rfl, ?_⟩
  rw [notify_dtm, (notify_noted ..).grid, (drift_noted ..).dtm, (drift_noted ..).grid]
  exact ⟨rfl, rfl, rfl, rfl⟩

/-! ### The start of a partition at its cycle (R174) -/

/-- What is listed in a map whose keys rise is looked up. -/
theorem SMap.look_of_mem {α : Type} {m : SMap α} (h : SMap.rising none m = true) {e : Nat × α} (he : e ∈ m) : m.look e.1 = some e.2 := by
  induction m with
  | nil => cases he
  | cons d m ih =>
    obtain ⟨k, x⟩ := d
    rcases List.mem_cons.1 he with rfl | he
    · exact if_pos rfl
    · have hm : SMap.rising (some k) m = true := h
      have hlook := ih (SMap.rising_none_of_some hm) he
      have hne : k ≠ e.1 := fun hk => by
        rw [← hk, SMap.look_below hm (Nat.le_refl k)] at hlook
        cases hlook
      exact (if_neg hne).trans hlook

/-- The tiles of a partition that can start. -/
def State.starters (s : State) (p : Nat) : List Nat := (s.grid.tiles.filter (fun e => e.2.part = some p && e.2.startable)).map (·.1)

theorem mem_starters {p t : Nat} (hp : (s.tile t).part = some p) (ht : (s.tile t).startable = true) : t ∈ s.starters p := by
  rw [State.tile, SMap.lookD] at hp ht
  cases hx : s.grid.tiles.look t with
  | none =>
    rw [hx] at hp
    cases hp
  | some x =>
    rw [hx] at hp ht
    exact List.mem_map.2 ⟨(t, x), List.mem_filter.2 ⟨SMap.mem_of_look hx, by simpa using ⟨hp, ht⟩⟩, rfl⟩

theorem part_of_mem_starters (hm : SMap.rising none s.grid.tiles = true) {p t : Nat} (ht : t ∈ s.starters p) : (s.tile t).part = some p := by
  obtain ⟨e, he, rfl⟩ := List.mem_map.1 ht
  obtain ⟨he, hp⟩ := List.mem_filter.1 he
  simp only [Bool.and_eq_true, decide_eq_true_eq] at hp
  rw [State.tile, SMap.lookD, SMap.look_of_mem hm he]
  exact hp.1

theorem tileStart_dtm (s : State) (t : Nat) : (s.tileStart t).dtm = s.dtm := by
  have hstir : ((s.tile t).part.toList.foldl State.stir s).dtm = s.dtm :=
    List.foldlRecOn (motive := fun u : State => u.dtm = s.dtm) _ _ rfl fun _ h _ _ => h
  refine Eq.trans ?_ hstir
  dsimp only [State.tileStart, State.setTile, State.powerOver]
  split <;> rfl

theorem startPart_dtm (s : State) (p : Nat) : (s.startPart p).dtm = s.dtm :=
  List.foldlRecOn (motive := fun u : State => u.dtm = s.dtm) _ _ rfl fun _ h t _ => (tileStart_dtm _ t).trans h

/-- The start of a partition: each of its tiles that can start has started, and no other has changed. -/
theorem startPart_tile (s : State) (p v : Nat) : (s.startPart p).tile v = Tile.started^[(s.starters p).count v] (s.tile v) :=
  foldl_acts (s := s) (I := fun _ => True) trivial (fun u _ t _ => ⟨tileStart_acts u t, trivial⟩) v

theorem startAtFire_starts {p v : Nat} (ha : s.dtm.startAt = [(p, v)]) (hv : v ≤ (s.at cc).timebase) : exec (.datumStartAtFire cc) s =
    .next ((((s.at cc).setDtm { s.dtm with startAt := [] }).startPart p).progress 0x0213 (startKey p v)) := by
  have hgo : exec (.datumStartAtFire cc) s = execDatumStartAtFire cc s := rfl
  simp [hgo, execDatumStartAtFire, ha, hv]

end

/-- Settles O32, event by event. -/
theorem datumEvents : Obligations.DatumEvents := by
  unfold Obligations.DatumEvents
  intro s cc hcc tb
  refine ⟨fun c hc => ⟨fun hr hn ha he => ⟨_, calPulseEmit_emits hcc hc hr hn ha he, rfl, rfl⟩, fun hd hl => ?calTimeout, fun hr hl => ?calPulse⟩,
    fun a ha => ⟨fun e hm hr hd he => ⟨_, startPulseEmit_emits hcc ha hm hr hd he, rfl, rfl⟩, fun hr hc hm hz => ?startPulse,
      fun z hz hd hp => ?zero, fun hz hd => ⟨_, datumStartTimeout_ends ha hz hd, rfl⟩⟩,
    fun hr hv he hl => ⟨_, checkPulseEmit_emits hcc hr hv he hl, rfl, rfl⟩, checkPulseMissing_loses hcc, fun p v ha hv hm => ?startAt⟩
  case calTimeout =>
    obtain ⟨spread, he⟩ := calEnd_short (s := s.at cc) hl
    refine ⟨_, syncCalTimeout_ends hc hd, ?_⟩
    rw [he]
    exact ⟨rfl, rfl, rfl, rfl⟩
  case calPulse => exact ⟨_, congrArg Host.Outcome.next (syncPulse_calibrates (s := s.at cc) hr hc hl), rfl, rfl⟩
  case startPulse => exact ⟨_, congrArg Host.Outcome.next (syncPulse_starts (s := s.at cc) hr hc ha hm hz), rfl⟩
  case zero =>
    obtain ⟨hdtm, hnow⟩ := timebaseZero_zeroes (s := s.at cc) ha hz (hd.trans (Nat.le_max_right ..)) hp
    have htb : (s.at cc).timebaseZero.timebase = (cc - z) % 2 ^ 64 := by
      rw [State.timebase, hnow, at_now hcc, hdtm]
      rfl
    refine ⟨(s.at cc).timebaseZero, rfl, ?_⟩
    dsimp only
    rw [hdtm]
    exact ⟨rfl, rfl, rfl, rfl, rfl, rfl, htb⟩
  case startAt =>
    have hstart : Yields (.datumStartAtFire cc) s (fun u => u.dtm.startAt = [] ∧
        ∀ t, u.tile t = Tile.started^[(s.starters p).count t] (s.tile t)) :=
      ⟨_, startAtFire_starts ha hv, congrArg Datum.startAt (startPart_dtm ..), startPart_tile ((s.at cc).setDtm _) p⟩
    refine hstart.mono fun u ⟨hd, ht⟩ => ⟨hd, fun t hp hs => ?_, fun t hp => ?_⟩
    · rw [ht]
      exact iterate_count_mem (P := fun x => x.state = .running ∧ x.strand 0 = { state := .runnable }) (mem_starters hp hs)
        ⟨rfl, Tile.started_strand _⟩ fun x _ => ⟨rfl, Tile.started_strand x⟩
    · rw [ht]
      exact iterate_count_other (fun hmem => hp (part_of_mem_starters hm hmem)) _

end Sys2Proof.Machine
end

section
namespace Sys2Proof.Machine

/-! ## What the end of a request leaves alone (R126, R133, R405)

A memory request that ends has its effect at its requester: a COPY, a sparse instruction, a descriptor, an adder slot, a zeroing or a
collective. These may send more requests, end collectives, halt tiles and raise notices. What none of them does, a property of states
survives: it is enough to show that it survives the kinds of updates they are made of. -/

/-- A property of states that the work of requests and collectives does not touch: it survives notices and records, the progress of
commands, and changes of the units that this work is done by; of the far tier only the count of lost requests changes. -/
structure Spared (P : State → Prop) : Prop where
  noted    : ∀ {s u : State}, P s → Noted s u → P u
  inflight : ∀ {s : State} {a}, P s → P { s with cmp := { s.cmp with inflight := a } }
  dmaq     : ∀ {s : State} {a}, P s → P { s with cmp := { s.cmp with dmaq := a } }
  free     : ∀ {s : State} {a}, P s → P { s with free := a }
  grid     : ∀ {s : State} {a}, P s → P { s with grid := a }
  mer      : ∀ {s : State} {a}, P s → P { s with mer := a }
  stk      : ∀ {s : State} {a}, P s → P { s with stk := a }
  lost     : ∀ {s : State} {a}, P s → P { s with far := { s.far with lost := a } }
  plt      : ∀ {s : State} {a}, P s → P { s with plt := a }
  gaz      : ∀ {s : State} {a}, P s → P { s with gaz := a }
  cfl      : ∀ {s : State} {a}, P s → P { s with cfl := a }
  fab      : ∀ {s : State} {a}, P s → P { s with fab := a }
  atl      : ∀ {s : State} {a}, P s → P { s with atl := a }

section
variable {P : State → Prop} {s u : State}

/-! ### Branches and folds -/

theorem Spared.ite (_ : Spared P) {c : Prop} [Decidable c] (h : P s) (h' : P u) : P (if c then s else u) := by
  split <;> assumption

theorem Spared.iteSnd (_ : Spared P) {α : Type} {c : Prop} [Decidable c] {x y : α × State} (h : P x.2) (h' : P y.2) :
    P (if c then x else y).2 := by
  split <;> assumption

theorem Spared.iteSndSnd (_ : Spared P) {α β : Type} {c : Prop} [Decidable c] {x y : α × β × State} (h : P x.2.2) (h' : P y.2.2) :
    P (if c then x else y).2.2 := by
  split <;> assumption

theorem Spared.ofSnd (_ : Spared P) {α : Type} {p : α × State} {a} (hp : p = (a, u)) (h : P p.2) : P u := by
  subst hp
  exact h

theorem Spared.foldl (_ : Spared P) {α : Type} {f : State → α → State} {l : List α} (h : P s) (hf : ∀ s a, P s → P (f s a)) :
    P (l.foldl f s) := List.foldlRecOn l f h fun s hs a _ => hf s a hs

theorem Spared.foldlSnd (_ : Spared P) {α β : Type} {f : β × State → α → β × State} {l : List α} {b : β × State} (h : P b.2)
    (hf : ∀ b a, P b.2 → P (f b a).2) : P (l.foldl f b).2 :=
  List.foldlRecOn l f (motive := fun b => P b.2) h fun b hb a _ => hf b a hb

theorem Spared.foldlSndSnd (_ : Spared P) {α β γ : Type} {f : β × γ × State → α → β × γ × State} {l : List α} {b : β × γ × State}
    (h : P b.2.2) (hf : ∀ b a, P b.2.2 → P (f b a).2.2) : P (l.foldl f b).2.2 :=
  List.foldlRecOn l f (motive := fun b => P b.2.2) h fun b hb a _ => hf b a hb

variable (F : Spared P)
include F

/-! ### Notices, records, commands under way -/

theorem Spared.notify {n st part subject detail g addr job} (h : P s) : P (s.notify n st part subject detail g addr job) :=
  F.noted h (notify_noted ..)

theorem Spared.notifyRecorded {n st part subject detail g addr} (h : P s) : P (s.notifyRecorded n st part subject detail g addr) :=
  F.noted h (notifyRecorded_noted ..)

theorem Spared.itinEvent {code part st b l} (h : P s) : P (s.itinEvent code part st b l) := F.noted h (itinEvent_noted ..)

theorem Spared.drift {k ps} (h : P s) : P (s.drift k ps) := F.noted h (drift_noted ..)

theorem Spared.w1c {a} (h : P s) : P { s with w1c := a } := F.noted h ⟨rfl, rfl, rfl, rfl, rfl, rfl, fun _ => rfl⟩

theorem Spared.host {a} (h : P s) : P { s with host := a } := F.noted h ⟨rfl, rfl, rfl, rfl, rfl, rfl, fun _ => rfl⟩

theorem Spared.progress {opcode key st result} (h : P s) : P (s.progress opcode key st result) := F.inflight h

/-! ### Plat pools -/

theorem Spared.putPool {d p x} (h : P s) : P (s.putPool d p x) := by
  unfold State.putPool
  extract_lets _ s1 _ s2
  have h1 : P s1 := F.plt h
  have h2 : P s2 := F.ite (F.notify (F.w1c (F.plt h1))) h1
  exact F.ite (F.notify h2) h2

theorem Spared.platTake {d p w i} (h : P s) (hu : s.platTake d p w = some (i, u)) : P u := by
  dsimp only [State.platTake] at hu
  split at hu
  · obtain ⟨r, -, hr⟩ := Option.map_eq_some_iff.1 hu
    obtain ⟨-, rfl⟩ := Prod.mk.inj hr
    exact F.putPool h
  · cases hu

theorem Spared.platHold {d p w} (h : P s) : P (s.platHold d p w) := F.ite (F.drift (F.w1c (F.plt h))) h

theorem Spared.platFree {d p q i} (h : P s) : P (s.platFree d p q i).2 := by
  dsimp only [State.platFree]
  split
  · exact h
  · split
    · dsimp only
      exact F.notify (F.w1c (F.w1c (F.plt h)))
    · exact F.putPool h

theorem Spared.platTakeN {d p w} : ∀ {n s is u}, P s → s.platTakeN d p w n = some (is, u) → P u
  | 0, s, _, _, h, hu => by
    obtain ⟨-, rfl⟩ := Prod.mk.inj (Option.some.inj hu)
    exact h
  | n + 1, s, _, _, h, hu => by
    unfold State.platTakeN at hu
    split at hu
    · cases hu
    · rename_i ht
      obtain ⟨r, hr, he⟩ := Option.map_eq_some_iff.1 hu
      obtain ⟨-, rfl⟩ := Prod.mk.inj he
      exact Spared.platTakeN (F.platTake h ht) hr

/-! ### Stacked memory and the requests to it -/

theorem Spared.retireBlock {r} (h : P s) : P (s.retireBlock r) := F.notifyRecorded (F.w1c (F.stk h))

theorem Spared.repairRow {r} (h : P s) : P (s.repairRow r) := by
  dsimp only [State.repairRow]
  split
  · exact F.retireBlock h
  · exact F.ite (F.retireBlock h) (F.notifyRecorded (F.w1c (F.stk (F.stk (F.stk h)))))

theorem Spared.triggerRow {r} (h : P s) : P (s.triggerRow r) := F.ite (F.stk h) (F.stk (F.stk h))

theorem Spared.maintain {q most} (h : P s) : P (s.maintain q most) := F.stk (F.free h)

theorem Spared.repairDue {q} (h : P s) : P (s.repairDue q) := F.foldl (F.stk h) fun _ _ h => F.repairRow h

theorem Spared.repairSlot {q} (h : P s) : P (s.repairSlot q) := F.ite h (F.maintain (F.repairDue h))

theorem Spared.countRow {r} (h : P s) : P (s.countRow r) := F.ite (F.triggerRow (F.stk h)) (F.stk h)

theorem Spared.correctWord {w} (h : P s) : P (s.correctWord w) :=
  F.countRow (F.ite (F.w1c (F.stk h)) (F.stk (F.w1c (F.stk h))))

theorem Spared.badWord {w} (h : P s) : P (s.badWord w) := F.triggerRow (F.notify (F.w1c (F.w1c (F.stk h))))

theorem Spared.checkWords {q bad soft} (h : P s) : P (s.checkWords q bad soft).2 :=
  F.repairSlot (F.foldl (F.foldl h fun _ _ h => F.correctWord h) fun _ _ h => F.badWord h)

theorem Spared.stkRead {q b off n} (h : P s) : P (s.stkRead q b off n).2.2 := by
  dsimp only [State.stkRead]
  split
  · exact F.checkWords h
  · exact h

theorem Spared.viewRead {owner a n} (h : P s) : P (s.viewRead owner a n).2.2 := by
  unfold State.viewRead
  split
  · exact h
  · refine F.foldlSndSnd h fun _ _ h => ?_
    split
    · exact F.stkRead h
    · exact h

theorem Spared.reach {r} (h : P s) : P (s.reach r) := by
  dsimp only [State.reach]
  split
  · split
    · exact F.ite (F.stk (F.stk (F.stk h))) (F.ite (F.stk (F.stk h)) (F.stk (F.stk h)))
    · exact F.stk (F.stk h)
  · exact F.stk (F.stk h)

theorem Spared.leave {id} (h : P s) : P (s.leave id) := by
  dsimp only [State.leave]
  split
  · exact h
  · split
    · refine F.ite (F.reach ?_) h
      split
      · exact F.platFree h
      · exact h
    · exact F.reach h

theorem Spared.memCancel {p} (h : P s) : P (s.memCancel p) := by
  dsimp only [State.memCancel]
  refine F.stk (F.foldl h fun _ _ h => ?_)
  split
  · exact F.platFree h
  · exact h

theorem Spared.memTake {r} (h : P s) : P (s.memTake r) := by
  unfold State.memTake
  refine F.ite h ?_
  split
  · rename_i hu
    exact F.stk (F.platTake h hu)
  · exact h

theorem Spared.portStop {r} (h : P s) : P (s.portStop r) := F.drift (F.w1c (F.plt h))

theorem Spared.portWait {id} (h : P s) : P (s.portWait id) := by
  dsimp only [State.portWait]
  split
  · exact F.ite (F.ite (F.portStop (F.memTake (F.drift h))) (F.ite (F.platHold (F.memTake (F.drift h))) (F.memTake (F.drift h)))) h
  · exact h

theorem Spared.farLose {r} (h : P s) : P (s.farLose r) := by
  dsimp only [State.farLose]
  refine F.stk ?_
  split
  · exact F.ite (F.drift (F.w1c (F.lost h))) (F.w1c (F.lost h))
  · exact F.w1c (F.lost h)

theorem Spared.memLost {r} (h : P s) : P (s.memLost r) := by
  dsimp only [State.memLost]
  split
  · exact F.farLose (F.stk h)
  · exact F.stk (F.stk h)

theorem Spared.farLeave {id} (h : P s) : P (s.farLeave id) := by
  unfold State.farLeave
  split
  · exact h
  · split
    · exact F.ite (F.farLose h) (F.ite (F.stk (F.stk h)) h)
    · exact h

theorem Spared.pinLeave {id} (h : P s) : P (s.pinLeave id) := by
  dsimp only [State.pinLeave]
  split
  · exact h
  · split
    · exact F.ite (F.stk (F.w1c (F.atl h))) (F.stk h)
    · exact h

theorem Spared.leaveOther {r} (h : P s) : P (s.leaveOther r) := by
  unfold State.leaveOther
  refine F.ite h ?_
  split
  · exact h
  · exact F.farLeave h
  · exact F.pinLeave h

theorem Spared.memSend {r} (h : P s) : P (s.memSend r) := by
  dsimp only [State.memSend]
  split
  · exact F.portWait (F.leave (F.stk h))
  · exact F.ite (F.portStop (F.stk h)) (F.leaveOther (F.stk h))

theorem Spared.spillMem {die port a n data} (h : P s) : P (s.spillMem die port a n data) :=
  F.foldl h fun _ _ h => F.memSend h

theorem Spared.ringTouch {die write is} (h : P s) : P (s.ringTouch die write is) :=
  F.foldl h fun _ _ h => F.foldl h fun _ _ h => F.memSend h

/-! ### Mesh, Meridian, Gazetteer -/

theorem Spared.meshWaits {p} (h : P s) : P (s.meshWaits p) := F.ite (F.foldl (F.free h) fun _ _ h => F.drift h) h

theorem Spared.toMesh {m} (h : P s) : P (s.toMesh m) := F.foldl (F.grid h) fun _ _ h => F.meshWaits h

theorem Spared.merSend {x} (h : P s) : P (s.merSend x) := F.mer (F.foldl h fun _ _ h => F.mer h)

theorem Spared.countGaz {i n} (h : P s) : P (s.countGaz i n) := F.w1c (F.gaz h)

theorem Spared.gazRowIssue {r i row} (h : P s) : P (s.gazRowIssue r i row).2 := by
  dsimp only [State.gazRowIssue]
  split
  · exact h
  · split
    · exact h
    · split
      · exact F.memLost (F.countGaz h)
      · exact F.foldl (F.countGaz h) fun _ _ h => F.memSend h

theorem Spared.gazIssue : ∀ {n s r}, P s → P (State.gazIssue n s r).2
  | 0, _, _, h => h
  | n + 1, s, r, h => by
    dsimp only [State.gazIssue]
    split
    · exact h
    · exact Spared.gazIssue (F.ite (F.countGaz (F.gazRowIssue h)) (F.gazRowIssue h))

theorem Spared.gazAccept {r} (h : P s) : P (s.gazAccept r) := F.gaz (F.iteSnd (F.countGaz h) (F.gazIssue (F.countGaz h)))

theorem Spared.gazEnd {r} (h : P s) : P (s.gazEnd r) := by
  dsimp only [State.gazEnd]
  refine F.foldl (F.gaz h) fun _ _ h => ?_
  split
  · exact F.ite (F.progress (F.progress (F.gaz h))) h
  · exact h

theorem Spared.gazWait {die part} (h : P s) : P (s.gazWait die part) := F.ite (F.drift h) h

/-! ### The fabric -/

theorem Spared.countSub {l i n} (h : P s) : P (s.countSub l i n) := F.w1c (F.fab h)

theorem Spared.drop {l cause n} (h : P s) : P (s.drop l cause n) := F.ite h (F.fab (F.countSub h))

theorem Spared.creditBack {from_ vc n} (h : P s) : P (s.creditBack from_ vc n) := by
  unfold State.creditBack
  split
  · exact F.ite h (F.fab h)
  · exact h

theorem Spared.countTrv {d i n} (h : P s) : P (s.countTrv d i n) := F.w1c (F.fab h)

theorem Spared.countWpt {i n} (h : P s) : P (s.countWpt i n) := F.w1c (F.fab h)

theorem Spared.noteDead {die v dest} (h : P s) : P (s.noteDead die v dest) := F.ite h (F.notify (F.fab h))

theorem Spared.markDead {die v dest} (h : P s) : P (s.markDead die v dest) := F.noteDead (F.fab h)

theorem Spared.setStop {k} (h : P s) : P (s.setStop k) := F.ite h (F.countTrv (F.fab h))

theorem Spared.headroomCell {k part c} (h : P s) : P (s.headroomCell k part c) := by
  dsimp only [State.headroomCell]
  split
  · rename_i hu
    exact F.fab (F.platTake (F.setStop h) hu)
  · exact F.fab (F.setStop h)

theorem Spared.chipCell {k part c} (h : P s) : P (s.chipCell k part c) := by
  dsimp only [State.chipCell]
  split
  · rename_i hu
    exact F.ite (F.setStop (F.fab (F.platTake h hu))) (F.fab (F.platTake h hu))
  · exact F.headroomCell h

theorem Spared.spillCell {k part c} (h : P s) : P (s.spillCell k part c) := by
  unfold State.spillCell
  extract_lets _ go
  have hgo : ∀ s, P s → P (go s) := by
    refine fun _ h => F.ite (F.setStop (F.drift (F.countTrv (F.fab (F.fab ?_))))) (F.drift (F.countTrv (F.fab (F.fab ?_))))
    · split
      · exact F.spillMem h
      · exact h
    · split
      · exact F.spillMem h
      · exact h
  refine F.ite (hgo _ h) (F.ite (F.headroomCell h) ?_)
  split
  · rename_i hu
    exact hgo _ (F.ringTouch (F.fab (F.platTake h hu)))
  · exact F.headroomCell h

theorem Spared.queueCell {l idx tgt lport} (h : P s) : P (s.queueCell l idx tgt lport) := by
  unfold State.queueCell
  extract_lets _ _ _ _ s1 _ s2 _ _ s3
  have h1 : P s1 := F.ite (F.countTrv h) h
  have h2 : P s2 := F.ite (F.drift h1) h1
  have h3 : P s3 := F.ite (F.fab h2) h2
  exact F.ite (F.headroomCell h3) (F.ite (F.spillCell h3) (F.chipCell h3))

theorem Spared.rxTake {l n} (h : P s) : P (s.rxTake l n).2 := by
  unfold State.rxTake
  split
  · rcases hu : s.platTakeN _ _ _ n with _ | ⟨is, u⟩
    · exact h
    · exact F.platTakeN h hu
  · exact h

theorem Spared.enqueue {l here} (h : P s) : P (s.enqueue l here) := F.fab (F.rxTake h)

theorem Spared.unrouted {e p} (h : P s) : P (s.unrouted e p) := F.creditBack (F.countWpt h)

theorem Spared.admitTo {e p outs mcast} (h : P s) : P (s.admitTo e p outs mcast) := by
  unfold State.admitTo
  refine F.ite (F.enqueue h) ?_
  split
  · exact h
  · exact F.foldl (F.fab h) fun _ _ h => F.fab h

theorem Spared.forward {e p} {go : State → Packet → State} (h : P s)
    (hgo : ∀ s a1, P s → P (go s a1)) : P (s.forward e p go) := by
  dsimp only [State.forward]
  refine F.ite (hgo _ _ h) (F.ite (F.creditBack (F.notify ?_)) (hgo _ _ h))
  split
  · exact F.drop h
  · exact h

theorem Spared.admitRaw {e p} (h : P s) : P (s.admitRaw e p) := by
  unfold State.admitRaw
  split
  · exact F.admitTo h
  · split
    · exact F.unrouted h
    · extract_lets _ _ go
      have hgo : ∀ s a1, P s → P (go s a1) := fun _ _ h => F.ite (F.fab (F.admitTo h)) (F.admitTo h)
      exact F.ite (F.unrouted h) (F.ite (F.forward h fun _ _ h => hgo _ _ h) (hgo _ _ h))
    · refine F.forward h fun _ _ h => F.ite (F.unrouted (F.noteDead (F.fab h))) ?_
      split
      · exact F.unrouted (F.markDead h)
      · extract_lets _ s1
        have h1 : P s1 := by
          dsimp only [s1]
          split
          · exact F.fab h
          · exact h
        exact F.admitTo h1
    · refine F.ite (F.unrouted h) ?_
      split
      · exact F.unrouted h
      · exact F.admitTo h

theorem Spared.toAccel {lport p part} (h : P s) : P (s.toAccel lport p part) :=
  F.ite (F.drop h) (F.foldl (F.fab h) fun _ _ h => F.queueCell h)

theorem Spared.flowSeq {src dest vc} (h : P s) : P (s.flowSeq src dest vc).2 := by
  dsimp only [State.flowSeq]
  split
  · exact F.fab h
  · exact F.fab h

/-! ### Confluence -/

theorem Spared.countCfl {i n} (h : P s) : P (s.countCfl i n) := F.w1c (F.cfl h)

theorem Spared.cflCtl {g dst head payload} (h : P s) : P (s.cflCtl g dst head payload) := F.admitRaw h

theorem Spared.cflFree {g rank buf} (h : P s) : P (s.cflFree g rank buf) := by
  unfold State.cflFree
  split
  · exact h
  · extract_lets _ s1
    have h1 : P s1 := F.platFree h
    generalize hr : List.foldl _ _ _ = r
    have h2 : P r.2 := by
      rw [← hr]
      refine F.foldlSnd h1 fun _ _ h => ?_
      split
      · rename_i hu
        exact F.cfl (F.platTake h hu)
      · exact h
    refine F.ite h2 ?_
    clear_value *
    split
    · exact F.toAccel h2
    · exact F.cflCtl h2

theorem Spared.cflLaunch {g rank p} (h : P s) : P (s.cflLaunch g rank p) := F.admitRaw (F.flowSeq h)

theorem Spared.cflDrain {g} : ∀ {n s k}, P s → P (State.cflDrain g n s k)
  | 0, _, _, h => h
  | n + 1, s, k, h => by
    unfold State.cflDrain
    split
    · exact h
    · exact F.ite (F.ite h (F.countCfl (F.cfl h))) (Spared.cflDrain (F.cflFree (F.cflLaunch (F.cfl h))))

theorem Spared.cflBlock {g r dst kind tree seg blk src payload buf} (h : P s) :
    P (s.cflBlock g r dst kind tree seg blk src payload buf) :=
  F.ite (F.cflFree (F.cflLaunch h)) (F.cflDrain (F.ite (F.countCfl (F.cfl h)) (F.cfl h)))

theorem Spared.cflDrainAll {g rank} (h : P s) : P (s.cflDrainAll g rank) := F.foldl h fun _ _ h => F.cflDrain h

theorem Spared.cflSend {g run what data a n part} (h : P s) : P (s.cflSend g run what data a n part).2 := by
  unfold State.cflSend
  split
  · exact h
  · exact F.stk (F.foldl h fun _ _ h => F.memSend h)

theorem Spared.memberRead {g rank a n} (h : P s) : P (s.memberRead g rank a n).2.2 := by
  unfold State.memberRead
  split
  · exact h
  · exact F.iteSndSnd h (F.viewRead h)
  · exact h

theorem Spared.memberWrite {g r what a bs part} (h : P s) : P (s.memberWrite g r what a bs part).2 := by
  unfold State.memberWrite
  split
  · exact F.host h
  · exact F.iteSnd h (F.cflSend h)
  · exact F.foldl h fun _ _ h => F.toAccel h
  · exact h

theorem Spared.cflWrite {g r p bytes} (h : P s) : P (s.cflWrite g r p bytes).2 := by
  dsimp only [State.cflWrite]
  split
  · exact h
  · exact F.memberWrite (F.iteSnd h (F.memberRead h))

theorem Spared.cflDeliver {g r st ws} (h : P s) : P (s.cflDeliver g r st ws) := by
  unfold State.cflDeliver
  extract_lets _ s1
  have h1 : P s1 := by
    dsimp only [s1]
    split
    · exact F.toAccel h
    · exact F.memberWrite h
  split
  · exact F.progress h1
  · extract_lets s2
    have h2 : P s2 := F.toMesh h1
    exact F.ite (F.merSend h2) h2
  · exact h1

theorem Spared.cflScramble {g r} (h : P s) : P (s.cflScramble g r) := F.foldl h fun _ _ h => F.cflWrite (F.free h)

theorem Spared.cflFarSats {g r} (h : P s) : P (s.cflFarSats g r).2 := by
  dsimp only [State.cflFarSats]
  exact F.iteSnd (F.free h) h

theorem Spared.cflAbortDone {g seq} (h : P s) : P (s.cflAbortDone g seq) := F.ite h (F.progress h)

theorem Spared.cflEnd {g r st by_} (h : P s) : P (s.cflEnd g r st by_) := by
  unfold State.cflEnd
  extract_lets _ s1 _ _ _ s2 s3 s4 s5
  have h1 : P s1 := F.cfl h
  have h2 : P s2 := F.cfl h1
  have h3 : P s3 := F.foldl h2 fun _ _ h => F.cflFree h
  have h4 : P s4 := F.cflDrainAll h3
  have h5 : P s5 := F.ite (F.cflScramble h4) h4
  split
  · extract_lets s6
    have h6 : P s6 := by
      rename_i hu
      exact F.cflDeliver (F.ofSnd hu (F.cflFarSats h5))
    split
    · exact F.cflAbortDone h6
    · exact h6

theorem Spared.cflAbort {g seq st by_ from_ raised here addr shown} (h : P s) :
    P (s.cflAbort g seq st by_ from_ raised here addr shown) := by
  unfold State.cflAbort
  extract_lets _ _ _ _ _ _ s1 s2 s3 _ s4 _ s5 s6
  have h1 : P s1 := F.cfl (F.countCfl h)
  have h2 : P s2 := F.w1c h1
  have h3 : P s3 := F.ite (F.countCfl h2) h2
  have h4 : P s4 := F.itinEvent (F.notify h3)
  have h5 : P s5 := F.foldl h4 fun _ _ h => F.cflCtl h
  have h6 : P s6 := F.foldl h5 fun _ _ h => F.cflEnd h
  exact F.ite (F.ite (F.cfl h6) (F.cfl h6)) h6

theorem Spared.cflConfirm {g r} (h : P s) : P (s.cflConfirm g r) := F.foldl (F.cfl h) fun _ _ h => F.cflCtl h

theorem Spared.cflRound {id} (h : P s) : P (s.cflRound id) := by
  dsimp only [State.cflRound]
  split
  · exact h
  · split
    · exact h
    · refine F.ite h ?_
      split
      · exact F.cflConfirm (F.cfl h)
      · exact F.cflCtl (F.cfl h)

theorem Spared.cflSat {r tree n} (h : P s) : P (s.cflSat r tree n) := F.countCfl (F.cfl h)

theorem Spared.cflCombine {id tree seg j p1} (h : P s) (hu : s.cflCombine id tree seg j p1 = some u) : P u := by
  unfold State.cflCombine at hu
  simp only [Option.bind_eq_bind, Option.bind_eq_some_iff] at hu
  obtain ⟨r, -, g, -, made, -, hu⟩ := hu
  split at hu
  · cases hu
    exact F.cflAbort h
  · cases hu
    refine F.cflDrainAll (F.foldl ?_ fun _ _ h => F.cflFree h)
    split
    · split
      · exact F.ite (F.cflCtl (F.cfl h)) (F.cflBlock (F.cfl h))
      · exact F.cfl h
    · exact F.cflSat (F.cfl (F.cfl h))
    · exact F.ite (F.cfl (F.cfl h)) (F.cflBlock (F.cfl h))
    · exact F.cflAbort (F.cfl h)

theorem Spared.cflPass {g r x j} (h : P s) : P (s.cflPass g r x j) := by
  unfold State.cflPass
  extract_lets _ _ _ _ s1
  have h1 : P s1 := F.foldl h fun _ _ h => F.foldl h fun _ _ h => F.cflBlock h
  refine F.ite h ?_
  split
  · exact F.cflAbort h
  · refine F.ite (F.foldl h fun _ _ h => F.cflFree h) (F.ite (F.foldl h fun _ _ h => F.cflCtl h) ?_)
    exact F.ite (F.foldl h1 fun _ _ h => F.cflFree h) (F.foldl h fun _ _ h => F.cflBlock h)

theorem Spared.cflForward {id} (h : P s) : P (s.cflForward id) := by
  dsimp only [State.cflForward]
  split
  · exact h
  · split
    · exact h
    · refine F.foldl h fun _ _ h => ?_
      split
      · exact h
      · split
        · exact h
        · exact F.ite h (F.foldl (F.cfl h) fun _ _ h => F.cflPass h)

theorem Spared.cflStore {id} (h : P s) : P (s.cflStore id) := by
  unfold State.cflStore
  split
  · exact h
  · split
    · exact h
    · refine F.ite h (F.foldl h fun _ _ h => ?_)
      split
      · exact h
      · refine F.ite h ?_
        split
        · exact h
        · exact F.ite (F.ite (F.cflWrite (F.cfl h)) (F.cflAbort (F.cfl (F.cflWrite (F.cfl h))))) h

theorem Spared.cflFinish {id} (h : P s) : P (s.cflFinish id) := by
  unfold State.cflFinish
  split
  · exact h
  · split
    · exact h
    · exact F.ite (F.cflEnd h) h

theorem Spared.cflScalar : ∀ {n s id}, P s → P (State.cflScalar n s id)
  | 0, _, _, h => h
  | n + 1, s, id, h => by
    unfold State.cflScalar
    split
    · exact h
    · refine F.ite h ?_
      split
      · rename_i hu
        obtain ⟨_, _, hc⟩ := List.exists_of_findSome?_eq_some hu
        exact Spared.cflScalar (F.cflCombine h hc)
      · exact h

theorem Spared.cflStep {id} (h : P s) : P (s.cflStep id) := by
  dsimp only [State.cflStep]
  split
  · exact F.cflStore (F.cflForward (F.cflScalar (F.cflRound h)))
  · refine F.foldl ?_ fun _ _ h => F.cflFinish h
    split
    · exact F.cflDrainAll (F.cflStore (F.cflForward (F.cflScalar (F.cflRound h))))
    · exact F.cflStore (F.cflForward (F.cflScalar (F.cflRound h)))

theorem Spared.cflRows {q run} (h : P s) : P (s.cflRows q run) := by
  unfold State.cflRows
  split
  · exact F.gazEnd h
  · split
    · exact F.gazEnd h
    · split
      · exact F.cflAbort (F.gazEnd h)
      · exact F.ite (F.cflStep (F.gazEnd (F.cfl h))) h

theorem Spared.cflPoolTaken {q run} (h : P s) : P (s.cflPoolTaken q run) := by
  dsimp only [State.cflPoolTaken]
  split
  · exact h
  · split
    · exact h
    · refine F.ite (F.cflAbort h) ?_
      split
      · exact F.cflRows (F.gazAccept h)
      · exact F.gazAccept h

theorem Spared.cflPool {g r} (h : P s) : P (s.cflPool g r) := F.ite (F.gazWait (F.gaz (F.gaz h))) (F.cflPoolTaken (F.gaz h))

theorem Spared.cflTileLost {t st} (h : P s) : P (s.cflTileLost t st) := by
  dsimp only [State.cflTileLost]
  refine F.foldl h fun _ _ h => ?_
  split
  · split
    · exact F.cflAbort h
    · exact h
  · exact h

/-! ### Descriptor queues -/

theorem Spared.rawMsix {f v} (h : P s) : P (s.rawMsix f v) := F.noted h ((setFn_noted ..).trans (emit_noted ..))


theorem Spared.setQueue {q x} (h : P s) : P (s.setQueue q x) := F.dmaq h


theorem Spared.dmaRecord {x d st} (h : P s) : P (s.dmaRecord x d st) := by
  unfold State.dmaRecord
  extract_lets s1 s2
  have h1 : P s1 := F.ite h (F.host h)
  have h2 : P s2 := F.ite (F.merSend h1) h1
  exact F.ite (F.rawMsix h2) h2

theorem Spared.dmaEnd {q d st} (h : P s) : P (s.dmaEnd q d st) := F.setQueue (F.dmaRecord h)

theorem Spared.dmaGot {r q host st} (h : P s) : P (s.dmaGot r q host st) := by
  unfold State.dmaGot
  extract_lets _ s1
  have h1 : P s1 := F.ite (F.host h) h
  split
  · exact h
  · have h2 : ∀ x, P (s1.setQueue q x) := fun _ => F.setQueue h1
    exact F.ite h (F.ite (h2 _) (F.ite (F.setQueue (h2 _)) (F.ite (F.dmaEnd (h2 _)) (F.ite (F.dmaEnd (h2 _)) (h2 _)))))

/-! ### Zeroing -/

theorem Spared.zeroEnd {z} (h : P s) : P (s.zeroEnd z) := F.ite (F.progress (F.stk h)) (F.progress (F.stk (F.stk h)))

theorem Spared.zeroNext {id q} (h : P s) : P (s.zeroNext id q) := by
  dsimp only [State.zeroNext]
  split
  · exact h
  · split
    · exact h
    · exact F.ite (F.memSend (F.stk h)) (F.ite (F.zeroEnd (F.stk h)) (F.stk h))

/-! ### Collectives that asked for the data -/

theorem Spared.cflFetched {g r} (h : P s) : P (s.cflFetched g r) := by
  dsimp only [State.cflFetched]
  refine F.ite (F.cflStep (F.cfl h)) (F.ite ?_ (F.ite h (F.cflPool h)))
  exact F.ite (F.cflSend (F.cfl h)) (F.cflAbort (F.cflSend (F.cfl h)))

theorem Spared.cflMemDone {q run what off st} (h : P s) : P (s.cflMemDone q run what off st) := by
  dsimp only [State.cflMemDone]
  split
  · exact h
  · split
    · exact h
    · exact F.ite (F.cflAbort (F.cfl h)) (F.ite (F.cflStep (F.cfl h)) (F.ite (F.cfl h) (F.cflFetched (F.cfl h))))

/-! ### Sparse instructions and COPY -/

theorem Spared.faultHalt {t st pc strand extra addr by_} (h : P s) : P (s.faultHalt t st pc strand extra addr by_) :=
  F.ite (F.cflTileLost (F.notify (F.ite (F.grid h) h))) h

theorem Spared.sparseSend {t insn} : ∀ {l s}, P s → P (s.sparseSend t insn l)
  | [], _, h => h
  | (tg, o, n) :: l, s, h => by
    unfold State.sparseSend
    refine Spared.sparseSend ?_
    split
    · exact F.grid (F.memSend h)
    · exact F.memSend h

theorem Spared.sparsePull {t} : ∀ {n s}, P s → P (State.sparsePull t n s)
  | 0, _, h => h
  | n + 1, s, h => by
    dsimp only [State.sparsePull]
    split
    · exact h
    · split
      · exact h
      · split
        · exact h
        · split
          · exact Spared.sparsePull (F.grid h)
          · exact Spared.sparsePull (F.grid h)
          · exact F.sparseSend (F.grid h)

theorem Spared.sparseGot {t insn off id st data} (h : P s) : P (s.sparseGot t insn off id st data) := by
  unfold State.sparseGot
  split
  · exact h
  · split
    · exact h
    · exact F.ite h (F.ite (F.sparsePull (F.grid h)) (F.grid h))

theorem Spared.copyStop {t st addr} (h : P s) : P (s.copyStop t st addr) := by
  dsimp only [State.copyStop]
  split
  · exact F.faultHalt (F.grid (F.memCancel h))
  · exact h

theorem Spared.copyEnds {id} (h : P s) : P (s.copyEnds id) := by
  unfold State.copyEnds
  split
  · exact h
  · split
    · extract_lets s1 s2 _
      have h2 : P s2 := F.stk (F.stk h)
      clear_value s2
      split
      · refine F.ite h2 (F.ite (F.copyStop h2) ?_)
        split
        · exact F.copyStop (F.w1c (F.grid h2))
        · exact F.grid h2
      · exact h2
    · exact h

/-! ### The end of a request -/

theorem Spared.reqEnds {id} (h : P s) : P (s.reqEnds id) := by
  unfold State.reqEnds
  split
  · split
    · exact F.cflMemDone (F.stk h)
    · exact F.sparseGot (F.stk h)
    · exact F.dmaGot (F.stk h)
    · exact F.stk (F.stk h)
    · exact F.zeroNext (F.stk h)
    · exact F.copyEnds h
  · exact h

theorem Spared.memReap (h : P s) : P s.memReap := F.stk (F.foldl h fun _ _ h => F.reqEnds h)

theorem Spared.farEnd {p stand} (h : P s) : P (s.farEnd p stand) := F.memReap (F.foldl h fun _ _ h => F.farLose h)

end

end Sys2Proof.Machine
end

section
namespace Sys2Proof.Machine

/-! ## The controllers of stacked memory (R162, R413 to R424, R558) -/

section
variable {s : State} {q : Nat}

/-! ### Slots (R413) -/

/-- A pseudo-channel whose channel is not READY or in a window, or that maintenance occupies, serves nothing. -/
theorem memSlot_idle (h : (s.channel (pchChannel q)).state ≠ .ready ∨ s.now < (s.channel (pchChannel q)).window ∨ s.now < (s.pch q).busy) :
    s.memSlot q = s := by
  have hc : ((s.channel (pchChannel q)).state ≠ .ready || s.now < (s.channel (pchChannel q)).window || s.now < (s.pch q).busy ||
      (!(s.pch q).slots.isEmpty && s.now < (s.pch q).last + 15) : Bool) = true := by
    rcases h with h | h | h <;> simp [h]
  exact if_pos hc

/-- LATENCY goes first while its share of 64 slots is not used up. -/
theorem pickReq_latency {x : Pch} {l : List MemReq} {r : MemReq} (hs : x.slots = []) (hl : 0 < s.stk.lat) (ho : oldestOf l 0 = some r) :
    s.pickReq x l = some (r, x) := by
  simp [State.pickReq, hs, hl, ho]

theorem oldestOf_cls {l : List MemReq} {c : Nat} {r : MemReq} (h : oldestOf l c = some r) : r.cls = c := by
  simpa using List.find?_some h

/-- The slot of a pseudo-channel that has served nothing yet and has no write-back due. -/
theorem memSlot_serves {r : MemReq} (hc : (s.channel (pchChannel q)).state = .ready) (hw : (s.channel (pchChannel q)).window ≤ s.now)
    (hb : (s.pch q).busy ≤ s.now) (hs : (s.pch q).slots = []) (hf : (s.pch q).fixes = []) (hl : 0 < s.stk.lat)
    (ho : oldestOf (s.eligible q) 0 = some r) : s.memSlot q = (((s.setPch q { s.pch q with slots := [0], last := s.now }).setReq
      { r with queued := false, stage := if r.stage = .out then .served else r.stage }).dropReq r.id).memAdmitQ q := by
  have hp : ∀ x : Pch, x.slots = [] → s.pickReq x (s.eligible q) = some (r, x) := fun x hx => pickReq_latency hx hl ho
  simp [State.memSlot, hc, Nat.not_lt.2 hw, Nat.not_lt.2 hb, hs, hf, hp, oldestOf_cls ho]

/-! ### Responses (R162, R416) -/

theorem newErrors_nil : s.newErrors [] = s := by simp [State.newErrors]

/-- The words of a request that were uncorrectable when it reached its controller. -/
def MemReq.badWords (r : MemReq) (q b off : Nat) : List Nat := (pieceWords (cellAddr q b off) r.len).filter (fun w => r.badAt.contains w)

/-- A read that met no correctable word and finds no new error: its uncorrectable words are recorded, then repaired. -/
theorem memResponse_reads {id b off : Nat} {r : MemReq} (hr : s.req id = some r) (hs : r.stage = .served) (ht : r.target = .stk q b off)
    (hb : s.blockStatus q b = .ok) (hsoft : r.softAt = []) : s.memResponse id [] =
      (((r.badWords q b off).foldl State.badWord s).repairSlot q).arrive r (if (r.badWords q b off).isEmpty then .ok else .uncorrectable) := by
  simp [State.memResponse, hr, hs, ht, hb, hsoft, newErrors_nil, State.checkWords, MemReq.badWords]

theorem memResponse_clean {id b off : Nat} {r : MemReq} (hr : s.req id = some r) (hs : r.stage = .served) (ht : r.target = .stk q b off)
    (hb : s.blockStatus q b = .ok) (hbad : r.badAt = []) (hsoft : r.softAt = []) : s.memResponse id [] = (s.repairSlot q).arrive r .ok := by
  have hnone : r.badWords q b off = [] := by simp [MemReq.badWords, hbad]
  rw [memResponse_reads hr hs ht hb hsoft, hnone]
  rfl

theorem memResponse_uncorrectable {id b off w : Nat} {r : MemReq} (hr : s.req id = some r) (hs : r.stage = .served)
    (ht : r.target = .stk q b off) (hb : s.blockStatus q b = .ok) (hsoft : r.softAt = []) (hbad : r.badWords q b off = [w]) :
    s.memResponse id [] = ((s.badWord w).repairSlot q).arrive r .uncorrectable := by
  rw [memResponse_reads hr hs ht hb hsoft, hbad]
  rfl

/-- A held request completes at its padded cycle, and not before. -/
theorem padded_held {id p : Nat} {r : MemReq} {st : Status} (hr : s.req id = some r) (hs : r.stage = .held st) (hp : r.pad = some p) :
    s.padded id = if p ≤ s.now then (s.setReq { r with stage := .complete st }).memReap else s := by
  simp [State.padded, hr, hs, hp]

end

/-! ### Refresh (R164, R422) -/

section
variable {s : State} {q cc : Nat}

theorem refresh_runs (hq : q < 1536) (hst : (s.channel (pchChannel q)).state ≠ .untrained) (hd : s.anyDatum = false) (errs : List (Nat × Bool)) :
    exec (.refresh q cc errs) s = .next ((((s.at cc).maintain q 660).writeBack q).scrub q errs) := by
  have hgo : exec (.refresh q cc errs) s = execRefresh q cc errs s := rfl
  have hd : (s.at cc).anyDatum = false := hd
  have hst : ((s.at cc).channel (pchChannel q)).state ≠ .untrained := hst
  simp [hgo, execRefresh, State.refresh, hq, hd, hst]

theorem schedRefresh_runs (hq : q < 1536) (hst : (s.channel (pchChannel q)).state ≠ .untrained) (hd : s.anyDatum = true)
    (ht : (s.at cc).timebase % 7296 = 19 * (q % 384)) (errs : List (Nat × Bool)) :
    exec (.schedRefresh q cc errs) s = .next ((((s.at cc).maintain q 0).writeBack q).scrub q errs) := by
  have hgo : exec (.schedRefresh q cc errs) s = execSchedRefresh q cc errs s := rfl
  have hd : (s.at cc).anyDatum = true := hd
  have hst : ((s.at cc).channel (pchChannel q)).state ≠ .untrained := hst
  simp [hgo, execSchedRefresh, State.refresh, hq, hd, hst, ht]

end

/-! ### Channels (R423, R424, R426) -/

section
variable {s : State} {ch : Nat}

theorem State.channel_setChannel_other (s : State) {c d : Nat} (h : d ≠ c) (x : Channel) : (s.setChannel c x).channel d = s.channel d :=
  SMap.lookD_put_other _ h ..

/-- A READY channel begins to retrain: it alone changes, and the count of retrainings. -/
theorem retrain_goes (hch : ch < 768) (hr : (s.channel ch).state = .ready) (unscheduled : Bool) :
    (s.retrain ch unscheduled).channel ch = { s.channel ch with state := .retraining, unscheduled := unscheduled, began := s.now } ∧
      (∀ c, c ≠ ch → (s.retrain ch unscheduled).channel c = s.channel c) ∧ (s.retrain ch unscheduled).stk.retrains = satInc s.stk.retrains ∧
      (s.retrain ch unscheduled).stk.mem = s.stk.mem ∧ (s.retrain ch unscheduled).stk.reqs = s.stk.reqs := by
  have he : s.retrain ch unscheduled = _ := if_pos (by simp [hch, hr])
  rw [he]
  exact ⟨State.channel_setChannel .., fun c hc => State.channel_setChannel_other s hc _, rfl, rfl, rfl⟩

/-- A scheduled retraining that succeeds leaves its channel READY. -/
theorem retrainEnd_scheduled (hr : (s.channel ch).state = .retraining) (hu : (s.channel ch).unscheduled = false) :
    s.retrainEnd ch true = s.setChannel ch { s.channel ch with state := .ready } := by
  simp [State.retrainEnd, hr, hu]

/-- After an unscheduled one the requests that it held are marked too (R165). -/
theorem retrainEnd_unscheduled (hr : (s.channel ch).state = .retraining) (hu : (s.channel ch).unscheduled = true) : s.retrainEnd ch true =
    (s.setReqs (s.stk.reqs.map (fun r => if r.atChannel ch && r.stage = .out then { r with stalled := true } else r))).setChannel ch
      { s.channel ch with state := .ready, unscheduled := false } := by
  simp [State.retrainEnd, hr, hu]

/-- A run of channels that are all set to one state. -/
theorem foldl_setChannel (base n : Nat) (x : Channel) (s : State) : (List.range n).foldl (fun s h => s.setChannel (base + h) x) s =
    { s with stk := { s.stk with channels := (List.range n).foldl (fun m h => m.put (base + h) x) s.stk.channels } } := by
  induction n with
  | zero => rfl
  | succ n ih =>
    rw [List.range_succ, List.foldl_append, List.foldl_append, ih]
    rfl

theorem channel_foldl_setChannel (base n : Nat) (x : Channel) (s : State) (c : Nat) :
    ((List.range n).foldl (fun s h => s.setChannel (base + h) x) s).channel c = if base ≤ c ∧ c < base + n then x else s.channel c := by
  rw [foldl_setChannel]
  exact SMap.lookD_foldl_put s.stk.channels base n (fun _ => x) c {}

/-- Copies that are due run in a scheduled window of their channel, or where nothing is scheduled (R418). -/
theorem remapCopy_repairs {q : Nat} (h : ((s.channel (pchChannel q)).state = .retraining ∧ (s.channel (pchChannel q)).unscheduled = false) ∨
    s.anyDatum = false) : exec (.remapCopy q) s = .next (s.repairDue q) := congrArg Host.Outcome.next (if_pos (by simpa using h))

end

/-! ### Adders (R415) -/

theorem SMap.look_map_snd {α β : Type} (f : Nat → α → β) (m : SMap α) (a : Nat) :
    SMap.look (m.map (fun e => (e.1, f e.1 e.2))) a = (m.look a).map (f a) := by
  induction m with
  | nil => rfl
  | cons e m ih =>
    obtain ⟨k, x⟩ := e
    simp only [List.map_cons, SMap.look]
    split
    · next hk => rw [hk]; rfl
    · exact ih

section
variable {s : State} {cc : Nat}

/-- The lines of a die that stay in their adder slots at a cycle. -/
def State.linesKept (s : State) (die cc c : Nat) (lines : List AdderLine) : List AdderLine :=
  if c / 24 = die then lines.filter (fun x => cc < x.touch + 16 || x.got = none ||
    (s.channel (pchChannel (x.addr / 4096 / blocksPerPch))).state = .retraining) else lines

/-- A line stays whose data is still out, or whose channel retrains. -/
theorem not_lineFree (x : AdderLine) : (!s.lineFree x) =
    (x.got = none || (s.channel (pchChannel (x.addr / 4096 / blocksPerPch))).state = .retraining : Bool) := by
  cases hg : x.got <;> simp [State.lineFree, hg]

theorem adderWriteback_keeps (hcc : s.now ≤ cc) (die : Nat) : exec (.adderWriteback die cc) s =
    .next { s.at cc with stk := { s.stk with adders := s.stk.adders.map (fun e => (e.1, s.linesKept die cc e.1 e.2)) } } := by
  have hgo : exec (.adderWriteback die cc) s = execAdderWriteback die cc s := rfl
  have hkept : ∀ e : Nat × List AdderLine, (if e.1 / 24 = die then (e.1, e.2.filter (fun x => cc < x.touch + 16 || !(s.at cc).lineFree x)) else e) =
      (e.1, s.linesKept die cc e.1 e.2) := by
    intro e
    unfold State.linesKept
    split
    · simp only [not_lineFree, Bool.or_assoc]
      rfl
    · rfl
  rw [hgo]
  dsimp only [execAdderWriteback]
  rw [at_now hcc]
  simp only [hkept]
  rfl

/-! ### The training of a stack (R558) -/

/-- The 32 channels of a stack that has trained become READY, and no other channel changes. -/
theorem stackTrained_readies {stack : Nat} (hs : stack < 24) (ht : stack ∉ s.stk.trained) : Yields (.stackTrained stack) s (fun u =>
    u.stk.trained = s.stk.trained ++ [stack] ∧ (∀ h, h < 32 → u.channel (32 * stack + h) = { state := .ready }) ∧
      (∀ c, c / 32 ≠ stack → u.channel c = s.channel c) ∧ u.stk.mem = s.stk.mem) := by
  have hgo : exec (.stackTrained stack) s = .next ((List.range 32).foldl (fun s h => s.setChannel (32 * stack + h) { state := .ready })
      { s with stk := { s.stk with trained := s.stk.trained ++ [stack] } }) :=
    congrArg Host.Outcome.next (if_neg (by simpa [ht] using hs))
  refine ⟨_, hgo, by rw [foldl_setChannel], fun h hh => ?_, fun c hc => ?_, by rw [foldl_setChannel]⟩
  · rw [channel_foldl_setChannel, if_pos (by omega)]
  · rw [channel_foldl_setChannel, if_neg (by omega)]
    rfl

end

/-! ## The far tier (R428 to R433) -/

/-- From o to s nothing of the far tier has changed but the count of requests lost. -/
def FarKept (o s : State) : Prop := s.far = { o.far with lost := s.far.lost }

theorem Noted.far {s u : State} (h : Noted s u) : u.far = s.far := by rw [h.all]

/-- The work of requests leaves the far tier as it is, but for that count. -/
theorem farKept_spared (o : State) : Spared (FarKept o) := by
  refine ⟨fun {s u} h hu => ?_, id, id, id, id, id, id, fun h => ?_, id, id, id, id, id⟩
  · rw [FarKept, hu.far]
    exact h
  · unfold FarKept at h ⊢
    rw [h]

section
variable {s : State} {p : Nat}

/-- Where one port's record has been put into the far tier, that port has it, and the others stay. -/
theorem farPort_of_ports {u : State} {y : FarPort} (h : u.far.ports = s.far.ports.put p y) :
    u.farPort p = y ∧ ∀ q, q ≠ p → u.farPort q = s.farPort q := by
  rw [State.farPort, h]
  refine ⟨SMap.lookD_put_same .., fun q hq => ?_⟩
  rw [State.farPort, h]
  exact SMap.lookD_put_other _ hq ..

/-- The link of a device that appears trains (R430). -/
theorem farPresent_trains (hp : p ≤ 1) (hs : (s.farPort p).state = .empty ∨ (s.farPort p).state = .down ∨ (s.farPort p).state = .failed)
    (hk : (s.farPort p).keying = false) (hd : (s.farPort p).disabled = false) (i : FarId) (half : Bool) (width : Nat) :
    s.farPresent p i half width = s.setFarPort p { s.farPort p with
      id := some i, half := half, width := width, state := .training, linkUp := s.now, disabled := false, keying := false } := by
  have hc : (p ≤ 1 && !(s.farPort p).keying && ((s.farPort p).state = .empty || (s.farPort p).state = .down || (s.farPort p).state = .failed) : Bool)
      = true := by
    rcases hs with h | h | h <;> simp [hp, hk, h]
  simp only [State.farPresent, hc, hd, if_true, Bool.false_eq_true, if_false, State.farBring, State.farPort_setFarPort]
  simp only [State.setFarPort, SMap.put_put]

/-- A trained link waits for its keys with CXL IDE, and else its device is enumerated (R428, R430). -/
theorem farAdvance_training (hs : (s.farPort p).state = .training) : s.farAdvance p = s.setFarPort p (if (s.farPort p).ide then
    { s.farPort p with state := .down, keying := true } else { s.farPort p with state := .enumerating, keying := false, linkUp := s.now }) := by
  cases hi : (s.farPort p).ide <;> simp [State.farAdvance, hs, hi]

/-- Once the keys are set, the device is enumerated. -/
theorem farAdvance_keying (hs : (s.farPort p).state = .down) (hk : (s.farPort p).keying = true) :
    s.farAdvance p = s.setFarPort p { s.farPort p with state := .enumerating, keying := false, linkUp := s.now } := by
  simp [State.farAdvance, hs, hk]

/-- Media ready in time: the port is READY, and nothing else of the far tier or of stacked memory changes (R430). -/
theorem farReady_ready (hs : (s.farPort p).state = .enumerating) (ht : s.now ≤ (s.farPort p).linkUp + 3750000000) :
    (s.farReady p).far = (s.setFarPort p { s.farPort p with state := .ready, slots := [] }).far ∧ (s.farReady p).stk = s.stk := by
  have hc : ((s.farPort p).state = .enumerating && s.now ≤ (s.farPort p).linkUp + farReadyLimit : Bool) = true := by simp [hs, farReadyLimit, ht]
  simp only [State.farReady, hc, if_true]
  split
  · exact ⟨(itinEvent_noted ..).far, (itinEvent_noted ..).stk⟩
  · exact ⟨rfl, rfl⟩

/-- A port that is not READY within two seconds is FAILED (R430). -/
theorem farTimeout_fails (hs : (s.farPort p).state = .enumerating ∨ (s.farPort p).state = .training ∨ (s.farPort p).keying = true)
    (ht : (s.farPort p).linkUp + 3750000000 ≤ s.now) :
    (s.farTimeout p).far = (s.setFarPort p { s.farPort p with state := .failed, keying := false }).far ∧ (s.farTimeout p).stk = s.stk := by
  have hc : (((s.farPort p).state = .enumerating || (s.farPort p).state = .training || (s.farPort p).keying) &&
      (s.farPort p).linkUp + farReadyLimit ≤ s.now : Bool) = true := by
    rcases hs with h | h | h <;> simp [h, farReadyLimit, ht]
  simp only [State.farTimeout, hc, if_true]
  exact ⟨(notify_noted ..).far, (notify_noted ..).stk⟩

theorem farResponse_reads {id a : Nat} {r : MemReq} (hr : s.req id = some r) (ht : r.target = .far p a) (hs : r.stage = .served)
    (hw : r.write = false) (bytes : List Byte) : s.farResponse id false bytes = s.arrive { r with data := padTo r.len 0 bytes } .ok := by
  simp [State.farResponse, hr, ht, hs, hw]

/-- The far tier as the loss of a link leaves it, before the requests in flight end (R433). -/
def State.farLinkLost (s : State) (p : Nat) (removed : Bool) : Far :=
  { s.far with
    ports := s.far.ports.put p { s.farPort p with state := .down, ide := false, keying := false, id := if removed then none else (s.farPort p).id },
    downs := satInc s.far.downs }

/-- A link that goes down ends requests, and changes nothing else of the far tier but its port and the count. -/
theorem farDown_far (hp : p ≤ 1) (hs : (s.farPort p).state = .ready ∨ (s.farPort p).state = .enumerating ∨ (s.farPort p).state = .training ∨
    (s.farPort p).state = .failed ∨ (s.farPort p).keying = true) (removed : Bool) :
    ∃ n, (s.farDown p removed).far = { s.farLinkLost p removed with lost := n } := by
  have hc : (p ≤ 1 && (((s.farPort p).state ≠ .empty && (s.farPort p).state ≠ .down) || (s.farPort p).keying ||
      (removed && (s.farPort p).id.isSome)) : Bool) = true := by
    rcases hs with h | h | h | h | h <;> simp [hp, h]
  simp only [State.farDown, hc, if_true]
  have F := farKept_spared ({ s with far := s.farLinkLost p removed } : State)
  exact ⟨_, F.progress (F.notifyRecorded (F.farEnd (F.w1c rfl)))⟩

end

/-- Settles O48: the controllers of stacked memory, then the life of a far port. -/
theorem memoryEvents : Obligations.MemoryEvents := by
  unfold Obligations.MemoryEvents
  refine ⟨fun s q ch cc hcc => ?stacked, fun s p cc hcc hp => ?far⟩
  case stacked =>
    intro v
    have hnow : v.now = cc := at_now hcc
    refine ⟨fun h => ⟨_, rfl, memSlot_idle (s := v) (hnow ▸ h)⟩, fun r hc hw hb hs hf hl ho => ?serves,
      fun id r b off hr hs ht hb => ⟨fun hbad hsoft => ⟨_, rfl, memResponse_clean (s := v) hr hs ht hb hbad hsoft⟩,
        fun w hsoft hbad => ⟨_, rfl, memResponse_uncorrectable (s := v) hr hs ht hb hsoft hbad⟩⟩,
      fun id r st p hr hs hp => ?padded,
      fun errs hq hst => ⟨fun hd => ⟨_, refresh_runs hq hst hd errs, rfl⟩, fun hd ht => ⟨_, schedRefresh_runs hq hst hd ht errs, rfl⟩⟩,
      fun hch hr => ?retrain, fun hr => ?retrainEnd, fun h => ⟨_, remapCopy_repairs h, rfl⟩, fun die => ?adders,
      fun stack => stackTrained_readies⟩
    case serves =>
      refine ⟨_, rfl, (memSlot_serves (s := v) hc (hnow ▸ hw) (hnow ▸ hb) hs hf hl ho).trans ?_⟩
      rw [hnow]
      rfl
    case padded =>
      have he := padded_held (s := v) hr hs hp
      rw [hnow] at he
      exact ⟨fun hle => ⟨_, rfl, he.trans (if_pos hle)⟩, fun hlt => ⟨_, rfl, he.trans (if_neg (Nat.not_le.2 hlt))⟩⟩
    case retrain =>
      intro goes
      have hgoes : ∀ unscheduled, goes unscheduled (v.retrain ch unscheduled) := fun unscheduled => by
        have h := retrain_goes (s := v) hch hr unscheduled
        rw [hnow] at h
        exact h
      refine ⟨fun hd => ⟨_, congrArg Host.Outcome.next (if_neg ?_), hgoes false⟩,
        fun hd ht => ⟨_, congrArg Host.Outcome.next (if_pos ?_), hgoes false⟩,
        fun errors he => ⟨_, congrArg Host.Outcome.next (if_pos he), hgoes true⟩⟩
      · exact hd ▸ Bool.false_ne_true
      · exact Bool.and_eq_true_iff.2 ⟨hd, decide_eq_true ht⟩
    case retrainEnd =>
      refine ⟨fun hu => ⟨_, congrArg Host.Outcome.next (retrainEnd_scheduled (s := v) hr hu), ?_, fun c hc => ?_, rfl, rfl⟩,
        fun hu => ⟨_, congrArg Host.Outcome.next (retrainEnd_unscheduled (s := v) hr hu), ?_, rfl, rfl⟩⟩
      · exact State.channel_setChannel ..
      · exact State.channel_setChannel_other v hc _
      · exact State.channel_setChannel ..
    case adders =>
      refine ⟨_, adderWriteback_keeps hcc die, rfl, fun c lines hc => ?_⟩
      exact (SMap.look_map_snd ..).trans (congrArg _ hc)
  case far =>
    intro x others
    have hnow : (s.at cc).now = cc := at_now hcc
    refine ⟨fun i half width hs hk hd => ?present, farAdvance_training, farAdvance_keying, fun hs ht => ?ready, fun hs ht => ?timeout,
      fun id r a bytes hr ht hs hw => ⟨_, rfl, farResponse_reads (s := s.at cc) hr ht hs hw bytes⟩, fun removed hs => ?down⟩
    case present =>
      have he := farPresent_trains (s := s.at cc) hp hs hk hd i half width
      rw [hnow] at he
      obtain ⟨hport, hother⟩ := farPort_of_ports (s := s) (u := (s.at cc).setFarPort p _) rfl
      exact ⟨_, congrArg Host.Outcome.next he, hport, hother, rfl⟩
    case ready =>
      obtain ⟨hfar, hstk⟩ := farReady_ready (s := s.at cc) hs (hnow.trans_le ht)
      obtain ⟨hport, hother⟩ := farPort_of_ports (s := s) (congrArg Far.ports hfar)
      exact ⟨_, rfl, hport, hother, hstk⟩
    case timeout =>
      obtain ⟨hfar, hstk⟩ := farTimeout_fails (s := s.at cc) hs (ht.trans_eq hnow.symm)
      obtain ⟨hport, hother⟩ := farPort_of_ports (s := s) (congrArg Far.ports hfar)
      exact ⟨_, rfl, hport, hother, hstk⟩
    case down =>
      obtain ⟨n, hfar⟩ := farDown_far (s := s.at cc) hp hs removed
      obtain ⟨hport, hother⟩ := farPort_of_ports (s := s) (congrArg Far.ports hfar)
      have hdowns := congrArg Far.downs hfar
      have hwindows := congrArg Far.windows hfar
      refine ⟨_, rfl, ?_⟩
      dsimp only
      rw [hport]
      exact ⟨rfl, rfl, rfl, rfl, hother, hdowns, hwindows⟩

end Sys2Proof.Machine
end

section
namespace Sys2Proof.Machine

/-! ## Home cells (R184 to R186, R190, R193, R195) -/

/-- What notices and records are made of is none of Meridian's. -/
theorem Noted.mer {s u : State} (h : Noted s u) : u.mer = s.mer := by rw [h.all]

/-! ### Replies -/

/-- What a reply tells the tile: the registration, the tile and strand that made it, and the word for RD. -/
def MerReply.answer (r : MerReply) : Nat × Nat × Nat × Word := (r.reg, r.tile, r.strand, r.result)

/-- The release of a waiter with an INFO field (R190). -/
def MerWaiter.release (info : Nat) (w : MerWaiter) : Nat × Nat × Nat × Word := (w.reg, w.tile, w.strand, waitResult .arrived false info)

/-- From s to u the objects stay, and the replies with these answers have been queued, in this order. -/
structure Replied (s u : State) (answers : List (Nat × Nat × Nat × Word)) : Prop where
  objs  : u.mer.objs = s.mer.objs
  queue : ∃ rs, u.mer.replies = s.mer.replies ++ rs ∧ rs.map MerReply.answer = answers

section
variable {s t u : State} {as bs : List (Nat × Nat × Nat × Word)}

theorem Replied.refl (s : State) : Replied s s [] := ⟨rfl, [], (List.append_nil _).symm, rfl⟩

theorem Replied.trans (h : Replied s t as) (h' : Replied t u bs) : Replied s u (as ++ bs) := by
  obtain ⟨ho, rs, hr, ha⟩ := h
  obtain ⟨ho', rs', hr', ha'⟩ := h'
  exact ⟨ho'.trans ho, rs ++ rs', by rw [hr', hr, List.append_assoc], by rw [List.map_append, ha, ha']⟩

/-- Nothing was answered on the way to the state in which the cell writes its object. -/
theorem Replied.setObj (h : Replied s t []) (obj : Nat) (o : MerObj) : Replied (s.setObj obj o) (t.setObj obj o) [] := by
  obtain ⟨ho, rs, hr, ha⟩ := h
  exact ⟨congrArg (SMap.put · obj o) ho, rs, hr, ha⟩

theorem merReply_replied (s : State) (datum : Bool) (reg tile strand obj : Nat) (result : Word) (expiry decided : Option Nat)
    (stamp sig : Nat) (unit : Bool) :
    Replied s (s.merReply datum reg tile strand obj result expiry decided stamp sig unit) [(reg, tile, strand, result)] :=
  ⟨rfl, [_], rfl, rfl⟩

theorem merRelease_replied (s : State) (datum : Bool) (obj : Nat) (w : MerWaiter) (info : Nat) (decided : Option Nat) (sig : Nat) (unit : Bool) :
    Replied s (s.merRelease datum obj w info decided sig unit) [w.release info] := merReply_replied ..

/-- Waiters released one by one are answered in registration order. -/
theorem foldl_merRelease_replied (part obj info : Nat) (decided : Option Nat) (sig : Nat) (unit : Bool) (ws : List MerWaiter) (s : State) :
    Replied s (ws.foldl (fun s w => s.merRelease (s.partDatum part) obj w info decided sig unit) s) (ws.map (MerWaiter.release info)) := by
  induction ws generalizing s with
  | nil => exact .refl s
  | cons w ws ih => exact (merRelease_replied s _ obj w info decided sig unit).trans (ih _)

/-- A barrier generation completes: every waiter is released with the generation that ends (R185). -/
theorem merComplete_replied (s : State) (obj : Nat) (o : MerObj) (decided : Option Nat) (sig : Nat) :
    Replied (s.setObj obj { o with value := 0, gen := (o.gen + 1) % 2 ^ 32, waiters := [] }) (s.merComplete obj o decided sig)
      (o.waiters.map (MerWaiter.release o.gen)) := foldl_merRelease_replied ..

end

/-! ### Transfers that are taken -/

section
variable {s : State} {x : MerXfer} {o : MerObj}

/-- A cell that may take a transfer whole applies it. -/
theorem State.Takes.applies (h : s.Takes x o) : exec (.merHomeApply x.id true) s = .next (s.merApply x) := by
  obtain ⟨hfind, hfree, -⟩ := h
  have hrun : exec (.merHomeApply x.id true) s = .next (match s.mer.xfers.find? (fun y => y.id = x.id) with
    | some x => if true && !s.merBlocked x then s.merApply x else s
    | none => s) := rfl
  rw [hrun, hfind]
  simp [hfree]

/-- The state in which the cell acts on a transfer: it is no longer under way, and the join has it as its last (R193). -/
def State.merTaken (s : State) (x : MerXfer) : State :=
  s.setMer { s.mer with xfers := s.mer.xfers.filter (fun y => y.id ≠ x.id), joined := s.mer.joined.put x.obj (s.now, x.place) }

/-- The same with the acknowledgement of a tile's signal on its way (R189). -/
def State.merAcked (s : State) (x : MerXfer) (e : Option Nat) : State :=
  (s.merTaken x).setMer { (s.merTaken x).mer with acks := s.mer.acks ++ [⟨x.id, x.tile, e, x.stamp, match x.part with
    | some p => s.partDatum p
    | none => false⟩] }

theorem merTaken_replied (s : State) (x : MerXfer) : Replied s (s.merTaken x) [] := ⟨rfl, [], (List.append_nil _).symm, rfl⟩

theorem merAcked_replied (s : State) (x : MerXfer) (e : Option Nat) : Replied s (s.merAcked x e) [] := ⟨rfl, [], (List.append_nil _).symm, rfl⟩

/-- A signal of a strand or an engine that may name its object is applied; only an EVENT is cleared. -/
theorem State.Takes.signals (h : s.Takes x o) (hname : x.mayName o = true) (hsrc : x.src ≠ .kci) {clear : Bool} (hact : x.act = .signal clear)
    (hclear : clear = true → o.kind = .event) :
    ∃ v : State, Replied s v [] ∧ v.mer.ovf = s.mer.ovf ∧ exec (.merHomeApply x.id true) s = .next (v.merSignal x o clear) := by
  rw [h.applies]
  obtain ⟨-, -, hobj⟩ := h
  have hgo : (clear && decide (o.kind ≠ .event)) = false := by
    cases clear with
    | false => rfl
    | true => simp [hclear rfl]
  cases hs : x.src with
  | kci => exact absurd hs hsrc
  | strand =>
    refine ⟨s.merAcked x none, merAcked_replied .., rfl, congrArg Host.Outcome.next ?_⟩
    simp only [State.merApply, hact, hs, State.mer_setMer, hobj, hname, hgo, MerXfer.isWithdraw, Bool.not_true, Bool.false_eq_true, if_false]
    rfl
  | engine e =>
    refine ⟨s.merAcked x (some e), merAcked_replied .., rfl, congrArg Host.Outcome.next ?_⟩
    simp only [State.merApply, hact, hs, State.mer_setMer, hobj, hname, hgo, MerXfer.isWithdraw, Bool.not_true, Bool.false_eq_true, if_false]
    rfl

/-- A registration of one that may name its object is applied. -/
theorem State.Takes.waits (h : s.Takes x o) (hname : x.mayName o = true) {e : Option Nat} (hact : x.act = .wait e) :
    ∃ v : State, Replied s v [] ∧ exec (.merHomeApply x.id true) s = .next (v.merWait x o e) := by
  rw [h.applies]
  obtain ⟨-, -, hobj⟩ := h
  refine ⟨s.merTaken x, merTaken_replied .., congrArg Host.Outcome.next ?_⟩
  simp only [State.merApply, hact, State.mer_setMer, hobj, hname, MerXfer.isWithdraw, Bool.not_true, Bool.false_eq_true, if_false]
  rfl

end

section
variable {s : State} {x : MerXfer} {o : MerObj}

/-! ### What a signal does (R184 to R186) -/

theorem setObj_twice (s : State) (obj : Nat) (o p : MerObj) : (s.setObj obj o).setObj obj p = s.setObj obj p := by
  simp only [State.setObj, State.setMer, SMap.put_put]

/-- The object with the word of its last signaller. -/
def MerObj.signalled (o : MerObj) (x : MerXfer) : MerObj := { o with last := x.lastWord }

/-- A signal of a tile to a COUNT gives one unit. -/
theorem merSignal_count (hk : o.kind = .count) (hsrc : x.src ≠ .kci) (clear : Bool) : s.merSignal x o clear =
    ((s.setObj x.obj (o.signalled x)).merUnit x.obj (o.signalled x) (some x.stamp) x.id).1 := by
  unfold State.merSignal
  simp [hk, hsrc, MerObj.signalled]

/-- A unit goes to the earliest waiter. -/
theorem merUnit_waiter {obj : Nat} {w : MerWaiter} {ws : List MerWaiter} (hw : o.waiters = w :: ws) (decided : Option Nat) (sig : Nat) :
    Replied (s.setObj obj { o with waiters := ws }) (s.merUnit obj o decided sig).1 [w.release 0] := by
  simp only [State.merUnit, hw]
  exact merRelease_replied ..

/-- Without a waiter it raises VALUE. -/
theorem merUnit_raises {obj : Nat} (hw : o.waiters = []) (hv : o.value < 0xFFFFFFFF) (decided : Option Nat) (sig : Nat) :
    (s.merUnit obj o decided sig).1 = s.setObj obj { o with value := o.value + 1 } := by
  have hne : o.value ≠ 0xFFFFFFFF := Nat.ne_of_lt hv
  simp only [State.merUnit, hw, hne, if_false]

/-- At the largest VALUE it is counted and noticed (R186). -/
theorem merUnit_overflows {obj : Nat} (hw : o.waiters = []) (hv : o.value = 0xFFFFFFFF) (decided : Option Nat) (sig : Nat) :
    (s.merUnit obj o decided sig).1 = ((s.setMer { s.mer with ovf := satInc s.mer.ovf }).tally 0x11020).notify .countOverflow .ok (some o.part) obj 0
      (.die (merDie obj)) := by
  simp only [State.merUnit, hw, hv, if_true]

/-- A signal to an EVENT sets it and releases every waiter. -/
theorem merSignal_event_set (hk : o.kind = .event) (hsrc : x.src ≠ .kci) :
    Replied (s.setObj x.obj { o with value := 1, waiters := [], last := x.lastWord }) (s.merSignal x o false)
      (o.waiters.map (MerWaiter.release 0)) := by
  have he : s.merSignal x o false = o.waiters.foldl (fun s w => s.merRelease (s.partDatum o.part) x.obj w 0 (some x.stamp) x.id false)
      (s.setObj x.obj { o with value := 1, waiters := [], last := x.lastWord }) := by
    unfold State.merSignal
    simp [hk, hsrc]
  rw [he]
  exact foldl_merRelease_replied ..

theorem merSignal_event_clear (hk : o.kind = .event) : s.merSignal x o true = s.setObj x.obj { o with value := 0, last := x.lastWord } := by
  unfold State.merSignal
  simp only [hk]

/-- The arrival that reaches the TARGET of a BARRIER completes its generation. -/
theorem merSignal_barrier_completes (hk : o.kind = .barrier) (hsrc : x.src ≠ .kci) (ht : o.value + 1 = o.target) :
    s.merSignal x o false = s.merComplete x.obj (o.signalled x) (some x.stamp) x.id := by
  unfold State.merSignal
  simp [hk, hsrc, ht, MerObj.signalled]

/-! ### What a registration does (R184, R185, R190) -/

/-- A wait takes a unit of a COUNT at once. -/
theorem merWait_unit (hk : o.kind = .count) (hv : 0 < o.value) (e : Option Nat) :
    Replied (s.setObj x.obj { o with value := o.value - 1 }) (s.merWait x o e)
      [(x.reg, x.tile, x.strand, waitResult .arrived true (o.value - 1))] := by
  simp only [State.merWait, hk, hv, if_true]
  exact merReply_replied ..

/-- A wait is the arrival that completes a BARRIER: its own answer comes after those of the waiters. -/
theorem merWait_barrier_completes (hk : o.kind = .barrier) (ht : o.value + 1 = o.target) (e : Option Nat) :
    Replied (s.setObj x.obj { o with value := 0, gen := (o.gen + 1) % 2 ^ 32, waiters := [] }) (s.merWait x o e)
      (o.waiters.map (MerWaiter.release o.gen) ++ [(x.reg, x.tile, x.strand, waitResult .arrived true o.gen)]) := by
  have he : s.merWait x o e = (s.merComplete x.obj o (some x.stamp) x.id).merReply (s.partDatum o.part) x.reg x.tile x.strand x.obj
      (waitResult .arrived true o.gen) (if s.partDatum o.part then none else e) (some x.stamp) x.stamp x.id false := by
    simp only [State.merWait, hk, ht, if_true]
  rw [he]
  exact (merComplete_replied ..).trans (merReply_replied ..)

end

/-! ### The obligations -/

/-- Settles O22: the signal gives a unit to a COUNT that can hold no more. -/
theorem countOverflow : Obligations.CountOverflow := by
  unfold Obligations.CountOverflow
  intro s x o h hname hact hsrc hk hv hw
  obtain ⟨v, -, hovf, hrun⟩ := h.signals hname hsrc hact nofun
  have he := (merSignal_count (s := v) hk hsrc false).trans (merUnit_overflows (o := o.signalled x) hw hv (some x.stamp) x.id)
  rw [he] at hrun
  refine ⟨_, hrun, ?_, ?_, _, rfl⟩
  · rw [(notify_noted ..).mer]
    exact ⟨o.signalled x, SMap.look_put_same .., hv, hw⟩
  · rw [(notify_noted ..).mer]
    exact congrArg satInc hovf

section
variable {s u v : State} {x : MerXfer} {o o' : MerObj} {as : List (Nat × Nat × Nat × Word)}

/-- What a cell that wrote its object and queued replies leaves, from the state in which it took the transfer. -/
theorem Replied.cell (hv : Replied s v []) (h : Replied (v.setObj x.obj o') u as) : u.mer.objs.look x.obj = some o' ∧
    (∀ b, b ≠ x.obj → u.mer.objs.look b = s.mer.objs.look b) ∧
    ∃ rs, u.mer.replies = s.mer.replies ++ rs ∧ rs.map MerReply.answer = as := by
  obtain ⟨hobjs, rs, hr, ha⟩ := (hv.setObj x.obj o').trans h
  refine ⟨?_, fun b hb => ?_, rs, hr, ha⟩
  · rw [hobjs]
    exact SMap.look_put_same ..
  · rw [hobjs]
    exact SMap.look_put_other _ hb _

/-- From s to u object a has become o, the others stay, and replies with these registrations and results have been queued. -/
def CellLeaves (s u : State) (a : Nat) (o : MerObj) (rs : List (Nat × Word)) : Prop :=
  u.mer.objs.look a = some o ∧ (∀ b, b ≠ a → u.mer.objs.look b = s.mer.objs.look b) ∧
    ∃ l : List MerReply, u.mer.replies = s.mer.replies ++ l ∧ l.map (fun r => (r.reg, r.result)) = rs

theorem Replied.leaves (hv : Replied s v []) (h : Replied (v.setObj x.obj o') u as) :
    CellLeaves s u x.obj o' (as.map (fun a => (a.1, a.2.2.2))) := by
  obtain ⟨hlook, hother, l, hl, ha⟩ := hv.cell h
  refine ⟨hlook, hother, l, hl, ?_⟩
  rw [← ha, List.map_map]
  rfl

/-- A signal that is taken leaves what it does to the cell. -/
theorem State.Takes.signal_leaves (h : s.Takes x o) (hname : x.mayName o = true) (hsrc : x.src ≠ .kci) {clear : Bool}
    (hact : x.act = .signal clear) (hclear : clear = true → o.kind = .event)
    (hcell : ∀ v : State, Replied (v.setObj x.obj o') (v.merSignal x o clear) as) :
    Yields (.merHomeApply x.id true) s (fun u => CellLeaves s u x.obj o' (as.map (fun a => (a.1, a.2.2.2)))) := by
  obtain ⟨v, hv, -, hrun⟩ := h.signals hname hsrc hact hclear
  exact ⟨_, hrun, hv.leaves (hcell v)⟩

/-- A signal to a COUNT, with a waiter and without. -/
theorem count_signal_releases (h : s.Takes x o) (hname : x.mayName o = true) (hsrc : x.src ≠ .kci) (hk : o.kind = .count)
    (hact : x.act = .signal false) {w : MerWaiter} {ws : List MerWaiter} (hw : o.waiters = w :: ws) :
    Yields (.merHomeApply x.id true) s (fun u =>
      CellLeaves s u x.obj { o with waiters := ws, last := x.lastWord } [(w.reg, waitResult .arrived false 0)]) := by
  refine h.signal_leaves hname hsrc hact nofun (as := [w.release 0]) fun v => ?_
  have hunit := merUnit_waiter (s := v.setObj x.obj (o.signalled x)) (o := o.signalled x) (obj := x.obj) hw (some x.stamp) x.id
  rw [setObj_twice] at hunit
  rwa [merSignal_count hk hsrc]

theorem count_signal_raises (h : s.Takes x o) (hname : x.mayName o = true) (hsrc : x.src ≠ .kci) (hk : o.kind = .count)
    (hact : x.act = .signal false) (hw : o.waiters = []) (hval : o.value < 0xFFFFFFFF) :
    Yields (.merHomeApply x.id true) s (fun u => CellLeaves s u x.obj { o with value := o.value + 1, last := x.lastWord } []) := by
  refine h.signal_leaves hname hsrc hact nofun (as := []) fun v => ?_
  rw [merSignal_count hk hsrc, merUnit_raises (o := o.signalled x) hw hval, setObj_twice]
  exact .refl _

/-- A wait at a COUNT with units. -/
theorem count_wait_takes (h : s.Takes x o) (hname : x.mayName o = true) (hk : o.kind = .count) {e : Option Nat} (hact : x.act = .wait e)
    (hval : 0 < o.value) : Yields (.merHomeApply x.id true) s (fun u =>
      CellLeaves s u x.obj { o with value := o.value - 1 } [(x.reg, waitResult .arrived true (o.value - 1))]) := by
  obtain ⟨v, hv, hrun⟩ := h.waits hname hact
  exact ⟨_, hrun, hv.leaves (merWait_unit hk hval e)⟩

/-- A signal that sets an EVENT. -/
theorem event_signal_releases (h : s.Takes x o) (hname : x.mayName o = true) (hsrc : x.src ≠ .kci) (hk : o.kind = .event)
    (hact : x.act = .signal false) : Yields (.merHomeApply x.id true) s (fun u =>
      CellLeaves s u x.obj { o with value := 1, waiters := [], last := x.lastWord } (o.waiters.map (fun w => (w.reg, waitResult .arrived false 0)))) := by
  have hmap : (o.waiters.map (MerWaiter.release 0)).map (fun a => (a.1, a.2.2.2)) = o.waiters.map (fun w => (w.reg, waitResult .arrived false 0)) :=
    List.map_map
  rw [← hmap]
  exact h.signal_leaves hname hsrc hact nofun fun v => merSignal_event_set hk hsrc

/-- A cleared EVENT keeps its waiters. -/
theorem event_signal_clears (h : s.Takes x o) (hname : x.mayName o = true) (hsrc : x.src ≠ .kci) (hk : o.kind = .event)
    (hact : x.act = .signal true) :
    Yields (.merHomeApply x.id true) s (fun u => CellLeaves s u x.obj { o with value := 0, last := x.lastWord } []) := by
  refine h.signal_leaves hname hsrc hact (fun _ => hk) (as := []) fun v => ?_
  rw [merSignal_event_clear hk]
  exact .refl _

/-- The arrival that completes a BARRIER, by a signal or by a wait; the wait is answered after the waiters. -/
theorem barrier_signal_completes (h : s.Takes x o) (hname : x.mayName o = true) (hsrc : x.src ≠ .kci) (hk : o.kind = .barrier)
    (ht : o.value + 1 = o.target) (hact : x.act = .signal false) : Yields (.merHomeApply x.id true) s (fun u =>
      u.mer.objs.look x.obj = some { o with value := 0, gen := (o.gen + 1) % 2 ^ 32, waiters := [], last := x.lastWord } ∧
      ∃ rs, u.mer.replies = s.mer.replies ++ rs ∧ rs.map MerReply.answer = o.waiters.map (MerWaiter.release o.gen)) := by
  obtain ⟨v, hv, -, hrun⟩ := h.signals hname hsrc hact nofun
  rw [merSignal_barrier_completes hk hsrc ht] at hrun
  obtain ⟨hlook, -, hrs⟩ := hv.cell (merComplete_replied v x.obj (o.signalled x) (some x.stamp) x.id)
  exact ⟨_, hrun, hlook, hrs⟩

theorem barrier_wait_completes (h : s.Takes x o) (hname : x.mayName o = true) (hk : o.kind = .barrier)
    (ht : o.value + 1 = o.target) {e : Option Nat} (hact : x.act = .wait e) : Yields (.merHomeApply x.id true) s (fun u =>
      u.mer.objs.look x.obj = some { o with value := 0, gen := (o.gen + 1) % 2 ^ 32, waiters := [] } ∧
      ∃ rs r, u.mer.replies = s.mer.replies ++ rs ++ [r] ∧ rs.map MerReply.answer = o.waiters.map (MerWaiter.release o.gen) ∧
        r.answer = (x.reg, x.tile, x.strand, waitResult .arrived true o.gen)) := by
  obtain ⟨v, hv, hrun⟩ := h.waits hname hact
  obtain ⟨hlook, -, l, hl, ha⟩ := hv.cell (merWait_barrier_completes hk ht e)
  obtain ⟨rs, last, rfl, hrs, hlast⟩ := List.map_eq_append_iff.1 ha
  obtain ⟨r, rfl, hr⟩ := List.map_eq_singleton_iff.1 hlast
  exact ⟨_, hrun, hlook, rs, r, hl.trans (List.append_assoc ..).symm, hrs, hr⟩

end

/-- Settles O23: each kind of object, with each transfer that the statement names. -/
theorem homeCell : Obligations.HomeCell := by
  unfold Obligations.HomeCell
  constructor
  · intro s x o h hname hsrc after
    exact ⟨fun hk hact => ⟨fun w ws => count_signal_releases h hname hsrc hk hact, count_signal_raises h hname hsrc hk hact⟩,
      fun e hk hact => count_wait_takes h hname hk hact, event_signal_releases h hname hsrc, event_signal_clears h hname hsrc⟩
  · intro s x o h hname hk ht released
    refine ⟨fun hact hsrc => ?_, fun e hact => ?_⟩
    · refine (barrier_signal_completes h hname hsrc hk ht hact).mono fun u ⟨hlook, rs, hr, ha⟩ => ⟨?_, rs, ha, fun ⟨e, he⟩ => ?_, fun _ => hr⟩
      · rw [SMap.lookD, hlook]
        rfl
      · exact absurd (hact.symm.trans he) nofun
    · refine (barrier_wait_completes h hname hk ht hact).mono fun u ⟨hlook, rs, r, hr, ha, hans⟩ =>
        ⟨?_, rs, ha, fun _ => ⟨r, hr, congrArg (·.2.2.2) hans, congrArg (·.1) hans⟩, fun he => ?_⟩
      · rw [SMap.lookD, hlook]
        rfl
      · exact absurd (hact.symm.trans he) nofun

end Sys2Proof.Machine
end

section
namespace Sys2Proof.Machine

/-! ## Meridian instructions (R188 to R190, R197) -/

/-! ### Sending -/

/-- What begins in partitions changes nothing of Meridian but the deadlock detector's windows and episodes (R209). -/
theorem foldl_stir_mer (ps : List Nat) (s : State) : ∃ since dl, (ps.foldl State.stir s).mer = { s.mer with since := since, dl := dl } := by
  induction ps generalizing s with
  | nil => exact ⟨_, _, rfl⟩
  | cons p ps ih => exact ih (s.stir p)

/-- A transfer that is sent takes the next number and follows those under way; the objects stay. -/
theorem merSend_sends (s : State) (x : MerXfer) :
    (s.merSend x).mer.xfers = s.mer.xfers ++ [{ x with id := s.mer.next }] ∧ (s.merSend x).mer.objs = s.mer.objs := by
  obtain ⟨since, dl, h⟩ := foldl_stir_mer (x.part.toList ++ ((s.mer.objs.look x.obj).map (·.part)).toList) s
  simp only [State.merSend, State.mer_setMer, h, and_self]

theorem merSend_tile (s : State) (x : MerXfer) (t : Nat) : (s.merSend x).tile t = s.tile t := by rw [State.tile, merSend_grid, State.tile]

/-- The transfer that the current strand of tile t sends next. -/
def State.strandXfer (s : State) (t obj : Nat) (act : MerAct) (reg : Nat) : MerXfer :=
  { id := s.mer.next, obj := obj, act := act, src := .strand, tile := t, strand := (s.tile t).current, part := (s.tile t).part,
    stamp := s.timebase, reg := reg }

/-! ### The sequencer -/

section
variable {s : State} {t p obj : Nat} {ls : List Loop} {i : Instr}

theorem objOf_fits {w : Word} (h : w.toNat < 2 ^ 14) : objOf w = some w.toNat := if_pos h

/-- An instruction whose strand waits for something. -/
theorem seqRun_wait {u : State} {w : Wait} {f : Tile → SeqOut} (h : s.Falls t p ls) (hf : f (s.tile t) = .wait u w) :
    seqRun t s f = u.setTile t { (u.tile t).setStrand (u.tile t).current
      { (u.tile t).strand (u.tile t).current with state := .waiting, wait := w } with issued := 0 } := by
  simp only [seqRun, h.runs, hf, Bool.not_true, Bool.false_eq_true, if_false]

/-- A registration or a read: its transfer, the strand that waits for the reply, and what stays. -/
theorem merIssue_yields {f : Tile → SeqOut} {rd : Reg} {act : MerAct} {timeout : Option Nat} (h : s.Falls t p ls)
    (hi : exec i s = .next (seqRun t s f)) (hf : f (s.tile t) = s.merIssue t (s.tile t) obj rd act timeout) :
    Yields i s (fun u => u.mer.xfers = s.mer.xfers ++ [s.strandXfer t obj act s.mer.next] ∧
      (u.tile t).strand (s.tile t).current = { (s.tile t).strand (s.tile t).current with
        state := .waiting, wait := .meridian obj rd.toNat s.mer.next s.now (timeout.map (s.now + ·)) false } ∧
      (∀ r, (u.tile t).reg r = (s.tile t).reg r) ∧ (u.tile t).scratch = (s.tile t).scratch ∧ (∀ v, v ≠ t → u.tile v = s.tile v) ∧
      u.mer.objs = s.mer.objs) := by
  refine ⟨_, hi.trans (congrArg _ (seqRun_wait h hf)), ?_⟩
  beta_reduce
  obtain ⟨hxfers, hobjs⟩ := merSend_sends s { s.strandXfer t obj act s.mer.next with id := 0 }
  rw [State.setTile_mer, State.tile_setTile, merSend_tile]
  refine ⟨hxfers, Tile.strand_setStrand .., Tile.reg_setStrand _ rfl rfl rfl, rfl, fun v hv => ?_, hobjs⟩
  rw [State.tile_setTile_other _ hv, merSend_tile]

/-- MSIGNAL takes one of the tile's entries, sends its signal, and falls through (R188, R189). -/
theorem msignal_yields {ra : Reg} {imm : Imm} (h : s.Falls t p ls) (hobj : ((s.tile t).reg ra).toNat < 2 ^ 14) (himm : imm.toNat < 2)
    (hfree : (s.tile t).signals < 64) : Yields (.msignal t ra imm) s (fun u =>
      u.mer.xfers = s.mer.xfers ++ [s.strandXfer t ((s.tile t).reg ra).toNat (.signal (imm.toNat = 1)) 0] ∧ At u t p ls ∧
      (u.tile t).signals = (s.tile t).signals + 1 ∧ (∀ r, (u.tile t).reg r = (s.tile t).reg r) ∧ (u.tile t).scratch = (s.tile t).scratch ∧
      (∀ v, v ≠ t → u.tile v = s.tile v) ∧ u.mer.objs = s.mer.objs) := by
  let y : Tile := { s.tile t with signals := (s.tile t).signals + 1 }
  let v := (s.setTile t y).tileSignal t ((s.tile t).reg ra).toNat (s.tile t).current .strand (imm.toNat = 1)
  have hv : v.tile t = y := (merSend_tile ..).trans (State.tile_setTile ..)
  have hother : ∀ w, w ≠ t → v.tile w = s.tile w := fun w hw => (merSend_tile ..).trans (State.tile_setTile_other s hw y)
  have hfall : (v.tile t).fallThrough (v.tile t).pc = (some p, ls) := hv ▸ h.falls
  have hrun : exec (.msignal t ra imm) s = .next (v.seqNext t) := by
    refine congrArg Host.Outcome.next (seqRun_next h ?_)
    simp only [objOf_fits hobj, Nat.not_le.2 himm, Nat.not_le.2 hfree, if_false]
    rfl
  have hsent : v.mer.xfers = s.mer.xfers ++ [s.strandXfer t ((s.tile t).reg ra).toNat (.signal (imm.toNat = 1)) 0] := by
    refine (merSend_sends ..).1.trans ?_
    rw [State.tile_setTile]
    rfl
  let z : Tile := { y.goTo p with loops := ls }
  have hz : (v.setTile t z).tile t = z := State.tile_setTile ..
  refine ⟨v.setTile t z, hrun.trans (congrArg _ ((seqNext_falls hfall).trans (by rw [hv]))), hsent, ⟨?_, ?_⟩, ?_, fun r => ?_, ?_, fun w hw => ?_,
    (merSend_sends ..).2⟩
  · rw [hz]
    exact Tile.goTo_pc y p
  · rw [hz]
  · rw [hz]
    change (y.goTo p).signals = y.signals
    rw [Tile.goTo_shape]
  · rw [hz]
    exact Tile.goTo_reg y p r
  · rw [hz]
    change (y.goTo p).scratch = y.scratch
    rw [Tile.goTo_shape]
  · exact (State.tile_setTile_other v hw z).trans (hother w hw)

end

/-- Settles O21: a signal, and the three instructions that wait for a reply. -/
theorem meridianInstructions : Obligations.MeridianInstructions := by
  unfold Obligations.MeridianInstructions
  intro s t p ls rd ra imm h x obj sends waits hobj
  have hfits : objOf (x.reg ra) = some obj := objOf_fits hobj
  have hwaits : ∀ {i : Instr} {f : Tile → SeqOut} (act : MerAct) (timeout : Option Nat), exec i s = .next (seqRun t s f) →
      f x = s.merIssue t x obj rd act timeout → act ≠ .signal (imm.toNat = 1) →
      Yields i s (fun u => sends u act ∧ waits u (timeout.map (s.now + ·))) := by
    intro i f act timeout hi hf hact
    refine (merIssue_yields h hi hf).mono fun u ⟨hsent, hrest⟩ => ⟨?_, hrest⟩
    simp only [sends, if_neg hact]
    exact hsent
  refine ⟨fun himm hfree => (msignal_yields h hobj himm hfree).mono fun u ⟨hsent, hrest⟩ => ⟨?_, hrest⟩, hwaits (.wait none) none rfl ?_ nofun,
    hwaits (.wait (some (s.timebase + imm.toNat))) (some imm.toNat) rfl ?_ nofun, fun himm => hwaits (.read imm.toNat) none rfl ?_ nofun⟩
  · simp only [sends, if_true]
    exact hsent
  · simp only [hfits]
  · simp only [hfits]
  · simp only [hfits, Nat.not_le.2 himm, if_false]

end Sys2Proof.Machine
end

section
namespace Sys2Proof.Machine

/-! ## Replies, expiries and acknowledgements at the tile (R189, R190, R197, R202) -/

/-! ### Registers of any strand (R78) -/

/-- A register written reads back for the same strand, but for g0, which reads zero. -/
theorem Tile.regOf_setRegOf_same {x : Tile} (hg : x.g.length = 29) (n : Nat) {r : Nat} (hr : r < 32) (v : Word) :
    (x.setRegOf n r v).regOf n r = if r = 0 then 0 else v := by
  have hcases : r = 0 ∨ (r ≠ 0 ∧ r < 29) ∨ r = 29 ∨ r = 30 ∨ r = 31 := by omega
  rcases hcases with rfl | ⟨h0, hlt⟩ | rfl | rfl | rfl
  · rfl
  · simp [Tile.setRegOf, Tile.regOf, h0, hlt, nth, hg]
  · simp [Tile.setRegOf, Tile.regOf]
  · simp [Tile.setRegOf, Tile.regOf]
  · simp [Tile.setRegOf, Tile.regOf]

/-- A write to a register leaves the strands' flow and the loops. -/
theorem Tile.setRegOf_flow (x : Tile) (n r : Nat) (v : Word) :
    ((x.setRegOf n r v).strand n).pc = (x.strand n).pc ∧ (x.setRegOf n r v).loops = x.loops := by
  unfold Tile.setRegOf
  split
  · exact ⟨rfl, rfl⟩
  · split
    · exact ⟨rfl, rfl⟩
    · split
      · exact ⟨by rw [Tile.strand_setStrand], rfl⟩
      · split <;> exact ⟨by rw [Tile.strand_setStrand], rfl⟩

theorem Tile.setRegOf_fallThroughOf (x : Tile) (n r : Nat) (v : Word) (a : Nat) :
    (x.setRegOf n r v).fallThroughOf n a = x.fallThroughOf n a := by
  simp only [Tile.fallThroughOf, (x.setRegOf_flow n r v).2]

/-- A strand that goes on keeps its registers. -/
theorem Tile.regOf_passed (x : Tile) (n p : Nat) (ls : List Loop) (r : Nat) : (x.passed n p ls).regOf n r = x.regOf n r := by
  simp only [Tile.regOf, Tile.strand_passed]
  rfl

/-! ### Delivery -/

section
variable {s : State} {cc : Nat}

/-- The state in which a reply has left the network and its result stands in RD. -/
def State.delivered (s : State) (r : MerReply) (rd : Nat) : State :=
  (s.setMer { s.mer with replies := s.mer.replies.filter (fun q => q.id ≠ r.id) }).setTile r.tile
    ((s.tile r.tile).setRegOf r.strand rd r.result)

theorem State.delivered_tile (s : State) (r : MerReply) (rd : Nat) :
    (s.delivered r rd).tile r.tile = (s.tile r.tile).setRegOf r.strand rd r.result := State.tile_setTile ..

/-- A reply of no timed wait is delivered, without LATE_TIE, to the strand that waits for its registration. -/
theorem merDeliver_eq {r : MerReply} {obj rd i : Nat} {wd : Bool} (hexp : r.expiry = none)
    (hst : ((s.tile r.tile).strand r.strand).state = .waiting)
    (hw : ((s.tile r.tile).strand r.strand).wait = .meridian obj rd r.reg i none wd) :
    s.merDeliver r = (s.delivered r rd).passFence r.tile r.strand := by
  have htile : (s.setMer { s.mer with replies := s.mer.replies.filter (fun q => q.id ≠ r.id) }).tile r.tile = s.tile r.tile := rfl
  have hresult : BitVec.ofNat 64 (r.result.toNat + 0) = r.result := BitVec.ofNat_toNat ..
  simp only [State.merDeliver, htile, hw, hst, hexp, decide_true, Bool.and_self, if_true]
  exact congrArg (fun w => State.passFence (State.setTile _ r.tile ((s.tile r.tile).setRegOf r.strand rd w)) r.tile r.strand) hresult

/-- It writes RD and lets the strand run (R190). -/
theorem merDeliver_wakes {r : MerReply} {p obj rd i : Nat} {ls : List Loop} {wd : Bool} (hg : (s.tile r.tile).g.length = 29) (hrd : rd < 32)
    (hexp : r.expiry = none) (hst : ((s.tile r.tile).strand r.strand).state = .waiting)
    (hw : ((s.tile r.tile).strand r.strand).wait = .meridian obj rd r.reg i none wd)
    (hfall : (s.tile r.tile).fallThroughOf r.strand ((s.tile r.tile).strand r.strand).pc = (some p, ls)) :
    ((s.merDeliver r).tile r.tile).regOf r.strand rd = (if rd = 0 then 0 else r.result) ∧
      (((s.merDeliver r).tile r.tile).strand r.strand).state = .runnable ∧ (((s.merDeliver r).tile r.tile).strand r.strand).pc = p ∧
      (s.merDeliver r).mer.replies = s.mer.replies.filter (fun q => q.id ≠ r.id) ∧ (∀ v, v ≠ r.tile → (s.merDeliver r).tile v = s.tile v) := by
  have hgoes : ((s.delivered r rd).tile r.tile).fallThroughOf r.strand (((s.delivered r rd).tile r.tile).strand r.strand).pc = (some p, ls) := by
    rw [State.delivered_tile, Tile.setRegOf_fallThroughOf, ((s.tile r.tile).setRegOf_flow r.strand rd r.result).1, hfall]
  rw [merDeliver_eq hexp hst hw, passFence_falls hgoes, State.tile_setTile, Tile.regOf_passed, Tile.strand_passed, State.delivered_tile]
  refine ⟨Tile.regOf_setRegOf_same hg _ hrd _, rfl, rfl, rfl, fun v hv => ?_⟩
  rw [State.tile_setTile_other _ hv]
  exact State.tile_setTile_other _ hv _

/-- A reply that needs no sample point is delivered when it reaches its tile (R202). -/
theorem merRelease_delivers {r : MerReply} (hfind : s.mer.replies.find? (fun q => q.id = r.id) = some r) (hsample : r.sample = none)
    (hdead : r.dead = false) (harr : r.arrived = false) : exec (.merRelease r.id cc) s = .next ((s.at cc).merDeliver r) := by
  refine congrArg Host.Outcome.next ?_
  rw [State.at_mer, hfind]
  simp [hdead, harr, State.merArrive, hsample]

/-- A reply that is the only one held for its object whose sample point has come is delivered (R199). -/
theorem merSamplePoint_delivers {r : MerReply} (hdue : s.mer.replies.filter (fun q => q.obj = r.obj && q.arrived && (match q.sample with
    | some c => decide (c ≤ (s.at cc).timebase)
    | none => true)) = [r]) : exec (.merSamplePoint r.obj cc) s = .next ((s.at cc).merDeliver r) := by
  have hfold := congrArg (fun l => Host.Outcome.next (φ := Fault) (ρ := Refusal) (l.foldl State.merDeliver (s.at cc))) hdue
  exact hfold

/-- The state in which strand n of tile t waits for w. -/
def State.setWait (s : State) (t n : Nat) (w : Wait) : State := s.setTile t ((s.tile t).setStrand n { (s.tile t).strand n with wait := w })

theorem State.setWait_strand (s : State) (t n : Nat) (w : Wait) : ((s.setWait t n w).tile t).strand n = { (s.tile t).strand n with wait := w } := by
  rw [State.setWait, State.tile_setTile, Tile.strand_setStrand]

/-- An expired timer without a release sends a withdrawal; its strand stays WAITING (R197). -/
theorem mwaittoExpiry_withdraws {t n obj rd reg i e : Nat} (hst : ((s.tile t).strand n).state = .waiting)
    (hw : ((s.tile t).strand n).wait = .meridian obj rd reg i (some e) false) (he : e ≤ cc)
    (hnone : ∀ r ∈ s.mer.replies, r.reg = reg → r.arrived = false) :
    Yields (.mwaittoExpiry t n cc) s (fun u => ((u.tile t).strand n).wait = .meridian obj rd reg i (some e) true ∧
      ((u.tile t).strand n).state = .waiting ∧ ∃ y : MerXfer, u.mer.xfers = s.mer.xfers ++ [y] ∧ y.obj = obj ∧ y.act = .withdraw reg false ∧ y.tile = t) := by
  have hdue : e ≤ (s.at cc).now := he.trans (Nat.le_max_right ..)
  have hno : s.mer.replies.any (fun r => r.reg = reg && r.arrived) = false := by
    rw [List.any_eq_false]
    intro r hr hboth
    obtain ⟨hreg, harr⟩ := Bool.and_eq_true_iff.1 hboth
    exact absurd harr (ne_true_of_eq_false (hnone r hr (of_decide_eq_true hreg)))
  have hgo : (decide (((s.tile t).strand n).state = .waiting) && decide (e ≤ (s.at cc).now) &&
      !s.mer.replies.any (fun r => r.reg = reg && r.arrived)) = true := by
    rw [decide_eq_true hst, decide_eq_true hdue, hno]
    rfl
  have htile : (s.at cc).tile t = s.tile t := rfl
  obtain ⟨y, hrun, hobj, hact, hy⟩ : ∃ y : MerXfer,
      (s.at cc).merExpire t n = ((s.at cc).setWait t n (.meridian obj rd reg i (some e) true)).merSend y ∧
      y.obj = obj ∧ y.act = .withdraw reg false ∧ y.tile = t := by
    simp only [State.merExpire, htile, hw]
    exact ⟨_, if_pos hgo, rfl, rfl, rfl⟩
  refine ⟨_, congrArg Host.Outcome.next hrun, ?_⟩
  beta_reduce
  rw [merSend_tile, State.setWait_strand]
  exact ⟨rfl, hst, _, (merSend_sends ..).1, hobj, hact, hy⟩

/-- A tile one of whose strands' signals has been acknowledged: an entry is free, and the strands that wait for one retry (R189). -/
def Tile.signalAcked (x : Tile) : Tile :=
  { x with
    signals := x.signals - 1
    strands := x.strands.map (fun e =>
      (e.1, if e.2.state = .waiting && e.2.wait = .signalSlot then { e.2 with state := .runnable, wait := .none } else e.2)) }

/-- An acknowledgement of a strand's signal frees its entry (R189). -/
theorem merSignalAck_frees {a : MerAck} (hfind : s.mer.acks.find? (fun b => b.id = a.id) = some a) (heng : a.engine = none) (hd : a.datum = false) :
    Yields (.merSignalAck a.id) s (fun u => (u.tile a.tile).signals = (s.tile a.tile).signals - 1 ∧ (u.tile a.tile).g = (s.tile a.tile).g ∧
      u.mer.acks = s.mer.acks.filter (fun b => b.id ≠ a.id) ∧ ∀ v, v ≠ a.tile → u.tile v = s.tile v) := by
  have hrun : exec (.merSignalAck a.id) s = .next ((s.setMer { s.mer with acks := s.mer.acks.filter (fun b => b.id ≠ a.id) }).setTile a.tile
      (s.tile a.tile).signalAcked) := by
    have hexec : exec (.merSignalAck a.id) s = .next (match s.mer.acks.find? (fun b => b.id = a.id) with
      | some a => s.merAck a
      | none => s) := rfl
    rw [hexec, hfind]
    simp only [State.merAck, hd, heng, Bool.false_and, Bool.false_eq_true, if_false]
    rfl
  refine ⟨_, hrun, ?_, ?_, rfl, fun w hw => State.tile_setTile_other _ hw _⟩
  · rw [State.tile_setTile]
    rfl
  · rw [State.tile_setTile]
    rfl

end

/-- Settles O24: the reply, with and without a sample point, the expiry, and the acknowledgement. -/
theorem meridianArrivals : Obligations.MeridianArrivals := by
  unfold Obligations.MeridianArrivals
  intro s cc
  refine ⟨?_, fun t n obj rd reg i e => mwaittoExpiry_withdraws, fun a => merSignalAck_frees⟩
  intro r p obj rd i ls wd hg hrd hexp hst hw hfall wakes
  have hwakes : wakes ((s.at cc).merDeliver r) := merDeliver_wakes (s := s.at cc) hg hrd hexp hst hw hfall
  exact ⟨fun hfind hsample hdead harr => ⟨_, merRelease_delivers hfind hsample hdead harr, hwakes⟩, fun hdue => ⟨_, merSamplePoint_delivers hdue, hwakes⟩⟩

end Sys2Proof.Machine
end

section
namespace Sys2Proof.Machine

/-! ## The Meridian commands (R183, R184, R188, R192, R205, R211, R212) -/

theorem State.Follows.mer {u v : State} (h : u.Follows v) : u.mer = v.mer := by rw [h.eq]

/-- A source with the PF's rights may name every object (R211). -/
theorem merDenied_privileged {k : Kci} (h : k.src.privileged = true) (s : State) (obj : Nat) : s.merDenied k obj = false := by
  cases hs : k.src <;> simp_all [State.merDenied, Source.privileged]

/-- A command that was turned away leaves the configuration record (R502). -/
theorem kciEnd_fail_config (opcode : Nat) (k : Kci) (records conf : Bool) (key : Nat) (s : State) {st : Status} (h : st ≠ .ok) :
    (kciEnd opcode k records conf key (.fail s st)).cmp.config = s.cmp.config := by
  simp [kciEnd, KRes.fail, h]
  rfl

section
variable {s : State} {k : Kci} {obj part value : Nat}

/-- A free command that its body turns away is answered with the status, and nothing changes, the configuration record not either. -/
theorem State.Open.turnsAway {i : Instr} {opcode : Nat} {body : State → KRes} {records conf : Bool} {key : Nat} {regions dies : List Nat}
    {st : Status} (h : s.Open k) (hi : exec i s = .next (kciRun opcode k s body records conf key regions dies))
    (hb : body (s.entered k opcode) = .fail (s.entered k opcode) st) (hst : st ≠ .ok) :
    Yields i s (fun u => u.Answered k opcode st [] ∧ u.Follows s ∧ u.cmp.config = s.cmp.config) :=
  h.yields hi hb fun u hu he => by
    refine ⟨he ▸ kciEnd_answered (entered_has ..) rfl, hu.trans (entered_follows ..), ?_⟩
    rw [he, kciEnd_fail_config _ _ _ _ _ _ hst]
    rfl

/-! ### Allocation, release, setting -/

/-- An object that is new has its kind's count at the value, or its target there. -/
theorem merNew_eq (kind : MerKind) (part v : Nat) : merNew kind part v =
    { kind := kind, part := part, value := if kind = .barrier then 0 else v, target := if kind = .barrier then v else 0, gen := 0 } := by
  cases kind <;> rfl

theorem merAlloc_answers (h : s.Open k) {kind : MerKind} (hobj : obj < 16384) (hpart : part < 64) (hx : s.partExists part = true)
    (hnone : s.mer.objs.look obj = none) (hr : merRange kind value = true) : Yields (.merAlloc k obj part kind value) s (fun u =>
      u.Follows (s.setObj obj (merNew kind part value)) ∧ u.Answered k 0x0A01 .ok []) := by
  refine h.leaves (t := (s.entered k 0x0A01).setObj obj (merNew kind part value)) rfl (KRes.check_pass _ _ ?_) (.withMer (.refl _))
    fun u hu ha => ⟨hu, ha⟩
  simp [Kci.notOwn_privileged part h.priv, hobj, hpart, hx, hnone, hr]

theorem merFree_answers (h : s.Open k) {o : MerObj} (hobj : obj < 16384) (ho : s.mer.objs.look obj = some o) (hw : o.waiters = []) :
    Yields (.merFree k obj) s (fun u => u.mer = { s.mer with objs := s.mer.objs.del obj } ∧ u.grid = s.grid ∧ u.Answered k 0x0A02 .ok []) := by
  refine h.leaves (t := ((s.entered k 0x0A02).setMer { s.mer with objs := s.mer.objs.del obj }).unconfig (merEntry obj)) rfl ?_
    (.withCmp (.withMer (.refl _)) rfl) fun u hu ha => ⟨hu.mer, hu.grid, ha⟩
  refine (KRes.check_pass _ _ (by simp [hobj, merDenied_privileged h.priv])).trans ?_
  simp [ho, hw]

theorem merFree_busy (h : s.Open k) {o : MerObj} (hobj : obj < 16384) (ho : s.mer.objs.look obj = some o) (hw : o.waiters ≠ []) :
    Yields (.merFree k obj) s (fun u => u.Answered k 0x0A02 .objBusy [] ∧ u.Follows s ∧ u.cmp.config = s.cmp.config) := by
  refine h.turnsAway rfl ((KRes.check_pass _ _ (by simp [hobj, merDenied_privileged h.priv])).trans ?_) nofun
  simp [ho, hw]

/-- An object that is set: a BARRIER to a target without arrivals, another kind to a value (R211). -/
def MerObj.setTo (o : MerObj) (value : Nat) (gen : Option Nat) : MerObj :=
  match o.kind with
  | .barrier => { o with value := 0, target := value, gen := gen.getD o.gen }
  | _ => { o with value := value }

theorem MerObj.setTo_eq (o : MerObj) (value : Nat) (gen : Option Nat) : o.setTo value gen =
    if o.kind = .barrier then { o with value := 0, target := value, gen := gen.getD o.gen } else { o with value := value } := by
  unfold MerObj.setTo
  split
  · next hk => rw [if_pos hk]
  · next hk => rw [if_neg hk]

/-- The checks before an object is set. -/
theorem merSet_passes (h : s.Open k) {gen : Option Nat} (hobj : obj < 16384) (hgen : gen.getD 0 < 2 ^ 32) (t : State) :
    ∀ c ∈ [(16384 ≤ obj || decide (2 ^ 32 ≤ gen.getD 0), Status.badOperand), (t.merDenied k obj, .accessDenied)], c.1 = false := by
  have hg : decide (2 ^ 32 ≤ gen.getD 0) = false := decide_eq_false (Nat.not_le.2 hgen)
  simp only [List.forall_mem_cons, List.not_mem_nil, false_imp_iff, implies_true, and_true, merDenied_privileged h.priv, hg, Bool.or_false,
    decide_eq_false (Nat.not_le.2 hobj)]

theorem merSet_answers (h : s.Open k) {gen : Option Nat} {o : MerObj} (hobj : obj < 16384) (hgen : gen.getD 0 < 2 ^ 32)
    (ho : s.mer.objs.look obj = some o) (hw : o.waiters = []) (hr : merRange o.kind value = true) : Yields (.merSet k obj value gen) s (fun u =>
      u.Follows (s.setObj obj (o.setTo value gen)) ∧ u.Answered k 0x0A03 .ok []) := by
  refine h.leaves (t := (s.entered k 0x0A03).setObj obj (o.setTo value gen)) rfl ((KRes.check_pass _ _ (merSet_passes h hobj hgen _)).trans ?_)
    (.withMer (.refl _)) fun u hu ha => ⟨hu, ha⟩
  have hempty : o.waiters.isEmpty = true := List.isEmpty_iff.2 hw
  simp only [entered_mer, ho, hempty, hr, Bool.not_true, Bool.false_eq_true, if_false]
  rfl

theorem merSet_busy (h : s.Open k) {gen : Option Nat} {o : MerObj} (hobj : obj < 16384) (hgen : gen.getD 0 < 2 ^ 32)
    (ho : s.mer.objs.look obj = some o) (hw : o.waiters ≠ []) : Yields (.merSet k obj value gen) s (fun u =>
      u.Answered k 0x0A03 .objBusy [] ∧ u.Follows s ∧ u.cmp.config = s.cmp.config) := by
  refine h.turnsAway rfl ((KRes.check_pass _ _ (merSet_passes h hobj hgen _)).trans ?_) nofun
  simp [ho, hw]

/-! ### Signals, reads, the deadlock detector -/

theorem merSignal_runs (h : s.Open k) (hobj : obj < 16384) (clear : Bool) : Yields (.merSignal k obj clear) s (fun u =>
    (∃ y : MerXfer, u.mer.xfers = s.mer.xfers ++ [y] ∧ y.id = s.mer.next ∧ y.obj = obj ∧ y.act = .signal clear ∧ y.src = .kci) ∧
      u.grid = s.grid ∧ u.Running k 0x0A04 [s.mer.next]) := by
  let x : MerXfer := { id := 0, obj := obj, act := .signal clear, src := .kci, tile := 0, strand := 0, part := none, stamp := s.timebase, reg := 0 }
  have hxfers := (merSend_sends (s.entered k 0x0A04) x).1
  refine h.runs (r := { st := (s.entered k 0x0A04).merSend x, keys := [s.mer.next] }) rfl ?_ (.merSend (.refl _)) (List.cons_ne_nil _ _) rfl
    fun u hu ha => ⟨⟨{ x with id := s.mer.next }, ?_, rfl, rfl, rfl, rfl⟩, hu.grid.trans (merSend_grid ..), ha⟩
  · exact KRes.check_pass _ _ (by simp [hobj, merDenied_privileged h.priv])
  · exact (congrArg Meridian.xfers hu.mer).trans hxfers

theorem merRead_answers (h : s.Open k) {o : MerObj} (hobj : obj < 16384) (ho : s.mer.objs.look obj = some o) : Yields (.merRead k obj) s (fun u =>
    u.Follows s ∧ u.Answered k 0x0A05 .ok ([o.valueWord, o.stateWord, o.last] ++ o.waiters.map MerWaiter.word)) := by
  refine h.answers (r := { st := s.entered k 0x0A05, result := [o.valueWord, o.stateWord, o.last] ++ o.waiters.map MerWaiter.word }) rfl ?_
    (.refl _) rfl fun u hu ha => ⟨hu.trans (entered_follows ..), ha⟩
  refine (KRes.check_pass _ _ (by simp [hobj, merDenied_privileged h.priv])).trans ?_
  simp [ho]

theorem merDlCfg_answers (h : s.Open k) {window : Nat} (hlow : 16 ≤ window) (hhigh : window ≤ 40) (enable : Bool) :
    Yields (.merDlCfg k window enable) s (fun u =>
      u.Follows (s.setMer { s.mer with window := window, enabled := enable }) ∧ u.Answered k 0x0A06 .ok []) := by
  refine h.leaves (t := (s.entered k 0x0A06).setMer { s.mer with window := window, enabled := enable }) rfl (KRes.check_pass _ _ ?_)
    (.withMer (.refl _)) fun u hu ha => ⟨hu, ha⟩
  simp [Kci.denied_privileged h.priv, hlow, hhigh]

theorem merDlSnapshot_answers (h : s.Open k) (dest : Nat) {d : DlSnap} (hpart : part < 64) (hd : s.mer.snaps.look part = some d) :
    Yields (.merDlSnapshot k part dest) s (fun u => u.hostMem k.src.fnIdx = (s.hostMem k.src.fnIdx).writeN dest d.bytes ∧
      u.mer = s.mer ∧ u.grid = s.grid ∧ u.Answered k 0x0A07 .ok []) := by
  have hlook : (s.entered k 0x0A07).mer.snaps.lookD part ⟨[], [], 0, 0⟩ = d := congrArg (Option.getD · _) hd
  refine h.leaves (t := (s.entered k 0x0A07).putHost k dest d.bytes) rfl ?_ (.withHost (.refl _)) fun u hu ha => ⟨?_, hu.mer, hu.grid, ha⟩
  · refine (KRes.check_pass _ _ (by simp [Kci.notOwn_privileged part h.priv, hpart])).trans ?_
    rw [hlook]
  · rw [hu.hostMem, State.putHost, State.hostMem_hostWrite]
    rfl

end

/-- Settles O26, command by command. -/
theorem meridianCommands : Obligations.MeridianCommands := by
  unfold Obligations.MeridianCommands
  intro s k h obj part value kind o hobj
  refine ⟨fun hpart hx hnone hr => ?_, merFree_answers h hobj, fun gen ho hw hr hgen => ?_,
    merSignal_runs h hobj, merRead_answers h hobj, fun window enable hlow hhigh => merDlCfg_answers h hlow hhigh enable,
    fun dest d hpart hd => merDlSnapshot_answers h dest hpart hd⟩
  · rw [← merNew_eq]
    exact merAlloc_answers h hobj hpart hx hnone hr
  · rw [← MerObj.setTo_eq]
    exact merSet_answers h hobj hgen ho hw hr

/-- Settles O27: the body of either command meets the waiters after its checks, and turns the command away. -/
theorem objectBusy : Obligations.ObjectBusy := by
  unfold Obligations.ObjectBusy
  intro s k h obj value gen o hobj hgen ho hw
  exact ⟨merFree_busy h hobj ho hw, merSet_busy h hobj hgen ho hw⟩

end Sys2Proof.Machine
end

section
namespace Sys2Proof.Machine

/-! ## The debug window (R206, R207) -/

section
variable {s : State} {fn : Nat}

/-- A write to MER_DBG_SEL keeps what the last capture left, but for VALID, until the new capture is done. -/
theorem merDbgCapture_begins (value : Word) : Yields (.merDbgCapture fn value) s (fun u =>
    u.mer.dbg.lookD fn {} = { s.mer.dbg.lookD fn {} with valid := false, busy := some (value.toNat % 2 ^ 14) } ∧
      (u.fn fn).merSel = value.toNat % 2 ^ 14 ∧ u.mer.objs = s.mer.objs ∧ u.grid = s.grid) := by
  have hsel : bits value 13 0 = value.toNat % 2 ^ 14 := by simp only [bits, fld, Nat.pow_zero, Nat.div_one]
  refine ⟨_, rfl, ?_, ?_, rfl, rfl⟩
  · rw [← hsel]
    exact SMap.lookD_put_same ..
  · rw [← hsel]
    exact congrArg FnState.merSel (State.fn_setFn ..)

/-- What a function that may see an object captures of it. -/
def MerObj.captured (o : MerObj) : MerDbg :=
  { state := o.stateWord, value := o.valueWord, last := o.last, waiters := padTo 32 0 (o.waiters.map MerWaiter.word), valid := true }

theorem merDbgCaptureDone_captures {obj : Nat} {o : MerObj} (hb : (s.mer.dbg.lookD fn {}).busy = some obj) (ho : s.mer.objs.look obj = some o)
    (hf : fn = 0 ∨ o.part + 1 = fn) : Yields (.merDbgCaptureDone fn) s (fun u => u.mer.dbg.lookD fn {} = o.captured ∧ u.grid = s.grid) := by
  have hcap : s.merCaptured fn obj = o.captured := by
    simp only [State.merCaptured, ho]
    exact if_pos (by simpa using hf)
  have hrun : exec (.merDbgCaptureDone fn) s = .next (match (s.mer.dbg.lookD fn {}).busy with
    | some obj => s.setMer { s.mer with dbg := s.mer.dbg.put fn (s.merCaptured fn obj) }
    | none => s) := rfl
  rw [hb] at hrun
  exact ⟨_, hrun, (SMap.lookD_put_same ..).trans hcap, rfl⟩

/-- The captured words of the first 32 waiters stand in front. -/
theorem captured_waiters (o : MerObj) : o.captured.waiters.take (min 32 o.waiters.length) = (o.waiters.take 32).map MerWaiter.word := by
  simp only [MerObj.captured, padTo, ← List.map_take]
  exact List.take_left' (by simp)

end

/-! ## The deadlock detector (R208, R209) -/

section
variable {s v : State} {p c cc : Nat}

/-- The cycle in which a strand began to wait for Meridian; 0 where it does not. -/
def Wait.issued : Wait → Nat
  | .meridian _ _ _ i _ _ => i
  | _ => 0

theorem Wait.issued_le {w : Wait} {n : Nat} (hn : n ≤ cc) (h : ∀ o r g i e b, w = .meridian o r g i e b → i + n ≤ cc) : w.issued + n ≤ cc := by
  unfold Wait.issued
  split
  · exact h _ _ _ _ _ _ rfl
  · omega

/-- The cycle in which the last strand of a partition began to wait. -/
def State.lastWait (s : State) (p : Nat) : Nat :=
  ((s.partTiles p).flatMap (fun e => e.2.strands.map (fun d => d.2.wait.issued))).foldl max 0

theorem lastWait_le {n : Nat} (hn : n ≤ cc)
    (h : ∀ e ∈ s.partTiles p, ∀ d ∈ e.2.strands, ∀ o r g i w b, d.2.wait = .meridian o r g i w b → i + n ≤ cc) : s.lastWait p + n ≤ cc := by
  refine List.foldlRecOn (motive := fun m => m + n ≤ cc) _ max (by omega) fun m hm a ha => ?_
  obtain ⟨e, he, ha⟩ := List.mem_flatMap.1 ha
  obtain ⟨d, hd, rfl⟩ := List.mem_map.1 ha
  have hd := Wait.issued_le hn (h e he d hd)
  omega

theorem blockSeen_unblocked (h : s.blocked p = false) :
    s.blockSeen p = s.setMer { s.mer with since := s.mer.since.del p, dl := s.mer.dl.filter (· ≠ p) } := by
  simp only [State.blockSeen, h, Bool.not_false, if_true]

theorem blockSeen_blocked (h : s.blocked p = true) (hs : s.mer.since.look p = some c) : s.blockSeen p = s := by
  simp [State.blockSeen, h, hs]

/-- A partition whose window has not begun is not reported. -/
theorem deadlockDetect_idle (hv : s.blockSeen p = v) (hs : v.mer.since.look p = none) : s.deadlockDetect p = v := by
  simp only [State.deadlockDetect, hv, hs]

/-- One whose window is over is reported, once in its episode. -/
theorem deadlockDetect_reports (hv : s.blockSeen p = v) (hs : v.mer.since.look p = some c) (hen : v.mer.enabled = true) (hdl : p ∉ v.mer.dl)
    (hdue : max c (v.lastWait p) + 2 ^ v.mer.window ≤ v.now) : (s.deadlockDetect p).mer =
      { v.mer with dl := v.mer.dl ++ [p], snaps := v.mer.snaps.put p (v.dlSnapshot p) } ∧ (s.deadlockDetect p).grid = v.grid := by
  have hgo : (v.mer.enabled && !v.mer.dl.contains p && decide (max c (v.lastWait p) + 2 ^ v.mer.window ≤ v.now)) = true := by
    simp [hen, hdl, hdue]
  have hrun : s.deadlockDetect p = (v.setMer { v.mer with dl := v.mer.dl ++ [p], snaps := v.mer.snaps.put p (v.dlSnapshot p) }).notifyRecorded
      .deadlock .ok (some p) p (put 31 0 (v.dlSnapshot p).numStrands + put 63 32 (v.dlSnapshot p).numObjects) := by
    simp only [State.deadlockDetect, hv, hs]
    exact if_pos hgo
  have hn := notifyRecorded_noted (v.setMer { v.mer with dl := v.mer.dl ++ [p], snaps := v.mer.snaps.put p (v.dlSnapshot p) }) .deadlock .ok (some p) p
    (put 31 0 (v.dlSnapshot p).numStrands + put 63 32 (v.dlSnapshot p).numObjects) .hub 0
  rw [hrun]
  exact ⟨hn.mer, hn.grid⟩

/-- The episode of an unblocked partition ends, where the map of windows has each key once: its window is taken out of the map. -/
theorem deadlockDetect_ends (hb : s.blocked p = false) (hs : SMap.rising none s.mer.since = true) : Yields (.deadlockDetect p cc) s (fun u =>
    p ∉ u.mer.dl ∧ u.mer.objs = s.mer.objs ∧ u.grid = s.grid) := by
  let v := (s.setMer { s.mer with since := s.mer.since.del p, dl := s.mer.dl.filter (· ≠ p) }).at cc
  have hv : (s.blockSeen p).at cc = v := congrArg (State.at · cc) (blockSeen_unblocked hb)
  have hnone : (v.mer.since.del p).look p = none := SMap.look_del_same (SMap.rising_del hs)
  refine ⟨_, congrArg Host.Outcome.next ((congrArg (State.deadlockDetect · p) hv).trans
    (deadlockDetect_idle (blockSeen_unblocked (s := v) hb) hnone)), ?_, rfl, rfl⟩
  exact fun hp => of_decide_eq_true (List.mem_filter.1 hp).2 rfl

/-- A partition that has been blocked for the whole window is reported with its snapshot. -/
theorem deadlockDetect_blocked (hb : s.blocked p = true) (hs : s.mer.since.look p = some c) (hen : s.mer.enabled = true) (hdl : p ∉ s.mer.dl)
    (hwait : s.lastWait p + 2 ^ s.mer.window ≤ cc) (hc : c + 2 ^ s.mer.window ≤ cc) : Yields (.deadlockDetect p cc) s (fun u =>
      p ∈ u.mer.dl ∧ u.mer.snaps.look p = some (s.dlSnapshot p) ∧ u.grid = s.grid) := by
  have hv : (s.blockSeen p).at cc = s.at cc := congrArg (State.at · cc) (blockSeen_blocked hb hs)
  have hnow : cc ≤ (s.at cc).now := Nat.le_max_right ..
  have hdue : max c ((s.at cc).lastWait p) + 2 ^ (s.at cc).mer.window ≤ (s.at cc).now := by
    have hwait' : (s.at cc).lastWait p + 2 ^ (s.at cc).mer.window ≤ cc := hwait
    have hc' : c + 2 ^ (s.at cc).mer.window ≤ cc := hc
    omega
  obtain ⟨hmer, hgrid⟩ := deadlockDetect_reports (blockSeen_blocked (s := s.at cc) hb hs) hs hen hdl hdue
  refine ⟨_, congrArg Host.Outcome.next (congrArg (State.deadlockDetect · p) hv), ?_, ?_, hgrid⟩
  · rw [hmer]
    exact List.mem_append_right _ (List.mem_singleton_self p)
  · rw [hmer]
    exact SMap.look_put_same ..

end

/-! ### The statement, state by state -/

/-- What the statement says of one state, one function and one value written (R206 to R209). -/
def DebugHolds (s : State) (fn : Nat) (value : Word) : Prop :=
  Yields (.merDbgCapture fn value) s (fun u => (u.mer.dbg.lookD fn {}).valid = false ∧ (u.fn fn).merSel = value.toNat % 2 ^ 14 ∧
    (u.mer.dbg.lookD fn {}).busy = some (value.toNat % 2 ^ 14) ∧ (u.mer.dbg.lookD fn {}).value = (s.mer.dbg.lookD fn {}).value ∧
    u.mer.objs = s.mer.objs ∧ u.grid = s.grid) ∧
  (∀ obj o, (s.mer.dbg.lookD fn {}).busy = some obj → s.mer.objs.look obj = some o → fn = 0 ∨ o.part + 1 = fn →
    Yields (.merDbgCaptureDone fn) s (fun u => (u.mer.dbg.lookD fn {}).valid = true ∧ (u.mer.dbg.lookD fn {}).state = o.stateWord ∧
      (u.mer.dbg.lookD fn {}).value = o.valueWord ∧ (u.mer.dbg.lookD fn {}).last = o.last ∧
      (u.mer.dbg.lookD fn {}).waiters.take (min 32 o.waiters.length) = (o.waiters.take 32).map MerWaiter.word ∧ u.grid = s.grid)) ∧
  (∀ p cc, (s.blocked p = false → Yields (.deadlockDetect p cc) s (fun u => p ∉ u.mer.dl ∧ u.mer.objs = s.mer.objs ∧ u.grid = s.grid)) ∧
    (∀ c, s.blocked p = true → s.mer.since.look p = some c → s.mer.enabled = true → p ∉ s.mer.dl →
      (∀ e ∈ s.partTiles p, ∀ d ∈ e.2.strands, ∀ o r g i w b, d.2.wait = .meridian o r g i w b → i + 2 ^ s.mer.window ≤ cc) →
      c + 2 ^ s.mer.window ≤ cc → 2 ^ s.mer.window ≤ cc →
      Yields (.deadlockDetect p cc) s (fun u => p ∈ u.mer.dl ∧ u.mer.snaps.look p = some (s.dlSnapshot p) ∧ u.grid = s.grid)))

theorem meridianDebug_iff : Obligations.MeridianDebug ↔ ∀ s fn value, DebugHolds s fn value := Iff.rfl

/-- It holds of a state whose map of windows has its canonical form, as the state after reset has it and as every update keeps it. -/
theorem debugHolds_of_rising {s : State} (hs : SMap.rising none s.mer.since = true) (fn : Nat) (value : Word) : DebugHolds s fn value := by
  refine ⟨?_, fun obj o hb ho hf => ?_, fun p cc => ⟨fun hb => deadlockDetect_ends hb hs, fun c hb hc hen hdl hwait hdue hwindow => ?_⟩⟩
  · refine (merDbgCapture_begins value).mono fun u ⟨hdbg, hsel, hobjs, hgrid⟩ => ?_
    rw [hdbg]
    exact ⟨rfl, hsel, rfl, rfl, hobjs, hgrid⟩
  · refine (merDbgCaptureDone_captures hb ho hf).mono fun u ⟨hdbg, hgrid⟩ => ?_
    rw [hdbg]
    exact ⟨rfl, rfl, rfl, rfl, captured_waiters o, hgrid⟩
  · exact deadlockDetect_blocked hb hc hen hdl (lastWait_le hwindow hwait) hdue

/-- A state in which no partition is blocked, whose map of windows holds partition 0 three times. -/
def thriceWatched : State := { State.reset with mer := { window := 0, since := [(0, 0), (0, 0), (0, 0)] } }

/-- Refutes O25: the statement is about every state, also about one whose map of windows lists a key more than once. An update takes one entry of
the key out of such a map, and the detector looks twice: of an unblocked partition with three entries it finds the third, and reports it. Of every
state with a canonical map the statement holds (`debugHolds_of_rising`). -/
theorem not_meridianDebug : ¬ Obligations.MeridianDebug := by
  rw [meridianDebug_iff]
  intro h
  obtain ⟨-, -, hdetect⟩ := h thriceWatched 0 0
  obtain ⟨u, hu, hdl, -⟩ := (hdetect 0 1).1 (by decide)
  let v : State := { thriceWatched with now := 1, mer := { window := 0, since := [(0, 0)] } }
  have hseen : ((thriceWatched.blockSeen 0).at 1).blockSeen 0 = v := by
    rw [blockSeen_unblocked (by decide), blockSeen_unblocked (by decide)]
    rfl
  obtain ⟨hmer, -⟩ := deadlockDetect_reports hseen rfl rfl List.not_mem_nil (by decide)
  have hrun : exec (.deadlockDetect 0 1) thriceWatched = .next (((thriceWatched.blockSeen 0).at 1).deadlockDetect 0) := rfl
  rw [hrun] at hu
  obtain rfl := Host.Outcome.next.inj hu
  rw [hmer] at hdl
  exact hdl (List.mem_singleton_self 0)

end Sys2Proof.Machine
end

section
namespace Sys2Proof.Machine

/-! ## Groups of Confluence and what leaves them alone (R213 to R217) -/

theorem Noted.cfl {s u : State} (h : Noted s u) : u.cfl = s.cfl := by rw [h.all]
theorem State.Follows.cfl {u v : State} (h : u.Follows v) : u.cfl = v.cfl := by rw [h.eq]
theorem State.Follows.cflGroup {u v : State} (h : u.Follows v) (gid : Nat) : u.cflGroup gid = v.cflGroup gid := by
  rw [State.cflGroup, h.cfl, State.cflGroup]

@[simp] theorem entered_cflGroup (s : State) (k : Kci) (opcode gid : Nat) : (s.entered k opcode).cflGroup gid = s.cflGroup gid := rfl

section
variable {s : State} {gid : Nat}

/-- A source with the PF's rights may name every group that is defined (R255). -/
theorem cflGuard_pass {k : Kci} {g : CflGroup} (hk : k.src.privileged = true) (hg : s.cflGroup gid = some g) :
    ∀ c ∈ s.cflGuard k gid, c.1 = false := by
  simp [State.cflGuard, hg, Kci.notOwn_privileged _ hk]

/-! ### Plat pools and Confluence (R451 to R457) -/

theorem putPool_cfl (s : State) (d p : Nat) (x : Pool) : (s.putPool d p x).cfl = s.cfl := by
  unfold State.putPool
  extract_lets _ s1 _ s2
  have h2 : s2.cfl = s.cfl := by
    unfold s2
    split
    · exact (notify_noted ..).cfl
    · rfl
  split
  · exact (notify_noted ..).cfl.trans h2
  · exact h2

theorem platFree_cfl (s : State) (d p o i : Nat) : (s.platFree d p o i).2.cfl = s.cfl := by
  dsimp only [State.platFree]
  split
  · rfl
  · split
    · exact (notify_noted ..).cfl
    · exact putPool_cfl ..

theorem platFreeAll_cfl (s : State) (d p o : Nat) (is : List Nat) : (s.platFreeAll d p o is).cfl = s.cfl :=
  List.foldlRecOn (motive := fun u : State => u.cfl = s.cfl) is _ rfl fun u hu i _ => (platFree_cfl u d p o i).trans hu

theorem platReserve_cfl (s : State) (d p o r : Nat) : ((s.platReserve d p o r).getD s).cfl = s.cfl := by
  dsimp only [State.platReserve]
  split
  · rfl
  · exact putPool_cfl ..

/-! ### CFL_GROUP_DEFINE (R213, R215) -/

/-- A definition that the device accepts, given by a source with the PF's rights (R213). -/
structure State.Definable (s : State) (d : GroupDef) : Prop where
  part     : s.partExists d.part = true
  id       : d.id < 65536
  cls      : d.cls < 8
  timeout  : d.progTimeoutLog2 = 0 ∨ 20 ≤ d.progTimeoutLog2
  timeout' : d.progTimeoutLog2 ≤ 40
  runtime  : d.tiles ≠ []
  most     : d.tiles.length ≤ 16
  tiles    : ∀ t ∈ d.tiles, t < 1024 ∧ (s.tile t).state ≠ .unavailable ∧ (s.tile t).part = some d.part ∧ t / 256 = nth d.tiles 0 0 / 256
  hosted   : d.hosted.map (·.1) = s.hostedRanks d.members
  order    : ascending d.members = true
  members  : d.members ≠ []
  members' : d.members.length ≤ 65536
  refs     : ∀ m ∈ d.members, m < 2 ^ 48
  pages    : d.reserve % 4096 = 0
  reserve  : 65536 * d.hosted.length ≤ d.reserve
  reserve' : d.reserve ≤ 1048576
  fresh    : s.cflGroup d.id = none
  room     : s.cfl.groups.length < 4096

theorem State.Definable.entered {d : GroupDef} (h : s.Definable d) (k : Kci) (opcode : Nat) : (s.entered k opcode).Definable d := { h with }

/-- A definition with its timeout in force: 28 where it gives none (R250). -/
theorem groupTimed_eq (d : GroupDef) :
    groupTimed d = { d with progTimeoutLog2 := if d.progTimeoutLog2 = 0 then 28 else d.progTimeoutLog2 } := by
  unfold groupTimed
  split <;> rfl

/-- The definition with its timeout in force is as good, and its timeout lies in the range. -/
theorem State.Definable.timed {d : GroupDef} (h : s.Definable d) : s.Definable (groupTimed d) ∧ 20 ≤ (groupTimed d).progTimeoutLog2 := by
  unfold groupTimed
  split
  · exact ⟨{ h with timeout := .inr (Nat.le_of_ble_eq_true rfl), timeout' := Nat.le_of_ble_eq_true rfl }, Nat.le_of_ble_eq_true rfl⟩
  · next hne => exact ⟨h, h.timeout.resolve_left hne⟩

/-- The PF owns every member (R255). -/
theorem ownsMember_privileged {k : Kci} (hk : k.src.privileged = true) (m : MemberKind) : s.ownsMember k m = true := by
  cases m <;> cases hs : k.src <;> simp_all [State.ownsMember, Source.privileged]

/-- A definition that is accepted stands as a group that is not open, with its MD. -/
theorem groupDefine_defines {k : Kci} {d : GroupDef} (hk : k.src.privileged = true) (h : s.Definable d) : s.groupDefine k d =
    { st := s.setGroup (groupTimed d).id { d := groupTimed d, md := memberDigest (groupTimed d).members },
      result := [memberDigest (groupTimed d).members], cont := [leBytes 8 (memberDigest (groupTimed d).members).toNat] } := by
  obtain ⟨⟨hpart, hid, hcls, -, hmax, hrun, hmost, htiles, hhosted, horder, hmem, hmem', hrefs, hpages, hres, hres', hfresh, hroom⟩, hmin⟩ := h.timed
  have hoff : (groupTimed d).tiles.find? (fun t => (s.tile t).state = .unavailable) = none :=
    List.find?_eq_none.2 fun t ht => by simp [(htiles t ht).2.1]
  have hbound : (groupTimed d).tiles.any (1024 ≤ ·) = false := List.any_eq_false.2 fun t ht => by simp [(htiles t ht).1]
  have hplace : (groupTimed d).tiles.any (fun t => (s.tile t).part ≠ some (groupTimed d).part ||
      t / 256 ≠ nth (groupTimed d).tiles 0 0 / 256) = false :=
    List.any_eq_false.2 fun t ht => by simp [(htiles t ht).2.2]
  have href : (groupTimed d).members.any (2 ^ 48 ≤ ·) = false := List.any_eq_false.2 fun m hm => by simpa using hrefs m hm
  have hown : (groupTimed d).hosted.all (fun e => s.ownsMember k e.2) = true := List.all_eq_true.2 fun e _ => ownsMember_privileged hk e.2
  unfold State.groupDefine
  extract_lets e md off
  refine KRes.check_pass _ _ ?_
  simp only [List.forall_mem_cons, List.not_mem_nil, false_imp_iff, implies_true, and_true, Kci.notOwn_privileged _ hk, hoff, hbound, hplace,
    href, hown, off, e, hpart, horder, hfresh, hhosted]
  refine ⟨trivial, rfl, ?tiles, ?size, ?fields, rfl, ?group, decide_eq_false (Nat.not_le.2 hroom)⟩
  case tiles =>
    rw [Bool.not_true, Bool.or_false]
    split
    · next hs => exact absurd hk (by simp [hs, Source.privileged])
    · rfl
  case size => simp [hmem, hmem']
  case fields => simp [hid, hcls, hmin, hmax, hrun, hmost]
  case group => simp [hpages, hres, hres']

/-- An accepted definition is answered with MD. -/
theorem cflGroupDefine_answers {k : Kci} {d : GroupDef} (h : s.Open k) (hd : s.Definable d) : Yields (.cflGroupDefine k d) s (fun u =>
    u.Follows (s.setGroup d.id
      { d := { d with progTimeoutLog2 := if d.progTimeoutLog2 = 0 then 28 else d.progTimeoutLog2 }, md := memberDigest d.members, phase := .defined,
        next := [] }) ∧ u.Answered k 0x0601 .ok [memberDigest d.members]) := by
  have hbody := groupDefine_defines (s := s.entered k 0x0601) h.priv (hd.entered k 0x0601)
  rw [groupTimed_eq] at hbody
  exact h.answers rfl hbody (.withCfl (.refl _)) rfl fun u hu ha => ⟨hu, ha⟩

/-! ### CFL_GROUP_OPEN, CFL_GROUP_CLOSE, CFL_GROUP_DELETE (R216, R217, R255) -/

/-- A group as its opening leaves it: the next number of each hosted rank is 0. -/
def CflGroup.opened (g : CflGroup) : CflGroup := { g with phase := .open_, next := g.d.hosted.map (fun e => (e.1, 0)) }

/-- A group as its closing leaves it. -/
def CflGroup.closed (g : CflGroup) : CflGroup := { g with phase := .defined, next := [] }

section
variable {k : Kci} {g : CflGroup}

theorem cflGroupOpen_opens {v : State} (h : s.Open k) (hg : s.cflGroup gid = some g) (hopen : g.isOpen = false)
    (hctx : s.cflOpen + s.cflShared < 1024) (hlevel : (s.pool g.die poolCollation).level < 3)
    (hv : (s.enter k 0x0602).platReserve g.die poolCollation gid (g.d.reserve / 4096) = some v) :
    Yields (.cflGroupOpen k gid) s (fun u => u.Follows ((v.setGroup gid g.opened).cflGrantAll g.opened)) := by
  rw [h.enter] at hv
  have hthere : (1024 ≤ s.cflOpen + s.cflShared || 3 ≤ (s.pool g.die poolCollation).level) = false := by simp; omega
  refine h.yields (r := { st := (v.setGroup gid g.opened).cflGrantAll g.opened }) rfl ?_ fun u hu _ => hu
  refine (KRes.check_pass _ _ (cflGuard_pass h.priv (s := s.entered k 0x0602) hg)).trans ?_
  simp only [entered_cflGroup, hg, hopen, hv]
  exact (if_neg Bool.false_ne_true).trans (if_neg (Bool.eq_false_iff.1 hthere))

/-- The closing of a group changes no other group and no collective. -/
theorem cflClose_leaves (s : State) (g : CflGroup) :
    (s.cflClose g).cfl.groups = s.cfl.groups.put g.d.id g.closed ∧ (s.cflClose g).cfl.runs = s.cfl.runs := by
  unfold State.cflClose
  extract_lets gid mine bufs s1 s2 waiting s3
  have h1 : s1.cfl = s.cfl := platFreeAll_cfl ..
  have h2 : s2.cfl = s.cfl := (platReserve_cfl s1 ..).trans h1
  have h3 : s3.cfl = s.cfl := List.foldlRecOn (motive := fun u : State => u.cfl = s.cfl) waiting _ h2 fun _ h _ _ => h
  clear_value s3
  have hgroups : s3.cfl.groups.put g.d.id g.closed = s.cfl.groups.put g.d.id g.closed := by rw [h3]
  have hruns : s3.cfl.runs = s.cfl.runs := by rw [h3]
  exact ⟨hgroups, hruns⟩

theorem cflGroupClose_closes (h : s.Open k) (hg : s.cflGroup gid = some g) (hid : g.d.id = gid) (hidle : ∀ r ∈ s.cfl.runs, r.group ≠ gid)
    (hopen : g.isOpen = true) : Yields (.cflGroupClose k gid) s (fun u =>
      u.cflGroup gid = some g.closed ∧ (∀ h, h ≠ gid → u.cflGroup h = s.cflGroup h) ∧ u.cfl.runs = s.cfl.runs) := by
  have hany : s.cfl.runs.any (fun r => r.group = gid) = false := List.any_eq_false.2 fun r hr => by simp [hidle r hr]
  refine h.yields (r := { st := ((s.entered k 0x0603).cflClose g).unconfig (fun e => e.opcode = 0x0602 && (nth e.words 0 0).toNat = gid) })
    rfl ?_ fun u hu _ => ?_
  · refine (KRes.check_pass _ _ (cflGuard_pass h.priv (s := s.entered k 0x0603) hg)).trans ?_
    simp only [entered_cflGroup, entered_cfl, hg, hany, hopen, Bool.false_eq_true, if_false, if_true]
  · obtain ⟨hgroups, hruns⟩ := cflClose_leaves (s.entered k 0x0603) g
    rw [hid] at hgroups
    have hlook : ∀ h, u.cflGroup h = (s.cfl.groups.put gid g.closed).look h := fun h => by
      rw [State.cflGroup, hu.cfl]
      exact congrArg (SMap.look · h) hgroups
    refine ⟨(hlook gid).trans (SMap.look_put_same ..), fun h hne => (hlook h).trans (SMap.look_put_other _ hne _), ?_⟩
    rw [hu.cfl]
    exact hruns

/-- Where nothing is named, no submission begins. -/
theorem cflHeldStart_nil (n : Nat) (s : State) : State.cflHeldStart [] n s = s := by
  cases n with
  | zero => rfl
  | succ n =>
    unfold State.cflHeldStart
    split
    · rfl
    · next hr => exact absurd (List.find?_some hr) (by simp)

/-- An ending that selects no collective changes nothing. -/
theorem cflEndAll_none {p : CflRun → Bool} (hp : ∀ r ∈ s.cfl.runs, p r = false) (st : Status) : s.cflEndAll p st = s := by
  have hfilter : ∀ q : CflRun → Bool, s.cfl.runs.filter (fun r => p r && q r) = [] := fun q => List.filter_eq_nil_iff.2 fun r hr => by simp [hp r hr]
  have hnamed : s.cflNamed p = [] := by simp only [State.cflNamed, hfilter, List.map_nil, List.eraseDups_nil]
  have hheld : s.heldOf (fun _ => false) = [] := by simp [State.heldOf]
  simp [State.cflEndAll, hnamed, hfilter, cflHeldStart_nil, hheld]

theorem cflGroupDelete_deletes (h : s.Open k) (hg : s.cflGroup gid = some g) (hidle : ∀ r ∈ s.cfl.runs, r.group ≠ gid)
    (hopen : g.isOpen = false) (hm : SMap.rising none s.cfl.groups = true) : Yields (.cflGroupDelete k gid) s (fun u =>
      u.cflGroup gid = none ∧ (∀ h, h ≠ gid → u.cflGroup h = s.cflGroup h) ∧ u.Answered k 0x0604 .ok []) := by
  let t := (s.entered k 0x0604).setCfl { s.cfl with groups := s.cfl.groups.del gid }
  refine h.leaves (t := t.unconfig (fun e => e.opcode = 0x0601 && (nth e.words 0 0).toNat = gid))
    rfl ?_ (.withCmp (.withCfl (.refl _)) rfl) fun u hu ha => ⟨?_, fun h hne => ?_, ha⟩
  · have hend : (s.entered k 0x0604).cflEndAll (fun r => decide (r.group = gid)) = s.entered k 0x0604 :=
      cflEndAll_none (s := s.entered k 0x0604) (fun r hr => decide_eq_false (hidle r hr)) .aborted
    refine (KRes.check_pass _ _ (cflGuard_pass h.priv (s := s.entered k 0x0604) hg)).trans ?_
    simp only [entered_cflGroup, hg, hopen, Bool.false_eq_true, if_false, hend]
    rfl
  · exact (hu.cflGroup gid).trans (SMap.look_del_same hm)
  · exact (hu.cflGroup h).trans (SMap.look_del_other _ hne)

/-! ### CFL_GROUP_QUERY, CFL_DIGEST (R222, R255) -/

theorem cflGroupQuery_answers (h : s.Open k) (hg : s.cflGroup gid = some g) : Yields (.cflGroupQuery k gid) s (fun u =>
    u.Follows s ∧ u.Answered k 0x0607 .ok ([wd g.phase.code] ++
      g.d.hosted.map (fun e => wd (e.1 % 65536 + g.nextSeq e.1 % 2 ^ 32 * 2 ^ 32)) ++
      [wd (max (if g.isOpen then 1 else 0) (s.cflSeqs gid).length), wd ((s.pool g.die poolCollation).usedOf gid)])) := by
  have hput : ∀ rank seq, put 15 0 rank + put 63 32 seq = rank % 65536 + seq % 2 ^ 32 * 2 ^ 32 := fun rank seq => by simp [put]
  refine h.answers (r := { st := s.entered k 0x0607, result := _ }) rfl ?_ (.refl _) rfl fun u hu ha => ⟨hu.trans (entered_follows ..), ha⟩
  refine (KRes.check_pass _ _ (cflGuard_pass h.priv (s := s.entered k 0x0607) hg)).trans ?_
  simp only [entered_cflGroup, hg, hput]
  rfl

theorem cflDigest_answers (h : s.Open k) (hg : s.cflGroup gid = some g) {desc : List Word}
    (hd : (cflDesc desc).check (padTo 16 0 desc) g.n = .ok) : Yields (.cflDigest k gid desc) s (fun u =>
      u.Follows s ∧ u.Answered k 0x0608 .ok [cflDigest g.md desc]) := by
  refine h.answers (r := { st := s.entered k 0x0608, result := [cflDigest g.md desc] }) rfl ?_ (.refl _) rfl
    fun u hu ha => ⟨hu.trans (entered_follows ..), ha⟩
  refine (KRes.check_pass _ _ (cflGuard_pass h.priv (s := s.entered k 0x0608) hg)).trans ?_
  simp only [entered_cflGroup, hg, hd]

end
end

/-- Settles O33, command by command. -/
theorem confluenceGroups : Obligations.ConfluenceGroups := by
  unfold Obligations.ConfluenceGroups
  intro s k h d gid g desc
  refine ⟨fun hpart hid hcls hmin hmax hrun hmost htiles hhosted horder hmem hmem' hrefs hpages hres hres' hfresh hroom =>
      cflGroupDefine_answers h
        ⟨hpart, hid, hcls, hmin, hmax, hrun, hmost, htiles, hhosted, horder, hmem, hmem', hrefs, hpages, hres, hres', hfresh, hroom⟩,
    fun hg hid => ⟨fun v hopen hctx hlevel hv => cflGroupOpen_opens h hg hopen hctx hlevel hv,
      fun hidle hopen => cflGroupClose_closes h hg hid hidle hopen,
      fun hidle hopen hm => cflGroupDelete_deletes h hg hidle hopen hm, cflGroupQuery_answers h hg, fun hd => cflDigest_answers h hg hd⟩⟩

end Sys2Proof.Machine
end

section
namespace Sys2Proof.Machine

/-! ## Submissions of collectives (R218 to R222, R254, R308) -/

/-! ### The descriptor -/

theorem nth_padTo {α : Type} {n i : Nat} (hi : i < n) (d : α) (l : List α) : nth (padTo n d l) i d = nth l i d := by
  by_cases hl : i < l.length
  · simp [nth, padTo, List.getElem?_append, hi, hl]
  · have hlen : (l.take n).length = l.length := by simp; omega
    have hin : i - l.length < n - l.length := by omega
    simp [nth, padTo, List.getElem?_append, hlen, hl, hin]

/-- Words that a descriptor lacks are zero (R221). -/
theorem cflDesc_padTo (ws : List Word) : cflDesc (padTo 16 0 ws) = cflDesc ws := by
  have hnth : ∀ i, i < 16 → nth (padTo 16 0 ws) i 0 = nth ws i 0 := fun i hi => nth_padTo hi 0 ws
  simp only [cflDesc, hnth, Nat.reduceLT]

/-! ### What a submission leaves -/

section
variable {s : State} {g : CflGroup} {rank : Nat} {desc : List Word} {via : CflVia} {k : Kci}

/-- A collective as it waits at its rank: without a sequence number. -/
def CflGroup.waiting (g : CflGroup) (id rank : Nat) (desc : List Word) (via : CflVia) : CflRun :=
  { id := id, group := g.d.id, rank := rank, words := padTo 16 0 desc, via := via, digest := cflDigest g.md desc }

/-- A submission that passes the checks of R222 waits behind those before it. -/
theorem cflSubmit_waits (s : State) (hphase : g.phase ≠ .failed) (hcheck : (cflDesc desc).check (padTo 16 0 desc) g.n = .ok)
    (rank : Nat) (via : CflVia) :
    s.cflSubmit g rank desc via =
      s.setCfl { s.cfl with nextRun := s.cfl.nextRun + 1, runs := s.cfl.runs ++ [g.waiting s.cfl.nextRun rank desc via] } := by
  simp only [State.cflSubmit, CflRun.d, cflDesc_padTo, hphase, if_false, hcheck, ne_eq, not_true_eq_false, CflGroup.waiting]

/-- The last collective is the one that waits, as a descriptor submits it for a rank. -/
def State.Waits (u : State) (s : State) (g : CflGroup) (rank : Nat) (desc : List Word) (via : CflVia) : Prop :=
  ∃ r : CflRun, u.cfl.runs = s.cfl.runs ++ [r] ∧ r.group = (cflDesc desc).group ∧ r.rank = rank ∧ r.words = padTo 16 0 desc ∧ r.seq = none ∧
    r.via = via ∧ r.digest = cflDigest g.md desc ∧ r.id = s.cfl.nextRun

theorem waits_of_runs {u : State} (hid : g.d.id = (cflDesc desc).group)
    (hu : u.cfl.runs = s.cfl.runs ++ [g.waiting s.cfl.nextRun rank desc via]) : u.Waits s g rank desc via :=
  ⟨_, hu, hid, rfl, rfl, rfl, rfl, rfl, rfl⟩

/-! ### The three paths (R219, R220, R308) -/

/-- A source with the PF's rights owns the ranks of every function (R255). -/
theorem ownRank_privileged (hk : k.src.privileged = true) (g : CflGroup) (rank : Nat) : g.ownRank k rank = true := by
  cases hs : k.src <;> simp_all [CflGroup.ownRank, Source.privileged]

/-- A run of that number is there after it is appended. -/
theorem cflRun_append (r : CflRun) (rs : List CflRun) (hrs : s.cfl.runs = rs ++ [r]) : ∃ x, s.cflRun r.id = some x := by
  refine Option.isSome_iff_exists.1 (List.find?_isSome.2 ⟨r, ?_, by simp⟩)
  rw [hrs]
  exact List.mem_append_right _ (List.mem_singleton_self r)

theorem cflSubmit_runs (h : s.Open k) (hg : s.cflGroup (cflDesc desc).group = some g) (hid : g.d.id = (cflDesc desc).group)
    (hphase : g.phase ≠ .failed) (hcheck : (cflDesc desc).check (padTo 16 0 desc) g.n = .ok) (hacts : k.acts = none ∨ k.acts = some g.d.part)
    (hkind : g.hostOrDevice rank = true) :
    Yields (.cflSubmit k rank desc) s (fun u => u.Waits s g rank desc .kci ∧ u.cfl.groups = s.cfl.groups ∧ u.grid = s.grid ∧
      u.Running k 0x0605 [s.cfl.nextRun]) := by
  let c : Cfl := { s.cfl with nextRun := s.cfl.nextRun + 1, runs := s.cfl.runs ++ [g.waiting s.cfl.nextRun rank desc .kci] }
  have hsub : (s.entered k 0x0605).cflSubmit g rank desc .kci = (s.entered k 0x0605).setCfl c := cflSubmit_waits _ hphase hcheck ..
  obtain ⟨x, hx⟩ := cflRun_append (s := (s.entered k 0x0605).setCfl c) (g.waiting s.cfl.nextRun rank desc .kci) s.cfl.runs rfl
  have hx : ((s.entered k 0x0605).setCfl c).cflRun s.cfl.nextRun = some x := hx
  have hdenied : (!g.hostOrDevice rank || !g.ownRank k rank || (k.acts.isSome && k.acts ≠ some g.d.part)) = false := by
    rcases hacts with ha | ha <;> simp [hkind, ownRank_privileged h.priv, ha]
  refine h.runs (r := { st := (s.entered k 0x0605).setCfl c, keys := [s.cfl.nextRun] }) rfl ?_ (.withCfl (.refl _)) (List.cons_ne_nil _ _) rfl
    fun u hu ha => ⟨waits_of_runs hid (congrArg Cfl.runs hu.cfl), (congrArg Cfl.groups hu.cfl).trans rfl, hu.grid, ha⟩
  refine (KRes.check_pass _ _ (cflGuard_pass h.priv (s := s.entered k 0x0605) hg)).trans ?_
  simp only [entered_cflGroup, entered_cfl, hg, hdenied, Bool.false_eq_true, if_false, hsub, hx]

/-- A tile's submission, as the gateway finds it: of length 2, without reserved bits, for a DEVICE rank of the tile's partition (R220). -/
structure MeshMsg.Submits (m : MeshMsg) (g : CflGroup) (rank : Nat) (desc : List Word) : Prop where
  len      : m.len = 2
  reserved : bits (nth m.header 1 0) 63 22 = 0
  named    : bits (nth m.header 1 0) 15 0 = rank
  user     : ∀ i, i < 6 → nth m.header (2 + i) 0 = 0
  words    : leWords 16 m.payload = desc
  part     : g.d.part = m.part
  kind     : g.kind rank = some .device

/-- The gateway submits what such a message holds. -/
theorem cflTileTake_submits {m : MeshMsg} (hm : m.Submits g rank desc) (hg : s.cflGroup (cflDesc desc).group = some g) (t : Nat) :
    s.cflTileTake t m = s.cflSubmit g rank desc (.tile t (bits (nth m.header 1 0) 21 16) m.tag) := by
  obtain ⟨hlen, hres, rfl, huser, rfl, hpart, hkind⟩ := hm
  have hzero : (List.range 6).any (fun i => nth m.header (1 + (i + 1)) 0 ≠ 0) = false := List.any_eq_false.2 fun i hi => by
    simpa [Nat.add_comm 1, Nat.add_comm 2] using huser i (List.mem_range.1 hi)
  unfold State.cflTileTake
  simp only [Nat.add_zero, hlen, hres, hzero, hg, hpart, hkind, ne_eq, not_true_eq_false, decide_false, Bool.or_false, Bool.false_eq_true, if_false]

theorem cflTileSubmit_waits {t : Nat} {m : MeshMsg} {rest : List MeshMsg} (hm : m.Submits g rank desc)
    (htake : takeFirst (fun (m : MeshMsg) => !m.srcGw && m.destGw && m.dest = 3 && coord m.src = t) s.grid.mesh = some (m, rest))
    (hg : s.cflGroup (cflDesc desc).group = some g) (hid : g.d.id = (cflDesc desc).group) (hphase : g.phase ≠ .failed)
    (hcheck : (cflDesc desc).check (padTo 16 0 desc) g.n = .ok) : Yields (.cflTileSubmit t) s (fun u =>
      u.Waits s g rank desc (.tile t (bits (nth m.header 1 0) 21 16) m.tag) ∧ u.grid.mesh = rest ∧ u.grid.tiles = s.grid.tiles) := by
  let v : State := { s with grid := { s.grid with mesh := rest } }
  have hrun : exec (.cflTileSubmit t) s = .next (v.cflTileTake t m) := by
    show Host.Outcome.next _ = _
    rw [htake]
  have htaken := (cflTileTake_submits (s := v) hm hg t).trans (cflSubmit_waits v hphase hcheck ..)
  exact ⟨_, hrun.trans (congrArg Host.Outcome.next htaken), waits_of_runs hid rfl, rfl, rfl⟩

theorem creditBack_cfl (s : State) (from_ : Option Nat) (vc n : Nat) : (s.creditBack from_ vc n).cfl = s.cfl := by
  unfold State.creditBack
  split
  · split <;> rfl
  · rfl

theorem ingressPop_cfl (s : State) (l : Nat) : (s.ingressPop l).cfl = s.cfl := by
  unfold State.ingressPop
  extract_lets x
  split
  · exact creditBack_cfl ..
  · rfl

/-- A collective-submit packet for the ACCEL rank of its own port is submitted for that rank (R308). -/
theorem collSubmitPacket_submits {l : Nat} {p : Packet} {ps : List Packet} (hin : (s.sub l).ingress = p :: ps) (hmode : (s.sub l).cfg.mode = .endpoint)
    (hulp : p.ulp = ulpColl) (hwords : leWords 16 p.payload = desc) (hg : s.cflGroup (cflDesc desc).group = some g)
    (hrank : g.d.hosted.find? (fun e => e.2 = .accel l) = some (rank, .accel l)) (hpart : (s.sub l).cfg.part = some g.d.part) :
    Yields (.collSubmitPacket l) s (fun u => u = (s.ingressPop l).cflSubmit g rank desc (.accel l p.reqId)) := by
  have hg' : (s.ingressPop l).cflGroup (cflDesc desc).group = some g := by rw [State.cflGroup, ingressPop_cfl]; exact hg
  refine ⟨_, ?_, rfl⟩
  show execCollSubmitPacket l s = _
  simp [execCollSubmitPacket, hin, hmode, hulp, hwords, hg', hrank, hpart]

/-! ### The start (R218) -/

theorem collectiveStart_begins {gid : Nat} {r : CflRun} (hg : s.cflGroup gid = some g) (hr : s.cflHeadOf gid rank = some r)
    (hacc : s.cflAccepts g = true) (hctx : s.cflContext g r = true) : Yields (.collectiveStart gid rank) s (fun u => u = s.cflBegin g r) := by
  refine ⟨_, congrArg Host.Outcome.next ?_, rfl⟩
  simp [State.cflStart, hg, hr, hacc, hctx]

/-! ### CFL_ABORT (R254) -/

theorem cflAbortCmd_all {gid : Nat} (hk : k.src.privileged = true) (hg : s.cflGroup gid = some g) :
    (s.cflAbortCmd k (.all gid)).st = s.cflEndAll (fun r => r.group = gid) := by
  dsimp only [State.cflAbortCmd]
  rw [KRes.check_pass _ _ (cflGuard_pass hk hg)]

/-- With the PF's rights an abort by JOB_TAG is for every partition. -/
theorem cflAbortCmd_job (hk : k.src.privileged = true) (tag : Nat) : (s.cflAbortCmd k (.job tag)).st = s.cflAbortJob tag none := by
  cases hs : k.src with
  | vf v => simp [hs, Source.privileged] at hk
  | _ => simp only [State.cflAbortCmd, hs]

/-- An abort of a collective that is started here ends it. -/
theorem cflAbortCmd_one {gid q : Nat} (hk : k.src.privileged = true) (hg : s.cflGroup gid = some g)
    (hrun : s.cfl.runs.any (fun r => r.group = gid && r.seq = some q) = true) :
    (s.cflAbortCmd k (.one gid q)).st = s.cflEndOne (gid, q) .aborted := by
  dsimp only [State.cflAbortCmd]
  rw [KRes.check_pass _ _ (cflGuard_pass hk hg)]
  simp only [hg, hrun, Bool.true_or, if_true]

/-- An abort of a group that is not open and has no collective here has nothing to end. -/
theorem cflAbortCmd_idle {gid q : Nat} (hk : k.src.privileged = true) (hg : s.cflGroup gid = some g) (hidle : ∀ r ∈ s.cfl.runs, r.group ≠ gid)
    (hopen : g.isOpen = false) : s.cflAbortCmd k (.one gid q) = { st := s } := by
  have hany : s.cfl.runs.any (fun r => r.group = gid && r.seq = some q) = false := List.any_eq_false.2 fun r hr => by simp [hidle r hr]
  have hphase : g.phase = .defined := by simpa [CflGroup.isOpen] using hopen
  have hwaits : s.cflWaits [(gid, q)] = [] := by simp [State.cflWaits, hg, hphase]
  unfold State.cflAbortCmd
  refine (KRes.check_pass _ _ (cflGuard_pass hk hg)).trans ?_
  simp [hg, hany, hphase, hwaits]

/-- A free CFL_ABORT leaves what its body leaves. -/
theorem cflAbort_yields (h : s.Open k) (what : AbortWhat) {v : State} (hv : ((s.entered k 0x0606).cflAbortCmd k what).st = v) :
    Yields (.cflAbort k what) s (fun u => u.Follows v) :=
  h.yields rfl rfl fun _ hu _ => hv ▸ hu

end

/-- Settles O34, path by path, then the start and the aborts. -/
theorem confluenceSubmissions : Obligations.ConfluenceSubmissions := by
  unfold Obligations.ConfluenceSubmissions
  intro s g rank desc d hg hid hphase hcheck waits
  refine ⟨fun k h hacts hkind => cflSubmit_runs h hg hid hphase hcheck hacts hkind,
    fun t m rest htake hlen hres hrank huser hwords hpart hkind =>
      cflTileSubmit_waits ⟨hlen, hres, hrank, huser, hwords, hpart, hkind⟩ htake hg hid hphase hcheck,
    fun l p ps hin hmode hulp hwords hrank hpart => collSubmitPacket_submits hin hmode hulp hwords hg hrank hpart,
    fun r hr hacc hctx => collectiveStart_begins hg hr hacc hctx,
    fun k h => ?aborts⟩
  case aborts =>
    rw [h.enter]
    exact ⟨cflAbort_yields h _ (cflAbortCmd_all h.priv hg), fun tag => cflAbort_yields h _ (cflAbortCmd_job h.priv tag),
      fun q hrun => cflAbort_yields h _ (cflAbortCmd_one h.priv hg hrun),
      fun q hidle hopen => h.leaves rfl (cflAbortCmd_idle (s := s.entered k 0x0606) h.priv hg hidle hopen) (.refl _)
        fun u hu ha => ⟨hu.trans (entered_follows ..), ha⟩⟩

end Sys2Proof.Machine
end

section
namespace Sys2Proof.Machine

/-! ## Confluence packets at a die's runtime (R228 to R231, R248 to R250) -/

/-! ### The packet at the head of what has arrived -/

section
variable {s : State} {die rank : Nat} {p : Packet} {g : CflGroup} {rest : List (Nat × LocalTarget × Packet)} {ok : Packet → Bool}

/-- The state without the packet that the runtime takes. -/
def State.withInbox (s : State) (rest : List (Nat × LocalTarget × Packet)) : State := s.setFab { s.fab with inbox := rest }

/-- What the receiving of a packet rests on: it is the first that has arrived, at this die's runtime, for a rank that an open group hosts here. -/
structure State.Arrived (s : State) (die rank : Nat) (p : Packet) (g : CflGroup) (rest : List (Nat × LocalTarget × Packet)) : Prop where
  group  : s.cflGroup p.cflGroup = some g
  id     : g.d.id = p.cflGroup
  dest   : g.d.members.idxOf? p.dest = some rank
  opened : g.isOpen = true
  hosted : g.hosts rank = true
  inbox  : ∃ n x, s.fab.inbox = (n, .cfl die x, p) :: rest

/-- It is given to the node of its rank where its kind is one of those received (R228). -/
theorem cflReceive_gives (h : s.Arrived die rank p g rest) (hok : ok p = true) (go : State → CflGroup → Nat → Packet → State) :
    s.cflReceive die ok go = go (s.withInbox rest) g rank p := by
  obtain ⟨hg, -, hrank, hopen, hhosts, n, x, hin⟩ := h
  have hinbox : s.cflInbox die ok = some (p, s.withInbox rest) := by
    simp [State.cflInbox, hin, takeFirst, hok, State.withInbox]
  have hg : (s.withInbox rest).cflGroup p.cflGroup = some g := hg
  simp only [State.cflReceive, hinbox, hg, hrank, hopen, hhosts, Bool.and_self, if_true]

/-! ### Where it goes (R231) -/

section
variable {after : State → Nat → State}

/-- What comes for a collective that has not started at the rank is kept, in the buffer granted for it where it is a block. -/
theorem cflArrive_keeps (s : State) (hnone : s.started g.d.id rank p.cflSeq = none) (hseq : seqBefore p.cflSeq (g.nextSeq rank) = false) :
    ∃ b grants bad, s.cflArrive g rank p after = s.setCfl { s.cfl with early := s.cfl.early ++ [(rank, p, b)], grants := grants, bad := bad } := by
  unfold State.cflArrive
  extract_lets tree kind peer k data
  cases if data then s.cfl.grants.lookD k [] else [] with
  | nil =>
    simp only [hnone, hseq]
    exact ⟨_, _, _, rfl⟩
  | cons i rest =>
    dsimp only
    split
    · next r hr => exact absurd (hnone.symm.trans hr) nofun
    · rw [hseq]
      exact ⟨_, _, _, rfl⟩

section
variable (hp : p.isData = false)
include hp

/-- A control packet takes no buffer. -/
theorem cflArrive_started (s : State) {r : CflRun} (hr : s.started g.d.id rank p.cflSeq = some r) :
    s.cflArrive g rank p after = after (s.cflTake g r p none) r.id := by
  simp [State.cflArrive, hp, hr]

/-- A control packet for a collective that is over is discarded. -/
theorem cflArrive_over (s : State) (hnone : s.started g.d.id rank p.cflSeq = none) (hseq : seqBefore p.cflSeq (g.nextSeq rank) = true) :
    s.cflArrive g rank p after = s := by
  simp [State.cflArrive, hp, hnone, hseq, State.cflFree]

end
end

/-! ### Credits (R228) -/

/-- The stream that a CREDIT to a rank is for. -/
def CflGroup.creditStream (g : CflGroup) (rank : Nat) (p : Packet) : Nat :=
  cflStream g.d.id rank p.cflSrc p.cflTree (parentRank p.cflTree rank g.n ≠ some p.cflSrc)

/-- Where no block waits to be sent and the rank has started no collective, credits add to their stream and nothing else follows. -/
theorem cflCreditTake_idle (s : State) (houts : s.cfl.outs = []) (hidle : ∀ r ∈ s.cfl.runs, r.group = g.d.id → r.rank = rank → r.seq = none) :
    s.cflCreditTake g rank p =
      s.setCfl { s.cfl with credits := s.cfl.credits.put (g.creditStream rank p) (s.cflCredit (g.creditStream rank p) + p.cflCredits) } := by
  have hnone : ∀ r ∈ s.cfl.runs, (r.group = g.d.id && r.rank = rank && r.seq.isSome) = false := fun r hr =>
    Bool.eq_false_iff.2 fun h => by
      simp only [Bool.and_eq_true, decide_eq_true_eq] at h
      obtain ⟨⟨hgroup, hrank⟩, hstarted⟩ := h
      rw [hidle r hr hgroup hrank] at hstarted
      exact Bool.false_ne_true hstarted
  have hruns : s.cfl.runs.map (fun r => if r.group = g.d.id && r.rank = rank && r.seq.isSome then { r with last := s.now } else r) = s.cfl.runs :=
    (List.map_congr_left (g := id) fun r hr => if_neg (Bool.eq_false_iff.1 (hnone r hr))).trans (List.map_id _)
  have hfilter : s.cfl.runs.filter (fun r => r.group = g.d.id && r.rank = rank && r.seq.isSome) = [] :=
    List.filter_eq_nil_iff.2 fun r hr => by simp [hnone r hr]
  unfold State.cflCreditTake
  rw [hruns]
  extract_lets tree down k c s1 s2
  have hs2 : s2 = s1 := by
    have houts1 : s1.cfl.outs = [] := houts
    have hnext : s1.cflNext g k = none := by rw [State.cflNext, houts1]; rfl
    unfold s2
    rw [houts1, List.length_nil, State.cflDrain]
    simp only [hnext]
  rw [hs2]
  exact congrArg (fun l : List CflRun => (l.map (·.id)).foldl State.cflFinish s1) hfilter

end

/-! ### What a leaf sends (R229, R241) -/

/-- The bit of the wire data at which item i begins. -/
def CflDesc.bitOf (d : CflDesc) (items : List WItem) (i : Nat) : Nat := ((items.take i).map d.itemBits).foldl (· + ·) 0

/-- The items that begin before the end of a block. -/
def CflDesc.upTo (d : CflDesc) (items : List WItem) (block : Nat) : List WItem :=
  items.take (((List.range items.length).filter (fun i => d.bitOf items i < 32768 * (block + 1))).length)

/-- A block of the node's own words. -/
def CflRun.ownBlock (r : CflRun) (tree seg block : Nat) : List Byte :=
  blockSlice block (packWords ((r.d.upTo (r.d.items tree seg) block).map (fun i => (r.d.itemBits i, r.own tree seg i))))

/-- A collective that has combined a block of a lane: the next is the one behind it. -/
def CflRun.combined (r : CflRun) (tree seg block : Nat) : CflRun := { r with pos := r.pos.put (posKey r.d tree false) (seg, block + 1) }

/-- Added up from the first item on, the widths give the bit at which each begins. -/
theorem bitOf_eq_foldl (d : CflDesc) (items : List WItem) :
    items.foldl (fun (a : List Nat × Nat) i => (a.1 ++ [a.2], a.2 + d.itemBits i)) ([], 0) =
      ((List.range items.length).map (d.bitOf items), d.bitOf items items.length) := by
  induction items using List.reverseRecOn with
  | nil => rfl
  | append_singleton items i ih =>
    have hbit : ∀ k, k ≤ items.length → d.bitOf (items ++ [i]) k = d.bitOf items k := fun k hk => by
      rw [CflDesc.bitOf, List.take_append_of_le_length hk, CflDesc.bitOf]
    have hmap : (List.range items.length).map (d.bitOf (items ++ [i])) = (List.range items.length).map (d.bitOf items) :=
      List.map_congr_left fun k hk => hbit k (List.mem_range.1 hk).le
    have hend : d.bitOf (items ++ [i]) (items.length + 1) = d.bitOf items items.length + d.itemBits i := by
      rw [CflDesc.bitOf, List.take_of_length_le (by simp), CflDesc.bitOf, List.take_length]
      simp
    rw [List.foldl_append, ih, List.length_append, List.length_singleton, List.range_succ, List.map_append, hmap,
      List.map_singleton, hbit _ le_rfl, hend]
    rfl

/-- A node with a parent and without children in a tree, at a block of a reduction that needs no phase 1 and is its next. -/
structure CflRun.Leaf (r : CflRun) (n tree seg block up : Nat) : Prop where
  ctl     : r.d.ctl = false
  moves   : r.d.moves = false
  selects : r.d.selects = false
  anchor  : r.d.anchor = false
  ins     : r.ins = []
  ready   : r.ready = true
  lane    : (tree, false) ∈ r.d.lanes n r.rank
  next    : r.at_ tree false = (seg, block)
  segs    : seg < r.d.segs
  base    : seg < r.base n + 4
  kids    : childRanks tree r.rank n = []
  parent  : parentRank tree r.rank n = some up

section
variable {s : State} {r : CflRun} {g : CflGroup} {n tree seg block up : Nat}

theorem fromKids_leaf (h : childRanks tree r.rank n = []) (kind : Nat) : r.fromKids n kind tree seg = some ([], []) := by
  obtain ⟨hl, hr⟩ := List.append_eq_nil_iff.1 h
  simp only [CflRun.fromKids, Option.toList_eq_nil_iff.1 hl, Option.toList_eq_nil_iff.1 hr]

/-- A leaf makes its own block for its parent. -/
theorem make_leaf (h : r.Leaf n tree seg block up) : r.make n tree seg block false = some (.up 0 (r.ownBlock tree seg block)) := by
  obtain ⟨hctl, hmoves, hselects, hanchor, hins, hready, hlane, hnext, hsegs, hbase, hkids, hparent⟩ := h
  have hgo : (!r.ready || !(r.d.lanes n r.rank).contains (tree, false) || r.at_ tree false ≠ (seg, block) || r.d.segs ≤ seg || r.base n + 4 ≤ seg) =
      false := by
    simp [hready, hlane, hnext, hsegs, hbase]
  have hmake : r.make n tree seg block false = r.makeReduce n tree seg block := by
    simp only [CflRun.make, hgo, hselects, hmoves, Bool.false_eq_true, if_false]
  rw [hmake]
  have hcount : (((List.range (r.d.items tree seg).length).map (r.d.bitOf (r.d.items tree seg))).filter (· < 32768 * (block + 1))).length =
      ((List.range (r.d.items tree seg).length).filter (fun i => r.d.bitOf (r.d.items tree seg) i < 32768 * (block + 1))).length := by
    rw [List.filter_map, List.length_map]
    rfl
  have hzip : ∀ part : List WItem, (part.map r.d.itemBits).zip ((part.map (fun i => (i, r.own tree seg i))).map (·.2)) =
      part.map (fun i => (r.d.itemBits i, r.own tree seg i)) := fun part => by
    rw [List.map_map, List.zip_map']
    rfl
  simp only [CflRun.makeReduce, fromKids_leaf hkids, hctl, hanchor, hparent, bitOf_eq_foldl, hcount, hzip,
    Option.bind_eq_bind, Option.bind_some, List.append_nil, List.any_nil, List.foldl_nil,
    Bool.false_and, Bool.false_eq_true, if_false, Option.isSome_some, if_true]
  rfl

/-- The block that a leaf has made goes to its parent, and what waits on the rank's streams may follow. -/
theorem cflCombine_leaf (h : r.Leaf g.n tree seg block up) (hr : s.cflRun r.id = some r) (hg : s.cflGroup r.group = some g) :
    s.cflCombine r.id tree seg block false =
      some (((s.setRun (r.combined tree seg block)).cflBlock g (r.combined tree seg block) up 0 tree seg block r.rank (r.ownBlock tree seg block)
        none).cflDrainAll g r.rank) := by
  have hmake := make_leaf h
  obtain ⟨hctl, -, hselects, -, hins, -, -, -, -, -, -, hparent⟩ := h
  have hbad : s.cflBad g [] = none := by simp [State.cflBad]
  simp only [State.cflCombine, hr, hg, hmake, Option.bind_eq_bind, Option.bind_some, hins, List.filter_nil,
    List.flatMap_nil, hbad, hselects, hctl, hparent, CflRun.combined, Bool.false_and, Bool.false_eq_true, if_false, List.map_nil, List.foldl_nil]

/-- The combining step of a leaf, and what follows at its node. -/
theorem cflCombine_sends {rank seq : Nat} (h : r.Leaf g.n tree seg block up) (hstart : s.started g.d.id rank seq = some r)
    (hr : s.cflRun r.id = some r) (hg : s.cflGroup r.group = some g) : Yields (.cflCombine g.d.id rank seq tree seg block false) s (fun u =>
      u = (((s.setRun (r.combined tree seg block)).cflBlock g (r.combined tree seg block) up 0 tree seg block r.rank (r.ownBlock tree seg block)
        none).cflDrainAll g r.rank).cflStep r.id) := by
  refine ⟨_, congrArg Host.Outcome.next ?_, rfl⟩
  simp only [hstart, cflCombine_leaf h hr hg, Option.map_some, Option.getD_some]

end

/-! ### A collective without progress (R250) -/

theorem cflProgTimeout_aborts {s : State} {gid seq cc : Nat} {g : CflGroup} {r : CflRun} (hg : s.cflGroup gid = some g)
    (hr : s.cfl.runs.find? (fun r => r.group = gid && r.seq = some seq && r.last + 2 ^ g.d.progTimeoutLog2 ≤ max s.now cc) = some r) :
    Yields (.cflProgTimeout gid seq cc) s (fun u => u = (s.at cc).cflAbort g seq .timeout (some r.rank) none true) := by
  have hg' : (s.at cc).cflGroup gid = some g := hg
  have hr' : (s.at cc).cfl.runs.find? (fun r => r.group = gid && r.seq = some seq && r.last + 2 ^ g.d.progTimeoutLog2 ≤ (s.at cc).now) = some r := hr
  refine ⟨_, congrArg Host.Outcome.next ?_, rfl⟩
  simp only [hg', hr']

/-! ### The statement, packet by packet -/

section
variable {s : State} {die rank : Nat} {p : Packet} {g : CflGroup} {rest : List (Nat × LocalTarget × Packet)} {ok : Packet → Bool} {i : Instr}
  {after : State → Nat → State}

/-- An instruction that receives packets of some kinds yields what the node of the rank makes of the packet. -/
theorem State.Arrived.yields {go : State → CflGroup → Nat → Packet → State} {P : State → Prop} (h : s.Arrived die rank p g rest)
    (hi : exec i s = .next (s.cflReceive die ok go)) (hok : ok p = true) (hP : P (go (s.withInbox rest) g rank p)) : Yields i s P :=
  ⟨_, hi, by rwa [cflReceive_gives h hok]⟩

/-- What comes for a collective that has not started is kept, and nothing else changes but the grants of its stream. -/
theorem State.Arrived.keeps (h : s.Arrived die rank p g rest) (hok : ok p = true)
    (hi : exec i s = .next (s.cflReceive die ok (fun s g rank p => s.cflArrive g rank p after)))
    (hnone : s.started g.d.id rank p.cflSeq = none) (hseq : seqBefore p.cflSeq (g.nextSeq rank) = false) : Yields i s (fun u =>
      (∃ b, u.cfl.early = s.cfl.early ++ [(rank, p, b)]) ∧ u.cfl.runs = s.cfl.runs ∧ u.cfl.groups = s.cfl.groups ∧
        u.fab = (s.withInbox rest).fab) := by
  refine h.yields hi hok ?_
  obtain ⟨b, grants, bad, hu⟩ := cflArrive_keeps (after := after) (s.withInbox rest) hnone hseq
  rw [hu]
  exact ⟨⟨b, rfl⟩, rfl, rfl, rfl⟩

/-- An ABORT of a collective that is live here ends it (R248). -/
theorem cflAbortTake_live (h : s.cfl.runs.any (fun r => r.group = g.d.id && r.seq = some p.cflSeq) = true) : s.cflAbortTake g rank p =
    s.cflAbort g p.cflSeq ((Status.ofCode p.cflStatus).getD .aborted) (if (p.word 4).getLsbD 16 then some ((p.word 4).toNat % 65536) else none)
      (some p.cflSrc) false := by
  have hrank : bits (p.word 4) 15 0 = (p.word 4).toNat % 65536 := by simp [bits, fld]
  simp only [State.cflAbortTake, h, Bool.true_or, if_true, hrank]
  rfl

/-- An ABORT of a collective that every rank here is done with is discarded. -/
theorem cflAbortTake_over (hidle : ∀ r ∈ s.cfl.runs, r.group = g.d.id → r.seq ≠ some p.cflSeq)
    (hover : ∀ e ∈ g.d.hosted, seqBefore p.cflSeq (g.nextSeq e.1) = true) : s.cflAbortTake g rank p = s := by
  have hruns : s.cfl.runs.any (fun r => r.group = g.d.id && r.seq = some p.cflSeq) = false := List.any_eq_false.2 fun r hr => by
    simpa using hidle r hr
  have hranks : g.d.hosted.any (fun e => !seqBefore p.cflSeq (g.nextSeq e.1)) = false := List.any_eq_false.2 fun e he => by simp [hover e he]
  simp only [State.cflAbortTake, hruns, hranks, Bool.and_false, Bool.false_and, Bool.or_false, Bool.false_eq_true, if_false]

end

/-- Settles O35: a block, the control packets of a collective, a CREDIT, an ABORT, then the step of a leaf and the timeout. -/
theorem confluencePackets : Obligations.ConfluencePackets := by
  unfold Obligations.ConfluencePackets
  intro s die rank n x p g rest hg hid hdest hopen hhosts hin v kept control
  have h : s.Arrived die rank p g rest := ⟨hg, hid, hdest, hopen, hhosts, n, x, hin⟩
  have hcontrol : ∀ (i : Instr) (ok : Packet → Bool), exec i s = .next (s.cflReceive die ok (fun s g rank p => s.cflArrive g rank p State.cflStep)) →
      ok p = true → p.isData = false → control i := fun i ok hi hok hctl =>
    ⟨h.keeps hok hi, fun hnone hseq => h.yields hi hok (cflArrive_over hctl v hnone hseq), fun r hr => h.yields hi hok (cflArrive_started hctl v hr)⟩
  refine ⟨fun hdata => ⟨h.keeps (ok := fun p => p.isData) hdata rfl, fun r _ => h.yields (ok := fun p => p.isData) rfl hdata rfl⟩,
    fun hctl hkind => hcontrol (.digestUpReceive die) _ rfl (by simp [hctl, hkind]) hctl,
    fun hctl hkind => hcontrol (.confirmReceive die) _ rfl (by simp [hctl, hkind]) hctl,
    fun hctl hkind => hcontrol (.scalarReceive die) _ rfl (by rcases hkind with hkind | hkind | hkind | hkind <;> simp [hctl, hkind]) hctl,
    fun hctl hkind => ?credit, fun hctl hkind => ?abort, fun seq tree seg block r up hstart hr hgroup => ?leaf,
    fun gid seq cc h r hg hr => cflProgTimeout_aborts hg hr⟩
  case credit =>
    have hok : (!p.isData && p.cflKind = 8) = true := by simp [hctl, hkind]
    refine ⟨h.yields rfl hok rfl, fun houts hidle => h.yields rfl hok ?_⟩
    rw [cflCreditTake_idle (s.withInbox rest) houts hidle]
    exact ⟨SMap.lookD_put_same .., rfl, rfl⟩
  case abort =>
    have hok : (!p.isData && p.cflKind = 7) = true := by simp [hctl, hkind]
    exact ⟨fun hlive => h.yields rfl hok (cflAbortTake_live (s := v) hlive),
      fun hidle hover => h.yields rfl hok (cflAbortTake_over (s := v) hidle hover)⟩
  case leaf =>
    intro d hctl hmoves hselects hanchor hins hready hlane hnext hsegs hbase hkids hparent
    have hg : s.cflGroup r.group = some g := by rw [hgroup, hid, hg]
    exact cflCombine_sends ⟨hctl, hmoves, hselects, hanchor, hins, hready, hlane, hnext, hsegs, hbase, hkids, hparent⟩ hstart hr hg

end Sys2Proof.Machine
end

section
namespace Sys2Proof.Machine

/-! ## Gazetteer: what its operations leave alone, and its commands (R258, R263, R272, R279, R288) -/

/-! ### Row reads on their way (R266, R267, R270) -/

/-- From o to s nothing of the grid changed, and nothing of Gazetteer but its counters: what row reads do, from their issue to
their place in a queue. -/
structure OnlyCounts (o s : State) : Prop where
  grid : s.grid = o.grid
  gaz  : s.gaz = { o.gaz with counts := s.gaz.counts }

namespace OnlyCounts
variable {o s u : State}

theorem refl (s : State) : OnlyCounts s s := ⟨rfl, rfl⟩

/-- Other parts of the state do not matter. -/
theorem same (h : OnlyCounts o s) (hgrid : u.grid = s.grid) (hgaz : u.gaz = s.gaz) : OnlyCounts o u :=
  ⟨hgrid.trans h.grid, by rw [hgaz]; exact h.gaz⟩

theorem withStk {a} (h : OnlyCounts o s) : OnlyCounts o { s with stk := a } := h.same rfl rfl

theorem noted (h : OnlyCounts o s) (hu : Noted s u) : OnlyCounts o u := h.same hu.grid (by rw [hu.all])

theorem notify {n st part subject detail g addr job} (h : OnlyCounts o s) : OnlyCounts o (s.notify n st part subject detail g addr job) :=
  h.noted (notify_noted ..)

theorem drift {k ps} (h : OnlyCounts o s) : OnlyCounts o (s.drift k ps) := h.noted (drift_noted ..)

theorem countGaz {i n} (h : OnlyCounts o s) : OnlyCounts o (s.countGaz i n) :=
  ⟨h.grid, congrArg (fun g : Gaz => { g with counts := s.gaz.counts.modify i (satInc · n) }) h.gaz⟩

theorem ite {c : Prop} [Decidable c] (h : OnlyCounts o s) (h' : OnlyCounts o u) : OnlyCounts o (if c then s else u) := by
  split <;> assumption

theorem iteSnd {α : Type} {c : Prop} [Decidable c] {x y : α × State} (h : OnlyCounts o x.2) (h' : OnlyCounts o y.2) :
    OnlyCounts o (if c then x else y).2 := by
  split <;> assumption

theorem foldl {α : Type} {f : State → α → State} {l : List α} (h : OnlyCounts o s) (hf : ∀ s a, OnlyCounts o s → OnlyCounts o (f s a)) :
    OnlyCounts o (l.foldl f s) := List.foldlRecOn l f h fun s hs a _ => hf s a hs

/-! The pool of memory requests. -/

theorem putPool {d p x} (h : OnlyCounts o s) : OnlyCounts o (s.putPool d p x) := by
  unfold State.putPool
  extract_lets _ s1 _ s2
  have h1 : OnlyCounts o s1 := h.same rfl rfl
  have h2 : OnlyCounts o s2 := .ite (.notify (h1.same rfl rfl)) h1
  exact h2.notify.ite h2

theorem platTake {d p w i} (h : OnlyCounts o s) (hu : s.platTake d p w = some (i, u)) : OnlyCounts o u := by
  dsimp only [State.platTake] at hu
  split at hu
  · obtain ⟨r, -, hr⟩ := Option.map_eq_some_iff.1 hu
    obtain ⟨-, rfl⟩ := Prod.mk.inj hr
    exact h.putPool
  · cases hu

theorem platHold {d p w} (h : OnlyCounts o s) : OnlyCounts o (s.platHold d p w) := .ite (.drift (h.same rfl rfl)) h

theorem platFree {d p q i} (h : OnlyCounts o s) : OnlyCounts o (s.platFree d p q i).2 := by
  refine .iteSnd h (.iteSnd ?_ h.putPool)
  dsimp only
  exact .notify (h.same rfl rfl)

theorem memTake {r} (h : OnlyCounts o s) : OnlyCounts o (s.memTake r) := by
  unfold State.memTake
  refine h.ite ?_
  split
  · next hu => exact (h.platTake hu).same rfl rfl
  · exact h

/-! The ways that a read may take: to its controller, a far port, pinned rows; or it is lost. -/

theorem reach {r} (h : OnlyCounts o s) : OnlyCounts o (s.reach r) := by
  dsimp only [State.reach]
  split
  · split
    · exact .ite (h.same rfl rfl) (.ite (h.same rfl rfl) (h.same rfl rfl))
    · exact h.same rfl rfl
  · exact h.same rfl rfl

theorem leave {id} (h : OnlyCounts o s) : OnlyCounts o (s.leave id) := by
  dsimp only [State.leave]
  split
  · exact h
  · split
    · refine .ite (.reach ?_) h
      split
      · exact h.platFree
      · exact h
    · exact h.reach

theorem portStop {r} (h : OnlyCounts o s) : OnlyCounts o (s.portStop r) := .drift (h.same rfl rfl)

theorem portWait {id} (h : OnlyCounts o s) : OnlyCounts o (s.portWait id) := by
  have htaken : ∀ k ps r, OnlyCounts o ((s.drift k ps).memTake r) := fun _ _ _ => h.drift.memTake
  dsimp only [State.portWait]
  split
  · exact .ite (.ite (htaken ..).portStop (.ite (htaken ..).platHold (htaken ..))) h
  · exact h

theorem farLose {r} (h : OnlyCounts o s) : OnlyCounts o (s.farLose r) := by
  dsimp only [State.farLose]
  refine .withStk ?_
  split
  · exact .ite (.drift (h.same rfl rfl)) (h.same rfl rfl)
  · exact h.same rfl rfl

theorem farLeave {id} (h : OnlyCounts o s) : OnlyCounts o (s.farLeave id) := by
  unfold State.farLeave
  split
  · exact h
  · split
    · exact h.farLose.ite (.ite (h.same rfl rfl) h)
    · exact h

theorem pinLeave {id} (h : OnlyCounts o s) : OnlyCounts o (s.pinLeave id) := by
  dsimp only [State.pinLeave]
  split
  · exact h
  · split
    · exact .ite (h.same rfl rfl) (h.same rfl rfl)
    · exact h

theorem leaveOther {r} (h : OnlyCounts o s) : OnlyCounts o (s.leaveOther r) := by
  unfold State.leaveOther
  refine h.ite ?_
  split
  · exact h
  · exact h.farLeave
  · exact h.pinLeave

theorem memSend {r} (h : OnlyCounts o s) : OnlyCounts o (s.memSend r) := by
  dsimp only [State.memSend]
  split
  · exact h.withStk.leave.portWait
  · exact h.withStk.portStop.ite h.withStk.leaveOther

theorem memLost {r} (h : OnlyCounts o s) : OnlyCounts o (s.memLost r) := by
  dsimp only [State.memLost]
  split
  · exact h.withStk.farLose
  · exact h.same rfl rfl

/-! The row reads of a request. -/

theorem gazRowIssue {r i row} (h : OnlyCounts o s) : OnlyCounts o (s.gazRowIssue r i row).2 := by
  dsimp only [State.gazRowIssue]
  split
  · exact h
  · split
    · exact h
    · split
      · exact h.countGaz.memLost
      · exact h.countGaz.foldl fun _ _ h => h.memSend

theorem gazIssue : ∀ {n s r}, OnlyCounts o s → OnlyCounts o (State.gazIssue n s r).2
  | 0, _, _, h => h
  | n + 1, s, r, h => by
    dsimp only [State.gazIssue]
    split
    · exact h
    · exact (h.gazRowIssue.countGaz.ite h.gazRowIssue).gazIssue

end OnlyCounts

/-! ### A unit takes a request (R266, R270) -/

/-- The request q is r but for its rows, how many of them have been issued and the latest completion. -/
def GazReq.SameRequest (r q : GazReq) : Prop := q = { r with rows := q.rows, sent := q.sent, last := q.last }

theorem gazIssue_sameRequest : ∀ (n : Nat) (s : State) (r : GazReq), r.SameRequest (s.gazIssue n r).1
  | 0, _, _ => rfl
  | n + 1, s, r => by
    dsimp only [State.gazIssue]
    split
    · rfl
    · exact (gazIssue_sameRequest n ..).trans rfl

/-- A request as its unit takes it, and the reads that are issued at once: all of them, or none in a Datum partition. -/
def State.gazTaken (s : State) (r : GazReq) : GazReq × State :=
  if s.partDatum r.part then ({ r with len := 0, body := [] }, s.countGaz gazReqs)
  else (s.countGaz gazReqs).gazIssue r.rows.length { r with len := 0, body := [] }

theorem gazAccept_eq (s : State) (r : GazReq) : s.gazAccept r =
    (s.gazTaken r).2.setGaz { (s.gazTaken r).2.gaz with reqs := (s.gazTaken r).2.gaz.reqs ++ [(s.gazTaken r).1] } := rfl

theorem gazTaken_sameRequest (s : State) (r : GazReq) : GazReq.SameRequest { r with len := 0, body := [] } (s.gazTaken r).1 := by
  unfold State.gazTaken
  split
  · rfl
  · exact gazIssue_sameRequest ..

theorem gazTaken_onlyCounts (s : State) (r : GazReq) : OnlyCounts s (s.gazTaken r).2 :=
  .iteSnd (.countGaz (.refl s)) (.gazIssue (.countGaz (.refl s)))

theorem gazAccept_grid (s : State) (r : GazReq) : (s.gazAccept r).grid = s.grid := (gazTaken_onlyCounts s r).grid

/-- A request that is taken goes behind those in flight; nothing else of Gazetteer changes but its counters. -/
theorem gazAccept_gaz (s : State) (r : GazReq) : (s.gazAccept r).gaz =
    { s.gaz with reqs := s.gaz.reqs ++ [(s.gazTaken r).1], counts := (s.gazAccept r).gaz.counts } :=
  congrArg (fun g : Gaz => { g with reqs := g.reqs ++ [(s.gazTaken r).1] }) (gazTaken_onlyCounts s r).gaz

/-- The request q was made from this head and this payload; its row reads may have begun. -/
structure GazReq.MadeOf (q : GazReq) (id die : Nat) (src : GazFrom) (part : Nat) (w : Word) (payload : List Byte) : Prop where
  id   : q.id = id
  die  : q.die = die
  src  : q.src = src
  part : q.part = part
  head : q.head = w
  bags : q.bags = bagTable (bits w 7 0) payload

theorem gazTaken_gazMake (s : State) (id die : Nat) (src : GazFrom) (part : Nat) (head : Word) (payload : List Byte) :
    (s.gazTaken (gazMake id die src part head payload)).1.MadeOf id die src part head payload := by
  have h := gazTaken_sameRequest s (gazMake id die src part head payload)
  unfold GazReq.SameRequest at h
  rw [h]
  exact ⟨rfl, rfl, rfl, rfl, rfl, rfl⟩

/-! ### Tables (R258, R263) -/

theorem State.Follows.gaz {u v : State} (h : u.Follows v) : u.gaz = v.gaz := by rw [h.eq]

theorem State.Follows.gazTable {u v : State} (h : u.Follows v) (t : Nat) : u.gazTable t = v.gazTable t := by
  rw [State.gazTable, h.gaz, State.gazTable]

theorem State.Follows.setGaz {u v : State} (h : u.Follows v) (g : Gaz) : (u.setGaz g).Follows (v.setGaz g) := by
  rw [h.eq]
  rfl

theorem State.Follows.setBank {u v : State} (h : u.Follows v) (b : Nat) (x : Bank) : (u.setBank b x).Follows (v.setBank b x) := by
  rw [State.setBank, h.eq]
  rfl

theorem State.Follows.progress {u v : State} (h : u.Follows v) (opcode key : Nat) : (u.progress opcode key).Follows (v.progress opcode key) :=
  .trans (v := u) rfl (h.trans rfl)

/-- Banks are turned on alike in states that differ in nothing but Compass's records of commands and of settings. -/
theorem State.Follows.pinOn {u v : State} (h : u.Follows v) (die off n : Nat) : (u.pinOn die off n).Follows (v.pinOn die off n) := by
  refine List.foldl_rel h fun b _ u v huv => ?_
  have hbank : u.bank b = v.bank b := by rw [State.bank, huv.eq, State.bank]
  rw [hbank]
  split
  · exact huv
  · exact (huv.setBank ..).progress ..

theorem KeepsWaiting.pinOn {o s : State} {die off n} (h : KeepsWaiting o s) : KeepsWaiting o (s.pinOn die off n) :=
  h.foldl fun _ _ h => h.ite h.withAtl.progress

section
variable {s : State} {k : Kci} {table : Nat} {x : GazTable}

/-- What a view covers is the regions' matter alone. -/
theorem viewCovers_entered (s : State) (k : Kci) (opcode o : Nat) (ok : StkRegion → Bool) :
    (s.entered k opcode).viewCovers o ok = s.viewCovers o ok := by
  funext f
  induction f with
  | zero => rfl
  | succ f ih =>
    funext a n
    have hfind : (s.entered k opcode).stkFind o a 1 = s.stkFind o a 1 := rfl
    simp only [State.viewCovers, hfind, ih]

theorem tableBad_entered (s : State) (k : Kci) (opcode : Nat) (d : TableDef) : (s.entered k opcode).tableBad d = s.tableBad d := by
  unfold State.tableBad
  rw [viewCovers_entered]
  rfl

theorem gazTableDefine_answers (h : s.Open k) {d : TableDef} (hpart : s.partExists d.part = true) (hd : s.tableBad d = false) :
    Yields (.gazTableDefine k d) s (fun u =>
      u.Follows ((s.pinOn d.pinDie d.pinOff (d.pinRows * d.rowBytes)).setGaz { s.gaz with tables := s.gaz.tables.put d.id { d := d } }) ∧
      u.Answered k 0x0701 .ok []) := by
  refine h.answers rfl (KRes.check_pass _ _ ?_) (.withGaz (.pinOn (.refl _))) rfl
    fun u hu ha => ⟨hu.trans (((entered_follows s k 0x0701).pinOn ..).setGaz _), ha⟩
  simp [Kci.notOwn_privileged d.part h.priv, hpart, tableBad_entered, hd]

/-- A source with the PF's rights may name every table that is defined (R288). -/
theorem gazGuard_pass (hk : k.src.privileged = true) (hx : s.gazTable table = some x) : ∀ c ∈ s.gazGuard k table, c.1 = false := by
  simp [State.gazGuard, hx, Kci.notOwn_privileged _ hk]

/-- A table that no request in flight uses is freed at once (R263). -/
theorem gazTableDelete_frees (h : s.Open k) (hx : s.gazTable table = some x) (hdel : x.deleting = false)
    (hidle : ∀ q ∈ s.gaz.reqs, ∀ b ∈ q.bags, b.1 ≠ table) : Yields (.gazTableDelete k table) s (fun u =>
      u.Follows (s.setGaz { s.gaz with tables := s.gaz.tables.del table }) ∧ u.Answered k 0x0702 .ok []) := by
  have hused : s.gaz.reqs.any (fun q => q.bags.any (fun b => b.1 = table)) = false :=
    List.any_eq_false.2 fun q hq => Bool.not_eq_true _ ▸ List.any_eq_false.2 fun b hb => by simpa using hidle q hq b hb
  let t := ((s.entered k 0x0702).unconfig (fun e => e.opcode = 0x0701 && (nth e.words 0 0).toNat = table)).setGaz
    { s.gaz with tables := s.gaz.tables.del table }
  refine h.answers (r := { st := t, cont := tableCont x.d }) rfl ?_ (.withGaz (.withCmp (.refl _) rfl)) rfl fun u hu ha => ⟨hu.trans rfl, ha⟩
  refine (KRes.check_pass _ _ (gazGuard_pass h.priv (s := s.entered k 0x0702) hx)).trans ?_
  have hx : (s.entered k 0x0702).gazTable table = some x := hx
  simp only [hx, hdel]
  exact if_neg (Bool.eq_false_iff.1 hused)

/-- A table that requests in flight use is deleted when the last of them is over; it takes no further request (R263). -/
theorem gazTableDelete_waits (h : s.Open k) (hx : s.gazTable table = some x) (hdel : x.deleting = false)
    (hbusy : ∃ q ∈ s.gaz.reqs, ∃ b ∈ q.bags, b.1 = table) : Yields (.gazTableDelete k table) s (fun u =>
      u.gazTable table = some { x with deleting := true } ∧ u.Running k 0x0702 [table]) := by
  have hused : s.gaz.reqs.any (fun q => q.bags.any (fun b => b.1 = table)) = true := by simpa using hbusy
  let t := ((s.entered k 0x0702).unconfig (fun e => e.opcode = 0x0701 && (nth e.words 0 0).toNat = table)).setGaz
    { s.gaz with tables := s.gaz.tables.put table { x with deleting := true } }
  refine h.runs (r := { st := t, keys := [table], cont := tableCont x.d }) rfl ?_ (.withGaz (.withCmp (.refl _) rfl)) (by simp) rfl
    fun u hu ha => ⟨(hu.gazTable table).trans (SMap.look_put_same ..), ha⟩
  refine (KRes.check_pass _ _ (gazGuard_pass h.priv (s := s.entered k 0x0702) hx)).trans ?_
  have hx : (s.entered k 0x0702).gazTable table = some x := hx
  simp only [hx, hdel]
  exact if_pos hused

theorem gazTableQuery_answers (h : s.Open k) (hx : s.gazTable table = some x) : Yields (.gazTableQuery k table) s (fun u =>
    u.Follows s ∧ ∃ n, u.Answered k 0x0703 .ok ([x.d.id, x.d.part, x.d.fmt, x.d.block, x.d.d, x.d.rowBytes, x.d.pinRows, x.d.pinDie, x.d.pinOff,
      x.d.stkRows, x.d.stkBase, x.d.farRows, x.d.farPort, x.d.farBase, n].map wd)) := by
  let n := (s.gaz.reqs.filter (fun q => q.bags.any (fun b => b.1 = table))).length
  let words := [x.d.id, x.d.part, x.d.fmt, x.d.block, x.d.d, x.d.rowBytes, x.d.pinRows, x.d.pinDie, x.d.pinOff, x.d.stkRows, x.d.stkBase,
    x.d.farRows, x.d.farPort, x.d.farBase, n]
  refine h.answers (r := { st := s.entered k 0x0703, result := words.map wd }) rfl ?_ (.refl _) rfl
    fun u hu ha => ⟨hu.trans (entered_follows ..), n, ha⟩
  refine (KRes.check_pass _ _ (gazGuard_pass h.priv (s := s.entered k 0x0703) hx)).trans ?_
  have hx : (s.entered k 0x0703).gazTable table = some x := hx
  simp only [hx]
  rfl

/-! ### GAZ_LOOKUP (R263, R270, R272) -/

theorem gazWait_gaz (s : State) (die part : Nat) : (s.gazWait die part).gaz = s.gaz := by
  unfold State.gazWait
  split
  · rw [(drift_noted ..).all]
  · rfl

/-- The head of a lookup and its payload as the host gives them: USER word 0, then the payload (R272). -/
def State.lookupHead (s : State) (k : Kci) (body : Nat) : Word := nth (leWords 1 (s.hostRead k.src.fnIdx body 8)) 0 0
def State.lookupPayload (s : State) (k : Kci) (body len : Nat) : List Byte := s.hostRead k.src.fnIdx (body + 8) (64 * len)

/-- The request of a lookup command. -/
def State.lookupReq (s : State) (k : Kci) (die body len reply : Nat) : GazReq :=
  gazMake s.gaz.next die (.host k.src.fnIdx reply) (k.acts.getD 64) (s.lookupHead k body) (s.lookupPayload k body len)

theorem gazTaken_lookupReq (t s : State) (k : Kci) (die body len reply : Nat) : (t.gazTaken (s.lookupReq k die body len reply)).1.MadeOf
    s.gaz.next die (.host k.src.fnIdx reply) (k.acts.getD 64) (s.lookupHead k body) (s.lookupPayload k body len) := gazTaken_gazMake ..

/-- The state in which a lookup command runs once its request has its number. -/
def State.numbered (s : State) (k : Kci) : State := (s.entered k 0x0704).setGaz { s.gaz with next := s.gaz.next + 1 }

theorem numbered_waiting (s : State) (k : Kci) : KeepsWaiting (s.entered k 0x0704) (s.numbered k) := .withGaz (.refl _)

variable {die body len reply : Nat}

/-- A unit that takes no further request holds that of the command (R270). -/
theorem gazLookup_holds (h : s.Open k) (hd : die < 4) (hl : len ≤ 64) (hfull : s.gazFull die = true) :
    Yields (.gazLookup k die body len reply) s (fun u =>
      u.gaz = { s.gaz with next := s.gaz.next + 1, held := s.gaz.held ++
        [{ s.lookupReq k die body len reply with len := len, body := s.lookupPayload k body len }] } ∧
      u.Running k 0x0704 [s.gaz.next]) := by
  let q := { s.lookupReq k die body len reply with len := len, body := s.lookupPayload k body len }
  let t := (s.numbered k).setGaz { (s.numbered k).gaz with held := s.gaz.held ++ [q] }
  refine h.runs (r := { st := t.gazWait die (k.acts.getD 64), keys := [s.gaz.next] }) rfl ?_
    (numbered_waiting s k).withGaz.gazWait (List.cons_ne_nil _ _) rfl fun u hu ha => ⟨?_, ha⟩
  · exact (KRes.check_pass _ _ (by simp; omega)).trans (if_pos hfull)
  · exact hu.gaz.trans (gazWait_gaz ..)

/-- A unit with room takes the request of the command where it is in order (R266). -/
theorem gazLookup_takes (h : s.Open k) (hd : die < 4) (hl : len ≤ 64) (hfull : s.gazFull die = false)
    (hgood : s.gazBad (k.acts.getD 64) len [s.lookupHead k body] (s.lookupPayload k body len) = false) :
    Yields (.gazLookup k die body len reply) s (fun u =>
      u.gaz = { s.gaz with
        next := s.gaz.next + 1, reqs := s.gaz.reqs ++ [((s.numbered k).gazTaken (s.lookupReq k die body len reply)).1], counts := u.gaz.counts } ∧
      u.Running k 0x0704 [s.gaz.next]) := by
  refine h.runs (r := { st := (s.numbered k).gazAccept (s.lookupReq k die body len reply), keys := [s.gaz.next] }) rfl ?_
    (numbered_waiting s k).gazAccept (List.cons_ne_nil _ _) rfl fun u hu ha => ⟨?_, ha⟩
  · exact (KRes.check_pass _ _ (by simp; omega)).trans ((if_neg (Bool.eq_false_iff.1 hfull)).trans (if_neg (Bool.eq_false_iff.1 hgood)))
  · rw [hu.gaz]
    exact gazAccept_gaz ..

/-! ### GAZ_LEGEND_CHECK (R279) -/

theorem gazLegendCheck_answers (h : s.Open k) {p base rb cb th : Nat} (hp : k.acts = some p) (hx : s.partExists p = true) (hr : 1 ≤ rb)
    (hr' : rb ≤ 64) (hc : 1 ≤ cb) (hc' : cb ≤ 64) (hb : base % 16 = 0) (ht : th < 32768) : Yields (.gazLegendCheck k base rb cb th) s
      (fun u => u = kciEnd 0x0705 k false false 1 ((s.enter k 0x0705).legendCheck p base rb cb th)) := by
  rw [h.enter]
  refine h.yields rfl ?_ fun u _ hu => hu
  simp only [hp]
  exact KRes.check_pass _ _ (by simp [hx, hb]; omega)

end

/-- Settles O36, command by command. -/
theorem gazetteerCommands : Obligations.GazetteerCommands := by
  unfold Obligations.GazetteerCommands
  intro s k h d x table
  refine ⟨fun hpart hd => gazTableDefine_answers h hpart hd,
    fun hx hdel => ⟨gazTableDelete_frees h hx hdel, gazTableDelete_waits h hx hdel, gazTableQuery_answers h hx⟩,
    fun die body len reply hd hl => ?lookup,
    fun p base rb cb th hp hx hr hr' hc hc' hb ht => gazLegendCheck_answers h hp hx hr hr' hc hc' hb ht⟩
  intro head payload
  refine ⟨fun hfull => ?holds, fun hroom hheld hgood => ?takes⟩
  case holds =>
    obtain ⟨u, hu, hgaz, hrun⟩ := gazLookup_holds h hd hl (by simpa [State.gazFull] using hfull)
    exact ⟨u, hu, by rw [hgaz]; rfl, by rw [hgaz], by rw [hgaz], hrun⟩
  case takes =>
    have hfull : s.gazFull die = false := by simpa [State.gazFull, hroom] using hheld
    obtain ⟨u, hu, hgaz, hrun⟩ := gazLookup_takes (reply := reply) h hd hl hfull hgood
    obtain ⟨hid, hdie, hsrc, -, hhead, hbags⟩ := gazTaken_lookupReq (s.numbered k) s k die body len reply
    have hlow : bits head 7 0 = head.toNat % 256 := by simp [bits, fld]
    exact ⟨u, hu, by rw [hgaz], by rw [hgaz], hrun, _, by rw [hgaz], hid, hdie, hsrc, hhead, hlow ▸ hbags⟩

end Sys2Proof.Machine
end

section
namespace Sys2Proof.Machine

/-! ## Gazetteer: a request on its way (R264 to R273, R289, R290) -/

/-! ### The answer to a tile (R84, R269) -/

theorem coord_place {d x y : Nat} (hd : d < 4) (hx : x < 16) (hy : y < 16) : coord (256 * d + 16 * y + x) = 256 * d + 16 * x + y := by
  unfold coord
  omega

/-- A coordinate is taken to the tile's index by the same function (R83). -/
theorem coord_coord {t : Nat} (h : t < 1024) : coord (coord t) = t := by
  obtain ⟨d, x, y, hd, hx, hy, rfl⟩ : ∃ d x y, d < 4 ∧ x < 16 ∧ y < 16 ∧ t = 256 * d + 16 * y + x :=
    ⟨t / 256, t % 16, t / 16 % 16, by omega, by omega, by omega, by omega⟩
  rw [coord_place hd hx hy, coord_place hd hy hx]

/-- The header word of a message of a gateway service as a number. -/
theorem header0_service_toNat (dest service handler len part tag : Nat) : (header0 dest false service true handler len part tag).toNat =
    dest % 1024 + service % 1024 * 2 ^ 10 + 2 ^ 20 + handler % 64 * 2 ^ 22 + len % 128 * 2 ^ 28 + part % 64 * 2 ^ 35 + tag % 65536 * 2 ^ 48 := by
  simp only [header0, put, flag, wd, BitVec.toNat_ofNat, Bool.false_eq_true, if_false, if_true]
  omega

/-- A message of a gateway service to a tile, as its header gives it. -/
theorem gatewayMsg_fields (service t handler part tag : Nat) (user payload : List Byte) :
    (gatewayMsg service t handler part tag user payload).dest = coord t ∧ (gatewayMsg service t handler part tag user payload).src = service % 1024 ∧
      (gatewayMsg service t handler part tag user payload).srcGw = true ∧
      (gatewayMsg service t handler part tag user payload).len = ceilDiv payload.length 64 % 128 ∧
      (gatewayMsg service t handler part tag user payload).tag = tag % 65536 := by
  have hw : (gatewayMsg service t handler part tag user payload).w0 =
      header0 (coord t) false service true handler (ceilDiv payload.length 64) part tag := rfl
  have ht := coord_lt t
  simp only [MeshMsg.dest, MeshMsg.src, MeshMsg.srcGw, MeshMsg.len, MeshMsg.tag, hw, bits, bit, fld, Nat.testBit_eq_decide_div_mod_eq,
    header0_service_toNat, decide_eq_true_eq]
  omega

theorem gazInvalid_status (t handler part tag : Nat) :
    bits (nth (gatewayMsg 2 t handler part tag (leBytes 8 Status.gazInvalid.code) []).header 1 0) 7 0 = Status.gazInvalid.code := by
  have hword : nth (gatewayMsg 2 t handler part tag (leBytes 8 Status.gazInvalid.code) []).header 1 0 =
      nth (leWords 7 (padTo 56 0 (leBytes 8 Status.gazInvalid.code))) 0 0 := rfl
  rw [hword]
  decide +kernel

theorem meshWaits_gaz (s : State) (p : Nat) : (s.meshWaits p).gaz = s.gaz := by
  unfold State.meshWaits
  split
  · exact List.foldlRecOn (motive := fun u : State => u.gaz = s.gaz) _ _ rfl fun u h _ _ => by rw [(drift_noted u 9 [p]).all]; exact h
  · rfl

theorem toMesh_gaz (s : State) (m : MeshMsg) : (s.toMesh m).gaz = s.gaz :=
  List.foldlRecOn (motive := fun u : State => u.gaz = s.gaz) _ _ rfl fun u h p _ => (meshWaits_gaz u p).trans h

/-! ### A lookup request of a tile (R264 to R266, R270) -/

section
variable {s : State} {die : Nat} {m : MeshMsg} {rest : List MeshMsg}

/-- The mesh has given the unit a tile's request. -/
def State.mailTaken (s : State) (m : MeshMsg) (rest : List MeshMsg) : State :=
  ({ s with grid := { s.grid with mesh := rest } } : State).setGaz { s.gaz with noted := s.gaz.noted.filter (· ≠ tileLine (coord m.src)) }

/-- Where the answer to a tile's request goes (R264). -/
def MeshMsg.asker (m : MeshMsg) : GazFrom := .tile (coord m.src) (bits (nth m.header 1 0) 37 32) m.tag

/-- The first request of a tile at a unit with room is refused or taken. -/
theorem gazRequest_eq (hm : takeFirst (fun m => m.lookup die) s.grid.mesh = some (m, rest)) (hroom : s.gazInFlight die < 1024) :
    exec (.gazRequest die) s = .next (if s.gazBad m.part m.len (m.header.drop 1) m.payload then (s.mailTaken m rest).gazRefuse m.asker m.part 0
      else ((s.mailTaken m rest).setGaz { (s.mailTaken m rest).gaz with next := s.gaz.next + 1 }).gazAccept
        (gazMake s.gaz.next die m.asker m.part (nth m.header 1 0) m.payload)) := by
  refine congrArg Host.Outcome.next ?_
  simp only [hm]
  exact if_neg (Nat.not_le.2 hroom)

/-- A malformed request is answered GAZ_INVALID, and counted. -/
theorem gazRequest_refuses (hm : takeFirst (fun m => m.lookup die) s.grid.mesh = some (m, rest)) (hroom : s.gazInFlight die < 1024)
    (hbad : s.gazBad m.part m.len (m.header.drop 1) m.payload = true) : Yields (.gazRequest die) s (fun u =>
      u.grid.mesh = rest ++ [gatewayMsg 2 (coord m.src) (bits (nth m.header 1 0) 37 32) m.part m.tag (leBytes 8 Status.gazInvalid.code) []] ∧
      u.gaz.reqs = s.gaz.reqs ∧ u.gaz.counts = s.gaz.counts.modify gazInvalids (satInc ·)) := by
  refine ⟨((s.mailTaken m rest).countGaz gazInvalids).toMesh
    (gatewayMsg 2 (coord m.src) (bits (nth m.header 1 0) 37 32) m.part m.tag (leBytes 8 Status.gazInvalid.code) []),
    (gazRequest_eq hm hroom).trans (congrArg _ (if_pos hbad)), ?_, ?_, ?_⟩
  · rw [toMesh_grid]
    rfl
  · rw [toMesh_gaz]
    rfl
  · rw [toMesh_gaz]
    rfl

/-- A request that is in order gets the next number and is in flight. -/
theorem gazRequest_takes (hm : takeFirst (fun m => m.lookup die) s.grid.mesh = some (m, rest)) (hroom : s.gazInFlight die < 1024)
    (hgood : s.gazBad m.part m.len (m.header.drop 1) m.payload = false) : Yields (.gazRequest die) s (fun u =>
      u.grid.mesh = rest ∧ u.gaz.next = s.gaz.next + 1 ∧ ∃ r : GazReq, u.gaz.reqs = s.gaz.reqs ++ [r] ∧
        r.MadeOf s.gaz.next die m.asker m.part (nth m.header 1 0) m.payload) := by
  let t := (s.mailTaken m rest).setGaz { (s.mailTaken m rest).gaz with next := s.gaz.next + 1 }
  let r := gazMake s.gaz.next die m.asker m.part (nth m.header 1 0) m.payload
  refine ⟨t.gazAccept r, (gazRequest_eq hm hroom).trans (congrArg _ (if_neg (Bool.eq_false_iff.1 hgood))), ?_, ?_, (t.gazTaken r).1, ?_,
    gazTaken_gazMake ..⟩
  · rw [gazAccept_grid]
    rfl
  · rw [gazAccept_gaz]
    rfl
  · rw [gazAccept_gaz]
    rfl

end

/-! ### Rows and the answer (R267 to R271) -/

section
variable {s : State} {die id row : Nat} {r : GazReq} {x : GazRow}

/-- A row whose reads have come back completes with their bytes; but for a request of GATHER_POOL (excluded by hsrc) nothing else happens. -/
theorem gazRowComplete_ok (hr : s.gazReq die id = some r) (hx : r.rows[row]? = some x) (hnone : x.status = none) {data : List Byte} {a : Nat × Nat}
    {v : State} (hdone : s.gazRowDone r row = some (.ok, data, a, v)) (hsrc : ∀ run, r.src ≠ .cfl run) :
    Yields (.gazRowComplete die id row) s (fun u =>
      u = v.setGazReq { r with rows := r.rows.set row { x with status := some .ok, data := data }, last := v.now }) := by
  refine ⟨_, rfl, ?_⟩
  simp only [State.gazRow, hr, hx, hdone, hnone, Option.isSome_none, Bool.false_eq_true, if_false, reduceCtorEq, if_true]

/-- A read of this row of a request. -/
def MemReq.readsRow (q : MemReq) (r : GazReq) (row : Nat) : Bool :=
  match q.user with
  | .gaz d i k _ => d = r.die && i = r.id && k = row
  | _ => false

/-- One read that has come back gives the row its bytes, and is over. -/
theorem gazRowDone_one {q : MemReq} (hq : s.stk.reqs.filter (fun q => q.readsRow r row) = [q]) (huser : q.user = .gaz r.die r.id row 0)
    (hstage : q.stage = .complete .ok) : ∃ a, s.gazRowDone r row = some (.ok, padTo q.len 0 q.data, a, s.dropReq q.id) := by
  unfold State.gazRowDone
  extract_lets mine off ends st n data addr
  have hmine : mine = [q] := hq
  clear_value mine
  subst hmine
  have hoff : off q = 0 := by simp only [off, huser]
  have hends : ends = [some .ok] := by simp only [ends, List.map_cons, List.map_nil, hstage]
  have hst : st = .ok := by simp [st, hends]
  have hn : n = q.len := by simp [n, hoff]
  have hdata : data = padTo q.len 0 q.data := by simp [data, hoff, hn]
  exact ⟨addr, by simp [hends, hst, hdata]⟩

/-- A whole request is pooled, rounded and answered, and is over; in a Datum partition 24 cc after its last row (R268 to R271). -/
theorem gazReply_answers (hr : s.gazReq die id = some r) (hwhole : r.whole = true) (hsrc : ∀ run, r.src ≠ .cfl run)
    (hdue : s.partDatum r.part = false ∨ r.last + 24 ≤ s.now) : Yields (.gazReply die id) s (fun u =>
      let out := gazEncode r.head ((List.range r.bags.length).flatMap (s.bagOut r))
      u = ((s.countGaz gazSats out.2).gazSend r.src r.part id r.replyUser out.1).gazEnd r) := by
  have hnow : (!r.whole || (s.partDatum r.part && decide (s.now < r.last + 24))) = false := by
    rcases hdue with hdue | hdue <;> simp [hwhole, hdue]
  refine ⟨_, rfl, ?_⟩
  simp only [State.gazAnswer, hr, hnow, Bool.false_eq_true, if_false]

end

/-! ### The sparse controls of a tile (R289, R290) -/

theorem gazHostWrite_grid (s : State) (t off : Nat) (v : Word) : (s.gazHostWrite t off v).grid = (s.onTile t (fun x => x.writeReg off v)).grid :=
  (itinEvent_noted ..).grid

theorem gazHostWrite_tile (s : State) (t off : Nat) (v : Word) : (s.gazHostWrite t off v).tile t = (s.tile t).writeReg off v := by
  rw [State.tile, gazHostWrite_grid, ← State.tile, State.tile_onTile]

theorem gazHostWrite_tile_other (s : State) {t u : Nat} (hne : u ≠ t) (off : Nat) (v : Word) : (s.gazHostWrite t off v).tile u = s.tile u := by
  rw [State.tile, gazHostWrite_grid, ← State.tile, State.tile_onTile_other s hne]

theorem writeReg_sparseCtrl (x : Tile) (v : Word) : x.writeReg 0x900 v =
    { x with sparseCtrl := wd (v.toNat % 2 ^ 15 + (if v.toNat.testBit 16 then 2 ^ 16 else 0)) } := by
  simp only [Tile.writeReg, bits, fld, flag, bit, Nat.pow_zero, Nat.div_one]
  rfl

theorem writeReg_predThresh (x : Tile) (v : Word) : x.writeReg 0x908 v = { x with predThresh := wd (v.toNat % 2 ^ 32) } := by
  simp only [Tile.writeReg, bits, fld, Nat.pow_zero, Nat.div_one]

/-- Settles O37: a tile's request, its rows, its answer, then the two writes of the host. -/
theorem gazetteerRequests : Obligations.GazetteerRequests := by
  unfold Obligations.GazetteerRequests
  intro s die
  refine ⟨fun m rest hm => ⟨fun hbad hcounts hroom => ?refused, fun hgood hroom => ?taken⟩,
    fun id row r x q hr hx hnone hsrc hq huser hstage => ?read, fun id row r x st data a v hr hx hnone hdone hst hsrc => ?row,
    fun id r hr hwhole hsrc hdue => gazReply_answers hr hwhole hsrc hdue, fun t value => ⟨?ctrl, ?thresh⟩⟩
  case refused =>
    obtain ⟨u, hu, hmesh, hreqs, hcount⟩ := gazRequest_refuses hm hroom hbad
    obtain ⟨hdest, hsrc, hgw, hlen, htag⟩ :=
      gatewayMsg_fields 2 (coord m.src) (bits (nth m.header 1 0) 37 32) m.part m.tag (leBytes 8 Status.gazInvalid.code) []
    refine ⟨u, hu, _, hmesh, hgw, hsrc, hdest.trans (coord_coord (bits_lt _ 19 10)), htag.trans (Nat.mod_eq_of_lt (bits_lt _ 63 48)), hlen,
      gazInvalid_status .., hreqs, ?_⟩
    simp [hcount, nth, gazInvalids, hcounts]
  case taken =>
    obtain ⟨u, hu, hmesh, hnext, r, hreqs, hid, hdie, -, hpart, hhead, hbags⟩ := gazRequest_takes hm hroom hgood
    exact ⟨u, hu, hmesh, hnext, r, hreqs, hid, hdie, hpart, hhead, hbags⟩
  case read =>
    obtain ⟨a, hdone⟩ := gazRowDone_one hq huser hstage
    exact gazRowComplete_ok hr hx hnone hdone hsrc
  case row =>
    subst hst
    exact gazRowComplete_ok hr hx hnone hdone hsrc
  case ctrl =>
    exact ⟨_, rfl, (gazHostWrite_tile ..).trans (writeReg_sparseCtrl ..), fun v hne => gazHostWrite_tile_other s hne ..⟩
  case thresh =>
    exact ⟨_, rfl, (gazHostWrite_tile ..).trans (writeReg_predThresh ..), fun v hne => gazHostWrite_tile_other s hne ..⟩

end Sys2Proof.Machine
end

section
namespace Sys2Proof.Machine

/-! ## Sub-ports and ports: what an update leaves of the others (R292, R326, R328) -/

section
variable {s u v : State} {l m p q cc : Nat}

@[simp] theorem State.sub_at (s : State) (cc l : Nat) : (s.at cc).sub l = s.sub l := rfl
@[simp] theorem State.port_at (s : State) (cc p : Nat) : (s.at cc).port p = s.port p := rfl

/-- An event in a cycle that has come sets the clock there (log 1). -/
theorem State.now_at_of_le (h : s.now ≤ cc) : (s.at cc).now = cc := Nat.max_eq_right h

theorem State.sub_onSub_other (s : State) (h : m ≠ l) (f : SubPort → SubPort) : (s.onSub l f).sub m = s.sub m := State.sub_setSub_other s h _

/-- Two changes of one sub-port are one. -/
theorem State.onSub_twice (s : State) (l : Nat) (f g : SubPort → SubPort) : (s.onSub l f).onSub l g = s.onSub l (fun x => g (f x)) := by
  have hput : ∀ x y, (s.setSub l x).setSub l y = s.setSub l y := fun x y => by
    simp only [State.setSub, State.setFab, SMap.put_put]
  rw [State.onSub, State.sub_onSub, State.onSub, hput]
  rfl

@[simp] theorem State.port_setSub (s : State) (l p : Nat) (x : SubPort) : (s.setSub l x).port p = s.port p := rfl
@[simp] theorem State.port_onSub (s : State) (l p : Nat) (f : SubPort → SubPort) : (s.onSub l f).port p = s.port p := rfl
@[simp] theorem State.sub_setPort (s : State) (p l : Nat) (x : PhysPort) : (s.setPort p x).sub l = s.sub l := rfl

theorem State.port_setPort_other (s : State) (h : q ≠ p) (x : PhysPort) : (s.setPort p x).port q = s.port q := by
  simp [State.setPort, State.setFab, State.port, SMap.lookD_put_other _ h]

theorem Noted.sub (h : Noted s u) (l : Nat) : u.sub l = s.sub l := by rw [State.sub, h.fab, State.sub]

theorem State.Follows.fab (h : u.Follows v) : u.fab = v.fab := by rw [h.eq]
theorem State.Follows.port (h : u.Follows v) (p : Nat) : u.port p = v.port p := by rw [State.port, h.fab, State.port]

/-! ### Sub-ports alone -/

/-- From s to u nothing changed but sub-ports. -/
def OnlySubs (s u : State) : Prop := u = { s with fab := { s.fab with subs := u.fab.subs } }

theorem OnlySubs.refl (s : State) : OnlySubs s s := rfl

theorem OnlySubs.trans (h : OnlySubs s u) (h' : OnlySubs u v) : OnlySubs s v := by
  unfold OnlySubs at *
  rw [h', h]

theorem OnlySubs.onSub (h : OnlySubs s u) (f : SubPort → SubPort) : OnlySubs s (u.onSub l f) := by
  unfold OnlySubs at *
  rw [h]
  rfl

theorem OnlySubs.port (h : OnlySubs s u) (p : Nat) : u.port p = s.port p := by rw [h]; rfl
theorem OnlySubs.now (h : OnlySubs s u) : u.now = s.now := by rw [h]
theorem OnlySubs.cmp (h : OnlySubs s u) : u.cmp = s.cmp := by rw [h]

theorem KeepsWaiting.onlySubs {o : State} (h : KeepsWaiting o s) (hu : OnlySubs s u) : KeepsWaiting o u := by
  unfold KeepsWaiting
  rw [hu.cmp]
  exact h

/-- The logical ports of a physical port. -/
def lportsOf (port : Nat) : List Nat := (List.range 8).map (8 * port + ·)

theorem mem_lportsOf : l ∈ lportsOf p ↔ l / 8 = p := by
  simp only [lportsOf, List.mem_map, List.mem_range]
  constructor
  · rintro ⟨i, hi, rfl⟩
    omega
  · exact fun h => ⟨l % 8, by omega, by omega⟩

/-- The same change of each of these sub-ports. -/
def State.onSubs (s : State) (ls : List Nat) (f : SubPort → SubPort) : State := ls.foldl (fun s l => s.onSub l f) s

variable {ls : List Nat} {f : SubPort → SubPort} {P : SubPort → Prop}

theorem onSubs_onlySubs (s : State) (ls : List Nat) (f : SubPort → SubPort) : OnlySubs s (s.onSubs ls f) :=
  List.foldlRecOn (motive := OnlySubs s) ls _ (.refl s) fun _ h _ _ => h.onSub f

theorem onSubs_sub_other (hl : l ∉ ls) : (s.onSubs ls f).sub l = s.sub l :=
  List.foldlRecOn (motive := fun u : State => u.sub l = s.sub l) ls _ rfl fun u h _ ha =>
    (u.sub_onSub_other (ne_of_mem_of_not_mem ha hl).symm f).trans h

theorem onSubs_keeps (hf : ∀ x, P x → P (f x)) (h : P (s.sub l)) : P ((s.onSubs ls f).sub l) := by
  refine List.foldlRecOn (motive := fun u : State => P (u.sub l)) ls _ h fun u hu a _ => ?_
  by_cases ha : l = a
  · subst ha
    rw [State.sub_onSub]
    exact hf _ hu
  · rwa [u.sub_onSub_other ha]

/-- What the change gives every sub-port holds of each of them. -/
theorem onSubs_holds (hf : ∀ x, P (f x)) (hl : l ∈ ls) : P ((s.onSubs ls f).sub l) := by
  induction ls generalizing s with
  | nil => cases hl
  | cons a ls ih =>
    rcases List.mem_cons.1 hl with rfl | hl
    · exact onSubs_keeps (s := s.onSub l f) (fun x _ => hf x) (by rw [State.sub_onSub]; exact hf _)
    · exact ih hl

/-! ### Counters (R328) -/

/-- A sub-port with these counters. -/
def SubPort.withCounts (x : SubPort) (cs : List Nat) : SubPort := { x with counts := cs }

/-- From s to u nothing changed but counters of sub-port l, and what the registers of counters hold in this cycle. -/
structure CountedAt (s u : State) (l : Nat) : Prop where
  rest   : u = { s with fab := { s.fab with subs := u.fab.subs }, w1c := u.w1c }
  sub    : ∃ cs, u.sub l = (s.sub l).withCounts cs
  others : ∀ m, m ≠ l → u.sub m = s.sub m

theorem CountedAt.refl (s : State) (l : Nat) : CountedAt s s l := ⟨rfl, ⟨(s.sub l).counts, rfl⟩, fun _ _ => rfl⟩

theorem CountedAt.trans (h : CountedAt s u l) (h' : CountedAt u v l) : CountedAt s v l := by
  obtain ⟨cs, hs⟩ := h.sub
  obtain ⟨cs', hs'⟩ := h'.sub
  exact ⟨by rw [h'.rest, h.rest], ⟨cs', by rw [hs', hs]; rfl⟩, fun m hm => (h'.others m hm).trans (h.others m hm)⟩

theorem CountedAt.port (h : CountedAt s u l) (p : Nat) : u.port p = s.port p := by rw [h.rest]; rfl
theorem CountedAt.now (h : CountedAt s u l) : u.now = s.now := by rw [h.rest]
theorem CountedAt.dtm (h : CountedAt s u l) : u.dtm = s.dtm := by rw [h.rest]
theorem CountedAt.grid (h : CountedAt s u l) : u.grid = s.grid := by rw [h.rest]
theorem CountedAt.fab (h : CountedAt s u l) : u.fab = { s.fab with subs := u.fab.subs } := by rw [h.rest]

/-- What counting makes of a sub-port. -/
def SubPort.counted (x : SubPort) (i n : Nat) : SubPort := x.withCounts (x.counts.modify i (satInc · n))

theorem countSub_counted (s : State) (l i n : Nat) : CountedAt s (s.countSub l i n) l :=
  ⟨rfl, ⟨_, s.sub_onSub l (·.counted i n)⟩, fun _ h => s.sub_onSub_other h (·.counted i n)⟩

theorem fecIn_counted (s : State) (l corr uncorr : Nat) : CountedAt s (s.fecIn l corr uncorr) l := by
  unfold State.fecIn
  split
  · exact .refl s l
  · exact (countSub_counted ..).trans (countSub_counted ..)

/-- A drop counts under its cause (R328). -/
theorem drop_drops (s : State) (l cause : Nat) :
    ((s.drop l cause).sub l).drops.lookD cause 0 = satInc ((s.sub l).drops.lookD cause 0) := by
  obtain ⟨cs, hs⟩ := (countSub_counted s l cntDrop 1).sub
  simp [State.drop, State.sub_onSub, SMap.upd, hs, SubPort.withCounts]

theorem drop_grid (s : State) (l cause n : Nat) : (s.drop l cause n).grid = s.grid := by
  unfold State.drop
  split <;> rfl

/-! ### Training begins (R304, R325) -/

/-- The data path of a module is its port's matter; the sub-ports stay as they are. -/
theorem dataPath_subs (s : State) (l : Nat) (off : Bool) : (s.dataPath l off).fab.subs = s.fab.subs := by
  unfold State.dataPath
  dsimp only
  split
  · rfl
  · split <;> rfl

theorem dataPath_sub (s : State) (l m : Nat) (off : Bool) : (s.dataPath l off).sub m = s.sub m := by rw [State.sub, dataPath_subs, State.sub]

theorem KeepsWaiting.dataPath {o : State} {off : Bool} (h : KeepsWaiting o s) : KeepsWaiting o (s.dataPath l off) := by
  unfold State.dataPath
  dsimp only
  split
  · exact h
  · exact .ite h h.withFab.withOut

/-- A sub-port that begins to train. -/
def SubPort.training (x : SubPort) (now : Nat) : SubPort :=
  { x with state := .training, since := now, fecLock := false, lanes := 0, valid := false }

theorem train_sub (s : State) (l : Nat) : (s.train l).sub l = (s.sub l).training s.now :=
  ((s.dataPath l false).sub_onSub l (·.training s.now)).trans (by rw [dataPath_sub])

theorem train_sub_other (s : State) (h : m ≠ l) : (s.train l).sub m = s.sub m :=
  ((s.dataPath l false).sub_onSub_other h (·.training s.now)).trans (dataPath_sub ..)

theorem KeepsWaiting.train {o : State} (h : KeepsWaiting o s) : KeepsWaiting o (s.train l) := h.dataPath.withFab

end

end Sys2Proof.Machine
end

section
namespace Sys2Proof.Machine

/-! ## The port commands (R293, R304, R311, R314, R317, R322, R325, R327) -/

/-- A source with the PF's rights may name the sub-port or the entry of any partition. -/
theorem Kci.ownPart_privileged {k : Kci} (p : Option Nat) (h : k.src.privileged = true) : k.ownPart p = (false, .accessDenied) := by
  cases hs : k.src <;> simp_all [Kci.ownPart, Source.privileged]

/-! ### PORT_CONFIG (R293, R322) -/

section
variable {s : State} {port width rate : Nat} {subs : List SubConfig}

/-- What setting it makes of a sub-port that is DISABLED. -/
def SubPort.configured (x : SubPort) (c : SubConfig) : SubPort := { x with cfg := c, ringPut := if x.ring.isEmpty then 0 else x.ringPut }

theorem configSub_disabled {l : Nat} (h : (s.sub l).state = .disabled) (c : SubConfig) : s.configSub l c = s.onSub l (·.configured c) := by
  simp only [State.configSub, h, ne_eq, not_true_eq_false, decide_false, Bool.and_false, Bool.false_eq_true, if_false, SubPort.configured]

/-- Sub-ports are set one after the other. -/
def State.configSubs (s : State) (es : List (Nat × SubConfig)) : State := es.foldl (fun s e => s.configSub e.1 e.2) s

/-- Every sub-port of a port is DISABLED. -/
def State.portOff (s : State) (port : Nat) : Prop := ∀ l ∈ lportsOf port, (s.sub l).state = .disabled

theorem State.portOff.configSub {l : Nat} (h : s.portOff port) (hl : l ∈ lportsOf port) (c : SubConfig) : (s.configSub l c).portOff port := by
  intro m hm
  rw [configSub_disabled (h l hl)]
  by_cases hlm : m = l
  · subst hlm
    rw [State.sub_onSub]
    exact h m hm
  · rw [s.sub_onSub_other hlm]
    exact h m hm

variable {es : List (Nat × SubConfig)}

/-- Setting sub-ports that are DISABLED changes nothing but them, and they stay DISABLED; each is set as it was asked for. -/
theorem configSubs_spec (hoff : s.portOff port) (hes : ∀ e ∈ es, e.1 ∈ lportsOf port) (hnd : (es.map Prod.fst).Nodup) :
    OnlySubs s (s.configSubs es) ∧ (s.configSubs es).portOff port ∧ (∀ e ∈ es, ((s.configSubs es).sub e.1).cfg = e.2) ∧
      ∀ m, m ∉ es.map Prod.fst → (s.configSubs es).sub m = s.sub m := by
  induction es generalizing s with
  | nil => exact ⟨.refl s, hoff, by simp, fun _ _ => rfl⟩
  | cons e es ih =>
    have he : e.1 ∈ lportsOf port := hes e (List.mem_cons_self ..)
    obtain ⟨hnot, hnd⟩ := List.nodup_cons.1 hnd
    obtain ⟨honly, hoff', hcfg, hother⟩ := ih (hoff.configSub he e.2) (fun d hd => hes d (List.mem_cons_of_mem _ hd)) hnd
    have hset := configSub_disabled (hoff e.1 he) e.2
    refine ⟨.trans (hset ▸ (OnlySubs.refl s).onSub _) honly, hoff', List.forall_mem_cons.2 ⟨?_, hcfg⟩, fun m hm => ?_⟩
    · exact (congrArg (·.cfg) ((hother e.1 hnot).trans (by rw [hset, State.sub_onSub])))
    · rw [List.map_cons, List.mem_cons, not_or] at hm
      obtain ⟨hme, hm⟩ := hm
      exact (hother m hm).trans (by rw [hset, s.sub_onSub_other hme])

/-- The logical ports of a port's sub-ports under a width (R292). -/
def splitPorts (port width : Nat) : List Nat := (List.range (8 / width)).map (8 * port + width * ·)

theorem splitPorts_length (port width : Nat) : (splitPorts port width).length = 8 / width := by simp [splitPorts]

theorem splitPorts_mem {l : Nat} (hw : 0 < width) (h : l ∈ splitPorts port width) : l ∈ lportsOf port := by
  obtain ⟨i, hi, rfl⟩ := List.mem_map.1 h
  have hlt : width * i < 8 := by
    have h8 : (i + 1) * width ≤ 8 := (Nat.le_div_iff_mul_le hw).1 (List.mem_range.1 hi)
    rw [Nat.succ_mul, Nat.mul_comm] at h8
    omega
  exact List.mem_map.2 ⟨width * i, List.mem_range.2 hlt, rfl⟩

theorem splitPorts_nodup (hw : 0 < width) : (splitPorts port width).Nodup :=
  List.nodup_range.map fun _ _ h => Nat.eq_of_mul_eq_mul_left hw (Nat.add_left_cancel h)

/-- A change of width takes the configuration off every sub-port of the port. -/
def State.resplit (s : State) (port width : Nat) : State :=
  if (s.port port).width ≠ width then s.onSubs (lportsOf port) (fun x => { x with cfg := ({} : SubPort).cfg }) else s

theorem resplit_onlySubs (s : State) (port width : Nat) : OnlySubs s (s.resplit port width) := by
  unfold State.resplit
  split
  · exact onSubs_onlySubs ..
  · exact .refl s

theorem resplit_sub_other {m : Nat} (hm : m ∉ lportsOf port) : (s.resplit port width).sub m = s.sub m := by
  unfold State.resplit
  split
  · exact onSubs_sub_other hm
  · rfl

theorem State.portOff.resplit (h : s.portOff port) : (s.resplit port width).portOff port := by
  intro l hl
  unfold State.resplit
  split
  · exact onSubs_keeps (P := fun x => x.state = .disabled) (fun _ hx => hx) (h l hl)
  · exact h l hl

/-- A port with a width and a rate. -/
def State.rated (s : State) (port width rate : Nat) : State := s.setPort port { s.port port with width := width, rate := rate }

theorem portConfig_passes {k : Kci} (hk : k.src.privileged = true) (hp : port < 128) (hw : width = 8 ∨ width = 4 ∨ width = 2 ∨ width = 1)
    (hr : rate < 3) (hlen : subs.length = 8 / width) (hgood : ∀ c ∈ subs, subBad c = false) (hsum : limitSum subs ≤ 2048)
    (hpart : ∀ c ∈ subs, ∀ p, c.part = some p → s.partExists p = true) (hoff : s.portOff port)
    (hring : ∀ c ∈ subs, c.unpausable = true → s.systemLocal (port / 32) c.ringBase c.ringSize = true)
    (hfew : s.groupOthers port + (subs.filter (fun c => c.mode ≠ .disabled)).length ≤ 16) :
    s.portConfig k port width rate subs =
      { st := ((s.resplit port width).rated port width rate).configSubs ((splitPorts port width).zip subs) } := by
  have hbad : (decide (128 ≤ port) || !([8, 4, 2, 1].contains width) || decide (3 ≤ rate) || decide (subs.length ≠ 8 / width) || subs.any subBad ||
      decide (2048 < limitSum subs) || subs.any (fun c => c.unpausable && !s.systemLocal (port / 32) c.ringBase c.ringSize)) = false := by
    have hgood : subs.any subBad = false := List.any_eq_false.2 fun c hc => by simp [hgood c hc]
    have hring : subs.any (fun c => c.unpausable && !s.systemLocal (port / 32) c.ringBase c.ringSize) = false :=
      List.any_eq_false.2 fun c hc => by simpa using hring c hc
    have hw : [8, 4, 2, 1].contains width = true := by simpa using hw
    rw [hgood, hring, hw]
    simp [hlen]
    omega
  have hparts : subs.any (fun c => match c.part with
      | some p => !s.partExists p
      | none => false) = false := List.any_eq_false.2 fun c hc => by
    cases hcp : c.part with
    | none => simp
    | some p => simp [hpart c hc p hcp]
  have hfence : (lportsOf port).any (fun l => (s.sub l).state = .fenced) = false := List.any_eq_false.2 fun l hl => by simp [hoff l hl]
  have hall : (lportsOf port).all (fun l => (s.sub l).state = .disabled) = true := List.all_eq_true.2 fun l hl => by simp [hoff l hl]
  have hfree : ((splitPorts port width).zip subs).any (fun e => !modeFree (s.sub e.1) e.2) = false := List.any_eq_false.2 fun e he => by
    have hl := hoff e.1 (splitPorts_mem (by omega) (List.of_mem_zip he).1)
    simp [modeFree, hl]
  have hsame : ((decide ((s.port port).width ≠ width) || decide ((s.port port).rate ≠ rate)) &&
      !(lportsOf port).all (fun l => (s.sub l).state = .disabled)) = false := by rw [hall, Bool.not_true, Bool.and_false]
  unfold State.portConfig
  refine (KRes.check_pass _ _ ?_).trans ?_
  · rw [Kci.denied_privileged hk]
    exact List.forall_mem_cons.2 ⟨rfl, List.forall_mem_cons.2 ⟨hbad, List.forall_mem_cons.2 ⟨hparts, List.forall_mem_cons.2 ⟨hfence,
      List.forall_mem_cons.2 ⟨decide_eq_false (Nat.not_lt.2 hfew), List.forall_mem_cons.2 ⟨hsame, List.forall_mem_singleton.2 hfree⟩⟩⟩⟩⟩⟩
  · rfl

theorem portOff_of_states (h : ∀ i, i < 8 → (s.sub (8 * port + i)).state = .disabled) : s.portOff port := by
  intro l hl
  obtain ⟨i, hi, rfl⟩ := List.mem_map.1 hl
  exact h i (List.mem_range.1 hi)

theorem systemLocal_entered (s : State) (k : Kci) (opcode die a n : Nat) : (s.entered k opcode).systemLocal die a n = s.systemLocal die a n := by
  unfold State.systemLocal
  rw [viewCovers_entered]
  rfl

theorem portConfig_answers {k : Kci} (h : s.Open k) (hp : port < 128) (hw : width = 8 ∨ width = 4 ∨ width = 2 ∨ width = 1)
    (hr : rate < 3) (hlen : subs.length = 8 / width) (hgood : ∀ c ∈ subs, subBad c = false) (hsum : limitSum subs ≤ 2048)
    (hpart : ∀ c ∈ subs, ∀ p, c.part = some p → s.partExists p = true) (hoff : s.portOff port)
    (hring : ∀ c ∈ subs, c.unpausable = true → s.systemLocal (port / 32) c.ringBase c.ringSize = true)
    (hfew : s.groupOthers port + (subs.filter (fun c => c.mode ≠ .disabled)).length ≤ 16) :
    Yields (.portConfig k port width rate subs) s (fun u => (u.port port).width = width ∧ (u.port port).rate = rate ∧
      (∀ i c, subs[i]? = some c → (u.sub (8 * port + width * i)).cfg = c ∧ (u.sub (8 * port + width * i)).state = .disabled) ∧
      (∀ m, m / 8 ≠ port → u.sub m = s.sub m) ∧ u.Answered k 0x0301 .ok []) := by
  let e := s.entered k 0x0301
  have hw' : 0 < width := by omega
  have hmap : (((splitPorts port width).zip subs).map Prod.fst) = splitPorts port width :=
    List.map_fst_zip (by rw [splitPorts_length, hlen])
  obtain ⟨honly, hoff', hcfg, hother⟩ := configSubs_spec (s := (e.resplit port width).rated port width rate) (port := port)
    (es := (splitPorts port width).zip subs) (State.portOff.resplit (s := e) hoff) (fun _ hm => splitPorts_mem hw' (List.of_mem_zip hm).1)
    (by rw [hmap]; exact splitPorts_nodup hw')
  refine h.leaves rfl (portConfig_passes h.priv hp hw hr hlen hgood hsum hpart hoff (fun c hc hu => ?_) hfew)
    (((KeepsWaiting.refl e).onlySubs (resplit_onlySubs ..)).withFab.onlySubs honly) fun u hu ha => ?_
  · rw [systemLocal_entered]
    exact hring c hc hu
  · have hport : u.port port = { (e.resplit port width).port port with width := width, rate := rate } := by
      rw [hu.port, honly.port, State.rated, State.port_setPort]
    refine ⟨by rw [hport], by rw [hport], fun i c hi => ?_, fun m hm => ?_, ha⟩
    · have hmem : (8 * port + width * i, c) ∈ (splitPorts port width).zip subs :=
        List.mem_iff_getElem?.2 ⟨i, List.getElem?_zip_eq_some.2 ⟨?_, hi⟩⟩
      · rw [hu.sub]
        exact ⟨hcfg _ hmem, hoff' _ (splitPorts_mem hw' (List.of_mem_zip hmem).1)⟩
      · have hlt : i < 8 / width := hlen ▸ (List.getElem?_eq_some_iff.1 hi).1
        simp [splitPorts, hlt]
    · have hm : m ∉ lportsOf port := fun hl => hm (mem_lportsOf.1 hl)
      rw [hu.sub, hother m (by rw [hmap]; exact fun hl => hm (splitPorts_mem hw' hl)), State.rated, State.sub_setPort, resplit_sub_other hm]
      rfl

end

/-! ### PORT_LINK (R304) -/

section
variable {s : State} {k : Kci} {l : Nat}

theorem lt_of_subExists (h : s.subExists l = true) : l < 1024 := by
  simp only [State.subExists, Bool.and_eq_true, decide_eq_true_eq] at h
  exact h.1

/-- A fresh series of attempts on a sub-port that nothing holds in DOWN. -/
theorem startTraining_trains (h : s.heldDown l = false) : s.startTraining l = (s.onSub l (fun x => { x with attempts := 0 })).train l := by
  have hheld : (s.onSub l (fun x => { x with attempts := 0 })).heldDown l = false := by
    simpa [State.heldDown, State.sub_onSub] using h
  exact if_neg (by rw [hheld]; decide)

theorem portLink_up (hk : k.src.privileged = true) (hex : s.subExists l = true) (hmode : (s.sub l).cfg.mode ≠ .disabled)
    (hst : (s.sub l).state = .disabled) (hheld : s.heldDown l = false) (hlc : s.crt.lc ≠ .returned) (hlc' : s.crt.lc ≠ .decommissioned) :
    s.portLink k l .up = { st := (s.onSub l (fun x => { x with attempts := 0 })).train l, keys := [l] } := by
  unfold State.portLink
  refine (KRes.check_pass _ _ ?_).trans ?_
  · simp [Kci.denied_privileged hk, lt_of_subExists hex, hex, hmode, hst, hlc, hlc']
  · simp [hst, startTraining_trains hheld, train_sub, SubPort.training]

theorem portLink_down (hk : k.src.privileged = true) (hex : s.subExists l = true) (hmode : (s.sub l).cfg.mode ≠ .disabled)
    (hst : (s.sub l).state = .training) : s.portLink k l .down =
      { st := s.onSub l (fun x => { x with state := .down, cause := failCommand, since := s.now, fecLock := false, lanes := 0 }) } := by
  unfold State.portLink
  refine (KRes.check_pass _ _ ?_).trans ?_
  · simp [Kci.denied_privileged hk, lt_of_subExists hex, hex, hmode, hst]
  · simp [hst, State.sub_onSub]

theorem portLink_trains (h : s.Open k) (hex : s.subExists l = true) (hmode : (s.sub l).cfg.mode ≠ .disabled)
    (hst : (s.sub l).state = .disabled) (hheld : s.heldDown l = false) (hlc : s.crt.lc ≠ .returned) (hlc' : s.crt.lc ≠ .decommissioned) :
    Yields (.portLink k l .up) s (fun u => (u.sub l).state = .training ∧ (u.sub l).attempts = 0 ∧ (∀ m, m ≠ l → u.sub m = s.sub m) ∧
      u.Running k 0x0302 [l]) := by
  refine h.runs rfl (portLink_up h.priv hex hmode hst hheld hlc hlc') (KeepsWaiting.train (KeepsWaiting.refl _).withFab) (by simp) rfl
    fun u hu hr => ?_
  have hsub : u.sub l = SubPort.training { s.sub l with attempts := 0 } s.now := by
    rw [hu.sub, train_sub, State.sub_onSub]
    rfl
  refine ⟨by rw [hsub, SubPort.training], by rw [hsub, SubPort.training], fun m hm => ?_, hr⟩
  rw [hu.sub, train_sub_other _ hm, State.sub_onSub_other _ hm]
  rfl

theorem portLink_ends (h : s.Open k) (hex : s.subExists l = true) (hmode : (s.sub l).cfg.mode ≠ .disabled)
    (hst : (s.sub l).state = .training) : Yields (.portLink k l .down) s (fun u => (u.sub l).state = .down ∧ (u.sub l).cause = 7 ∧
      (∀ m, m ≠ l → u.sub m = s.sub m) ∧ u.Answered k 0x0302 .ok []) := by
  refine h.leaves rfl (portLink_down h.priv hex hmode hst) (KeepsWaiting.refl _).withFab fun u hu ha => ?_
  refine ⟨by rw [hu.sub, State.sub_onSub], by rw [hu.sub, State.sub_onSub, failCommand], fun m hm => ?_, ha⟩
  rw [hu.sub, State.sub_onSub_other _ hm]
  rfl

/-! ### PORT_STATUS, PORT_PARTNER, PORT_CMIS_READ (R307, R325, R328) -/

theorem portStatus_answers (h : s.Open k) (hex : s.subExists l = true) :
    Yields (.portStatus k l) s (fun u => u.Follows s ∧ u.Answered k 0x0303 .ok (s.portStatusWords l)) := by
  refine h.answers (r := { st := s.entered k 0x0303, result := s.portStatusWords l }) rfl ?_ (.refl _) rfl
    fun u hu ha => ⟨hu.trans (entered_follows ..), ha⟩
  have hex : (s.entered k 0x0303).subExists l = true := hex
  exact KRes.check_pass _ _ (by simp [Kci.ownPart_privileged _ h.priv, hex])

theorem portPartner_answers (h : s.Open k) (hex : s.subExists l = true) {id : LinkId} (hid : (s.sub l).partner = some id) :
    Yields (.portPartner k l) s (fun u => u.Follows s ∧ u.Answered k 0x0304 .ok (leWords 8 id.bytes)) := by
  refine h.answers (r := { st := s.entered k 0x0304, result := leWords 8 id.bytes }) rfl ?_ (.refl _) rfl
    fun u hu ha => ⟨hu.trans (entered_follows ..), ha⟩
  have hex : (s.entered k 0x0304).subExists l = true := hex
  have hid : ((s.entered k 0x0304).sub l).partner = some id := hid
  refine (KRes.check_pass _ _ (by simp [Kci.ownPart_privileged _ h.priv, hex])).trans ?_
  simp only [hid]

variable {port : Nat}

theorem portCmisRead_answers (h : s.Open k) (hp : port < 128) {bank page offset len : Nat} {bs : List Byte} (hl : 1 ≤ len) (hl' : len ≤ 128)
    (hin : offset + len ≤ 256) (hpres : (s.port port).cmis.present = true) (hack : (s.port port).cmis.ack = true)
    (hpage : (s.port port).cmis.page bank page = some bs) : Yields (.portCmisRead k port bank page offset len) s (fun u => u.Follows s ∧
      u.Answered k 0x0305 .ok (leWords (ceilDiv len 8) (padTo (8 * ceilDiv len 8) 0 ((bs.drop offset).take len)))) := by
  let words := leWords (ceilDiv len 8) (padTo (8 * ceilDiv len 8) 0 ((bs.drop offset).take len))
  refine h.answers (r := { st := s.entered k 0x0305, result := words }) rfl ?_ (.refl _) rfl
    fun u hu ha => ⟨hu.trans (entered_follows ..), ha⟩
  have hpres : ((s.entered k 0x0305).port port).cmis.present = true := hpres
  have hack : ((s.entered k 0x0305).port port).cmis.ack = true := hack
  have hpage : ((s.entered k 0x0305).port port).cmis.page bank page = some bs := hpage
  refine (KRes.check_pass _ _ (by simp [Kci.denied_privileged h.priv, hpres]; omega)).trans ?_
  simp only [hack, hpage, Bool.not_true, Bool.false_eq_true, if_false]
  rfl

/-! ### PORT_STEER_SET, PORT_STEER_READ, PORT_CONV_SET, BRG_SR_SEED (R311, R314, R317) -/

variable {die index : Nat}

theorem portSteerSet_answers (h : s.Open k) (hd : die < 4) (hi : index < 256) {entry : List Word}
    (hf : bit (nth entry 0 0) 32 = true → steerFields entry = true) (hin : s.steerInside die { words := entry } = true) :
    Yields (.portSteerSet k die index entry) s (fun u =>
      u.Follows (s.setFab { s.fab with steer := s.fab.steer.put (256 * die + index) { words := entry } }) ∧ u.Answered k 0x0306 .ok []) := by
  refine h.leaves rfl (KRes.check_pass _ _ ?_) (KeepsWaiting.refl _).withFab fun u hu ha => ⟨hu.trans rfl, ha⟩
  have hin : (s.entered k 0x0306).steerInside die { words := entry } = true := hin
  have hf : (bit (Steer.word { words := entry } 0) 32 && !steerFields entry) = false := by
    rw [Bool.and_eq_false_imp]
    exact fun hb => by rw [hf hb]; rfl
  simp [Kci.denied_privileged h.priv, hf, hin]
  omega

theorem portSteerRead_answers (h : s.Open k) (hd : die < 4) (hi : index < 256) {x : Steer} (hx : s.fab.steer.look (256 * die + index) = some x) :
    Yields (.portSteerRead k die index) s (fun u => u.Follows s ∧ u.Answered k 0x0307 .ok (x.words ++ [wd x.seq])) := by
  refine h.answers (r := { st := s.entered k 0x0307, result := x.words ++ [wd x.seq] }) rfl ?_ (.refl _) rfl
    fun u hu ha => ⟨hu.trans (entered_follows ..), ha⟩
  have hx : (s.entered k 0x0307).fab.steer.lookD (256 * die + index) { words := List.replicate 16 0 } = x := by
    rw [entered_fab, SMap.lookD, hx, Option.getD_some]
  dsimp only
  rw [hx]
  exact KRes.check_pass _ _ (by simp [Kci.ownPart_privileged _ h.priv]; omega)

theorem portConvSet_answers (h : s.Open k) (hp : port < 128) {conv : Nat} {profile : ConvProfile} (hc : 1 ≤ conv) (hc' : conv < 8)
    (hok : profileOk profile = true) : Yields (.portConvSet k port conv profile) s (fun u =>
      (u.port port).profiles.look conv = some profile ∧ (∀ c, c ≠ conv → (u.port port).profiles.look c = (s.port port).profiles.look c) ∧
      u.fab.subs = s.fab.subs ∧ u.Answered k 0x0308 .ok []) := by
  refine h.leaves rfl (KRes.check_pass _ _ ?_) (KeepsWaiting.refl _).withFab fun u hu ha => ⟨?_, fun c hne => ?_, ?_, ha⟩
  · simp [Kci.denied_privileged h.priv, hok]
    omega
  · rw [hu.port, State.port_setPort, SMap.look_put_same]
  · rw [hu.port, State.port_setPort, SMap.look_put_other _ hne]
    rfl
  · rw [hu.fab]
    rfl

theorem brgSrReseed_reseeds (hp : port < 128) (value : Word) : Yields (.brgSrReseed port value) s (fun u =>
    (u.port port).seed = value.toNat ∧ (u.port port).lanes = { seed := value.toNat } ∧ u.fab.subs = s.fab.subs ∧ u.grid = s.grid) := by
  refine ⟨s.srReseed port value.toNat, congrArg Host.Outcome.next (if_pos hp), ?_, ?_, rfl, rfl⟩
  · rw [State.srReseed, State.port_setPort]
  · rw [State.srReseed, State.port_setPort]

end

/-- Settles O38, command by command. What PORT_CMIS_READ reads of a page is the model's choice (log 32), as is the order of PORT_STATUS's
words (log 50). -/
theorem portCommands : Obligations.PortCommands := by
  unfold Obligations.PortCommands
  intro s k h port width rate l subs
  exact ⟨fun hp hw hr hlen hgood hsum hpart hoff hring hfew =>
      portConfig_answers h hp hw hr hlen hgood hsum hpart (portOff_of_states hoff) hring hfew,
    fun hex hmode hst hheld hlc hlc' => portLink_trains h hex hmode hst hheld hlc hlc',
    fun hex hmode hst => portLink_ends h hex hmode hst,
    fun hex => ⟨portStatus_answers h hex, fun id hid => portPartner_answers h hex hid⟩,
    fun bank page offset len bs hp hl hl' hin hpres hack hpage => portCmisRead_answers h hp hl hl' hin hpres hack hpage,
    fun die index entry hd hi hf hin => portSteerSet_answers h hd hi hf hin,
    fun die index x hd hi hx => portSteerRead_answers h hd hi hx,
    fun conv profile hp hc hc' hok => portConvSet_answers h hp hc hc' hok,
    fun value hp => brgSrReseed_reseeds hp value⟩

end Sys2Proof.Machine
end

section
namespace Sys2Proof.Machine

/-! ## Link states (R303 to R307) -/

section
variable {s : State} {l m cc : Nat}

/-! ### Attempts that fail (R304, R305) -/

/-- What a failed attempt makes of a sub-port. -/
def SubPort.failed (x : SubPort) (st : LinkState) (cause now : Nat) : SubPort :=
  { x with state := st, cause := cause, attempts := min 8 (x.attempts + 1), since := now, fecLock := false, lanes := 0 }

/-- Notices and commands that waited for the attempt leave the fabric as it is. -/
theorem failAttempt_fab (s : State) (l cause : Nat) (st : LinkState) :
    (s.failAttempt l cause st).fab = (s.onSub l (·.failed st cause s.now)).fab := by
  unfold State.failAttempt
  extract_lets n s1 s2
  have h2 : s2.fab = s1.fab := by
    dsimp only [s2]
    split
    · exact (notify_noted ..).fab
    · rfl
  split
  · exact h2
  · exact h2

theorem failAttempt_sub (s : State) (l cause : Nat) (st : LinkState) :
    (s.failAttempt l cause st).sub l = (s.sub l).failed st cause s.now := by
  rw [State.sub, failAttempt_fab, ← State.sub, State.sub_onSub]

theorem failAttempt_sub_other (s : State) (h : m ≠ l) (cause : Nat) (st : LinkState) : (s.failAttempt l cause st).sub m = s.sub m := by
  rw [State.sub, failAttempt_fab, ← State.sub, State.sub_onSub_other _ h]

/-- The event turns sub-port l into y, and leaves every other as it is. -/
def Turns (i : Instr) (s : State) (l : Nat) (y : SubPort) : Prop := Yields i s (fun u => u.sub l = y ∧ ∀ m, m ≠ l → u.sub m = s.sub m)

theorem turns_onSub {i : Instr} {u : State} {f : SubPort → SubPort} (hi : exec i s = .next (u.onSub l f)) (hsub : ∀ m, u.sub m = s.sub m) :
    Turns i s l (f (s.sub l)) :=
  ⟨_, hi, by rw [State.sub_onSub, hsub], fun m hm => by rw [u.sub_onSub_other hm, hsub]⟩

theorem turns_failAttempt {i : Instr} {u : State} {cause : Nat} {st : LinkState} (hi : exec i s = .next (u.failAttempt l cause st))
    (hother : ∀ m, m ≠ l → u.sub m = s.sub m) : Turns i s l ((u.sub l).failed st cause u.now) :=
  ⟨_, hi, failAttempt_sub .., fun m hm => (failAttempt_sub_other u hm ..).trans (hother m hm)⟩

theorem trainingTimeout_fails (hst : (s.sub l).state = .training) (hdue : (s.sub l).since + trainLimit (s.port (lportPhys l)).rate ≤ cc) :
    exec (.trainingTimeout l cc) s = .next ((s.at cc).failAttempt l failTrain) :=
  congrArg Host.Outcome.next (if_pos (by simp [hst, hdue]))

theorem identTimeout_fails (hst : (s.sub l).state = .ident) (hid : (s.sub l).valid = false) (hdue : (s.sub l).since + 18750000 ≤ cc) :
    exec (.identTimeout l cc) s = .next ((s.at cc).failAttempt l failIdent) :=
  congrArg Host.Outcome.next (if_pos (by simp [hst, hid, hdue]))

/-! ### Training (R303 to R305) -/

theorem downHoldoffExpiry_trains (hst : (s.sub l).state = .down) (hn : (s.sub l).attempts < 8) (hheld : s.heldDown l = false)
    (hdue : (s.sub l).since + 1875000 ≤ cc) : exec (.downHoldoffExpiry l cc) s = .next ((s.at cc).train l) := by
  have hheld : (s.at cc).heldDown l = false := hheld
  exact congrArg Host.Outcome.next (if_pos (by simp [hst, hn, hheld, hdue]))

/-- A sub-port that has trained (R305) and that identifies its partner (R307). -/
def SubPort.trained (x : SubPort) (width : Nat) : SubPort := { x with fecLock := true, lanes := 2 ^ width - 1 }
def SubPort.identifying (x : SubPort) (now : Nat) : SubPort := { x with state := .ident, since := now, idsLeft := 3, lastId := none }

theorem trainingComplete_identifies (hst : (s.sub l).state = .training) (hmode : (s.sub l).cfg.mode ≠ .ethernet) :
    exec (.trainingComplete l cc) s =
      .next (((s.at cc).onSub l (·.trained (s.port (lportPhys l)).width)).onSub l (·.identifying (s.at cc).now)) := by
  have hmode : (((s.at cc).onSub l (·.trained (s.port (lportPhys l)).width)).sub l).cfg.mode ≠ .ethernet := by
    rw [State.sub_onSub]
    exact hmode
  exact congrArg Host.Outcome.next ((if_neg (not_not.2 hst)).trans (if_neg hmode))

/-! ### Identities (R307) -/

/-- A unit whose CRC is good reaches the receiver of a PLP sub-port in IDENT or UP, with FEC's counts. -/
theorem unitIn_parsed {q : LinkUnit} {w : WireUnit} (hst : (s.sub l).state = .ident ∨ (s.sub l).state = .up)
    (hmode : (s.sub l).cfg.mode ≠ .ethernet) (hw : parseUnit q.bytes = some w) : s.unitIn l q = (some w, s.fecIn l q.corr q.uncorr) := by
  unfold State.unitIn
  extract_lets x s1
  rw [hw]
  exact if_neg (by rcases hst with hst | hst <;> simp [x, hst, hmode])

theorem fecIn_state (s : State) (l corr uncorr : Nat) : ((s.fecIn l corr uncorr).sub l).state = (s.sub l).state := by
  obtain ⟨cs, hs⟩ := (fecIn_counted s l corr uncorr).sub
  exact congrArg (·.state) hs

theorem linkIdReceive_takes {q : LinkUnit} {w : WireUnit} (hst : (s.sub l).state = .ident) (hmode : (s.sub l).cfg.mode ≠ .ethernet)
    (hw : parseUnit q.bytes = some w) (hk : w.kind = 2) :
    exec (.linkIdReceive l q) s = .next ((s.fecIn l q.corr q.uncorr).takeLinkId l (linkIdOf w.body)) := by
  show execLinkIdReceive l q s = _
  unfold execLinkIdReceive
  rw [unitIn_parsed (.inl hst) hmode hw]
  exact congrArg Host.Outcome.next (if_pos (by simp [fecIn_state, hst, hk]))

/-- A sub-port that has a valid identity of its partner. -/
def SubPort.partnered (x : SubPort) (id : LinkId) : SubPort := { x with partner := some id, valid := true }

theorem takeLinkId_version {id : LinkId} (h : id.version ≠ 1) : s.takeLinkId l id = s.failAttempt l failVersion := if_pos h

theorem takeLinkId_expected {id : LinkId} (hv : id.version = 1) (h : miswired (s.sub l) id = false) :
    s.takeLinkId l id = s.onSub l (·.partnered id) :=
  (if_neg (not_not.2 hv)).trans (if_neg (by rw [h]; decide))

theorem takeLinkId_miswired {id : LinkId} (hv : id.version = 1) (h : miswired (s.sub l) id = true) :
    s.takeLinkId l id = ((s.onSub l (·.partnered id)).failAttempt l failWired .miswired).notify .miswired .ok (s.sub l).cfg.part l id.role
      (.region (lportRegion l)) :=
  (if_neg (not_not.2 hv)).trans (if_pos h)

/-- FEC's counts are no matter of the identity. -/
theorem fecIn_miswired (s : State) (l corr uncorr : Nat) (id : LinkId) :
    miswired ((s.fecIn l corr uncorr).sub l) id = miswired (s.sub l) id := by
  obtain ⟨cs, hs⟩ := (fecIn_counted s l corr uncorr).sub
  rw [hs]
  rfl

/-- LINK_ID goes out on a sub-port in IDENT every 1.0 µs. -/
theorem linkIdSend_sends (hcc : s.now ≤ cc) (hst : (s.sub l).state = .ident)
    (hdue : (s.sub l).lastId = none ∨ ∃ c, (s.sub l).lastId = some c ∧ c + 1875 ≤ cc) (hid : (s.sub l).valid = false) :
    exec (.linkIdSend l cc) s = .next (((s.at cc).emit (.unit l (WireUnit.bytes ⟨2, 0, 0, ((s.at cc).ownId l).bytes⟩))).onSub l
      (fun x => { x with lastId := some cc })) := by
  show execLinkIdSend l cc s = _
  unfold execLinkIdSend
  refine congrArg Host.Outcome.next ?_
  extract_lets s1 x due s2
  have hnow : s1.now = cc := State.now_at_of_le hcc
  have hdue : due = true := by
    rcases hdue with hnone | ⟨c, hsome, hc⟩
    · simp [due, x, s1, hnone]
    · simp [due, x, s1, hsome, Nat.le_trans hc (Nat.le_max_right ..)]
  have hid : x.valid = false := hid
  have hst : x.state = .ident := hst
  rw [if_neg (by simp [hst, hdue]), if_pos (by simp [hid])]
  simp only [s2, hnow]
  rfl

/-! ### A link that is lost (R303) -/

theorem alignmentLoss_loses (hst : (s.sub l).state = .up) : exec (.alignmentLoss l cc) s = .next ((s.at cc).loseLink l failAlign) := by
  show execAlignmentLoss l cc s = _
  unfold execAlignmentLoss
  extract_lets s1
  have hst : (s1.sub l).state = .up := hst
  rw [hst]

theorem noGoodUnitTimeout_loses (hst : (s.sub l).state = .up) (hmode : (s.sub l).cfg.mode ≠ .ethernet) (hdue : (s.sub l).lastGood + 1024 ≤ cc) :
    exec (.noGoodUnitTimeout l cc) s = .next ((s.at cc).loseLink l failUnit) :=
  congrArg Host.Outcome.next (if_pos (by simp [hst, hmode, hdue]))

end

/-- Settles O39, edge by edge. -/
theorem linkStates : Obligations.LinkStates := by
  unfold Obligations.LinkStates
  intro s l cc q w hcc hw hk x id others
  have hnow : (s.at cc).now = cc := State.now_at_of_le hcc
  have hfec := fecIn_counted s l q.corr q.uncorr
  obtain ⟨cs, hs⟩ := hfec.sub
  refine ⟨fun hst hmode => ?trained, fun hst hdue => ?slow, fun hst hn hheld hdue => ?again,
    fun hst hmode hv => ⟨fun hgood => ?expected, fun hbad => ?miswired⟩, fun hst hmode hv => ?version, fun hst hdue hid => ?sends,
    fun hst hid hdue => ?silent, fun hst => ?lost, fun hst hmode hdue => ?quiet⟩
  case trained =>
    refine ⟨_, trainingComplete_identifies hst hmode, ?_⟩
    dsimp only
    rw [State.sub_onSub, State.sub_onSub]
    exact ⟨rfl, rfl, rfl, rfl, hnow, fun m hm => (State.sub_onSub_other _ hm _).trans (State.sub_onSub_other _ hm _)⟩
  case slow =>
    exact (turns_failAttempt (trainingTimeout_fails hst hdue) fun _ _ => rfl).mono fun u ⟨hu, ho⟩ =>
      ⟨congrArg (·.state) hu, congrArg (·.cause) hu, congrArg (·.attempts) hu, ho⟩
  case again =>
    refine ⟨_, downHoldoffExpiry_trains hst hn hheld hdue, ?_⟩
    have hsub := train_sub (s.at cc) l
    exact ⟨congrArg (·.state) hsub, congrArg (·.attempts) hsub, fun m hm => train_sub_other _ hm⟩
  case expected =>
    refine ⟨_, (linkIdReceive_takes hst hmode hw hk).trans (congrArg _ (takeLinkId_expected hv ((fecIn_miswired ..).trans hgood))), ?_⟩
    dsimp only
    rw [State.sub_onSub, hs]
    exact ⟨rfl, rfl, hst, fun m hm => (State.sub_onSub_other _ hm _).trans (hfec.others m hm)⟩
  case miswired =>
    refine ⟨_, (linkIdReceive_takes hst hmode hw hk).trans (congrArg _ (takeLinkId_miswired hv ((fecIn_miswired ..).trans hbad))), ?_⟩
    dsimp only
    rw [(notify_noted ..).sub, failAttempt_sub, State.sub_onSub, hs]
    refine ⟨rfl, rfl, rfl, fun m hm => ?_, _, rfl⟩
    rw [(notify_noted ..).sub, failAttempt_sub_other _ hm, State.sub_onSub_other _ hm, hfec.others m hm]
  case version =>
    exact (turns_failAttempt ((linkIdReceive_takes hst hmode hw hk).trans (congrArg _ (takeLinkId_version hv))) hfec.others).mono fun u ⟨hu, ho⟩ =>
      ⟨congrArg (·.state) hu, congrArg (·.cause) hu, ho⟩
  case sends =>
    exact (turns_onSub (linkIdSend_sends hcc hst hdue hid) fun _ => rfl).mono fun u ⟨hu, ho⟩ =>
      ⟨congrArg (·.lastId) hu, (congrArg (·.state) hu).trans hst, ho⟩
  case silent =>
    exact (turns_failAttempt (identTimeout_fails hst hid hdue) fun _ _ => rfl).mono fun u ⟨hu, ho⟩ =>
      ⟨congrArg (·.state) hu, congrArg (·.cause) hu, ho⟩
  case lost => exact ⟨_, alignmentLoss_loses hst, rfl⟩
  case quiet => exact ⟨_, noGoodUnitTimeout_loses hst hmode hdue, rfl⟩

end Sys2Proof.Machine
end

section
namespace Sys2Proof.Machine

/-! ## Link units and the edges of endpoint mode (R299 to R302, R308 to R310, R338) -/

section
variable {s : State} {l cc : Nat} {q : LinkUnit} {w : WireUnit}

/-- A field of a word as a slice of its bits (R5). -/
theorem bits_extractLsb' (w : Word) (hi lo : Nat) : bits w hi lo = (w.extractLsb' lo (hi + 1 - lo)).toNat := by
  rw [BitVec.extractLsb'_toNat, Nat.shiftRight_eq_div_pow, bits, fld]

/-! ### LINK_CTRL (R300, R301) -/

/-- What LINK_CTRL makes of a sub-port: what it acknowledges leaves the replay buffer, its total grants credits. -/
def SubPort.controlled (x : SubPort) (c : Word) (now : Nat) : SubPort :=
  let left := ackedUpTo (bits c 11 0) x.replay
  let vc := bits c 19 16
  { x with lastGood := now, replay := left, resend := if bit c 12 then left else ackedUpTo (bits c 11 0) x.resend,
           totals := x.totals.set vc (bits c 35 20),
           granted := x.granted.modify vc (· + (bits c 35 20 + 65536 - nth x.totals vc 0) % 65536) }

/-- A NAK is counted, and may be a cause of drift; the rest is the sub-port's matter. -/
theorem takeLinkCtl_sub (s : State) (l : Nat) (c : Word) : ∃ cs, (s.takeLinkCtl l c).sub l = ((s.sub l).controlled c s.now).withCounts cs := by
  unfold State.takeLinkCtl
  extract_lets x ack nak vc total gain left s1
  have h1 : s1.sub l = (s.sub l).controlled c s.now := State.sub_setSub ..
  split
  · obtain ⟨cs, hs⟩ := (countSub_counted s1 l cntRetry 1).sub
    exact ⟨cs, by rw [(drift_noted ..).sub, hs, h1]⟩
  · exact ⟨_, h1⟩

theorem linkCtrlReceive_takes (hst : (s.sub l).state = .up) (hmode : (s.sub l).cfg.mode ≠ .ethernet) (hw : parseUnit q.bytes = some w)
    (hk : w.kind = 1) : exec (.linkCtrlReceive l q.bytes q.corr q.uncorr) s =
      .next ((s.fecIn l q.corr q.uncorr).takeLinkCtl l (nth (leWords 1 w.body) 0 0)) := by
  show execLinkCtrlReceive l q.bytes q.corr q.uncorr s = _
  unfold execLinkCtrlReceive
  rw [unitIn_parsed (.inr hst) hmode hw]
  exact congrArg Host.Outcome.next (if_pos (by simp [fecIn_state, hst, hk]))

/-- What LINK_CTRL leaves, in the fields of its word (R301). -/
theorem linkCtrlReceive_leaves (hst : (s.sub l).state = .up) (hmode : (s.sub l).cfg.mode ≠ .ethernet) (hw : parseUnit q.bytes = some w)
    (hk : w.kind = 1) :
    let x := s.sub l
    let c := nth (leWords 1 w.body) 0 0
    let ack := (c.extractLsb' 0 12).toNat
    let vc := (c.extractLsb' 16 4).toNat
    let total := (c.extractLsb' 20 16).toNat
    vc < 9 → x.granted.length = 9 → x.totals.length = 9 → Yields (.linkCtrlReceive l q.bytes q.corr q.uncorr) s (fun u =>
      (u.sub l).replay = ackedUpTo ack x.replay ∧
      (u.sub l).resend = (if c.getLsbD 12 then ackedUpTo ack x.replay else ackedUpTo ack x.resend) ∧ (u.sub l).lastGood = s.now ∧
      nth (u.sub l).totals vc 0 = total ∧ nth (u.sub l).granted vc 0 = nth x.granted vc 0 + (total + 65536 - nth x.totals vc 0) % 65536) := by
  intro x c ack vc total hvc hgranted htotals
  obtain ⟨cs, hs⟩ := (fecIn_counted s l q.corr q.uncorr).sub
  obtain ⟨cs', hs'⟩ := takeLinkCtl_sub (s.fecIn l q.corr q.uncorr) l c
  rw [hs, (fecIn_counted ..).now] at hs'
  have hack : bits c 11 0 = ack := bits_extractLsb' c 11 0
  have hvc' : bits c 19 16 = vc := bits_extractLsb' c 19 16
  have htotal : bits c 35 20 = total := bits_extractLsb' c 35 20
  refine ⟨_, linkCtrlReceive_takes hst hmode hw hk, ?_⟩
  dsimp only
  rw [hs']
  simp only [SubPort.controlled, SubPort.withCounts, hack, hvc', htotal, true_and]
  refine ⟨rfl, rfl, ?_, ?_⟩
  · simp [nth, x, htotals, hvc]
  · simp [nth, x, hgranted, hvc]

/-! ### Units in order and out of order (R302) -/

/-- A sub-port after a good unit, after one in order, and with a NAK that is due. -/
def SubPort.good (x : SubPort) (now : Nat) : SubPort := { x with lastGood := now }
def SubPort.inOrder (x : SubPort) : SubPort := { x with rxNext := (x.rxNext + 1) % 4096, nakOut := false, ackDue := true }
def SubPort.naking (x : SubPort) : SubPort := { x with nakOut := true, nakDue := true }

/-- The state in which a good unit is judged, and that in which one in order takes its place. -/
def State.unitGood (s : State) (l : Nat) (q : LinkUnit) : State := (s.fecIn l q.corr q.uncorr).onSub l (·.good s.now)
def State.unitInOrder (s : State) (l : Nat) (q : LinkUnit) : State := (s.unitGood l q).onSub l (·.inOrder)

theorem unitGood_sub (s : State) (l : Nat) (q : LinkUnit) : ∃ cs, (s.unitGood l q).sub l = ((s.sub l).withCounts cs).good s.now := by
  obtain ⟨cs, hs⟩ := (fecIn_counted s l q.corr q.uncorr).sub
  exact ⟨cs, by rw [State.unitGood, State.sub_onSub, hs]⟩

theorem unitInOrder_sub (s : State) (l : Nat) (q : LinkUnit) :
    ∃ cs, (s.unitInOrder l q).sub l = (((s.sub l).withCounts cs).good s.now).inOrder := by
  obtain ⟨cs, hs⟩ := unitGood_sub s l q
  exact ⟨cs, by rw [State.unitInOrder, State.sub_onSub, hs]⟩

theorem unitInOrder_port (s : State) (l : Nat) (q : LinkUnit) (p : Nat) : (s.unitInOrder l q).port p = s.port p :=
  (fecIn_counted s l q.corr q.uncorr).port p

/-- A unit whose CRC fails is counted and answered with a NAK. -/
theorem sequencedUnitReceive_garbled (hst : (s.sub l).state = .up) (hmode : (s.sub l).cfg.mode ≠ .ethernet) (hw : parseUnit q.bytes = none) :
    exec (.sequencedUnitReceive l q) s = .next (((s.fecIn l q.corr q.uncorr).countSub l cntCrc).onSub l (·.naking)) := by
  have hin : s.unitIn l q = (none, ((s.fecIn l q.corr q.uncorr).countSub l cntCrc).onSub l (·.naking)) := by
    unfold State.unitIn
    extract_lets x s1 s2
    rw [hw]
    exact (if_neg (by simp [x, hst, hmode])).trans (congrArg _ (if_pos hst))
  show execSequencedUnitReceive l q s = _
  unfold execSequencedUnitReceive
  rw [hin]

theorem garbled_naks (hst : (s.sub l).state = .up) (hmode : (s.sub l).cfg.mode ≠ .ethernet) (hw : parseUnit q.bytes = none) :
    Yields (.sequencedUnitReceive l q) s (fun u => (u.sub l).nakOut = true ∧ (u.sub l).nakDue = true ∧ (u.sub l).rxNext = (s.sub l).rxNext ∧
      (u.sub l).ingress = (s.sub l).ingress ∧ (u.sub l).rx = (s.sub l).rx) := by
  obtain ⟨cs, hs⟩ := ((fecIn_counted s l q.corr q.uncorr).trans (countSub_counted _ l cntCrc 1)).sub
  refine ⟨_, sequencedUnitReceive_garbled hst hmode hw, ?_⟩
  dsimp only
  rw [State.sub_onSub, hs]
  simp only [SubPort.naking, SubPort.withCounts, and_self]

/-- What a good CTRL, HEAD or DATA unit comes to. -/
theorem sequencedUnitReceive_parsed (hst : (s.sub l).state = .up) (hmode : (s.sub l).cfg.mode ≠ .ethernet) (hw : parseUnit q.bytes = some w)
    (hk : w.kind = 3 ∨ w.kind = 4 ∨ w.kind = 5) : exec (.sequencedUnitReceive l q) s = .next (
      if w.lseq ≠ (s.sub l).rxNext then if (s.sub l).nakOut then s.unitGood l q else (s.unitGood l q).onSub l (·.naking)
      else if w.kind = 3 then (s.unitInOrder l q).takeCtrl l w.packet
      else if w.kind = 4 then (s.unitInOrder l q).takeHead l w.packet
      else (s.unitInOrder l q).takeData l w.vc w.body) := by
  obtain ⟨cs, hs⟩ := unitGood_sub s l q
  show execSequencedUnitReceive l q s = _
  unfold execSequencedUnitReceive
  rw [unitIn_parsed (.inr hst) hmode hw]
  refine congrArg Host.Outcome.next ((if_neg ?_).trans ?_)
  · rcases hk with hk | hk | hk <;> simp [fecIn_state, hst, hk]
  · have hgood : (s.fecIn l q.corr q.uncorr).onSub l (·.good (s.fecIn l q.corr q.uncorr).now) = s.unitGood l q := by
      rw [(fecIn_counted ..).now, State.unitGood]
    simp only [SubPort.good] at hgood
    dsimp only
    rw [hgood, hs]
    simp only [SubPort.good, SubPort.withCounts]
    rfl

section
variable (hst : (s.sub l).state = .up) (hmode : (s.sub l).cfg.mode ≠ .ethernet) (hw : parseUnit q.bytes = some w)
include hst hmode hw

/-- A unit that is not the one expected is answered with one NAK. -/
theorem sequencedUnitReceive_outOfOrder (hk : w.kind = 3 ∨ w.kind = 4 ∨ w.kind = 5) (hseq : w.lseq ≠ (s.sub l).rxNext) :
    exec (.sequencedUnitReceive l q) s =
      .next (if (s.sub l).nakOut then s.unitGood l q else (s.unitGood l q).onSub l (·.naking)) :=
  (sequencedUnitReceive_parsed hst hmode hw hk).trans (congrArg _ (if_pos hseq))

theorem outOfOrder_naks (hk : w.kind = 3 ∨ w.kind = 4 ∨ w.kind = 5) (hseq : w.lseq ≠ (s.sub l).rxNext) :
    Yields (.sequencedUnitReceive l q) s (fun u => (u.sub l).nakOut = true ∧ ((s.sub l).nakOut = false → (u.sub l).nakDue = true) ∧
      (u.sub l).lastGood = s.now ∧ (u.sub l).rxNext = (s.sub l).rxNext ∧ (u.sub l).ingress = (s.sub l).ingress ∧
      (u.sub l).rx = (s.sub l).rx) := by
  obtain ⟨cs, hs⟩ := unitGood_sub s l q
  refine ⟨_, sequencedUnitReceive_outOfOrder hst hmode hw hk hseq, ?_⟩
  dsimp only
  by_cases hnak : (s.sub l).nakOut = true
  · rw [if_pos hnak, hs]
    simp only [SubPort.good, SubPort.withCounts, hnak, Bool.true_eq_false, false_implies, and_self]
  · rw [if_neg hnak, State.sub_onSub, hs]
    simp only [SubPort.naking, SubPort.good, SubPort.withCounts, implies_true, and_self]

variable (hseq : w.lseq = (s.sub l).rxNext)
include hseq

theorem sequencedUnitReceive_ctrl (hk : w.kind = 3) : exec (.sequencedUnitReceive l q) s = .next ((s.unitInOrder l q).takeCtrl l w.packet) :=
  (sequencedUnitReceive_parsed hst hmode hw (.inl hk)).trans (congrArg _ ((if_neg (not_not.2 hseq)).trans (if_pos hk)))

theorem sequencedUnitReceive_head (hk : w.kind = 4) : exec (.sequencedUnitReceive l q) s = .next ((s.unitInOrder l q).takeHead l w.packet) :=
  (sequencedUnitReceive_parsed hst hmode hw (.inr (.inl hk))).trans
    (congrArg _ ((if_neg (not_not.2 hseq)).trans ((if_neg (by omega)).trans (if_pos hk))))

theorem sequencedUnitReceive_data (hk : w.kind = 5) : exec (.sequencedUnitReceive l q) s = .next ((s.unitInOrder l q).takeData l w.vc w.body) :=
  (sequencedUnitReceive_parsed hst hmode hw (.inr (.inr hk))).trans
    (congrArg _ ((if_neg (not_not.2 hseq)).trans ((if_neg (by omega)).trans (if_neg (by omega)))))

end

theorem unitInOrder_mode (s : State) (l : Nat) (q : LinkUnit) : ((s.unitInOrder l q).sub l).cfg.mode = (s.sub l).cfg.mode := by
  obtain ⟨cs, hs⟩ := unitInOrder_sub s l q
  simp only [hs, SubPort.inOrder, SubPort.good, SubPort.withCounts]

theorem unitInOrder_rx (s : State) (l : Nat) (q : LinkUnit) : ((s.unitInOrder l q).sub l).rx = (s.sub l).rx := by
  obtain ⟨cs, hs⟩ := unitInOrder_sub s l q
  simp only [hs, SubPort.inOrder, SubPort.good, SubPort.withCounts]

theorem unitInOrder_heldWhole (s : State) (l : Nat) (q : LinkUnit) (p : Packet) : (s.unitInOrder l q).heldWhole l p = s.heldWhole l p := by
  have hprof : (s.unitInOrder l q).dequantProfile l p = s.dequantProfile l p := by
    simp only [State.dequantProfile, State.convProfile, unitInOrder_port]
  simp only [State.heldWhole, hprof, unitInOrder_mode]

/-! ### The places that units take at an endpoint (R299, R308, R344) -/

/-- A packet that joins the ingress of the source edge. -/
def SubPort.entering (x : SubPort) (p : Packet) : SubPort := { x with ingress := x.ingress ++ [p] }

theorem takeCtrl_endpoint (h : (s.sub l).cfg.mode = .endpoint) (p : Packet) : s.takeCtrl l p = s.onSub l (·.entering p) :=
  if_neg (by simp [h])

theorem takeWhole_endpoint (h : (s.sub l).cfg.mode = .endpoint) (p : Packet) : s.takeWhole l p = s.onSub l (·.entering p) :=
  if_neg (by simp [h])

/-- Where no packet was arriving, none is cut. -/
theorem rxEnd_none (h : (s.sub l).rx = none) : s.rxEnd l = s := by
  unfold State.rxEnd
  rw [h]

/-- A sub-port at which a packet is arriving, and one at which its last flit has arrived. -/
def SubPort.receiving (x : SubPort) (r : RxCur) : SubPort := { x with rx := some r }
def SubPort.received (x : SubPort) : SubPort := { x with rx := none }

/-- A HEAD of an accelerator's packet whose payload fits: the packet is stored until it is whole, or enters the ingress at once. -/
theorem takeHead_endpoint (hmode : (s.sub l).cfg.mode = .endpoint) (hrx : (s.sub l).rx = none) {p : Packet} (h0 : p.bytes ≠ 0)
    (hmax : p.bytes ≤ 4096) (hfit : p.bytes ≤ 256 * p.flits) : s.takeHead l p =
      if s.heldWhole l p then s.onSub l (·.receiving { keep := true, pkt := p })
      else s.onSub l (fun x => (x.entering p).receiving { pkt := p, edge := true }) := by
  unfold State.takeHead
  rw [rxEnd_none hrx]
  extract_lets s1 x began
  have hsw : x.cfg.mode ≠ .switch := by simp [x, s1, hmode]
  refine (if_neg (by simp [h0]; omega)).trans ?_
  rw [if_neg hsw]
  rfl

/-- A packet with more of its payload. -/
def joinPayload (bytes : List Byte) (p : Packet) : Packet := { p with payload := p.payload ++ bytes }

/-- The bytes of the payload that the next DATA unit brings. -/
def RxCur.payloadOf (d : RxCur) (body : List Byte) : List Byte := body.take (min 256 (d.pkt.bytes - 256 * d.got))

variable {d : RxCur}

/-- The last flit of an accelerator's packet that is stored: it enters the ingress as a whole. -/
theorem takeData_stored (hmode : (s.sub l).cfg.mode = .endpoint) (hrx : (s.sub l).rx = some d) (hcopy : d.copy = none)
    (hlast : d.got + 1 = d.pkt.flits) (hedge : d.edge = false)
    (hload : d.load = none) (hkeep : d.keep = true) (vc : Nat) (body : List Byte) :
    s.takeData l vc body = s.onSub l (·.received.entering (joinPayload (d.payloadOf body) d.pkt)) := by
  have hmode : ((s.onSub l (·.received)).sub l).cfg.mode = .endpoint := by
    rw [State.sub_onSub]
    exact hmode
  refine Eq.trans ?_ ((takeWhole_endpoint hmode _).trans (s.onSub_twice ..))
  unfold State.takeData
  rw [hrx]
  simp only [hcopy, hlast, hedge, hload, hkeep, decide_true, if_true, Bool.false_eq_true, if_false]
  rfl

/-- Bytes join the payload of the data packet that came last to the ingress. -/
def SubPort.joined (x : SubPort) (bytes : List Byte) : SubPort :=
  { x with ingress := (adjFirst (·.isData) (joinPayload bytes) x.ingress.reverse).reverse }

/-- The last flit of a packet that waits at its edge: it joins the payload that is there. -/
theorem takeData_edge (hrx : (s.sub l).rx = some d) (hcopy : d.copy = none) (hlast : d.got + 1 = d.pkt.flits) (hedge : d.edge = true)
    (vc : Nat) (body : List Byte) : s.takeData l vc body = s.onSub l (·.received.joined (d.payloadOf body)) := by
  refine Eq.trans ?_ (s.onSub_twice l (·.received) (·.joined (d.payloadOf body)))
  unfold State.takeData
  rw [hrx]
  simp only [hcopy, hlast, hedge, decide_true, if_true]
  rfl

/-- The last element of a list is the first that a test may find from behind. -/
theorem adjFirst_reverse {α : Type} {p : α → Bool} {x : α} (h : p x = true) (f : α → α) (xs : List α) :
    (adjFirst p f (xs ++ [x]).reverse).reverse = xs ++ [f x] := by
  simp [adjFirst, h]

/-! ### What the units leave at an endpoint, by their kinds -/

/-- From s to u the unit that sub-port l expected has come. -/
def TookUnit (s u : State) (l : Nat) : Prop :=
  (u.sub l).rxNext = ((s.sub l).rxNext + 1) % 4096 ∧ (u.sub l).ackDue = true ∧ (u.sub l).nakOut = false

/-- A unit in order has come, whatever place it takes that leaves the numbers of its link alone. -/
theorem tookUnit_onSub {f : SubPort → SubPort} (hf : ∀ x, (f x).rxNext = x.rxNext ∧ (f x).ackDue = x.ackDue ∧ (f x).nakOut = x.nakOut) :
    TookUnit s ((s.unitInOrder l q).onSub l f) l := by
  obtain ⟨cs, hs⟩ := unitInOrder_sub s l q
  obtain ⟨hnext, hack, hnak⟩ := hf ((s.unitInOrder l q).sub l)
  rw [hs] at hnext hack hnak
  unfold TookUnit
  rw [State.sub_onSub, hs, hnext, hack, hnak]
  simp only [SubPort.inOrder, SubPort.good, SubPort.withCounts, and_self]

theorem unitInOrder_ingress (s : State) (l : Nat) (q : LinkUnit) : ((s.unitInOrder l q).sub l).ingress = (s.sub l).ingress := by
  obtain ⟨cs, hs⟩ := unitInOrder_sub s l q
  simp only [hs, SubPort.inOrder, SubPort.good, SubPort.withCounts]

section
variable (hst : (s.sub l).state = .up) (hmode : (s.sub l).cfg.mode = .endpoint) (hw : parseUnit q.bytes = some w)
  (hseq : w.lseq = (s.sub l).rxNext)
include hst hmode hw hseq

theorem ctrl_enters (hk : w.kind = 3) : Yields (.sequencedUnitReceive l q) s (fun u =>
    TookUnit s u l ∧ (u.sub l).ingress = (s.sub l).ingress ++ [w.packet]) := by
  refine ⟨_, sequencedUnitReceive_ctrl hst (by simp [hmode]) hw hseq hk, ?_⟩
  rw [takeCtrl_endpoint ((unitInOrder_mode ..).trans hmode)]
  refine ⟨tookUnit_onSub fun _ => ⟨rfl, rfl, rfl⟩, ?_⟩
  rw [State.sub_onSub, SubPort.entering, unitInOrder_ingress]

theorem head_places (hk : w.kind = 4) (hrx : (s.sub l).rx = none) (h0 : w.packet.bytes ≠ 0) (hmax : w.packet.bytes ≤ 4096)
    (hfit : w.packet.bytes ≤ 256 * w.packet.flits) : Yields (.sequencedUnitReceive l q) s (fun u =>
      TookUnit s u l ∧ ∃ d, (u.sub l).rx = some d ∧ d.pkt = w.packet ∧ d.got = 0 ∧
        (if s.heldWhole l w.packet then (u.sub l).ingress = (s.sub l).ingress ∧ d.load = none ∧ d.keep = true ∧ d.edge = false
         else (u.sub l).ingress = (s.sub l).ingress ++ [w.packet] ∧ d.edge = true)) := by
  refine ⟨_, sequencedUnitReceive_head hst (by simp [hmode]) hw hseq hk, ?_⟩
  rw [takeHead_endpoint ((unitInOrder_mode ..).trans hmode) ((unitInOrder_rx ..).trans hrx) h0 hmax hfit, unitInOrder_heldWhole]
  by_cases hheld : s.heldWhole l w.packet = true
  · simp only [hheld, if_true]
    refine ⟨tookUnit_onSub fun _ => ⟨rfl, rfl, rfl⟩, _, congrArg (·.rx) (State.sub_onSub ..), rfl, rfl, ?_, rfl, rfl, rfl⟩
    rw [State.sub_onSub, SubPort.receiving, unitInOrder_ingress]
  · simp only [hheld, Bool.false_eq_true, if_false]
    refine ⟨tookUnit_onSub fun _ => ⟨rfl, rfl, rfl⟩, _, congrArg (·.rx) (State.sub_onSub ..), rfl, rfl, ?_, rfl⟩
    rw [State.sub_onSub, SubPort.receiving, SubPort.entering, unitInOrder_ingress]

variable (hk : w.kind = 5) (hrx : (s.sub l).rx = some d) (hcopy : d.copy = none) (hlast : d.got + 1 = d.pkt.flits)
include hk hrx hcopy hlast

theorem data_completes_stored (hedge : d.edge = false) (hload : d.load = none) (hkeep : d.keep = true) :
    Yields (.sequencedUnitReceive l q) s (fun u => TookUnit s u l ∧ (u.sub l).rx = none ∧
      (u.sub l).ingress = (s.sub l).ingress ++ [joinPayload (d.payloadOf w.body) d.pkt]) := by
  refine ⟨_, sequencedUnitReceive_data hst (by simp [hmode]) hw hseq hk, ?_⟩
  rw [takeData_stored ((unitInOrder_mode ..).trans hmode) ((unitInOrder_rx ..).trans hrx) hcopy hlast hedge hload hkeep]
  refine ⟨tookUnit_onSub fun _ => ⟨rfl, rfl, rfl⟩, congrArg (·.rx) (State.sub_onSub ..), ?_⟩
  rw [State.sub_onSub, SubPort.entering, SubPort.received, unitInOrder_ingress]

theorem data_completes_edge {ps : List Packet} {p : Packet} (hedge : d.edge = true) (hin : (s.sub l).ingress = ps ++ [p])
    (hdata : p.isData = true) : Yields (.sequencedUnitReceive l q) s (fun u => TookUnit s u l ∧ (u.sub l).rx = none ∧
      (u.sub l).ingress = ps ++ [joinPayload (d.payloadOf w.body) p]) := by
  refine ⟨_, sequencedUnitReceive_data hst (by simp [hmode]) hw hseq hk, ?_⟩
  rw [takeData_edge ((unitInOrder_rx ..).trans hrx) hcopy hlast hedge]
  refine ⟨tookUnit_onSub fun _ => ⟨rfl, rfl, rfl⟩, congrArg (·.rx) (State.sub_onSub ..), ?_⟩
  rw [State.sub_onSub, SubPort.joined, SubPort.received, unitInOrder_ingress, hin]
  exact adjFirst_reverse hdata ..

end

/-! ### The edges (R308 to R310, R338) -/

theorem accelPacketIngress_takes {p : Packet} {ps : List Packet} (hin : (s.sub l).ingress = p :: ps) (hmode : (s.sub l).cfg.mode = .endpoint)
    (hst : (s.sub l).state ≠ .fenced) (hulp : p.ulp ≠ ulpColl) : exec (.accelPacketIngress l) s = .next (s.edgeTake l p) := by
  show execAccelPacketIngress l s = _
  unfold execAccelPacketIngress
  extract_lets x
  have hin : x.ingress = p :: ps := hin
  rw [hin]
  exact congrArg Host.Outcome.next (if_neg (by simp [x, hmode, hst, hulp]))

theorem e2ePacketReceive_takes {p : Packet} {ps : List Packet} (hin : (s.sub l).e2eIn = p :: ps) :
    exec (.e2ePacketReceive l) s = .next ((s.onSub l (fun x => { x with e2eIn := ps })).e2eTake l p) := by
  show execE2ePacketReceive l s = _
  unfold execE2ePacketReceive
  rw [hin]

section
variable {dest vc : Nat} {f : SrcFlow} (hf : s.srcFlow l dest vc = some f)
include hf

theorem e2eRtoExpiry_resends (hne : f.unacked ≠ []) (hdue : f.timer + 2 ^ (s.sub l).cfg.rtoLog2 ≤ cc) :
    exec (.e2eRtoExpiry l dest vc cc) s = .next ((s.at cc).flowResend f) := by
  show execE2eRtoExpiry l dest vc cc s = _
  unfold execE2eRtoExpiry
  extract_lets s1
  have hf : s1.srcFlow l dest vc = some f := hf
  rw [hf]
  exact congrArg Host.Outcome.next (if_pos (by simp [s1, hne, hdue]))

theorem sourceFlowRetire_retires (hempty : f.pkts = []) (hdue : f.last + 65625 ≤ cc) :
    exec (.sourceFlowRetire l dest vc cc) s = .next ((s.at cc).delFlow f) := by
  show execSourceFlowRetire l dest vc cc s = _
  unfold execSourceFlowRetire
  extract_lets s1
  have hf : s1.srcFlow l dest vc = some f := hf
  rw [hf]
  exact congrArg Host.Outcome.next (if_pos (by simp [s1, hempty, hdue]))

end

theorem e2eAckTimer_acknowledges {die src vc t : Nat} {c : RoCtx} (hc : s.roCtx die src vc = some c) (ht : c.firstUnack = some t)
    (hn : 0 < c.unack) (hdue : t + 3750 ≤ cc) : exec (.e2eAckTimer die src vc cc) s = .next ((s.at cc).roAck c) := by
  show execE2eAckTimer die src vc cc s = _
  unfold execE2eAckTimer
  extract_lets s1
  have hc : s1.roCtx die src vc = some c := hc
  rw [hc]
  simp only [ht]
  exact congrArg Host.Outcome.next (if_pos (by simp [s1, hn, hdue]))

end

/-- Settles O40: LINK_CTRL, units that are garbled, out of order and in order, then the edges. -/
theorem linkUnits : Obligations.LinkUnits := by
  unfold Obligations.LinkUnits
  intro s l cc hcc x
  refine ⟨fun hst hmode => ⟨fun q w hw hk => linkCtrlReceive_leaves hst hmode hw hk, fun q hw => garbled_naks hst hmode hw,
      fun q w hw hk => ⟨fun hne => outOfOrder_naks hst hmode hw hk hne, fun hseq => ⟨?head, ?data, ?endpoint⟩⟩⟩,
    fun p ps hin hmode hst hulp => ⟨_, accelPacketIngress_takes hin hmode hst hulp, rfl⟩,
    fun p ps hin => ⟨_, e2ePacketReceive_takes hin, rfl⟩,
    fun dest vc f hf => ⟨fun hne hdue => ⟨_, e2eRtoExpiry_resends hf hne hdue, rfl⟩,
      fun hempty hdue => ⟨_, sourceFlowRetire_retires hf hempty hdue, rfl, rfl⟩⟩,
    fun die src vc c t hc ht hn hdue => ⟨_, e2eAckTimer_acknowledges hc ht hn hdue, rfl⟩⟩
  case head => exact fun hk => ⟨_, sequencedUnitReceive_head hst hmode hw hseq hk, rfl⟩
  case data => exact fun hk => ⟨_, sequencedUnitReceive_data hst hmode hw hseq hk, rfl⟩
  case endpoint =>
    intro hend took
    exact ⟨fun hk => ctrl_enters hst hend hw hseq hk, fun hk hrx h0 hmax hfit => head_places hst hend hw hseq hk hrx h0 hmax hfit,
      fun hk d hrx hcopy hlast => ⟨fun hedge hload hkeep => data_completes_stored hst hend hw hseq hk hrx hcopy hlast hedge hload hkeep,
        fun ps p hedge hin hdata => data_completes_edge hst hend hw hseq hk hrx hcopy hlast hedge hin hdata⟩⟩

end Sys2Proof.Machine
end

section
namespace Sys2Proof.Machine

/-! ## Ethernet frames (R315 to R324) -/

section
variable {s : State} {l cc : Nat} {frame : Frame}

/-! ### A frame that arrives (R315, R316) -/

section
variable (hmode : (s.sub l).cfg.mode = .ethernet) (hst : (s.sub l).state = .up)
include hmode hst

/-- A frame whose FCS or length is not good is dropped. -/
theorem ethFrameReceive_bad (hb : frameBody frame = none) :
    exec (.ethFrameReceive l cc frame) s = .next (((s.at cc).fecIn l frame.corr frame.uncorr).drop l dropLength) := by
  show execEthFrameReceive l cc frame s = _
  unfold execEthFrameReceive
  rw [hb]
  exact congrArg Host.Outcome.next (if_neg (by simp [hmode, hst]))

variable {bs : List Byte} (hb : frameBody frame = some bs)
include hb

/-- A good frame is steered where the MAC takes its address, and dropped otherwise. -/
theorem ethFrameReceive_good : exec (.ethFrameReceive l cc frame) s = .next (
    if macAccepts (s.sub l).cfg bs then ((s.at cc).fecIn l frame.corr frame.uncorr).steerFrame l bs
    else ((s.at cc).fecIn l frame.corr frame.uncorr).drop l dropAddress) := by
  show execEthFrameReceive l cc frame s = _
  unfold execEthFrameReceive
  rw [hb]
  exact congrArg Host.Outcome.next (if_neg (by simp [hmode, hst]))

theorem pauseReceive_takes :
    exec (.pauseReceive l cc frame) s = .next (((s.at cc).fecIn l frame.corr frame.uncorr).takePause l bs) := by
  show execPauseReceive l cc frame s = _
  unfold execPauseReceive
  rw [hb]
  exact congrArg Host.Outcome.next (if_neg (by simp [hmode, hst]))

end

/-- A frame that is dropped as it arrives counts under its cause; nothing of it reaches a tile. -/
theorem fecIn_drop (s : State) (l cc corr uncorr cause : Nat) :
    ((((s.at cc).fecIn l corr uncorr).drop l cause).sub l).drops.lookD cause 0 = satInc ((s.sub l).drops.lookD cause 0) ∧
      (((s.at cc).fecIn l corr uncorr).drop l cause).grid = s.grid := by
  have hfec := fecIn_counted (s.at cc) l corr uncorr
  obtain ⟨cs, hs⟩ := hfec.sub
  refine ⟨?_, (drop_grid ..).trans hfec.grid⟩
  rw [drop_drops, hs]
  rfl

/-! ### Steering (R317 to R319) -/

theorem meshWaits_fab (s : State) (p : Nat) : (s.meshWaits p).fab = s.fab := by
  unfold State.meshWaits
  split
  · exact List.foldlRecOn (motive := fun u : State => u.fab = s.fab) _ _ rfl fun u h _ _ => (drift_noted ..).fab.trans h
  · rfl

theorem toMesh_fab (s : State) (m : MeshMsg) : (s.toMesh m).fab = s.fab :=
  List.foldlRecOn (motive := fun u : State => u.fab = s.fab) _ _ rfl fun u h p _ => (meshWaits_fab u p).trans h

/-- The entries of a die's steering table that a frame of a sub-port hits. -/
def State.steerHits (s : State) (l : Nat) (bs : List Byte) : SMap Steer :=
  s.fab.steer.keep (fun k e => k / 256 = lportDie l && e.hits (lportPhys l) bs (parseFrame bs))

/-- One more frame that an entry has decided. -/
def State.steerCount (s : State) (key : Nat) (e : Steer) : State :=
  s.setFab { s.fab with steer := s.fab.steer.put key { e with seq := e.seq + 1 } }

/-- The first entry that a frame of a pausable sub-port hits makes it one message, where it passes frames and the frame is no longer
than a message. -/
theorem steerFrame_passes {bs : List Byte} {key : Nat} {e : Steer} {rest : SMap Steer} (hhit : s.steerHits l bs = (key, e) :: rest)
    (hpass : bit (e.word 0) 50 = true) (hlen : bs.length ≤ 4096) (hun : (s.sub l).cfg.unpausable = false) :
    s.steerFrame l bs = (s.steerCount key e).toMesh (steerMsg e l false bs (parseFrame bs) s.timebase).msg := by
  unfold State.steerFrame
  extract_lets x p die
  have hhit : s.fab.steer.keep (fun k e => k / 256 = die && e.hits (lportPhys l) bs p) = (key, e) :: rest := hhit
  have hun : x.cfg.unpausable = false := hun
  rw [hhit]
  simp only [hpass, hun, Nat.not_lt.2 hlen, Bool.not_true, Bool.false_eq_true, if_false]
  rfl

/-! ### PAUSE (R315) -/

/-- Classes held until a cycle. -/
def Contour.pausedAll (c : Contour) (cs : List Nat) (until_ : Nat) : Contour := cs.foldl (fun c i => c.pause i until_ true) c

theorem pause_look_same (c : Contour) (i until_ : Nat) : (c.pause i until_ true).paused.look i = some until_ := by
  simp [Contour.pause]

theorem pause_look_other (c : Contour) {i j : Nat} (h : j ≠ i) (until_ : Nat) : (c.pause i until_ true).paused.look j = c.paused.look j := by
  simp [Contour.pause, SMap.look_put_other _ h]

theorem pausedAll_keeps (c : Contour) (cs : List Nat) (until_ : Nat) {i : Nat} (h : c.paused.look i = some until_) :
    (c.pausedAll cs until_).paused.look i = some until_ := by
  refine List.foldlRecOn (motive := fun c : Contour => c.paused.look i = some until_) cs _ h fun c hc j _ => ?_
  by_cases hij : i = j
  · subst hij
    exact pause_look_same ..
  · rw [pause_look_other _ hij, hc]

theorem pausedAll_look (c : Contour) {cs : List Nat} (until_ : Nat) {i : Nat} (hi : i ∈ cs) :
    (c.pausedAll cs until_).paused.look i = some until_ := by
  induction cs generalizing c with
  | nil => cases hi
  | cons j cs ih =>
    rcases List.mem_cons.1 hi with rfl | hi
    · exact pausedAll_keeps _ cs until_ (pause_look_same ..)
    · exact ih _ hi

/-- PAUSE with a time holds every class. -/
theorem takePause_holds {bs : List Byte} {quanta : Nat} (htype : beAt bs 12 2 = 0x8808) (hop : beAt bs 14 2 = 0x0001)
    (hq : beAt bs 16 2 = quanta) (hne : quanta ≠ 0) :
    s.takePause l bs = s.onCtr l (·.pausedAll (List.range 8) (s.now + pauseCc quanta (s.subRate l))) := by
  unfold State.takePause
  simp only [htype, hop, hq, hne, ne_eq, not_true_eq_false, not_false_eq_true, decide_true, if_true, if_false]
  rfl

/-- A hold ends in its cycle. -/
theorem pauseTimerExpiry_releases {cls t : Nat} (h : (s.sub l).ctr.paused.look cls = some t) (ht : t ≤ cc) :
    exec (.pauseTimerExpiry l cls cc) s = .next ((s.at cc).onCtr l (fun c => { c with paused := c.paused.del cls })) := by
  show execPauseTimerExpiry l cls cc s = _
  unfold execPauseTimerExpiry
  extract_lets s1
  have h : (s1.sub l).ctr.paused.look cls = some t := h
  rw [h]
  exact congrArg Host.Outcome.next (if_pos (Nat.le_trans ht (Nat.le_max_right ..)))

/-! ### Unpausable ingress (R321 to R324) -/

theorem spillRingMove_moves {f : UnpFrame} {fs : List UnpFrame} (hring : (s.sub l).ring = f :: fs) (hroom : (s.sub l).unpRoom f = true) :
    exec (.spillRingMove l) s = .next (
      let x := s.sub l
      let size := x.cfg.ringSize
      let pos := (x.ringPut + size - 256 * framesCells x.ring % max 1 size) % max 1 size
      ((s.ringMem (lportDie l) x.cfg.ringBase size pos (256 * f.cells) none).onSub l (fun y => { y with ring := fs })).unpQueue l f) := by
  show execSpillRingMove l s = _
  unfold execSpillRingMove
  extract_lets x
  have hring : x.ring = f :: fs := hring
  rw [hring]
  exact congrArg Host.Outcome.next (if_pos hroom)

/-- The head of the on-chip queue, where none has left it in this cycle (R323). -/
theorem unpHead_some (hcc : s.now ≤ cc) {f : UnpFrame} {fs : List UnpFrame} (hunp : (s.sub l).unp = f :: fs)
    (hpop : (s.sub l).popAt ≠ some cc) : (s.at cc).unpHead l = some f := by
  unfold State.unpHead
  rw [State.now_at_of_le hcc, State.sub_at, if_neg hpop, hunp, List.head?_cons]

section
variable {f : UnpFrame} (hhead : (s.at cc).unpHead l = some f)
include hhead

theorem unpFrameInject_head : exec (.unpFrameInject l cc) s = .next (
    if f.late (s.at cc).timebase then ((s.at cc).unpPop l f).shedFrame l shedLate f.part else ((s.at cc).unpPop l f).toMesh f.msg) := by
  show execUnpFrameInject l cc s = _
  unfold execUnpFrameInject
  extract_lets s1
  have hhead : s1.unpHead l = some f := hhead
  rw [hhead]

theorem ingressDeadlineShed_head (hlate : f.late (s.at cc).timebase = true) :
    exec (.ingressDeadlineShed l cc) s = .next (((s.at cc).unpPop l f).shedFrame l shedLate f.part) := by
  show execIngressDeadlineShed l cc s = _
  unfold execIngressDeadlineShed
  extract_lets s1
  have hhead : s1.unpHead l = some f := hhead
  rw [hhead]
  exact congrArg Host.Outcome.next (if_pos hlate)

end

/-! ### Frames of tiles (R320) -/

theorem portEgressRequest_takes {t : Nat} {m : MeshMsg} {rest : List MeshMsg}
    (hm : takeFirst (fun (m : MeshMsg) => !m.srcGw && m.destGw && m.dest = 0 && coord m.src = t) s.grid.mesh = some (m, rest)) :
    exec (.portEgressRequest t) s = .next (({ s with grid := { s.grid with mesh := rest } } : State).egressTake t m) := by
  show execPortEgressRequest t s = _
  unfold execPortEgressRequest
  rw [hm]

/-! ### What the frames leave -/

theorem ethFrameReceive_steers (hmode : (s.sub l).cfg.mode = .ethernet) (hst : (s.sub l).state = .up) {bs : List Byte}
    (hb : frameBody frame = some bs) (hmac : macAccepts (s.sub l).cfg bs = true) {key : Nat} {e : Steer} {rest : SMap Steer}
    (hhit : s.steerHits l bs = (key, e) :: rest) (hpass : bit (e.word 0) 50 = true) (hlen : bs.length ≤ 4096)
    (hun : (s.sub l).cfg.unpausable = false) : Yields (.ethFrameReceive l cc frame) s (fun u =>
      u.grid.mesh = s.grid.mesh ++ [(steerMsg e l false bs (parseFrame bs) (s.at cc).timebase).msg] ∧ u.grid.tiles = s.grid.tiles ∧
      u.fab.steer.look key = some { e with seq := e.seq + 1 }) := by
  have hfec := fecIn_counted (s.at cc) l frame.corr frame.uncorr
  obtain ⟨cs, hs⟩ := hfec.sub
  have hhit : ((s.at cc).fecIn l frame.corr frame.uncorr).steerHits l bs = (key, e) :: rest := by
    rw [State.steerHits, hfec.fab]
    exact hhit
  have hun : (((s.at cc).fecIn l frame.corr frame.uncorr).sub l).cfg.unpausable = false := by
    rw [hs]
    exact hun
  have htime : ((s.at cc).fecIn l frame.corr frame.uncorr).timebase = (s.at cc).timebase := by
    rw [State.timebase, hfec.now, hfec.dtm, State.timebase]
  have hgrid : (((s.at cc).fecIn l frame.corr frame.uncorr).steerCount key e).grid = s.grid := hfec.grid
  refine ⟨_, (ethFrameReceive_good hmode hst hb).trans (congrArg _ ((if_pos hmac).trans (steerFrame_passes hhit hpass hlen hun))), ?_⟩
  rw [htime]
  dsimp only
  rw [toMesh_grid, toMesh_fab, hgrid]
  exact ⟨rfl, rfl, SMap.look_put_same ..⟩

theorem pauseReceive_holds (hcc : s.now ≤ cc) (hmode : (s.sub l).cfg.mode = .ethernet) (hst : (s.sub l).state = .up) {bs : List Byte}
    (hb : frameBody frame = some bs) {quanta : Nat} (htype : beAt bs 12 2 = 0x8808) (hop : beAt bs 14 2 = 0x0001)
    (hq : beAt bs 16 2 = quanta) (hne : quanta ≠ 0) : Yields (.pauseReceive l cc frame) s (fun u =>
      ∀ c, c < 8 → (u.sub l).ctr.paused.look c = some (cc + pauseCc quanta (s.subRate l))) := by
  have hfec := fecIn_counted (s.at cc) l frame.corr frame.uncorr
  have hrate : ((s.at cc).fecIn l frame.corr frame.uncorr).subRate l = s.subRate l := by
    simp only [State.subRate, hfec.port, State.port_at]
  refine ⟨_, (pauseReceive_takes hmode hst hb).trans (congrArg _ (takePause_holds htype hop hq hne)), fun c hc => ?_⟩
  rw [State.onCtr, State.sub_onSub, hfec.now, State.now_at_of_le hcc, hrate]
  exact pausedAll_look _ _ (List.mem_range.2 hc)

end

/-- Settles O41: a good frame (dropped, steered, PAUSE), a bad one, a hold's end, the ring, the on-chip queue, a tile's frame. The bytes of
PAUSE are the model's choice (log 22), as are the codes of the causes of a drop (log 50). -/
theorem ethernetFrames : Obligations.EthernetFrames := by
  unfold Obligations.EthernetFrames
  intro s l cc hcc x
  refine ⟨fun frame bs hmode hst hb => ⟨fun hmac => ?address,
      fun key e rest hmac hpass hlen hun hhit => ethFrameReceive_steers hmode hst hb hmac hhit hpass hlen hun,
      fun quanta htype hop hq hne => pauseReceive_holds hcc hmode hst hb htype hop hq hne⟩,
    fun frame hmode hst hb => ⟨_, ethFrameReceive_bad hmode hst hb, fecIn_drop ..⟩,
    fun cls t h ht => ⟨_, pauseTimerExpiry_releases h ht, ?released⟩, fun f fs hring hroom => ⟨_, spillRingMove_moves hring hroom, rfl⟩,
    fun f fs hunp hpop => ?queue, fun t m rest hm => ⟨_, portEgressRequest_takes hm, rfl⟩⟩
  case address =>
    exact ⟨_, (ethFrameReceive_good hmode hst hb).trans (congrArg _ (if_neg (by rw [hmac]; decide))), fecIn_drop ..⟩
  case released =>
    dsimp only
    rw [State.onCtr, State.sub_onSub]
    rfl
  case queue =>
    have hhead := unpHead_some hcc hunp hpop
    have hinject := unpFrameInject_head hhead
    exact ⟨fun hintime => ⟨_, hinject.trans (congrArg _ (if_neg (by rw [hintime]; decide))), rfl⟩,
      fun hlate => ⟨⟨_, ingressDeadlineShed_head hhead hlate, rfl⟩, _, hinject.trans (congrArg _ (if_pos hlate)), rfl⟩⟩

end Sys2Proof.Machine
end

section
namespace Sys2Proof.Machine

/-! ## Module management (R325, R326) -/

section
variable {s : State} {port cc : Nat}

/-- A page's place in the module's memory as it is written: the lower page, then the page itself (log 32). -/
def Cmis.underLow (c : Cmis) (page : List Byte) : List Byte := padTo 128 0 ((c.page 0 0).getD []) ++ padTo 128 0 page

/-- What a module that answers leaves of its cage once pages 10h and 11h are read. -/
def Cmis.reread (c : Cmis) (now : Nat) (p10 p11 : List Byte) : Cmis :=
  { c with polled := now, pages := (c.pages.put 0x10 (c.underLow p10)).put 0x11 (c.underLow p11) }

theorem cmisRead_answered (s : State) (port : Nat) (p10 p11 : List Byte) :
    s.cmisRead port true p10 p11 = s.setCmis port ((s.port port).cmis.reread s.now p10 p11) := rfl

theorem cmisRead_silent (s : State) (port : Nat) (p10 p11 : List Byte) : s.cmisRead port false p10 p11 = s.cmisSilent port := rfl

theorem setCmis_cmis (s : State) (port : Nat) (c : Cmis) : ((s.setCmis port c).port port).cmis = c := by simp [State.setCmis]

theorem setCmis_port_other (s : State) {q : Nat} (h : q ≠ port) (c : Cmis) : (s.setCmis port c).port q = s.port q :=
  s.port_setPort_other h _

/-- The lane flags and monitors of a module that is present and not held are read when it raises its interrupt. -/
theorem cmisInterrupt_reads (hp : port < 128) (hpres : (s.port port).cmis.present = true) (hheld : (s.port port).cmis.held = false)
    (ack : Bool) (p10 p11 : List Byte) : exec (.cmisInterrupt port ack p10 p11 cc) s = .next ((s.at cc).cmisRead port ack p10 p11) :=
  congrArg Host.Outcome.next (if_pos (by simp [hp, hpres, hheld]))

/-- They are read as well when a second has passed since they last were. -/
theorem cmisPoll_reads (hp : port < 128) (hpres : (s.port port).cmis.present = true) (hheld : (s.port port).cmis.held = false)
    (hdue : (s.port port).cmis.polled + 1875000000 ≤ cc) (ack : Bool) (p10 p11 : List Byte) :
    exec (.cmisPoll port ack p10 p11 cc) s = .next ((s.at cc).cmisRead port ack p10 p11) :=
  congrArg Host.Outcome.next (if_pos (by simp [hp, hpres, hheld, hdue]))

/-- The cage of a module that answers, right after a change of its presence. -/
def Cmis.inserted (pages : SMap (List Byte)) (now : Nat) : Cmis :=
  { present := true, pages := pages, polled := now, ack := true, held := false }

theorem mem_lportsOf_of_enabled {l : Nat} (h : l ∈ s.enabledSubs port) : l ∈ lportsOf port := (List.mem_filter.1 h).1

/-- A module that is inserted and answers has its pages read, and no sub-port of its port is held any longer. -/
theorem cmisPresence_inserted (hp : port < 128) (page bank : Nat) (bs : List Byte) :
    exec (.cmisPresence port true true [(page, bank, bs)] cc) s =
      .next (((s.at cc).setCmis port (.inserted [(256 * bank + page, padTo 256 0 bs)] (s.at cc).now)).onSubs (lportsOf port)
        (fun x => { x with held := false })) := by
  refine congrArg Host.Outcome.next ((if_neg (Nat.not_le.2 hp)).trans ?_)
  simp only [Bool.and_self, Bool.not_true, Bool.and_false, Bool.false_eq_true, if_false, if_true, List.foldl_cons, List.foldl_nil]
  rfl

end

/-- Settles O42: a module inserted; then the two readings, and a module that is silent. How a page is kept is the model's choice (log 32),
as is what the hold of its sub-ports leaves (log 63). -/
theorem moduleManagement : Obligations.ModuleManagement := by
  unfold Obligations.ModuleManagement
  intro s port cc p10 p11 hp hcc c low reads
  have hreads : reads ((s.at cc).cmisRead port true p10 p11) := by
    rw [cmisRead_answered, State.now_at_of_le hcc]
    exact ⟨setCmis_cmis .., rfl, fun q hq => setCmis_port_other _ hq _⟩
  refine ⟨fun page bank bs => ?inserted, fun hpres hheld => ⟨fun hdue => ⟨_, cmisPoll_reads hp hpres hheld hdue .., hreads⟩,
    ⟨_, cmisInterrupt_reads hp hpres hheld .., hreads⟩, ⟨_, cmisInterrupt_reads hp hpres hheld .., cmisRead_silent ..⟩⟩⟩
  case inserted =>
    refine ⟨_, cmisPresence_inserted hp page bank bs, ?_, fun l hl => ?_, fun q hq => ?_⟩
    · rw [(onSubs_onlySubs ..).port, setCmis_cmis, State.now_at_of_le hcc, Cmis.inserted]
    · exact onSubs_holds (P := fun x => x.held = false) (fun _ => rfl) (mem_lportsOf_of_enabled hl)
    · rw [(onSubs_onlySubs ..).port, setCmis_port_other _ hq, State.port_at]

end Sys2Proof.Machine
end
